-- ==== Sys2Proof/Word.lean ====
section
/-! DEFINITION. The word types. -/

namespace Sys2Proof

/-- A 32-bit word: a register of a lane, a group register, an instruction word (R13, R19, R29). -/
abbrev Word := BitVec 32

/-- One byte of memory. -/
abbrev Byte := BitVec 8

/-- A 64-bit register or value. -/
abbrev DWord := BitVec 64

end Sys2Proof
end

