-- ==== Sys2Proof/Machine/Bits.lean ====
section
/-! DEFINITION. Bit-field, sign and width helpers. -/

namespace Sys2Proof.Machine

/-- Bits hi..lo of a natural number (R6's Bits). -/
def bitsOf (x hi lo : Nat) : Nat := (x >>> lo) % 2 ^ (hi + 1 - lo)

/-- The signed reading of the low w bits of x (two's complement, R63). -/
def signedOf (w x : Nat) : Int :=
  let y := x % 2 ^ w
  if 2 * y < 2 ^ w then (y : Int) else (y : Int) - ((2 ^ w : Nat) : Int)

/-- The low w bits of an integer (R69's wrap modulo 2^w). -/
def wrapTo (w : Nat) (x : Int) : Nat := (x % ((2 ^ w : Nat) : Int)).toNat

/-- x with bits hi..lo replaced by the low bits of v. -/
def setBits (x hi lo v : Nat) : Nat :=
  let m := 2 ^ (hi + 1 - lo)
  x - bitsOf x hi lo * 2 ^ lo + (v % m) * 2 ^ lo

/-- One bit as a number. -/
def boolNat (b : Bool) : Nat := if b then 1 else 0

/-- The number of binary digits of x, 0 for 0. -/
def bitLen (x : Nat) : Nat := if x = 0 then 0 else Nat.log2 x + 1

/-- Number of set bits among the low w bits. -/
def popCount (w x : Nat) : Nat := ((List.range w).filter fun i => x.testBit i).length

/-- Bit i moved to bit w - 1 - i (BREV, R89). -/
def bitReverse (w x : Nat) : Nat :=
  (List.range w).foldl (fun a i => 2 * a + boolNat (x.testBit i)) 0

/-- Left rotation of a w-bit value. -/
def rotl (w x c : Nat) : Nat :=
  let k := c % w
  ((x <<< k) % 2 ^ w) ||| ((x % 2 ^ w) >>> (w - k))

/-- All ones in w bits. -/
def onesOf (w : Nat) : Nat := 2 ^ w - 1

/-- Bytes of a value, least significant first (little-endian, R8). -/
def bytesOf : Nat → Nat → List Byte
  | 0, _ => []
  | n + 1, x => BitVec.ofNat 8 x :: bytesOf n (x >>> 8)

/-- The value of bytes, least significant first. -/
def ofBytes : List Byte → Nat
  | [] => 0
  | b :: bs => b.toNat + (ofBytes bs <<< 8)

end Sys2Proof.Machine
end

