-- ==== Sys2Proof/Machine/SMap.lean ====
section
/-! DEFINITION. Sparse maps: lists of (key, value) pairs with strictly rising keys. Memory is such a map with one
value, the default, never listed (the model's own form of MEMORY; log 6). -/

namespace Sys2Proof.Machine

/-- A sparse map. -/
abbrev SMap (α : Type) := List (Nat × α)

/-- The value listed at a key. -/
def SMap.find? {α : Type} : SMap α → Nat → Option α
  | [], _ => none
  | (k, v) :: m, x => if x = k then some v else SMap.find? m x

/-- Listing a value at a key, in key order. -/
def SMap.put {α : Type} : SMap α → Nat → α → SMap α
  | [], x, v => [(x, v)]
  | (k, w) :: m, x, v =>
    if x < k then (x, v) :: (k, w) :: m
    else if x = k then (k, v) :: m
    else (k, w) :: SMap.put m x v

/-- Unlisting a key. -/
def SMap.del {α : Type} : SMap α → Nat → SMap α
  | [], _ => []
  | (k, w) :: m, x => if x = k then m else if x < k then (k, w) :: m else (k, w) :: SMap.del m x

/-- Reading with a default for unlisted keys. -/
def SMap.getD {α : Type} (m : SMap α) (d : α) (x : Nat) : α := (SMap.find? m x).getD d

/-- Writing with a default: the default itself is unlisted. -/
def SMap.setD {α : Type} [DecidableEq α] (m : SMap α) (d : α) (x : Nat) (v : α) : SMap α :=
  if v = d then SMap.del m x else SMap.put m x v

/-- Changing the value listed at a key; an unlisted key stays unlisted. -/
def SMap.modify {α : Type} (m : SMap α) (x : Nat) (f : α → α) : SMap α :=
  m.map fun kv => if kv.1 = x then (kv.1, f kv.2) else kv

/-- Changing every value. -/
def SMap.mapVals {α : Type} (m : SMap α) (f : α → α) : SMap α := m.map fun kv => (kv.1, f kv.2)

/-- Keys strictly above a bound, rising. -/
def SMap.above {α : Type} : Nat → SMap α → Bool
  | _, [] => true
  | b, (k, _) :: m => decide (b < k) && SMap.above k m

/-- Strictly rising keys. -/
def SMap.sorted {α : Type} : SMap α → Bool
  | [] => true
  | (k, _) :: m => SMap.above k m

/-- The canonical form with a default: rising keys, and no entry equal to the default. -/
def SMap.canon {α : Type} [DecidableEq α] (d : α) (m : SMap α) : Bool :=
  SMap.sorted m && m.all fun kv => kv.2 ≠ d

/-- Unlisting every key of lo .. lo + n - 1. -/
def SMap.delRange {α : Type} (m : SMap α) (lo n : Nat) : SMap α :=
  m.filter fun kv => decide (kv.1 < lo) || decide (lo + n ≤ kv.1)

/-- Memory: bytes by address, byte 0 unlisted (log 6). -/
abbrev Memory := SMap (BitVec 8)

/-- What an unlisted address reads as. -/
def Memory.blank : BitVec 8 := 0#8

def Memory.byte (m : Memory) (a : Nat) : BitVec 8 := SMap.getD m Memory.blank a
def Memory.setByte (m : Memory) (a : Nat) (b : BitVec 8) : Memory := SMap.setD m Memory.blank a b

/-- The canonical form of memory. -/
def Memory.wf (m : Memory) : Bool := SMap.canon Memory.blank m

/-- n bytes from an address up. -/
def Memory.bytes (m : Memory) (a : Nat) : Nat → List (BitVec 8)
  | 0 => []
  | n + 1 => m.byte a :: Memory.bytes m (a + 1) n

/-- Storing bytes from an address up. -/
def Memory.setBytes (m : Memory) (a : Nat) : List (BitVec 8) → Memory
  | [] => m
  | b :: bs => Memory.setBytes (m.setByte a b) (a + 1) bs

end Sys2Proof.Machine
end

