-- ==== Sys2Proof/Machine/Aes.lean ====
section
/-! DEFINITION. AES-256 in XTS mode over a 128-byte line, as the HBM controller encrypts and decrypts it (16_die_memory R342).
The manual names the cipher, the data unit and the tweak; the cipher itself, the byte order of the tweak and its powers are
those of the standards that define AES and XTS (PRESUMED: log 21). -/

namespace Sys2Proof.Machine

open Sys2Proof

/-! ## AES-256 -/

/-- The substitution of AES, by its rows of 16. -/
def aesBox : List Nat :=
  [99, 124, 119, 123, 242, 107, 111, 197, 48, 1, 103, 43, 254, 215, 171, 118] ++
  [202, 130, 201, 125, 250, 89, 71, 240, 173, 212, 162, 175, 156, 164, 114, 192] ++
  [183, 253, 147, 38, 54, 63, 247, 204, 52, 165, 229, 241, 113, 216, 49, 21] ++
  [4, 199, 35, 195, 24, 150, 5, 154, 7, 18, 128, 226, 235, 39, 178, 117] ++
  [9, 131, 44, 26, 27, 110, 90, 160, 82, 59, 214, 179, 41, 227, 47, 132] ++
  [83, 209, 0, 237, 32, 252, 177, 91, 106, 203, 190, 57, 74, 76, 88, 207] ++
  [208, 239, 170, 251, 67, 77, 51, 133, 69, 249, 2, 127, 80, 60, 159, 168] ++
  [81, 163, 64, 143, 146, 157, 56, 245, 188, 182, 218, 33, 16, 255, 243, 210] ++
  [205, 12, 19, 236, 95, 151, 68, 23, 196, 167, 126, 61, 100, 93, 25, 115] ++
  [96, 129, 79, 220, 34, 42, 144, 136, 70, 238, 184, 20, 222, 94, 11, 219] ++
  [224, 50, 58, 10, 73, 6, 36, 92, 194, 211, 172, 98, 145, 149, 228, 121] ++
  [231, 200, 55, 109, 141, 213, 78, 169, 108, 86, 244, 234, 101, 122, 174, 8] ++
  [186, 120, 37, 46, 28, 166, 180, 198, 232, 221, 116, 31, 75, 189, 139, 138] ++
  [112, 62, 181, 102, 72, 3, 246, 14, 97, 53, 87, 185, 134, 193, 29, 158] ++
  [225, 248, 152, 17, 105, 217, 142, 148, 155, 30, 135, 233, 206, 85, 40, 223] ++
  [140, 161, 137, 13, 191, 230, 66, 104, 65, 153, 45, 15, 176, 84, 187, 22]

/-- Its inverse. -/
def aesUnbox : List Nat :=
  [82, 9, 106, 213, 48, 54, 165, 56, 191, 64, 163, 158, 129, 243, 215, 251] ++
  [124, 227, 57, 130, 155, 47, 255, 135, 52, 142, 67, 68, 196, 222, 233, 203] ++
  [84, 123, 148, 50, 166, 194, 35, 61, 238, 76, 149, 11, 66, 250, 195, 78] ++
  [8, 46, 161, 102, 40, 217, 36, 178, 118, 91, 162, 73, 109, 139, 209, 37] ++
  [114, 248, 246, 100, 134, 104, 152, 22, 212, 164, 92, 204, 93, 101, 182, 146] ++
  [108, 112, 72, 80, 253, 237, 185, 218, 94, 21, 70, 87, 167, 141, 157, 132] ++
  [144, 216, 171, 0, 140, 188, 211, 10, 247, 228, 88, 5, 184, 179, 69, 6] ++
  [208, 44, 30, 143, 202, 63, 15, 2, 193, 175, 189, 3, 1, 19, 138, 107] ++
  [58, 145, 17, 65, 79, 103, 220, 234, 151, 242, 207, 206, 240, 180, 230, 115] ++
  [150, 172, 116, 34, 231, 173, 53, 133, 226, 249, 55, 232, 28, 117, 223, 110] ++
  [71, 241, 26, 113, 29, 41, 197, 137, 111, 183, 98, 14, 170, 24, 190, 27] ++
  [252, 86, 62, 75, 198, 210, 121, 32, 154, 219, 192, 254, 120, 205, 90, 244] ++
  [31, 221, 168, 51, 136, 7, 199, 49, 177, 18, 16, 89, 39, 128, 236, 95] ++
  [96, 81, 127, 169, 25, 181, 74, 13, 45, 229, 122, 159, 147, 201, 156, 239] ++
  [160, 224, 59, 77, 174, 42, 245, 176, 200, 235, 187, 60, 131, 83, 153, 97] ++
  [23, 43, 4, 126, 186, 119, 214, 38, 225, 105, 20, 99, 85, 33, 12, 125]

def subByte (t : List Nat) (b : Byte) : Byte := BitVec.ofNat 8 ((t[b.toNat]?).getD 0)

/-- Multiplication by x in the field of AES, and by a small constant. -/
def xtime (b : Byte) : Byte := (b <<< 1) ^^^ (if b.msb then 0x1B#8 else 0#8)
def aesMul (n : Nat) (b : Byte) : Byte :=
  let b2 := xtime b
  let b4 := xtime b2
  let b8 := xtime b4
  (if n.testBit 0 then b else 0#8) ^^^ (if n.testBit 1 then b2 else 0#8) ^^^ (if n.testBit 2 then b4 else 0#8) ^^^
    (if n.testBit 3 then b8 else 0#8)

def xorBytes (a b : List Byte) : List Byte := List.zipWith (· ^^^ ·) a b

/-- The round constants of seven rounds of the key schedule. -/
def aesRcon : List Byte := [0x01#8, 0x02#8, 0x04#8, 0x08#8, 0x10#8, 0x20#8, 0x40#8]

/-- The next eight words of the key schedule from the last eight, under one round constant. -/
def aesNext (w : List (List Byte)) (rc : Byte) : List (List Byte) :=
  let at' (i : Nat) : List Byte := (w[i]?).getD []
  let sub (x : List Byte) : List Byte := x.map (subByte aesBox)
  let turn (x : List Byte) : List Byte := x.drop 1 ++ x.take 1
  let w0 := xorBytes (at' 0) (xorBytes (sub (turn (at' 7))) [rc, 0#8, 0#8, 0#8])
  let w1 := xorBytes (at' 1) w0
  let w2 := xorBytes (at' 2) w1
  let w3 := xorBytes (at' 3) w2
  let w4 := xorBytes (at' 4) (sub w3)
  let w5 := xorBytes (at' 5) w4
  let w6 := xorBytes (at' 6) w5
  [w0, w1, w2, w3, w4, w5, w6, xorBytes (at' 7) w6]

/-- Pieces of n elements, at most k of them. -/
def blocks {α : Type} (n : Nat) : Nat → List α → List (List α)
  | 0, _ => []
  | k + 1, l => l.take n :: blocks n k (l.drop n)

/-- The fifteen round keys of a 32-byte key, 16 bytes each. -/
def aesKeys (key : List Byte) : List (List Byte) :=
  let w := aesRcon.foldl (fun (a : List (List Byte) × List (List Byte)) rc =>
    let n := aesNext a.2 rc
    (a.1 ++ n, n)) (blocks 4 8 key, blocks 4 8 key)
  blocks 16 15 w.1.flatten

/-- Byte i of a block stands in row i % 4 and column i / 4: the rows turned by their number, one way or the other. -/
def aesShift (back : Bool) (b : List Byte) : List Byte :=
  (List.range 16).map fun i =>
    let r := i % 4
    let c := if back then (i / 4 + 4 - r) % 4 else (i / 4 + r) % 4
    (b[4 * c + r]?).getD 0#8

/-- Each column multiplied by the matrix whose first row is given. -/
def aesMix (row : List Nat) (b : List Byte) : List Byte :=
  (List.range 16).map fun i => (List.range 4).foldl (fun (a : Byte) j =>
    a ^^^ aesMul ((row[(j + 4 - i % 4) % 4]?).getD 0) ((b[4 * (i / 4) + j]?).getD 0#8)) 0#8

/-- One block encrypted, or decrypted, under the round keys. -/
def aesEncrypt (keys : List (List Byte)) (b : List Byte) : List Byte :=
  let key (i : Nat) : List Byte := (keys[i]?).getD []
  let sub (x : List Byte) : List Byte := aesShift false (x.map (subByte aesBox))
  let mid := (List.range 13).foldl (fun x i => xorBytes (aesMix [2, 3, 1, 1] (sub x)) (key (i + 1))) (xorBytes b (key 0))
  xorBytes (sub mid) (key 14)
def aesDecrypt (keys : List (List Byte)) (b : List Byte) : List Byte :=
  let key (i : Nat) : List Byte := (keys[i]?).getD []
  let unsub (x : List Byte) : List Byte := (aesShift true x).map (subByte aesUnbox)
  let mid := (List.range 13).foldl (fun x i => aesMix [14, 11, 13, 9] (xorBytes (unsub x) (key (13 - i)))) (xorBytes b (key 14))
  xorBytes (unsub mid) (key 0)

/-! ## XTS over a line -/

/-- The tweak of each 16-byte block of a data unit: the encrypted number of the unit, times the powers of x. -/
def xtsTweaks (keys : List (List Byte)) (unit : Nat) : List (List Byte) :=
  let double (t : Nat) : Nat := if t.testBit 127 then (2 * t % 2 ^ 128) ^^^ 0x87 else 2 * t
  ((List.range 8).foldl (fun (a : List (List Byte) × Nat) _ => (a.1 ++ [bytesOf 16 a.2], double a.2))
    ([], ofBytes (aesEncrypt keys (bytesOf 16 unit)))).1

/-- Key material as 64 bytes: the data key, then the tweak key (R343). -/
def xtsCrypt (decrypt : Bool) (material unit : Nat) (line : List Byte) : List Byte :=
  let bs := bytesOf 64 material
  let data := aesKeys (bs.take 32)
  ((blocks 16 8 line).zip (xtsTweaks (aesKeys (bs.drop 32)) unit)).flatMap fun bt =>
    xorBytes (if decrypt then aesDecrypt data (xorBytes bt.1 bt.2) else aesEncrypt data (xorBytes bt.1 bt.2)) bt.2

/-- A line of HBM written under one material and read under another (R342, R343): the data unit is the line, the tweak
PA[51:7]. -/
def underKey (written read unit : Nat) (line : List Byte) : List Byte :=
  xtsCrypt true read unit (xtsCrypt false written unit line)

end Sys2Proof.Machine
end

