-- ==== Sys2Proof/Machine/Num.lean ====
section
/-! DEFINITION. Number formats: encodings, exact values, block scales, the codebook, element types and the
stochastic generator (04_number_formats R60-R65, R74; R24's type codes). -/

namespace Sys2Proof.Machine

/-- The floating-point formats of R61. -/
inductive Fmt where
  | f64 | f32 | h16 | bf16 | e4m3 | e5m2 | fp4
  deriving DecidableEq, Repr

/-- Width in bits (R61). -/
def Fmt.width : Fmt → Nat
  | .f64 => 64 | .f32 => 32 | .h16 => 16 | .bf16 => 16 | .e4m3 => 8 | .e5m2 => 8 | .fp4 => 4

/-- Fraction bits m (R61). -/
def Fmt.frac : Fmt → Nat
  | .f64 => 52 | .f32 => 23 | .h16 => 10 | .bf16 => 7 | .e4m3 => 3 | .e5m2 => 2 | .fp4 => 1

/-- Exponent bias (R61). -/
def Fmt.bias : Fmt → Nat
  | .f64 => 1023 | .f32 => 127 | .h16 => 15 | .bf16 => 127 | .e4m3 => 7 | .e5m2 => 15 | .fp4 => 1

/-- The exponent code of infinities and NaNs, where the format has one (R61, R62). -/
def Fmt.special : Fmt → Option Nat
  | .f64 => some 2047 | .f32 => some 255 | .h16 => some 31 | .bf16 => some 255
  | .e4m3 => none | .e5m2 => some 31 | .fp4 => none

/-- Significand of the largest finite magnitude, in units of its last place (R61). -/
def Fmt.maxMan : Fmt → Nat
  | .f64 => 2 ^ 53 - 1 | .f32 => 2 ^ 24 - 1 | .h16 => 2 ^ 11 - 1 | .bf16 => 255
  | .e4m3 => 14 | .e5m2 => 7 | .fp4 => 3

/-- Exponent of the last place of the largest finite magnitude (R61). -/
def Fmt.maxExp : Fmt → Int
  | .f64 => 971 | .f32 => 104 | .h16 => 5 | .bf16 => 120 | .e4m3 => 5 | .e5m2 => 13 | .fp4 => 1

/-- Exponent of the minimum normal number, 1 - bias (R61). -/
def Fmt.minExp (f : Fmt) : Int := 1 - (f.bias : Int)

/-- Canonical NaN pattern (R62); a format without NaN gives 0. -/
def Fmt.nan : Fmt → Nat
  | .f64 => 0x7FF8000000000000 | .f32 => 0x7FC00000 | .h16 => 0x7E00 | .bf16 => 0x7FC0
  | .e4m3 => 0x7F | .e5m2 => 0x7E | .fp4 => 0

/-- FTZ acts on these four formats only (R67). -/
def Fmt.flushable : Fmt → Bool
  | .f64 | .f32 | .h16 | .bf16 => true
  | .e4m3 | .e5m2 | .fp4 => false

/-- The sign bit of a pattern with sign `neg`. -/
def Fmt.signBit (f : Fmt) (neg : Bool) : Nat := if neg then 2 ^ (f.width - 1) else 0

/-- An exact value: a finite number is (-1)^neg * man * 2^exp, with man = 0 for a signed zero (R61, R62). -/
inductive FVal where
  | nan
  | inf (neg : Bool)
  | fin (neg : Bool) (man : Nat) (exp : Int)
  deriving DecidableEq, Repr

/-- The value of a pattern (R61, R62). -/
def Fmt.decode (f : Fmt) (bits : Nat) : FVal :=
  let neg := bits.testBit (f.width - 1)
  let e := bitsOf bits (f.width - 2) f.frac
  let fr := bits % 2 ^ f.frac
  if f = .e4m3 ∧ e = 15 ∧ fr = 7 then .nan
  else if f.special = some e then (if fr = 0 then .inf neg else .nan)
  else if e = 0 then .fin neg fr (f.minExp - (f.frac : Int))
  else .fin neg (2 ^ f.frac + fr) ((e : Int) - (f.bias : Int) - (f.frac : Int))

/-- A subnormal pattern: exponent code 0 and a nonzero fraction. -/
def Fmt.isSub (f : Fmt) (bits : Nat) : Bool :=
  bitsOf bits (f.width - 2) f.frac = 0 && bits % 2 ^ f.frac != 0

/-- Reading an input: under FTZ a subnormal of a flushable format reads as a zero of its sign (R67). -/
def Fmt.read (f : Fmt) (ftz : Bool) (bits : Nat) : FVal :=
  if ftz && f.flushable && f.isSub bits then .fin (bits.testBit (f.width - 1)) 0 0 else f.decode bits

/-- The pattern of a nonnegative q * 2^e whose last place e is that of the format's grid and which is in range. -/
def Fmt.encodeFin (f : Fmt) (neg : Bool) (q : Nat) (e : Int) : Nat :=
  f.signBit neg +
    (if q < 2 ^ f.frac then q
     else (e + (f.frac : Int) + (f.bias : Int)).toNat * 2 ^ f.frac + (q - 2 ^ f.frac))

/-- The largest finite pattern of a sign. -/
def Fmt.maxBits (f : Fmt) (neg : Bool) : Nat := f.encodeFin neg f.maxMan f.maxExp

/-- The infinity of a sign; E4M3 delivers its NaN and FP4 its largest magnitude instead (R71). -/
def Fmt.infBits (f : Fmt) (neg : Bool) : Nat :=
  match f with
  | .e4m3 => f.nan
  | .fp4 => f.maxBits neg
  | _ => f.signBit neg + (f.special.getD 0) * 2 ^ f.frac

/-- The sign of a value; a NaN counts as positive. -/
def FVal.neg : FVal → Bool
  | .nan => false
  | .inf n => n
  | .fin n _ _ => n

def FVal.isNan : FVal → Bool
  | .nan => true
  | _ => false

/-- A zero of either sign. -/
def FVal.isZero : FVal → Bool
  | .fin _ 0 _ => true
  | _ => false

/-- The value with its sign inverted. -/
def FVal.negate : FVal → FVal
  | .nan => .nan
  | .inf n => .inf (!n)
  | .fin n m e => .fin (!n) m e

/-- An exact integer as a value. -/
def FVal.ofInt (x : Int) : FVal := .fin (decide (x < 0)) x.natAbs 0

/-- The value of an SE8 block scale: 2^(e-127), or NaN for 255 (R64). -/
def se8 (e : Nat) : FVal := if e % 256 = 255 then .nan else .fin false 1 ((e % 256 : Nat) - 127)

/-- The eight components of a VQ2 word, with its SE8 scale applied (R65). -/
def vq2 (w e : Nat) : List FVal :=
  let h := bitsOf w 15 8
  let lift := bitsOf w 7 7
  let par := (List.range 7).foldl (fun p i => p != w.testBit i) false
  (List.range 8).map fun k =>
    let neg := if k = 7 then par else w.testBit k
    let twice := if h.testBit k then 3 + 2 * lift else 1
    if e % 256 = 255 then .nan else .fin neg twice (((e % 256 : Nat) : Int) - 128)

/-- Element types of MODE.ET, MODE.GT and the CVT type codes (R24, R98). -/
inductive ElemType where
  | s32 | n32 | s64 | n64 | f32 | f64 | bf16x2 | h16x2 | s16x2 | n16x2 | s8x4 | n8x4
  deriving DecidableEq, Repr

/-- The type of a code; codes 12-15 are reserved and never stand in MODE (R24). -/
def ElemType.ofCode : Nat → Option ElemType
  | 0 => some .s32 | 1 => some .n32 | 2 => some .s64 | 3 => some .n64 | 4 => some .f32 | 5 => some .f64
  | 6 => some .bf16x2 | 7 => some .h16x2 | 8 => some .s16x2 | 9 => some .n16x2 | 10 => some .s8x4
  | 11 => some .n8x4 | _ => none

/-- The code of a type (R24). -/
def ElemType.code : ElemType → Nat
  | .s32 => 0 | .n32 => 1 | .s64 => 2 | .n64 => 3 | .f32 => 4 | .f64 => 5
  | .bf16x2 => 6 | .h16x2 => 7 | .s16x2 => 8 | .n16x2 => 9 | .s8x4 => 10 | .n8x4 => 11

/-- Element width in bits (R84). -/
def ElemType.width : ElemType → Nat
  | .s32 | .n32 | .f32 => 32
  | .s64 | .n64 | .f64 => 64
  | .bf16x2 | .h16x2 | .s16x2 | .n16x2 => 16
  | .s8x4 | .n8x4 => 8

/-- Elements in an operand (R107). -/
def ElemType.count : ElemType → Nat
  | .s32 | .n32 | .f32 | .s64 | .n64 | .f64 => 1
  | .bf16x2 | .h16x2 | .s16x2 | .n16x2 => 2
  | .s8x4 | .n8x4 => 4

/-- Operand width: 64 bits for ET 2, 3 and 5, otherwise 32 (R83). -/
def ElemType.wide : ElemType → Bool
  | .s64 | .n64 | .f64 => true
  | _ => false

/-- The float format of an element type. -/
def ElemType.fmt : ElemType → Option Fmt
  | .f32 => some .f32 | .f64 => some .f64 | .bf16x2 => some .bf16 | .h16x2 => some .h16
  | _ => none

/-- A signed integer type. -/
def ElemType.signed : ElemType → Bool
  | .s32 | .s64 | .s16x2 | .s8x4 => true
  | _ => false

/-- An integer type. -/
def ElemType.isInt (t : ElemType) : Bool := t.fmt.isNone

/-- The elements of an operand value, lowest first (R60). -/
def ElemType.split (t : ElemType) (x : Nat) : List Nat :=
  (List.range t.count).map fun j => (x >>> (j * t.width)) % 2 ^ t.width

/-- An operand value from w-bit elements, lowest first (R60). -/
def packElems (w : Nat) : List Nat → Nat
  | [] => 0
  | x :: xs => x % 2 ^ w + (packElems w xs <<< w)

/-- An element as an integer, signed or unsigned by its type (R63). -/
def elemInt (sgn : Bool) (w x : Nat) : Int := if sgn then signedOf w x else ((x % 2 ^ w : Nat) : Int)

/-- Smallest and largest values of an integer type (R63). -/
def intMin (sgn : Bool) (w : Nat) : Int := if sgn then -((2 ^ (w - 1) : Nat) : Int) else 0
def intMax (sgn : Bool) (w : Nat) : Int :=
  if sgn then ((2 ^ (w - 1) : Nat) : Int) - 1 else ((2 ^ w : Nat) : Int) - 1

/-- The nearest value of the type's range. -/
def clampInt (sgn : Bool) (w : Nat) (x : Int) : Int :=
  if x < intMin sgn w then intMin sgn w else if intMax sgn w < x then intMax sgn w else x

/-- R69: an exact integer result wrapped modulo 2^w, or clamped under SAT. -/
def fitInt (sat sgn : Bool) (w : Nat) (x : Int) : Nat :=
  wrapTo w (if sat then clampInt sgn w x else x)

/-- One step of a stochastic-rounding state (R74). -/
def srStep (x : Nat) : Nat :=
  let a := x ^^^ ((x <<< 13) % 2 ^ 32)
  let b := a ^^^ (a >>> 17)
  b ^^^ ((b <<< 5) % 2 ^ 32)

/-- The word an element at position e of a step uses (R75). -/
def srWord (state e : Nat) : Nat := rotl 32 state ((7 * e) % 32)

/-- The narrow format codes of CVTN and CVTW, and the copy-out codes (R98). -/
inductive NarrowFmt where
  | flt (f : Fmt)
  | int (sgn : Bool) (w : Nat)
  deriving DecidableEq, Repr

/-- Narrow format of a code 0-9 (R98). -/
def NarrowFmt.ofCode : Nat → Option NarrowFmt
  | 0 => some (.flt .bf16) | 1 => some (.flt .h16) | 2 => some (.flt .e4m3) | 3 => some (.flt .e5m2)
  | 4 => some (.flt .fp4) | 5 => some (.int true 8) | 6 => some (.int false 8) | 7 => some (.int true 4)
  | 8 => some (.int true 16) | 9 => some (.int false 16) | _ => none

/-- Element width of a narrow format. -/
def NarrowFmt.width : NarrowFmt → Nat
  | .flt f => f.width
  | .int _ w => w

end Sys2Proof.Machine
end

