-- ==== Sys2Proof/Machine/Flags.lean ====
section
/-! DEFINITION. Rounding and every flag computation: FPFLAGS (R21, R66), the rounding modes (R70-R75), the
conversions of special values (R71-R73), exact sums and products (R66, R99), the fixed summation orders (R76-R81). -/

namespace Sys2Proof.Machine

/-- The sticky flags of FPFLAGS (R21): IV bit 4, DZ bit 3, OF bit 2, UF bit 1, NX bit 0. -/
abbrev Flags := BitVec 5

def flagIV : Flags := 16#5
def flagDZ : Flags := 8#5
def flagOF : Flags := 4#5
def flagUF : Flags := 2#5
def flagNX : Flags := 1#5

/-- A flag when the condition holds. -/
def flagIf (b : Bool) (f : Flags) : Flags := if b then f else 0#5

/-- The rounding modes of R70; `sr` carries the word of the element's position (R75). -/
inductive RMode where
  | rne | rtz | rup | rdn | rna
  | sr (w : Nat)
  deriving DecidableEq, Repr

/-- MODE.RM as every operation but the stochastic converters reads it: 5 is RNE (R70, R85). -/
def RMode.ofCode : Nat → RMode
  | 1 => .rtz | 2 => .rup | 3 => .rdn | 4 => .rna | _ => .rne

/-- MODE.RM as the stochastic converters read it, with the word of the element's position (R70, R75). -/
def RMode.ofCodeSr (rm w : Nat) : RMode := if rm = 5 then .sr w else RMode.ofCode rm

/-- A magnitude man * 2^exp, plus something below its last place when sticky, cut to a grid whose last place is
2^e: the truncated count of last places, whether anything was discarded, and whether the mode carries
(R70, R75). -/
def cutMag (rm : RMode) (neg : Bool) (man : Nat) (exp e : Int) (sticky : Bool) : Nat × Bool × Bool :=
  if e ≤ exp then (man <<< (exp - e).toNat, sticky,
    match rm with
    | .rup => sticky && !neg
    | .rdn => sticky && neg
    | _ => false)
  else
    let sh0 := (e - exp).toNat
    let sh := if bitLen man + 34 < sh0 then bitLen man + 34 else sh0
    let q := man >>> sh
    let r := man % 2 ^ sh
    let inexact := r != 0 || sticky
    let half := 2 ^ (sh - 1)
    let up := match rm with
      | .rne => decide (half < r) || (r == half && (sticky || q % 2 == 1))
      | .rtz => false
      | .rup => inexact && !neg
      | .rdn => inexact && neg
      | .rna => decide (half ≤ r)
      | .sr w =>
        let d := if sh < 32 then sh else 32
        decide (2 ^ d ≤ (r >>> (sh - d)) + bitsOf w 31 (32 - d))
    (q, inexact, up)

/-- Cut and carry. -/
def roundMag (rm : RMode) (neg : Bool) (man : Nat) (exp e : Int) (sticky : Bool) : Nat × Bool :=
  let (q, inexact, up) := cutMag rm neg man exp e sticky
  (if up then q + 1 else q, inexact)

/-- Exponent of the last place of a magnitude rounded to p + 1 significant bits with no lower exponent limit. -/
def freeLsb (frac man : Nat) (exp : Int) : Int := exp + (bitLen man : Int) - 1 - (frac : Int)

/-- Whether a rounded overflow delivers an infinity (R71): every mode but the ones that round toward the finite. -/
def overflowsToInf (rm : RMode) (neg : Bool) : Bool :=
  match rm with
  | .rtz => false
  | .rup => !neg
  | .rdn => neg
  | _ => true

/-- What a conversion or an operation delivers. -/
structure Rounded where
  bits : Nat
  flags : Flags
  deriving DecidableEq, Repr

/-- Round(fmt, x, rm) of a nonzero finite magnitude (R66, R67, R70, R71, R75): `sat` is R71's SAT of a conversion. -/
def roundFin (f : Fmt) (rm : RMode) (ftz sat : Bool) (neg : Bool) (man : Nat) (exp : Int) (sticky : Bool) :
    Rounded :=
  let free := freeLsb f.frac man exp
  let low := f.minExp - (f.frac : Int)
  let e := if free < low then low else free
  let (q, inexact) := roundMag rm neg man exp e sticky
  let (qf, _) := roundMag rm neg man exp free sticky
  let tiny := decide (bitLen qf + free < f.minExp + 1)
  if ftz && f.flushable && tiny then ⟨f.signBit neg, flagUF ||| flagNX⟩
  else
    let (q, e) := if q = 2 ^ (f.frac + 1) then (2 ^ f.frac, e + 1) else (q, e)
    if f.maxExp < e ∨ (e = f.maxExp ∧ f.maxMan < q) then
      let bits :=
        if overflowsToInf rm neg then
          (if sat && f != .f32 && f != .f64 then f.maxBits neg else f.infBits neg)
        else f.maxBits neg
      ⟨bits, flagOF ||| flagNX⟩
    else ⟨f.encodeFin neg q e, flagIf inexact flagNX ||| flagIf (tiny && inexact) flagUF⟩

/-- Round(fmt, x, rm) of a value in arithmetic: NaN is canonical, infinities stay, zeros keep their sign. -/
def roundTo (f : Fmt) (rm : RMode) (ftz : Bool) (x : FVal) : Rounded :=
  match x with
  | .nan => ⟨f.nan, 0⟩
  | .inf n => ⟨f.infBits n, 0⟩
  | .fin n 0 _ => ⟨f.signBit n, 0⟩
  | .fin n m e => roundFin f rm ftz false n m e false

/-- A conversion to a float format (R71, R72). -/
def convertTo (f : Fmt) (rm : RMode) (ftz sat : Bool) (x : FVal) : Rounded :=
  match x with
  | .nan => ⟨f.nan, flagIf (f == .e4m3 || f == .fp4) flagIV⟩
  | .inf n =>
    ⟨if sat && f != .f32 && f != .f64 then f.maxBits n else f.infBits n, flagIf (f == .e4m3 || f == .fp4) flagIV⟩
  | .fin n 0 _ => ⟨f.signBit n, 0⟩
  | .fin n m e => roundFin f rm ftz sat n m e false

/-- A finite value rounded to an integer (R73, R105): the magnitude and whether it was inexact. -/
def roundInt (rm : RMode) (neg : Bool) (man : Nat) (exp : Int) : Nat × Bool := roundMag rm neg man exp 0 false

/-- A conversion from a float value to an integer type: saturating whatever SAT, NaN gives 0 (R73). A result in the
range that was inexact raises NX, and one that needed saturation raises IV. -/
def toInt (sgn : Bool) (w : Nat) (rm : RMode) (x : FVal) : Rounded :=
  match x with
  | .nan => ⟨0, flagIV⟩
  | .inf n => ⟨wrapTo w (if n then intMin sgn w else intMax sgn w), flagIV⟩
  | .fin n m e =>
    if 70 < (bitLen m : Int) + e ∧ m ≠ 0 then ⟨wrapTo w (if n then intMin sgn w else intMax sgn w), flagIV⟩
    else
      let (q, inexact) := roundInt rm n m e
      let v : Int := if n then -(q : Int) else (q : Int)
      let c := clampInt sgn w v
      ⟨wrapTo w c, if c = v then flagIf inexact flagNX else flagIV⟩

/-- The signed integer m * 2^(e - e0) of a finite value, with e0 ≤ e. -/
def alignInt (neg : Bool) (m : Nat) (e e0 : Int) : Int :=
  let x : Nat := m <<< (e - e0).toNat
  if neg then -(x : Int) else (x : Int)

/-- An exact value and the flags of forming it. -/
structure Exact where
  val : FVal
  flags : Flags
  deriving DecidableEq, Repr

/-- Exact sum (R66, R99): opposite infinities are invalid; an exact zero sum is +0, or -0 under RDN, unless both
are zeros of the same sign. -/
def exactAdd (rdn : Bool) (a b : FVal) : Exact :=
  match a, b with
  | .nan, _ => ⟨.nan, 0⟩
  | _, .nan => ⟨.nan, 0⟩
  | .inf n, .inf n' => if n = n' then ⟨.inf n, 0⟩ else ⟨.nan, flagIV⟩
  | .inf n, .fin _ _ _ => ⟨.inf n, 0⟩
  | .fin _ _ _, .inf n => ⟨.inf n, 0⟩
  | .fin n m e, .fin n' m' e' =>
    if m = 0 ∧ m' = 0 then ⟨.fin (if n = n' then n else rdn) 0 0, 0⟩
    else if m = 0 then ⟨.fin n' m' e', 0⟩
    else if m' = 0 then ⟨.fin n m e, 0⟩
    else
      let e0 := if e ≤ e' then e else e'
      let s := alignInt n m e e0 + alignInt n' m' e' e0
      ⟨if s = 0 then .fin rdn 0 0 else .fin (decide (s < 0)) s.natAbs e0, 0⟩

/-- Exact product (R66, R99). -/
def exactMul (a b : FVal) : Exact :=
  match a, b with
  | .nan, _ => ⟨.nan, 0⟩
  | _, .nan => ⟨.nan, 0⟩
  | .inf n, .inf n' => ⟨.inf (n != n'), 0⟩
  | .inf n, .fin n' m _ => if m = 0 then ⟨.nan, flagIV⟩ else ⟨.inf (n != n'), 0⟩
  | .fin n m _, .inf n' => if m = 0 then ⟨.nan, flagIV⟩ else ⟨.inf (n != n'), 0⟩
  | .fin n m e, .fin n' m' e' => ⟨.fin (n != n') (m * m') (e + e'), 0⟩

def RMode.isRdn : RMode → Bool
  | .rdn => true
  | _ => false

/-- a + b rounded once (FADD, R99). -/
def fAdd (f : Fmt) (rm : RMode) (ftz : Bool) (a b : FVal) : Rounded :=
  let x := exactAdd rm.isRdn a b
  let r := roundTo f rm ftz x.val
  ⟨r.bits, r.flags ||| x.flags⟩

/-- a * b rounded once (FMUL, R99). -/
def fMul (f : Fmt) (rm : RMode) (ftz : Bool) (a b : FVal) : Rounded :=
  let x := exactMul a b
  let r := roundTo f rm ftz x.val
  ⟨r.bits, r.flags ||| x.flags⟩

/-- a * b + c, fused (FMA, R99); a product 0 * infinity is invalid whatever c (R66). -/
def fMulAdd (f : Fmt) (rm : RMode) (ftz : Bool) (a b c : FVal) : Rounded :=
  let p := exactMul a b
  let x := exactAdd rm.isRdn p.val c
  let r := roundTo f rm ftz x.val
  ⟨r.bits, r.flags ||| x.flags ||| p.flags⟩

/-- a0*b0 + a1*b1 + c, summed exactly and rounded once to F32 (FDOT2, R80, R106). Where opposite infinities and a NaN meet
among the three addends, IV is raised when the two products are those infinities, and not when the NaN is one of them
(DESIGN CHOICE, log 105: R66 and R80 give one exact sum and no order). -/
def fDot2 (rm : RMode) (ftz : Bool) (a0 b0 a1 b1 c : FVal) : Rounded :=
  let p := exactMul a0 b0
  let q := exactMul a1 b1
  let x := exactAdd rm.isRdn p.val q.val
  let y := exactAdd rm.isRdn x.val c
  let r := roundTo .f32 rm ftz y.val
  ⟨r.bits, r.flags ||| p.flags ||| q.flags ||| x.flags ||| y.flags⟩

/-- Numeric order of two values that are not NaN: a < b, with -0 = +0 (R101). -/
def fLess (a b : FVal) : Bool :=
  match a, b with
  | .nan, _ => false
  | _, .nan => false
  | .inf n, .inf n' => n && !n'
  | .inf n, .fin _ _ _ => n
  | .fin _ _ _, .inf n => !n
  | .fin n m e, .fin n' m' e' =>
    if m = 0 ∧ m' = 0 then false
    else
      let e0 := if e ≤ e' then e else e'
      decide (alignInt n m e e0 < alignInt n' m' e' e0)

/-- minimumNumber's choice: a below b, with -0 ordered below +0 (R68). -/
def fBelow (a b : FVal) : Bool :=
  if a.isZero && b.isZero then a.neg && !b.neg else fLess a b

/-- FMIN and FMAX on patterns as read (R68): the other operand when exactly one is NaN. -/
def fMinMax (f : Fmt) (ftz isMax : Bool) (x y : Nat) : Nat :=
  let a := f.read ftz x
  let b := f.read ftz y
  let flush (v : FVal) (bits : Nat) : Nat := if v.isZero then f.signBit v.neg else bits
  match a.isNan, b.isNan with
  | true, true => f.nan
  | true, false => flush b y
  | false, true => flush a x
  | false, false =>
    if isMax then (if fBelow a b then flush b y else flush a x)
    else (if fBelow b a then flush b y else flush a x)

/-- The sum of exact values, in order, starting from `acc`; NaN and opposite infinities make NaN (R76). -/
def exactSum (acc : FVal) (xs : List FVal) : FVal := xs.foldl (fun s x => (exactAdd false s x).val) acc

/-- One chunk of R76 for an F32 accumulator: the exact chunk sum is rounded, then added to acc and rounded. -/
def mmaChunkF32 (acc : Nat) (prods : List FVal) : Nat :=
  let s := roundTo .f32 .rne false
    (match prods with
     | [] => .fin false 0 0
     | p :: ps => exactSum p ps)
  (fAdd .f32 .rne false (Fmt.f32.decode acc) (Fmt.f32.decode s.bits)).bits

/-- One product of R76: a NaN factor or 0 * infinity makes NaN. -/
def mmaProduct (a b : FVal) : FVal := (exactMul a b).val

/-- A reduction operation of RDX and SCAN (R110). -/
inductive RedOp where
  | add | min | max | band | bor | bxor
  deriving DecidableEq, Repr

def RedOp.ofCode : Nat → Option RedOp
  | 0 => some .add | 1 => some .min | 2 => some .max | 3 => some .band | 4 => some .bor | 5 => some .bxor
  | _ => none

/-- The identity a lane that takes no part enters with (R78, R114). -/
def RedOp.identity (t : ElemType) (op : RedOp) : Nat :=
  match op with
  | .band => onesOf t.width
  | .bor | .bxor => 0
  | .add => match t.fmt with
    | some f => f.signBit true
    | none => 0
  | .min => match t.fmt with
    | some f => f.nan
    | none => wrapTo t.width (intMax t.signed t.width)
  | .max => match t.fmt with
    | some f => f.nan
    | none => wrapTo t.width (intMin t.signed t.width)

/-- One combination of two elements, rounded RNE for floats and by R69 for integers (R78, R79, R114, R116). -/
def RedOp.combine (t : ElemType) (ftz sat : Bool) (op : RedOp) (x y : Nat) : Rounded :=
  match op with
  | .band => ⟨x &&& y, 0⟩
  | .bor => ⟨x ||| y, 0⟩
  | .bxor => ⟨x ^^^ y, 0⟩
  | .add => match t.fmt with
    | some f => fAdd f .rne ftz (f.read ftz x) (f.read ftz y)
    | none => ⟨fitInt sat t.signed t.width (elemInt t.signed t.width x + elemInt t.signed t.width y), 0⟩
  | .min => match t.fmt with
    | some f => ⟨fMinMax f ftz false x y, 0⟩
    | none => ⟨if elemInt t.signed t.width x ≤ elemInt t.signed t.width y then x else y, 0⟩
  | .max => match t.fmt with
    | some f => ⟨fMinMax f ftz true x y, 0⟩
    | none => ⟨if elemInt t.signed t.width x ≤ elemInt t.signed t.width y then y else x, 0⟩

/-- One level of the pairwise tree of R78. -/
def treeLevel (comb : Nat → Nat → Rounded) : List Nat → List Nat × Flags
  | x :: y :: rest =>
    let r := comb x y
    let (l, fl) := treeLevel comb rest
    (r.bits :: l, r.flags ||| fl)
  | [x] => ([x], 0)
  | [] => ([], 0)

/-- The five levels of the tree over 32 lanes (R78). -/
def treeReduce (comb : Nat → Nat → Rounded) : Nat → List Nat → Nat × Flags
  | 0, xs => (xs.headD 0, 0)
  | k + 1, xs =>
    let (ys, fl) := treeLevel comb xs
    let (r, fl') := treeReduce comb k ys
    (r, fl ||| fl')

/-- One Kogge-Stone step with shift s: lane L ≥ s combines with lane L - s of the step before (R79). -/
def scanStep (comb : Nat → Nat → Rounded) (s : Nat) (xs : List Nat) : List Nat × Flags :=
  let ys := (List.range xs.length).map fun l =>
    if l < s then (⟨xs.getD l 0, 0⟩ : Rounded) else comb (xs.getD (l - s) 0) (xs.getD l 0)
  (ys.map (·.bits), ys.foldl (fun fl r => fl ||| r.flags) 0)

/-- The inclusive scan of five steps (R79, R116). -/
def scanAll (comb : Nat → Nat → Rounded) (xs : List Nat) : List Nat × Flags :=
  [1, 2, 4, 8, 16].foldl
    (fun acc s => let (ys, fl) := scanStep comb s acc.1; (ys, acc.2 ||| fl)) (xs, 0)

end Sys2Proof.Machine
end

