-- ==== Sys2Proof/Machine/Trans.lean ====
section
/-! DEFINITION. The elementary functions of R103: FRCP, FSQRT and FRSQ by exact integer quotients and roots,
FEX2, FLG2, FSIN and FCOS by fixed-point series carried to at least 256 bits and rounded as irrational
(DEDUCED: log 10). -/

namespace Sys2Proof.Machine

/-- Fraction bits of the fixed-point series. -/
def seriesBits : Nat := 384

/-- pi * 2^384, truncated. -/
def piFixed : Nat := 123785053203292407819553701039137184435442376711719744927844101526111311422332618694237111830548352286187237239491692

/-- ln 2 * 2^384, truncated. -/
def ln2Fixed : Nat := 27311389503436327984859642001965014295881604093268141717219425985154158335678826923825841039545353940567474963094288

/-- Integer square root, one binary digit a step from bit k - 1 down. -/
def isqrtGo (x : Nat) : Nat → Nat → Nat
  | 0, r => r
  | k + 1, r =>
    let t := r + 2 ^ k
    isqrtGo x k (if t * t ≤ x then t else r)

/-- The largest r with r * r ≤ x. -/
def isqrt (x : Nat) : Nat := isqrtGo x (bitLen x / 2 + 1) 0

/-- exp(t) for a fixed-point t below 1, by its Taylor series: `fuel` further terms from term number k. -/
def expGo (t : Nat) : Nat → Nat → Nat → Nat → Nat
  | 0, _, _, s => s
  | fuel + 1, k, term, s =>
    let term' := ((term * t) >>> seriesBits) / k
    expGo t fuel (k + 1) term' (s + term')

def expFixed (t : Nat) : Nat := expGo t 90 1 (2 ^ seriesBits) (2 ^ seriesBits)

/-- atanh(z) = z + z^3/3 + z^5/5 + … for a fixed-point z of at most 1/3. -/
def atanhGo (z2 : Nat) : Nat → Nat → Nat → Nat → Nat
  | 0, _, _, s => s
  | fuel + 1, k, pow, s =>
    atanhGo z2 fuel (k + 2) ((pow * z2) >>> seriesBits) (s + pow / k)

def atanhFixed (z : Nat) : Nat := atanhGo ((z * z) >>> seriesBits) 130 1 z 0

/-- The alternating series of sine (k = 2, term = t) or cosine (k = 1, term = 1) for a fixed-point t with `q`
fraction bits: positive and negative parts are summed apart. -/
def sinCosGo (t2 q : Nat) : Nat → Nat → Nat → Bool → Nat → Nat → Nat
  | 0, _, _, _, p, n => p - n
  | fuel + 1, k, term, odd, p, n =>
    let term' := ((term * t2) >>> q) / (k * (k + 1))
    if odd then sinCosGo t2 q fuel (k + 2) term' false p (n + term')
    else sinCosGo t2 q fuel (k + 2) term' true (p + term') n

/-- 1/x for a nonzero finite x, correctly rounded (FRCP, R103). -/
def frcpFin (f : Fmt) (rm : RMode) (ftz neg : Bool) (m : Nat) (e : Int) : Rounded :=
  let k := bitLen m + f.frac + 40
  roundFin f rm ftz false neg (2 ^ k / m) (-(k : Int) - e) (decide (2 ^ k % m ≠ 0))

/-- √x for a positive finite x, correctly rounded (FSQRT, R103). -/
def fsqrtFin (f : Fmt) (rm : RMode) (ftz : Bool) (m : Nat) (e : Int) : Rounded :=
  let par := (e % 2).toNat
  let sh := 2 * (f.frac + 10) + par
  let x := m <<< sh
  let r := isqrt x
  roundFin f rm ftz false false r ((e - (sh : Int)) / 2) (decide (r * r ≠ x))

/-- 1/√x for a positive finite x, rounded to nearest even (FRSQ, R103). -/
def frsqFin (f : Fmt) (ftz : Bool) (m : Nat) (e : Int) : Rounded :=
  let par := (e % 2).toNat
  let k := 2 * (bitLen m + f.frac + 40) + par
  let x := 2 ^ k / m
  let r := isqrt x
  roundFin f .rne ftz false false r ((-(k : Int) - e) / 2) (decide (r * r * m ≠ 2 ^ k))

/-- 2^x for a nonzero finite x, rounded to nearest even (FEX2, R103). -/
def fex2Fin (f : Fmt) (ftz neg : Bool) (m : Nat) (e : Int) : Rounded :=
  if 16 < (bitLen m : Int) + e then
    roundFin f .rne ftz false false 1 (if neg then -100000 else 100000) true
  else
    let exact := decide (0 ≤ e) || decide (m % 2 ^ ((-e).toNat) = 0)
    let fixed : Int :=
      if 0 ≤ (seriesBits : Int) + e then ((m <<< ((seriesBits : Int) + e).toNat : Nat) : Int)
      else ((m >>> (-(seriesBits : Int) - e).toNat : Nat) : Int)
    let lost := decide ((seriesBits : Int) + e < 0) && decide (fixed = 0)
    let x : Int := if neg then -fixed - (if lost then 1 else 0) else fixed
    let n := x / ((2 ^ seriesBits : Nat) : Int)
    let fr := (x % ((2 ^ seriesBits : Nat) : Int)).toNat
    if exact then roundFin f .rne ftz false false 1 n false
    else
      roundFin f .rne ftz false false (expFixed ((fr * ln2Fixed) >>> seriesBits)) (n - (seriesBits : Int)) true

/-- log2 x for a positive finite x, rounded to nearest even (FLG2, R103); log2 of +1 is +0. -/
def flg2Fin (f : Fmt) (ftz : Bool) (m : Nat) (e : Int) : Rounded :=
  let b := bitLen m - 1
  let n : Int := e + (b : Int)
  if m = 2 ^ b then roundTo f .rne ftz (FVal.ofInt n)
  else
    let z := ((m - 2 ^ b) <<< seriesBits) / (m + 2 ^ b)
    let l := ((2 * atanhFixed z) <<< seriesBits) / ln2Fixed
    let v : Int := n * ((2 ^ seriesBits : Nat) : Int) + (l : Int)
    roundFin f .rne ftz false (decide (v < 0)) v.natAbs (-(seriesBits : Int)) true

/-- sin or cos of 2π times a nonzero finite number of turns, rounded to nearest even (FSIN, FCOS, R103). -/
def sinCosFin (f : Fmt) (ftz isCos neg : Bool) (m : Nat) (e : Int) : Rounded :=
  if 0 ≤ e then (if isCos then roundFin f .rne ftz false false 1 0 false else ⟨0, 0⟩)
  else
    let d := (-e).toNat
    let one := 2 ^ d
    let fr0 := m % one
    -- eighths: the angle is o/8 + r, with r in [0, 1/8)
    let o := (8 * fr0) / one
    let r8 := (8 * fr0) % one
    -- distance to the nearer multiple of 1/4, in units of 1/(8 * one)
    let near := if o % 2 = 0 then r8 else one - r8
    let quarter := ((o + 1) / 2) % 4
    -- near an even quarter multiple the sine is small and the cosine near one
    let swap := quarter % 2 == 1
    let useCos := isCos != swap
    -- the sign by octant
    let sSin := decide (4 ≤ o)
    let sCos := decide (2 ≤ o) && decide (o < 6)
    let sgn := if isCos then sCos else sSin != neg
    if near = 0 then
      (if useCos then
        roundFin f .rne ftz false
          (if isCos then quarter == 2 else (quarter == 3) != neg) 1 0 false
       else ⟨0, 0⟩)
    else
      let lead := d + 3 - bitLen near
      let q := seriesBits + lead
      -- t = 2π * near / (8 * one), with q fraction bits
      let t := (2 * piFixed * near * 2 ^ lead) / (8 * one)
      let t2 := (t * t) >>> q
      let v := if useCos then sinCosGo t2 q 70 1 (2 ^ q) true (2 ^ q) 0 else sinCosGo t2 q 70 2 t true t 0
      roundFin f .rne ftz false sgn v (-(q : Int)) true

/-- The unary functions of R103. -/
inductive Elem1 where
  | rcp | rsq | sqrt | ex2 | lg2 | sin | cos
  deriving DecidableEq, Repr

/-- R103 with its table of special inputs. -/
def elem1 (op : Elem1) (f : Fmt) (rm : RMode) (ftz : Bool) (x : FVal) : Rounded :=
  match x with
  | .nan => ⟨f.nan, 0⟩
  | .inf n =>
    match op with
    | .rcp => ⟨f.signBit n, 0⟩
    | .rsq => if n then ⟨f.nan, flagIV⟩ else ⟨0, 0⟩
    | .sqrt => if n then ⟨f.nan, flagIV⟩ else ⟨f.infBits false, 0⟩
    | .ex2 => if n then ⟨0, 0⟩ else ⟨f.infBits false, 0⟩
    | .lg2 => if n then ⟨f.nan, flagIV⟩ else ⟨f.infBits false, 0⟩
    | .sin => ⟨f.nan, flagIV⟩
    | .cos => ⟨f.nan, flagIV⟩
  | .fin n 0 _ =>
    match op with
    | .rcp => ⟨f.infBits n, flagDZ⟩
    | .rsq => ⟨f.infBits n, flagDZ⟩
    | .sqrt => ⟨f.signBit n, 0⟩
    | .ex2 => roundFin f .rne ftz false false 1 0 false
    | .lg2 => ⟨f.infBits true, flagDZ⟩
    | .sin => ⟨f.signBit n, 0⟩
    | .cos => roundFin f .rne ftz false false 1 0 false
  | .fin n m e =>
    match op with
    | .rcp => frcpFin f rm ftz n m e
    | .rsq => if n then ⟨f.nan, flagIV⟩ else frsqFin f ftz m e
    | .sqrt => if n then ⟨f.nan, flagIV⟩ else fsqrtFin f rm ftz m e
    | .ex2 => fex2Fin f ftz n m e
    | .lg2 => if n then ⟨f.nan, flagIV⟩ else flg2Fin f ftz m e
    | .sin => sinCosFin f ftz false n m e
    | .cos => sinCosFin f ftz true n m e

end Sys2Proof.Machine
end

