-- ==== Sys2Proof/Machine/Alu.lean ====
section
/-! DEFINITION. What the lane and group instructions compute from operand values: pure functions of the element
type, SAT, RM and FTZ (05_course_compute R88-R109, R138-R139). -/

namespace Sys2Proof.Machine

/-- The parts of MODE a computation reads (R24): the element type, SAT, RM, FTZ. -/
structure AluMode where
  et : ElemType
  sat : Bool
  rm : Nat
  ftz : Bool
  deriving DecidableEq, Repr

def AluMode.rmode (m : AluMode) : RMode := RMode.ofCode m.rm

/-- Elementwise on one source (R84). -/
def elems1 (t : ElemType) (f : Nat → Nat) (x : Nat) : Nat := packElems t.width ((t.split x).map f)

/-- Elementwise on two sources (R84). -/
def elems2 (t : ElemType) (f : Nat → Nat → Nat) (x y : Nat) : Nat :=
  packElems t.width (List.zipWith f (t.split x) (t.split y))

/-- Elementwise on three sources (R84). -/
def elems3 (t : ElemType) (f : Nat → Nat → Nat → Nat) (x y z : Nat) : Nat :=
  packElems t.width
    (List.zipWith (fun g c => g c) (List.zipWith f (t.split x) (t.split y)) (t.split z))

/-- Results of the elements packed, with the OR of their flags (R60). -/
def packRounded (w : Nat) (rs : List Rounded) : Rounded :=
  ⟨packElems w (rs.map (·.bits)), rs.foldl (fun fl r => fl ||| r.flags) 0⟩

/-- An element under the type of `t`. -/
def ElemType.int (t : ElemType) (x : Nat) : Int := elemInt t.signed t.width x

/-- R69 at the type's width. -/
def AluMode.fit (m : AluMode) (x : Int) : Nat := fitInt m.sat m.et.signed m.et.width x

def iadd (m : AluMode) (x y : Nat) : Nat := elems2 m.et (fun a b => m.fit (m.et.int a + m.et.int b)) x y
def isub (m : AluMode) (x y : Nat) : Nat := elems2 m.et (fun a b => m.fit (m.et.int a - m.et.int b)) x y
def imul (m : AluMode) (x y : Nat) : Nat := elems2 m.et (fun a b => m.fit (m.et.int a * m.et.int b)) x y

/-- The high half of the product: ⌊x*y / 2^w⌋, exact (R89). -/
def imulh (m : AluMode) (x y : Nat) : Nat :=
  elems2 m.et (fun a b => wrapTo m.et.width ((m.et.int a * m.et.int b) / ((2 ^ m.et.width : Nat) : Int))) x y

def imad (m : AluMode) (x y z : Nat) : Nat :=
  elems3 m.et (fun a b c => m.fit (m.et.int a * m.et.int b + m.et.int c)) x y z

def imin (m : AluMode) (x y : Nat) : Nat := elems2 m.et (fun a b => if m.et.int a ≤ m.et.int b then a else b) x y
def imax (m : AluMode) (x y : Nat) : Nat := elems2 m.et (fun a b => if m.et.int a ≤ m.et.int b then b else a) x y
def iabs (m : AluMode) (x : Nat) : Nat := elems1 m.et (fun a => m.fit ((m.et.int a).natAbs : Int)) x
def popc (t : ElemType) (x : Nat) : Nat := elems1 t (popCount t.width) x
def clz (t : ElemType) (x : Nat) : Nat := elems1 t (fun a => t.width - bitLen a) x
def brev (t : ElemType) (x : Nat) : Nat := elems1 t (bitReverse t.width) x

/-- Operand width in bits (R83). -/
def ElemType.opWidth (t : ElemType) : Nat := if t.wide then 64 else 32

def bitAnd (t : ElemType) (x y : Nat) : Nat := (x &&& y) % 2 ^ t.opWidth
def bitOr (t : ElemType) (x y : Nat) : Nat := (x ||| y) % 2 ^ t.opWidth
def bitXor (t : ElemType) (x y : Nat) : Nat := (x ^^^ y) % 2 ^ t.opWidth

/-- A AND NOT B (R90). -/
def bitAndNot (t : ElemType) (x y : Nat) : Nat := x &&& (onesOf t.opWidth - y % 2 ^ t.opWidth)

/-- Left shift of one element: x * 2^c by R69 (R91). -/
def shlEl (m : AluMode) (c a : Nat) : Nat :=
  if c < m.et.width then m.fit (m.et.int a * ((2 ^ c : Nat) : Int))
  else if m.sat && a % 2 ^ m.et.width != 0 then
    wrapTo m.et.width (if m.et.int a < 0 then intMin m.et.signed m.et.width else intMax m.et.signed m.et.width)
  else 0

/-- Logical right shift of one element (R91). -/
def shrEl (w c a : Nat) : Nat := if c < w then (a % 2 ^ w) >>> c else 0

/-- Arithmetic right shift of one element, whatever its signedness (R91). -/
def sarEl (w c a : Nat) : Nat :=
  wrapTo w (signedOf w a / ((2 ^ (if c < w then c else w - 1) : Nat) : Int))

def shl (m : AluMode) (x y : Nat) : Nat := elems2 m.et (fun a c => shlEl m c a) x y
def shr (t : ElemType) (x y : Nat) : Nat := elems2 t (fun a c => shrEl t.width c a) x y
def sar (t : ElemType) (x y : Nat) : Nat := elems2 t (fun a c => sarEl t.width c a) x y
def rotlOp (t : ElemType) (x y : Nat) : Nat := elems2 t (fun a c => rotl t.width a c) x y
def shli (m : AluMode) (c x : Nat) : Nat := elems1 m.et (shlEl m c) x
def shri (t : ElemType) (arith : Bool) (c x : Nat) : Nat :=
  elems1 t (if arith then sarEl t.width c else shrEl t.width c) x

/-- BFX of one element (R92). -/
def bfxEl (sgn : Bool) (w ctl a : Nat) : Nat :=
  let pos := bitsOf ctl 7 0
  let len := bitsOf ctl 15 8
  let l := if len < w then len else w
  if l = 0 then 0
  else
    let f := wrapTo l (elemInt sgn w a / ((2 ^ pos : Nat) : Int))
    wrapTo w (elemInt sgn l f)

/-- BFI of one element (R92). -/
def bfiEl (w ctl a b : Nat) : Nat :=
  let pos := bitsOf ctl 7 0
  let len := bitsOf ctl 15 8
  let mask := ((2 ^ len - 1) <<< pos) % 2 ^ w
  (a &&& (onesOf w - mask)) ||| ((b <<< pos) &&& mask)

def bfx (t : ElemType) (x ctl : Nat) : Nat := elems1 t (bfxEl t.signed t.width ctl) x
def bfi (t : ElemType) (x y ctl : Nat) : Nat := elems2 t (bfiEl t.width ctl) x y

/-- PERM: four bytes chosen from B:A, or sign fills (R93). -/
def perm (x y c : Nat) : Nat :=
  let src := x % 2 ^ 32 + (y % 2 ^ 32) * 2 ^ 32
  packElems 8 ((List.range 4).map fun i =>
    let s := bitsOf c (4 * i + 3) (4 * i)
    let b := bitsOf src (8 * (s % 8) + 7) (8 * (s % 8))
    if s < 8 then b else (if 128 ≤ b then 255 else 0))

/-- LEA: A + (ext(B) << s) modulo 2^64 (R94). -/
def lea (sx : Bool) (s x y : Nat) : Nat :=
  wrapTo 64 ((x : Int) + elemInt sx 32 y * ((2 ^ s : Nat) : Int))

/-- LIH: the old value's bits [17:0] kept (R96). -/
def lih (v o : Nat) : Nat := (v <<< 18) ||| bitsOf o 17 0

/-- IDOT4 (R97). -/
def idot4 (m : AluMode) (x y z : Nat) : Nat :=
  let s := (List.zipWith (fun a b => m.et.int a * m.et.int b) (m.et.split x) (m.et.split y)).foldl (· + ·) 0
  fitInt m.sat m.et.signed 32 (s + elemInt m.et.signed 32 z)

/-- The comparison conditions 0-5 on integers (R95). -/
def intCond (c : Nat) (x y : Int) : Bool :=
  match c with
  | 0 => decide (x = y)
  | 1 => decide (x ≠ y)
  | 2 => decide (x < y)
  | 3 => decide (x ≤ y)
  | 4 => decide (y < x)
  | _ => decide (y ≤ x)

/-- CMP: the condition in every element (R86, R95). -/
def cmpInt (t : ElemType) (c x y : Nat) : Bool :=
  (List.zipWith (fun a b => intCond c (t.int a) (t.int b)) (t.split x) (t.split y)).all id

/-- CMPI: v an exact signed integer (R95). -/
def cmpImm (t : ElemType) (c x : Nat) (v : Int) : Bool :=
  (t.split x).all fun a => intCond c (t.int a) v

/-- The combine codes of R86. -/
def combinePred (k : Nat) (p c : Bool) : Bool :=
  match k with
  | 0 => c
  | 1 => p && c
  | 2 => p || c
  | 3 => p != c
  | 4 => p && !c
  | _ => !c

/-- The float conditions 0-7 (R101). -/
def floatCond (c : Nat) (a b : FVal) : Bool :=
  let un := a.isNan || b.isNan
  match c with
  | 0 => !un && !fLess a b && !fLess b a
  | 1 => un || fLess a b || fLess b a
  | 2 => fLess a b
  | 3 => !un && !fLess b a
  | 4 => fLess b a
  | 5 => !un && !fLess a b
  | 6 => un
  | _ => !un

/-- The float format of ET; the R83 check has excluded the types without one. -/
def ElemType.fmtD (t : ElemType) : Fmt := t.fmt.getD .f32

def cmpFloat (m : AluMode) (c x y : Nat) : Bool :=
  let f := m.et.fmtD
  (List.zipWith (fun a b => floatCond c (f.read m.ftz a) (f.read m.ftz b)) (m.et.split x) (m.et.split y)).all id

/-- Elementwise float results with the OR of the flags (R60, R99). -/
def float1 (m : AluMode) (g : Fmt → FVal → Rounded) (x : Nat) : Rounded :=
  let f := m.et.fmtD
  packRounded m.et.width ((m.et.split x).map fun a => g f (f.read m.ftz a))

def float2 (m : AluMode) (g : Fmt → FVal → FVal → Rounded) (x y : Nat) : Rounded :=
  let f := m.et.fmtD
  packRounded m.et.width
    (List.zipWith (fun a b => g f (f.read m.ftz a) (f.read m.ftz b)) (m.et.split x) (m.et.split y))

def float3 (m : AluMode) (g : Fmt → FVal → FVal → FVal → Rounded) (x y z : Nat) : Rounded :=
  let f := m.et.fmtD
  packRounded m.et.width
    (List.zipWith (fun h c => h (f.read m.ftz c))
      (List.zipWith (fun a b => g f (f.read m.ftz a) (f.read m.ftz b)) (m.et.split x) (m.et.split y))
      (m.et.split z))

def fadd (m : AluMode) (x y : Nat) : Rounded := float2 m (fun f a b => fAdd f m.rmode m.ftz a b) x y
def fsub (m : AluMode) (x y : Nat) : Rounded := float2 m (fun f a b => fAdd f m.rmode m.ftz a b.negate) x y
def fmul (m : AluMode) (x y : Nat) : Rounded := float2 m (fun f a b => fMul f m.rmode m.ftz a b) x y
def fma (m : AluMode) (x y z : Nat) : Rounded := float3 m (fun f a b c => fMulAdd f m.rmode m.ftz a b c) x y z

/-- C - A * B, fused (R99). -/
def fnma (m : AluMode) (x y z : Nat) : Rounded :=
  float3 m (fun f a b c => fMulAdd f m.rmode m.ftz a.negate b c) x y z

def fminmax (m : AluMode) (isMax : Bool) (x y : Nat) : Rounded :=
  ⟨elems2 m.et (fMinMax m.et.fmtD m.ftz isMax) x y, 0⟩

/-- FABS and FNEG: the sign cleared or inverted, FTZ honoured on the input, NaN canonical, no flag (R100). -/
def fsign (m : AluMode) (isNeg : Bool) (x : Nat) : Rounded :=
  let f := m.et.fmtD
  ⟨elems1 m.et (fun a =>
    let v := f.read m.ftz a
    let mag := if v.isZero then 0 else a % 2 ^ (f.width - 1)
    if v.isNan then f.nan else mag + f.signBit (isNeg && !v.neg)) x, 0⟩

/-- FCLASS of one element: the stored bits, whatever FTZ (R102). -/
def fclassEl (f : Fmt) (a : Nat) : Nat :=
  match f.decode a with
  | .nan => 256
  | .inf n => if n then 1 else 128
  | .fin n m _ =>
    if m = 0 then (if n then 8 else 16)
    else if f.isSub a then (if n then 4 else 32)
    else (if n then 2 else 64)

def fclass (t : ElemType) (x : Nat) : Nat := elems1 t (fclassEl t.fmtD) x
def felem (m : AluMode) (op : Elem1) (x : Nat) : Rounded := float1 m (fun f a => elem1 op f m.rmode m.ftz a) x

/-- FSCL of one element: x * 2^n rounded (R104). -/
def fsclEl (f : Fmt) (rm : RMode) (ftz : Bool) (x : FVal) (n : Int) : Rounded :=
  match x with
  | .fin s m e => roundTo f rm ftz (.fin s m (e + n))
  | v => roundTo f rm ftz v

/-- FSCL: n is B as S32, or the S16 element j of B under a packed type (R104). -/
def fscl (m : AluMode) (x y : Nat) : Rounded :=
  let f := m.et.fmtD
  packRounded m.et.width ((List.range m.et.count).map fun j =>
    let n := if m.et.count = 1 then signedOf 32 y else signedOf 16 (y >>> (16 * j))
    fsclEl f m.rmode m.ftz (f.read m.ftz ((x >>> (j * m.et.width)) % 2 ^ m.et.width)) n)

/-- FRND of one element (R105). -/
def frndEl (f : Fmt) (rm : RMode) (x : FVal) : Rounded :=
  match x with
  | .fin s m e =>
    if 0 ≤ e then roundTo f .rne false x
    else
      let (q, inexact) := roundInt rm s m e
      ⟨(roundTo f .rne false (.fin s q 0)).bits, flagIf inexact flagNX⟩
  | v => roundTo f .rne false v

def frnd (m : AluMode) (x : Nat) : Rounded := float1 m (fun f a => frndEl f m.rmode a) x

/-- FDOT2 under BF16x2 or H16x2, with an F32 addend and result (R106). -/
def fdot2 (m : AluMode) (x y z : Nat) : Rounded :=
  let f := m.et.fmtD
  let a := m.et.split x
  let b := m.et.split y
  fDot2 m.rmode m.ftz (f.read m.ftz (a.getD 0 0)) (f.read m.ftz (b.getD 0 0)) (f.read m.ftz (a.getD 1 0))
    (f.read m.ftz (b.getD 1 0)) (Fmt.f32.read m.ftz (z % 2 ^ 32))

/-- The conversion of one element by R107, with the rounding mode of its position. -/
def cvtEl (src dst : ElemType) (rm : RMode) (ftz sat : Bool) (a : Nat) : Rounded :=
  match src.fmt, dst.fmt with
  | none, none => ⟨fitInt sat dst.signed dst.width (src.int a), 0⟩
  | some f, none => toInt dst.signed dst.width rm (f.read ftz a)
  | none, some g => convertTo g rm ftz sat (FVal.ofInt (src.int a))
  | some f, some g => convertTo g rm ftz sat (f.read ftz a)

/-- CVT of one lane's operand (R107): element j of lane k is at position n*k + j. -/
def cvt (m : AluMode) (src : ElemType) (state lane x : Nat) : Rounded :=
  packRounded m.et.width ((List.range m.et.count).map fun j =>
    cvtEl src m.et (RMode.ofCodeSr m.rm (srWord state (m.et.count * lane + j))) m.ftz m.sat
      ((x >>> (j * src.width)) % 2 ^ src.width))

/-- One element of CVTN to a narrow format (R108); the source type is S32, N32 or F32. -/
def cvtnEl (m : AluMode) (nf : NarrowFmt) (rm : RMode) (a : Nat) : Rounded :=
  match m.et.fmt, nf with
  | some f, .flt g => convertTo g rm m.ftz m.sat (f.read m.ftz a)
  | some f, .int s w => toInt s w rm (f.read m.ftz a)
  | none, .flt g => convertTo g rm m.ftz m.sat (FVal.ofInt (m.et.int a))
  | none, .int s w => ⟨fitInt m.sat s w (m.et.int a), 0⟩

/-- CVTN of one lane (R108), funnelled into the old value o. -/
def cvtn (m : AluMode) (nf : NarrowFmt) (state lane x y o : Nat) : Rounded :=
  let n := nf.width
  let e0 := cvtnEl m nf (RMode.ofCodeSr m.rm (srWord state (2 * lane))) (x % 2 ^ 32)
  let e1 := cvtnEl m nf (RMode.ofCodeSr m.rm (srWord state (2 * lane + 1))) (y % 2 ^ 32)
  ⟨(o >>> (2 * n)) ||| (e0.bits <<< (32 - 2 * n)) ||| (e1.bits <<< (32 - n)), e0.flags ||| e1.flags⟩

/-- CVTW of one lane (R109); exact widening, or R73 and R69. -/
def cvtw (m : AluMode) (nf : NarrowFmt) (x y : Nat) : Rounded :=
  let n := nf.width
  let j := bitsOf y 2 0 % (32 / n)
  let a := (x >>> (n * j)) % 2 ^ n
  match nf, m.et.fmt with
  | .flt f, some g => convertTo g .rne false false (f.read m.ftz a)
  | .flt f, none => toInt m.et.signed m.et.width m.rmode (f.read m.ftz a)
  | .int s w, some g => convertTo g .rne false false (FVal.ofInt (elemInt s w a))
  | .int s w, none => ⟨fitInt m.sat m.et.signed m.et.width (elemInt s w a), 0⟩

/-- The reduction of RDX over the lanes' elements, identities entered (R114): an integer sum is exact and fitted
once, the others go through the tree. -/
def reduce (m : AluMode) (op : RedOp) (xs : List Nat) : Nat × Flags :=
  match op, m.et.isInt with
  | .add, true => (m.fit ((xs.map m.et.int).foldl (· + ·) 0), 0)
  | _, _ => treeReduce (RedOp.combine m.et m.ftz m.sat op) 5 xs

/-- The scan of SCAN over 32 lanes (R116). -/
def scan (m : AluMode) (op : RedOp) (xs : List Nat) : List Nat × Flags :=
  scanAll (RedOp.combine m.et m.ftz m.sat op) xs

/-- MODE.GT's type: width 32 or 64, signed or not (R24, R138). -/
def groupAlu (g : ElemType) : AluMode := { et := g, sat := false, rm := 0, ftz := false }

end Sys2Proof.Machine
end

