-- ==== Sys2Proof/Syntax.lean ====
section
/-! DEFINITION. The instructions and events of the machine: one constructor per row of opcode_table.json
(R43, R44 and 95_what_each_step_holds). An instruction word's constructor holds the fields of its row, from the highest
bit down; the constructor of a step that is no instruction word names what it acts on. -/

namespace Sys2Proof


/-- Every row of the opcode table. -/
inductive Instr where
  /-- NOP (R45). -/
  | nop
  /-- SETM (R117). -/
  | setm (k : BitVec 4) (v : BitVec 14)
  /-- GETM (R119). -/
  | getm (d : BitVec 6)
  /-- YIELD (R120). -/
  | yield
  /-- EXIT (R121). -/
  | exit
  /-- EXIT_SAVED (R122). -/
  | exitSaved
  /-- TRAP (R123). -/
  | trap (i : BitVec 18)
  /-- BKPT (R123). -/
  | bkpt (i : BitVec 18)
  /-- GSR (R124). -/
  | gsr (d : BitVec 6) (n : BitVec 12)
  /-- GSW (R125). -/
  | gsw (a : BitVec 6) (n : BitVec 12)
  /-- XSR (R276). -/
  | xsr (d : BitVec 6) (x : BitVec 5)
  /-- XSW (R277). -/
  | xsw (a : BitVec 6) (x : BitVec 5)
  /-- ERET (R278). -/
  | eret
  /-- FENCE (R161). -/
  | fence (r : BitVec 1) (q : BitVec 1) (s : BitVec 3)
  /-- XFENCE (R162). -/
  | xfence (q : BitVec 6) (p : BitVec 6)
  /-- WAITA (R163). -/
  | waita (d : BitVec 6) (a : BitVec 6) (b : BitVec 6) (t : BitVec 3) (s : BitVec 1) (c : BitVec 2)
  /-- WAITC (R164). -/
  | waitc (d : BitVec 6) (a : BitVec 6) (b : BitVec 6) (t : BitVec 3)
  /-- IADD (R89). -/
  | iadd (d : BitVec 6) (a : BitVec 6) (b : BitVec 6)
  /-- ISUB (R89). -/
  | isub (d : BitVec 6) (a : BitVec 6) (b : BitVec 6)
  /-- IMUL (R89). -/
  | imul (d : BitVec 6) (a : BitVec 6) (b : BitVec 6)
  /-- IMULH (R89). -/
  | imulh (d : BitVec 6) (a : BitVec 6) (b : BitVec 6)
  /-- IMAD (R89). -/
  | imad (d : BitVec 6) (a : BitVec 6) (b : BitVec 6) (c : BitVec 6)
  /-- IMIN (R89). -/
  | imin (d : BitVec 6) (a : BitVec 6) (b : BitVec 6)
  /-- IMAX (R89). -/
  | imax (d : BitVec 6) (a : BitVec 6) (b : BitVec 6)
  /-- IABS (R89). -/
  | iabs (d : BitVec 6) (a : BitVec 6)
  /-- AND (R90). -/
  | and (d : BitVec 6) (a : BitVec 6) (b : BitVec 6)
  /-- OR (R90). -/
  | or (d : BitVec 6) (a : BitVec 6) (b : BitVec 6)
  /-- XOR (R90). -/
  | xor (d : BitVec 6) (a : BitVec 6) (b : BitVec 6)
  /-- ANDN (R90). -/
  | andn (d : BitVec 6) (a : BitVec 6) (b : BitVec 6)
  /-- SHL (R91). -/
  | shl (d : BitVec 6) (a : BitVec 6) (b : BitVec 6)
  /-- SHR (R91). -/
  | shr (d : BitVec 6) (a : BitVec 6) (b : BitVec 6)
  /-- SAR (R91). -/
  | sar (d : BitVec 6) (a : BitVec 6) (b : BitVec 6)
  /-- ROTL (R91). -/
  | rotl (d : BitVec 6) (a : BitVec 6) (b : BitVec 6)
  /-- POPC (R89). -/
  | popc (d : BitVec 6) (a : BitVec 6)
  /-- CLZ (R89). -/
  | clz (d : BitVec 6) (a : BitVec 6)
  /-- BREV (R89). -/
  | brev (d : BitVec 6) (a : BitVec 6)
  /-- BFX (R92). -/
  | bfx (d : BitVec 6) (a : BitVec 6) (b : BitVec 6)
  /-- BFI (R92). -/
  | bfi (d : BitVec 6) (a : BitVec 6) (b : BitVec 6) (c : BitVec 6)
  /-- PERM (R93). -/
  | perm (d : BitVec 6) (a : BitVec 6) (b : BitVec 6) (c : BitVec 6)
  /-- SEL (R94). -/
  | sel (d : BitVec 6) (a : BitVec 6) (b : BitVec 6) (n : BitVec 1) (k : BitVec 3)
  /-- LEA (R94). -/
  | lea (d : BitVec 6) (a : BitVec 6) (b : BitVec 6) (x : BitVec 1) (s : BitVec 3)
  /-- CMP (R95). -/
  | cmp (k : BitVec 3) (m : BitVec 3) (a : BitVec 6) (b : BitVec 6) (c : BitVec 6)
  /-- CMPI (R95). -/
  | cmpi (k : BitVec 3) (m : BitVec 3) (a : BitVec 6) (c : BitVec 3) (v : BitVec 9)
  /-- ADDI (R89). -/
  | addi (d : BitVec 6) (a : BitVec 6) (i : BitVec 12)
  /-- ANDI (R90). -/
  | andi (d : BitVec 6) (a : BitVec 6) (i : BitVec 12)
  /-- ORI (R90). -/
  | ori (d : BitVec 6) (a : BitVec 6) (i : BitVec 12)
  /-- XORI (R90). -/
  | xori (d : BitVec 6) (a : BitVec 6) (i : BitVec 12)
  /-- SHLI (R91). -/
  | shli (d : BitVec 6) (a : BitVec 6) (n : BitVec 6)
  /-- SHRI (R91). -/
  | shri (d : BitVec 6) (a : BitVec 6) (n : BitVec 6) (x : BitVec 1)
  /-- LI (R96). -/
  | li (d : BitVec 6) (i : BitVec 18)
  /-- LIH (R96). -/
  | lih (d : BitVec 6) (v : BitVec 14)
  /-- MOV (R90). -/
  | mov (d : BitVec 6) (a : BitVec 6)
  /-- IDOT4 (R97). -/
  | idot4 (d : BitVec 6) (a : BitVec 6) (b : BitVec 6) (c : BitVec 6)
  /-- PMOV (R95). -/
  | pmov (k : BitVec 3) (m : BitVec 3) (a : BitVec 6) (x : BitVec 1) (n : BitVec 5)
  /-- PLOP (R95). -/
  | plop (k : BitVec 3) (m : BitVec 3) (u : BitVec 3) (v : BitVec 3) (l : BitVec 4)
  /-- FADD (R99). -/
  | fadd (d : BitVec 6) (a : BitVec 6) (b : BitVec 6)
  /-- FSUB (R99). -/
  | fsub (d : BitVec 6) (a : BitVec 6) (b : BitVec 6)
  /-- FMUL (R99). -/
  | fmul (d : BitVec 6) (a : BitVec 6) (b : BitVec 6)
  /-- FMA (R99). -/
  | fma (d : BitVec 6) (a : BitVec 6) (b : BitVec 6) (c : BitVec 6)
  /-- FNMA (R99). -/
  | fnma (d : BitVec 6) (a : BitVec 6) (b : BitVec 6) (c : BitVec 6)
  /-- FMIN (R100). -/
  | fmin (d : BitVec 6) (a : BitVec 6) (b : BitVec 6)
  /-- FMAX (R100). -/
  | fmax (d : BitVec 6) (a : BitVec 6) (b : BitVec 6)
  /-- FABS (R100). -/
  | fabs (d : BitVec 6) (a : BitVec 6)
  /-- FNEG (R100). -/
  | fneg (d : BitVec 6) (a : BitVec 6)
  /-- FCMP (R101). -/
  | fcmp (k : BitVec 3) (m : BitVec 3) (a : BitVec 6) (b : BitVec 6) (c : BitVec 6)
  /-- FCLASS (R102). -/
  | fclass (d : BitVec 6) (a : BitVec 6)
  /-- FRCP (R103). -/
  | frcp (d : BitVec 6) (a : BitVec 6)
  /-- FRSQ (R103). -/
  | frsq (d : BitVec 6) (a : BitVec 6)
  /-- FSQRT (R103). -/
  | fsqrt (d : BitVec 6) (a : BitVec 6)
  /-- FEX2 (R103). -/
  | fex2 (d : BitVec 6) (a : BitVec 6)
  /-- FLG2 (R103). -/
  | flg2 (d : BitVec 6) (a : BitVec 6)
  /-- FSIN (R103). -/
  | fsin (d : BitVec 6) (a : BitVec 6)
  /-- FCOS (R103). -/
  | fcos (d : BitVec 6) (a : BitVec 6)
  /-- FSCL (R104). -/
  | fscl (d : BitVec 6) (a : BitVec 6) (b : BitVec 6)
  /-- FRND (R105). -/
  | frnd (d : BitVec 6) (a : BitVec 6)
  /-- CVT (R107). -/
  | cvt (d : BitVec 6) (a : BitVec 6) (t : BitVec 4)
  /-- CVTN (R108). -/
  | cvtn (d : BitVec 6) (a : BitVec 6) (b : BitVec 6) (f : BitVec 4)
  /-- CVTW (R109). -/
  | cvtw (d : BitVec 6) (a : BitVec 6) (b : BitVec 6) (f : BitVec 4)
  /-- FDOT2 (R106). -/
  | fdot2 (d : BitVec 6) (a : BitVec 6) (b : BitVec 6) (c : BitVec 6)
  /-- SHFL (R111). -/
  | shfl (d : BitVec 6) (a : BitVec 6) (b : BitVec 6) (m : BitVec 2)
  /-- VOTE (R112). -/
  | vote (d : BitVec 6) (n : BitVec 1) (k : BitVec 3) (m : BitVec 6)
  /-- BCST (R113). -/
  | bcst (d : BitVec 6) (a : BitVec 6) (b : BitVec 6)
  /-- RDX (R114). -/
  | rdx (a : BitVec 6) (p : BitVec 6)
  /-- RDXW_WAIT (R115). -/
  | rdxwWait (d : BitVec 6) (a : BitVec 6)
  /-- RDXW_SEQ (R115). -/
  | rdxwSeq (d : BitVec 6)
  /-- RDXW_SET (R115). -/
  | rdxwSet (a : BitVec 6) (b : BitVec 6)
  /-- SCAN (R116). -/
  | scan (d : BitVec 6) (a : BitVec 6) (p : BitVec 6)
  /-- MBW_VECTOR (R192). -/
  | mbwVector (d : BitVec 6) (k : BitVec 4)
  /-- MBW_GROUP (R192). -/
  | mbwGroup (d : BitVec 6) (k : BitVec 4)
  /-- MBR_VECTOR (R192). -/
  | mbrVector (d : BitVec 6) (p : BitVec 1) (k : BitVec 4)
  /-- MBR_GROUP (R192). -/
  | mbrGroup (d : BitVec 6) (p : BitVec 1) (k : BitVec 4)
  /-- BRA (R128). -/
  | bra (n : BitVec 1) (p : BitVec 3) (o : BitVec 20)
  /-- BRC (R129). -/
  | brc (n : BitVec 1) (p : BitVec 3) (o : BitVec 20)
  /-- JOIN (R130). -/
  | join
  /-- CALL (R133). -/
  | call (o : BitVec 20)
  /-- RET (R133). -/
  | ret
  /-- JMPI (R133). -/
  | jmpi (a : BitVec 6) (l : BitVec 1)
  /-- LOOP (R134). -/
  | loop (k : BitVec 4) (o : BitVec 20)
  /-- BALW (R135). -/
  | balw (k : BitVec 4) (o : BitVec 20)
  /-- BAR (R188). -/
  | bar (n : BitVec 5) (t : BitVec 2) (k : BitVec 4)
  /-- BARX (R314). -/
  | barx (a : BitVec 6) (t : BitVec 2) (l : BitVec 3) (k : BitVec 3)
  /-- GBARA (R195). -/
  | gbara (d : BitVec 6) (a : BitVec 6) (b : BitVec 6) (m : BitVec 2)
  /-- GBARW (R196). -/
  | gbarw (d : BitVec 6) (a : BitVec 6) (b : BitVec 6) (t : BitVec 3)
  /-- STEP (R311). -/
  | step (d : BitVec 6) (a : BitVec 6) (x : BitVec 1)
  /-- STEPE (R311). -/
  | stepe (d : BitVec 6) (a : BitVec 6)
  /-- CARVE (R176). -/
  | carve (k : BitVec 3) (c : BitVec 5) (s : BitVec 6)
  /-- LD (R153). -/
  | ld (d : BitVec 6) (a : BitVec 6) (i : BitVec 12)
  /-- LDN (R153). -/
  | ldn (d : BitVec 6) (a : BitVec 6) (i : BitVec 12)
  /-- ST (R153). -/
  | st (d : BitVec 6) (a : BitVec 6) (i : BitVec 12)
  /-- STN (R153). -/
  | stn (d : BitVec 6) (a : BitVec 6) (i : BitVec 12)
  /-- LDS (R146). -/
  | lds (d : BitVec 6) (a : BitVec 6) (i : BitVec 12)
  /-- STS (R146). -/
  | sts (d : BitVec 6) (a : BitVec 6) (i : BitVec 12)
  /-- LDX (R154). -/
  | ldx (d : BitVec 6) (a : BitVec 6) (b : BitVec 6) (x : BitVec 1) (s : BitVec 2)
  /-- STX (R154). -/
  | stx (d : BitVec 6) (a : BitVec 6) (b : BitVec 6) (x : BitVec 1) (s : BitVec 2)
  /-- LDACQ (R152). -/
  | ldacq (d : BitVec 6) (a : BitVec 6) (s : BitVec 3)
  /-- STREL (R152). -/
  | strel (d : BitVec 6) (a : BitVec 6) (s : BitVec 3)
  /-- LDSC (R262). -/
  | ldsc (d : BitVec 6) (a : BitVec 6) (s : BitVec 3)
  /-- STSC (R262). -/
  | stsc (d : BitVec 6) (a : BitVec 6) (s : BitVec 3)
  /-- ATOM (R156). -/
  | atom (d : BitVec 6) (a : BitVec 6) (b : BitVec 6) (s : BitVec 3) (p : BitVec 3)
  /-- ATOMAR (R156). -/
  | atomar (d : BitVec 6) (a : BitVec 6) (b : BitVec 6) (s : BitVec 3) (p : BitVec 3)
  /-- ATOMSC (R262). -/
  | atomsc (d : BitVec 6) (a : BitVec 6) (b : BitVec 6) (s : BitVec 3) (p : BitVec 3)
  /-- RED (R156). -/
  | red (d : BitVec 6) (a : BitVec 6) (s : BitVec 3) (p : BitVec 3)
  /-- ATOMS (R156). -/
  | atoms (d : BitVec 6) (a : BitVec 6) (b : BitVec 6) (p : BitVec 3)
  /-- PREF (R159). -/
  | pref (t : BitVec 2) (a : BitVec 6) (i : BitVec 12)
  /-- FLAGW (R158). -/
  | flagw (d : BitVec 6) (a : BitVec 6) (b : BitVec 6) (g : BitVec 4)
  /-- CCTL (R160). -/
  | cctl (p : BitVec 2) (a : BitVec 6) (i : BitVec 12)
  /-- CPY (R205). -/
  | cpy (a : BitVec 6) (b : BitVec 6) (f : BitVec 5)
  /-- CPYT (R206). -/
  | cpyt (a : BitVec 6) (b : BitVec 6) (f : BitVec 3)
  /-- CPYW (R208). -/
  | cpyw (a : BitVec 6) (b : BitVec 6) (k : BitVec 3) (f : BitVec 3)
  /-- CPYO (R212). -/
  | cpyo (a : BitVec 6) (b : BitVec 6) (f : BitVec 3)
  /-- CPYR (R211). -/
  | cpyr (a : BitVec 6) (b : BitVec 6) (f : BitVec 3)
  /-- CPYX (R213). -/
  | cpyx (a : BitVec 6) (b : BitVec 6) (f : BitVec 3)
  /-- CPYQ (R210). -/
  | cpyq (a : BitVec 6) (b : BitVec 6) (f : BitVec 3)
  /-- MGO (R226). -/
  | mgo (d : BitVec 6) (a : BitVec 6)
  /-- MWAIT (R227). -/
  | mwait (d : BitVec 6) (a : BitVec 6) (t : BitVec 3)
  /-- MMA (R231). -/
  | mma (d : BitVec 6) (a : BitVec 6) (b : BitVec 6) (t : BitVec 1) (u : BitVec 1) (f : BitVec 4)
  /-- MZERO (R235). -/
  | mzero (d : BitVec 6)
  /-- MOUT (R238). -/
  | mout (d : BitVec 6) (a : BitVec 6) (b : BitVec 6) (r : BitVec 3) (f : BitVec 3)
  /-- MLOAD (R236). -/
  | mload (d : BitVec 6) (a : BitVec 6) (f : BitVec 3)
  /-- MAMAX (R240). -/
  | mamax (a : BitVec 6) (b : BitVec 6)
  /-- MFENCE (R245). -/
  | mfence (w : BitVec 1)
  /-- MBAR (R246). -/
  | mbar (n : BitVec 5) (t : BitVec 2) (k : BitVec 4)
  /-- MLI (R241). -/
  | mli (d : BitVec 6) (v : BitVec 17)
  /-- MLI_H (R241). -/
  | mliH (d : BitVec 6) (v : BitVec 15)
  /-- MADD (R241). -/
  | madd (d : BitVec 6) (a : BitVec 6) (i : BitVec 12)
  /-- MLOOP (R242). -/
  | mloop (k : BitVec 4) (o : BitVec 20)
  /-- MJMP (R242). -/
  | mjmp (o : BitVec 20)
  /-- MEND (R243). -/
  | mend
  /-- MFILL (R244). -/
  | mfill (c : BitVec 2) (s : BitVec 6)
  /-- MSCL (R237). -/
  | mscl (d : BitVec 6) (a : BitVec 6) (b : BitVec 6) (f : BitVec 1)
  /-- GADD (R138). -/
  | gadd (d : BitVec 6) (a : BitVec 6) (b : BitVec 6)
  /-- GSUB (R138). -/
  | gsub (d : BitVec 6) (a : BitVec 6) (b : BitVec 6)
  /-- GMUL (R138). -/
  | gmul (d : BitVec 6) (a : BitVec 6) (b : BitVec 6)
  /-- GAND (R138). -/
  | gand (d : BitVec 6) (a : BitVec 6) (b : BitVec 6)
  /-- GOR (R138). -/
  | gor (d : BitVec 6) (a : BitVec 6) (b : BitVec 6)
  /-- GXOR (R138). -/
  | gxor (d : BitVec 6) (a : BitVec 6) (b : BitVec 6)
  /-- GSHL (R138). -/
  | gshl (d : BitVec 6) (a : BitVec 6) (b : BitVec 6)
  /-- GSHR (R138). -/
  | gshr (d : BitVec 6) (a : BitVec 6) (b : BitVec 6)
  /-- GSAR (R138). -/
  | gsar (d : BitVec 6) (a : BitVec 6) (b : BitVec 6)
  /-- GMIN (R138). -/
  | gmin (d : BitVec 6) (a : BitVec 6) (b : BitVec 6)
  /-- GMAX (R138). -/
  | gmax (d : BitVec 6) (a : BitVec 6) (b : BitVec 6)
  /-- GCMP (R139). -/
  | gcmp (k : BitVec 3) (m : BitVec 3) (a : BitVec 6) (b : BitVec 6) (c : BitVec 6)
  /-- GLI (R140). -/
  | gli (d : BitVec 6) (v : BitVec 17)
  /-- GLI_H (R140). -/
  | gliH (d : BitVec 6) (v : BitVec 15)
  /-- GADDI (R138). -/
  | gaddi (d : BitVec 6) (a : BitVec 6) (i : BitVec 12)
  /-- GLD (R141). -/
  | gld (d : BitVec 6) (a : BitVec 6) (i : BitVec 12)
  /-- GST (R141). -/
  | gst (d : BitVec 6) (a : BitVec 6) (i : BitVec 12)
  /-- MTAGA (R361). -/
  | mtaga (d : BitVec 6) (a : BitVec 6) (s : BitVec 2)
  /-- MTAGF (R361). -/
  | mtagf (d : BitVec 6) (a : BitVec 6) (b : BitVec 6)
  /-- MJOIN_VECTOR (R364). -/
  | mjoinVector (d : BitVec 6) (a : BitVec 6) (b : BitVec 6) (p : BitVec 3)
  /-- MJOIN_GROUP (R364). -/
  | mjoinGroup (a : BitVec 6) (b : BitVec 6) (p : BitVec 3)
  /-- LAUNCH (R350). -/
  | launch (d : BitVec 6) (a : BitVec 6) (q : BitVec 6)
  /-- LQCFG (R351). -/
  | lqcfg (d : BitVec 6) (a : BitVec 6) (b : BitVec 6) (q : BitVec 6)
  /-- SNAP_ARM (R389). -/
  | snapArm (d : BitVec 6) (a : BitVec 6) (b : BitVec 6)
  /-- SNAP_CANCEL (R394). -/
  | snapCancel (d : BitVec 6) (a : BitVec 6)
  /-- SNAP_LOAD (R394). -/
  | snapLoad (d : BitVec 6) (a : BitVec 6) (b : BitVec 6)
  /-- KEYLD (R343). -/
  | keyld (d : BitVec 6) (a : BitVec 6) (b : BitVec 6) (w : BitVec 1) (p : BitVec 2)
  /-- MIGR_CPY (R337). -/
  | migrCpy (d : BitVec 6) (a : BitVec 6) (b : BitVec 6) (z : BitVec 2)
  /-- MIGR_END (R338). -/
  | migrEnd (d : BitVec 6) (a : BitVec 6) (b : BitVec 6) (z : BitVec 2)
  /-- TSLOT (R358). -/
  | tslot (d : BitVec 6) (a : BitVec 6) (b : BitVec 6) (p : BitVec 2)
  /-- TLBI (R332). -/
  | tlbi (a : BitVec 6) (b : BitVec 6) (s : BitVec 1) (f : BitVec 2)
  /-- PEND_BIND (R291). -/
  | pendBind (a : BitVec 6)
  /-- PEND_IMP (R292). -/
  | pendImp (a : BitVec 6)
  /-- CREQ (R424). -/
  | creq (d : BitVec 6) (a : BitVec 6) (b : BitVec 6)
  /-- CAWT (R426). -/
  | cawt (d : BitVec 6) (a : BitVec 6) (b : BitVec 6) (m : BitVec 1)
  /-- CUSE (R427). -/
  | cuse (d : BitVec 6) (a : BitVec 6) (b : BitVec 6)
  /-- CREL (R429). -/
  | crel (d : BitVec 6) (a : BitVec 6) (m : BitVec 1)
  /-- CSTAT (R430). -/
  | cstat (d : BitVec 6) (a : BitVec 6)
  /-- EPSND (R434). -/
  | epsnd (d : BitVec 6) (a : BitVec 6) (b : BitVec 6)
  /-- EPRCV (R434). -/
  | eprcv (d : BitVec 6) (a : BitVec 6) (b : BitVec 6)
  /-- TIME (R435). -/
  | time (d : BitVec 6)
  /-- HTUNE (R435). -/
  | htune (d : BitVec 6) (a : BitVec 6) (m : BitVec 1)
  /-- LANE_VALUE_DELIVERY (R150): A long-latency reply arrives for a lane, is written with WriteN and sets its full/empty bit. -/
  | laneValueDelivery (f : Nat)
  /-- STORE_BUFFER_DRAIN (R267): A store-buffer entry leaves the buffer once its drain conditions hold, and adds 1 to its counter. -/
  | storeBufferDrain (c : Nat) (e : Nat)
  /-- HOME_WRITE_PERFORM (R255): A write reaches its home slice and is performed. -/
  | homeWritePerform (p : Nat) (w : Nat)
  /-- STORE_ACK (R23): A store acknowledgement returns and lowers the unacknowledged counter. -/
  | storeAck (f : Nat)
  /-- L1_LINE_EXPIRY (R255): An L1 line is dropped at most 4 µs after it was filled. -/
  | l1LineExpiry (c : Nat) (l : Nat)
  /-- ATOMIC_PERFORM (R156): A same-address atomic group is performed at its home slice as one event. -/
  | atomicPerform (f : Nat)
  /-- FAULT_RECORD_WRITE (R334): A waiting fault-queue record is written once the ring has room, and HEAD advances. -/
  | faultRecordWrite (d : Nat)
  /-- DEFERRED_CAUSE_TAKEN (R443): A deferred cause is taken before the course's next issue. -/
  | deferredCauseTaken (c : Nat)
  /-- COURSE_FINISH (R121): An ended course counts as finished once its buffer is empty and its counters read 0. -/
  | courseFinish (c : Nat)
  /-- VERSION_OVERFLOW_COMMIT (R287): A stalled versioned team becomes the oldest, commits and continues non-versioned. -/
  | versionOverflowCommit (t : Nat)
  /-- SCRATCHPAD_LANE_COMPLETE (R178): A queued scratchpad lane access is served at its bank. -/
  | scratchpadLaneComplete (f : Nat)
  /-- WINDOW_ACCESS (R181): A quad-window request arrives at the partner core's banks, and is refused there once ingress has closed. -/
  | windowAccess (f : Nat)
  /-- BARRIER_WAITER_RELEASE (R198): Waiting slots become ready after a barrier completes. -/
  | barrierWaiterRelease (wide : Bool) (o : Nat) (b : Nat)
  /-- GEN_BARRIER_UPDATE (R194): An update arrives at a generation barrier's bank and is followed by the completion test. -/
  | genBarrierUpdate (f : Nat)
  /-- COPY_CHUNK_WRITE (R216): The copy engine writes one aligned 32-byte destination chunk whole. -/
  | copyChunkWrite (n : Nat) (u : Nat)
  /-- COPY_COMPLETE (R214): Once every byte is written, the engine updates the counter, arrival word and barrier in order. -/
  | copyComplete (n : Nat)
  /-- CPYW_FILL_START (R209): A CPYW waiting in the engine begins once its weight slot is empty. -/
  | cpywFillStart (n : Nat)
  /-- CPYX_SEND_START (R213): A queued CPYX is sent once its barrier is live. -/
  | cpyxSendStart (n : Nat)
  /-- MMA_COMPLETE (R231): An MMA finishes its 64 cycles on the array and writes its tile. -/
  | mmaComplete (t : Nat)
  /-- BATCH_RETIRE (R245): A closed batch retires once performed, and T advances. -/
  | batchRetire (t : Nat)
  /-- SLEW_STEP (R304): Every 4 cycles, the limiter releases and grants sectors, enables grout and sets ALLOW. -/
  | slewStep (q : Nat)
  /-- POWER_ESTIMATE (R307): Every 1 µs, each quad forms PEST. -/
  | powerEstimate (q : Nat) (temp : Nat)
  /-- KILN_UPDATE (R312): Every 10 µs, the kiln computes per-quad budgets and KPRED. -/
  | kilnUpdate (d : Nat)
  /-- PMC_HEARTBEAT (R318): A power microcontroller heartbeat, which clears SAFE for a validated image. -/
  | pmcHeartbeat (p : Nat) (v : Bool)
  /-- HEARTBEAT_MISS (R318): No heartbeat within 1 ms sets SAFE. -/
  | heartbeatMiss (p : Nat)
  /-- IMAGE_UPDATE_ANNOUNCE (R318): An announced A/B image update sets SAFE. -/
  | imageUpdateAnnounce (p : Nat)
  /-- COMPARATOR_TRIP (R319): Input power above 6.5 kW for 10 µs clamps every quad to 550 mV. -/
  | comparatorTrip (p : Nat)
  /-- COMPARATOR_RELEASE (R319): Power below the sustained limit for 1 ms releases the clamp. -/
  | comparatorRelease (p : Nat)
  /-- THERMAL_THROTTLE (R319): A quad sensor at or above 105 °C holds VMAX at 600 mV. -/
  | thermalThrottle (q : Nat)
  /-- THERMAL_THROTTLE_RELEASE (R319): A sensor below 100 °C releases the throttle. -/
  | thermalThrottleRelease (q : Nat)
  /-- THERMAL_TRIP (R319): A sensor at or above 115 °C turns every rail off and holds the package in reset. -/
  | thermalTrip (p : Nat)
  /-- MONITOR_SAMPLE (R320): A monitor channel takes a sample into its statistics. -/
  | monitorSample (die : Bool) (n : Nat) (ch : Nat) (v : Nat)
  /-- MONITOR_CLR (R320): Writing CLR zeroes COUNT, MAX and the bins, and sets MIN. -/
  | monitorClr (die : Bool) (n : Nat) (ch : Nat)
  /-- SCRATCHPAD_INGRESS_CLOSE (R316): A core closes ingress after its last team leaves and the protected copies complete. -/
  | scratchpadIngressClose (c : Nat)
  /-- QUAD_GATE (R317): A quad idle for 100 µs with ingress closed and an empty write path is power-gated. -/
  | quadGate (q : Nat)
  /-- QUAD_POWER_UP (R317): The rail and oscillator of a gated quad come up for a placement. -/
  | quadPowerUp (q : Nat)
  /-- FLAG_APPLY (R269): A withheld FLAGW claims its count once U ≥ c and is performed. -/
  | flagApply (p : Nat) (i : Nat)
  /-- ADMISSION_DECISION (R352): Every 8 ns, the distributor picks a queue head and places it. -/
  | admissionDecision (d : Nat)
  /-- SAVE_COMPLETE (R282): The save completes when the courses, the protected copies and the sequencer are done. -/
  | saveComplete (t : Nat)
  /-- PENDING_DIVERT (R291): A reply or acknowledgement for a bound course is filed into its pending record. -/
  | pendingDivert (f : Nat)
  /-- PENDING_REDIRECT (R292): The old core answers a redirect and forwards later arrivals to the new core. -/
  | pendingRedirect (f : Nat)
  /-- PROBE_TIMER (R295): A slot that has held an edge for PROBET µs sends a probe. -/
  | probeTimer (k : Nat) (n : Nat)
  /-- PROBE (R295): A probe arrives at an agent, which forwards or absorbs it. -/
  | probe (d : Nat) (i : Nat)
  /-- FAULT_QUEUE_RESUME (R335): A write to RESUME resumes the agent holding the token. -/
  | faultQueueResume (d : Nat) (tok : Nat)
  /-- REGION_ENTRY_WRITE (R340): A region-table write completes after dropping the cached copies of both ranges. -/
  | regionEntryWrite (d : Nat) (n : Nat) (w : Nat) (v : Nat)
  /-- PATROL_SCRUB (R344): The scrubber reads a line and writes back any correction. -/
  | patrolScrub (pa : Nat) (corrected : Bool)
  /-- UNCORRECTABLE_ERROR (R345): An uncorrectable error poisons the line and posts a record of type 8. -/
  | uncorrectableError (k : Nat) (n : Nat) (x : Nat) (y : Nat)
  /-- ECC_COUNTER_CLR (R344): Writing CLR zeroes CECNT and UECNT. -/
  | eccCounterClr (d : Nat)
  /-- MORTAR_OPERAND (R365): An operand arrives at its meeting router and is joined, halved, stored, held or discarded. -/
  | mortarOperand (m : Nat)
  /-- JOINT_COUNTER_ADD (R366): Once every chunk is performed, CTR receives an atomic add of 2. -/
  | jointCounterAdd (j : Nat) (c : Nat)
  /-- HALF_ARRIVAL (R367): A half arrives at DST's home slice and is held, or forms the joint. -/
  | halfArrival (m : Nat)
  /-- ORPHAN_TIMEOUT (R368): An operand that waited ORPHT µs is delivered alone and ORPHAN is raised. -/
  | orphanTimeout (m : Nat)
  /-- KICK (R382): A 64-bit write to the kick register starts reading a packet slot. -/
  | kick (p : Nat) (port : Nat) (v : Nat)
  /-- KICK_SLOT_READ (R382): A repeated slot read, 1 µs apart, checks SEQ and CRC, or fails after 64 reads. -/
  | kickSlotRead (p : Nat) (i : Nat)
  /-- KICK_APPEND (R383): A checked packet is appended once every DMASK die has a free pending entry. -/
  | kickAppend (p : Nat) (i : Nat)
  /-- PACKET_START (R383): An idle control core starts the oldest pending packet. -/
  | packetStart (d : Nat)
  /-- KEYSTONE_READ (R379): A host read grants or renews the keystone. -/
  | keystoneRead (p : Nat) (port : Nat)
  /-- KEYSTONE_RELEASE (R379): The owner's write of bit 0 releases the keystone. -/
  | keystoneRelease (p : Nat) (port : Nat)
  /-- KEYSTONE_LEASE_EXPIRY (R379): A 100 ms lease runs out and the keystone returns to none. -/
  | keystoneLeaseExpiry (p : Nat)
  /-- HOST_MEMORY_ACCESS (R378): A host BAR2 access is performed at the line's home slice. -/
  | hostMemoryAccess (p : Nat) (port : Nat) (o : Nat) (n : Nat) (write : Bool) (data : List (BitVec 8))
  /-- POWER_ON (R384): Power-on reset of the whole package. -/
  | powerOn (p : Nat)
  /-- PKGRST_WRITE (R384): Writing 1 to PKGRST resets the package. -/
  | pkgrstWrite (p : Nat)
  /-- PMC_WATCHDOG_RESET (R384): The microcontroller watchdog resets the package. -/
  | pmcWatchdogReset (p : Nat)
  /-- PORT_RESET (R384): A fundamental or function-level reset of one host port. -/
  | portReset (p : Nat) (port : Nat)
  /-- HBM_THERMAL_THROTTLE (R386): A stack at or above 95 °C halves bandwidth and doubles refresh. -/
  | hbmThermalThrottle (p : Nat) (stack : Nat)
  /-- HBM_THERMAL_RELEASE (R386): A stack below 90 °C ends the HBM throttle. -/
  | hbmThermalRelease (p : Nat) (stack : Nat)
  /-- REGISTER_WRITE (R374): A write to a device register with no row of its own, including clamps and W1C. -/
  | registerWrite (p : Nat) (src : Nat) (off : Nat) (size : Nat) (v : Nat)
  /-- SNAPSHOT_DRAIN_LINE (R393): The drain reads a range line, marks it and sends it. -/
  | snapshotDrainLine (p : Nat) (i : Nat)
  /-- SNAPSHOT_DONE (R394): The storage service acknowledges the whole image and STATUS reads done. -/
  | snapshotDone (p : Nat)
  /-- SNAPSHOT_LOAD_COMPLETE (R394): A SNAP.LOAD finishes writing the image and writes its STATUS. -/
  | snapshotLoadComplete (p : Nat) (done : Bool) (image : List (BitVec 8)) (poison : List Nat)
  /-- UCIE_LINK_DOWN (R399): An engine's UCIe link goes down and its ports go dark. -/
  | ucieLinkDown (p : Nat) (e : Nat)
  /-- HOLD_EXPIRY (R399): A port in hold goes dark 50 ms after the watchdog reset. -/
  | holdExpiry (p : Nat) (n : Nat)
  /-- MC_WATCHDOG_RESET (R399): The engine microcontroller's watchdog fires: live ports hold, others go dark. -/
  | mcWatchdogReset (p : Nat) (e : Nat)
  /-- MC_RETURN (R399): The microcontroller returns and ports in hold go live. -/
  | mcReturn (p : Nat) (e : Nat)
  /-- WALL_LINK_RESTART (R399): A dark wall link, 10 ms after going dark, starts locking. -/
  | wallLinkRestart (p : Nat) (n : Nat)
  /-- CHANNEL_LOCK_LOSS (R398): A channel loses lock; too few channels drop the port. -/
  | channelLockLoss (p : Nat) (n : Nat)
  /-- CHANNEL_RELOCK (R398): A channel relocks and rejoins the live set. -/
  | channelRelock (p : Nat) (n : Nat)
  /-- LOCK_ACHIEVED (R399): A locking port locks enough channels and becomes trained. -/
  | lockAchieved (p : Nat) (n : Nat) (ch : Nat)
  /-- LOCK_TIMEOUT (R399): A port 1.5 ms in locking goes dark with LOCKFAIL. -/
  | lockTimeout (p : Nat) (n : Nat)
  /-- DESKEW_DONE (R399): A trained port finishes alignment and starts authenticating. -/
  | deskewDone (p : Nat) (n : Nat)
  /-- TRAIN_TIMEOUT (R399): A port 120 µs in trained goes dark. -/
  | trainTimeout (p : Nat) (n : Nat)
  /-- AUTH_SUCCESS (R401): SPDM authentication succeeds and the port goes live. -/
  | authSuccess (p : Nat) (n : Nat)
  /-- AUTH_FAILURE (R401): Authentication fails and the port enters quarantine. -/
  | authFailure (p : Nat) (n : Nat)
  /-- AUTH_TIMEOUT (R399): A port 80 µs in authenticating enters quarantine. -/
  | authTimeout (p : Nat) (n : Nat)
  /-- ERROR_WINDOW_EXCEEDED (R399): A 100 µs window above ERRTH drops a live port to locking. -/
  | errorWindowExceeded (p : Nat) (n : Nat) (w : Nat)
  /-- FLIT_ACK (R400): The peer's acknowledgement frees flits from the retry buffer. -/
  | flitAck (p : Nat) (n : Nat) (q : Nat)
  /-- QUARANTINE_EXIT (R402): A quarantined port goes dark once its transfers have failed and QHOLD has passed. -/
  | quarantineExit (p : Nat) (n : Nat)
  /-- HEATER_MARGIN_CHANGE (R403): A heater margin crosses HLOW or HHIGH and the die throttle changes. -/
  | heaterMarginChange (p : Nat) (e : Nat) (ch : Nat) (tx : Nat) (rx : Nat)
  /-- READ_REQUEST (R408): A wall read request arrives at its home. -/
  | readRequest (n : Nat)
  /-- READ_REPLY (R408): A read reply installs the copy and answers the requester. -/
  | readReply (n : Nat)
  /-- WRITE_PLAIN (R408): A plain or narrow write packet is performed at its home and counted. -/
  | writePlain (n : Nat)
  /-- WRITE_RELEASE (R408): A release write packet is performed at its home. -/
  | writeRelease (n : Nat)
  /-- WRITE_SC (R408): An SC write packet is performed with a timestamp. -/
  | writeSc (n : Nat)
  /-- ACKNOWLEDGEMENT (R408): A write acknowledgement reaches the issuing core. -/
  | acknowledgement (n : Nat)
  /-- ATOMIC_REQUEST (R408): An atomic packet is performed at its home. -/
  | atomicRequest (n : Nat)
  /-- ATOMIC_REPLY (R408): An atomic reply returns to the issuer. -/
  | atomicReply (n : Nat)
  /-- RED_PACKET (R408): A RED packet is performed at its home. -/
  | redPacket (n : Nat)
  /-- FLAGW_PACKET (R408): A FLAGW packet arrives and is withheld or applied. -/
  | flagwPacket (n : Nat)
  /-- INVALIDATE (R408): An invalidation drops a copy. -/
  | invalidate (n : Nat)
  /-- INVALIDATE_ACK (R408): An invalidation acknowledgement returns to the home. -/
  | invalidateAck (n : Nat)
  /-- PROMOTE_REQUEST (R260): The writer's core performs its earlier writes, then answers. -/
  | promoteRequest (wall : Bool) (n : Nat)
  /-- PROMOTE_ANSWER (R260): A promote answer lets the acquire complete. -/
  | promoteAnswer (wall : Bool) (n : Nat)
  /-- COPY_CHUNK (R409): A wall copy chunk is performed at its home and counted. -/
  | copyChunk (n : Nat)
  /-- JOINT_WRITE (R408): A joint write packet is performed at DST. -/
  | jointWrite (n : Nat)
  /-- SNAPSHOT_HELD_NOTICE (R408): A snapshot-held release notice arrives. -/
  | snapshotHeldNotice (n : Nat)
  /-- STREAM_OPEN (R410): Opens a header-compression context: the header's bits 15:0, 31:16, 63:32, 115:64 and 127:116. -/
  | streamOpen (p : Nat) (l : Nat) (ids : BitVec 16) (tag : BitVec 16) (flags : BitVec 32) (addr : BitVec 52) (key : BitVec 12)
  /-- COMPRESSED_PACKET (R410): A compressed packet is expanded from its context: its bits 15:0, 31:16 and 63:32. -/
  | compressedPacket (p : Nat) (l : Nat) (c : BitVec 16) (tag : BitVec 16) (delta : BitVec 32)
  /-- RELAY_FORWARD (R411): A relay forwards a DET packet to its second link, or drops it. -/
  | relayForward (n : Nat)
  /-- ROUTE_CHANGE (R411): A wall link changes state and the route to a peer changes once old requests resolve. -/
  | routeChange (p : Nat) (j : Nat)
  /-- WALL_TIMEOUT (R415): A transaction unanswered for WTO, or unreachable, sends a fate query. -/
  | wallTimeout (k : Nat) (p : Nat) (n : Nat)
  /-- FATE_QUERY (R415): The destination answers performed or not performed. -/
  | fateQuery (p : Nat) (tag : Nat)
  /-- FATE_ANSWER (R415): The source completes the transaction or reports FABRIC. -/
  | fateAnswer (p : Nat) (tag : Nat)
  /-- FATE_NO_ANSWER (R415): No answer within WTO reports FABRIC reason 3. -/
  | fateNoAnswer (p : Nat) (n : Nat)
  /-- SC_CLOCK_RESET_REQUEST (R416): Package 0 receives a reset request and quiesces SC issue across the wall. -/
  | scClockResetRequest (c : Nat)
  /-- SC_QUIESCENT_REPORT (R416): The last quiescent report zeroes the clocks and stamps and bumps SCEPOCH. -/
  | scQuiescentReport (p : Nat)
  /-- SCRIPT_RECORD_APPEND (R418): A write to SQHI appends a script record, or sets SQOVF. -/
  | scriptRecordAppend (p : Nat) (port : Nat) (v : Nat)
  /-- SCRIPT_START (R418): An idle Lintel starts the oldest script record. -/
  | scriptStart (p : Nat)
  /-- SWITCH_GRANT (R425): A grant starts the port's circuit request and the barrier becomes connecting. -/
  | switchGrant (p : Nat)
  /-- SWITCH_DENY (R425): A deny fails the barrier with DENIED. -/
  | switchDeny (p : Nat)
  /-- CAWT_TIMEOUT (R426): The CAWT time-out passes and TIMEOUT is written. -/
  | cawtTimeout (p : Nat)
  /-- CIRCUIT_CHUNK (R428): A circuit chunk is performed in the peer's window, RXCTR is added and an acknowledgement sent. -/
  | circuitChunk (n : Nat) (p : Nat) (c : Nat) (off : Nat) (step : Nat) (poi : Bool) (data : List (BitVec 8))
  /-- CIRCUIT_CHUNK_ACK (R428): A chunk acknowledgement returns credits to the sender. -/
  | circuitChunkAck (n : Nat) (ok : Bool)
  /-- CIRCUIT_RELEASE_COMPLETE (R429): A drained release takes the port dark and frees the barrier. -/
  | circuitReleaseComplete (p : Nat) (b : Nat)
  /-- PLANE_DATA_FRAME (R433): A data frame is accepted, held or dropped, and acknowledged. -/
  | planeDataFrame (p : Nat) (port : Nat) (n : Nat) (frame : List (BitVec 8))
  /-- PLANE_ACK_FRAME (R433): An acknowledgement advances the sender's window. -/
  | planeAckFrame (p : Nat) (n : Nat) (frame : List (BitVec 8))
  /-- PLANE_OPEN_FRAME (R433): An open frame sets the stream's expected number. -/
  | planeOpenFrame (p : Nat) (port : Nat) (n : Nat) (frame : List (BitVec 8))
  /-- PLANE_RESEND_TIMER (R433): Every 10 µs without an acknowledgement, the oldest frame is resent or a probe sent. -/
  | planeResendTimer (p : Nat) (k : Nat)
  /-- PLANE_UNREACHABLE (R433): 100 µs without an acknowledgement makes the destination unreachable. -/
  | planeUnreachable (p : Nat) (k : Nat)
  /-- EPRCV_TIMEOUT (R434): EPRCV's time-out passes and gd receives 0. -/
  | eprcvTimeout (p : Nat)
  /-- BARRIER_PART_ARRIVAL (R437): The coordinator receives a package's part and completes the generation when all have arrived. -/
  | barrierPartArrival (l : Nat) (p : Nat) (pbg : Nat) (k : Nat) (src : Nat)
  /-- BARRIER_RELEASE_MESSAGE (R437): A coordinator's release frees waiters, no earlier than 2 or 3 µs later. -/
  | barrierReleaseMessage (l : Nat) (p : Nat) (pbg : Nat) (k : Nat)
  /-- TIME_SYNC (R436): An IEEE 1588 exchange slews package time. -/
  | timeSync (p : Nat) (off : Int)
  /-- ILLEGAL_INSTRUCTION_WORD (R39): A fetched word whose opcode is unassigned, or whose fields fail the decoding checks, traps ILLEGAL (or WRONGCTX, PRIV), or stops the matrix stream as MXFAULT. -/
  | illegalInstructionWord (w : BitVec 32)
  /-- MIGRATION_LINE_COPY (R337): The old home locks one line, invalidates its copies, copies the bytes and stamps to the new frame and marks the line moved. -/
  | migrationLineCopy (d : Nat) (i : Nat)
  /-- MOUT_MLOAD_PERFORMED (R248): An MOUT, MLOAD or MSCL finishes its row transfers or scaling some cycles after issue and counts as performed. -/
  | moutMloadPerformed (t : Nat)
  /-- MFILL_COMPLETE (R244): An MFILL ends its 4 × steps cycles of array occupancy and frees the array. -/
  | mfillComplete (t : Nat)
  /-- UCIE_LINK_UP (R396): An engine's UCIe link comes up again and UCUP reads 1. -/
  | ucieLinkUp (p : Nat) (e : Nat)
  /-- WEAZON_PORT_DOWN (R431): A Weazon port's Ethernet link goes down and its WZUP bit clears. -/
  | weazonPortDown (p : Nat) (w : Nat)
  /-- WEAZON_PORT_UP (R431): A Weazon port's Ethernet link comes up and its WZUP bit sets. -/
  | weazonPortUp (p : Nat) (w : Nat)
  /-- GROUP_REPLY (R141): The reply to a GLD, MTAGA or MTAGF reaches its agent, writes gd and releases the held slot, or is filed in the pending record. -/
  | groupReply (f : Nat)
  deriving DecidableEq, Repr

end Sys2Proof
end

