-- ==== Sys2Proof/Config.lean ====
section
/-! DEFINITION. What the spec leaves to one part or one run: opaque constants, so that no proof can use a value of them
(log 1, log 3, log 4, log 9). -/

namespace Sys2Proof.Config

/-- A value the spec does not give, drawn fresh for each number of State.fresh (log 3). -/
opaque freeValue : Nat → BitVec 64

/-- Whether a cached translation is still held when it is looked up, and which entry of a full TLB gives way (R330; log 9). -/
opaque tlbKeeps : Nat → Bool
opaque tlbVictim : Nat → Nat

/-- Key material that the hardware draws at random, by package and by the number the model gives it: the data key in the low
32 bytes, the tweak key in the high ones (R342, R343; log 21). -/
opaque randomKey : Nat → Nat → BitVec 512

/-- Whether a dirty line has stayed in its LLC slice, by the number of State.fresh and the line; one that has not was written
back (R326; log 31). -/
opaque lineStays : Nat → Nat → Bool

/-- Point i of a quad's fused frequency table, in MHz (R300, R309; log 4). -/
opaque fusedMhz : Nat → Nat → BitVec 12

/-- ECHG of a quad, and LEAK by quad, set-point in mV and a number standing for the temperature (R307; log 4). -/
opaque chargeEnergy : Nat → Nat
opaque leakPower : Nat → Nat → Nat → Nat

/-- Fused stepping code of a package (R376; log 4). -/
opaque revision : Nat → BitVec 8

/-- Fused security option of a package (R376; log 4). -/
opaque secMode : Nat → Bool

/-- Whether a package is fitted in the wall (R405; log 4). -/
opaque fitted : Nat → Bool

/-- Strapped wall number (R25: WALLID, 0-1,023; log 4). -/
opaque wallId : BitVec 10

/-- The event that occurs when nothing is on the agenda, if one does, by the number of State.fresh (log 1). -/
opaque nextEvent : Nat → Option Instr

end Sys2Proof.Config
end

