-- ==== Sys2Proof/WellFormed.lean ====
section
/-! DEFINITION. Well-formed instructions: every operand code is valid in its field and no literal is reserved,
for some agent, ET and GT that may execute the word (R31-R36, R39, and each instruction's own entry). -/

namespace Sys2Proof

/-- A number below a bound. -/
def lt {n : Nat} (x : BitVec n) (k : Nat) : Bool := decide (x.toNat < k)

/-- A nonzero literal. -/
def nz {n : Nat} (x : BitVec n) : Bool := x != 0

/-- Course source codes 0-60 (R31). -/
def csrc (c : BitVec 6) : Bool := decide (c.toNat ≤ 60)

/-- 64-bit course sources: no q15, no odd n pair, no odd g pair (R36). -/
def csrc64 (c : BitVec 6) : Bool :=
  csrc c && !(c.toNat == 15) && !(decide (16 ≤ c.toNat) && decide (c.toNat ≤ 55) && c.toNat % 2 == 1)

/-- Course sources whose width another field fixes. -/
def csrcW (wide : Bool) (c : BitVec 6) : Bool := if wide then csrc64 c else csrc c

/-- Course destination codes 0, 16-47 and 63 (R31). -/
def cdst (c : BitVec 6) : Bool :=
  c.toNat == 0 || c.toNat == 63 || (decide (16 ≤ c.toNat) && decide (c.toNat ≤ 47))

/-- 64-bit course destinations (R36). -/
def cdst64 (c : BitVec 6) : Bool := cdst c && (c.toNat % 2 == 0 || c.toNat == 63)

/-- Load destinations: named registers only (R148). -/
def cload (c : BitVec 6) : Bool := decide (16 ≤ c.toNat) && decide (c.toNat ≤ 47)

/-- Group source codes 0-31 and 48 (R33). -/
def gsrc (c : BitVec 6) : Bool := decide (c.toNat ≤ 31) || c.toNat == 48

/-- 64-bit group sources: even pairs (R36). -/
def gsrc64 (c : BitVec 6) : Bool := gsrc c && c.toNat % 2 == 0

def gsrcW (wide : Bool) (c : BitVec 6) : Bool := if wide then gsrc64 c else gsrc c

/-- Group destination codes 0-31 and 63 (R33). -/
def gdst (c : BitVec 6) : Bool := decide (c.toNat ≤ 31) || c.toNat == 63

/-- 64-bit group destinations (R36). -/
def gdst64 (c : BitVec 6) : Bool := gdst c && (c.toNat % 2 == 0 || c.toNat == 63)

/-- Matrix coding (R34): an m register, an accumulator tile, a weight slot, zero. -/
def isM (c : BitVec 6) : Bool := decide (c.toNat ≤ 15)
def isA (c : BitVec 6) : Bool := decide (16 ≤ c.toNat) && decide (c.toNat ≤ 31)
def isW (c : BitVec 6) : Bool := decide (32 ≤ c.toNat) && decide (c.toNat ≤ 39)
def isZ (c : BitVec 6) : Bool := c.toNat == 48

/-- An m register or a tile that must be even where `wide` holds (R36, R230). -/
def isMW (wide : Bool) (c : BitVec 6) : Bool := isM c && !(wide && c.toNat % 2 == 1)
def isAW (wide : Bool) (c : BitVec 6) : Bool := isA c && !(wide && c.toNat % 2 == 1)

/-- A scope field that allows 0-5 (R147). -/
def scope5 (s : BitVec 3) : Bool := decide (s.toNat ≤ 5)

/-- A combine code 0-5 (R86). -/
def comb (m : BitVec 3) : Bool := decide (m.toNat ≤ 5)

/-- A descriptor base g0, g8, g16 or g24 (R47). -/
def descBase (a : BitVec 6) : Bool := decide (a.toNat ≤ 24) && a.toNat % 8 == 0

/-- The field ids of SETM and the value bits each allows (R117). -/
def setmWidth (k : Nat) : Option Nat :=
  match k with
  | 0 => some 4 | 1 => some 4 | 2 => some 3 | 3 => some 1 | 4 => some 1 | 5 => some 3 | 6 => some 4
  | 7 => some 13 | 8 => some 5 | _ => none

def setmOk (k : BitVec 4) (v : BitVec 14) : Bool :=
  match setmWidth k.toNat with
  | some n => decide (v.toNat < 2 ^ n)
  | none => false

/-- Extended-state indices whose words are per lane (R26, R276). -/
def xsPerLane (x : Nat) : Bool := x == 6 || (decide (8 ≤ x) && decide (x ≤ 0x17))

def xdst (x : BitVec 5) (d : BitVec 6) : Bool := if xsPerLane x.toNat then cdst d else gdst d
def xsrc (x : BitVec 5) (a : BitVec 6) : Bool := if xsPerLane x.toNat then csrc a else gsrc a

/-- The 64-bit source types of CVT (R107). -/
def cvtWide (t : BitVec 4) : Bool := t.toNat == 2 || t.toNat == 3 || t.toNat == 5

/-- MBW's D in a course (course coding) or in the matrix stream (an m register): R191. -/
def mbwSrc (d : BitVec 6) : Bool := csrc d

/-- MBR's D in a course or in the matrix stream: R191. -/
def mbrDst (d : BitVec 6) : Bool := isM d || cload d

/-- ATOMS takes D = 0 for no return, which CAS (op 7) does not allow (R148, R155). -/
def atomsDst (p : BitVec 3) (d : BitVec 6) : Bool := cload d || (d.toNat == 0 && p != 7#3)

/-- MMA's fields (R230): even tile for format 0, even m register for formats 8 and 9, TA only with 2, 3, 10, 12. -/
def mmaOk (d a b : BitVec 6) (t : BitVec 1) (f : BitVec 4) : Bool :=
  isAW (f == 0#4) d && isMW (f == 8#4 || f == 9#4) a && isW b && lt f 14 &&
    (t == 0#1 || f == 2#4 || f == 3#4 || f == 10#4 || f == 12#4)

/-- MOUT's rounding mode 0-5, and 0 for formats 6 and 7 (R230, R238). -/
def moutOk (r f : BitVec 3) : Bool := decide (r.toNat ≤ 5) && (decide (f.toNat < 6) || r == 0#3)

/-- KEYLD's B: an even pair for .LOAD, otherwise 0 (R343). -/
def keyldB (p : BitVec 2) (b : BitVec 6) : Bool := if p == 0#2 then gsrc64 b else b == 0#6

/-- TLBI's A and B: 0 for the forms that do not use them (R331). -/
def tlbiA (f : BitVec 2) (a : BitVec 6) : Bool := if f == 0#2 then a == 0#6 else gsrc a
def tlbiB (f : BitVec 2) (b : BitVec 6) : Bool := if f == 2#2 then gsrc64 b else b == 0#6


/-- The checks of each instruction; a step that is no word has none. -/
def Instr.wf (i : Instr) : Bool :=
  match i with
  | .nop => true
  | .setm k v => setmOk k v
  | .getm d => gdst d
  | .yield => true
  | .exit => true
  | .exitSaved => true
  | .trap _ => true
  | .bkpt _ => true
  | .gsr d _ => gdst d
  | .gsw a _ => gsrc a
  | .xsr d x => xdst x d
  | .xsw a x => xsrc x a
  | .eret => true
  | .fence r q s => scope5 s && (r == 1#1 || q == 1#1)
  | .xfence q p => nz p && nz q
  | .waita d a b _ s c => gdst d && gsrcW (s == 0#1) a && gsrc b && lt c 3
  | .waitc d a b _ => gdst64 d && gsrc a && gsrc64 b
  | .iadd d a b => cdst d && csrc a && csrc b
  | .isub d a b => cdst d && csrc a && csrc b
  | .imul d a b => cdst d && csrc a && csrc b
  | .imulh d a b => cdst d && csrc a && csrc b
  | .imad d a b c => cdst d && csrc a && csrc b && csrc c
  | .imin d a b => cdst d && csrc a && csrc b
  | .imax d a b => cdst d && csrc a && csrc b
  | .iabs d a => cdst d && csrc a
  | .and d a b => cdst d && csrc a && csrc b
  | .or d a b => cdst d && csrc a && csrc b
  | .xor d a b => cdst d && csrc a && csrc b
  | .andn d a b => cdst d && csrc a && csrc b
  | .shl d a b => cdst d && csrc a && csrc b
  | .shr d a b => cdst d && csrc a && csrc b
  | .sar d a b => cdst d && csrc a && csrc b
  | .rotl d a b => cdst d && csrc a && csrc b
  | .popc d a => cdst d && csrc a
  | .clz d a => cdst d && csrc a
  | .brev d a => cdst d && csrc a
  | .bfx d a b => cdst d && csrc a && csrc b
  | .bfi d a b c => cdst d && csrc a && csrc b && csrc c
  | .perm d a b c => cdst d && csrc a && csrc b && csrc c
  | .sel d a b _ _ => cdst d && csrc a && csrc b
  | .lea d a b _ _ => cdst64 d && csrc64 a && csrc b
  | .cmp _ m a b c => comb m && csrc a && csrc b && lt c 6
  | .cmpi _ m a c _ => comb m && csrc a && lt c 6
  | .addi d a _ => cdst d && csrc a
  | .andi d a _ => cdst d && csrc a
  | .ori d a _ => cdst d && csrc a
  | .xori d a _ => cdst d && csrc a
  | .shli d a _ => cdst d && csrc a
  | .shri d a _ _ => cdst d && csrc a
  | .li d _ => cdst d
  | .lih d _ => cdst d
  | .mov d a => cdst d && csrc a
  | .idot4 d a b c => cdst d && csrc a && csrc b && csrc c
  | .pmov _ m a _ _ => comb m && csrc a
  | .plop _ m _ _ _ => comb m
  | .fadd d a b => cdst d && csrc a && csrc b
  | .fsub d a b => cdst d && csrc a && csrc b
  | .fmul d a b => cdst d && csrc a && csrc b
  | .fma d a b c => cdst d && csrc a && csrc b && csrc c
  | .fnma d a b c => cdst d && csrc a && csrc b && csrc c
  | .fmin d a b => cdst d && csrc a && csrc b
  | .fmax d a b => cdst d && csrc a && csrc b
  | .fabs d a => cdst d && csrc a
  | .fneg d a => cdst d && csrc a
  | .fcmp _ m a b c => comb m && csrc a && csrc b && lt c 8
  | .fclass d a => cdst d && csrc a
  | .frcp d a => cdst d && csrc a
  | .frsq d a => cdst d && csrc a
  | .fsqrt d a => cdst d && csrc a
  | .fex2 d a => cdst d && csrc a
  | .flg2 d a => cdst d && csrc a
  | .fsin d a => cdst d && csrc a
  | .fcos d a => cdst d && csrc a
  | .fscl d a b => cdst d && csrc a && csrc b
  | .frnd d a => cdst d && csrc a
  | .cvt d a t => cdst d && csrcW (cvtWide t) a && lt t 12
  | .cvtn d a b f => cdst d && csrc a && csrc b && lt f 10
  | .cvtw d a b f => cdst d && csrc a && csrc b && lt f 10
  | .fdot2 d a b c => cdst d && csrc a && csrc b && csrc c
  | .shfl d a b _ => cdst d && csrc a && csrc b
  | .vote d _ _ m => gdst d && lt m 4
  | .bcst d a b => gdst d && csrc a && lt b 32
  | .rdx a p => csrc a && lt p 6
  | .rdxwWait d a => gdst d && gsrc a
  | .rdxwSeq d => gdst d
  | .rdxwSet a b => gsrc a && gsrc b
  | .scan d a p => cdst d && csrc a && lt p 6
  | .mbwVector d _ => mbwSrc d
  | .mbwGroup d _ => gsrc d
  | .mbrVector d _ _ => mbrDst d
  | .mbrGroup d _ _ => gdst d
  | .bra _ _ _ => true
  | .brc _ _ _ => true
  | .join => true
  | .call _ => true
  | .ret => true
  | .jmpi a _ => gsrc a
  | .loop _ _ => true
  | .balw _ _ => true
  | .bar n t _ => lt n 17 && lt t 3
  | .barx a t l _ => gsrc a && lt t 3 && lt l 5
  | .gbara d a b m => gdst d && gsrc a && gsrc b && lt m 3
  | .gbarw d a b _ => gdst d && gsrc a && gsrc b
  | .step d a _ => gsrc d && gsrc a
  | .stepe d a => gdst d && gsrc a
  | .carve _ c s => lt s 47 && lt c 17
  | .ld d a _ => cload d && csrc64 a
  | .ldn d a _ => cload d && csrc64 a
  | .st d a _ => csrc d && csrc64 a
  | .stn d a _ => csrc d && csrc64 a
  | .lds d a _ => cload d && csrc a
  | .sts d a _ => csrc d && csrc a
  | .ldx d a b _ _ => cload d && csrc64 a && csrc b
  | .stx d a b _ _ => csrc d && csrc64 a && csrc b
  | .ldacq d a s => cload d && csrc64 a && scope5 s
  | .strel d a s => csrc d && csrc64 a && scope5 s
  | .ldsc d a s => cload d && csrc64 a && lt s 5
  | .stsc d a s => csrc d && csrc64 a && lt s 5
  | .atom d a b s _ => cload d && csrc64 a && csrc b && scope5 s
  | .atomar d a b s _ => cload d && csrc64 a && csrc b && scope5 s
  | .atomsc d a b s _ => cload d && csrc64 a && csrc b && lt s 5
  | .red d a s p => csrc d && csrc64 a && scope5 s && lt p 6
  | .atoms d a b p => atomsDst p d && csrc a && csrc b
  | .pref t a _ => lt t 3 && csrc64 a
  | .flagw d a b _ => csrc d && csrc64 a && csrc b
  | .cctl _ a _ => csrc64 a
  | .cpy a b _ => descBase a && gsrc b
  | .cpyt a b _ => descBase a && gsrc b
  | .cpyw a b _ _ => descBase a && gsrc b
  | .cpyo a b _ => descBase a && gsrc b
  | .cpyr a b _ => descBase a && gsrc b
  | .cpyx a b _ => descBase a && gsrc b
  | .cpyq a b _ => descBase a && gsrc b
  | .mgo d a => gsrc d && gsrc a
  | .mwait d a _ => gdst d && gsrc a
  | .mma d a b t _ f => mmaOk d a b t f
  | .mzero d => (isA d || isW d)
  | .mout d a b r f => (isM d || isZ d) && isAW (f == 5#3) a && isM b && moutOk r f
  | .mload d a f => isAW (f == 5#3) d && isM a && (f == 0#3 || f == 1#3 || f == 5#3)
  | .mamax a b => isMW true a && isA b
  | .mfence _ => true
  | .mbar n t _ => lt n 17 && lt t 3
  | .mli d _ => isM d
  | .mliH d _ => isM d
  | .madd d a _ => isM d && isM a
  | .mloop _ _ => true
  | .mjmp _ => true
  | .mend => true
  | .mfill _ s => nz s
  | .mscl d a b f => isAW (f == 1#1) d && isAW (f == 1#1) a && (isZ b || isMW (f == 1#1) b)
  | .gadd d a b => gdst d && gsrc a && gsrc b
  | .gsub d a b => gdst d && gsrc a && gsrc b
  | .gmul d a b => gdst d && gsrc a && gsrc b
  | .gand d a b => gdst d && gsrc a && gsrc b
  | .gor d a b => gdst d && gsrc a && gsrc b
  | .gxor d a b => gdst d && gsrc a && gsrc b
  | .gshl d a b => gdst d && gsrc a && gsrc b
  | .gshr d a b => gdst d && gsrc a && gsrc b
  | .gsar d a b => gdst d && gsrc a && gsrc b
  | .gmin d a b => gdst d && gsrc a && gsrc b
  | .gmax d a b => gdst d && gsrc a && gsrc b
  | .gcmp _ m a b c => comb m && gsrc a && gsrc b && lt c 6
  | .gli d _ => gdst d
  | .gliH d _ => gdst d
  | .gaddi d a _ => gdst d && gsrc a
  | .gld d a _ => gdst d && gsrc64 a
  | .gst d a _ => gsrc d && gsrc64 a
  | .mtaga d a s => gdst d && gsrc a && nz s && lt s 4
  | .mtagf d a b => gdst d && gsrc a && gsrc b
  | .mjoinVector d a b p => csrc d && descBase a && csrc b && lt p 6
  | .mjoinGroup a b p => descBase a && gsrc b && lt p 6
  | .launch d a _ => gdst d && descBase a
  | .lqcfg d a b _ => gdst d && gsrc a && gsrc64 b
  | .snapArm d a b => gdst d && gsrc a && gsrc64 b
  | .snapCancel d a => gdst d && gsrc a
  | .snapLoad d a b => gdst d && gsrc a && gsrc64 b
  | .keyld d a b _ p => gdst d && gsrc a && keyldB p b && lt p 3
  | .migrCpy d a b z => gdst d && gsrc64 a && gsrc64 b && lt z 3
  | .migrEnd d a b z => gdst d && gsrc64 a && gsrc64 b && lt z 3
  | .tslot d a b p => gdst d && gsrc a && gsrc b && lt p 3
  | .tlbi a b _ f => tlbiA f a && tlbiB f b && lt f 3
  | .pendBind a => gsrc64 a
  | .pendImp a => gsrc64 a
  | .creq d a b => gdst d && gsrc a && gsrc b
  | .cawt d a b _ => gdst d && gsrc a && gsrc b
  | .cuse d a b => gdst d && gsrc a && gsrc64 b
  | .crel d a _ => gdst d && gsrc a
  | .cstat d a => gdst d && gsrc a
  | .epsnd d a b => gdst d && gsrc a && gsrc64 b
  | .eprcv d a b => gdst d && gsrc a && gsrc64 b
  | .time d => gdst64 d
  | .htune d a _ => gdst d && gsrc a
  | .laneValueDelivery _ => true
  | .storeBufferDrain _ _ => true
  | .homeWritePerform _ _ => true
  | .storeAck _ => true
  | .l1LineExpiry _ _ => true
  | .atomicPerform _ => true
  | .faultRecordWrite _ => true
  | .deferredCauseTaken _ => true
  | .courseFinish _ => true
  | .versionOverflowCommit _ => true
  | .scratchpadLaneComplete _ => true
  | .windowAccess _ => true
  | .barrierWaiterRelease _ _ _ => true
  | .genBarrierUpdate _ => true
  | .copyChunkWrite _ _ => true
  | .copyComplete _ => true
  | .cpywFillStart _ => true
  | .cpyxSendStart _ => true
  | .mmaComplete _ => true
  | .batchRetire _ => true
  | .slewStep _ => true
  | .powerEstimate _ _ => true
  | .kilnUpdate _ => true
  | .pmcHeartbeat _ _ => true
  | .heartbeatMiss _ => true
  | .imageUpdateAnnounce _ => true
  | .comparatorTrip _ => true
  | .comparatorRelease _ => true
  | .thermalThrottle _ => true
  | .thermalThrottleRelease _ => true
  | .thermalTrip _ => true
  | .monitorSample _ _ _ _ => true
  | .monitorClr _ _ _ => true
  | .scratchpadIngressClose _ => true
  | .quadGate _ => true
  | .quadPowerUp _ => true
  | .flagApply _ _ => true
  | .admissionDecision _ => true
  | .saveComplete _ => true
  | .pendingDivert _ => true
  | .pendingRedirect _ => true
  | .probeTimer _ _ => true
  | .probe _ _ => true
  | .faultQueueResume _ _ => true
  | .regionEntryWrite _ _ _ _ => true
  | .patrolScrub _ _ => true
  | .uncorrectableError _ _ _ _ => true
  | .eccCounterClr _ => true
  | .mortarOperand _ => true
  | .jointCounterAdd _ _ => true
  | .halfArrival _ => true
  | .orphanTimeout _ => true
  | .kick _ _ _ => true
  | .kickSlotRead _ _ => true
  | .kickAppend _ _ => true
  | .packetStart _ => true
  | .keystoneRead _ _ => true
  | .keystoneRelease _ _ => true
  | .keystoneLeaseExpiry _ => true
  | .hostMemoryAccess _ _ _ _ _ _ => true
  | .powerOn _ => true
  | .pkgrstWrite _ => true
  | .pmcWatchdogReset _ => true
  | .portReset _ _ => true
  | .hbmThermalThrottle _ _ => true
  | .hbmThermalRelease _ _ => true
  | .registerWrite _ _ _ _ _ => true
  | .snapshotDrainLine _ _ => true
  | .snapshotDone _ => true
  | .snapshotLoadComplete _ _ _ _ => true
  | .ucieLinkDown _ _ => true
  | .holdExpiry _ _ => true
  | .mcWatchdogReset _ _ => true
  | .mcReturn _ _ => true
  | .wallLinkRestart _ _ => true
  | .channelLockLoss _ _ => true
  | .channelRelock _ _ => true
  | .lockAchieved _ _ _ => true
  | .lockTimeout _ _ => true
  | .deskewDone _ _ => true
  | .trainTimeout _ _ => true
  | .authSuccess _ _ => true
  | .authFailure _ _ => true
  | .authTimeout _ _ => true
  | .errorWindowExceeded _ _ _ => true
  | .flitAck _ _ _ => true
  | .quarantineExit _ _ => true
  | .heaterMarginChange _ _ _ _ _ => true
  | .readRequest _ => true
  | .readReply _ => true
  | .writePlain _ => true
  | .writeRelease _ => true
  | .writeSc _ => true
  | .acknowledgement _ => true
  | .atomicRequest _ => true
  | .atomicReply _ => true
  | .redPacket _ => true
  | .flagwPacket _ => true
  | .invalidate _ => true
  | .invalidateAck _ => true
  | .promoteRequest _ _ => true
  | .promoteAnswer _ _ => true
  | .copyChunk _ => true
  | .jointWrite _ => true
  | .snapshotHeldNotice _ => true
  | .streamOpen _ _ _ _ _ _ _ => true
  | .compressedPacket _ _ _ _ _ => true
  | .relayForward _ => true
  | .routeChange _ _ => true
  | .wallTimeout _ _ _ => true
  | .fateQuery _ _ => true
  | .fateAnswer _ _ => true
  | .fateNoAnswer _ _ => true
  | .scClockResetRequest _ => true
  | .scQuiescentReport _ => true
  | .scriptRecordAppend _ _ _ => true
  | .scriptStart _ => true
  | .switchGrant _ => true
  | .switchDeny _ => true
  | .cawtTimeout _ => true
  | .circuitChunk _ _ _ _ _ _ _ => true
  | .circuitChunkAck _ _ => true
  | .circuitReleaseComplete _ _ => true
  | .planeDataFrame _ _ _ _ => true
  | .planeAckFrame _ _ _ => true
  | .planeOpenFrame _ _ _ _ => true
  | .planeResendTimer _ _ => true
  | .planeUnreachable _ _ => true
  | .eprcvTimeout _ => true
  | .barrierPartArrival _ _ _ _ _ => true
  | .barrierReleaseMessage _ _ _ _ => true
  | .timeSync _ _ => true
  | .illegalInstructionWord _ => true
  | .migrationLineCopy _ _ => true
  | .moutMloadPerformed _ => true
  | .mfillComplete _ => true
  | .ucieLinkUp _ _ => true
  | .weazonPortDown _ _ => true
  | .weazonPortUp _ _ => true
  | .groupReply _ => true

end Sys2Proof
end

