-- ==== Sys2Proof/Decode.lean ====
section
/-! DEFINITION. Decoding instruction words (R29, R39, R43-R47) and, after it, their encoder. -/

namespace Sys2Proof

/-- Why a word is no instruction (R39). -/
inductive DecodeError where
  /-- The opcode is one of the 76 unassigned ones (R43). -/
  | unassignedOpcode
  /-- A nonzero bit in a position the row fixes, or a form code the row's opcode does not have. -/
  | fieldNotOfTheForm
  /-- A reserved literal, or an operand code valid for no agent, ET or GT. -/
  | fieldValueReserved
  deriving DecidableEq, Repr

/-- The 180 assigned opcodes (R43). -/
def assignedOpcode (op : Nat) : Bool :=
  decide (op ≤ 0x35) || (decide (0x40 ≤ op) && decide (op ≤ 0x57)) || (decide (0x60 ≤ op) && decide (op ≤ 0x67)) ||
  (decide (0x70 ≤ op) && decide (op ≤ 0x7E)) || (decide (0x80 ≤ op) && decide (op ≤ 0x93)) ||
  (decide (0xA0 ≤ op) && decide (op ≤ 0xA6)) || (decide (0xB0 ≤ op) && decide (op ≤ 0xB1)) ||
  (decide (0xC0 ≤ op) && decide (op ≤ 0xCD)) || (decide (0xD0 ≤ op) && decide (op ≤ 0xEA)) ||
  (decide (0xF0 ≤ op) && decide (op ≤ 0xF8))


/-- The instruction an opcode and its form bits select, with the row's fields read out (R29, R43, R44). -/
def build (w : Word) : Option Instr :=
  match (w.extractLsb' 24 8).toNat with
  | 0x00 => some (.nop)
  | 0x01 => some (.setm (w.extractLsb' 14 4) (w.extractLsb' 0 14))
  | 0x02 => some (.getm (w.extractLsb' 18 6))
  | 0x03 => some (.yield)
  | 0x04 =>
    if w.extractLsb' 0 18 = 1#18 then some (.exitSaved)
    else some (.exit)
  | 0x05 => some (.trap (w.extractLsb' 0 18))
  | 0x06 => some (.bkpt (w.extractLsb' 0 18))
  | 0x07 => some (.gsr (w.extractLsb' 18 6) (w.extractLsb' 0 12))
  | 0x08 => some (.gsw (w.extractLsb' 12 6) (w.extractLsb' 0 12))
  | 0x09 => some (.xsr (w.extractLsb' 18 6) (w.extractLsb' 0 5))
  | 0x0A => some (.xsw (w.extractLsb' 12 6) (w.extractLsb' 0 5))
  | 0x0B => some (.eret)
  | 0x0C => some (.fence (w.extractLsb' 4 1) (w.extractLsb' 3 1) (w.extractLsb' 0 3))
  | 0x0D => some (.xfence (w.extractLsb' 6 6) (w.extractLsb' 0 6))
  | 0x0E => some (.waita (w.extractLsb' 18 6) (w.extractLsb' 12 6) (w.extractLsb' 6 6) (w.extractLsb' 3 3) (w.extractLsb' 2 1) (w.extractLsb' 0 2))
  | 0x0F => some (.waitc (w.extractLsb' 18 6) (w.extractLsb' 12 6) (w.extractLsb' 6 6) (w.extractLsb' 0 3))
  | 0x10 => some (.iadd (w.extractLsb' 18 6) (w.extractLsb' 12 6) (w.extractLsb' 6 6))
  | 0x11 => some (.isub (w.extractLsb' 18 6) (w.extractLsb' 12 6) (w.extractLsb' 6 6))
  | 0x12 => some (.imul (w.extractLsb' 18 6) (w.extractLsb' 12 6) (w.extractLsb' 6 6))
  | 0x13 => some (.imulh (w.extractLsb' 18 6) (w.extractLsb' 12 6) (w.extractLsb' 6 6))
  | 0x14 => some (.imad (w.extractLsb' 18 6) (w.extractLsb' 12 6) (w.extractLsb' 6 6) (w.extractLsb' 0 6))
  | 0x15 => some (.imin (w.extractLsb' 18 6) (w.extractLsb' 12 6) (w.extractLsb' 6 6))
  | 0x16 => some (.imax (w.extractLsb' 18 6) (w.extractLsb' 12 6) (w.extractLsb' 6 6))
  | 0x17 => some (.iabs (w.extractLsb' 18 6) (w.extractLsb' 12 6))
  | 0x18 => some (.and (w.extractLsb' 18 6) (w.extractLsb' 12 6) (w.extractLsb' 6 6))
  | 0x19 => some (.or (w.extractLsb' 18 6) (w.extractLsb' 12 6) (w.extractLsb' 6 6))
  | 0x1A => some (.xor (w.extractLsb' 18 6) (w.extractLsb' 12 6) (w.extractLsb' 6 6))
  | 0x1B => some (.andn (w.extractLsb' 18 6) (w.extractLsb' 12 6) (w.extractLsb' 6 6))
  | 0x1C => some (.shl (w.extractLsb' 18 6) (w.extractLsb' 12 6) (w.extractLsb' 6 6))
  | 0x1D => some (.shr (w.extractLsb' 18 6) (w.extractLsb' 12 6) (w.extractLsb' 6 6))
  | 0x1E => some (.sar (w.extractLsb' 18 6) (w.extractLsb' 12 6) (w.extractLsb' 6 6))
  | 0x1F => some (.rotl (w.extractLsb' 18 6) (w.extractLsb' 12 6) (w.extractLsb' 6 6))
  | 0x20 => some (.popc (w.extractLsb' 18 6) (w.extractLsb' 12 6))
  | 0x21 => some (.clz (w.extractLsb' 18 6) (w.extractLsb' 12 6))
  | 0x22 => some (.brev (w.extractLsb' 18 6) (w.extractLsb' 12 6))
  | 0x23 => some (.bfx (w.extractLsb' 18 6) (w.extractLsb' 12 6) (w.extractLsb' 6 6))
  | 0x24 => some (.bfi (w.extractLsb' 18 6) (w.extractLsb' 12 6) (w.extractLsb' 6 6) (w.extractLsb' 0 6))
  | 0x25 => some (.perm (w.extractLsb' 18 6) (w.extractLsb' 12 6) (w.extractLsb' 6 6) (w.extractLsb' 0 6))
  | 0x26 => some (.sel (w.extractLsb' 18 6) (w.extractLsb' 12 6) (w.extractLsb' 6 6) (w.extractLsb' 3 1) (w.extractLsb' 0 3))
  | 0x27 => some (.lea (w.extractLsb' 18 6) (w.extractLsb' 12 6) (w.extractLsb' 6 6) (w.extractLsb' 3 1) (w.extractLsb' 0 3))
  | 0x28 => some (.cmp (w.extractLsb' 21 3) (w.extractLsb' 18 3) (w.extractLsb' 12 6) (w.extractLsb' 6 6) (w.extractLsb' 0 6))
  | 0x29 => some (.cmpi (w.extractLsb' 21 3) (w.extractLsb' 18 3) (w.extractLsb' 12 6) (w.extractLsb' 9 3) (w.extractLsb' 0 9))
  | 0x2A => some (.addi (w.extractLsb' 18 6) (w.extractLsb' 12 6) (w.extractLsb' 0 12))
  | 0x2B => some (.andi (w.extractLsb' 18 6) (w.extractLsb' 12 6) (w.extractLsb' 0 12))
  | 0x2C => some (.ori (w.extractLsb' 18 6) (w.extractLsb' 12 6) (w.extractLsb' 0 12))
  | 0x2D => some (.xori (w.extractLsb' 18 6) (w.extractLsb' 12 6) (w.extractLsb' 0 12))
  | 0x2E => some (.shli (w.extractLsb' 18 6) (w.extractLsb' 12 6) (w.extractLsb' 6 6))
  | 0x2F => some (.shri (w.extractLsb' 18 6) (w.extractLsb' 12 6) (w.extractLsb' 6 6) (w.extractLsb' 5 1))
  | 0x30 => some (.li (w.extractLsb' 18 6) (w.extractLsb' 0 18))
  | 0x31 => some (.lih (w.extractLsb' 18 6) (w.extractLsb' 0 14))
  | 0x32 => some (.mov (w.extractLsb' 18 6) (w.extractLsb' 12 6))
  | 0x33 => some (.idot4 (w.extractLsb' 18 6) (w.extractLsb' 12 6) (w.extractLsb' 6 6) (w.extractLsb' 0 6))
  | 0x34 => some (.pmov (w.extractLsb' 21 3) (w.extractLsb' 18 3) (w.extractLsb' 12 6) (w.extractLsb' 5 1) (w.extractLsb' 0 5))
  | 0x35 => some (.plop (w.extractLsb' 21 3) (w.extractLsb' 18 3) (w.extractLsb' 12 3) (w.extractLsb' 6 3) (w.extractLsb' 0 4))
  | 0x40 => some (.fadd (w.extractLsb' 18 6) (w.extractLsb' 12 6) (w.extractLsb' 6 6))
  | 0x41 => some (.fsub (w.extractLsb' 18 6) (w.extractLsb' 12 6) (w.extractLsb' 6 6))
  | 0x42 => some (.fmul (w.extractLsb' 18 6) (w.extractLsb' 12 6) (w.extractLsb' 6 6))
  | 0x43 => some (.fma (w.extractLsb' 18 6) (w.extractLsb' 12 6) (w.extractLsb' 6 6) (w.extractLsb' 0 6))
  | 0x44 => some (.fnma (w.extractLsb' 18 6) (w.extractLsb' 12 6) (w.extractLsb' 6 6) (w.extractLsb' 0 6))
  | 0x45 => some (.fmin (w.extractLsb' 18 6) (w.extractLsb' 12 6) (w.extractLsb' 6 6))
  | 0x46 => some (.fmax (w.extractLsb' 18 6) (w.extractLsb' 12 6) (w.extractLsb' 6 6))
  | 0x47 => some (.fabs (w.extractLsb' 18 6) (w.extractLsb' 12 6))
  | 0x48 => some (.fneg (w.extractLsb' 18 6) (w.extractLsb' 12 6))
  | 0x49 => some (.fcmp (w.extractLsb' 21 3) (w.extractLsb' 18 3) (w.extractLsb' 12 6) (w.extractLsb' 6 6) (w.extractLsb' 0 6))
  | 0x4A => some (.fclass (w.extractLsb' 18 6) (w.extractLsb' 12 6))
  | 0x4B => some (.frcp (w.extractLsb' 18 6) (w.extractLsb' 12 6))
  | 0x4C => some (.frsq (w.extractLsb' 18 6) (w.extractLsb' 12 6))
  | 0x4D => some (.fsqrt (w.extractLsb' 18 6) (w.extractLsb' 12 6))
  | 0x4E => some (.fex2 (w.extractLsb' 18 6) (w.extractLsb' 12 6))
  | 0x4F => some (.flg2 (w.extractLsb' 18 6) (w.extractLsb' 12 6))
  | 0x50 => some (.fsin (w.extractLsb' 18 6) (w.extractLsb' 12 6))
  | 0x51 => some (.fcos (w.extractLsb' 18 6) (w.extractLsb' 12 6))
  | 0x52 => some (.fscl (w.extractLsb' 18 6) (w.extractLsb' 12 6) (w.extractLsb' 6 6))
  | 0x53 => some (.frnd (w.extractLsb' 18 6) (w.extractLsb' 12 6))
  | 0x54 => some (.cvt (w.extractLsb' 18 6) (w.extractLsb' 12 6) (w.extractLsb' 0 4))
  | 0x55 => some (.cvtn (w.extractLsb' 18 6) (w.extractLsb' 12 6) (w.extractLsb' 6 6) (w.extractLsb' 0 4))
  | 0x56 => some (.cvtw (w.extractLsb' 18 6) (w.extractLsb' 12 6) (w.extractLsb' 6 6) (w.extractLsb' 0 4))
  | 0x57 => some (.fdot2 (w.extractLsb' 18 6) (w.extractLsb' 12 6) (w.extractLsb' 6 6) (w.extractLsb' 0 6))
  | 0x60 => some (.shfl (w.extractLsb' 18 6) (w.extractLsb' 12 6) (w.extractLsb' 6 6) (w.extractLsb' 0 2))
  | 0x61 => some (.vote (w.extractLsb' 18 6) (w.extractLsb' 15 1) (w.extractLsb' 12 3) (w.extractLsb' 0 6))
  | 0x62 => some (.bcst (w.extractLsb' 18 6) (w.extractLsb' 12 6) (w.extractLsb' 6 6))
  | 0x63 => some (.rdx (w.extractLsb' 12 6) (w.extractLsb' 0 6))
  | 0x64 =>
    if w.extractLsb' 0 6 = 0#6 then some (.rdxwWait (w.extractLsb' 18 6) (w.extractLsb' 12 6))
    else if w.extractLsb' 0 6 = 1#6 then some (.rdxwSeq (w.extractLsb' 18 6))
    else if w.extractLsb' 0 6 = 2#6 then some (.rdxwSet (w.extractLsb' 12 6) (w.extractLsb' 6 6))
    else none
  | 0x65 => some (.scan (w.extractLsb' 18 6) (w.extractLsb' 12 6) (w.extractLsb' 0 6))
  | 0x66 =>
    if w.extractLsb' 11 1 = 0#1 then some (.mbwVector (w.extractLsb' 18 6) (w.extractLsb' 0 4))
    else some (.mbwGroup (w.extractLsb' 18 6) (w.extractLsb' 0 4))
  | 0x67 =>
    if w.extractLsb' 11 1 = 0#1 then some (.mbrVector (w.extractLsb' 18 6) (w.extractLsb' 4 1) (w.extractLsb' 0 4))
    else some (.mbrGroup (w.extractLsb' 18 6) (w.extractLsb' 4 1) (w.extractLsb' 0 4))
  | 0x70 => some (.bra (w.extractLsb' 23 1) (w.extractLsb' 20 3) (w.extractLsb' 0 20))
  | 0x71 => some (.brc (w.extractLsb' 23 1) (w.extractLsb' 20 3) (w.extractLsb' 0 20))
  | 0x72 => some (.join)
  | 0x73 => some (.call (w.extractLsb' 0 20))
  | 0x74 => some (.ret)
  | 0x75 => some (.jmpi (w.extractLsb' 12 6) (w.extractLsb' 0 1))
  | 0x76 => some (.loop (w.extractLsb' 20 4) (w.extractLsb' 0 20))
  | 0x77 => some (.balw (w.extractLsb' 20 4) (w.extractLsb' 0 20))
  | 0x78 => some (.bar (w.extractLsb' 6 5) (w.extractLsb' 4 2) (w.extractLsb' 0 4))
  | 0x79 => some (.barx (w.extractLsb' 12 6) (w.extractLsb' 6 2) (w.extractLsb' 3 3) (w.extractLsb' 0 3))
  | 0x7A => some (.gbara (w.extractLsb' 18 6) (w.extractLsb' 12 6) (w.extractLsb' 6 6) (w.extractLsb' 0 2))
  | 0x7B => some (.gbarw (w.extractLsb' 18 6) (w.extractLsb' 12 6) (w.extractLsb' 6 6) (w.extractLsb' 0 3))
  | 0x7C => some (.step (w.extractLsb' 18 6) (w.extractLsb' 12 6) (w.extractLsb' 0 1))
  | 0x7D => some (.stepe (w.extractLsb' 18 6) (w.extractLsb' 12 6))
  | 0x7E => some (.carve (w.extractLsb' 21 3) (w.extractLsb' 6 5) (w.extractLsb' 0 6))
  | 0x80 => some (.ld (w.extractLsb' 18 6) (w.extractLsb' 12 6) (w.extractLsb' 0 12))
  | 0x81 => some (.ldn (w.extractLsb' 18 6) (w.extractLsb' 12 6) (w.extractLsb' 0 12))
  | 0x82 => some (.st (w.extractLsb' 18 6) (w.extractLsb' 12 6) (w.extractLsb' 0 12))
  | 0x83 => some (.stn (w.extractLsb' 18 6) (w.extractLsb' 12 6) (w.extractLsb' 0 12))
  | 0x84 => some (.lds (w.extractLsb' 18 6) (w.extractLsb' 12 6) (w.extractLsb' 0 12))
  | 0x85 => some (.sts (w.extractLsb' 18 6) (w.extractLsb' 12 6) (w.extractLsb' 0 12))
  | 0x86 => some (.ldx (w.extractLsb' 18 6) (w.extractLsb' 12 6) (w.extractLsb' 6 6) (w.extractLsb' 2 1) (w.extractLsb' 0 2))
  | 0x87 => some (.stx (w.extractLsb' 18 6) (w.extractLsb' 12 6) (w.extractLsb' 6 6) (w.extractLsb' 2 1) (w.extractLsb' 0 2))
  | 0x88 => some (.ldacq (w.extractLsb' 18 6) (w.extractLsb' 12 6) (w.extractLsb' 0 3))
  | 0x89 => some (.strel (w.extractLsb' 18 6) (w.extractLsb' 12 6) (w.extractLsb' 0 3))
  | 0x8A => some (.ldsc (w.extractLsb' 18 6) (w.extractLsb' 12 6) (w.extractLsb' 0 3))
  | 0x8B => some (.stsc (w.extractLsb' 18 6) (w.extractLsb' 12 6) (w.extractLsb' 0 3))
  | 0x8C => some (.atom (w.extractLsb' 18 6) (w.extractLsb' 12 6) (w.extractLsb' 6 6) (w.extractLsb' 3 3) (w.extractLsb' 0 3))
  | 0x8D => some (.atomar (w.extractLsb' 18 6) (w.extractLsb' 12 6) (w.extractLsb' 6 6) (w.extractLsb' 3 3) (w.extractLsb' 0 3))
  | 0x8E => some (.atomsc (w.extractLsb' 18 6) (w.extractLsb' 12 6) (w.extractLsb' 6 6) (w.extractLsb' 3 3) (w.extractLsb' 0 3))
  | 0x8F => some (.red (w.extractLsb' 18 6) (w.extractLsb' 12 6) (w.extractLsb' 3 3) (w.extractLsb' 0 3))
  | 0x90 => some (.atoms (w.extractLsb' 18 6) (w.extractLsb' 12 6) (w.extractLsb' 6 6) (w.extractLsb' 0 3))
  | 0x91 => some (.pref (w.extractLsb' 18 2) (w.extractLsb' 12 6) (w.extractLsb' 0 12))
  | 0x92 => some (.flagw (w.extractLsb' 18 6) (w.extractLsb' 12 6) (w.extractLsb' 6 6) (w.extractLsb' 0 4))
  | 0x93 => some (.cctl (w.extractLsb' 18 2) (w.extractLsb' 12 6) (w.extractLsb' 0 12))
  | 0xA0 => some (.cpy (w.extractLsb' 12 6) (w.extractLsb' 6 6) (w.extractLsb' 0 5))
  | 0xA1 => some (.cpyt (w.extractLsb' 12 6) (w.extractLsb' 6 6) (w.extractLsb' 0 3))
  | 0xA2 => some (.cpyw (w.extractLsb' 12 6) (w.extractLsb' 6 6) (w.extractLsb' 3 3) (w.extractLsb' 0 3))
  | 0xA3 => some (.cpyo (w.extractLsb' 12 6) (w.extractLsb' 6 6) (w.extractLsb' 0 3))
  | 0xA4 => some (.cpyr (w.extractLsb' 12 6) (w.extractLsb' 6 6) (w.extractLsb' 0 3))
  | 0xA5 => some (.cpyx (w.extractLsb' 12 6) (w.extractLsb' 6 6) (w.extractLsb' 0 3))
  | 0xA6 => some (.cpyq (w.extractLsb' 12 6) (w.extractLsb' 6 6) (w.extractLsb' 0 3))
  | 0xB0 => some (.mgo (w.extractLsb' 18 6) (w.extractLsb' 12 6))
  | 0xB1 => some (.mwait (w.extractLsb' 18 6) (w.extractLsb' 12 6) (w.extractLsb' 0 3))
  | 0xC0 => some (.mma (w.extractLsb' 18 6) (w.extractLsb' 12 6) (w.extractLsb' 6 6) (w.extractLsb' 5 1) (w.extractLsb' 4 1) (w.extractLsb' 0 4))
  | 0xC1 => some (.mzero (w.extractLsb' 18 6))
  | 0xC2 => some (.mout (w.extractLsb' 18 6) (w.extractLsb' 12 6) (w.extractLsb' 6 6) (w.extractLsb' 3 3) (w.extractLsb' 0 3))
  | 0xC3 => some (.mload (w.extractLsb' 18 6) (w.extractLsb' 12 6) (w.extractLsb' 0 3))
  | 0xC4 => some (.mamax (w.extractLsb' 12 6) (w.extractLsb' 6 6))
  | 0xC5 => some (.mfence (w.extractLsb' 0 1))
  | 0xC6 => some (.mbar (w.extractLsb' 6 5) (w.extractLsb' 4 2) (w.extractLsb' 0 4))
  | 0xC7 =>
    if w.extractLsb' 17 1 = 0#1 then some (.mli (w.extractLsb' 18 6) (w.extractLsb' 0 17))
    else some (.mliH (w.extractLsb' 18 6) (w.extractLsb' 0 15))
  | 0xC8 => some (.madd (w.extractLsb' 18 6) (w.extractLsb' 12 6) (w.extractLsb' 0 12))
  | 0xC9 => some (.mloop (w.extractLsb' 20 4) (w.extractLsb' 0 20))
  | 0xCA => some (.mjmp (w.extractLsb' 0 20))
  | 0xCB => some (.mend)
  | 0xCC => some (.mfill (w.extractLsb' 6 2) (w.extractLsb' 0 6))
  | 0xCD => some (.mscl (w.extractLsb' 18 6) (w.extractLsb' 12 6) (w.extractLsb' 6 6) (w.extractLsb' 0 1))
  | 0xD0 => some (.gadd (w.extractLsb' 18 6) (w.extractLsb' 12 6) (w.extractLsb' 6 6))
  | 0xD1 => some (.gsub (w.extractLsb' 18 6) (w.extractLsb' 12 6) (w.extractLsb' 6 6))
  | 0xD2 => some (.gmul (w.extractLsb' 18 6) (w.extractLsb' 12 6) (w.extractLsb' 6 6))
  | 0xD3 => some (.gand (w.extractLsb' 18 6) (w.extractLsb' 12 6) (w.extractLsb' 6 6))
  | 0xD4 => some (.gor (w.extractLsb' 18 6) (w.extractLsb' 12 6) (w.extractLsb' 6 6))
  | 0xD5 => some (.gxor (w.extractLsb' 18 6) (w.extractLsb' 12 6) (w.extractLsb' 6 6))
  | 0xD6 => some (.gshl (w.extractLsb' 18 6) (w.extractLsb' 12 6) (w.extractLsb' 6 6))
  | 0xD7 => some (.gshr (w.extractLsb' 18 6) (w.extractLsb' 12 6) (w.extractLsb' 6 6))
  | 0xD8 => some (.gsar (w.extractLsb' 18 6) (w.extractLsb' 12 6) (w.extractLsb' 6 6))
  | 0xD9 => some (.gmin (w.extractLsb' 18 6) (w.extractLsb' 12 6) (w.extractLsb' 6 6))
  | 0xDA => some (.gmax (w.extractLsb' 18 6) (w.extractLsb' 12 6) (w.extractLsb' 6 6))
  | 0xDB => some (.gcmp (w.extractLsb' 21 3) (w.extractLsb' 18 3) (w.extractLsb' 12 6) (w.extractLsb' 6 6) (w.extractLsb' 0 6))
  | 0xDC =>
    if w.extractLsb' 17 1 = 0#1 then some (.gli (w.extractLsb' 18 6) (w.extractLsb' 0 17))
    else some (.gliH (w.extractLsb' 18 6) (w.extractLsb' 0 15))
  | 0xDD => some (.gaddi (w.extractLsb' 18 6) (w.extractLsb' 12 6) (w.extractLsb' 0 12))
  | 0xDE => some (.gld (w.extractLsb' 18 6) (w.extractLsb' 12 6) (w.extractLsb' 0 12))
  | 0xDF => some (.gst (w.extractLsb' 18 6) (w.extractLsb' 12 6) (w.extractLsb' 0 12))
  | 0xE0 => some (.mtaga (w.extractLsb' 18 6) (w.extractLsb' 12 6) (w.extractLsb' 0 2))
  | 0xE1 => some (.mtagf (w.extractLsb' 18 6) (w.extractLsb' 12 6) (w.extractLsb' 6 6))
  | 0xE2 =>
    if w.extractLsb' 5 1 = 0#1 then some (.mjoinVector (w.extractLsb' 18 6) (w.extractLsb' 12 6) (w.extractLsb' 6 6) (w.extractLsb' 0 3))
    else some (.mjoinGroup (w.extractLsb' 12 6) (w.extractLsb' 6 6) (w.extractLsb' 0 3))
  | 0xE3 => some (.launch (w.extractLsb' 18 6) (w.extractLsb' 12 6) (w.extractLsb' 0 6))
  | 0xE4 => some (.lqcfg (w.extractLsb' 18 6) (w.extractLsb' 12 6) (w.extractLsb' 6 6) (w.extractLsb' 0 6))
  | 0xE5 =>
    if w.extractLsb' 0 6 = 0#6 then some (.snapArm (w.extractLsb' 18 6) (w.extractLsb' 12 6) (w.extractLsb' 6 6))
    else if w.extractLsb' 0 6 = 1#6 then some (.snapCancel (w.extractLsb' 18 6) (w.extractLsb' 12 6))
    else if w.extractLsb' 0 6 = 2#6 then some (.snapLoad (w.extractLsb' 18 6) (w.extractLsb' 12 6) (w.extractLsb' 6 6))
    else none
  | 0xE6 => some (.keyld (w.extractLsb' 18 6) (w.extractLsb' 12 6) (w.extractLsb' 6 6) (w.extractLsb' 2 1) (w.extractLsb' 0 2))
  | 0xE7 =>
    if w.extractLsb' 2 1 = 0#1 then some (.migrCpy (w.extractLsb' 18 6) (w.extractLsb' 12 6) (w.extractLsb' 6 6) (w.extractLsb' 0 2))
    else some (.migrEnd (w.extractLsb' 18 6) (w.extractLsb' 12 6) (w.extractLsb' 6 6) (w.extractLsb' 0 2))
  | 0xE8 => some (.tslot (w.extractLsb' 18 6) (w.extractLsb' 12 6) (w.extractLsb' 6 6) (w.extractLsb' 0 2))
  | 0xE9 => some (.tlbi (w.extractLsb' 12 6) (w.extractLsb' 6 6) (w.extractLsb' 2 1) (w.extractLsb' 0 2))
  | 0xEA =>
    if w.extractLsb' 0 1 = 0#1 then some (.pendBind (w.extractLsb' 12 6))
    else some (.pendImp (w.extractLsb' 12 6))
  | 0xF0 => some (.creq (w.extractLsb' 18 6) (w.extractLsb' 12 6) (w.extractLsb' 6 6))
  | 0xF1 => some (.cawt (w.extractLsb' 18 6) (w.extractLsb' 12 6) (w.extractLsb' 6 6) (w.extractLsb' 0 1))
  | 0xF2 => some (.cuse (w.extractLsb' 18 6) (w.extractLsb' 12 6) (w.extractLsb' 6 6))
  | 0xF3 => some (.crel (w.extractLsb' 18 6) (w.extractLsb' 12 6) (w.extractLsb' 0 1))
  | 0xF4 => some (.cstat (w.extractLsb' 18 6) (w.extractLsb' 12 6))
  | 0xF5 => some (.epsnd (w.extractLsb' 18 6) (w.extractLsb' 12 6) (w.extractLsb' 6 6))
  | 0xF6 => some (.eprcv (w.extractLsb' 18 6) (w.extractLsb' 12 6) (w.extractLsb' 6 6))
  | 0xF7 => some (.time (w.extractLsb' 18 6))
  | 0xF8 => some (.htune (w.extractLsb' 18 6) (w.extractLsb' 12 6) (w.extractLsb' 0 1))
  | _ => none


/-- The word of an instruction, from the same encoding tables (R29, R43, R44); a step that is no word has none. -/
def encode (i : Instr) : Option Word :=
  match i with
  | .nop => some (0#32)
  | .setm k v => some (64#14 ++ k ++ v)
  | .getm d => some (2#8 ++ d ++ 0#18)
  | .yield => some (50331648#32)
  | .exit => some (67108864#32)
  | .exitSaved => some (67108865#32)
  | .trap i => some (320#14 ++ i)
  | .bkpt i => some (384#14 ++ i)
  | .gsr d n => some (7#8 ++ d ++ 0#6 ++ n)
  | .gsw a n => some (512#14 ++ a ++ n)
  | .xsr d x => some (9#8 ++ d ++ 0#13 ++ x)
  | .xsw a x => some (640#14 ++ a ++ 0#7 ++ x)
  | .eret => some (184549376#32)
  | .fence r q s => some (6291456#27 ++ r ++ q ++ s)
  | .xfence q p => some (53248#20 ++ q ++ p)
  | .waita d a b t s c => some (14#8 ++ d ++ a ++ b ++ t ++ s ++ c)
  | .waitc d a b t => some (15#8 ++ d ++ a ++ b ++ 0#3 ++ t)
  | .iadd d a b => some (16#8 ++ d ++ a ++ b ++ 0#6)
  | .isub d a b => some (17#8 ++ d ++ a ++ b ++ 0#6)
  | .imul d a b => some (18#8 ++ d ++ a ++ b ++ 0#6)
  | .imulh d a b => some (19#8 ++ d ++ a ++ b ++ 0#6)
  | .imad d a b c => some (20#8 ++ d ++ a ++ b ++ c)
  | .imin d a b => some (21#8 ++ d ++ a ++ b ++ 0#6)
  | .imax d a b => some (22#8 ++ d ++ a ++ b ++ 0#6)
  | .iabs d a => some (23#8 ++ d ++ a ++ 0#12)
  | .and d a b => some (24#8 ++ d ++ a ++ b ++ 0#6)
  | .or d a b => some (25#8 ++ d ++ a ++ b ++ 0#6)
  | .xor d a b => some (26#8 ++ d ++ a ++ b ++ 0#6)
  | .andn d a b => some (27#8 ++ d ++ a ++ b ++ 0#6)
  | .shl d a b => some (28#8 ++ d ++ a ++ b ++ 0#6)
  | .shr d a b => some (29#8 ++ d ++ a ++ b ++ 0#6)
  | .sar d a b => some (30#8 ++ d ++ a ++ b ++ 0#6)
  | .rotl d a b => some (31#8 ++ d ++ a ++ b ++ 0#6)
  | .popc d a => some (32#8 ++ d ++ a ++ 0#12)
  | .clz d a => some (33#8 ++ d ++ a ++ 0#12)
  | .brev d a => some (34#8 ++ d ++ a ++ 0#12)
  | .bfx d a b => some (35#8 ++ d ++ a ++ b ++ 0#6)
  | .bfi d a b c => some (36#8 ++ d ++ a ++ b ++ c)
  | .perm d a b c => some (37#8 ++ d ++ a ++ b ++ c)
  | .sel d a b n k => some (38#8 ++ d ++ a ++ b ++ 0#2 ++ n ++ k)
  | .lea d a b x s => some (39#8 ++ d ++ a ++ b ++ 0#2 ++ x ++ s)
  | .cmp k m a b c => some (40#8 ++ k ++ m ++ a ++ b ++ c)
  | .cmpi k m a c v => some (41#8 ++ k ++ m ++ a ++ c ++ v)
  | .addi d a i => some (42#8 ++ d ++ a ++ i)
  | .andi d a i => some (43#8 ++ d ++ a ++ i)
  | .ori d a i => some (44#8 ++ d ++ a ++ i)
  | .xori d a i => some (45#8 ++ d ++ a ++ i)
  | .shli d a n => some (46#8 ++ d ++ a ++ n ++ 0#6)
  | .shri d a n x => some (47#8 ++ d ++ a ++ n ++ x ++ 0#5)
  | .li d i => some (48#8 ++ d ++ i)
  | .lih d v => some (49#8 ++ d ++ 0#4 ++ v)
  | .mov d a => some (50#8 ++ d ++ a ++ 0#12)
  | .idot4 d a b c => some (51#8 ++ d ++ a ++ b ++ c)
  | .pmov k m a x n => some (52#8 ++ k ++ m ++ a ++ 0#6 ++ x ++ n)
  | .plop k m u v l => some (53#8 ++ k ++ m ++ 0#3 ++ u ++ 0#3 ++ v ++ 0#2 ++ l)
  | .fadd d a b => some (64#8 ++ d ++ a ++ b ++ 0#6)
  | .fsub d a b => some (65#8 ++ d ++ a ++ b ++ 0#6)
  | .fmul d a b => some (66#8 ++ d ++ a ++ b ++ 0#6)
  | .fma d a b c => some (67#8 ++ d ++ a ++ b ++ c)
  | .fnma d a b c => some (68#8 ++ d ++ a ++ b ++ c)
  | .fmin d a b => some (69#8 ++ d ++ a ++ b ++ 0#6)
  | .fmax d a b => some (70#8 ++ d ++ a ++ b ++ 0#6)
  | .fabs d a => some (71#8 ++ d ++ a ++ 0#12)
  | .fneg d a => some (72#8 ++ d ++ a ++ 0#12)
  | .fcmp k m a b c => some (73#8 ++ k ++ m ++ a ++ b ++ c)
  | .fclass d a => some (74#8 ++ d ++ a ++ 0#12)
  | .frcp d a => some (75#8 ++ d ++ a ++ 0#12)
  | .frsq d a => some (76#8 ++ d ++ a ++ 0#12)
  | .fsqrt d a => some (77#8 ++ d ++ a ++ 0#12)
  | .fex2 d a => some (78#8 ++ d ++ a ++ 0#12)
  | .flg2 d a => some (79#8 ++ d ++ a ++ 0#12)
  | .fsin d a => some (80#8 ++ d ++ a ++ 0#12)
  | .fcos d a => some (81#8 ++ d ++ a ++ 0#12)
  | .fscl d a b => some (82#8 ++ d ++ a ++ b ++ 0#6)
  | .frnd d a => some (83#8 ++ d ++ a ++ 0#12)
  | .cvt d a t => some (84#8 ++ d ++ a ++ 0#8 ++ t)
  | .cvtn d a b f => some (85#8 ++ d ++ a ++ b ++ 0#2 ++ f)
  | .cvtw d a b f => some (86#8 ++ d ++ a ++ b ++ 0#2 ++ f)
  | .fdot2 d a b c => some (87#8 ++ d ++ a ++ b ++ c)
  | .shfl d a b m => some (96#8 ++ d ++ a ++ b ++ 0#4 ++ m)
  | .vote d n k m => some (97#8 ++ d ++ 0#2 ++ n ++ k ++ 0#6 ++ m)
  | .bcst d a b => some (98#8 ++ d ++ a ++ b ++ 0#6)
  | .rdx a p => some (6336#14 ++ a ++ 0#6 ++ p)
  | .rdxwWait d a => some (100#8 ++ d ++ a ++ 0#12)
  | .rdxwSeq d => some (100#8 ++ d ++ 1#18)
  | .rdxwSet a b => some (6400#14 ++ a ++ b ++ 2#6)
  | .scan d a p => some (101#8 ++ d ++ a ++ 0#6 ++ p)
  | .mbwVector d k => some (102#8 ++ d ++ 0#14 ++ k)
  | .mbwGroup d k => some (102#8 ++ d ++ 128#14 ++ k)
  | .mbrVector d p k => some (103#8 ++ d ++ 0#13 ++ p ++ k)
  | .mbrGroup d p k => some (103#8 ++ d ++ 64#13 ++ p ++ k)
  | .bra n p o => some (112#8 ++ n ++ p ++ o)
  | .brc n p o => some (113#8 ++ n ++ p ++ o)
  | .join => some (1912602624#32)
  | .call o => some (1840#12 ++ o)
  | .ret => some (1946157056#32)
  | .jmpi a l => some (7488#14 ++ a ++ 0#11 ++ l)
  | .loop k o => some (118#8 ++ k ++ o)
  | .balw k o => some (119#8 ++ k ++ o)
  | .bar n t k => some (983040#21 ++ n ++ t ++ k)
  | .barx a t l k => some (7744#14 ++ a ++ 0#4 ++ t ++ l ++ k)
  | .gbara d a b m => some (122#8 ++ d ++ a ++ b ++ 0#4 ++ m)
  | .gbarw d a b t => some (123#8 ++ d ++ a ++ b ++ 0#3 ++ t)
  | .step d a x => some (124#8 ++ d ++ a ++ 0#11 ++ x)
  | .stepe d a => some (125#8 ++ d ++ a ++ 0#12)
  | .carve k c s => some (126#8 ++ k ++ 0#10 ++ c ++ s)
  | .ld d a i => some (128#8 ++ d ++ a ++ i)
  | .ldn d a i => some (129#8 ++ d ++ a ++ i)
  | .st d a i => some (130#8 ++ d ++ a ++ i)
  | .stn d a i => some (131#8 ++ d ++ a ++ i)
  | .lds d a i => some (132#8 ++ d ++ a ++ i)
  | .sts d a i => some (133#8 ++ d ++ a ++ i)
  | .ldx d a b x s => some (134#8 ++ d ++ a ++ b ++ 0#3 ++ x ++ s)
  | .stx d a b x s => some (135#8 ++ d ++ a ++ b ++ 0#3 ++ x ++ s)
  | .ldacq d a s => some (136#8 ++ d ++ a ++ 0#9 ++ s)
  | .strel d a s => some (137#8 ++ d ++ a ++ 0#9 ++ s)
  | .ldsc d a s => some (138#8 ++ d ++ a ++ 0#9 ++ s)
  | .stsc d a s => some (139#8 ++ d ++ a ++ 0#9 ++ s)
  | .atom d a b s p => some (140#8 ++ d ++ a ++ b ++ s ++ p)
  | .atomar d a b s p => some (141#8 ++ d ++ a ++ b ++ s ++ p)
  | .atomsc d a b s p => some (142#8 ++ d ++ a ++ b ++ s ++ p)
  | .red d a s p => some (143#8 ++ d ++ a ++ 0#6 ++ s ++ p)
  | .atoms d a b p => some (144#8 ++ d ++ a ++ b ++ 0#3 ++ p)
  | .pref t a i => some (2320#12 ++ t ++ a ++ i)
  | .flagw d a b g => some (146#8 ++ d ++ a ++ b ++ 0#2 ++ g)
  | .cctl p a i => some (2352#12 ++ p ++ a ++ i)
  | .cpy a b f => some (10240#14 ++ a ++ b ++ 0#1 ++ f)
  | .cpyt a b f => some (10304#14 ++ a ++ b ++ 0#3 ++ f)
  | .cpyw a b k f => some (10368#14 ++ a ++ b ++ k ++ f)
  | .cpyo a b f => some (10432#14 ++ a ++ b ++ 0#3 ++ f)
  | .cpyr a b f => some (10496#14 ++ a ++ b ++ 0#3 ++ f)
  | .cpyx a b f => some (10560#14 ++ a ++ b ++ 0#3 ++ f)
  | .cpyq a b f => some (10624#14 ++ a ++ b ++ 0#3 ++ f)
  | .mgo d a => some (176#8 ++ d ++ a ++ 0#12)
  | .mwait d a t => some (177#8 ++ d ++ a ++ 0#9 ++ t)
  | .mma d a b t u f => some (192#8 ++ d ++ a ++ b ++ t ++ u ++ f)
  | .mzero d => some (193#8 ++ d ++ 0#18)
  | .mout d a b r f => some (194#8 ++ d ++ a ++ b ++ r ++ f)
  | .mload d a f => some (195#8 ++ d ++ a ++ 0#9 ++ f)
  | .mamax a b => some (12544#14 ++ a ++ b ++ 0#6)
  | .mfence w => some (1652555776#31 ++ w)
  | .mbar n t k => some (1622016#21 ++ n ++ t ++ k)
  | .mli d v => some (199#8 ++ d ++ 0#1 ++ v)
  | .mliH d v => some (199#8 ++ d ++ 4#3 ++ v)
  | .madd d a i => some (200#8 ++ d ++ a ++ i)
  | .mloop k o => some (201#8 ++ k ++ o)
  | .mjmp o => some (3232#12 ++ o)
  | .mend => some (3405774848#32)
  | .mfill c s => some (13369344#24 ++ c ++ s)
  | .mscl d a b f => some (205#8 ++ d ++ a ++ b ++ 0#5 ++ f)
  | .gadd d a b => some (208#8 ++ d ++ a ++ b ++ 0#6)
  | .gsub d a b => some (209#8 ++ d ++ a ++ b ++ 0#6)
  | .gmul d a b => some (210#8 ++ d ++ a ++ b ++ 0#6)
  | .gand d a b => some (211#8 ++ d ++ a ++ b ++ 0#6)
  | .gor d a b => some (212#8 ++ d ++ a ++ b ++ 0#6)
  | .gxor d a b => some (213#8 ++ d ++ a ++ b ++ 0#6)
  | .gshl d a b => some (214#8 ++ d ++ a ++ b ++ 0#6)
  | .gshr d a b => some (215#8 ++ d ++ a ++ b ++ 0#6)
  | .gsar d a b => some (216#8 ++ d ++ a ++ b ++ 0#6)
  | .gmin d a b => some (217#8 ++ d ++ a ++ b ++ 0#6)
  | .gmax d a b => some (218#8 ++ d ++ a ++ b ++ 0#6)
  | .gcmp k m a b c => some (219#8 ++ k ++ m ++ a ++ b ++ c)
  | .gli d v => some (220#8 ++ d ++ 0#1 ++ v)
  | .gliH d v => some (220#8 ++ d ++ 4#3 ++ v)
  | .gaddi d a i => some (221#8 ++ d ++ a ++ i)
  | .gld d a i => some (222#8 ++ d ++ a ++ i)
  | .gst d a i => some (223#8 ++ d ++ a ++ i)
  | .mtaga d a s => some (224#8 ++ d ++ a ++ 0#10 ++ s)
  | .mtagf d a b => some (225#8 ++ d ++ a ++ b ++ 0#6)
  | .mjoinVector d a b p => some (226#8 ++ d ++ a ++ b ++ 0#3 ++ p)
  | .mjoinGroup a b p => some (14464#14 ++ a ++ b ++ 4#3 ++ p)
  | .launch d a q => some (227#8 ++ d ++ a ++ 0#6 ++ q)
  | .lqcfg d a b q => some (228#8 ++ d ++ a ++ b ++ q)
  | .snapArm d a b => some (229#8 ++ d ++ a ++ b ++ 0#6)
  | .snapCancel d a => some (229#8 ++ d ++ a ++ 3073#12)
  | .snapLoad d a b => some (229#8 ++ d ++ a ++ b ++ 2#6)
  | .keyld d a b w p => some (230#8 ++ d ++ a ++ b ++ 0#3 ++ w ++ p)
  | .migrCpy d a b z => some (231#8 ++ d ++ a ++ b ++ 0#4 ++ z)
  | .migrEnd d a b z => some (231#8 ++ d ++ a ++ b ++ 1#4 ++ z)
  | .tslot d a b p => some (232#8 ++ d ++ a ++ b ++ 0#4 ++ p)
  | .tlbi a b s f => some (14912#14 ++ a ++ b ++ 0#3 ++ s ++ f)
  | .pendBind a => some (14976#14 ++ a ++ 0#12)
  | .pendImp a => some (14976#14 ++ a ++ 1#12)
  | .creq d a b => some (240#8 ++ d ++ a ++ b ++ 0#6)
  | .cawt d a b m => some (241#8 ++ d ++ a ++ b ++ 0#5 ++ m)
  | .cuse d a b => some (242#8 ++ d ++ a ++ b ++ 0#6)
  | .crel d a m => some (243#8 ++ d ++ a ++ 0#11 ++ m)
  | .cstat d a => some (244#8 ++ d ++ a ++ 0#12)
  | .epsnd d a b => some (245#8 ++ d ++ a ++ b ++ 0#6)
  | .eprcv d a b => some (246#8 ++ d ++ a ++ b ++ 0#6)
  | .time d => some (247#8 ++ d ++ 0#18)
  | .htune d a m => some (248#8 ++ d ++ a ++ 0#11 ++ m)
  | .laneValueDelivery _ => none
  | .storeBufferDrain _ _ => none
  | .homeWritePerform _ _ => none
  | .storeAck _ => none
  | .l1LineExpiry _ _ => none
  | .atomicPerform _ => none
  | .faultRecordWrite _ => none
  | .deferredCauseTaken _ => none
  | .courseFinish _ => none
  | .versionOverflowCommit _ => none
  | .scratchpadLaneComplete _ => none
  | .windowAccess _ => none
  | .barrierWaiterRelease _ _ _ => none
  | .genBarrierUpdate _ => none
  | .copyChunkWrite _ _ => none
  | .copyComplete _ => none
  | .cpywFillStart _ => none
  | .cpyxSendStart _ => none
  | .mmaComplete _ => none
  | .batchRetire _ => none
  | .slewStep _ => none
  | .powerEstimate _ _ => none
  | .kilnUpdate _ => none
  | .pmcHeartbeat _ _ => none
  | .heartbeatMiss _ => none
  | .imageUpdateAnnounce _ => none
  | .comparatorTrip _ => none
  | .comparatorRelease _ => none
  | .thermalThrottle _ => none
  | .thermalThrottleRelease _ => none
  | .thermalTrip _ => none
  | .monitorSample _ _ _ _ => none
  | .monitorClr _ _ _ => none
  | .scratchpadIngressClose _ => none
  | .quadGate _ => none
  | .quadPowerUp _ => none
  | .flagApply _ _ => none
  | .admissionDecision _ => none
  | .saveComplete _ => none
  | .pendingDivert _ => none
  | .pendingRedirect _ => none
  | .probeTimer _ _ => none
  | .probe _ _ => none
  | .faultQueueResume _ _ => none
  | .regionEntryWrite _ _ _ _ => none
  | .patrolScrub _ _ => none
  | .uncorrectableError _ _ _ _ => none
  | .eccCounterClr _ => none
  | .mortarOperand _ => none
  | .jointCounterAdd _ _ => none
  | .halfArrival _ => none
  | .orphanTimeout _ => none
  | .kick _ _ _ => none
  | .kickSlotRead _ _ => none
  | .kickAppend _ _ => none
  | .packetStart _ => none
  | .keystoneRead _ _ => none
  | .keystoneRelease _ _ => none
  | .keystoneLeaseExpiry _ => none
  | .hostMemoryAccess _ _ _ _ _ _ => none
  | .powerOn _ => none
  | .pkgrstWrite _ => none
  | .pmcWatchdogReset _ => none
  | .portReset _ _ => none
  | .hbmThermalThrottle _ _ => none
  | .hbmThermalRelease _ _ => none
  | .registerWrite _ _ _ _ _ => none
  | .snapshotDrainLine _ _ => none
  | .snapshotDone _ => none
  | .snapshotLoadComplete _ _ _ _ => none
  | .ucieLinkDown _ _ => none
  | .holdExpiry _ _ => none
  | .mcWatchdogReset _ _ => none
  | .mcReturn _ _ => none
  | .wallLinkRestart _ _ => none
  | .channelLockLoss _ _ => none
  | .channelRelock _ _ => none
  | .lockAchieved _ _ _ => none
  | .lockTimeout _ _ => none
  | .deskewDone _ _ => none
  | .trainTimeout _ _ => none
  | .authSuccess _ _ => none
  | .authFailure _ _ => none
  | .authTimeout _ _ => none
  | .errorWindowExceeded _ _ _ => none
  | .flitAck _ _ _ => none
  | .quarantineExit _ _ => none
  | .heaterMarginChange _ _ _ _ _ => none
  | .readRequest _ => none
  | .readReply _ => none
  | .writePlain _ => none
  | .writeRelease _ => none
  | .writeSc _ => none
  | .acknowledgement _ => none
  | .atomicRequest _ => none
  | .atomicReply _ => none
  | .redPacket _ => none
  | .flagwPacket _ => none
  | .invalidate _ => none
  | .invalidateAck _ => none
  | .promoteRequest _ _ => none
  | .promoteAnswer _ _ => none
  | .copyChunk _ => none
  | .jointWrite _ => none
  | .snapshotHeldNotice _ => none
  | .streamOpen _ _ _ _ _ _ _ => none
  | .compressedPacket _ _ _ _ _ => none
  | .relayForward _ => none
  | .routeChange _ _ => none
  | .wallTimeout _ _ _ => none
  | .fateQuery _ _ => none
  | .fateAnswer _ _ => none
  | .fateNoAnswer _ _ => none
  | .scClockResetRequest _ => none
  | .scQuiescentReport _ => none
  | .scriptRecordAppend _ _ _ => none
  | .scriptStart _ => none
  | .switchGrant _ => none
  | .switchDeny _ => none
  | .cawtTimeout _ => none
  | .circuitChunk _ _ _ _ _ _ _ => none
  | .circuitChunkAck _ _ => none
  | .circuitReleaseComplete _ _ => none
  | .planeDataFrame _ _ _ _ => none
  | .planeAckFrame _ _ _ => none
  | .planeOpenFrame _ _ _ _ => none
  | .planeResendTimer _ _ => none
  | .planeUnreachable _ _ => none
  | .eprcvTimeout _ => none
  | .barrierPartArrival _ _ _ _ _ => none
  | .barrierReleaseMessage _ _ _ _ => none
  | .timeSync _ _ => none
  | .illegalInstructionWord _ => none
  | .migrationLineCopy _ _ => none
  | .moutMloadPerformed _ => none
  | .mfillComplete _ => none
  | .ucieLinkUp _ _ => none
  | .weazonPortDown _ _ => none
  | .weazonPortUp _ _ => none
  | .groupReply _ => none

/-- Decoding (R39's checks that hold whatever the agent and MODE): the selected row must reproduce every bit of the
word, and its fields must be well-formed. -/
def decode (w : Word) : Except DecodeError Instr :=
  match build w with
  | none => .error (if assignedOpcode (w.extractLsb' 24 8).toNat then .fieldNotOfTheForm else .unassignedOpcode)
  | some i =>
    if encode i = some w then (if i.wf then .ok i else .error .fieldValueReserved)
    else .error .fieldNotOfTheForm

/-- The word four bytes hold, least significant first (R29). -/
def wordOfBytes (b0 b1 b2 b3 : Byte) : Word := b3 ++ b2 ++ b1 ++ b0

/-- Decoding from bytes: the instruction and the bytes after its word; fewer than four bytes hold no word (R29). -/
def decodeBytes (bs : List Byte) : Option (Except DecodeError Instr × List Byte) :=
  match bs with
  | b0 :: b1 :: b2 :: b3 :: rest => some (decode (wordOfBytes b0 b1 b2 b3), rest)
  | _ => none

/-- The bytes of a word in memory order (R29). -/
def bytesOfWord (w : Word) : List Byte :=
  [w.extractLsb' 0 8, w.extractLsb' 8 8, w.extractLsb' 16 8, w.extractLsb' 24 8]

/-- The host's question: the instruction of a word whose bits are numbered as the opcode table numbers them. -/
def decodeTableWord (nbits w : Nat) : Option Instr :=
  match decodeBytes (bytesOfWord (BitVec.ofNat 32 (w % 2 ^ nbits))) with
  | some (.ok i, _) => some i
  | _ => none


end Sys2Proof
end

