-- ==== Sys2Proof/Machine/Check.lean ====
section
/-! DEFINITION. The checks every word passes before any operand is read (R37, R39-R41, R44): contexts, fields in
order, the operand codings of R31, R33, R34 and R36, and the TINFO of the first failure. -/

namespace Sys2Proof.Machine

open Sys2Proof

/-- The kind of agent that executes a word (R37); handler mode is told apart by `Env.handler`. -/
inductive Ctx where
  | course | stream | kcore | lintel
  deriving DecidableEq, Repr

/-- What R39 looks at beside the word: the agent, handler mode, and whether ET and GT are 64-bit types. -/
structure Env where
  ctx : Ctx
  handler : Bool
  etWide : Bool
  gtWide : Bool
  deriving DecidableEq, Repr

/-- Contexts of an opcode as the CTXS bits of R41: 1 V, 2 G, 4 M, 8 K, 16 L, 32 H. -/
def opContexts (op : Nat) : Nat :=
  if op = 0x00 then 6
  else if op ≤ 0x03 then 1
  else if op ≤ 0x06 then 2
  else if op ≤ 0x08 then 1
  else if op ≤ 0x0B then 32
  else if op ≤ 0x0F then 2
  else if op ≤ 0x63 then 1
  else if op = 0x64 then 2
  else if op = 0x65 then 1
  else if op ≤ 0x67 then 5
  else if op = 0x70 then 2
  else if op ≤ 0x72 then 1
  else if op ≤ 0x76 then 2
  else if op ≤ 0x7B then 1
  else if op ≤ 0x7D then 2
  else if op ≤ 0xB1 then 1
  else if op ≤ 0xCD then 4
  else if op ≤ 0xE1 then 2
  else if op = 0xE2 then 1
  else if op ≤ 0xE7 then 8
  else if op = 0xE8 then 9
  else if op = 0xE9 then 40
  else if op = 0xEA then 32
  else 16

/-- Whether an agent is among an opcode's contexts (R37). -/
def inContext (e : Env) (cs : Nat) : Bool :=
  match e.ctx with
  | .course => cs.testBit 0 || cs.testBit 1 || (e.handler && cs.testBit 5)
  | .stream => cs.testBit 2
  | .kcore => cs.testBit 1 || cs.testBit 3
  | .lintel => cs.testBit 1 || cs.testBit 4

/-- What a field holds (R39). -/
inductive Role where
  /-- not used: must be zero -/
  | unused
  /-- a literal, and whether its value is one the entry allows -/
  | lit (ok : Bool)
  /-- a literal whose value is allowed in handler mode only -/
  | priv
  /-- course coding (R31): source or destination, 64 bits wide or not -/
  | csrc (wide : Bool)
  | cdst (wide : Bool)
  /-- a load destination, n registers only (R148) -/
  | cload (wide : Bool)
  /-- ATOMS: a load destination or 0 -/
  | cload0 (wide : Bool)
  /-- group coding (R33) -/
  | gsrc (wide : Bool)
  | gdst (wide : Bool)
  /-- matrix coding (R34): which of m, a, w and zero are accepted, and whether the register must be even -/
  | mat (m a w z : Bool) (even : Bool)
  deriving DecidableEq, Repr

/-- One field: its FLD code (R41), its value, its role. -/
structure FieldUse where
  fld : Nat
  val : Nat
  role : Role
  deriving DecidableEq, Repr

/-- Causes of R50. -/
inductive Cause where
  | illegal | illMode | emptyRead | align | pageFault | access | spBound | spGone | splitOvf | carveFail | bkpt
  | swTrap | wrongCtx | priv | secViol | copyErr | mxFault | orphan | tagOverrun | deadlock | dlRisk | preempt
  | versionBan | softErr | fabric | launchErr | stalePkt
  deriving DecidableEq, Repr

/-- TCAUSE codes (R50). -/
def Cause.code : Cause → Nat
  | .illegal => 0x01 | .illMode => 0x02 | .emptyRead => 0x03 | .align => 0x04 | .pageFault => 0x05
  | .access => 0x06 | .spBound => 0x07 | .spGone => 0x08 | .splitOvf => 0x09 | .carveFail => 0x0A
  | .bkpt => 0x0B | .swTrap => 0x0C | .wrongCtx => 0x0D | .priv => 0x0E | .secViol => 0x0F | .copyErr => 0x10
  | .mxFault => 0x11 | .orphan => 0x12 | .tagOverrun => 0x13 | .deadlock => 0x14 | .dlRisk => 0x15
  | .preempt => 0x16 | .versionBan => 0x17 | .softErr => 0x18 | .fabric => 0x19 | .launchErr => 0x1A
  | .stalePkt => 0x1B

/-- TINFO of ILLEGAL, WRONGCTX and PRIV (R41). -/
def tinfoOf (opc fld ctxs sub : Nat) : Word := BitVec.ofNat 32 (opc * 2 ^ 24 + fld * 2 ^ 20 + ctxs * 2 ^ 8 + sub)

/-- The check of one field (R39): none when it passes, else the cause and SUB. -/
def Role.check (e : Env) (r : Role) (v : Nat) : Option (Cause × Nat) :=
  let oddIf (b : Bool) : Option (Cause × Nat) := if b then some (.illegal, 5) else none
  match r with
  | .unused => if v = 0 then none else some (.illegal, 2)
  | .lit ok => if ok then none else some (.illegal, 3)
  | .priv => if e.handler then none else some (.priv, 0x12)
  | .csrc wide =>
    if 60 < v then some (.illegal, 4)
    else oddIf (wide && (v == 15 || (decide (16 ≤ v) && decide (v ≤ 55) && v % 2 == 1)))
  | .cdst wide =>
    if v = 0 ∨ v = 63 then none
    else if 16 ≤ v ∧ v ≤ 47 then oddIf (wide && v % 2 == 1)
    else some (.illegal, 4)
  | .cload wide => if 16 ≤ v ∧ v ≤ 47 then oddIf (wide && v % 2 == 1) else some (.illegal, 4)
  | .cload0 wide =>
    if v = 0 then none
    else if 16 ≤ v ∧ v ≤ 47 then oddIf (wide && v % 2 == 1)
    else some (.illegal, 4)
  | .gsrc wide => if v ≤ 31 ∨ v = 48 then oddIf (wide && v % 2 == 1) else some (.illegal, 4)
  | .gdst wide => if v ≤ 31 ∨ v = 63 then oddIf (wide && v % 2 == 1 && v != 63) else some (.illegal, 4)
  | .mat m a w z even =>
    if (m && decide (v ≤ 15)) || (a && decide (16 ≤ v) && decide (v ≤ 31)) ||
        (w && decide (32 ≤ v) && decide (v ≤ 39)) || (z && v == 48) then oddIf (even && v % 2 == 1)
    else some (.illegal, 4)

/-- Fields of a word (R29). -/
def fldD (w : Word) : Nat := (w.extractLsb' 18 6).toNat
def fldA (w : Word) : Nat := (w.extractLsb' 12 6).toNat
def fldB (w : Word) : Nat := (w.extractLsb' 6 6).toNat
def fldC (w : Word) : Nat := (w.extractLsb' 0 6).toNat
def fldImm12 (w : Word) : Nat := (w.extractLsb' 0 12).toNat
def fldImm18 (w : Word) : Nat := (w.extractLsb' 0 18).toNat
def fldCond (w : Word) : Nat := (w.extractLsb' 20 4).toNat
def fldOff20 (w : Word) : Nat := (w.extractLsb' 0 20).toNat
def opOf (w : Word) : Nat := (w.extractLsb' 24 8).toNat

/-- The fields of the four formats in R39's order. -/
def useF3 (w : Word) (d a b c : Role) : List FieldUse :=
  [⟨1, fldD w, d⟩, ⟨2, fldA w, a⟩, ⟨3, fldB w, b⟩, ⟨4, fldC w, c⟩]
def useFI (w : Word) (d a i : Role) : List FieldUse := [⟨1, fldD w, d⟩, ⟨2, fldA w, a⟩, ⟨5, fldImm12 w, i⟩]
def useFL (w : Word) (d i : Role) : List FieldUse := [⟨1, fldD w, d⟩, ⟨5, fldImm18 w, i⟩]
def useFB (w : Word) (c : Role) : List FieldUse := [⟨6, fldCond w, c⟩, ⟨7, fldOff20 w, .lit true⟩]

/-- A literal below a bound. -/
def litLt (v n : Nat) : Role := .lit (decide (v < n))

/-- The combine code of a predicate field (R46, R86). -/
def predD (w : Word) : Role := litLt (fldD w % 8) 6

/-- The imm12 of BAR and MBAR (R187). -/
def barImm (w : Word) : Role :=
  let v := fldImm12 w
  .lit (decide (bitsOf v 10 6 < 17) && decide (bitsOf v 5 4 < 3) && !v.testBit 11)

/-- The role of each field of an assigned opcode: R88, R98, R110, R117-R126, R137, R147-R148, R163-R164, R175,
R187, R191, R195-R196, R201, R226-R230, R276, R289, R310, R314, R331, R336, R343, R350-R351, R358, R361-R362,
R387, R423. Where C selects the width of another field, its selector bits do so even when a reserved bit of C is set: D
and A fail first (R39). Where RDXW's C holds a reserved operation, D and A count as used and as 32-bit group
operands, and where SNAP's does, B as an even group pair; under a 64-bit ET, which IDOT4, FDOT2 and CVTN do not accept, their
operands count as 32 bits wide (DESIGN CHOICE, log 105: the spec does not say). -/
def fieldUses (e : Env) (w : Word) : List FieldUse :=
  let et := e.etWide
  let gt := e.gtWide
  let c := fldC w
  let i := fldImm12 w
  let j := fldImm18 w
  let u := Role.unused
  match opOf w with
  | 0x00 => useFL w u u
  | 0x01 => useFL w u (.lit (match setmWidth (bitsOf j 17 14) with
      | some n => decide (bitsOf j 13 0 < 2 ^ n)
      | none => false))
  | 0x02 => useFL w (.gdst false) u
  | 0x03 => useFL w u u
  | 0x04 => useFL w u
      (if j = 0 then .lit true else if j = 1 ∧ e.ctx = .course then .priv else .lit false)
  | 0x05 => useFL w u (.lit true)
  | 0x06 => useFL w u (.lit true)
  | 0x07 => useFI w (.gdst gt) u (.lit true)
  | 0x08 => useFI w u (.gsrc gt) (.lit true)
  | 0x09 => useFI w (if xsPerLane (i % 32) then .cdst false else .gdst false) u (litLt i 32)
  | 0x0A => useFI w u (if xsPerLane (i % 32) then .csrc false else .gsrc false) (litLt i 32)
  | 0x0B => useFL w u u
  | 0x0C => useFI w u u (.lit (decide (i < 32) && decide (i % 8 < 6) && decide (8 ≤ i)))
  | 0x0D => useFI w u u (.lit (decide (i % 64 ≠ 0) && decide (i / 64 ≠ 0)))
  | 0x0E => useF3 w (.gdst gt) (.gsrc (!c.testBit 2)) (.gsrc gt)
      (.lit (decide (c % 4 < 3) && (e.ctx == .course || !c.testBit 2)))
  | 0x0F => useF3 w (.gdst true) (.gsrc false) (.gsrc true) (litLt c 8)
  | 0x10 | 0x11 | 0x12 | 0x13 | 0x15 | 0x16 | 0x18 | 0x19 | 0x1A | 0x1B | 0x1C | 0x1D | 0x1E | 0x1F =>
    useF3 w (.cdst et) (.csrc et) (.csrc et) u
  | 0x14 => useF3 w (.cdst et) (.csrc et) (.csrc et) (.csrc et)
  | 0x17 | 0x20 | 0x21 | 0x22 | 0x32 => useF3 w (.cdst et) (.csrc et) u u
  | 0x23 => useF3 w (.cdst et) (.csrc et) (.csrc false) u
  | 0x24 => useF3 w (.cdst et) (.csrc et) (.csrc et) (.csrc false)
  | 0x25 => useF3 w (.cdst false) (.csrc false) (.csrc false) (.csrc false)
  | 0x26 => useF3 w (.cdst et) (.csrc et) (.csrc et) (litLt c 16)
  | 0x27 => useF3 w (.cdst true) (.csrc true) (.csrc false) (litLt c 16)
  | 0x28 => useF3 w (predD w) (.csrc et) (.csrc et) (litLt c 6)
  | 0x29 => useFI w (predD w) (.csrc et) (litLt (bitsOf i 11 9) 6)
  | 0x2A | 0x2B | 0x2C | 0x2D => useFI w (.cdst et) (.csrc et) (.lit true)
  | 0x2E => useFI w (.cdst et) (.csrc et) (.lit (decide (i % 64 = 0)))
  | 0x2F => useFI w (.cdst et) (.csrc et) (.lit (decide (i % 32 = 0)))
  | 0x30 => useFL w (.cdst false) (.lit true)
  | 0x31 => useFL w (.cdst false) (litLt j (2 ^ 14))
  | 0x33 => useF3 w (.cdst false) (.csrc false) (.csrc false) (.csrc false)
  | 0x34 => useF3 w (predD w) (.csrc false) u (.lit true)
  | 0x35 => useF3 w (predD w) (litLt (fldA w) 8) (litLt (fldB w) 8) (litLt c 16)
  | 0x40 | 0x41 | 0x42 | 0x45 | 0x46 => useF3 w (.cdst et) (.csrc et) (.csrc et) u
  | 0x43 | 0x44 => useF3 w (.cdst et) (.csrc et) (.csrc et) (.csrc et)
  | 0x47 | 0x48 | 0x4A | 0x4B | 0x4C | 0x4D | 0x4E | 0x4F | 0x50 | 0x51 | 0x53 =>
    useF3 w (.cdst et) (.csrc et) u u
  | 0x49 => useF3 w (predD w) (.csrc et) (.csrc et) (litLt c 8)
  | 0x52 => useF3 w (.cdst et) (.csrc et) (.csrc false) u
  | 0x54 => useF3 w (.cdst et) (.csrc (cvtWide (BitVec.ofNat 4 c))) u (litLt c 12)
  | 0x55 => useF3 w (.cdst false) (.csrc false) (.csrc false) (litLt c 10)
  | 0x56 => useF3 w (.cdst et) (.csrc false) (.csrc et) (litLt c 10)
  | 0x57 => useF3 w (.cdst false) (.csrc false) (.csrc false) (.csrc false)
  | 0x60 => useF3 w (.cdst et) (.csrc et) (.csrc false) (litLt c 4)
  | 0x61 => useF3 w (.gdst false) (litLt (fldA w) 16) u (litLt c 4)
  | 0x62 => useF3 w (.gdst et) (.csrc et) (litLt (fldB w) 32) u
  | 0x63 => useF3 w u (.csrc et) u (litLt c 6)
  | 0x64 =>
    match c with
    | 0 => useF3 w (.gdst gt) (.gsrc false) u (.lit true)
    | 1 => useF3 w (.gdst false) u u (.lit true)
    | 2 => useF3 w u (.gsrc gt) (.gsrc false) (.lit true)
    | _ => useF3 w (.gdst false) (.gsrc false) u (.lit false)
  | 0x65 => useF3 w (.cdst et) (.csrc et) u (litLt c 6)
  | 0x66 => useFI w
      (if e.ctx = .stream then .mat true false false false false
       else if i.testBit 11 then .gsrc false else .csrc false) u
      (.lit (decide (bitsOf i 10 4 = 0) && !(e.ctx == .stream && i.testBit 11)))
  | 0x67 => useFI w
      (if e.ctx = .stream then .mat true false false false false
       else if i.testBit 11 then .gdst false else .cload0 false) u
      (.lit (decide (bitsOf i 10 5 = 0) && !(e.ctx == .stream && i.testBit 11)))
  | 0x70 | 0x71 | 0x76 | 0x77 => useFB w (.lit true)
  | 0x72 | 0x74 => useFL w u u
  | 0x73 => useFB w u
  | 0x75 => useF3 w u (.gsrc false) u (litLt c 2)
  | 0x78 => useFI w u u (barImm w)
  | 0x79 => useFI w u (.gsrc false)
      (.lit (decide (bitsOf i 5 3 < 5) && decide (bitsOf i 7 6 < 3) && decide (i < 256)))
  | 0x7A => useF3 w (.gdst false) (.gsrc false) (.gsrc false) (litLt c 3)
  | 0x7B => useF3 w (.gdst false) (.gsrc false) (.gsrc false) (litLt c 8)
  | 0x7C => useFI w (.gsrc false) (.gsrc false) (litLt i (if e.ctx = .course then 2 else 1))
  | 0x7D => useFI w (.gdst false) (.gsrc false) u
  | 0x7E => useFI w (.lit (decide (fldD w % 8 = 0))) u
      (.lit (decide (i % 64 < 47) && decide (bitsOf i 10 6 < 17) && !i.testBit 11))
  | 0x80 | 0x81 => useFI w (.cload et) (.csrc true) (.lit true)
  | 0x82 | 0x83 => useFI w (.csrc et) (.csrc true) (.lit true)
  | 0x84 => useFI w (.cload et) (.csrc false) (.lit true)
  | 0x85 => useFI w (.csrc et) (.csrc false) (.lit true)
  | 0x86 => useF3 w (.cload et) (.csrc true) (.csrc false) (litLt c 8)
  | 0x87 => useF3 w (.csrc et) (.csrc true) (.csrc false) (litLt c 8)
  | 0x88 => useF3 w (.cload et) (.csrc true) u (litLt c 6)
  | 0x89 => useF3 w (.csrc et) (.csrc true) u (litLt c 6)
  | 0x8A => useF3 w (.cload et) (.csrc true) u (litLt c 5)
  | 0x8B => useF3 w (.csrc et) (.csrc true) u (litLt c 5)
  | 0x8C | 0x8D => useF3 w (.cload et) (.csrc true) (.csrc et) (litLt (c / 8) 6)
  | 0x8E => useF3 w (.cload et) (.csrc true) (.csrc et) (litLt (c / 8) 5)
  | 0x8F => useF3 w (.csrc et) (.csrc true) u (.lit (decide (c / 8 < 6) && decide (c % 8 < 6)))
  | 0x90 => useF3 w (if c % 8 = 7 ∧ fldD w = 0 then .lit false else .cload0 et) (.csrc false) (.csrc et) (litLt c 8)
  | 0x91 => useFI w (litLt (fldD w) 3) (.csrc true) (.lit true)
  | 0x92 => useF3 w (.csrc false) (.csrc true) (.csrc false) (litLt c 16)
  | 0x93 => useFI w (litLt (fldD w) 4) (.csrc true) (.lit true)
  | 0xA0 => useF3 w u (.lit (decide (fldA w % 8 = 0) && decide (fldA w ≤ 24))) (.gsrc false) (litLt c 32)
  | 0xA2 => useF3 w u (.lit (decide (fldA w % 8 = 0) && decide (fldA w ≤ 24))) (.gsrc false) (.lit true)
  | 0xA1 | 0xA3 | 0xA4 | 0xA5 | 0xA6 =>
    useF3 w u (.lit (decide (fldA w % 8 = 0) && decide (fldA w ≤ 24))) (.gsrc false) (litLt c 8)
  | 0xB0 => useFI w (.gsrc false) (.gsrc false) u
  | 0xB1 => useFI w (.gdst false) (.gsrc false) (litLt i 8)
  | 0xC0 => useF3 w (.mat false true false false (c % 16 == 0)) (.mat true false false false (c % 16 == 8 || c % 16 == 9))
      (.mat false false true false false)
      (.lit (decide (c % 16 < 14) &&
        (!c.testBit 5 || c % 16 == 2 || c % 16 == 3 || c % 16 == 10 || c % 16 == 12)))
  | 0xC1 => useF3 w (.mat false true true false false) u u u
  | 0xC2 => useF3 w (.mat true false false true false) (.mat false true false false (c % 8 == 5))
      (.mat true false false false false)
      (.lit (decide (c / 8 < 6) && (decide (c % 8 < 6) || c / 8 == 0)))
  | 0xC3 => useF3 w (.mat false true false false (c % 8 == 5)) (.mat true false false false false) u
      (.lit (c == 0 || c == 1 || c == 5))
  | 0xC4 => useF3 w u (.mat true false false false true) (.mat false true false false false) u
  | 0xC5 => useFL w u (litLt j 2)
  | 0xC6 => useFI w u u (barImm w)
  | 0xC7 => useFL w (.mat true false false false false) (.lit (!j.testBit 17 || bitsOf j 16 15 == 0))
  | 0xC8 => useFI w (.mat true false false false false) (.mat true false false false false) (.lit true)
  | 0xC9 => useFB w (.lit true)
  | 0xCA => useFB w u
  | 0xCB => useFL w u u
  | 0xCC => useFI w u u (.lit (decide (i % 64 ≠ 0) && decide (i < 256)))
  | 0xCD => useF3 w (.mat false true false false (c.testBit 0)) (.mat false true false false (c.testBit 0))
      (.mat true false false true (c.testBit 0)) (litLt c 2)
  | 0xD0 | 0xD1 | 0xD2 | 0xD3 | 0xD4 | 0xD5 | 0xD6 | 0xD7 | 0xD8 | 0xD9 | 0xDA =>
    useF3 w (.gdst gt) (.gsrc gt) (.gsrc gt) u
  | 0xDB => useF3 w (predD w) (.gsrc gt) (.gsrc gt) (litLt c 6)
  | 0xDC => useFL w (.gdst false) (.lit (!j.testBit 17 || bitsOf j 16 15 == 0))
  | 0xDD => useFI w (.gdst gt) (.gsrc gt) (.lit true)
  | 0xDE => useFI w (.gdst gt) (.gsrc true) (.lit true)
  | 0xDF => useFI w (.gsrc gt) (.gsrc true) (.lit true)
  | 0xE0 => useF3 w (.gdst false) (.gsrc false) u (.lit (decide (c ≠ 0) && decide (c < 4)))
  | 0xE1 => useF3 w (.gdst false) (.gsrc false) (.gsrc false) u
  | 0xE2 => useF3 w (if c.testBit 5 then u else .csrc false)
      (.lit (decide (fldA w % 8 = 0) && decide (fldA w ≤ 24) && decide (c % 8 < 6)))
      (if c.testBit 5 then .gsrc false else .csrc false) (.lit (decide (bitsOf c 4 3 = 0)))
  | 0xE3 => useF3 w (.gdst false) (.lit (decide (fldA w % 8 = 0) && decide (fldA w ≤ 24))) u (.lit true)
  | 0xE4 => useF3 w (.gdst false) (.gsrc false) (.gsrc true) (.lit true)
  | 0xE5 => useF3 w (.gdst false) (.gsrc false) (if c % 4 = 1 then .lit (fldB w == 48) else .gsrc true) (litLt c 3)
  | 0xE6 => useF3 w (.gdst false) (.gsrc false) (if c % 4 = 0 then .gsrc true else u)
      (.lit (decide (c % 4 < 3) && decide (c < 8)))
  | 0xE7 => useF3 w (.gdst false) (.gsrc true) (.gsrc true) (.lit (decide (c % 4 < 3) && decide (c < 8)))
  | 0xE8 => useF3 w (.gdst false) (.gsrc false) (.gsrc false) (litLt c 3)
  | 0xE9 => useF3 w u (if c % 4 = 0 then u else .gsrc false) (if c % 4 = 2 then .gsrc true else u)
      (.lit (decide (c % 4 < 3) && decide (c < 8)))
  | 0xEA => useF3 w u (.gsrc true) u (litLt c 2)
  | 0xF0 => useF3 w (.gdst false) (.gsrc false) (.gsrc false) u
  | 0xF1 => useF3 w (.gdst false) (.gsrc false) (.gsrc false) (litLt c 2)
  | 0xF2 => useF3 w (.gdst false) (.gsrc false) (.gsrc true) u
  | 0xF3 => useF3 w (.gdst false) (.gsrc false) u (litLt c 2)
  | 0xF4 => useF3 w (.gdst false) (.gsrc false) u u
  | 0xF5 | 0xF6 => useF3 w (.gdst false) (.gsrc false) (.gsrc true) u
  | 0xF7 => useFL w (.gdst true) u
  | 0xF8 => useF3 w (.gdst false) (.gsrc false) u (litLt c 2)
  | _ => []

/-- The first failing field. -/
def firstFailing (e : Env) : List FieldUse → Option (Nat × Cause × Nat)
  | [] => none
  | u :: us => match u.role.check e u.val with
    | some (c, sub) => some (u.fld, c, sub)
    | none => firstFailing e us

/-- R39: none when the word passes, else the cause and TINFO. -/
def r39 (e : Env) (w : Word) : Option (Cause × Word) :=
  let op := opOf w
  if !assignedOpcode op then some (.illegal, tinfoOf op 0 0 1)
  else if !inContext e (opContexts op) then
    (if e.ctx = .course ∧ (opContexts op).testBit 5 then some (.priv, tinfoOf op 0 0 0x10)
     else some (.wrongCtx, tinfoOf op 0 (opContexts op) 0))
  else match firstFailing e (fieldUses e w) with
    | some (fld, c, sub) => some (c, tinfoOf op fld 0 sub)
    | none => none

/-- Issue classes of R44. -/
inductive IssueClass where
  | vector | group | memory | matrix | noClass
  deriving DecidableEq, Repr

def issueClass (op : Nat) : IssueClass :=
  if op ≤ 0x0B then .group
  else if op ≤ 0x0F then .memory
  else if op ≤ 0x63 then .vector
  else if op = 0x64 then .group
  else if op = 0x65 then .vector
  else if op ≤ 0x79 then .group
  else if op ≤ 0x7B then .memory
  else if op ≤ 0x7E then .group
  else if op ≤ 0xA6 then .memory
  else if op ≤ 0xB1 then .group
  else if op ≤ 0xCD then .matrix
  else if op ≤ 0xDD then .group
  else if op ≤ 0xDF then .memory
  else if op ≤ 0xE1 then .group
  else if op = 0xE2 then .memory
  else if op ≤ 0xE7 then .noClass
  else if op ≤ 0xE9 then .group
  else if op = 0xEA then .memory
  else .noClass

end Sys2Proof.Machine
end

