-- ==== Sys2Proof/Machine/StateCourse.lean ====
section
/-! DEFINITION. The state of a course (01_course_state R10-R28, 12_traps R271-R292): lanes, slots, group registers,
store buffer, trap registers. -/

namespace Sys2Proof.Machine

open Sys2Proof

/-- One lane: queue ages (R13), named registers and predicates (R17), the full/empty word (R18), poison marks of ages
and named registers (R199). Bit 7 of `p` is p7 and stays true. -/
structure Lane where
  q : Vector Word 16
  n : Vector Word 32
  fe : Word
  p : BitVec 8
  qPoison : BitVec 16
  nPoison : Word
  deriving DecidableEq, Repr

/-- A lane at team start (R28). -/
def Lane.init : Lane :=
  { q := Vector.replicate 16 0#32, n := Vector.replicate 32 0#32, fe := 0xFFFFFFFF#32, p := 0x80#8,
    qPoison := 0#16, nPoison := 0#32 }

/-- Group-wide registers and the reduction register (R19, R20, R115), with poison marks (R199): a course, a die
control core and a Lintel hold one set each. Bit 7 of `gp` is gp7 and stays true. -/
structure Scalar where
  g : Vector Word 32
  gp : BitVec 8
  gPoison : Word
  red : DWord
  redSeq : BitVec 16
  deriving DecidableEq, Repr

def Scalar.init : Scalar :=
  { g := Vector.replicate 32 0#32, gp := 0x80#8, gPoison := 0#32, red := 0#64, redSeq := 0#16 }

/-- A FLAGW lane that leaves its package (R158): its count, its ordering group, and the package it goes to. -/
structure FlagInfo where
  count : Nat
  group : Nat
  pkg : Nat
  deriving DecidableEq, Repr

/-- The store of a lane that has not entered the store buffer yet (R22): bytes of one half-line, or the 128 bytes of
CCTL.ZERO, which take two entries (R160). -/
structure PendingStore where
  addr : Nat
  bytes : List Byte
  key : Nat
  kind : BitVec 4
  scope : BitVec 3
  flag : Option FlagInfo
  lane : Nat
  deriving DecidableEq, Repr

/-- A mortar operand (R363-R365): its tag, op, PARTY and tile, the physical addresses of DST and CTR, DST's virtual
address, the sending course and team, and the meeting router as a number 48 * die + router. -/
structure MortarOp where
  tag : Nat
  op : Nat
  party : Nat
  words : List Word
  dst : Nat
  dstVa : Nat
  ctr : Nat
  key : Nat
  router : Nat
  issued : Nat
  /-- the package it was sent from -/
  src : Nat
  /-- the SNAP mark and key id of DST's leaf and of CTR's (R328) -/
  snap : Option Nat
  keyId : Nat
  ctrSnap : Option Nat
  ctrKey : Nat
  /-- the core and the ASID of its MJOIN -/
  core : Nat
  asid : Nat
  deriving DecidableEq, Repr

/-- What a slot is held by, beside its PC (R141, R161, R168, R22, R195). -/
inductive Hold where
  /-- nothing -/
  | free
  /-- GLD, MTAGA, MTAGF or GBARA has issued and waits for its reply with this number -/
  | reply (n : Nat)
  /-- store lanes of the instruction with this stamp still to enter the buffer (R22), and the lanes it re-executes after
  them for their misses (R168) -/
  | entering (stamp : Nat) (lanes : List PendingStore) (left : Word)
  /-- a wait whose arrival conditions count from this stamp: the entries and loads older than it (R161) -/
  | fence (stamp : Nat)
  /-- the then-fence of a wait that a value has satisfied, counted from this stamp (R165) -/
  | met (stamp value : Nat)
  /-- MJOIN's step 6, counted from this stamp: the operand as it was read at issue, with the scratchpad offset of a tile still to
  be read (R363, R364) -/
  | joining (stamp : Nat) (o : MortarOp) (tile : Option Nat)
  /-- an MWAIT that waits for its batch (R227) -/
  | batch
  /-- a Lintel's EPSND, EPRCV or CAWT, by opcode: the number of its message or the time it waits to, and whether that has
  passed (R426, R434) -/
  | timed (op n : Nat) (isOver : Bool)
  deriving DecidableEq, Repr

/-- A program-counter slot (R10): PC, mask, split id; what holds it; the token it is parked under, if any, and the
lanes a resumed or imported instruction re-executes (R168, R170, R278); whether it issued YIELD in the last decision
(R120); the MODE that an instruction begun and not complete has read (R118). -/
structure Slot where
  pc : Word
  mask : Word
  id : BitVec 16
  hold : Hold
  parked : Option Nat
  replay : Option Word
  yielded : Bool
  kept : Option Word
  deriving DecidableEq, Repr

def Slot.free : Slot :=
  { pc := 0#32, mask := 0#32, id := 0#16, hold := .free, parked := none, replay := none, yielded := false, kept := none }

/-- One lane's bytes in an entry whose lanes are performed one at a time, in lane order: those of an SC store (R263) and of a
FLAGW to another package (R158). -/
structure SbPart where
  lane : Nat
  off : Nat
  bytes : List Byte
  flag : Option FlagInfo
  deriving DecidableEq, Repr

/-- A store-buffer entry (R22): the image's fields; the parts of an entry that is performed lane by lane; frozen
and restored by R268; the model's issue stamp, slot and the lanes of that slot at issue (log 5, R11). -/
structure SbEntry where
  data : Vector Byte 64
  mask : DWord
  va : DWord
  valid : Bool
  scope : BitVec 3
  kind : BitVec 4
  key : BitVec 12
  stamp : DWord
  parts : List SbPart
  /-- half of the line that a CCTL.ZERO clears (R345) -/
  whole : Bool
  frozen : Bool
  /-- written by XSW (R268): it leaves before every store issued after the ERET -/
  restored : Bool
  issue : Nat
  slot : Bool
  lanes : Word
  step : Nat
  deriving DecidableEq, Repr

def SbEntry.empty : SbEntry :=
  { data := Vector.replicate 64 0#8, mask := 0#64, va := 0#64, valid := false, scope := 0#3, kind := 0#4,
    key := 0#12, stamp := 0#64, parts := [], whole := false, frozen := false, restored := false, issue := 0, slot := false, lanes := 0#32,
    step := 0 }

/-- A cause to be taken later (R443, R167, R275): its registers as recorded when it arose; a cause of R167 brings its
own TPC and slot. -/
structure HeldCause where
  cause : Cause
  tpc : Option Word
  slot : Option Bool
  taddr : DWord
  tmask : Word
  tinfo : Word
  deriving DecidableEq, Repr

/-- PEND.BIND's record, translated page by page: for each 64 KiB of its addresses, the number of the 64 KiB, where it
lies, and the leaf (R291); and the core that STATE names. What its residency sent was sent before the stamp `upTo`; 0 while
that residency lasts. -/
structure Bound where
  va : Nat
  pages : List (Nat × Nat × Nat)
  core : Nat
  upTo : Nat
  deriving DecidableEq, Repr

/-- A release whose value a relaxed load of a slot has read (R257): the releasing core, the release's place in its write
path, and the slot and lanes that read it. An acquire fence of that slot promotes it (R260). -/
structure Seen where
  core : Nat
  upTo : Nat
  str : Bool
  lanes : Word
  deriving DecidableEq, Repr

/-- How far a course has come (R121, R122, R282). -/
inductive Life where
  | live | ended | finished | endedSaved | saved
  deriving DecidableEq, Repr

/-- A course. `str` false names the header slot, true the stretcher slot, in every slot-indexed field. -/
structure Course where
  team : Nat
  cid : Nat
  header : Slot
  stretcher : Slot
  depth : Nat
  lanes : Vector Lane 32
  sc : Scalar
  mode : Word
  fpflags : BitVec 5
  srSeedV : Word
  srSeedO : Word
  alwLow : Word
  splitSp : Word
  charge : Word
  tcause : Word
  tpc : Word
  taddr : DWord
  tmask : Word
  tinfo : Word
  hbase : DWord
  handler : Bool
  /-- instructions completed: a party that has moved (R295) -/
  moves : Nat
  /-- the stamp at the latest trap entry: what the handler issues comes from then on (R274, R443) -/
  entered : Nat
  /-- the stamps between which earlier handlers of the course ran, while accesses that they issued are under way (R274) -/
  spans : List (Nat × Nat)
  xHeader : Slot
  xStretcher : Slot
  xMode : Word
  replayMask : Word
  faultPend : Word
  sb : Vector SbEntry 16
  unack : Vector (BitVec 12) 6
  held : List HeldCause
  preempt : Option Word
  /-- the record bound in the course's present residency (R291), and those of earlier ones, not imported yet (R292) -/
  bound : Option Bound
  earlier : List Bound
  /-- releases read by relaxed loads and not promoted yet (R257, R260) -/
  seen : List Seen
  life : Life
  deriving DecidableEq, Repr

/-- MODE at team start and in a handler (R24, R27). -/
def modeReset : Word := 0x00000007#32

/-- A course at team start (R28): its PC is the kernel entry and its mask the launch record's lanes. -/
def Course.init (team cid : Nat) (entry lanes : Word) (tid hbase : DWord) (spsize : Nat) : Course :=
  let seed (k : Nat) : Word := BitVec.ofNat 32 (bitsOf tid.toNat 15 0 * 2 ^ 16 + cid * 2 ^ 8 + k)
  { team := team, cid := cid, header := { Slot.free with pc := entry, mask := lanes }, stretcher := Slot.free,
    depth := 0, lanes := Vector.replicate 32 Lane.init, sc := Scalar.init, mode := modeReset, fpflags := 0#5,
    srSeedV := seed 1, srSeedO := seed 3, alwLow := 0#32,
    splitSp := BitVec.ofNat 32 (if 512 ≤ spsize then spsize - 512 else 0), charge := 0#32, tcause := 0#32,
    tpc := 0#32, taddr := 0#64, tmask := 0#32, tinfo := 0#32, hbase := hbase, handler := false,
    moves := 0, entered := 0, spans := [], xHeader := Slot.free, xStretcher := Slot.free, xMode := 0#32, replayMask := 0#32, faultPend := 0#32,
    sb := Vector.replicate 16 SbEntry.empty, unack := Vector.replicate 6 0#12, held := [], preempt := none,
    bound := none, earlier := [], seen := [], life := .live }

/-- A slot by its side. -/
def Course.slot (c : Course) (str : Bool) : Slot := if str then c.stretcher else c.header
def Course.setSlot (c : Course) (str : Bool) (x : Slot) : Course :=
  if str then { c with stretcher := x } else { c with header := x }

end Sys2Proof.Machine
end

