-- ==== Sys2Proof/Machine/StateTeam.lean ====
section
/-! DEFINITION. The state of a team, its sequencer, barriers, weight slots and copies (08_core, 09_copy_engine,
10_matrix_engine R223-R225, 12_traps R283-R287, 17_die_launch R349-R354). -/

namespace Sys2Proof.Machine

open Sys2Proof

/-- Whose translation and world an access uses (R327, R339): root table PA, ASID, secure agent, the die whose TLB and
fault queue serve it (die number in the wall, 8 * PKG + DIE), and the core whose own and quad TLBs do, if one's do (R330). -/
structure Xlat where
  root : Nat
  asid : Nat
  secure : Bool
  die : Nat
  core : Option Nat
  deriving DecidableEq, Repr

/-- A barrier of R188, and of R315, R359 and R437 for wider levels. Parties and slots are named by numbers: a course's
key, and for the matrix sequencer a number above every course's. A standing slot is listed with its PC. -/
structure Barrier where
  arrivals : Nat
  gen : BitVec 16
  need : Nat
  pending : List Nat
  standing : List (Nat × Bool × Word)
  passed : List (Nat × Bool)
  /-- waiters whose flag is set and that are not yet released (R198, R359, R437) -/
  unreleased : List (Nat × Bool)
  deriving DecidableEq, Repr

def Barrier.init : Barrier := { arrivals := 0, gen := 0#16, need := 0, pending := [], standing := [], passed := [], unreleased := [] }

/-- A mailbox (R192). -/
structure Mailbox where
  full : Bool
  value : Word
  deriving DecidableEq, Repr

/-- Kinds of a weight slot (R208, R225). -/
inductive WKind where
  | plain | sparse8 | sparse16 | block4 | vq2
  deriving DecidableEq, Repr

/-- A weight slot (R225): its lines as bytes, the line-kind map as the groups stored plain, the logical length Λ and the
cursor; poisoned bytes by line. -/
structure WSlot where
  full : Bool
  kind : WKind
  lines : List (List Byte)
  plainGroups : List Nat
  length : Nat
  cursor : Nat
  poison : List Nat
  deriving DecidableEq, Repr

def WSlot.empty : WSlot :=
  { full := false, kind := .plain, lines := [], plainGroups := [], length := 0, cursor := 0, poison := [] }

/-- Run state of the sequencer (R223). -/
inductive RunState where
  | idle | running | stopped
  deriving DecidableEq, Repr

/-- The matrix instruction that has issued and is not yet performed (R228, R231, R238, R240, R244). -/
inductive MPending where
  | mma (w : Word)
  | move (w : Word)
  | amax (w : Word) (pa : Nat)
  | fill (w : Word)
  deriving DecidableEq, Repr

/-- The matrix sequencer of a team (R223), with the issue state of R228, R245 and R251. -/
structure Seq where
  pc : Word
  m : Vector Word 16
  closed : Word
  retired : Word
  run : RunState
  faultValid : Bool
  faultInfo : Word
  faultAddr : DWord
  abandoned : Bool
  /-- an instruction has issued since the last close (R243, R245) -/
  openBatch : Bool
  pending : Option MPending
  /-- fault-queue token while a word is held by a recoverable miss (R251) -/
  token : Option Nat
  /-- MFENCE.W holds the stream until its batch retires (R245) -/
  holdBatch : Option Word
  /-- words completed: a party that has moved (R295) -/
  moves : Nat
  deriving DecidableEq, Repr

def Seq.init : Seq :=
  { pc := 0#32, m := Vector.replicate 16 0#32, closed := 0#32, retired := 0#32, run := .idle, faultValid := false,
    faultInfo := 0#32, faultAddr := 0#64, abandoned := false, openBatch := false, pending := none,
    token := none, holdBatch := none, moves := 0 }

/-- A launch record's fields and what LAUNCH captured with it (R349, R350). -/
structure Launch where
  teams : Nat
  pbg : Nat
  idem : Bool
  vers : Bool
  cls : Nat
  gang : Nat
  courses : Nat
  part : Word
  ncnt : Nat
  est : Nat
  lanes : Word
  code : DWord
  mstr : DWord
  inSlots : Word
  outSlots : Word
  arg : DWord
  hbase : DWord
  cntBase : DWord
  asid : Nat
  root : Nat
  secure : Bool
  number : Nat
  queue : Nat
  /-- the die of the wall it was launched on -/
  die : Nat
  deriving DecidableEq, Repr

/-- Where a team stands in its life (R281-R284, R354); a flushed one waits to start again. -/
inductive Residency where
  | resident | saving | saved | flushed | ended
  deriving DecidableEq, Repr

/-- A team. Its key in State.teams is the model's own handle, in admission order. -/
structure Team where
  launch : Launch
  index : Nat
  /-- wall core number 768 * PKG + 96 * DIE + CORE (R260) -/
  core : Nat
  /-- the wall core numbers of the gang's members, in member order; the own core alone without a gang -/
  gang : List Nat
  /-- the team of the gang that holds gang-wide state: the first member's handle -/
  gangHead : Nat
  residency : Residency
  sp : Nat
  acc : Nat
  ws : Nat
  scratch : SMap Byte
  /-- poisoned 4-byte words of the scratchpad (R199) -/
  spPoison : SMap Bool
  /-- accumulator tiles: word 64 * i + j of tile k at key 4096 * k + 64 * i + j (R224) -/
  tiles : SMap Word
  tilePoison : List Nat
  slots : Vector WSlot 8
  barriers : Vector Barrier 16
  /-- CARVE arrivals: course, imm12 and predicate of each (R176) -/
  carve : List (Nat × Nat × Nat)
  carved : List Nat
  mail : Vector Mailbox 16
  srSeedM : Word
  seq : Seq
  failedSlots : List Nat
  deadline : Option Nat
  optIn : Bool
  tag : Word
  /-- instructions issued u and resident time (R279) -/
  issued : Nat
  resTime : Nat
  since : Nat
  /-- the stamp of its latest admission (R356) -/
  admitted : Nat
  /-- the speculative version of a versioned team (R285) -/
  version : Option (SMap Byte)
  /-- the version's lines as the leaves of its stores named them, with the key id and the SNAP mark of each (R328, R390) -/
  verLeaves : List (Nat × Nat × Option Nat)
  /-- lines of the version that took poisoned bytes (R222) -/
  verPoison : List Nat
  /-- the dies that a stalled store of the team would take past 4 MiB (R287) -/
  verStall : List Nat
  abnormal : Bool
  /-- the core it was saved on (R273's MOVED) -/
  savedCore : Nat
  /-- deferred causes kept with a saved team: course and cause (R283, R443) -/
  keptCauses : List (Nat × HeldCause)
  /-- latest MGO's CID, the ordering group of the stream's wall writes (R409) -/
  mgoCid : Nat
  /-- pre-empted to be flushed (R281) -/
  flush : Bool
  /-- pre-empted to run out (R281) -/
  drain : Bool
  /-- DLRISK received for the current tag (R313) -/
  risked : Bool
  deriving DecidableEq, Repr

/-- How far a copy has come (R204, R209, R213, R214). -/
inductive CopyPhase where
  /-- held by a CPYW's full slot or a CPYX's barrier -/
  | waiting
  | moving
  /-- every byte written; updates made so far: 0 none, 1 the counter, 2 all -/
  | updating (done : Nat)
  deriving DecidableEq, Repr

/-- Where a copy's stores to global memory go (R203, R285): to memory, into its team's version, or nowhere once that version
is gone. -/
inductive CopyInto where
  | memory | version | nowhere
  deriving DecidableEq, Repr

/-- A copy issued and not completed (R201-R222). -/
structure Copy where
  op : Nat
  flags : Nat
  team : Nat
  cid : Nat
  core : Nat
  xlat : Xlat
  tid : DWord
  cntBase : DWord
  into : CopyInto
  desc : Vector Word 8
  arrival : Word
  rm : Nat
  sat : Bool
  /-- SRSEEDO when the copy issued (R212) -/
  seed : Word
  phase : CopyPhase
  /-- destination chunks written, by address; for CPYQ with the member in the high part -/
  done : List Nat
  /-- bytes written in other packages, by the runs whose packets are answered: address and length (R409) -/
  remote : List (Nat × Nat)
  /-- source chunks read, by address or offset over 32: bytes and their poison (R217) -/
  cache : SMap (List (Byte × Bool))
  /-- CPYW: the pieces of its stream, by position (R208) -/
  taken : SMap (List Byte)
  /-- CPYW: poisoned bytes of its stream, by place -/
  takenPoison : List Nat
  failed : Option DWord
  token : Option Nat
  /-- CPYX: bytes acknowledged by the peer (R214, R428) -/
  acked : Nat
  sent : Nat
  /-- STEPNO when it issued (R392) -/
  step : Nat
  /-- CPYX: its circuit-live barrier (R213) -/
  bar : Option Nat
  /-- the time of its issue (R320) -/
  since : Nat
  deriving DecidableEq, Repr

end Sys2Proof.Machine
end

