-- ==== Sys2Proof/Machine/StateDie.lean ====
section
/-! DEFINITION. The state of a core beyond its teams, of a quad, a die, and of everything in flight between them
(08_core R178-R186, 11_ordering R255-R263, 14_quad_power R303-R309, 16_die_memory, 17_die_launch, 18_mortar). -/

namespace Sys2Proof.Machine

open Sys2Proof

/-- An agent that issues instruction words (R37, R253). Slots and courses are named by the course's key
16 * team + CID; dies and packages by their numbers in the wall. -/
inductive Agent where
  | course (key : Nat) (str : Bool)
  | seq (team : Nat)
  | kcore (die : Nat)
  | lintel (pkg : Nat)
  deriving DecidableEq, Repr

/-- A TLB or walker-cache entry (R330): an ASID under one root, the first VA it covers in units of its size, the
size as a power of two, the entry read: a leaf, or one that names a table. -/
structure TlbEntry where
  root : Nat
  asid : Nat
  va : Nat
  size : Nat
  leaf : Nat
  table : Bool
  deriving DecidableEq, Repr

/-- A write on a write path (R255): bytes at a physical address within one line, the issuer, the kind of R22, the
counter it holds up, the SC time it brings, the FLAGW it is, the SGEN of a leaf with SNAP (R390), the virtual
address for a report, the issue stamp of its store, and whether it has been sent as a wall packet (R408). `parts` are the
lanes of an SC store or FLAGW still to be performed (R263, R158). -/
structure PathWrite where
  owner : Agent
  pa : Nat
  va : Nat
  bytes : List (Option Byte)
  kind : BitVec 4
  scope : Nat
  ts : Nat
  flag : Option FlagInfo
  issue : Nat
  snap : Option Nat
  /-- the sender's step at issue (R392) -/
  step : Nat
  /-- key id of the leaf (R342) -/
  keyId : Nat
  /-- half of a full-line write (R345) -/
  whole : Bool
  parts : List SbPart
  sent : Bool
  /-- performed at its home in another package, and not acknowledged yet (R412) -/
  landed : Bool
  deriving DecidableEq, Repr

/-- A write path holds writes, marks and the `RED`s without a reply in the order the core passed them on (R255); a RED by its
owner and its bytes. -/
inductive PathItem where
  | write (w : PathWrite)
  | mark
  | red (owner : Agent) (pa size : Nat)
  deriving DecidableEq, Repr

/-- A core's state beside its teams: L1 lines as captured bytes (R255), with the release each line's home recorded when
it was filled (R260: writer's core, scope, the model's stamp), the write path, the Lamport clock (R262), the
rotating pointers P[c] by class (R186), the array's holder and last holder (R229), ingress closed (R316), the core TLB, newest entry last (R330). -/
structure Core where
  l1 : SMap (List Byte)
  l1Rel : SMap (Nat × Nat × Nat)
  path : SMap PathItem
  clock : Nat
  ptrVector : Nat
  ptrGroup : Nat
  ptrMemory : Nat
  arrayHolder : Option Nat
  arrayLast : Nat
  ingressClosed : Bool
  scHalt : Bool
  tlb : List TlbEntry
  deriving DecidableEq, Repr

def Core.init : Core :=
  { l1 := [], l1Rel := [], path := [], clock := 0, ptrVector := 0, ptrGroup := 0, ptrMemory := 0, arrayHolder := none,
    arrayLast := 0, ingressClosed := false, scHalt := false, tlb := [] }

/-- A load lane in flight (R150): the slot and its lanes at issue, what it reads and where it delivers. `fwd` holds the
bytes that its own course's store buffer and its core's write path gave it when its home in another package was read. -/
structure LoadLane where
  key : Nat
  str : Bool
  mask : Word
  lane : Nat
  reg : Nat
  size : Nat
  sext : Bool
  wide : Bool
  va : Nat
  pa : Nat
  fwd : List (Option Byte)
  /-- none relaxed, else the scope of the acquire (R256) -/
  acquire : Option Nat
  /-- SC: the provisional time c0, taken when the lane operation starts (R262, log 33) -/
  sc : Option Nat
  version : Option Nat
  /-- its wall read request has been sent (R406) -/
  asked : Bool
  /-- promotion of R260 asked for and not answered -/
  promoting : Bool
  promoted : Bool
  /-- the value an acquire read while its promotion runs -/
  got : Option Nat
  /-- of the lowest lane of its load, the time of its issue (R320) -/
  since : Option Nat
  /-- key id of the leaf (R342) -/
  keyId : Nat
  pc : Word
  deriving DecidableEq, Repr

/-- One lane of an atomic group: lane, destination register if any, operand, compare value (R155, R156). -/
structure AtomLane where
  lane : Nat
  reg : Option Nat
  x : Nat
  cmp : Nat
  deriving DecidableEq, Repr

/-- Ordering of an atomic (R152). -/
inductive AtomOrder where
  | relaxed | acqRel | sc
  deriving DecidableEq, Repr

/-- An atomic group in flight (R156): performed as one event at its home, or at a bank for ATOMS. -/
structure AtomGroup where
  owner : Agent
  /-- the lanes of the issuing slot -/
  mask : Word
  pc : Word
  op : Nat
  et : ElemType
  ftz : Bool
  size : Nat
  pa : Nat
  va : Nat
  order : AtomOrder
  scope : Nat
  stamp : Nat
  lanes : List AtomLane
  counter : Option Nat
  version : Option Nat
  snap : Option Nat
  /-- key id of the leaf (R342) -/
  keyId : Nat
  step : Nat
  sent : Bool
  /-- its place in its core's write path, once the core has passed it on (R255) -/
  mark : Option Nat
  /-- BF16x2: the half performed first, true the upper, with what each lane's half returns (R155) -/
  half : Option (Bool × List Nat)
  /-- the copy or the joint whose counter it adds to (R214, R366) -/
  copy : Option Nat
  /-- an engine's add: the die and the ASID whose translation found it (R332) -/
  engine : Option (Nat × Nat)
  deriving DecidableEq, Repr

/-- A lane's value ready to be written (R150): from an atomic, a mailbox, a scratchpad or a fabric answer. `fail` is the
deferred cause of R167 instead of a value. -/
structure LaneValue where
  key : Nat
  str : Bool
  mask : Word
  lane : Nat
  reg : Nat
  wide : Bool
  value : Nat
  poison : Bool
  fail : Option (Cause × Nat × Word)
  pc : Word
  acquire : Option Nat
  /-- the issue stamp of the access it answers (R291) -/
  origin : Nat
  deriving DecidableEq, Repr

/-- What a scratchpad access does at its bank (R178): a load serves every lane that names its word, by one access. -/
inductive SpOp where
  | load (reg : Nat) (wide : Bool) (lanes : List Nat)
  | store (bytes : List Byte)
  | atom (op : Nat) (et : ElemType) (ftz : Bool) (half : Option (Bool × List Nat)) (lanes : List AtomLane)
  deriving DecidableEq, Repr

/-- A scratchpad lane queued at a bank: own, or a partner's through the quad window (R146, R178, R181). -/
structure SpLane where
  key : Nat
  str : Bool
  mask : Word
  lane : Nat
  pc : Word
  target : Nat
  member : Nat
  offset : Nat
  size : Nat
  window : Bool
  op : SpOp
  deriving DecidableEq, Repr

/-- What a held slot waits for (R141, R195, R361); a load brings the lanes of its slot, what LoadLane.fwd holds and its leaf's
key id. -/
inductive GroupOp where
  | load (pa va size : Nat) (mask : Word) (fwd : List (Option Byte)) (version : Option Nat) (asked : Bool) (key : Nat)
  /-- PEND.IMP waits for the answer of the core in STATE (R292): the record as PEND.IMP finds it -/
  | redirect (b : Bound)
  | tagAlloc (scope count : Nat)
  | tagFree (first count : Nat)
  | barrier (target offset bytes arrivals member : Nat)
  /-- the reply has been formed -/
  | done (value : Nat) (fail : Option (Cause × Nat × Word))
  deriving DecidableEq, Repr

/-- A group-wide request in flight. -/
structure GroupReq where
  agent : Agent
  reg : Option Nat
  wide : Bool
  op : GroupOp
  pc : Word
  deriving DecidableEq, Repr

/-- Anything on its way between agents, keyed by its issue stamp. -/
inductive Flight where
  | load (x : LoadLane)
  | atom (x : AtomGroup)
  | value (x : LaneValue)
  | spad (x : SpLane)
  | group (x : GroupReq)
  /-- an acknowledgement for a store of a scope, with the SC time if any (R23, R262), and the store's issue stamp -/
  | ack (owner : Agent) (scope : Nat) (stamp origin : Nat)
  /-- a promote request of a load or atomic to the writer's core: the request's stamp, core, release number (R260) -/
  | promote (load core upTo : Nat) (sent : Bool)
  | promoted (load : Nat)
  deriving DecidableEq, Repr

/-- A directory entry of a home line (R325): dies and packages holding a copy, last release-class writer (wall core
number and scope) with the model's stamp of that release, SC stamps, poison. -/
structure DirLine where
  dsh : BitVec 8
  psh : BitVec 16
  relCore : Nat
  relScope : Nat
  relValid : Bool
  relStamp : Nat
  lw : Nat
  lr : Nat
  poi : Bool
  /-- key id of the line's bytes (R342) -/
  key : Nat
  /-- the key material its bytes were written under (R343; log 21) -/
  mat : Nat
  /-- the 32-byte chunks of a poisoned line that parts of full-line writes have overwritten since, as bits (R345) -/
  whole : Nat
  /-- the line holds stamps in its LLC slice; one that does not takes the slice's floor E (R262) -/
  stamped : Bool
  deriving DecidableEq, Repr

def DirLine.init : DirLine :=
  { dsh := 0#8, psh := 0#16, relCore := 0, relScope := 0, relValid := false, relStamp := 0, lw := 0, lr := 0,
    poi := false, key := 0, mat := 0, whole := 0, stamped := false }

/-- A fault-queue record waiting for room (R334): TYPE, the fixed 32 bytes after it, further member bytes. -/
structure FaultRec where
  type : Nat
  asid : Nat
  core : Nat
  cidSlot : Nat
  kind : Nat
  addr : Nat
  tid : Nat
  token : Nat
  info : Nat
  members : List (List Byte)
  deriving DecidableEq, Repr

/-- An active migration (R336-R338): old and new frame, bytes, lines copied. -/
structure Migration where
  old : Nat
  new : Nat
  size : Nat
  moved : Nat
  poisoned : Bool
  done : Bool
  deriving DecidableEq, Repr

/-- A launch queue (R351): configuration and up to 16 entries, each with the number of teams started. -/
structure LQueue where
  asid : Nat
  sec : Bool
  en : Bool
  prio : Nat
  root : Nat
  entries : List (Launch × Nat)
  deriving DecidableEq, Repr

def LQueue.init : LQueue := { asid := 0, sec := false, en := false, prio := 0, root := 0, entries := [] }

/-- A processor: a die control core (R346) or a Lintel (R417). Its translation, trap entry, HALT and TACT stand in its
device registers. `running` while it runs a program, `deadlock` a DEADLOCK held for it (R348), `frame` the trap frame
its handler returns through, `alone` a handler that interrupted no program. Its step state is that of R311. -/
structure Proc where
  pc : DWord
  sc : Scalar
  running : Bool
  stepOpen : Bool
  stepId : Word
  stepDl : Nat
  stepLast : Word
  clock : Nat
  hold : Hold
  frame : DWord
  deadlock : Bool
  alone : Bool
  /-- releases that its loads have read and that are not promoted yet (R257, R260) -/
  seen : List Seen
  /-- a trap that waits for its frame (R348): cause, TADDR and TINFO -/
  entry : Option (Cause × Nat × Nat)
  deriving DecidableEq, Repr

def Proc.init : Proc :=
  { pc := 0#64, sc := Scalar.init, running := false, stepOpen := false, stepId := 0#32, stepDl := 0,
    stepLast := 0#32, clock := 0, hold := .free, frame := 0#64, deadlock := false,
    alone := false, seen := [], entry := none }

/-- A monitor channel (R320). -/
structure Monitor where
  en : Bool
  param : BitVec 8
  src : BitVec 8
  min : Word
  max : Word
  count : Word
  binSel : BitVec 5
  bins : SMap Word
  deriving DecidableEq, Repr

def Monitor.init : Monitor :=
  { en := false, param := 0#8, src := 0#8, min := 0xFFFFFFFF#32, max := 0#32, count := 0#32, binSel := 0#5, bins := [] }

/-- A quad's limiter and loop state (R302-R308); what its registers show is in the device registers. -/
structure Quad where
  /-- enabled sectors of the four cores, computing or grout (R304) -/
  sectors : Vector Nat 4
  level : Nat
  rises : Nat
  /-- charge above VBASE of the vector issues of the current step (R303) -/
  excess : Nat
  allow : Nat
  integral : Int
  /-- charge of the current and of the last microsecond (R307, R320) -/
  charge : Nat
  lastCharge : Nat
  /-- what its sensor showed at the last estimate, in °C (R307, R376) -/
  temp : Nat
  /-- issue slots used and cycles of the kiln's interval (R312) -/
  issues : Nat
  cycles : Nat
  /-- time at which the quad last held a team (R317) -/
  idleSince : Nat
  monitors : Vector Monitor 8
  /-- the quad TLB (R330) -/
  tlb : List TlbEntry
  deriving DecidableEq, Repr

def Quad.init : Quad :=
  { sectors := Vector.replicate 4 0, level := 0, rises := 0, excess := 0, allow := 128, integral := 0, charge := 0,
    lastCharge := 0, temp := 0, issues := 0, cycles := 0, idleSince := 0, monitors := Vector.replicate 8 Monitor.init,
    tlb := [] }

/-- A mortar operand in a die: where it stands (R365-R368). -/
inductive MortarPlace where
  /-- on its way to its router -/
  | travelling
  /-- in the router's matching store -/
  | stored
  /-- held at the router's input (case 6) -/
  | heldInput
  /-- sent as a half, on its way to DST's home slice; first or second of its tag -/
  | half
  /-- a half sent as a wall packet -/
  | halfSent
  /-- in the half store of DST's slice -/
  | halfStored
  deriving DecidableEq, Repr

/-- A joint being written: chunks still to perform, and what CTR then gets (R366, R368). -/
structure Joint where
  dst : Nat
  bytes : List Byte
  left : List Nat
  ctr : Nat
  add : Nat
  die : Nat
  snap : Option Nat
  keyId : Nat
  ctrSnap : Option Nat
  ctrKey : Nat
  /-- sent as a joint packet (R408) -/
  sent : Bool
  /-- CTR's add is on its way to another package -/
  adding : Bool
  /-- its operands' MJOINs: ASID (R332), core and time of issue (R320, R369) -/
  joined : List (Nat × Nat × Nat)
  deriving DecidableEq, Repr

/-- The half table's record of a tag (R365). -/
structure HalfRec where
  tag : Nat
  op : Nat
  party : Nat
  len : Nat
  dst : Nat
  ctr : Nat
  router : Nat
  deriving DecidableEq, Repr

/-- An operand with its place and the time it was stored. -/
structure MortarEntry where
  op : MortarOp
  place : MortarPlace
  since : Nat
  /-- arrival order of operands held at an input -/
  order : Nat
  deriving DecidableEq, Repr

/-- A party that may wait (R294): a course, a sequencer, an unstarted team of a queue of a die. -/
inductive Waiter where
  | course (key : Nat)
  | seq (team : Nat)
  | queued (die queue : Nat)
  deriving DecidableEq, Repr

/-- A probe (R295): who sent it, the waiting parties it has passed, those it still has to reach. -/
structure Probe where
  origin : Waiter
  seen : List Waiter
  front : List Waiter
  deriving DecidableEq, Repr

/-- A die (16_die_memory, 17_die_launch, 18_mortar). -/
structure Die where
  kcore : Proc
  queues : SMap LQueue
  ptr : Vector Nat 8
  /-- full tile slots (R357) -/
  full : List Nat
  /-- number of the next launch (R350) -/
  nextLaunch : Nat
  faults : List FaultRec
  nextToken : Nat
  tlb : List TlbEntry
  /-- copies that its LLC holds of lines homed in other packages, with their poison (R325, R406) -/
  held : SMap (List Byte × Bool)
  monitors : Vector Monitor 8
  migrations : List Migration
  /-- allocated 64-tag blocks of the allocators this die's distributor keeps, by scope * 2^14 + block (R361) -/
  tagBlocks : List Nat
  /-- wait cycles reported, each member with where it stands (R295) -/
  waitReported : List (List (Waiter × Nat × Nat))
  /-- parties that hold wait edges: the edges by slot, row and object, where the party stands, and since when (R295) -/
  edgeSince : List (Waiter × List (Nat × Nat × Nat) × (Nat × Nat) × Nat)
  /-- launch packets pending (R383) -/
  pending : List (List Byte)
  /-- probes on their way (R295) -/
  probes : List Probe
  /-- THROT of the die (R403) -/
  throttle : Bool
  /-- the secure log: events counted and the latest address (R341) -/
  secCount : Nat
  secAddr : Nat
  /-- half tables of its routers (R365) -/
  halves : List HalfRec
  deriving DecidableEq, Repr

def Die.init : Die :=
  { kcore := Proc.init, queues := [], ptr := Vector.replicate 8 0, full := [], nextLaunch := 1, faults := [],
    nextToken := 1, tlb := [], held := [], monitors := Vector.replicate 8 Monitor.init, migrations := [], tagBlocks := [],
    waitReported := [], edgeSince := [], pending := [], probes := [], throttle := false,
    secCount := 0, secAddr := 0, halves := [] }

end Sys2Proof.Machine
end

