-- ==== Sys2Proof/Machine/StatePkg.lean ====
section
/-! DEFINITION. The state of a package: keystone, kicks, keys, snapshot engine, optics, wall packets
(16_die_memory R342, 20_package, 21_snapshot, 22_optical_ports, 23_wall_fabric). -/

namespace Sys2Proof.Machine

open Sys2Proof

/-- Port states, in the order of their STATE codes (R404). -/
inductive PortState where
  | dark | locking | trained | authenticating | live | quarantine | hold
  deriving DecidableEq, Repr

def PortState.code : PortState → Nat
  | .dark => 0 | .locking => 1 | .trained => 2 | .authenticating => 3 | .live => 4 | .quarantine => 5 | .hold => 6

/-- A port (R397-R404): state, LAST, live channels, flits resent, when it entered the state, whether its locking waits
for the microcontroller (R399), a release under way, unacknowledged flits as counts of their transactions (R400). -/
structure Port where
  state : PortState
  last : Nat
  live : Nat
  retry : Nat
  since : Nat
  awaitMc : Bool
  releasing : Bool
  /-- sequence numbers of sent and unacknowledged flits, with what each belongs to: the wall transaction of a package by its key,
  or a package's circuit chunk -/
  unacked : List (Nat × Nat × Nat)
  nextFlit : Nat
  deriving DecidableEq, Repr

def Port.init : Port :=
  { state := .dark, last := 0, live := 0, retry := 0, since := 0, awaitMc := false, releasing := false, unacked := [],
    nextFlit := 0 }

/-- An optical engine (R396-R404): UCIe link, microcontroller, watchdog resets, heater margins by channel (transmit and
receive, 50 unlisted). -/
structure Engine where
  ucUp : Bool
  mcRun : Bool
  wdog : Nat
  downSince : Nat
  margins : SMap (Nat × Nat)
  deriving DecidableEq, Repr

def Engine.init : Engine := { ucUp := false, mcRun := false, wdog := 0, downSince := 0, margins := [] }

/-- A kick being read or waiting (R382, R383): slot, sequence number, reads made, and the checked packet. -/
structure Kick where
  port : Nat
  slot : Nat
  seq : Nat
  reads : Nat
  checked : Option (List Byte)
  deriving DecidableEq, Repr

/-- The snapshot engine (R387-R395). -/
inductive SnapState where
  | idle | armed | draining | loading
  deriving DecidableEq, Repr

/-- A packet of the wall (R407, R408): type, destination, source, tag, header bits, address, key or count, prefix and
payload. A DET packet is on its way to its relay (R411); 16 there is an answer or a notice that still waits where it was formed,
for a route or for credits. -/
structure Packet where
  type : Nat
  dst : Nat
  src : Nat
  tag : Nat
  len : Nat
  det : Bool
  relay : Nat
  pri : Bool
  poi : Bool
  snap : Bool
  og : Nat
  step : Nat
  reserved : Nat
  addr : Nat
  key : Nat
  stamp : Nat
  scope : Nat
  /-- byte 9 of the prefix: the element type and the operation of an atomic -/
  atomOp : Nat
  core : Nat
  payload : List Byte
  mask : List Bool
  /-- lanes of an SC store or FLAGW still to be performed (R263, R158) -/
  lanes : List SbPart
  /-- a chunk of a circuit (R428): the receiving port, and one more than the chunk's number in State.circuitChunks, or 0 when its
  sender lies in another wall -/
  circuit : Option (Nat × Nat)
  /-- part of a full-line write (R345) -/
  whole : Bool
  /-- held by a snapshot engine that has let it go: it is performed before what arrives later (R392, R394) -/
  freed : Bool
  deriving DecidableEq, Repr

/-- The snapshot engine of a package (R387-R395). -/
structure Snap where
  state : SnapState
  pgen : Nat
  step : Nat
  target : Nat
  route : Nat
  dmask : Nat
  /-- dies of DMASK that have closed step S (R389) -/
  closed : List Nat
  mapBase : Nat
  shadow : Nat
  log : Nat
  shLen : Nat
  logLen : Nat
  cap : Nat
  ranges : List (Nat × Nat)
  statusPa : Nat
  held : List Packet
  shRecs : Nat
  logRecs : Nat
  /-- lines the drain has read, by map index, and those of them that are poisoned (R393) -/
  drained : SMap (List Byte)
  drainPoison : List Nat
  /-- shadow records of poisoned lines, by number (R345, R393) -/
  shPoison : List Nat
  deriving DecidableEq, Repr

def Snap.init : Snap :=
  { state := .idle, pgen := 1, step := 0, target := 0, route := 0, dmask := 0, closed := [], mapBase := 0, shadow := 0,
    log := 0, shLen := 0, logLen := 0, cap := 0, ranges := [], statusPa := 0, held := [], shRecs := 0, logRecs := 0,
    drained := [], drainPoison := [], shPoison := [] }

/-- A key id's state (R342): its world when valid, and its key material, by a number that the model gives each (log 21). -/
structure KeyState where
  valid : Bool
  secure : Bool
  mat : Nat
  deriving DecidableEq, Repr

/-- What a wall transaction serves: a write on a path, an item in flight, bytes of a copy from an offset of its
destination stream, a joint, a mortar operand, an invalidation of a line, a promotion. -/
inductive Serves where
  | write (path key : Nat) (owner : Agent) (scope : Nat)
  | flight (n : Nat)
  | copy (n off len : Nat)
  | joint (j : Nat)
  | mortar (m : Nat)
  | inval (line : Nat)
  | promote (n : Nat)
  deriving DecidableEq, Repr

/-- A wall transaction not yet answered (R415): the packet as sent, what it serves, the answer formed where it was
performed, its fate query: 0 none, 1 sent, 2 answered performed, 3 answered not performed; the time at which the packet, or
then the query, was sent. -/
structure WallTx where
  pkt : Packet
  serves : Serves
  reply : Option Packet
  query : Nat
  since : Nat
  deriving DecidableEq, Repr

/-- A circuit-live barrier (R421): state code and reason; its port and peer; the number of its last request (R425);
CCRED as read at CREQ and the credits of chunks not acknowledged (R422); its lending and receive window (R427); a release
under way: `abort` for CREL.ABORT, `closing` a failed barrier that waits for its port (R429). -/
structure CircuitBar where
  state : Nat
  reason : Nat
  port : Nat
  peerWall : Nat
  peerPkg : Nat
  peerPort : Nat
  seq : Nat
  credits : Nat
  used : Nat
  /-- borrower code of R427 -/
  borrower : Nat
  lent : Bool
  tid : Nat
  rxBase : Nat
  rxCtr : Nat
  rxLen : Nat
  rxKey : Nat
  abort : Bool
  closing : Bool
  deriving DecidableEq, Repr

def CircuitBar.init : CircuitBar :=
  { state := 0, reason := 0, port := 0, peerWall := 0, peerPkg := 0, peerPort := 0, seq := 0, credits := 0, used := 0,
    borrower := 0, lent := false, tid := 0, rxBase := 0, rxCtr := 0, rxLen := 0, rxKey := 0, abort := false,
    closing := false }

/-- A chunk of a CPYX that has been sent (R428): package, barrier and port, its copy, its packet, with ADDR the window
offset, the copy's bytes that it counts, whether the peer has taken it (it may be held, R392), and the peer's answer once given:
performed, or not. -/
structure CircuitChunk where
  pkg : Nat
  bar : Nat
  port : Nat
  copy : Nat
  pkt : Packet
  len : Nat
  taken : Bool
  reply : Option Bool
  deriving DecidableEq, Repr

/-- What leaves the wall for hosts, microcontrollers, switches, other walls and storage, recorded in order: a kind, a
source package and the values or bytes sent (R334 MSI-X, R394, R425, R433). -/
structure OutMsg where
  kind : Nat
  pkg : Nat
  info : List Nat
  bytes : List Byte
  deriving DecidableEq, Repr

/-- A stream of the Weazon plane (R433). As a sender: an open has been sent, and answered; the number of the next
message; how far it has sent; the last ACK and WIN received; the messages not acknowledged; when it last heard and last
sent, and on which port. As a receiver: the next number expected in `next`, frames held ahead in `out`. -/
structure Stream where
  opened : Bool
  answered : Bool
  next : Nat
  sent : Nat
  acked : Nat
  win : Nat
  out : List (Nat × List Byte)
  heard : Nat
  last : Nat
  port : Nat
  deriving DecidableEq, Repr

def Stream.init : Stream :=
  { opened := false, answered := false, next := 0, sent := 0, acked := 0, win := 0, out := [], heard := 0, last := 0, port := 0 }

/-- A write that a host port has received and not performed (R378): its address, key id and bytes. -/
structure HostWrite where
  port : Nat
  pa : Nat
  key : Nat
  bytes : List Byte
  deriving DecidableEq, Repr

/-- A package (20_package to 24_lintel_circuits). -/
structure Pkg where
  lintel : Proc
  /-- VAs of the script records waiting (R418) -/
  script : List Nat
  /-- the keystone's owner and the time its lease runs out (R379) -/
  keyOwner : Option Nat
  keyLease : Nat
  /-- HBM stacks throttled for heat (R386) -/
  hbmHot : List Nat
  /-- what each stack's sensor last showed, in °C (R376) -/
  hbmTemp : SMap Nat
  kicks : List Kick
  /-- writes of the host ports that wait, in the order received (R378) -/
  hostWrites : List HostWrite
  keys : SMap KeyState
  snap : Snap
  ports : SMap Port
  engines : SMap Engine
  txs : SMap WallTx
  /-- credits used toward each package (R413) -/
  credits : SMap Nat
  /-- credits per peer in force: CRED as it stood at the last package reset (R414) -/
  credTotal : Nat
  bars : SMap CircuitBar
  /-- endpoint queues: source (16 * wall + package) and message (R431) -/
  endpoints : SMap (List (Nat × List Byte))
  streams : SMap Stream
  /-- unclaimed counts by 16 * source + group, and withheld flags in order (R269) -/
  uCount : SMap Nat
  flags : List Packet
  ctxs : SMap Packet
  /-- accesses that no route can carry, by kind and number, and since when (R415) -/
  noRoute : List ((Nat × Nat) × Nat)
  /-- SC issue waits for a clock reset; this package has reported that none is outstanding (R416) -/
  scStop : Bool
  scReported : Bool
  time : Nat
  /-- correction not yet applied, and when the last was (R436) -/
  slew : Int
  slewAt : Nat
  /-- held in reset by a thermal trip (R319) -/
  held : Bool
  /-- in steps 1 to 4 of its bring-up, which the first heartbeat of a validated image ends (R385) -/
  booting : Bool
  deriving DecidableEq, Repr

/-- A package after reset; key id 0 is valid and non-secure (R342). -/
def Pkg.init : Pkg :=
  { lintel := Proc.init, script := [], keyOwner := none, keyLease := 0, hbmHot := [], hbmTemp := [], kicks := [], hostWrites := [], keys := [(0, ⟨true, false, 0⟩)], snap := Snap.init,
    ports := [], engines := [], txs := [], credits := [], credTotal := 2048, bars := [], endpoints := [], streams := [], uCount := [],
    flags := [], ctxs := [], noRoute := [], scStop := false, scReported := false, time := 0, slew := 0, slewAt := 0, held := false, booting := true }

/-- The keystone's owner now: a lease that has run out leaves none (R379). -/
def Pkg.owner (x : Pkg) : Option Nat :=
  match x.keyOwner with
  | some p => if x.time < x.keyLease then some p else none
  | none => none

end Sys2Proof.Machine
end

