-- ==== Sys2Proof/Machine/State.lean ====
section
/-! DEFINITION. The state of one wall as plain data, the stops, and the state after package reset. -/

namespace Sys2Proof.Machine

open Sys2Proof

/-- One turn of the machine: an agent issues its next word, both slots of a course issue in one cycle (R42), a step of
the table that is no word takes place, or every core, sequencer and processor lists its issues of one cycle (R183-R186). -/
inductive Turn where
  | issue (a : Agent)
  | pair (key : Nat)
  | occur (i : Instr)
  | cycle
  deriving DecidableEq, Repr

/-- A course as it stood when the cycle began in which both its slots issue, and the header slot's word: what the
stretcher slot's word sees of the other's effects (R113, R118, R124). -/
structure Before where
  key : Nat
  course : Course
  word : Word
  deriving DecidableEq, Repr

/-- The machine: sixteen packages of one wall, everything in flight between them, and what may come next. -/
structure State where
  /-- bytes at physical addresses (R323) -/
  mem : Memory
  /-- lines of HBM whose LLC line is dirty: the bytes and the key material that HBM itself still holds (R326, R342) -/
  dirty : SMap (List Byte × Nat)
  /-- directory entries by line number PA / 128 (R325) -/
  dir : SMap DirLine
  /-- device register words by word address (R374); a word not listed reads its reset value -/
  dev : SMap Word
  /-- teams by handle, courses by 16 * handle + CID -/
  teams : SMap Team
  courses : SMap Course
  /-- by wall core number; a processor's write path stands at 16384 + die and 20480 + package -/
  cores : SMap Core
  quads : SMap Quad
  dies : SMap Die
  pkgs : SMap Pkg
  /-- what is on its way, by issue stamp -/
  flights : SMap Flight
  copies : SMap Copy
  mortar : SMap MortarEntry
  joints : SMap Joint
  /-- scope and team barriers wider than a core (R315, R359, R437), by the key of Sync -/
  wideBars : SMap Barrier
  /-- packets of the wall in flight (R407), in the order sent, and what leaves for the outside -/
  packets : SMap Packet
  /-- circuit chunks sent and not acknowledged (R428), and frames of the Weazon plane on their way in this wall (R432) -/
  circuitChunks : SMap CircuitChunk
  frames : SMap (List Byte)
  outbox : List OutMsg
  /-- the floor E of each home slice by 48 * die + slice (R262) -/
  floors : SMap Nat
  /-- the pod's reference clock, in ns (R436) -/
  refTime : Nat
  /-- who comes next; the model's own (log 1) -/
  agenda : List Turn
  /-- the agent of the word being executed; the model's own -/
  cur : Agent
  /-- while the second slot of a pair issues, what it sees of the first's cycle; the model's own -/
  before : Option Before
  /-- issue stamps and free values drawn so far; the model's own (log 3, log 5) -/
  fresh : Nat
  deriving DecidableEq, Repr

/-- Why a run stops. -/
inductive Fault where
  /-- The agent named by `cur` does not exist: a course, team or processor that holds no program. Raised by every
  instruction word executed for such an agent; safe (no part of the machine executes such a word). -/
  | noSuchAgent
  deriving DecidableEq, Repr

/-- Why the model declines. -/
inductive Refusal where
  /-- An instruction of the table that has no meaning yet. Raised by the dispatch only; safe. -/
  | notModelled (mnemonic : String)
  deriving DecidableEq, Repr

/-- What a step answers. -/
abbrev Out := Host.Outcome State Fault Refusal

/-- The wall right after package reset (R384): nothing listed, so every register reads its reset value, every SRAM 0. -/
def State.reset : State :=
  { mem := [], dirty := [], dir := [], dev := [], teams := [], courses := [], cores := [], quads := [], dies := [], pkgs := [],
    flights := [], copies := [], mortar := [], joints := [], wideBars := [], packets := [], circuitChunks := [], frames := [], outbox := [],
    floors := [], refTime := 0, agenda := [], cur := .kcore 0, before := none, fresh := 0 }

end Sys2Proof.Machine
end

