-- ==== Sys2Proof/Machine/Device.lean ====
section
/-! DEFINITION. The device register space (20_package R374-R376, R380; tables of R280, R306, R309, R320, R333, R340,
R344, R347, R351, R369, R375, R395, R404, R414, R419): where each word lies, its reset value, which bits software
writes and which clear on a 1, and what a plain write stores. -/

namespace Sys2Proof.Machine

open Sys2Proof

/-- PA[47:0] of the register window (R323, R374). -/
def regLo : Nat := 0x00C000000000
def regTop : Nat := 0x00C100000000

/-- Whether a physical address is a device register's (R323). -/
def isDevice (pa : Nat) : Bool := let o := pa % 2 ^ 48; decide (regLo ≤ o) && decide (o < regTop)

/-- Whether a physical address lies in reserved space (R323). -/
def isReserved (pa : Nat) : Bool := let o := pa % 2 ^ 48; decide (regTop ≤ o) && decide (o < 0x800000000000)

/-- Whether a physical address lies in host memory, and behind which port (R323). -/
def isHost (pa : Nat) : Bool := decide (0x800000000000 ≤ pa % 2 ^ 48)
def isHbm (pa : Nat) : Bool := decide (pa % 2 ^ 48 < regLo)

/-- Block bases as offsets in the window (R374). -/
def distBase (d : Nat) : Nat := 0x01000000 * d
def memBase (d : Nat) : Nat := distBase d + 0x100000
def pwrBase (d : Nat) : Nat := distBase d + 0x200000
def quadBase (d q : Nat) : Nat := pwrBase d + 0x1000 + 0x80 * q
def pkgBase : Nat := 0x08000000
def portBase (p : Nat) : Nat := pkgBase + 0x1000 * (p + 1)
def optBase : Nat := pkgBase + 0x10000
def wallBase : Nat := pkgBase + 0x20000
def lintBase : Nat := pkgBase + 0x30000

/-- PA of a register word. -/
def regPa (pkg off : Nat) : Nat := pkg * 2 ^ 48 + regLo + off

/-- A register word: its reset value, and the masks of bits that software writes (RW), that a 1 clears (W1C), and that
only the power microcontroller writes. -/
structure RegInfo where
  reset : Nat
  rw : Nat
  w1c : Nat
  mc : Nat
  deriving DecidableEq, Repr

/-- A word no table lists, or read-only (R374). -/
def regRo (reset : Nat) : RegInfo := ⟨reset, 0, 0, 0⟩
def regRw (reset rw : Nat) : RegInfo := ⟨reset, rw, 0, 0⟩
def regW1c (reset rw w1c : Nat) : RegInfo := ⟨reset, rw, w1c, 0⟩

/-- Distributor block (R280, R347, R369, R375). -/
def distInfo (o : Nat) : RegInfo :=
  match o with
  | 0x000 => regW1c 0 0 0x1F
  | 0x004 => regRw 0 0xFFFFFF00
  | 0x008 => regRw 0 0x00FFFFFF
  | 0x00C => regRw 0 0xFFFFFFFC
  | 0x010 => regRw 0 0x00FFFFFF
  | 0x018 => regRw 0 0xFFFFFFF8
  | 0x01C => regRw 0 0x00FFFFFF
  | 0x020 => regRw 0 0xFFFFFF00
  | 0x024 => regRw 0 0x000FFFFF
  | 0x028 => regRw 0 0x0000FFFF
  | 0x100 => regRw (922 * 2 ^ 12 + 50) 0x003FFFFF
  | 0x104 => regRw (100 * 2 ^ 10 + 256) 0x000FFFFF
  | 0x300 => regRw 1000 0xFFFF
  | _ => regRo 0

/-- Memory block (R333, R340, R344). -/
def memInfo (o : Nat) : RegInfo :=
  if 0x1000 ≤ o ∧ o < 0x2000 then
    (match o % 16 with
     | 0 => regRw 0 0xFFFFFFFF
     | 4 => regRw 0 0xFFFFFFFF
     | 8 => regRw 0 3
     | _ => regRo 0)
  else match o with
  | 0x000 => regRw 0 0xFFFFF000
  | 0x004 => regRw 0 0x000FFFFF
  | 0x008 => regRw 7 0xF
  | 0x010 => regRw 0 0xFFFF
  | 0x014 => regW1c 2 0xFF1B 0x80000000
  | 0x110 => regRw 64 0xFFFF
  | _ => regRo 0

/-- Reset class weights of R302, eight to a word. -/
def weightReset (w : Nat) : Nat := if w = 0 then 0x22243221 else 0x021C1833

/-- Fused bounds of the class weights (R302). -/
def weightBounds (c : Nat) : Nat × Nat :=
  match c with
  | 0 => (1, 2) | 1 => (1, 4) | 2 => (1, 4) | 3 => (2, 4) | 4 => (2, 4) | 5 => (1, 3) | 6 => (1, 3) | 7 => (1, 4)
  | 8 => (2, 6) | 9 => (2, 6) | 10 => (4, 15) | 11 => (1, 2) | 12 => (8, 15) | 13 => (1, 2) | 14 => (2, 4)
  | _ => (0, 0)

/-- Power block: kiln and quads (R309); the die monitors of R320 stand in Die. -/
def pwrInfo (o : Nat) : RegInfo :=
  if 0x1000 ≤ o ∧ o < 0x1000 + 0x80 * 24 then
    (match o % 0x80 with
     | 0x00 => regRw 19000 0x1FFFF
     | 0x04 => regRo (650 * 2 ^ 10 + 650)
     | 0x0C => regRw (0x0040 * 2 ^ 16 + 0x0800) 0xFFFFFFFF
     | 0x10 => regRw (850 * 2 ^ 10 + 550) 0xFFFFF
     | 0x14 => regRw 650 0x3FF
     | 0x18 => regRw 128 0x1FF
     | 0x1C => ⟨19000, 0, 0, 0x1FFFF⟩
     | 0x20 | 0x24 | 0x28 | 0x2C => regRw 0x18181818 0xFFFFFFFF
     | 0x30 => regRw 24 0x1F
     | 0x34 => ⟨weightReset 0, 0, 0, 0xFFFFFFFF⟩
     | 0x38 => ⟨weightReset 1, 0, 0, 0xFFFFFFFF⟩
     | _ => regRo 0)
  else match o with
  | 0x00 => regRw 3 3
  | 0x04 => regW1c (2 ^ 29) 0 (2 ^ 30)
  | 0x08 => regRw 20 0xFFFF
  | 0x10 => regRw 12000 0x1FFFF
  | _ => regRo 0

/-- A host port's block (R380). -/
def portInfo (o : Nat) : RegInfo :=
  if 0x800 ≤ o then regRw 0 0xFFFFFFFF
  else match o with
  | 0x008 => regW1c 0 0 0x100
  | 0x014 => regRw 0 0x1FF
  | 0x018 => regRw 0 0xFFFF0FFF
  | _ => regRo 0

/-- Optics block (R404). -/
def optInfo (o : Nat) : RegInfo :=
  match o with
  | 0x000 => regRw (16 * 2 ^ 24 + 15 * 2 ^ 16 + 10 * 2 ^ 8) 0xFFFFFF00
  | 0x004 => regRw 10 0xFFFF
  | _ => regRo 0

/-- Wall block (R414). -/
def wallInfo (o : Nat) : RegInfo :=
  match o with
  | 0x000 => regRw 200 0xFFFF
  | 0x004 => regRw 2048 0xFFF
  | _ => if 0x100 ≤ o ∧ o < 0x180 ∧ o % 8 = 0 then regRo (2 * 2 ^ 30) else regRo 0

/-- Lintel block (R419). -/
def lintInfo (o : Nat) : RegInfo :=
  if 0x004 ≤ o ∧ o ≤ 0x01C ∧ o ≠ 0x014 then distInfo o
  else match o with
  | 0x020 => regRw 0 0xFFFFFF00
  | 0x024 => regRw 0 0x000FFFFF
  | 0x028 => regRw 0 0x0000FFFF
  | 0x040 => regRw 0 0xFFFFFFFF
  | 0x048 => regW1c 0 0 0x80000000
  | 0x050 => regRw 0 0x3FFFF
  | 0x054 => regRw 0 0x3FFF
  | 0x058 => regRw 1 0x7FFF
  | 0x05C => regRw 0xFFFF 0xFFFF
  | 0x060 => regRw 1024 0xFFF
  | _ => regRo 0

/-- Package block (R376). -/
def pkgInfo (o : Nat) : RegInfo :=
  match o with
  | 0x008 => regRw 5400 0x1FFF
  | 0x010 => regRw 0 0x1FF
  | 0x014 => regRo 1
  | _ => regRo 0

/-- Every word of the window by its offset (R374). -/
def regInfo (o : Nat) : RegInfo :=
  if o < 0x08000000 then
    let r := o % 0x01000000
    if r < 0x100000 then distInfo r
    else if r < 0x200000 then memInfo (r - 0x100000)
    else if r < 0x300000 then pwrInfo (r - 0x200000)
    else regRo 0
  else
    let r := o - 0x08000000
    if r < 0x1000 then pkgInfo r
    else if r < 0x2000 then portInfo (r - 0x1000)
    else if r < 0x3000 then portInfo (r - 0x2000)
    else if r < 0x10000 then regRo 0
    else if r < 0x20000 then optInfo (r - 0x10000)
    else if r < 0x30000 then wallInfo (r - 0x20000)
    else if r < 0x40000 then lintInfo (r - 0x30000)
    else regRo 0

/-- The stored value of a register word; unlisted words hold their reset value. -/
def State.reg (s : State) (pkg off : Nat) : Nat :=
  match SMap.find? s.dev (regPa pkg off) with
  | some w => w.toNat
  | none => (regInfo off).reset

/-- Hardware's own write of a register word. -/
def State.setReg (s : State) (pkg off v : Nat) : State :=
  { s with dev := SMap.setD s.dev (BitVec.ofNat 32 (regInfo off).reset) (regPa pkg off) (BitVec.ofNat 32 v) }

/-- Setting bits of a register word, as events do. -/
def State.orReg (s : State) (pkg off bits : Nat) : State := s.setReg pkg off (s.reg pkg off ||| bits)

/-- Counting up in a register word, saturating (R344, R369, R404, R414). -/
def State.countReg (s : State) (pkg off n : Nat) : State := s.setReg pkg off (min 0xFFFFFFFF (s.reg pkg off + n))

/-- A voltage field as stored: 550-850 mV, a multiple of 5 (R309). -/
def clampMv (v : Nat) : Nat := let x := max 550 (min 850 v); x - x % 5

/-- The floor of a point of a fused table (R300). -/
def fusedFloor (i : Nat) : Nat := if i < 5 then 950 else if i < 15 then 1650 else 2250

/-- Point i of a quad's fused table in MHz (R3, R300): non-decreasing, at or above the floors, else the part's own. -/
def fusedPoint (q : Nat) : Nat → Nat
  | 0 => max (fusedFloor 0) (Config.fusedMhz q 0).toNat
  | i + 1 => max (fusedPoint q i) (max (fusedFloor (i + 1)) (Config.fusedMhz q (i + 1)).toNat)

/-- Twenty times the frequency, in MHz, that a quad's fused table gives at a voltage (R300). -/
def freq20 (q v : Nat) : Nat :=
  let i := min 15 ((v - 550) / 20)
  let r := (v - 550) - 20 * i
  let f0 := fusedPoint q i
  let f1 := fusedPoint q (i + 1)
  if r = 0 ∨ 15 ≤ i then 20 * f0 else 20 * f0 + (f1 - f0) * r

/-- SAFE of a die (R318). -/
def State.safe (s : State) (pkg d : Nat) : Bool := (s.reg pkg (pwrBase d + 4)).testBit 29

/-- QCAP, VMAX and class weights in force (R318, R319): the firmware's values, bounded under SAFE and THERM. -/
def State.qcap (s : State) (pkg d q : Nat) : Nat :=
  if s.safe pkg d then 15000 else s.reg pkg (quadBase d q + 0x1C)
def State.vmax (s : State) (pkg d q : Nat) : Nat :=
  let v := bitsOf (s.reg pkg (quadBase d q + 0x10)) 19 10
  let v := if s.safe pkg d then min v 700 else v
  if (s.reg pkg (quadBase d q + 4)).testBit 29 then min v 600 else v
def State.weight (s : State) (pkg d q c : Nat) : Nat :=
  if s.safe pkg d then (weightBounds c).2
  else bitsOf (s.reg pkg (quadBase d q + 0x34 + 4 * (c / 8))) (4 * (c % 8) + 3) (4 * (c % 8))

/-- Each of four bytes of a word, mapped. -/
def mapBytes (f : Nat → Nat) (v : Nat) : Nat :=
  f (bitsOf v 7 0) + 2 ^ 8 * f (bitsOf v 15 8) + 2 ^ 16 * f (bitsOf v 23 16) + 2 ^ 24 * f (bitsOf v 31 24)

/-- Eight class weights of a word, each at its nearer fused bound (R302). -/
def clampWeights (w v : Nat) : Nat :=
  (List.range 8).foldl (fun a i =>
    let b := weightBounds (8 * w + i)
    a + 2 ^ (4 * i) * max b.1 (min b.2 (bitsOf v (4 * i + 3) (4 * i)))) 0

/-- The value a plain write stores after the clamps of each register's own text (R306, R309, R320, R333, R369, R376,
R404, R414, R419); `old` is the word before. -/
def State.clampReg (s : State) (pkg off old v : Nat) : Nat :=
  if off < 0x08000000 then
    let d := off / 0x01000000
    let r := off % 0x01000000
    if r = 0x300 then (if v = 0 then 1 else v)
    else if r = 0x100008 then max 7 v
    else if 0x201000 ≤ r ∧ r < 0x201000 + 0x80 * 24 then
      let q := (r - 0x201000) / 0x80
      match r % 0x80 with
      | 0x00 => min v (s.qcap pkg d q)
      | 0x10 =>
        let hi := clampMv (bitsOf v 19 10)
        let lo := clampMv (bitsOf v 9 0)
        if lo ≤ hi then hi * 2 ^ 10 + lo else old
      | 0x14 => clampMv v
      | 0x20 | 0x24 | 0x28 | 0x2C => mapBytes (min 24) v
      | 0x30 => max 12 (min 24 v)
      | 0x34 => clampWeights 0 v
      | 0x38 => clampWeights 1 v
      | _ => v
    else v
  else
    let r := off - 0x08000000
    if r = 0x008 then max 1000 (min 5400 v)
    else if r = 0x10000 then (if bitsOf v 23 16 < bitsOf v 15 8 then old else v)
    else if r = 0x10004 then (if v = 0 then 1 else v)
    else if r = 0x20000 then (if v = 0 then 1 else v)
    else if r = 0x30058 then (if v = 0 then 1 else v)
    else v

/-- A write to a register with no rule of its own beyond its table: RW bits, W1C bits and the clamps (R7, R374). -/
def State.plainRegWrite (s : State) (pkg off v : Nat) (mc : Bool) : State :=
  let i := regInfo off
  let old := s.reg pkg off
  let m := i.rw ||| (if mc then i.mc else 0)
  let kept := (old &&& (0xFFFFFFFF ^^^ m)) &&& (0xFFFFFFFF ^^^ (v &&& i.w1c))
  let new := kept ||| (v &&& m)
  if m = 0 ∧ i.w1c = 0 then s else s.setReg pkg off (s.clampReg pkg off old new)

end Sys2Proof.Machine
end

