-- ==== Sys2Proof/Machine/Ops.lean ====
section
/-! DEFINITION. The named operations over the state: finding agents and their registers, physical memory with page
migration and the snapshot's copy-on-write, translation, fault records, scratchpad bytes. -/

namespace Sys2Proof.Machine

open Sys2Proof

/-! ## Where things are -/

/-- A team by its handle, a course by its key. -/
def State.team? (s : State) (t : Nat) : Option Team := SMap.find? s.teams t
def State.course? (s : State) (k : Nat) : Option Course := SMap.find? s.courses k
def State.setTeam (s : State) (t : Nat) (x : Team) : State := { s with teams := SMap.put s.teams t x }
def State.setCourse (s : State) (k : Nat) (x : Course) : State := { s with courses := SMap.put s.courses k x }
def State.modTeam (s : State) (t : Nat) (f : Team → Team) : State := { s with teams := SMap.modify s.teams t f }
def State.modCourse (s : State) (k : Nat) (f : Course → Course) : State :=
  { s with courses := SMap.modify s.courses k f }

/-- A core, quad, die or package; an unlisted one is as after reset. -/
def State.core (s : State) (n : Nat) : Core := SMap.getD s.cores Core.init n
def State.quad (s : State) (n : Nat) : Quad := SMap.getD s.quads Quad.init n
def State.die (s : State) (n : Nat) : Die := SMap.getD s.dies Die.init n
def State.pkg (s : State) (n : Nat) : Pkg := SMap.getD s.pkgs Pkg.init n
def State.setCore (s : State) (n : Nat) (x : Core) : State := { s with cores := SMap.put s.cores n x }
def State.setQuad (s : State) (n : Nat) (x : Quad) : State := { s with quads := SMap.put s.quads n x }
def State.setDie (s : State) (n : Nat) (x : Die) : State := { s with dies := SMap.put s.dies n x }
def State.setPkg (s : State) (n : Nat) (x : Pkg) : State := { s with pkgs := SMap.put s.pkgs n x }
def State.modCore (s : State) (n : Nat) (f : Core → Core) : State := s.setCore n (f (s.core n))
def State.modQuad (s : State) (n : Nat) (f : Quad → Quad) : State := s.setQuad n (f (s.quad n))
def State.modDie (s : State) (n : Nat) (f : Die → Die) : State := s.setDie n (f (s.die n))
def State.modPkg (s : State) (n : Nat) (f : Pkg → Pkg) : State := s.setPkg n (f (s.pkg n))

/-- Wall numbers: core 768 * PKG + 96 * DIE + CORE (R260), die 8 * PKG + DIE, quad 24 * die + QUAD. -/
def dieOfCore (core : Nat) : Nat := core / 96
def quadOfCore (core : Nat) : Nat := core / 4
def pkgOfCore (core : Nat) : Nat := core / 768

/-- The write path of an agent (R255): its core's, or a processor's own. -/
def kcorePath (die : Nat) : Nat := 16384 + die
def lintelPath (pkg : Nat) : Nat := 20480 + pkg
def State.pathOf (s : State) (a : Agent) : Nat :=
  match a with
  | .course k _ => (match s.team? (k / 16) with | some t => t.core | none => 0)
  | .seq t => (match s.team? t with | some t => t.core | none => 0)
  | .kcore d => kcorePath d
  | .lintel p => lintelPath p

/-- The package an agent belongs to. -/
def State.pkgOf (s : State) (a : Agent) : Nat :=
  match a with
  | .course .. | .seq _ => pkgOfCore (s.pathOf a)
  | .kcore d => d / 8
  | .lintel p => p

/-- The key of a course, and a fresh issue stamp. -/
def courseKey (team cid : Nat) : Nat := 16 * team + cid
def State.tick (s : State) : State := { s with fresh := s.fresh + 1 }

/-- A free value (log 3): the current draw; the step that uses it advances `fresh`. -/
def State.draw (s : State) (i : Nat) : DWord := Config.freeValue (s.fresh + i)

/-- Putting something in flight, under a stamp of its own. -/
def State.send (s : State) (f : Flight) : State :=
  { s with flights := SMap.put s.flights s.fresh f, fresh := s.fresh + 1 }
def Flight.origin (x : Flight) (n : Nat) : Nat :=
  match x with
  | .value y => y.origin
  | .ack _ _ _ o => o
  | _ => n
/-- The record that takes a reply to an access of a stamp (R291, R292): an earlier residency's until it is imported, else
the present one's, if any. -/
def Course.recordOf (c : Course) (o : Nat) : Option Bound :=
  match c.earlier.find? fun b => decide (o < b.upTo) with
  | some b => some b
  | none => c.bound
def State.flight? (s : State) (n : Nat) : Option Flight := SMap.find? s.flights n
def State.drop (s : State) (n : Nat) : State := { s with flights := SMap.del s.flights n }
def State.setFlight (s : State) (n : Nat) (f : Flight) : State := { s with flights := SMap.put s.flights n f }

/-- The courses of a team, and the teams of a core, in key order. -/
def State.coursesOf (s : State) (t : Nat) : List (Nat × Course) := s.courses.filter fun kc => kc.1 / 16 = t
def State.teamsOn (s : State) (core : Nat) : List (Nat × Team) :=
  s.teams.filter fun kt => decide (kt.2.core = core) && (decide (kt.2.residency = .resident) || decide (kt.2.residency = .saving))

/-! ## Physical memory -/

/-- The line of a physical address. -/
def lineOf (pa : Nat) : Nat := pa / 128

/-- The die, in the wall, of a line's home slice (R324). -/
def homeDie (pa : Nat) : Nat :=
  let p := pa / 2 ^ 48
  if isHbm pa then 8 * p + (bitsOf pa 15 12 ^^^ bitsOf pa 19 16 ^^^ bitsOf pa 23 20) / 2
  else if isDevice pa then 8 * p + min 7 ((pa % 2 ^ 48 - regLo) / 0x01000000)
  else if bitsOf pa 46 46 = 0 then 8 * p else 8 * p + 7

/-- The slice of a line (R324). -/
def homeSlice (pa : Nat) : Nat := (bitsOf pa 22 7 ^^^ bitsOf pa 38 23 ^^^ bitsOf pa 47 39) % 48

/-- Where an address is performed while its frame moves: a line already copied is at the new frame (R337). -/
def forwardIn (ms : List Migration) (pa : Nat) : Nat :=
  match ms with
  | [] => pa
  | m :: ms =>
    if m.old ≤ pa ∧ pa < m.old + 128 * m.moved ∧ pa < m.old + m.size then m.new + (pa - m.old) else forwardIn ms pa
def State.forward (s : State) (pa : Nat) : Nat :=
  s.dies.foldl (fun a kd => forwardIn kd.2.migrations a) pa

/-- The byte a physical address holds at its home (R323). -/
def State.byteAt (s : State) (pa : Nat) : Byte := s.mem.byte (s.forward pa)
def State.bytesAt (s : State) (pa n : Nat) : List Byte := (List.range n).map fun i => s.byteAt (pa + i)
def State.natAt (s : State) (pa n : Nat) : Nat := ofBytes (s.bytesAt pa n)

/-- The directory entry of the line of an address (R325). -/
def State.line (s : State) (pa : Nat) : DirLine := SMap.getD s.dir DirLine.init (lineOf (s.forward pa))
def State.setLine (s : State) (pa : Nat) (l : DirLine) : State :=
  { s with dir := SMap.setD s.dir DirLine.init (lineOf (s.forward pa)) l }
def State.poisoned (s : State) (pa : Nat) : Bool := (s.line pa).poi

/-! ## Keys (R342, R343) -/

/-- Key material by its number: what KEYLD loaded is its own number, twice over and even; the rest is the hardware's (log 21). -/
def keyMaterial (pkg m : Nat) : Nat := if m ≠ 0 ∧ m % 2 = 0 then (m - 2) / 2 % 2 ^ 512 else (Config.randomKey pkg m).toNat

/-- The key material that a key id names for a line; an id that has become invalid leaves the line as it is. -/
def State.keyMat (s : State) (pa key : Nat) : Nat :=
  match SMap.find? (s.pkg (s.forward pa / 2 ^ 48)).keys key with
  | some k => k.mat
  | none => (s.line pa).mat

/-- The bytes of the line of an address under a material: as they are under the one they were written with, else encrypted
with that and decrypted with this one (R342, R343). -/
def State.lineUnder (s : State) (pa mat : Nat) : List Byte :=
  let bs := s.bytesAt (128 * lineOf pa) 128
  let l := s.line pa
  if l.mat = mat then bs
  else
    let at' := s.forward pa
    underKey (keyMaterial (at' / 2 ^ 48) l.mat) (keyMaterial (at' / 2 ^ 48) mat) (lineOf at') bs

/-- A byte at its home as an access under a key id reads it: another than was written, once the key material has changed
(R343). Host memory has no key. -/
def State.byteUnder (s : State) (pa key : Nat) : Byte :=
  if !isHbm pa || decide ((s.line pa).mat = s.keyMat pa key) then s.byteAt pa
  else ((s.lineUnder pa (s.keyMat pa key))[pa % 128]?).getD 0#8
def State.bytesUnder (s : State) (pa n key : Nat) : List Byte := (List.range n).map fun i => s.byteUnder (pa + i) key
def State.natUnder (s : State) (pa n key : Nat) : Nat := ofBytes (s.bytesUnder pa n key)

/-- Bytes that a walker or an engine reads, which names no key: under the key id that the line carries (DEDUCED, log 21). -/
def State.ownByte (s : State) (pa : Nat) : Byte := s.byteUnder pa (s.line pa).key
def State.ownBytesAt (s : State) (pa n : Nat) : List Byte := (List.range n).map fun i => s.ownByte (pa + i)
def State.ownNat (s : State) (pa n : Nat) : Nat := ofBytes (s.ownBytesAt pa n)

/-! ## Lines in the LLC (R325, R326) -/

/-- Whether a line has no copy in another package, so that a write may be performed (R325). -/
def State.unshared (s : State) (pa : Nat) : Bool := decide ((s.line pa).psh = 0#16)

/-- The line of an address is about to change in its LLC slice: HBM keeps what it held, or, when the line has been replaced
since it became dirty, what it holds now (R326; log 31). -/
def State.touch (s : State) (pa : Nat) : State :=
  let n := lineOf (s.forward pa)
  if !isHbm pa || ((SMap.find? s.dirty n).isSome && Config.lineStays s.fresh n) then s
  else { s with dirty := SMap.put s.dirty n (s.bytesAt (128 * lineOf pa) 128, (s.line pa).mat) }

/-- A dirty line is written back to HBM (R160, R326, R343). -/
def State.writeBack (s : State) (pa : Nat) : State := { s with dirty := SMap.del s.dirty (lineOf (s.forward pa)) }

/-- The copies of a line that the LLCs of other packages hold are gone (R325). -/
def State.dropHeld (s : State) (pa : Nat) : State :=
  let n := lineOf (s.forward pa)
  { s with dies := SMap.mapVals s.dies fun d => { d with held := SMap.del d.held n } }

/-- The line that a write changes takes the write's key (R342): its bytes are from now on what they read as under it. -/
def State.tagLine (s : State) (pa key : Nat) : State :=
  let l := s.line pa
  let b := 128 * lineOf pa
  if !isHbm pa then s
  else if l.mat = s.keyMat pa key then s.setLine pa { l with key := key }
  else
    let bs := s.lineUnder pa (s.keyMat pa key)
    let s := s.touch pa
    ({ s with mem := s.mem.setBytes (s.forward b) bs }).setLine pa { l with key := key, mat := s.keyMat pa key }

/-- Storing the valid bytes of a write. -/
def Memory.setMasked (m : Memory) (a : Nat) : List (Option Byte) → Memory
  | [] => m
  | none :: bs => Memory.setMasked m (a + 1) bs
  | some b :: bs => Memory.setMasked (m.setByte a b) (a + 1) bs

/-- Bytes of one line stored at its home, whatever copies there are (R325): the line is dirty, those copies are gone, and a
full-line write clears poison (R345). -/
def State.rawWrite (s : State) (pa : Nat) (bytes : List (Option Byte)) : State :=
  let s := s.touch pa
  let s := if (s.line pa).psh = 0#16 then s else s.dropHeld pa
  let l := s.line pa
  let full := decide (bytes.length = 128) && bytes.all Option.isSome
  ({ s with mem := s.mem.setMasked (s.forward pa) bytes }).setLine pa
    { l with dsh := 0#8, psh := 0#16, poi := l.poi && !full }

/-- Bytes that an engine stores, which names no key: line by line, each under the key id that it carries (log 21). -/
def State.engineWrite (s : State) (pa : Nat) (bytes : List Byte) : State :=
  (List.range ((pa % 128 + bytes.length + 127) / 128)).foldl (fun s i =>
    let a := if i = 0 then pa else 128 * (lineOf pa + i)
    (s.tagLine a (s.line a).key).rawWrite a (((bytes.drop (a - pa)).take (128 - a % 128)).map some)) s

/-- Whether an address lies in one of the snapshot's ranges, and the map byte of its line (R388). -/
def mapIndex : List (Nat × Nat) → Nat → Option Nat
  | [], _ => none
  | (b, n) :: rs, pa =>
    if b ≤ pa ∧ pa < b + n then some ((pa - b) / 128) else (mapIndex rs pa).map (· + n / 128)

/-- One record appended to the shadow or log region (R391): type, line, mask, data. -/
def recordBytes (pa type : Nat) (mask : List Bool) (data : List Byte) : List Byte :=
  bytesOf 8 pa ++ bytesOf 8 type ++
    bytesOf 16 ((mask.zipIdx.filter fun b => b.1).foldl (fun a b => a + 2 ^ b.2) 0) ++ data

/-- A packet put at the end of those in flight. -/
def requeue (ps : SMap Packet) (k : Packet) : SMap Packet :=
  SMap.put ps (ps.foldl (fun a x => max a (x.1 + 1)) 0) k

/-- The engine writes STATUS (R394): a release at .pkg, for which no core has writes to perform (R260, R332). -/
def State.snapStatus (s : State) (p v : Nat) : State :=
  let a := (s.pkg p).snap.statusPa
  let s := s.engineWrite a (bytesOf 4 v)
  s.setLine a { s.line a with relValid := false }

/-- A failed snapshot: copy-on-write, logging and drain stop, STATUS gets the reason (R394). Only an armed engine holds
packets; what ends it performs them. -/
def State.snapFail (s : State) (p reason : Nat) : State :=
  (s.snapStatus p (reason * 256 + 3)).modPkg p fun k => { k with snap := { k.snap with state := .idle } }

/-- A protected write first saves its line, poison and all (R390, R345): `mark` is the SGEN of a leaf with SNAP set, and the
address the one that the leaf gave, which lies in a range wherever its line has moved to. -/
def State.shadowLine (s : State) (pa : Nat) (mark : Option Nat) : State :=
  let p := pa / 2 ^ 48
  let sn := (s.pkg p).snap
  match mark, mapIndex sn.ranges pa with
  | some g, some i =>
    if sn.state ≠ .draining ∨ g = sn.pgen then s
    else if s.poisoned (sn.mapBase + i) then s.snapFail p 4
    else if (s.ownByte (sn.mapBase + i)).toNat = sn.pgen then s
    else if sn.shLen < 160 * (sn.shRecs + 1) then s.snapFail p 1
    else
      let l := 128 * lineOf pa
      let rec' := recordBytes l 1 (List.replicate 128 true) (s.ownBytesAt l 128)
      ((s.engineWrite (sn.shadow + 160 * sn.shRecs) rec').engineWrite (sn.mapBase + i) [BitVec.ofNat 8 sn.pgen]).modPkg p fun k => { k with snap := { k.snap with
        shRecs := sn.shRecs + 1
        shPoison := if s.poisoned l then k.snap.shPoison ++ [sn.shRecs] else k.snap.shPoison } }
  | _, _ => s

/-- A write performed at its home (R255, R325): the line is saved first when protected. The bytes lie in one line. -/
def State.homeWrite (s : State) (pa : Nat) (bytes : List (Option Byte)) (mark : Option Nat) : State :=
  (s.shadowLine pa mark).rawWrite pa bytes

/-- A part of a full-line write has been performed (R345): a line all of whose 32-byte chunks such parts have overwritten
since its error is poisoned no more; a part that is itself poisoned poisons the line. -/
def State.wholePart (s : State) (pa n : Nat) (poison : Bool) : State :=
  let l := s.line pa
  if poison then s.setLine pa { l with poi := true, whole := 0 }
  else if !l.poi then s
  else
    let o := pa % 128
    let w := (List.range 4).foldl (fun w i => if o ≤ 32 * i ∧ 32 * i + 32 ≤ o + n then w ||| 2 ^ i else w) l.whole
    s.setLine pa (if w = 15 then { l with poi := false, whole := 0 } else { l with whole := w })

/-- A value written at its home. -/
def State.homeWriteNat (s : State) (pa n v : Nat) (mark : Option Nat) : State :=
  s.homeWrite pa ((bytesOf n v).map some) mark

/-! ## Writes under a key (R342) -/

/-- What a write's line needs before the write: saved as it is when it is protected, then under the write's key. -/
def State.keyLine (s : State) (pa key : Nat) (mark : Option Nat) : State := (s.shadowLine pa mark).tagLine pa key

/-- A write at its home through a leaf of a key. -/
def State.homeWriteKey (s : State) (pa : Nat) (bytes : List (Option Byte)) (mark : Option Nat) (key : Nat) : State :=
  (s.keyLine pa key mark).homeWrite pa bytes mark

/-! ## Translation -/

/-- Access kinds, in the coding of R166; prefetches and CCTL.INV1 never fault. -/
inductive AccKind where
  | load | store | atomic | fetch
  deriving DecidableEq, Repr

def AccKind.code : AccKind → Nat
  | .load => 0 | .store => 1 | .atomic => 2 | .fetch => 3

/-- What a translation answers: an address and its leaf entry, a recoverable miss, or a cause with its TINFO. -/
inductive TRes where
  | ok (pa leaf : Nat)
  | miss
  | bad (c : Cause) (tinfo : Nat)
  deriving DecidableEq, Repr

/-- A level of the walk (R327): index field, bits of a page a leaf there maps, alignment of the table below. -/
structure WalkLevel where
  hi : Nat
  lo : Nat
  leafOk : Bool
  tableOk : Bool
  nextAlign : Nat
  deriving DecidableEq, Repr

def walkLevels : List WalkLevel :=
  [⟨55, 39, false, true, 4096⟩, ⟨38, 30, true, true, 4096⟩, ⟨29, 21, true, true, 256⟩, ⟨20, 16, true, false, 1⟩]

/-- Whether a table or frame may lie there (R329). -/
def memOk (pa : Nat) : Bool := !isReserved pa

/-- Where translations are held (R330): a core's TLB, its quad's, its die's; the walker caches' entries stand in the last. -/
inductive TlbPlace where
  | core (n : Nat)
  | quad (n : Nat)
  | die (n : Nat)
  deriving DecidableEq, Repr

/-- The places a look-up goes through, nearest first (R330); a processor's goes to its die's TLB (DESIGN CHOICE, log 9). -/
def Xlat.places (x : Xlat) : List TlbPlace :=
  match x.core with
  | some c => [.core c, .quad (quadOfCore c), .die x.die]
  | none => [.die x.die]

def TlbPlace.size : TlbPlace → Nat
  | .core _ => 64
  | .quad _ => 1024
  | .die _ => 32768
def TlbPlace.rank : TlbPlace → Nat
  | .core _ => 1
  | .quad _ => 2
  | .die _ => 3
def State.tlbAt (s : State) : TlbPlace → List TlbEntry
  | .core n => (s.core n).tlb
  | .quad n => (s.quad n).tlb
  | .die n => (s.die n).tlb
def State.setTlb (s : State) (p : TlbPlace) (es : List TlbEntry) : State :=
  match p with
  | .core n => s.modCore n fun c => { c with tlb := es }
  | .quad n => s.modQuad n fun q => { q with tlb := es }
  | .die n => s.modDie n fun d => { d with tlb := es }

/-- Whether an entry serves an address of a translation. -/
def TlbEntry.covers (e : TlbEntry) (x : Xlat) (va : Nat) : Bool :=
  decide (e.root = x.root) && decide (e.asid = x.asid) && decide (e.va = va / 2 ^ e.size)

/-- Whether a place has dropped its entry by now (R330: at any time; log 9). -/
def State.tlbDropped (s : State) (p : TlbPlace) (e : TlbEntry) (va : Nat) : Bool :=
  !Config.tlbKeeps (s.fresh + va / 65536 + 2 ^ 64 * (if e.table then 4 + e.size else p.rank))

/-- The leaf that the first place to hold one has for an address (R330). -/
def State.tlbSearch (s : State) (x : Xlat) (va : Nat) : List TlbPlace → Option TlbEntry
  | [] => none
  | p :: ps =>
    match (s.tlbAt p).find? fun e => !e.table && e.covers x va with
    | some e => if s.tlbDropped p e va then s.tlbSearch x va ps else some e
    | none => s.tlbSearch x va ps

/-- A held entry of a level that names the next table for an address (R330; log 28). -/
def State.tableHit (s : State) (x : Xlat) (lo va : Nat) : Option TlbEntry :=
  match (s.die x.die).tlb.find? fun e => e.table && decide (e.size = lo) && e.covers x va with
  | some e => if s.tlbDropped (.die x.die) e va then none else some e
  | none => none

/-- What a walk finds at a level: a held entry, or the one in memory with whether it is poisoned (R329, R330). -/
def State.entryAt (s : State) (x : Xlat) (l : WalkLevel) (table va : Nat) : Nat × Bool :=
  match s.tableHit x l.lo va with
  | some e => (e.leaf, false)
  | none => (s.ownNat (table + 8 * bitsOf va l.hi l.lo) 8, s.poisoned (table + 8 * bitsOf va l.hi l.lo))

/-- The walk of R327-R329 up to the leaf: the leaf and its page's bits, or what ended it. -/
def State.walk (s : State) (x : Xlat) (canMiss : Bool) (k : Nat) : List WalkLevel → Nat → Nat → (TRes ⊕ (Nat × Nat))
  | [], _, _ => .inl (.bad .pageFault k)
  | l :: ls, table, va =>
      let (e, poison) := s.entryAt x l table va
      if !e.testBit 0 then .inl (if e.testBit 1 && canMiss then .miss else .bad .pageFault k)
      else if e.testBit 1 then
        if !l.leafOk || e.testBit 7 || decide (bitsOf e 63 28 * 2 ^ 16 % 2 ^ l.lo ≠ 0) ||
            !memOk (bitsOf e 63 28 * 2 ^ 16) then .inl (.bad .pageFault k)
        else if poison then .inl (.bad .softErr k)
        else .inr (e, l.lo)
      else if !l.tableOk || decide (bitsOf e 63 52 ≠ 0) || decide (bitsOf e 7 2 ≠ 0) ||
          decide (bitsOf e 51 8 * 256 % l.nextAlign ≠ 0) || !memOk (bitsOf e 51 8 * 256) then .inl (.bad .pageFault k)
      else if poison then .inl (.bad .softErr k)
      else s.walk x canMiss k ls (bitsOf e 51 8 * 256) va

/-- The entries that a walk to a leaf reads on its way: each with the size of what it covers, and whether it names a table. -/
def State.walked (s : State) (x : Xlat) : List WalkLevel → Nat → Nat → List (Nat × Nat × Bool)
  | [], _, _ => []
  | l :: ls, table, va =>
    let e := (s.entryAt x l table va).1
    if e.testBit 1 then [(e, l.lo, false)] else (e, l.lo, true) :: s.walked x ls (bitsOf e 51 8 * 256) va

/-- The lowest-numbered enabled entry of a die's region table that covers an address's frame: its number and its SEC (R340). -/
def State.regionOf (s : State) (die pa : Nat) : Option (Nat × Bool) :=
  let frame := bitsOf pa 47 16
  let base := memBase (die % 8) + 0x1000
  let lo := regPa (die / 8) base
  (List.find? (α := Nat × Word) (fun kw => decide (lo ≤ kw.1) && decide (kw.1 < lo + 4096) && decide ((kw.1 - lo) % 16 = 8) &&
      kw.2.getLsbD 0 && decide (s.reg (die / 8) (base + (kw.1 - lo) - 8) ≤ frame) &&
      decide (frame ≤ s.reg (die / 8) (base + (kw.1 - lo) - 4))) s.dev).map fun kw => ((kw.1 - lo) / 16, kw.2.getLsbD 1)

/-- The entry that decides a frame, when it makes the frame secure (R340): the lowest-numbered of those of its home package,
the lowest die's first among equals (log 11). -/
def State.secureFrame (s : State) (pa : Nat) : Option Nat :=
  match (List.range 8).foldl (fun (best : Option (Nat × Bool)) d =>
      match best, s.regionOf (8 * (pa / 2 ^ 48) + d) pa with
      | some b, some r => some (if r.1 < b.1 then r else b)
      | none, r => r
      | b, none => b) none with
  | some (n, sec) => if sec then some n else none
  | none => none

/-- World and key checks (R340-R342): the TINFO of SECVIOL, or none. -/
def State.worldCheck (s : State) (secureAgent : Bool) (pa leaf k : Nat) : Option Nat :=
  let secLeaf := leaf.testBit 6
  let secure := secLeaf && secureAgent
  if secLeaf && !secureAgent then some (8 + k)
  else match (if secure then none else s.secureFrame pa) with
  | some n => some (n * 256 + k)
  | none =>
    if isHost pa then none
    else match SMap.find? (s.pkg (pa / 2 ^ 48)).keys (bitsOf leaf 27 16) with
      | some ks => if ks.valid && (!ks.secure || secure) then none else some (16 + k)
      | none => some (16 + k)

/-- Permissions of a leaf (R329). -/
def permits (k : AccKind) (leaf : Nat) : Bool :=
  match k with
  | .load => leaf.testBit 2
  | .store => leaf.testBit 3
  | .atomic => leaf.testBit 2 && leaf.testBit 3
  | .fetch => leaf.testBit 4

/-- Whether a die's fault queue is enabled (R333). -/
def State.faultQueueOn (s : State) (die : Nat) : Bool := (s.reg (die / 8) (memBase (die % 8) + 0x14)).testBit 0

/-- Registers that only secure agents may access: a die's region table and secure log (R340, R341). -/
def secureOnly (pa : Nat) : Bool :=
  let o := pa % 2 ^ 48 - regLo
  isDevice pa && decide (o < 0x08000000) && decide (0x101000 ≤ o % 0x01000000) && decide (o % 0x01000000 < 0x103000)

/-- A leaf found: the checks that follow it (R329). -/
def State.leafChecks (s : State) (x : Xlat) (va : Nat) (k : AccKind) (leaf size : Nat) : TRes :=
  let pa := bitsOf leaf 63 28 * 2 ^ 16 + va % 2 ^ size
  match s.worldCheck x.secure pa leaf k.code with
  | some ti => .bad .secViol ti
  | none =>
    if secureOnly pa && !x.secure then .bad .secViol k.code
    else if !permits k leaf then .bad .access k.code
    else if isDevice pa && decide (k = .atomic) then .bad .access 2
    else .ok pa leaf

/-- A TLB entry that covers an address and is still held (R330). -/
def State.tlbHit (s : State) (x : Xlat) (va : Nat) : Option TlbEntry := s.tlbSearch x va x.places

/-- Translation of one address (R145, R327-R330). `park` says whether the agent may meet a recoverable miss. -/
def State.translate (s : State) (x : Xlat) (va : Nat) (k : AccKind) (park : Bool) : TRes :=
  if 2 ^ 56 ≤ va then .bad .access (4 + k.code)
  else match s.tlbHit x va with
  | some e => s.leafChecks x va k e.leaf e.size
  | none =>
    match s.walk x (park && s.faultQueueOn x.die) k.code walkLevels x.root va with
    | .inl r => r
    | .inr (leaf, size) => s.leafChecks x va k leaf size

/-- The entries a place holds once an address has been translated: those it had dropped are gone, the new ones join them, and
one of a full TLB's gives way for each that finds no room (log 9). Walker-cache entries take no room of a TLB's. -/
def tlbFit (size v : Nat) (es : List TlbEntry) : List TlbEntry :=
  let leaves := es.filter fun e => !e.table
  if size < leaves.length then (match leaves[Config.tlbVictim v % size]? with | some e => es.erase e | none => es) else es
def State.tlbKept (s : State) (x : Xlat) (va : Nat) (p : TlbPlace) (es : List TlbEntry) : List TlbEntry :=
  let held := (s.tlbAt p).filter fun e => !(e.covers x va && s.tlbDropped p e va)
  es.foldl (fun held e => if held.contains e then held else tlbFit p.size (s.fresh + p.rank) (held ++ [e])) held

/-- Keeping the translation of an address, and the entries that led to it, in the TLBs of its agent and the walker cache
(R330): a leaf that one of them holds, else what the walk has read. -/
def State.noteTlb (s : State) (x : Xlat) (va : Nat) : State :=
  let entries : List TlbEntry := match s.tlbHit x va with
    | some e => [e]
    | none => (match s.walk x false 0 walkLevels x.root va with
      | .inl _ => []
      | .inr _ => (s.walked x walkLevels x.root va).map fun y : Nat × Nat × Bool =>
          { root := x.root, asid := x.asid, va := va / 2 ^ y.2.1, size := y.2.1, leaf := y.1, table := y.2.2 })
  x.places.foldl (fun s' p => s'.setTlb p (s.tlbKept x va p (entries.filter fun e => match p with
    | .die _ => true
    | .core _ | .quad _ => !e.table))) s

/-- The key id of a leaf (R328). -/
def leafKey (leaf : Nat) : Nat := bitsOf leaf 27 16

/-- The snapshot mark a leaf gives a write (R328, R390). -/
def snapMark (leaf : Nat) : Option Nat := if leaf.testBit 5 then some (bitsOf leaf 15 8) else none

/-- The translation of a team, of a control core, of a Lintel (R327, R375, R419). -/
def Team.xlat (t : Team) : Xlat :=
  { root := t.launch.root, asid := t.launch.asid, secure := t.launch.secure, die := dieOfCore t.core, core := some t.core }
def State.procXlat (s : State) (pkg base die : Nat) : Xlat :=
  { root := s.reg pkg (base + 0x20) + 2 ^ 32 * s.reg pkg (base + 0x24), asid := s.reg pkg (base + 0x28),
    secure := Config.secMode pkg, die := die, core := none }
def State.kcoreXlat (s : State) (d : Nat) : Xlat := s.procXlat (d / 8) (distBase (d % 8)) d
def State.lintelXlat (s : State) (p : Nat) : Xlat := s.procXlat p lintBase (8 * p)
def State.xlatOf (s : State) (a : Agent) : Option Xlat :=
  match a with
  | .course k _ => (s.team? (k / 16)).map Team.xlat
  | .seq t => (s.team? t).map Team.xlat
  | .kcore d => some (s.kcoreXlat d)
  | .lintel p => some (s.lintelXlat p)

/-! ## Fault records -/

/-- A record put in its agent's hands until the ring has room (R334). -/
def State.postFault (s : State) (die : Nat) (r : FaultRec) : State :=
  s.modDie die fun d => { d with faults := d.faults ++ [r] }

/-- TID (R354): die, launch number and team index. -/
def Team.tid (t : Team) : DWord :=
  BitVec.ofNat 64 (t.launch.die % 8 * 2 ^ 61 + t.launch.number % 2 ^ 45 * 2 ^ 16 + t.index)

/-- A record of a team's agent. `slot` is 0 header, 1 stretcher, 2 sequencer, 3 copy engine. -/
def teamRec (t : Team) (type cid slot kind addr token info : Nat) : FaultRec :=
  { type := type, asid := t.launch.asid, core := t.core % 96, cidSlot := cid + 16 * slot, kind := kind, addr := addr,
    tid := t.tid.toNat, token := token, info := info, members := [] }

/-- A new token of a die (R334: nonzero). -/
def State.newToken (s : State) (die : Nat) : Nat × State :=
  let d := s.die die
  (d.nextToken, s.setDie die { d with nextToken := if d.nextToken + 1 = 2 ^ 32 then 1 else d.nextToken + 1 })

/-! ## Scratchpad bytes -/

/-- Bytes of a team's scratchpad; unlisted bytes are 0 (R172). -/
def Team.spSize (t : Team) : Nat := 16384 * t.sp
def Team.spByte (t : Team) (o : Nat) : Byte := SMap.getD t.scratch 0#8 o
def Team.spBytes (t : Team) (o n : Nat) : List Byte := (List.range n).map fun i => t.spByte (o + i)
def Team.spWrite (t : Team) (o : Nat) : List Byte → Team
  | [] => t
  | b :: bs => Team.spWrite { t with scratch := SMap.setD t.scratch 0#8 o b,
                                     spPoison := SMap.del t.spPoison (o / 4) } (o + 1) bs
def Team.spPoisoned (t : Team) (o n : Nat) : Bool :=
  (List.range ((o + n - 1) / 4 - o / 4 + 1)).any fun i => (SMap.find? t.spPoison (o / 4 + i)).isSome

/-! ## Agents -/

/-- A processor, and where its registers of R347 and R419 lie: package and block base. -/
def State.proc? (s : State) (a : Agent) : Option Proc :=
  match a with
  | .kcore d => some (s.die d).kcore
  | .lintel p => some (s.pkg p).lintel
  | .course .. | .seq _ => none
def State.setProc (s : State) (a : Agent) (x : Proc) : State :=
  match a with
  | .kcore d => s.modDie d fun y => { y with kcore := x }
  | .lintel p => s.modPkg p fun y => { y with lintel := x }
  | .course .. | .seq _ => s
def procBase : Agent → Nat × Nat
  | .kcore d => (d / 8, distBase (d % 8))
  | .lintel p => (p, lintBase)
  | .course .. | .seq _ => (0, 0)

/-- The group-wide registers of an agent (R19, R346, R417). -/
def State.scalar (s : State) (a : Agent) : Scalar :=
  match a with
  | .course k _ => (match s.course? k with | some c => c.sc | none => Scalar.init)
  | .kcore d => (s.die d).kcore.sc
  | .lintel p => (s.pkg p).lintel.sc
  | .seq _ => Scalar.init
def State.setScalar (s : State) (a : Agent) (x : Scalar) : State :=
  match a with
  | .course k _ => s.modCourse k fun c => { c with sc := x }
  | .kcore d => s.modDie d fun y => { y with kcore := { y.kcore with sc := x } }
  | .lintel p => s.modPkg p fun y => { y with lintel := { y.lintel with sc := x } }
  | .seq _ => s

/-- The element type a code of MODE names (R24). -/
def modeType (m : Word) (hi lo : Nat) : ElemType := (ElemType.ofCode (bitsOf m.toNat hi lo)).getD .s32
def Course.et (c : Course) : ElemType := modeType c.mode 7 4
def Course.gt (c : Course) : ElemType := modeType c.mode 19 16

/-- GT of an agent: a processor acts as under GT 0 (R417; log 12 for the control core). -/
def State.gt (s : State) (a : Agent) : ElemType :=
  match a with
  | .course k _ => (match s.course? k with | some c => c.gt | none => .s32)
  | _ => .s32

/-- What R39 asks about an agent. -/
def State.env (s : State) (a : Agent) : Env :=
  match a with
  | .course k _ =>
    (match s.course? k with
     | some c => { ctx := .course, handler := c.handler, etWide := c.et.wide, gtWide := c.gt.wide }
     | none => { ctx := .course, handler := false, etWide := false, gtWide := false })
  | .seq _ => { ctx := .stream, handler := false, etWide := false, gtWide := false }
  | .kcore _ => { ctx := .kcore, handler := false, etWide := false, gtWide := false }
  | .lintel _ => { ctx := .lintel, handler := false, etWide := false, gtWide := false }

/-! ## Taking an exception -/

/-- A course stopped at once. Entries that PREEMPT or XSW froze stay so: nothing lets them leave any more (R268). -/
def Course.stop (c : Course) : Course :=
  { c with life := if c.life = .finished then .finished else .ended, header := Slot.free, stretcher := Slot.free, held := [],
           preempt := none, seen := [] }

/-- A course stopped at the next instruction boundary (R274): a store whose lanes have begun to enter the buffer enters
them all first. -/
def Course.halt (c : Course) : Course :=
  let begun (x : Slot) : Bool := match x.hold with | .entering .. => true | _ => false
  let keep (x : Slot) : Slot := if begun x then x else Slot.free
  if begun c.header || begun c.stretcher then
    { c with header := keep c.header, stretcher := keep c.stretcher, held := [], preempt := none, seen := [] }
  else c.stop

/-- A held COPYERR or FABRIC of a course that ends leaves a record (R221, R415, R443). -/
def State.reportHeld (s : State) (t : Team) (cid : Nat) (h : HeldCause) : State :=
  match h.cause with
  | .copyErr => s.postFault (dieOfCore t.core) (teamRec t 6 cid 3 h.cause.code h.taddr.toNat 0 h.tinfo.toNat)
  | .fabric => s.postFault (dieOfCore t.core) (teamRec t 6 cid 0 h.cause.code 0 0 0)
  | _ => s

/-- The end of a team without its normal exit (R274, R286): every course and the sequencer stop at the next instruction
boundary, the version is discarded; causes the courses hold are reported as for ended ones (R443). The courses then count
as finished under R121. -/
def State.stopTeam (s : State) (t : Nat) : State :=
  let s := match s.team? t with
    | some x => List.foldl (fun (s : State) (kc : Nat × Course) => kc.2.held.foldl (fun s h => s.reportHeld x (kc.1 % 16) h) s) s (s.coursesOf t)
    | none => s
  let s : State :=
    { s with
      courses := List.map (fun (kc : Nat × Course) => if kc.1 / 16 = t then (kc.1, kc.2.halt) else kc) s.courses }
  s.modTeam t fun x => { x with abnormal := true, version := x.version.map fun _ => [], verLeaves := [], verPoison := [], verStall := [],
                                seq := { x.seq with run := .idle, holdBatch := none, token := none } }

/-- A double trap (R274): the team ends, and a record of type 4 holds the cause and TPC. -/
def State.doubleTrap (s : State) (t cid : Nat) (str : Bool) (cause : Cause) (tpc : Word) : State :=
  match s.team? t with
  | none => s
  | some tm =>
    (s.postFault (dieOfCore tm.core) (teamRec tm 4 cid (boolNat str) cause.code tpc.toNat 0 0)).stopTeam t

/-- A trap in a versioned team (R286): the version is discarded and the team ends, with a record of type 5. -/
def State.versionTrap (s : State) (t cid : Nat) (str : Bool) (cause : Cause) (addr : Nat) : State :=
  match s.team? t with
  | none => s
  | some tm =>
    (s.postFault (dieOfCore tm.core) (teamRec tm 5 cid (boolNat str) cause.code addr 0 0)).stopTeam t

/-- The slot in which a handler starts (R271). -/
def handlerSlot : Slot := { Slot.free with mask := 0xFFFFFFFF#32 }

/-- Every frozen entry may leave again (R268). -/
def Course.unfreeze (c : Course) : Course := { c with sb := c.sb.map fun e => { e with frozen := false } }

/-- The entries present are frozen, as PREEMPT's entry freezes them (R268). -/
def Course.freeze (c : Course) : Course := { c with sb := c.sb.map fun e => { e with frozen := e.frozen || e.valid } }

/-- Trap entry of a course (R271): the saved slots and MODE, the cause registers, the handler's slot; PREEMPT freezes
the store-buffer entries present (R268). -/
def Course.enter (c : Course) (cause : Cause) (tpc : Word) (taddr : DWord) (tmask tinfo : Word) : Course :=
  { c with
    xHeader := c.header, xStretcher := c.stretcher, xMode := c.mode,
    tcause := BitVec.ofNat 32 cause.code, tpc := tpc, taddr := taddr, tmask := tmask, tinfo := tinfo,
    mode := modeReset, handler := true, header := handlerSlot, stretcher := Slot.free,
    sb := if cause = .preempt then c.freeze.sb else c.sb }

/-- A trap of a course (R271, R274, R286): entry to the handler, or the end of the team; a team that is ending so takes no
more. -/
def State.trapCourse (s : State) (k : Nat) (str : Bool) (cause : Cause) (tpc : Word) (taddr : DWord)
    (tmask tinfo : Word) : State :=
  match s.course? k, s.team? (k / 16) with
  | some c, some t =>
    if t.abnormal then s
    else if t.version.isSome then s.versionTrap (k / 16) c.cid str cause taddr.toNat
    else if c.handler || decide (c.hbase = 0#64) then s.doubleTrap (k / 16) c.cid str cause tpc
    else s.setCourse k { c.enter cause tpc taddr tmask tinfo with entered := s.fresh }
  | _, _ => s

/-- The oldest held cause of a course outside its handler, taken (R443): on the header slot or, when that is free, on the
stretcher; a cause of R167 brings its own slot and TPC. -/
def State.takeCause (s : State) (k : Nat) : State :=
  match s.course? k with
  | some c =>
    (match c.held with
     | h :: rest =>
       let str := match h.slot with | some b => b | none => decide (c.header.mask = 0#32)
       (s.setCourse k { c with held := rest }).trapCourse k str h.cause (h.tpc.getD (c.slot str).pc) h.taddr h.tmask h.tinfo
     | [] => s)
  | none => s

/-- A deferred cause raised for a course (R443): held until its next issue or its handler's ERET, kept with a saved
team; an ended course's is lost here, unless the rule that raises it reports it. -/
def State.defer (s : State) (k : Nat) (h : HeldCause) : State :=
  match s.course? k with
  | some c =>
    if c.life = .live then s.setCourse k { c with held := c.held ++ [h] }
    else if c.life = .saved ∨ c.life = .endedSaved then
      s.modTeam (k / 16) fun t => { t with keptCauses := t.keptCauses ++ [(k % 16, h)] }
    else s
  | none => s

/-- Words of a processor's trap frame (R348), 256 bytes. -/
def frameBytes (p : Proc) (pc : Nat) (cause : Cause) (tinfo taddr : Nat) : List Byte :=
  (p.sc.g.toList.flatMap fun w => bytesOf 4 w.toNat) ++ bytesOf 4 p.sc.gp.toNat ++ bytesOf 4 pc ++
    bytesOf 4 cause.code ++ bytesOf 4 tinfo ++ bytesOf 8 taddr ++ bytesOf 8 p.sc.red.toNat ++
    bytesOf 4 p.sc.redSeq.toNat ++ bytesOf 4 1 ++ bytesOf 4 (pc / 2 ^ 32) ++ List.replicate 84 0#8

/-- An interrupt message to the host of a port (R334, R380), when its enable is set. -/
def State.msi (s : State) (pkg port vec : Nat) : State :=
  { s with outbox := s.outbox ++ [{ kind := 1, pkg := pkg, info := [port, vec], bytes := [] }] }

/-- ERR and HALT changes are signalled on a port's VEC when MSIEN is set (R380). -/
def State.portSignal (s : State) (pkg port : Nat) : State :=
  let m := s.reg pkg (portBase port + 0x14)
  if m.testBit 8 then s.msi pkg port (bitsOf m 7 0) else s

/-- HALT of a processor, shown and signalled by both host ports for a control core (R348, R380). -/
def State.haltProc (s : State) (a : Agent) : State :=
  let (p, b) := procBase a
  let s := s.orReg p (b + 0x14) 2
  match a with
  | .kcore d => [0, 1].foldl (fun s port => (s.orReg p (portBase port + 8) (2 ^ (24 + d % 8))).portSignal p port) s
  | _ => s

/-- The secure log counts a refused access and keeps its address (R341): one that a region-table entry decides (SRC 0). -/
def State.logSecure (s : State) (x : Xlat) (cause : Cause) (va tinfo : Nat) : State :=
  if cause ≠ .secViol ∨ bitsOf tinfo 4 3 ≠ 0 then s
  else match s.walk x false 0 walkLevels x.root va with
  | .inl _ => s
  | .inr (leaf, size) =>
    let pa := bitsOf leaf 63 28 * 2 ^ 16 + va % 2 ^ size
    s.modDie (homeDie pa) fun d => { d with secCount := d.secCount + 1, secAddr := pa }

/-- A refused access of an agent, logged. -/
def State.logRefused (s : State) (a : Agent) (va : Nat) (r : TRes) : State :=
  match r, s.xlatOf a with
  | .bad c ti, some x => s.logSecure x c va ti
  | _, _ => s

/-- Where a processor's trap frame lies (R347), and how a store to one of its two lines translates. -/
def State.frameOf (s : State) (a : Agent) : Nat :=
  let (k, b) := procBase a
  s.reg k (b + 4) + 2 ^ 32 * s.reg k (b + 8)
def State.frameLine (s : State) (a : Agent) (va : Nat) : TRes :=
  match s.xlatOf a with
  | none => .bad .pageFault 1
  | some x =>
    match s.translate x va .store false with
    | .ok pa leaf => if isDevice pa then .bad .access 1 else .ok pa leaf
    | r => r

/-- A line of the frame written as a `.pkg` release store (R260, R348). -/
def State.frameStore (s : State) (a : Agent) (pa leaf : Nat) (bytes : List Byte) : State :=
  let s := s.homeWriteKey pa (bytes.map some) (snapMark leaf) (leafKey leaf)
  (s.setLine pa { s.line pa with relCore := s.pathOf a, relScope := 3, relValid := true, relStamp := s.fresh }).tick

/-- Whether every write that an agent's path holds has been performed and acknowledged. -/
def State.pathIdle (s : State) (a : Agent) : Bool := (s.core (s.pathOf a)).path.all fun ki => decide (ki.2 = .mark)

/-- A line of a processor's frame that another package still holds (R325). -/
def State.frameShared (s : State) (a : Agent) : Option Nat :=
  [s.frameOf a, s.frameOf a + 128].findSome? fun va => match s.frameLine a va with
    | .ok pa _ => if s.unshared pa then none else some pa
    | _ => none

/-- A processor's trap is taken (R348, R420), once its frame can be written: its own earlier writes are performed, as before
any release, and no other package holds the frame's lines (R325). -/
def State.enterProc (s : State) (a : Agent) : State :=
  match s.proc? a with
  | none => s
  | some p =>
    match p.entry with
    | none => s
    | some (cause, taddr, tinfo) =>
      let (k, b) := procBase a
      let frame := s.frameOf a
      let bytes := frameBytes p p.pc.toNat cause tinfo taddr
      match s.frameLine a frame, s.frameLine a (frame + 128) with
      | .ok p0 l0, .ok p1 l1 =>
        if !s.pathIdle a || !s.unshared p0 || !s.unshared p1 then s
        else
          ((((s.frameStore a p0 l0 (bytes.take 128)).frameStore a p1 l1 (bytes.drop 128)).orReg k (b + 0x14) 1).setProc a
            { p with pc := BitVec.ofNat 64 (s.reg k (b + 0x0C) + 2 ^ 32 * s.reg k (b + 0x10)),
                     frame := BitVec.ofNat 64 frame, hold := .free, entry := none })
      | .ok _ _, r => ((s.logRefused a (frame + 128) r).setProc a { p with entry := none }).haltProc a
      | r, _ => ((s.logRefused a frame r).setProc a { p with entry := none }).haltProc a

/-- A trap of a control core or Lintel (R348, R420): HALT when a handler runs, else its entry, at once or as soon as the frame
can be written. -/
def State.trapProc (s : State) (a : Agent) (cause : Cause) (taddr tinfo : Nat) : State :=
  match s.proc? a with
  | none => s
  | some p =>
    let (k, b) := procBase a
    if (s.reg k (b + 0x14)).testBit 0 then s.haltProc a
    else (s.setProc a { p with hold := .free, entry := some (cause, taddr, tinfo) }).enterProc a

/-- The slots of a team that wait at an MWAIT trap (R227): its fault record has become valid. -/
def State.trapWaiting (s : State) (t : Nat) : State :=
  match s.team? t with
  | none => s
  | some x =>
    List.foldl (fun (s : State) (kc : Nat × Course) => [false, true].foldl (fun s str =>
      match s.course? kc.1 with
      | some c =>
        if c.life = .live ∧ (c.slot str).mask ≠ 0#32 ∧ (c.slot str).hold = .batch then
          s.trapCourse kc.1 str .mxFault (c.slot str).pc x.seq.faultAddr 0#32 x.seq.faultInfo
        else s
      | none => s) s) s (s.coursesOf t)

/-- A stream fault (R249): the sequencer stops at the failing word with its fault record, and what waits for a batch traps. -/
def State.stopStream (s : State) (t : Nat) (opc cause reason : Nat) (taddr : DWord) : State :=
  (s.modTeam t fun x =>
    { x with seq := { x.seq with run := .stopped, faultValid := true, faultAddr := taddr, holdBatch := none, pending := none,
                                 faultInfo := BitVec.ofNat 32 (opc * 2 ^ 16 + cause * 2 ^ 8 + reason) } }).trapWaiting t

/-- The entry of the agent that issues (R40, R271, R348, R420). -/
def State.enterTrap (s : State) (cause : Cause) (taddr tmask tinfo : Nat) : State :=
  match s.cur with
  | .course k str =>
    (match s.course? k with
     | some c => s.trapCourse k str cause (c.slot str).pc (BitVec.ofNat 64 taddr) (BitVec.ofNat 32 tmask)
         (BitVec.ofNat 32 tinfo)
     | none => s)
  | .seq t =>
    (match s.team? t with
     | some x => s.stopStream t (tinfo / 2 ^ 24) cause.code 1 (BitVec.ofNat 64 (tinfo * 2 ^ 32 + x.seq.pc.toNat))
     | none => s)
  | .kcore _ | .lintel _ => s.trapProc s.cur cause taddr tinfo

/-- A failure of R39 or of an instruction's own rule, logged (R341) and delivered to the agent that issues. -/
def State.takeTrap (s : State) (cause : Cause) (taddr tmask tinfo : Nat) : State :=
  (match s.xlatOf s.cur with | some x => s.logSecure x cause taddr tinfo | none => s).enterTrap cause taddr tmask tinfo

/-! ## The split stack -/

/-- Whether entry n of the split stack lies in the scratchpad (R12). -/
def stackIn (t : Team) (c : Course) (n : Nat) : Bool := decide (c.splitSp.toNat + 16 * n + 16 ≤ t.spSize)

/-- Entry n: PC, mask and id (R12). -/
def stackEntry (t : Team) (c : Course) (n : Nat) : Slot :=
  let o := c.splitSp.toNat + 16 * n
  { Slot.free with pc := BitVec.ofNat 32 (ofBytes (t.spBytes o 4)), mask := BitVec.ofNat 32 (ofBytes (t.spBytes (o + 4) 4)),
                   id := BitVec.ofNat 16 (ofBytes (t.spBytes (o + 8) 2)) }

/-- The bytes of an entry (R12). -/
def stackBytes (x : Slot) : List Byte :=
  bytesOf 4 x.pc.toNat ++ bytesOf 4 x.mask.toNat ++ bytesOf 2 x.id.toNat ++ List.replicate 6 0#8

/-- Depth as the running code sees it: 0 in a handler (R272). -/
def Course.effDepth (c : Course) : Nat := if c.handler then 0 else c.depth

/-- What a refill would raise (R131): SPBOUND, or SOFTERR of a poisoned entry. These and SPLITOVF of a split-stack access
report TADDR and TMASK 0 (DESIGN CHOICE, log 105). -/
def refillFails (t : Team) (c : Course) : Option (Cause × Nat) :=
  if c.effDepth = 0 then none
  else if !stackIn t c (c.effDepth - 1) then some (.spBound, 0)
  else if t.spPoisoned (c.splitSp.toNat + 16 * (c.effDepth - 1)) 16 then some (.softErr, 0)
  else none

/-- Popping the top entry into a freed slot (R131). -/
def Course.refill (t : Team) (c : Course) (str : Bool) : Course :=
  if c.effDepth = 0 then c
  else
    let e := stackEntry t c (c.effDepth - 1)
    ({ c with depth := c.depth - 1 }).setSlot str { e with pc := e.pc &&& 0xFFFFFFFC#32 }

/-- The end of a course once both slots are free and no entry is left (R121): `saved` for EXIT.SAVED. -/
def Course.endIfFree (c : Course) (saved : Bool) : Course :=
  if c.header.mask = 0#32 ∧ c.stretcher.mask = 0#32 ∧ c.effDepth = 0 then
    { c with life := if saved then .endedSaved else .ended }
  else c

/-! ## Return from a trap -/

/-- The oldest cause held other than PREEMPT is taken first, then PREEMPT, whose entry freezes the entries present (R268, R275,
R278). -/
def Course.takeHeld (c : Course) : Option Course :=
  let at' : Word := if c.xHeader.mask = 0#32 then c.xStretcher.pc else c.xHeader.pc
  let again (c : Course) : Course := { c with mode := modeReset, header := handlerSlot, stretcher := Slot.free }
  match c.held, c.preempt with
  | h :: hs, _ =>
    some (again { c with held := hs, tcause := BitVec.ofNat 32 h.cause.code, tpc := at', taddr := h.taddr,
                         tmask := h.tmask, tinfo := h.tinfo })
  | [], some ti =>
    some (again { c.freeze with
      preempt := none, tcause := BitVec.ofNat 32 Cause.preempt.code, tpc := at', taddr := 0#64, tmask := 0#32, tinfo := ti })
  | [], none => none

/-- What a parked slot re-executes (R168): the lanes of the replay mask; with none, its whole word (log 86). -/
def Course.toReplay (c : Course) : Option Word := if c.replayMask = 0#32 then none else some c.replayMask

/-- The slots, MODE and store buffer as ERET restores them; a parked instruction re-executes for its lanes (R278). -/
def Course.restore (c : Course) : Course :=
  let valid := c.faultPend.getLsbD 31
  let side := c.faultPend.getLsbD 30
  let fix (x : Slot) (b : Bool) : Slot :=
    { x with parked := none, replay := if valid && (side == b) then c.toReplay else x.replay }
  { c with
    mode := c.xMode, handler := false, header := fix c.xHeader false, stretcher := fix c.xStretcher true,
    sb := c.unfreeze.sb,
    replayMask := if valid then 0#32 else c.replayMask, faultPend := if valid then 0#32 else c.faultPend }

/-- The refill of both free slots at ERET, and the end of the course when nothing is left (R278). -/
def Course.refillFree (t : Team) (c : Course) : Course :=
  let c := if c.header.mask = 0#32 then c.refill t false else c
  let c := if c.stretcher.mask = 0#32 then c.refill t true else c
  c.endIfFree false

/-- What ERET's refill would raise: the pops it makes, in order (R131, R278). -/
def eretFails (t : Team) (c : Course) : Option (Cause × Nat) :=
  let first := if c.header.mask = 0#32 then refillFails t c else none
  match first with
  | some x => some x
  | none =>
    let c := if c.header.mask = 0#32 then c.refill t false else c
    if c.stretcher.mask = 0#32 then refillFails t c else none

end Sys2Proof.Machine
end

