-- ==== Sys2Proof/Machine/Operands.lean ====
section
/-! DEFINITION. Operand forms and the course of an instruction: what each source code reads, the full/empty and poison
checks, delivery to queues and named registers, group-coded operands, and the wrapper every instruction word runs in
(R13-R18, R31-R36, R38, R39, R82-R86, R444). -/

namespace Sys2Proof.Machine

open Sys2Proof

/-! ## Lanes -/

/-- A lane by its index. -/
def Course.lane (c : Course) (l : Nat) : Lane := if h : l < 32 then c.lanes[l] else Lane.init
def Course.mapLanes (c : Course) (f : Nat → Lane → Lane) : Course :=
  { c with lanes := Vector.ofFn fun i => f i.val c.lanes[i] }

/-- The lanes of a mask, ascending. -/
def lanesOf (m : Word) : List Nat := (List.range 32).filter fun l => m.getLsbD l

/-- A mask from a test on lane numbers. -/
def maskOf (f : Nat → Bool) : Word := BitVec.ofNat 32 ((List.range 32).foldl (fun a l => a + boolNat (f l) * 2 ^ l) 0)

/-- A queue age, a named register. -/
def Lane.age (x : Lane) (k : Nat) : Word := if h : k < 16 then x.q[k] else 0#32
def Lane.named (x : Lane) (k : Nat) : Word := if h : k < 32 then x.n[k] else 0#32
def Lane.pred (x : Lane) (k : Nat) : Bool := decide (k = 7) || x.p.getLsbD k

/-- Push (R13). -/
def Lane.push (x : Lane) (v : Nat) : Lane :=
  { x with q := Vector.ofFn fun i => if i.val = 0 then BitVec.ofNat 32 v else x.age (i.val - 1),
           qPoison := x.qPoison <<< 1 }

/-- WriteN (R8, R18): the value and the full bit; a write clears a poison mark (R199). -/
def Lane.writeN (x : Lane) (k v : Nat) : Lane :=
  { x with n := Vector.ofFn fun i => if i.val = k then BitVec.ofNat 32 v else x.n[i],
           fe := x.fe ||| BitVec.ofNat 32 (2 ^ k), nPoison := x.nPoison &&& ~~~ (BitVec.ofNat 32 (2 ^ k)) }

/-- Setting a lane predicate; p7 stays true (R17). -/
def Lane.setPred (x : Lane) (k : Nat) (b : Bool) : Lane :=
  if k = 7 then x else { x with p := if b then x.p ||| BitVec.ofNat 8 (2 ^ k) else x.p &&& ~~~ (BitVec.ofNat 8 (2 ^ k)) }

/-- Emptying and filling named registers (R18). -/
def Lane.empty (x : Lane) (k : Nat) : Lane := { x with fe := x.fe &&& ~~~ (BitVec.ofNat 32 (2 ^ k)) }
def Lane.full (x : Lane) (k : Nat) : Lane := { x with fe := x.fe ||| BitVec.ofNat 32 (2 ^ k) }

/-- The guard of a lane (R82). -/
def Course.guard (c : Course) (l : Nat) : Bool := (c.lane l).pred (bitsOf c.mode.toNat 2 0) != c.mode.getLsbD 3

/-- The active lanes of a slot: its mask, or the lanes it re-executes (R149, R168), with a true guard. -/
def Course.mask (c : Course) (str : Bool) : Word :=
  match (c.slot str).replay with
  | some m => m &&& (c.slot str).mask
  | none => (c.slot str).mask
def Course.active (c : Course) (str : Bool) : Word := maskOf fun l => (c.mask str).getLsbD l && c.guard l

/-- Changing the lanes of a mask. -/
def Course.mapFrom (c : Course) (m : Word) (f : Nat → Lane → Lane) : Course :=
  c.mapLanes fun l x => if m.getLsbD l then f l x else x

/-! ## Sources (R31, R36, R444) -/

/-- k1 and km1 in each element of a type (R31). -/
def constOf (t : ElemType) (neg : Bool) : Nat :=
  let one : Nat :=
    match t.fmt with
    | some f => f.bias * 2 ^ f.frac + f.signBit neg
    | none => if neg then onesOf t.width else 1
  packElems t.width (List.replicate t.count one)

/-- A group register, and the pair from k up. -/
def Scalar.reg (x : Scalar) (k : Nat) : Word := if h : k < 32 then x.g[k] else 0#32
def Scalar.read (x : Scalar) (wide : Bool) (k : Nat) : Nat :=
  (x.reg k).toNat + if wide then (x.reg (k + 1)).toNat * 2 ^ 32 else 0

/-- The value a course-coded source of type t has in a lane. -/
def Course.src (c : Course) (t : ElemType) (code l : Nat) : Nat :=
  let x := c.lane l
  if code < 16 then (x.age code).toNat + if t.wide then (x.age (code + 1)).toNat * 2 ^ 32 else 0
  else if code < 48 then
    (x.named (code - 16)).toNat + if t.wide then (x.named (code - 15)).toNat * 2 ^ 32 else 0
  else if code < 56 then c.sc.read t.wide (code - 48)
  else match code with
  | 57 => l
  | 58 => constOf t false
  | 59 => constOf t true
  | 60 => c.cid
  | _ => 0

/-- One source operand of an instruction: its code, its type, and the operand slot whose policy it takes: 13 A, 14 B,
15 C or D (R18). -/
structure Use where
  code : Nat
  type : ElemType
  slot : Nat

/-- Whether a code of a width reads an empty register, a poisoned one, in a lane (R18, R199). -/
def Course.isEmpty (c : Course) (wide : Bool) (code l : Nat) : Bool :=
  decide (16 ≤ code) && decide (code < 48) &&
    (!(c.lane l).fe.getLsbD (code - 16) || (wide && !(c.lane l).fe.getLsbD (code - 15)))
def Course.isPoisoned (c : Course) (wide : Bool) (code l : Nat) : Bool :=
  let two (b : Nat → Bool) (k : Nat) : Bool := b k || (wide && b (k + 1))
  if code < 16 then two (fun k => (c.lane l).qPoison.getLsbD k) code
  else if code < 48 then two (fun k => (c.lane l).nPoison.getLsbD k) (code - 16)
  else if code < 56 then two (fun k => c.sc.gPoison.getLsbD k) (code - 48)
  else false

/-! ## What an instruction's rule answers -/

/-- done: complete, the wrapper moves the PC on. jumped: complete, and its rule has set the PC. stay: it has begun or is
held, and the PC stays. wait: not ready. trap: cause, TADDR, TMASK, TINFO. -/
inductive Res where
  | done (s : State)
  | jumped (s : State)
  | stay (s : State)
  | wait
  | trap (c : Cause) (taddr tmask tinfo : Nat)

/-- The operand checks of R18 and R199 over the checked lanes: none when the instruction may issue. -/
def Course.checks (c : Course) (lanes : Word) (uses : List Use) (dest : Option (Nat × Bool)) : Option Res :=
  let ls := lanesOf lanes
  let emptyIn (u : Use) : Word := maskOf fun l => lanes.getLsbD l && c.isEmpty u.type.wide u.code l
  let trapping := uses.foldl (fun m u => if c.mode.getLsbD u.slot then m ||| emptyIn u else m) 0#32
  if trapping ≠ 0#32 then some (.trap .emptyRead 0 trapping.toNat 0)
  else if uses.any fun u => decide (emptyIn u ≠ 0#32) then some .wait
  else if ls.any fun l => (match dest with | some (d, w) => c.isEmpty w d l | none => false) then some .wait
  else
    let bad := maskOf fun l => lanes.getLsbD l && uses.any fun u => c.isPoisoned u.type.wide u.code l
    if bad ≠ 0#32 then some (.trap .softErr 0 bad.toNat 0) else none

/-- Deliver (R14, R15, R82): pushes in every lane of the mask, named writes where the guard is true. -/
def Course.deliver (c : Course) (m act : Word) (d : Nat) (wide : Bool) (v : Nat → Nat) : Course :=
  if d = 0 then c
  else c.mapLanes fun l x =>
    if !m.getLsbD l then x
    else
      let r := if act.getLsbD l then v l else 0
      let x := if wide then (x.push (r / 2 ^ 32)).push r else x.push r
      if 16 ≤ d ∧ d < 48 ∧ act.getLsbD l then
        (if wide then (x.writeN (d - 16) r).writeN (d - 15) (r / 2 ^ 32) else x.writeN (d - 16) r)
      else x

/-- A value that arrives for a named register (R150): one register, or the pair together. -/
def Course.arrive (c : Course) (l k : Nat) (wide : Bool) (v : Nat) : Course :=
  c.mapLanes fun i x => if i = l then (if wide then (x.writeN k v).writeN (k + 1) (v / 2 ^ 32) else x.writeN k v) else x

/-- A lane whose value never arrives keeps its old one, and its bits are set full (R167). -/
def Course.arriveFail (c : Course) (l k : Nat) (wide : Bool) : Course :=
  c.mapLanes fun i x => if i = l then (if wide then (x.full k).full (k + 1) else x.full k) else x

/-- Emptying a destination in the active lanes at issue (R18, R149). -/
def Course.emptyDest (c : Course) (act : Word) (d : Nat) (wide : Bool) : Course :=
  if d < 16 ∨ 48 ≤ d then c
  else c.mapLanes fun l x => if act.getLsbD l then (if wide then (x.empty (d - 16)).empty (d - 15) else x.empty (d - 16)) else x

/-! ## Group-coded operands (R33) -/

/-- A group-coded source: zero for code 48. -/
def Scalar.src (x : Scalar) (wide : Bool) (code : Nat) : Nat := if code < 32 then x.read wide code else 0

/-- Writing a group register; 63 discards, and a write clears a poison mark. -/
def Scalar.set (x : Scalar) (k v : Nat) : Scalar :=
  { x with g := Vector.ofFn fun i => if i.val = k then BitVec.ofNat 32 v else x.g[i],
           gPoison := x.gPoison &&& ~~~ (BitVec.ofNat 32 (2 ^ k)) }
def Scalar.dst (x : Scalar) (wide : Bool) (code v : Nat) : Scalar :=
  if code < 32 then (if wide then (x.set code v).set (code + 1) (v / 2 ^ 32) else x.set code v) else x

/-- Group predicates; gp7 stays true (R19). -/
def Scalar.pred (x : Scalar) (k : Nat) : Bool := decide (k = 7) || x.gp.getLsbD k
def Scalar.setPred (x : Scalar) (k : Nat) (b : Bool) : Scalar :=
  if k = 7 then x
  else { x with gp := if b then x.gp ||| BitVec.ofNat 8 (2 ^ k) else x.gp &&& ~~~ (BitVec.ofNat 8 (2 ^ k)) }

/-- SOFTERR of a poisoned group register (R199), over the codes and widths read. -/
def Scalar.checks (x : Scalar) (uses : List (Nat × Bool)) : Option Res :=
  if uses.any fun u => decide (u.1 < 32) && (x.gPoison.getLsbD u.1 || (u.2 && x.gPoison.getLsbD (u.1 + 1)))
  then some (.trap .softErr 0 0 0) else none

/-- The group registers of the agent that executes, and writing one. -/
def State.sc (s : State) : Scalar := s.scalar s.cur
def State.gsrc (s : State) (wide : Bool) (code : Nat) : Nat := s.sc.src wide code
def State.gdst (s : State) (wide : Bool) (code v : Nat) : State := s.setScalar s.cur (s.sc.dst wide code v)
def State.gwide (s : State) : Bool := (s.gt s.cur).wide

/-! ## The course that executes -/

/-- The executing course: its key, its slot's side and itself. -/
def State.self (s : State) : Option (Nat × Bool × Course) :=
  match s.cur with
  | .course k str => (s.course? k).map fun c => (k, str, c)
  | _ => none

/-- Giving a rule the executing course; no other agent passes R39 with such a word. -/
def State.asCourse (s : State) (f : Nat → Bool → Course → Res) : Res :=
  match s.self with
  | some (k, str, c) => f k str c
  | none => .wait

/-- ILLEGAL raised at execution, with FLD and SUB (R41, R83). -/
def illegalAt (op fld sub : Nat) : Res := .trap .illegal 0 0 (tinfoOf op fld 0 sub).toNat

/-! ## Charges (R302) -/

/-- Weight class of an opcode, by element type. -/
def weightClass (op : Nat) (wide : Bool) : Nat :=
  if 0x10 ≤ op ∧ op ≤ 0x35 then
    (if op = 0x12 ∨ op = 0x13 ∨ op = 0x14 ∨ op = 0x33 ∨ op = 0x27 then 1 else boolNat wide)
  else match op with
  | 0x40 | 0x41 | 0x42 | 0x45 | 0x46 | 0x47 | 0x48 | 0x49 | 0x4A | 0x52 | 0x53 => 2
  | 0x43 | 0x44 | 0x57 => 3
  | 0x4B | 0x4C | 0x4D | 0x4E | 0x4F | 0x50 | 0x51 => 4
  | 0x54 | 0x55 | 0x56 => 5
  | 0x60 | 0x61 | 0x62 | 0x63 | 0x65 => 6
  | 0x84 | 0x85 | 0x90 | 0x7A | 0x7B => 7
  | 0x80 | 0x81 | 0x86 | 0x88 | 0x8A | 0x91 | 0x93 => 8
  | 0x82 | 0x83 | 0x87 | 0x89 | 0x8B | 0x8C | 0x8D | 0x8E | 0x8F | 0x92 => 9
  | 0xA0 | 0xA1 | 0xA2 | 0xA3 | 0xA4 | 0xA5 | 0xA6 | 0xE2 => 10
  | _ => 11

/-- The charge of an issue of a course's slot: the class weight, times the lanes of the mask for a lane class. -/
def State.chargeOf (s : State) (core op : Nat) (wide : Bool) (mask : Word) : Nat :=
  let c := weightClass op wide
  let d := dieOfCore core
  let w := s.weight (d / 8) (d % 8) (quadOfCore core % 24) c
  if c < 10 then w * (lanesOf mask).length else w

/-- Adding a charge to a quad's record (R302) and counting an issue slot (R312). -/
def State.addCharge (s : State) (quad n : Nat) : State :=
  s.modQuad quad fun q => { q with charge := q.charge + n, issues := q.issues + 1 }

/-- An instruction of a course has issued: charge, CHARGE, the team's count u (R279), the slot's replay lanes used. -/
def State.issued (s : State) (k : Nat) (str : Bool) (op : Nat) (mask : Word) (wide : Bool) : State :=
  match s.team? (k / 16) with
  | none => s
  | some t =>
    let n := s.chargeOf t.core op wide mask
    let s := s.addCharge (quadOfCore t.core) n
    let s := s.modTeam (k / 16) fun x => { x with issued := x.issued + 1 }
    s.modCourse k fun c =>
      ({ c with charge := c.charge + BitVec.ofNat 32 n, moves := c.moves + 1 }).setSlot str { c.slot str with yielded := decide (op = 0x03) }

/-- A processor's PC with its 32-bit part elsewhere: bits [63:32] stay (R30). -/
def lowPc (x : DWord) (pc : Nat) : DWord := BitVec.ofNat 64 (x.toNat / 2 ^ 32 * 2 ^ 32 + pc % 2 ^ 32)

/-- Moving the executing agent's PC on by one word, modulo 2^32 (R10, R30, R223). -/
def State.advance (s : State) : State :=
  match s.cur with
  | .course k str => s.modCourse k fun c =>
      let x := c.slot str
      c.setSlot str { x with pc := x.pc + 4#32, replay := none, hold := .free }
  | .seq t => s.modTeam t fun x => { x with seq := { x.seq with pc := x.seq.pc + 4#32 } }
  | .kcore d => s.modDie d fun y =>
      { y with kcore := { y.kcore with pc := lowPc y.kcore.pc (y.kcore.pc.toNat + 4), hold := .free } }
  | .lintel p => s.modPkg p fun y =>
      { y with lintel := { y.lintel with pc := lowPc y.lintel.pc (y.lintel.pc.toNat + 4), hold := .free } }

/-- Putting the executing agent's 32-bit PC elsewhere (R30). -/
def State.goto (s : State) (pc : Nat) : State :=
  match s.cur with
  | .course k str => s.modCourse k fun c =>
      let x := c.slot str
      c.setSlot str { x with pc := BitVec.ofNat 32 pc, replay := none, hold := .free }
  | .seq t => s.modTeam t fun x => { x with seq := { x.seq with pc := BitVec.ofNat 32 pc } }
  | .kcore d => s.modDie d fun y => { y with kcore := { y.kcore with pc := lowPc y.kcore.pc pc, hold := .free } }
  | .lintel p => s.modPkg p fun y => { y with lintel := { y.lintel with pc := lowPc y.lintel.pc pc, hold := .free } }

/-- The executing agent's 32-bit PC. -/
def State.pc (s : State) : Nat :=
  match s.cur with
  | .course k str => (match s.course? k with | some c => (c.slot str).pc.toNat | none => 0)
  | .seq t => (match s.team? t with | some x => x.seq.pc.toNat | none => 0)
  | .kcore d => (s.die d).kcore.pc.toNat % 2 ^ 32
  | .lintel p => (s.pkg p).lintel.pc.toNat % 2 ^ 32

/-- Whether the executing agent exists: a live course with an occupied slot, a running stream, a running program. -/
def State.curRuns (s : State) : Bool :=
  match s.cur with
  | .course k str =>
    (match s.course? k, s.team? (k / 16) with
     | some c, some _ => decide (c.life = .live) && decide ((c.slot str).mask ≠ 0#32)
     | _, _ => false)
  | .seq t => (match s.team? t with | some x => decide (x.seq.run = .running) | none => false)
  | .kcore d => (s.die d).kcore.running
  | .lintel p => (s.pkg p).lintel.running

/-- What has issued, by agent. -/
def State.countIssue (s : State) (op : Nat) (mask : Word) (wide : Bool) : State :=
  match s.cur with
  | .course k str => s.issued k str op mask wide
  | .seq t =>
    (match s.team? t with
     | some x =>
       let d := dieOfCore x.core
       let q := quadOfCore x.core
       let s := s.modTeam t fun y => { y with seq := { y.seq with openBatch := decide (op ≠ 0xC5) && decide (op ≠ 0xCB), moves := y.seq.moves + 1 } }
       if op = 0xC0 ∨ op = 0xCC then s else s.addCharge q (s.weight (d / 8) (d % 8) (q % 24) 13)
     | none => s)
  | .kcore _ | .lintel _ => s

/-- The mask and ET width the charge of the executing slot counts (R302). -/
def State.chargeMask (s : State) : Word × Bool :=
  match s.self with
  | some (_, str, c) => ((c.slot str).mask, c.et.wide)
  | none => (0#32, false)

/-- Every instruction word runs in this: the agent must exist; R39; then the instruction's own rule. -/
def State.runWord (s : State) (i : Instr) (rule : Res) : Out :=
  if !s.curRuns then .fault .noSuchAgent
  else match encode i with
  | none => .next s
  | some w =>
    match r39 (s.env s.cur) w with
    | some (c, ti) => .next (s.takeTrap c 0 0 ti.toNat)
    | none =>
      match rule with
      | .done t => .next (t.countIssue (opOf w) s.chargeMask.1 s.chargeMask.2).advance
      | .jumped t => .next (t.countIssue (opOf w) s.chargeMask.1 s.chargeMask.2)
      | .stay t => .next t
      | .wait => .next s
      | .trap c taddr tmask ti => .next (s.takeTrap c taddr tmask ti)

/-! ## The shape of the vector instructions (R82-R86) -/

/-- R83's refusal of an element type. -/
def etIllegal (op : Nat) : Res := illegalAt op 0 3

/-- Modes of the ALU as one issue reads them (R118). -/
def Course.alu (c : Course) : AluMode :=
  { et := c.et, sat := c.mode.getLsbD 11, rm := bitsOf c.mode.toNat 10 8, ftz := c.mode.getLsbD 12 }

/-- A value-producing vector instruction: accepted types, sources, destination and width, and its effect in a lane with
the sources' values in order (R82). -/
def State.vecOp (s : State) (op : Nat) (accepts : Bool) (uses : List Use) (d : Nat) (wide : Bool)
    (effect : Course → Nat → List Nat → Rounded) : Res :=
  s.asCourse fun k str c =>
    if !accepts then etIllegal op
    else
      let m := c.mask str
      let act := c.active str
      match c.checks act uses (some (d, wide)) with
      | some r => r
      | none =>
        let out (l : Nat) : Rounded := effect c l (uses.map fun u => c.src u.type u.code l)
        let fl := (lanesOf act).foldl (fun f l => f ||| (out l).flags) 0#5
        let c := c.deliver m act d wide fun l => (out l).bits
        .done (s.setCourse k { c with fpflags := c.fpflags ||| fl })

/-- A lane predicate written by a comparison (R86). -/
def State.predOp (s : State) (op : Nat) (accepts : Bool) (uses : List Use) (m : Nat)
    (cond : Course → Nat → List Nat → Bool) (flags : Course → List Nat → Flags) : Res :=
  s.asCourse fun k str c =>
    if !accepts then etIllegal op
    else
      let act := c.active str
      match c.checks act uses none with
      | some r => r
      | none =>
        let vals (l : Nat) : List Nat := uses.map fun u => c.src u.type u.code l
        let fl := (lanesOf act).foldl (fun f l => f ||| flags c (vals l)) 0#5
        let c' := c.mapFrom act fun l x => x.setPred (m / 8) (combinePred (m % 8) (x.pred (m / 8)) (cond c l (vals l)))
        .done (s.setCourse k { c' with fpflags := c'.fpflags ||| fl })

/-- A group-wide instruction: the agent's group registers, its sources checked for poison (R38, R137). -/
def State.groupOp (s : State) (uses : List (Nat × Bool)) (f : Scalar → Res) : Res :=
  match s.sc.checks uses with
  | some r => r
  | none => f s.sc

end Sys2Proof.Machine
end

