-- ==== Sys2Proof/Machine/IntOps.lean ====
section
/-! DEFINITION. Integer, bitwise, shift, field and predicate instructions of a course (05_course_compute R88-R97). -/

namespace Sys2Proof.Machine

open Sys2Proof

/-- The element types of the integer class (R83). -/
def intEt (t : ElemType) : Bool := t.isInt

/-- ET of the executing course. -/
def State.et (s : State) : ElemType := match s.self with | some (_, _, c) => c.et | none => .s32

/-- Instructions of one, two or three sources whose type follows ET. -/
def State.un (s : State) (i : Instr) (op : Nat) (accepts : ElemType → Bool) (d a : BitVec 6)
    (f : AluMode → Nat → Rounded) : Out :=
  s.runWord i (s.vecOp op (accepts s.et) [⟨a.toNat, s.et, 13⟩] d.toNat s.et.wide
    fun c _ v => match v with | [x] => f c.alu x | _ => ⟨0, 0⟩)
def State.bin (s : State) (i : Instr) (op : Nat) (accepts : ElemType → Bool) (d a b : BitVec 6)
    (f : AluMode → Nat → Nat → Rounded) : Out :=
  s.runWord i (s.vecOp op (accepts s.et) [⟨a.toNat, s.et, 13⟩, ⟨b.toNat, s.et, 14⟩] d.toNat s.et.wide
    fun c _ v => match v with | [x, y] => f c.alu x y | _ => ⟨0, 0⟩)
def State.tern (s : State) (i : Instr) (op : Nat) (accepts : ElemType → Bool) (d a b c : BitVec 6)
    (f : AluMode → Nat → Nat → Nat → Rounded) : Out :=
  s.runWord i (s.vecOp op (accepts s.et) [⟨a.toNat, s.et, 13⟩, ⟨b.toNat, s.et, 14⟩, ⟨c.toNat, s.et, 15⟩] d.toNat
    s.et.wide fun k _ v => match v with | [x, y, z] => f k.alu x y z | _ => ⟨0, 0⟩)

/-- Every element type. -/
def anyEt (_ : ElemType) : Bool := true

/-- A result that raises no flag. -/
def plain (x : Nat) : Rounded := ⟨x, 0⟩

/-- IADD (R89). -/
def execIadd (d a b : BitVec 6) (s : State) : Out :=
  s.bin (.iadd d a b) 0x10 intEt d a b fun m x y => plain (iadd m x y)

/-- ISUB (R89). -/
def execIsub (d a b : BitVec 6) (s : State) : Out :=
  s.bin (.isub d a b) 0x11 intEt d a b fun m x y => plain (isub m x y)

/-- IMUL (R89). -/
def execImul (d a b : BitVec 6) (s : State) : Out :=
  s.bin (.imul d a b) 0x12 intEt d a b fun m x y => plain (imul m x y)

/-- IMULH (R89). -/
def execImulh (d a b : BitVec 6) (s : State) : Out :=
  s.bin (.imulh d a b) 0x13 intEt d a b fun m x y => plain (imulh m x y)

/-- IMAD (R89). -/
def execImad (d a b c : BitVec 6) (s : State) : Out :=
  s.tern (.imad d a b c) 0x14 intEt d a b c fun m x y z => plain (imad m x y z)

/-- IMIN (R89). -/
def execImin (d a b : BitVec 6) (s : State) : Out :=
  s.bin (.imin d a b) 0x15 intEt d a b fun m x y => plain (imin m x y)

/-- IMAX (R89). -/
def execImax (d a b : BitVec 6) (s : State) : Out :=
  s.bin (.imax d a b) 0x16 intEt d a b fun m x y => plain (imax m x y)

/-- IABS (R89). -/
def execIabs (d a : BitVec 6) (s : State) : Out :=
  s.un (.iabs d a) 0x17 intEt d a fun m x => plain (iabs m x)

/-- AND (R90). -/
def execAnd (d a b : BitVec 6) (s : State) : Out :=
  s.bin (.and d a b) 0x18 anyEt d a b fun m x y => plain (bitAnd m.et x y)

/-- OR (R90). -/
def execOr (d a b : BitVec 6) (s : State) : Out :=
  s.bin (.or d a b) 0x19 anyEt d a b fun m x y => plain (bitOr m.et x y)

/-- XOR (R90). -/
def execXor (d a b : BitVec 6) (s : State) : Out :=
  s.bin (.xor d a b) 0x1A anyEt d a b fun m x y => plain (bitXor m.et x y)

/-- ANDN (R90). -/
def execAndn (d a b : BitVec 6) (s : State) : Out :=
  s.bin (.andn d a b) 0x1B anyEt d a b fun m x y => plain (bitAndNot m.et x y)

/-- SHL (R91). -/
def execShl (d a b : BitVec 6) (s : State) : Out :=
  s.bin (.shl d a b) 0x1C intEt d a b fun m x y => plain (shl m x y)

/-- SHR (R91). -/
def execShr (d a b : BitVec 6) (s : State) : Out :=
  s.bin (.shr d a b) 0x1D intEt d a b fun m x y => plain (shr m.et x y)

/-- SAR (R91). -/
def execSar (d a b : BitVec 6) (s : State) : Out :=
  s.bin (.sar d a b) 0x1E intEt d a b fun m x y => plain (sar m.et x y)

/-- ROTL (R91). -/
def execRotl (d a b : BitVec 6) (s : State) : Out :=
  s.bin (.rotl d a b) 0x1F intEt d a b fun m x y => plain (rotlOp m.et x y)

/-- POPC (R89). -/
def execPopc (d a : BitVec 6) (s : State) : Out :=
  s.un (.popc d a) 0x20 intEt d a fun m x => plain (popc m.et x)

/-- CLZ (R89). -/
def execClz (d a : BitVec 6) (s : State) : Out :=
  s.un (.clz d a) 0x21 intEt d a fun m x => plain (clz m.et x)

/-- BREV (R89). -/
def execBrev (d a : BitVec 6) (s : State) : Out :=
  s.un (.brev d a) 0x22 intEt d a fun m x => plain (brev m.et x)

/-- BFX (R92): the control word B is 32 bits wide. -/
def execBfx (d a b : BitVec 6) (s : State) : Out :=
  s.runWord (.bfx d a b) (s.vecOp 0x23 (intEt s.et) [⟨a.toNat, s.et, 13⟩, ⟨b.toNat, .n32, 14⟩] d.toNat s.et.wide
    fun c _ v => match v with | [x, y] => plain (bfx c.et x y) | _ => ⟨0, 0⟩)

/-- BFI (R92): the control word C is 32 bits wide. -/
def execBfi (d a b c : BitVec 6) (s : State) : Out :=
  s.runWord (.bfi d a b c) (s.vecOp 0x24 (intEt s.et) [⟨a.toNat, s.et, 13⟩, ⟨b.toNat, s.et, 14⟩, ⟨c.toNat, .n32, 15⟩]
    d.toNat s.et.wide fun k _ v => match v with | [x, y, z] => plain (bfi k.et x y z) | _ => ⟨0, 0⟩)

/-- PERM (R93), 32 bits wide whatever ET. -/
def execPerm (d a b c : BitVec 6) (s : State) : Out :=
  s.runWord (.perm d a b c) (s.vecOp 0x25 true [⟨a.toNat, .n32, 13⟩, ⟨b.toNat, .n32, 14⟩, ⟨c.toNat, .n32, 15⟩]
    d.toNat false fun _ _ v => match v with | [x, y, z] => plain (perm x y z) | _ => ⟨0, 0⟩)

/-- SEL (R94). -/
def execSel (d a b : BitVec 6) (n : BitVec 1) (k : BitVec 3) (s : State) : Out :=
  s.runWord (.sel d a b n k) (s.vecOp 0x26 true [⟨a.toNat, s.et, 13⟩, ⟨b.toNat, s.et, 14⟩] d.toNat s.et.wide
    fun c l v => match v with
      | [x, y] => plain (if (c.lane l).pred k.toNat != (n == 1#1) then x else y)
      | _ => ⟨0, 0⟩)

/-- LEA (R94): A and the result are 64 bits wide, B is 32. -/
def execLea (d a b : BitVec 6) (x : BitVec 1) (n : BitVec 3) (s : State) : Out :=
  s.runWord (.lea d a b x n) (s.vecOp 0x27 true [⟨a.toNat, .n64, 13⟩, ⟨b.toNat, .n32, 14⟩] d.toNat true
    fun _ _ v => match v with | [y, z] => plain (lea (x == 1#1) n.toNat y z) | _ => ⟨0, 0⟩)

/-- CMP (R95, R86). -/
def execCmp (k m : BitVec 3) (a b c : BitVec 6) (s : State) : Out :=
  s.runWord (.cmp k m a b c) (s.predOp 0x28 (intEt s.et) [⟨a.toNat, s.et, 13⟩, ⟨b.toNat, s.et, 14⟩]
    (8 * k.toNat + m.toNat) (fun u _ v => match v with | [x, y] => cmpInt u.et c.toNat x y | _ => false) fun _ _ => 0#5)

/-- CMPI (R95, R86). -/
def execCmpi (k m : BitVec 3) (a : BitVec 6) (c : BitVec 3) (v : BitVec 9) (s : State) : Out :=
  s.runWord (.cmpi k m a c v) (s.predOp 0x29 (intEt s.et) [⟨a.toNat, s.et, 13⟩]
    (8 * k.toNat + m.toNat) (fun u _ xs => match xs with | [x] => cmpImm u.et c.toNat x v.toInt | _ => false)
    fun _ _ => 0#5)

/-- ADDI (R89): v applies to every element. -/
def execAddi (d a : BitVec 6) (i : BitVec 12) (s : State) : Out :=
  s.un (.addi d a i) 0x2A intEt d a fun m x => plain (elems1 m.et (fun e => m.fit (m.et.int e + i.toInt)) x)

/-- ANDI (R90): imm12 sign-extended to the operand width. -/
def execAndi (d a : BitVec 6) (i : BitVec 12) (s : State) : Out :=
  s.un (.andi d a i) 0x2B anyEt d a fun m x => plain (bitAnd m.et x (wrapTo m.et.opWidth i.toInt))

/-- ORI (R90): imm12 sign-extended to the operand width. -/
def execOri (d a : BitVec 6) (i : BitVec 12) (s : State) : Out :=
  s.un (.ori d a i) 0x2C anyEt d a fun m x => plain (bitOr m.et x (wrapTo m.et.opWidth i.toInt))

/-- XORI (R90): imm12 sign-extended to the operand width. -/
def execXori (d a : BitVec 6) (i : BitVec 12) (s : State) : Out :=
  s.un (.xori d a i) 0x2D anyEt d a fun m x => plain (bitXor m.et x (wrapTo m.et.opWidth i.toInt))

/-- SHLI (R91). -/
def execShli (d a n : BitVec 6) (s : State) : Out :=
  s.un (.shli d a n) 0x2E intEt d a fun m x => plain (shli m n.toNat x)

/-- SHRI and SHRI.A (R91). -/
def execShri (d a n : BitVec 6) (x : BitVec 1) (s : State) : Out :=
  s.un (.shri d a n x) 0x2F intEt d a fun m y => plain (shri m.et (x == 1#1) n.toNat y)

/-- LI (R96). -/
def execLi (d : BitVec 6) (i : BitVec 18) (s : State) : Out :=
  s.runWord (.li d i) (s.vecOp 0x30 true [] d.toNat false fun _ _ _ => plain (wrapTo 32 i.toInt))

/-- The old value of a destination read by LIH and CVTN (R96, R108): nk, or q0 for codes 0 and 63. -/
def Course.oldDest (c : Course) (d l : Nat) : Nat :=
  if 16 ≤ d ∧ d < 48 then ((c.lane l).named (d - 16)).toNat else ((c.lane l).age 0).toNat

/-- The old value as an operand, for the poison check (R199); the destination rule has filled it. -/
def oldUse (d : Nat) : List Use := [⟨if 16 ≤ d ∧ d < 48 then d else 0, .n32, 15⟩]

/-- An instruction that also reads its destination's old value: the register is waited for, not trapped on (R18). A poisoned
old value raises SOFTERR for every format of CVTN, the 16-bit ones, whose result takes nothing of it, included (DESIGN
CHOICE, log 105: R199 speaks of registers, and R108 does not say that those formats leave it unread). -/
def State.destOp (s : State) (op : Nat) (accepts : Bool) (uses : List Use) (d : Nat)
    (effect : Course → Nat → List Nat → Nat → Rounded) : Res :=
  s.asCourse fun _ str c =>
    match s.vecOp op accepts uses d false fun c l v => effect c l v (c.oldDest d l) with
    | .done t =>
      let act := c.active str
      let bad := maskOf fun l => act.getLsbD l && (oldUse d).any fun u => c.isPoisoned false u.code l
      if bad ≠ 0#32 then .trap .softErr 0 bad.toNat 0 else .done t
    | r => r

/-- LIH (R96). -/
def execLih (d : BitVec 6) (v : BitVec 14) (s : State) : Out :=
  s.runWord (.lih d v) (s.destOp 0x31 true [] d.toNat fun _ _ _ o => plain (lih v.toNat o))

/-- MOV (R90). -/
def execMov (d a : BitVec 6) (s : State) : Out :=
  s.un (.mov d a) 0x32 anyEt d a fun _ x => plain (x)

/-- IDOT4 (R97): C is a 32-bit word. -/
def execIdot4 (d a b c : BitVec 6) (s : State) : Out :=
  s.runWord (.idot4 d a b c) (s.vecOp 0x33 (s.et == .s8x4 || s.et == .n8x4)
    [⟨a.toNat, s.et, 13⟩, ⟨b.toNat, s.et, 14⟩, ⟨c.toNat, .n32, 15⟩] d.toNat false
    fun k _ v => match v with | [x, y, z] => plain (idot4 k.alu x y z) | _ => ⟨0, 0⟩)

/-- PMOV (R95). -/
def execPmov (k m : BitVec 3) (a : BitVec 6) (x : BitVec 1) (n : BitVec 5) (s : State) : Out :=
  s.runWord (.pmov k m a x n) (s.predOp 0x34 true [⟨a.toNat, .n32, 13⟩] (8 * k.toNat + m.toNat)
    (fun _ _ v => match v with | [y] => y.testBit n.toNat != (x == 1#1) | _ => false) fun _ _ => 0#5)

/-- PLOP (R95). -/
def execPlop (k m u v : BitVec 3) (l : BitVec 4) (s : State) : Out :=
  s.runWord (.plop k m u v l) (s.predOp 0x35 true [] (8 * k.toNat + m.toNat)
    (fun c n _ => l.getLsbD (2 * boolNat ((c.lane n).pred u.toNat) + boolNat ((c.lane n).pred v.toNat))) fun _ _ => 0#5)

end Sys2Proof.Machine
end

