-- ==== Sys2Proof/Machine/FloatOps.lean ====
section
/-! DEFINITION. Float instructions and conversions of a course (05_course_compute R98-R109). -/

namespace Sys2Proof.Machine

open Sys2Proof

/-- The element types of the float class: 4-7 (R83). -/
def floatEt (t : ElemType) : Bool := t.fmt.isSome

/-- FADD (R99). -/
def execFadd (d a b : BitVec 6) (s : State) : Out :=
  s.bin (.fadd d a b) 0x40 floatEt d a b fun m x y => fadd m x y

/-- FSUB (R99). -/
def execFsub (d a b : BitVec 6) (s : State) : Out :=
  s.bin (.fsub d a b) 0x41 floatEt d a b fun m x y => fsub m x y

/-- FMUL (R99). -/
def execFmul (d a b : BitVec 6) (s : State) : Out :=
  s.bin (.fmul d a b) 0x42 floatEt d a b fun m x y => fmul m x y

/-- FMA (R99). -/
def execFma (d a b c : BitVec 6) (s : State) : Out :=
  s.tern (.fma d a b c) 0x43 floatEt d a b c fun m x y z => fma m x y z

/-- FNMA (R99). -/
def execFnma (d a b c : BitVec 6) (s : State) : Out :=
  s.tern (.fnma d a b c) 0x44 floatEt d a b c fun m x y z => fnma m x y z

/-- FMIN (R100). -/
def execFmin (d a b : BitVec 6) (s : State) : Out :=
  s.bin (.fmin d a b) 0x45 floatEt d a b fun m x y => fminmax m false x y

/-- FMAX (R100). -/
def execFmax (d a b : BitVec 6) (s : State) : Out :=
  s.bin (.fmax d a b) 0x46 floatEt d a b fun m x y => fminmax m true x y

/-- FABS (R100). -/
def execFabs (d a : BitVec 6) (s : State) : Out :=
  s.un (.fabs d a) 0x47 floatEt d a fun m x => fsign m false x

/-- FNEG (R100). -/
def execFneg (d a : BitVec 6) (s : State) : Out :=
  s.un (.fneg d a) 0x48 floatEt d a fun m x => fsign m true x

/-- FCMP (R101, R86). -/
def execFcmp (k m : BitVec 3) (a b c : BitVec 6) (s : State) : Out :=
  s.runWord (.fcmp k m a b c) (s.predOp 0x49 (floatEt s.et) [⟨a.toNat, s.et, 13⟩, ⟨b.toNat, s.et, 14⟩]
    (8 * k.toNat + m.toNat) (fun u _ v => match v with | [x, y] => cmpFloat u.alu c.toNat x y | _ => false) fun _ _ => 0#5)

/-- FCLASS (R102). -/
def execFclass (d a : BitVec 6) (s : State) : Out :=
  s.un (.fclass d a) 0x4A floatEt d a fun m x => plain (fclass m.et x)

/-- FRCP (R103). -/
def execFrcp (d a : BitVec 6) (s : State) : Out :=
  s.un (.frcp d a) 0x4B floatEt d a fun m x => felem m .rcp x

/-- FRSQ (R103). -/
def execFrsq (d a : BitVec 6) (s : State) : Out :=
  s.un (.frsq d a) 0x4C floatEt d a fun m x => felem m .rsq x

/-- FSQRT (R103). -/
def execFsqrt (d a : BitVec 6) (s : State) : Out :=
  s.un (.fsqrt d a) 0x4D floatEt d a fun m x => felem m .sqrt x

/-- FEX2 (R103). -/
def execFex2 (d a : BitVec 6) (s : State) : Out :=
  s.un (.fex2 d a) 0x4E floatEt d a fun m x => felem m .ex2 x

/-- FLG2 (R103). -/
def execFlg2 (d a : BitVec 6) (s : State) : Out :=
  s.un (.flg2 d a) 0x4F floatEt d a fun m x => felem m .lg2 x

/-- FSIN (R103). -/
def execFsin (d a : BitVec 6) (s : State) : Out :=
  s.un (.fsin d a) 0x50 floatEt d a fun m x => felem m .sin x

/-- FCOS (R103). -/
def execFcos (d a : BitVec 6) (s : State) : Out :=
  s.un (.fcos d a) 0x51 floatEt d a fun m x => felem m .cos x

/-- FSCL (R104): B is a 32-bit word. -/
def execFscl (d a b : BitVec 6) (s : State) : Out :=
  s.runWord (.fscl d a b) (s.vecOp 0x52 (floatEt s.et) [⟨a.toNat, s.et, 13⟩, ⟨b.toNat, .n32, 14⟩] d.toNat s.et.wide
    fun c _ v => match v with | [x, y] => fscl c.alu x y | _ => ⟨0, 0⟩)

/-- FRND (R105). -/
def execFrnd (d a : BitVec 6) (s : State) : Out :=
  s.un (.frnd d a) 0x53 floatEt d a fun m x => frnd m x

/-- A conversion that may be stochastic: with RM = 5 it advances SRSEEDV once and uses the new state (R74, R107). -/
def State.convOp (s : State) (rule : Nat → Res) : Res :=
  s.asCourse fun k _ c =>
    if bitsOf c.mode.toNat 10 8 = 5 then
      let st := srStep c.srSeedV.toNat
      match rule st with
      | .done t => .done (t.modCourse k fun x => { x with srSeedV := BitVec.ofNat 32 st })
      | r => r
    else rule 0

/-- CVT (R107): the element counts of both types must agree. -/
def execCvt (d a : BitVec 6) (t : BitVec 4) (s : State) : Out :=
  let src := (ElemType.ofCode t.toNat).getD .s32
  s.runWord (.cvt d a t)
    (if src.count ≠ s.et.count then illegalAt 0x54 4 3
     else s.convOp fun st => s.vecOp 0x54 true [⟨a.toNat, src, 13⟩] d.toNat s.et.wide
       fun c l v => match v with | [x] => cvt c.alu src st l x | _ => ⟨0, 0⟩)

/-- CVTN (R108): funnelled into the destination's old value. -/
def execCvtn (d a b : BitVec 6) (f : BitVec 4) (s : State) : Out :=
  let nf := (NarrowFmt.ofCode f.toNat).getD (.flt .bf16)
  s.runWord (.cvtn d a b f)
    (s.convOp fun st => s.destOp 0x55 (s.et == .s32 || s.et == .n32 || s.et == .f32)
      [⟨a.toNat, s.et, 13⟩, ⟨b.toNat, s.et, 14⟩] d.toNat
      fun c l v o => match v with | [x, y] => cvtn c.alu nf st l x y o | _ => ⟨0, 0⟩)

/-- CVTW (R109): A is a 32-bit word, B as wide as ET's operands (R84). -/
def execCvtw (d a b : BitVec 6) (f : BitVec 4) (s : State) : Out :=
  let nf := (NarrowFmt.ofCode f.toNat).getD (.flt .bf16)
  s.runWord (.cvtw d a b f)
    (s.vecOp 0x56 (s.et == .s32 || s.et == .n32 || s.et == .f32 || s.et == .f64)
      [⟨a.toNat, .n32, 13⟩, ⟨b.toNat, if s.et.wide then .n64 else .n32, 14⟩] d.toNat s.et.wide
      fun c _ v => match v with | [x, y] => cvtw c.alu nf x y | _ => ⟨0, 0⟩)

/-- FDOT2 (R106): C is an F32 word, the result F32. -/
def execFdot2 (d a b c : BitVec 6) (s : State) : Out :=
  s.runWord (.fdot2 d a b c) (s.vecOp 0x57 (s.et == .bf16x2 || s.et == .h16x2)
    [⟨a.toNat, s.et, 13⟩, ⟨b.toNat, s.et, 14⟩, ⟨c.toNat, .f32, 15⟩] d.toNat false
    fun k _ v => match v with | [x, y, z] => fdot2 k.alu x y z | _ => ⟨0, 0⟩)

end Sys2Proof.Machine
end

