-- ==== Sys2Proof/Machine/LaneOps.lean ====
section
/-! DEFINITION. Lane exchange, votes and reductions (05_course_compute R110-R116). -/

namespace Sys2Proof.Machine

open Sys2Proof

/-- The element types of RDX and SCAN: 0-5 (R83). -/
def redEt (t : ElemType) : Bool := decide (t.count = 1)

/-- Source lane of SHFL (R111). -/
def shflLane (mode l b : Nat) : Nat :=
  match mode with
  | 0 => b % 32
  | 1 => l ^^^ (b % 32)
  | 2 => if b ≤ l then l - b else l
  | _ => if l + b ≤ 31 then l + b else l

/-- SHFL (R111): A is checked in every lane of the mask, B in the guard-true ones. When A and B are poisoned in different
lanes, SOFTERR names A's lanes alone (DESIGN CHOICE, log 105: R199 speaks of one register). -/
def execShfl (d a b : BitVec 6) (m : BitVec 2) (s : State) : Out :=
  s.runWord (.shfl d a b m) (s.asCourse fun k str c =>
    let mask := c.mask str
    let act := c.active str
    let ua : List Use := [⟨a.toNat, c.et, 13⟩]
    let ub : List Use := [⟨b.toNat, .n32, 14⟩]
    let trapA := match c.checks mask ua none with | some (.trap .emptyRead _ x _) => x | _ => 0
    let trapB := match c.checks act ub none with | some (.trap .emptyRead _ x _) => x | _ => 0
    if trapA ||| trapB ≠ 0 then .trap .emptyRead 0 (trapA ||| trapB) 0
    else match c.checks mask ua none, c.checks act ub (some (d.toNat, c.et.wide)) with
    | some .wait, _ => .wait
    | _, some .wait => .wait
    | some r, _ => r
    | _, some r => r
    | none, none =>
      let val (l : Nat) : Nat :=
        let src := shflLane m.toNat l (c.src .n32 b.toNat l)
        c.src c.et a.toNat (if mask.getLsbD src then src else l)
      .done (s.setCourse k (c.deliver mask act d.toNat c.et.wide val)))

/-- VOTE (R112). -/
def execVote (d : BitVec 6) (n : BitVec 1) (k : BitVec 3) (m : BitVec 6) (s : State) : Out :=
  s.runWord (.vote d n k m) (s.asCourse fun _ str c =>
    let act := c.active str
    let t := maskOf fun l => act.getLsbD l && ((c.lane l).pred k.toNat != (n == 1#1))
    let v := match m.toNat with
      | 0 => t.toNat
      | 1 => boolNat (t != 0#32)
      | 2 => boolNat (t == act)
      | _ => (lanesOf t).length
    .done (s.gdst false d.toNat v))

/-- The course as BCST reads lane l of it (R113): a lane of the other slot, as it was before that slot's issue in the
same cycle. -/
def State.laneView (s : State) (k : Nat) (c : Course) (l : Nat) : Course :=
  match s.before with
  | some b => if b.key = k ∧ b.course.header.mask.getLsbD l then { c with lanes := b.course.lanes } else c
  | none => c

/-- BCST (R113): only the named lane is checked, whatever the mask and guard. -/
def execBcst (d a b : BitVec 6) (s : State) : Out :=
  s.runWord (.bcst d a b) (s.asCourse fun k _ c =>
    let v := s.laneView k c b.toNat
    match v.checks (maskOf fun l => decide (l = b.toNat)) [⟨a.toNat, c.et, 13⟩] none with
    | some r => r
    | none => .done (s.gdst c.et.wide d.toNat (v.src c.et a.toNat b.toNat)))

/-- The values RDX and SCAN combine: the identity in every lane that takes no part (R114). -/
def redLanes (c : Course) (act : Word) (op : RedOp) (a : Nat) : List Nat :=
  (List.range 32).map fun l => if act.getLsbD l then c.src c.et a l else RedOp.identity c.et op

/-- RDX (R114). -/
def execRdx (a p : BitVec 6) (s : State) : Out :=
  s.runWord (.rdx a p) (s.asCourse fun k str c =>
    if !redEt c.et then etIllegal 0x63
    else
      let act := c.active str
      match c.checks act [⟨a.toNat, c.et, 13⟩] none, RedOp.ofCode p.toNat with
      | some r, _ => r
      | none, some op =>
        let r := reduce c.alu op (redLanes c act op a.toNat)
        .done (s.setCourse k { c with
          sc := { c.sc with red := BitVec.ofNat 64 r.1, redSeq := c.sc.redSeq + 1#16 },
          fpflags := c.fpflags ||| (if act = 0#32 then 0#5 else r.2) })
      | none, none => .wait)

/-- RDXW.WAIT (R115): not ready until the sequence reaches ga. -/
def execRdxwWait (d a : BitVec 6) (s : State) : Out :=
  s.runWord (.rdxwWait d a) (s.groupOp [(a.toNat, false)] fun sc =>
    if (sc.redSeq.toNat + 65536 - bitsOf (sc.src false a.toNat) 15 0) % 65536 < 32768 then
      .done (s.gdst s.gwide d.toNat sc.red.toNat)
    else .wait)

/-- RDXW.SEQ (R115). -/
def execRdxwSeq (d : BitVec 6) (s : State) : Out :=
  s.runWord (.rdxwSeq d) (.done (s.gdst false d.toNat s.sc.redSeq.toNat))

/-- RDXW.SET (R115). -/
def execRdxwSet (a b : BitVec 6) (s : State) : Out :=
  s.runWord (.rdxwSet a b) (s.groupOp [(a.toNat, s.gwide), (b.toNat, false)] fun sc =>
    .done (s.setScalar s.cur { sc with red := BitVec.ofNat 64 (sc.src s.gwide a.toNat),
                                       redSeq := BitVec.ofNat 16 (sc.src false b.toNat) }))

/-- SCAN (R116). -/
def execScan (d a p : BitVec 6) (s : State) : Out :=
  s.runWord (.scan d a p) (s.asCourse fun k str c =>
    if !redEt c.et then etIllegal 0x65
    else
      let act := c.active str
      match c.checks act [⟨a.toNat, c.et, 13⟩] (some (d.toNat, c.et.wide)), RedOp.ofCode p.toNat with
      | some r, _ => r
      | none, some op =>
        let r := scan c.alu op (redLanes c act op a.toNat)
        let c' := c.deliver (c.mask str) act d.toNat c.et.wide fun l => r.1.getD l 0
        .done (s.setCourse k { c' with fpflags := c'.fpflags ||| (if act = 0#32 then 0#5 else r.2) })
      | none, none => .wait)

end Sys2Proof.Machine
end

