-- ==== Sys2Proof/Machine/Control.lean ====
section
/-! DEFINITION. MODE, special registers, branches and group-wide arithmetic (06_course_control R117-R120, R123-R141;
R25, R115). EXIT and ERET stand with the barriers they may complete, GLD and GST with memory. -/

namespace Sys2Proof.Machine

open Sys2Proof

/-- NOP (R45). -/
def execNop (s : State) : Out := s.runWord .nop (.done s)

/-- Whether a word is a MODE without a reserved value (R24). -/
def modeOk (m : Nat) : Bool :=
  decide (m < 2 ^ 20) && decide (bitsOf m 19 16 < 4) && decide (bitsOf m 10 8 < 6) && decide (bitsOf m 7 4 < 12)

/-- MODE with the field of an id replaced (R117). -/
def setModeField (c : Course) (id v : Nat) : Nat :=
  let m := c.mode.toNat
  match id with
  | 0 => setBits m 3 0 v
  | 1 => setBits m 7 4 v
  | 2 => setBits m 10 8 v
  | 3 => setBits m 11 11 v
  | 4 => setBits m 12 12 v
  | 5 => setBits m 15 13 v
  | 6 => setBits m 19 16 v
  | 7 => setBits m 12 0 v
  | _ => c.sc.read false (v % 32)

/-- SETM (R117, R118). Its ILLMODE reports TINFO 0 (DESIGN CHOICE, log 105: R117 names none). -/
def execSetm (k : BitVec 4) (v : BitVec 14) (s : State) : Out :=
  s.runWord (.setm k v) (s.asCourse fun key _ c =>
    match (if k = 8#4 then c.sc.checks [(v.toNat % 32, false)] else none) with
    | some r => r
    | none =>
      let m := setModeField c k.toNat v.toNat
      if modeOk m then .done (s.setCourse key { c with mode := BitVec.ofNat 32 m }) else .trap .illMode 0 0 0)

/-- GETM (R119). -/
def execGetm (d : BitVec 6) (s : State) : Out :=
  s.runWord (.getm d) (s.asCourse fun _ _ c => .done (s.gdst false d.toNat c.mode.toNat))

/-- YIELD (R120): the slot's rank in the next issue decision only. -/
def execYield (s : State) : Out := s.runWord .yield (.done s)

/-- TRAP (R123). -/
def execTrap (i : BitVec 18) (s : State) : Out := s.runWord (.trap i) (.trap .swTrap 0 0 i.toNat)

/-- BKPT (R123). -/
def execBkpt (i : BitVec 18) (s : State) : Out := s.runWord (.bkpt i) (.trap .bkpt 0 0 i.toNat)

/-! ## Special registers (R25, R124, R125) -/

/-- A signed quantity saturated to S32, as a word (R311). -/
def satS32 (x : Int) : Nat := wrapTo 32 (clampInt true 32 x)

/-- The time left to a deadline, 0 without one (R311). -/
def slackOf (deadline now : Nat) : Nat := if deadline = 0 then 0 else satS32 ((deadline : Int) - (now : Int))

/-- Credits a package holds toward a peer (R413). -/
def State.creditsLeft (s : State) (pkg j : Nat) : Nat :=
  (s.pkg pkg).credTotal - SMap.getD (s.pkg pkg).credits 0 j

/-- ALW of a slot in a package (R413, R422, R270). -/
def State.allowance (s : State) (pkg slot : Nat) : Nat :=
  if slot < 16 then
    if slot = pkg then 0xFFFFFFFF
    else if bitsOf (s.reg pkg (wallBase + 0x100 + 8 * slot)) 31 30 = 2 then 0
    else if (s.pkg pkg).flags.any fun f => decide (f.src = pkg) && decide (f.dst = slot) then 0
    else s.creditsLeft pkg slot
  else
    let g := slot - 16
    let held := (List.range 4).filterMap fun i =>
      match SMap.find? (s.pkg pkg).bars (4 * g + i) with
      | some b => if b.state = 3 then some (b.credits - b.used) else none
      | none => none
    held.foldl min 0xFFFFFFFF

/-- A word of a monitor channel (R320). -/
def Monitor.word (m : Monitor) (w : Nat) : Nat :=
  match w with
  | 0 => boolNat m.en * 2 ^ 31 + m.param.toNat * 2 ^ 8 + m.src.toNat
  | 1 => m.min.toNat
  | 2 => m.max.toNat
  | 3 => m.count.toNat
  | 4 => m.binSel.toNat
  | 5 => (SMap.getD m.bins 0#32 m.binSel.toNat).toNat
  | _ => 0

/-- Writing a word of a monitor channel (R320). -/
def Monitor.write (m : Monitor) (w v : Nat) : Monitor :=
  match w with
  | 0 => { m with en := v.testBit 31 && decide (bitsOf v 7 0 ≤ 5), param := BitVec.ofNat 8 (v / 2 ^ 8),
                  src := BitVec.ofNat 8 v }
  | 4 => { m with binSel := BitVec.ofNat 5 v }
  | 6 => if v.testBit 0 then { m with count := 0#32, max := 0#32, min := 0xFFFFFFFF#32, bins := [] } else m
  | _ => m

/-- A sample taken into a channel's statistics. -/
def Monitor.sample (m : Monitor) (v : Nat) : Monitor :=
  if !m.en then m
  else
    let b := Nat.min 31 (bitLen v)
    let up (x : Word) : Word := if x = 0xFFFFFFFF#32 then x else x + 1#32
    { m with min := BitVec.ofNat 32 (Nat.min m.min.toNat v), max := BitVec.ofNat 32 (Nat.max m.max.toNat v),
             count := up m.count, bins := SMap.setD m.bins 0#32 b (up (SMap.getD m.bins 0#32 b)) }

/-- Changing a channel of a quad, or of a die's own. -/
def State.modMonitor (s : State) (die : Bool) (n ch : Nat) (f : Monitor → Monitor) : State :=
  let at' (v : Vector Monitor 8) : Vector Monitor 8 := Vector.ofFn fun i => if i.val = ch then f v[i] else v[i]
  if die then s.modDie n fun d => { d with monitors := at' d.monitors }
  else s.modQuad n fun q => { q with monitors := at' q.monitors }

/-- What is measured when it ends, sampled by the channels of its source: those of a core's quad and of its die (R320). -/
def State.sampleSource (s : State) (core src v : Nat) : State :=
  let mine (m : Monitor) : Bool := m.en && decide (m.src.toNat = src)
  let take (m : Monitor) : Monitor := if mine m then m.sample (v % 2 ^ 32) else m
  let q := s.quad (quadOfCore core)
  let s := if q.monitors.any mine then s.setQuad (quadOfCore core) { q with monitors := q.monitors.map take } else s
  let d := s.die (dieOfCore core)
  if d.monitors.any mine then s.setDie (dieOfCore core) { d with monitors := d.monitors.map take } else s

/-- The measured frequency of a quad in kHz (R300): what its fused table gives at VSET or, as its supply droops, less, down
to the 950 MHz of R3 (a free value, log 22). -/
def State.quadKhz (s : State) (q i : Nat) : Nat :=
  let f := 50 * freq20 q (bitsOf (s.reg (q / 192) (quadBase (q / 24 % 8) (q % 24) + 4)) 19 10)
  f - (s.draw i).toNat % (f - 949999)

/-- Cycles of a quad in a time in ns (R6). -/
def State.cyclesIn (s : State) (q ns : Nat) : Nat := ns * s.quadKhz q 0 / 1000000

/-- A load's time from issue to full, of its lowest lane (R320 source 0). -/
def State.sampleLoad (s : State) (core since : Nat) : State :=
  s.sampleSource core 0 (s.cyclesIn (quadOfCore core) ((s.pkg (pkgOfCore core)).time - since))

/-- Access of a special register: RO or RW, and whether reading or writing is for handlers only (R25). -/
structure SpecialInfo where
  ro : Bool
  readPriv : Bool
  writePriv : Bool
  /-- low number of a 64-bit register -/
  low : Bool

def specialInfo (n : Nat) : Option SpecialInfo :=
  if n = 0x002 ∨ n = 0x00B ∨ n = 0x00D ∨ n = 0x048 then some ⟨true, false, false, true⟩
  else if n = 0x062 then some ⟨true, true, true, true⟩
  else if n = 0x070 then some ⟨false, false, true, true⟩
  else if n = 0x071 then some ⟨false, false, true, false⟩
  else if (1 ≤ n ∧ n ≤ 0x00E) ∨ (0x018 ≤ n ∧ n ≤ 0x01A) ∨ (0x020 ≤ n ∧ n ≤ 0x03F) ∨ n = 0x049 ∨ n = 0x050 then
    some ⟨true, false, false, false⟩
  else if (0x010 ≤ n ∧ n ≤ 0x013) ∨ n = 0x040 ∨ n = 0x080 then some ⟨false, false, false, false⟩
  else if 0x060 ≤ n ∧ n ≤ 0x065 then some ⟨true, true, true, false⟩
  else if 0x100 ≤ n ∧ n ≤ 0x13F then some ⟨false, false, true, false⟩
  else none

/-- The value of a special register word in a course (R25, R311). -/
def State.special (s : State) (t : Team) (c : Course) (n : Nat) : Nat :=
  let die := dieOfCore t.core
  let pkg := die / 8
  let k := (s.die die).kcore
  let now := (s.pkg pkg).time
  match n with
  | 0x001 => c.cid
  | 0x002 => t.tid.toNat % 2 ^ 32
  | 0x003 => t.tid.toNat / 2 ^ 32
  | 0x004 => t.launch.teams
  | 0x005 => t.core % 96
  | 0x006 => t.core % 96 / 4
  | 0x007 => die % 8
  | 0x008 => pkg
  | 0x009 => Config.wallId.toNat
  | 0x00A => t.spSize
  | 0x00B => t.launch.cntBase.toNat % 2 ^ 32
  | 0x00C => t.launch.cntBase.toNat / 2 ^ 32
  | 0x00D => t.launch.arg.toNat % 2 ^ 32
  | 0x00E => t.launch.arg.toNat / 2 ^ 32
  | 0x010 => c.fpflags.toNat
  | 0x011 => c.srSeedV.toNat
  | 0x012 => c.srSeedO.toNat
  | 0x013 => t.srSeedM.toNat
  | 0x018 => k.stepId.toNat
  | 0x019 => slackOf k.stepDl now
  | 0x01A => s.quadKhz (quadOfCore t.core) 0
  | 0x040 => c.alwLow.toNat
  | 0x048 => now % 2 ^ 32
  | 0x049 => now / 2 ^ 32 % 2 ^ 32
  | 0x050 => c.charge.toNat
  | 0x060 => c.tcause.toNat
  | 0x061 => c.tpc.toNat
  | 0x062 => c.taddr.toNat % 2 ^ 32
  | 0x063 => c.taddr.toNat / 2 ^ 32
  | 0x064 => c.tmask.toNat
  | 0x065 => c.tinfo.toNat
  | 0x070 => c.hbase.toNat % 2 ^ 32
  | 0x071 => c.hbase.toNat / 2 ^ 32
  | 0x080 => c.splitSp.toNat
  | _ =>
    if 0x020 ≤ n ∧ n ≤ 0x03F then s.allowance pkg (n - 0x020)
    else if 0x100 ≤ n ∧ n ≤ 0x13F then
      (let m := (s.quad (quadOfCore t.core)).monitors
       let i := (n - 0x100) / 8
       if h : i < 8 then m[i].word (n % 8) else 0)
    else 0

/-- GSR and GSW share their checks (R124): ILLEGAL or PRIV, none when the access may proceed. -/
def specialCheck (c : Course) (op n : Nat) (write wide : Bool) : Option Res :=
  match specialInfo n with
  | none => some (illegalAt op 5 3)
  | some i =>
    if wide && !i.low then some (illegalAt op 5 3)
    else if write && i.ro then some (illegalAt op 5 3)
    else if !c.handler && (if write then i.writePriv else i.readPriv) then
      some (.trap .priv 0 0 (tinfoOf op 5 0 0x11).toNat)
    else none

/-- GSR (R124). -/
def execGsr (d : BitVec 6) (n : BitVec 12) (s : State) : Out :=
  s.runWord (.gsr d n) (s.asCourse fun k _ c =>
    match specialCheck c 0x07 n.toNat false c.gt.wide, s.team? (k / 16) with
    | some r, _ => r
    | none, some t =>
      let v := s.special t c n.toNat + if c.gt.wide then 2 ^ 32 * s.special t c (n.toNat + 1) else 0
      .done (s.tick.gdst c.gt.wide d.toNat v)
    | none, none => .wait)

/-- Storing a special register (R125); `v` is the word, or the pair of a 64-bit register. The ALIGN of SPLITSP and HBASE
reports TADDR 0 and TINFO the alignment (DESIGN CHOICE, log 105: R125 gives no address). -/
def State.setSpecial (s : State) (k n v : Nat) (wide : Bool) : Res :=
  let c32 := BitVec.ofNat 32 v
  let store (f : Course → Course) : Res := .done (s.modCourse k f)
  let seed : Word := if c32 = 0#32 then 1#32 else c32
  match n with
  | 0x010 => store fun c => { c with fpflags := BitVec.ofNat 5 v }
  | 0x011 => store fun c => { c with srSeedV := seed }
  | 0x012 => store fun c => { c with srSeedO := seed }
  | 0x013 => .done (s.modTeam (k / 16) fun t => { t with srSeedM := seed })
  | 0x040 => store fun c => { c with alwLow := c32 }
  | 0x080 => if v % 16 ≠ 0 then .trap .align 0 0 16 else store fun c => { c with splitSp := c32 }
  | 0x070 =>
    if v % 4 ≠ 0 then .trap .align 0 0 4
    else store fun c => { c with hbase := BitVec.ofNat 64 (if wide then v else c.hbase.toNat / 2 ^ 32 * 2 ^ 32 + v % 2 ^ 32) }
  | 0x071 => store fun c => { c with hbase := BitVec.ofNat 64 (c.hbase.toNat % 2 ^ 32 + v % 2 ^ 32 * 2 ^ 32) }
  | _ =>
    if 0x100 ≤ n ∧ n ≤ 0x13F then
      match s.team? (k / 16) with
      | some t => .done (s.modQuad (quadOfCore t.core) fun q =>
          { q with monitors := Vector.ofFn (fun i : Fin 8 =>
              (if i.val = (n - 0x100) / 8 then (q.monitors[i]).write (n % 8) v else q.monitors[i])) })
      | none => .wait
    else .wait

/-- GSW (R124, R125). -/
def execGsw (a : BitVec 6) (n : BitVec 12) (s : State) : Out :=
  s.runWord (.gsw a n) (s.asCourse fun k _ c =>
    match specialCheck c 0x08 n.toNat true c.gt.wide, c.sc.checks [(a.toNat, c.gt.wide)] with
    | some r, _ => r
    | none, some r => r
    | none, none => s.setSpecial k n.toNat (c.sc.src c.gt.wide a.toNat) c.gt.wide)

/-! ## Branches, calls and loops (R126-R136) -/

/-- The target of a branch (R30). -/
def State.target (s : State) (o : BitVec 20) : Nat := wrapTo 32 ((s.pc : Int) + 4 * o.toInt)

/-- Moving to a target, or on (R127). -/
def State.branch (s : State) (taken : Bool) (o : BitVec 20) : Res :=
  .jumped (s.goto (if taken then s.target o else s.pc + 4))

/-- BRA (R128). -/
def execBra (n : BitVec 1) (p : BitVec 3) (o : BitVec 20) (s : State) : Out :=
  s.runWord (.bra n p o) (s.branch (s.sc.pred p.toNat != (n == 1#1)) o)

/-- BRC's effect (R129): T is the set of lanes that take the branch. Its traps report TADDR and TMASK 0 (log 105). -/
def State.split (s : State) (k : Nat) (str : Bool) (c : Course) (t : Team) (tk : Word) (target : Word) : Res :=
  let x := c.slot str
  let y := c.slot (!str)
  let go (pc : Word) : Res := .jumped (s.setCourse k (c.setSlot str { x with pc := pc, replay := none, hold := .free }))
  if tk = 0#32 then go (x.pc + 4#32)
  else if tk = x.mask then go target
  else
    let n := x.id + 1#16
    let e : Slot := { Slot.free with pc := target, mask := tk, id := n }
    let x' : Slot := { Slot.free with pc := x.pc + 4#32, mask := x.mask &&& ~~~ tk, id := n }
    if y.mask = 0#32 then .jumped (s.setCourse k ((c.setSlot str x').setSlot (!str) e))
    else if c.handler || decide (32 ≤ c.depth) then .trap .splitOvf 0 0 0
    else if !stackIn t c c.depth then .trap .spBound 0 0 0
    else
      let o := c.splitSp.toNat + 16 * c.depth
      .jumped ((s.setTeam (k / 16) (t.spWrite o (stackBytes e))).setCourse k
        (({ c with depth := c.depth + 1 }).setSlot str x'))

/-- BRC (R129): the guard of MODE does not apply. -/
def execBrc (n : BitVec 1) (p : BitVec 3) (o : BitVec 20) (s : State) : Out :=
  s.runWord (.brc n p o) (s.asCourse fun k str c =>
    match s.team? (k / 16) with
    | some t =>
      s.split k str c t (maskOf fun l => (c.slot str).mask.getLsbD l && ((c.lane l).pred p.toNat != (n == 1#1)))
        (BitVec.ofNat 32 (s.target o))
    | none => .wait)

/-- The cases of JOIN (R130): the course after the case that applies, none when case 6 does, or a trap; `swapped` brings case
4's new top entry. With a top entry that lies beyond SPSIZE, JOIN traps SPBOUND as soon as it has to read it, whichever of
cases 3 to 6 would apply (DESIGN CHOICE, log 105: R130 names SPBOUND for cases 3 and 4). -/
inductive JoinRes where
  | moved (c : Course)
  | merged (c : Course)
  | swapped (c : Course) (top : Slot)
  | stuck
  | bad (c : Cause) (tinfo : Nat)

def joinCase (t : Team) (c : Course) (str : Bool) : JoinRes :=
  let x := c.slot str
  let y := c.slot (!str)
  let on (m : Word) (id : BitVec 16) : Slot := { Slot.free with pc := x.pc + 4#32, mask := m, id := id }
  if x.id = 0#16 then .moved (c.setSlot str { x with pc := x.pc + 4#32, replay := none, hold := .free })
  else if y.mask ≠ 0#32 ∧ y.pc = x.pc ∧ y.id = x.id then
    .merged { c with header := on (x.mask ||| y.mask) (x.id - 1#16), stretcher := Slot.free }
  else
    let d := c.effDepth
    if 0 < d ∧ !stackIn t c (d - 1) then .bad .spBound 0
    else
      let e := stackEntry t c (d - 1)
      if 0 < d ∧ e.id = x.id then
        (if t.spPoisoned (c.splitSp.toNat + 16 * (d - 1)) 16 then .bad .softErr 0
         else if e.pc = x.pc then
           .moved (({ c with depth := c.depth - 1 }).setSlot str (on (x.mask ||| e.mask) (x.id - 1#16)))
         else .swapped (c.setSlot str { e with pc := e.pc &&& 0xFFFFFFFC#32 })
           { Slot.free with pc := x.pc, mask := x.mask, id := x.id })
      else if (y.mask = 0#32 ∨ y.id < x.id) ∧ ((List.range d).all fun n => decide ((stackEntry t c n).id < x.id)) then
        .moved (c.setSlot str (on x.mask (x.id - 1#16)))
      else .stuck

/-- The lanes of a slot. -/
def Course.slotMask (c : Course) (str : Bool) : Word := (c.slot str).mask

/-- Whether the other slot stands at a JOIN in case 6 too (R130): its word must be a JOIN. -/
def otherStuck (t : Team) (c : Course) (str : Bool) (word : Word → Option Word) : Bool :=
  let y := c.slot (!str)
  decide (y.mask ≠ 0#32) && decide (word y.pc = some 0x72000000#32) &&
    (match joinCase t c (!str) with | .stuck => true | _ => false)

/-- The word at a PC of a course, when it can be fetched: used only to see whether the other slot stands at a JOIN. -/
def State.peekWord (s : State) (t : Team) (c : Course) (pc : Word) : Option Word :=
  let va := (if c.handler then c.hbase.toNat else t.launch.code.toNat) + pc.toNat
  match s.translate t.xlat va .fetch false with
  | .ok pa leaf => some (BitVec.ofNat 32 (s.natUnder pa 4 (leafKey leaf)))
  | _ => none

/-- An access of a course under way, taken as one of all its lanes. -/
def Flight.widen (x : Flight) (k : Nat) : Flight :=
  match x with
  | .load y => if y.key = k then .load { y with mask := 0xFFFFFFFF#32 } else x
  | .atom y => (match y.owner with | .course j _ => if j = k then .atom { y with mask := 0xFFFFFFFF#32 } else x | _ => x)
  | .value y => if y.key = k then .value { y with mask := 0xFFFFFFFF#32 } else x
  | .spad y => if y.key = k then .spad { y with mask := 0xFFFFFFFF#32 } else x
  | .group y => (match y.agent, y.op with
    | .course j _, .load pa va size _ fwd version asked key =>
      if j = k then .group { y with op := .load pa va size 0xFFFFFFFF#32 fwd version asked key } else x
    | _, _ => x)
  | .ack .. | .promote .. | .promoted _ => x

/-- What a JOIN that merges lanes does to the accesses issued before it: they precede, in program order, every access that
either slot issues after it (R11; log 104). -/
def State.joinLanes (s : State) (k : Nat) : State :=
  ({ s with flights := SMap.mapVals s.flights fun f => f.widen k }).modCourse k fun c =>
    { c with sb := c.sb.map fun (e : SbEntry) => if e.valid then { e with lanes := 0xFFFFFFFF#32 } else e,
             seen := c.seen.map fun (x : Seen) => { x with lanes := 0xFFFFFFFF#32 } }

/-- JOIN (R130-R132). Its traps report TADDR and TMASK 0 (log 105). -/
def execJoin (s : State) : Out :=
  s.runWord .join (s.asCourse fun k str c =>
    match s.team? (k / 16) with
    | none => .wait
    | some t =>
      match joinCase t c str with
      | .moved c' =>
        let s := s.setCourse k c'
        .jumped (if c'.slotMask str = c.slotMask str then s else s.joinLanes k)
      | .merged c' =>
        (match refillFails t c' with
         | some (ca, ti) => .trap ca 0 0 ti
         | none => .jumped ((s.setCourse k (c'.refill t true)).joinLanes k))
      | .swapped c' top =>
        .jumped ((s.setTeam (k / 16) (t.spWrite (c.splitSp.toNat + 16 * (c.effDepth - 1)) (stackBytes top))).setCourse k c')
      | .bad ca ti => .trap ca 0 0 ti
      | .stuck =>
        if otherStuck t c str (s.peekWord t c) then
          .stay (s.trapCourse k false .splitOvf c.header.pc 0#64 0#32 1#32)
        else .wait)

/-- CALL (R133). -/
def execCall (o : BitVec 20) (s : State) : Out :=
  s.runWord (.call o) (.jumped ((s.gdst false 31 (s.pc + 4)).goto (s.target o)))

/-- A computed target (R127): ALIGN when it is not a word's, with TADDR the target: in a processor the 32-bit register's
value, without PC bits [63:32] (DESIGN CHOICE, log 105: R127 does not say). -/
def jumpTo (pc : Nat) (t : State) : Res :=
  if pc % 4 ≠ 0 then .trap .align pc 0 4 else .jumped (t.goto pc)

/-- RET (R133). -/
def execRet (s : State) : Out :=
  s.runWord .ret (s.groupOp [(31, false)] fun sc => jumpTo (sc.read false 31) s)

/-- JMPI and JMPI.L (R133): ga is read before g31 is written. -/
def execJmpi (a : BitVec 6) (l : BitVec 1) (s : State) : Out :=
  s.runWord (.jmpi a l) (s.groupOp [(a.toNat, false)] fun sc =>
    jumpTo (sc.src false a.toNat) (if l = 1#1 then s.gdst false 31 (s.pc + 4) else s))

/-- LOOP (R134). -/
def execLoop (k : BitVec 4) (o : BitVec 20) (s : State) : Out :=
  s.runWord (.loop k o) (s.groupOp [(k.toNat, false)] fun sc =>
    let v := (sc.read false k.toNat + (2 ^ 32 - 1)) % 2 ^ 32
    (s.gdst false k.toNat v).branch (decide (v ≠ 0)) o)

/-- BALW (R135). -/
def execBalw (k : BitVec 4) (o : BitVec 20) (s : State) : Out :=
  s.runWord (.balw k o) (s.asCourse fun _ _ c =>
    match c.sc.checks [(k.toNat, false)] with
    | some r => r
    | none =>
      s.branch (decide (s.allowance (s.pkgOf s.cur) (c.sc.read false k.toNat % 32) < c.alwLow.toNat)) o)

/-! ## Group-wide arithmetic (R137-R140) -/

/-- A group-wide operation of two sources (R138): exact, modulo 2^w. -/
def State.gbin (s : State) (i : Instr) (d a b : BitVec 6) (f : AluMode → Nat → Nat → Nat) : Out :=
  s.runWord i (s.groupOp [(a.toNat, s.gwide), (b.toNat, s.gwide)] fun sc =>
    .done (s.gdst s.gwide d.toNat (f (groupAlu (s.gt s.cur)) (sc.src s.gwide a.toNat) (sc.src s.gwide b.toNat))))

/-- GADD (R138). -/
def execGadd (d a b : BitVec 6) (s : State) : Out := s.gbin (.gadd d a b) d a b iadd
/-- GSUB (R138). -/
def execGsub (d a b : BitVec 6) (s : State) : Out := s.gbin (.gsub d a b) d a b isub
/-- GMUL (R138). -/
def execGmul (d a b : BitVec 6) (s : State) : Out := s.gbin (.gmul d a b) d a b imul
/-- GAND (R138). -/
def execGand (d a b : BitVec 6) (s : State) : Out := s.gbin (.gand d a b) d a b fun m => bitAnd m.et
/-- GOR (R138). -/
def execGor (d a b : BitVec 6) (s : State) : Out := s.gbin (.gor d a b) d a b fun m => bitOr m.et
/-- GXOR (R138). -/
def execGxor (d a b : BitVec 6) (s : State) : Out := s.gbin (.gxor d a b) d a b fun m => bitXor m.et
/-- GSHL (R138). -/
def execGshl (d a b : BitVec 6) (s : State) : Out := s.gbin (.gshl d a b) d a b shl
/-- GSHR (R138). -/
def execGshr (d a b : BitVec 6) (s : State) : Out := s.gbin (.gshr d a b) d a b fun m => shr m.et
/-- GSAR (R138). -/
def execGsar (d a b : BitVec 6) (s : State) : Out := s.gbin (.gsar d a b) d a b fun m => sar m.et
/-- GMIN (R138). -/
def execGmin (d a b : BitVec 6) (s : State) : Out := s.gbin (.gmin d a b) d a b imin
/-- GMAX (R138). -/
def execGmax (d a b : BitVec 6) (s : State) : Out := s.gbin (.gmax d a b) d a b imax

/-- GCMP (R139). -/
def execGcmp (k m : BitVec 3) (a b c : BitVec 6) (s : State) : Out :=
  s.runWord (.gcmp k m a b c) (s.groupOp [(a.toNat, s.gwide), (b.toNat, s.gwide)] fun sc =>
    let r := cmpInt (s.gt s.cur) c.toNat (sc.src s.gwide a.toNat) (sc.src s.gwide b.toNat)
    .done (s.setScalar s.cur (sc.setPred k.toNat (combinePred m.toNat (sc.pred k.toNat) r))))

/-- GLI (R140). -/
def execGli (d : BitVec 6) (v : BitVec 17) (s : State) : Out :=
  s.runWord (.gli d v) (.done (s.gdst false d.toNat (wrapTo 32 v.toInt)))

/-- GLI.H (R140): a discarded result reads no register. -/
def execGliH (d : BitVec 6) (v : BitVec 15) (s : State) : Out :=
  s.runWord (.gliH d v) (s.groupOp [(d.toNat, false)] fun sc =>
    .done (s.gdst false d.toNat (v.toNat * 2 ^ 17 + bitsOf (sc.src false d.toNat) 16 0)))

/-- GADDI (R138). -/
def execGaddi (d a : BitVec 6) (i : BitVec 12) (s : State) : Out :=
  s.runWord (.gaddi d a i) (s.groupOp [(a.toNat, s.gwide)] fun sc =>
    let w := if s.gwide then 64 else 32
    .done (s.gdst s.gwide d.toNat (wrapTo w ((sc.src s.gwide a.toNat : Int) + i.toInt))))

end Sys2Proof.Machine
end

