-- ==== Sys2Proof/Machine/DevAccess.lean ====
section
/-! DEFINITION. Reading and writing device registers as agents do (20_package R374-R380, R382; 16_die_memory R323,
R333, R335, R340, R344; 14_quad_power R309, R318, R320; 24_lintel_circuits R418, R430): registers whose value another
part of the state holds, and writes that do more than store. -/

namespace Sys2Proof.Machine

open Sys2Proof

/-- Who accesses a register: a host port, the power microcontroller, or an agent of the package. -/
inductive RegSource where
  | host (port : Nat)
  | micro
  | agent (a : Agent)
  deriving DecidableEq, Repr

/-- A copy's rows and the bytes of one (R202). -/
def dRows (d : Vector Word 8) : Nat := bitsOf d[4].toNat 15 0
def dRb (d : Vector Word 8) : Nat := bitsOf d[4].toNat 31 16

/-- A package as the plane names it: 16 * wall + package (R432). -/
def planeId (p : Nat) : Nat := Config.wallId.toNat * 16 + p

/-- The MAC address of a Weazon port (R432). -/
def macOf (id port : Nat) : List Byte := [0x02#8, 0x4B#8, 0x41#8] ++ (bytesOf 3 (id * 2 ^ 10 + port)).reverse

/-- Copies waiting or in flight on a circuit-live barrier (R430). -/
def State.barQueued (s : State) (pkg b : Nat) : Nat :=
  (s.copies.filter fun (kc : Nat × Copy) => decide (kc.2.bar = some b) && decide (pkgOfCore kc.2.core = pkg) && kc.2.failed.isNone &&
    decide (kc.2.acked < dRows kc.2.desc * dRb kc.2.desc)).length

/-- The CSTAT word of a barrier (R430). -/
def State.cstat (s : State) (pkg b : Nat) : Nat :=
  let x := SMap.getD (s.pkg pkg).bars CircuitBar.init b
  x.state * 2 ^ 28 + x.reason * 2 ^ 24 + x.borrower * 2 ^ 22 + boolNat x.lent * 2 ^ 21 +
    (if x.state = 0 then 0 else x.port) * 2 ^ 16 + min 255 (s.barQueued pkg b)

/-- The keystone as an access reads it (R376, R379): a port sees its own grant or the other's; control cores and the
Lintel see an owner as HELD (log 13). -/
def keystoneWord (owner : Option Nat) (src : RegSource) : Nat :=
  match owner, src with
  | none, _ => 0
  | some p, .host q => if p = q then 2 ^ 31 + p else 2 ^ 30 + p
  | some p, _ => 2 ^ 30 + p

/-- Queue q's configuration word (R347). -/
def LQueue.word (q : LQueue) : Nat :=
  q.asid * 2 ^ 16 + boolNat q.sec * 2 ^ 12 + boolNat q.en * 2 ^ 11 + q.prio * 2 ^ 8 + q.entries.length

/-- Least heater margin of an engine (R404). -/
def Engine.minMargin (e : Engine) : Nat := List.foldl (fun m (x : Nat × Nat × Nat) => min m (min x.2.1 x.2.2)) 50 e.margins

/-! ## Heater margins and the throttle (R403) -/

def Pkg.engine (x : Pkg) (e : Nat) : Engine := SMap.getD x.engines Engine.init e

/-- Dies that share a boundary (R373), and a die itself. -/
def nearDies (d : Nat) : List Nat :=
  (List.range 8).filter fun e => decide ((max (d / 4) (e / 4) - min (d / 4) (e / 4)) + (max (d % 4) (e % 4) - min (d % 4) (e % 4)) ≤ 1)

/-- The least margin that throttles a die: of the engines at it and its neighbours. -/
def Pkg.dieMargin (x : Pkg) (d : Nat) : Nat :=
  (nearDies d).foldl (fun m e => min m (min (x.engine e).minMargin (x.engine (e + 8)).minMargin)) 50

/-- The throttle of every die of a package as its margins stand (R403): a rise shows in the die's event word (R347). -/
def State.rethrottle (s : State) (p : Nat) : State :=
  (List.range 8).foldl (fun s d =>
    let w := s.reg p optBase
    let m := (s.pkg p).dieMargin d
    let on := (s.die (8 * p + d)).throttle
    let put (s : State) (b : Bool) : State :=
      (s.setReg p optBase (setBits w d d (boolNat b))).modDie (8 * p + d) fun y => { y with throttle := b }
    if !on && decide (m < bitsOf w 15 8) then (put s true).orReg p (distBase d) 16
    else if on && decide (bitsOf w 23 16 ≤ m) then put s false
    else s) s

/-- TMAX: what the hottest sensor of a package's quads and HBM stacks last showed (R376). -/
def State.hottest (s : State) (pkg : Nat) : Nat :=
  min 255 (List.foldl (fun m (kt : Nat × Nat) => max m kt.2)
    (List.foldl (fun m (kq : Nat × Quad) => if kq.1 / 192 = pkg then max m kq.2.temp else m) 0 s.quads) (s.pkg pkg).hbmTemp)

/-- What a word of the register window reads as (R374). -/
def State.devWord (s : State) (pkg off : Nat) (src : RegSource) : Nat :=
  let x := s.pkg pkg
  if off < 0x08000000 then
    let d := off / 0x01000000
    let r := off % 0x01000000
    let die := s.die (8 * pkg + d)
    if 0x102000 ≤ r ∧ r < 0x103000 then (s.draw r).toNat % 2 ^ 32
    else if 0x200 ≤ r ∧ r < 0x300 then (SMap.getD die.queues LQueue.init ((r - 0x200) / 4)).word
    else if r = 0x100018 then 0
    else if 0x200800 ≤ r ∧ r < 0x200900 then
      (let i := (r - 0x200800) / 32
       if h : i < 8 then die.monitors[i].word (r % 32 / 4) else 0)
    else if 0x201000 ≤ r ∧ r < 0x201000 + 0x80 * 24 then
      (let q := (r - 0x201000) / 0x80
       let o := r % 0x80
       if 0x40 ≤ o then fusedPoint (192 * pkg + 24 * d + q) ((o - 0x40) / 4) * 2 ^ 10 + 550 + 20 * ((o - 0x40) / 4)
       else if o = 0x1C then s.qcap pkg d q
       else if o = 0x10 then s.vmax pkg d q * 2 ^ 10 + bitsOf (s.reg pkg off) 9 0
       else if o = 0x34 ∨ o = 0x38 then
         (List.range 8).foldl (fun a i => a + 2 ^ (4 * i) * s.weight pkg d q (8 * ((o - 0x34) / 4) + i)) 0
       else s.reg pkg off)
    else s.reg pkg off
  else
    let r := off - 0x08000000
    if r = 0x000 then 0xA800 * 2 ^ 16 + (Config.revision pkg).toNat * 2 ^ 8 + pkg
    else if r = 0x004 then keystoneWord x.owner src
    else if r = 0x00C then s.hottest pkg
    else if r = 0x018 then boolNat (Config.secMode pkg)
    else if r = 0x100 then
      (match x.snap.state with | .idle => 0 | .armed => 1 | .draining => 2 | .loading => 3) * 2 ^ 8 + x.snap.pgen
    else if r = 0x104 then (x.snap.held.map fun p => 32 * p.len).foldl (· + ·) 0
    else if r = 0x108 then x.snap.shRecs
    else if r = 0x10C then x.snap.logRecs
    else if 0x10400 ≤ r ∧ r < 0x10400 + 0x400 * 16 then
      (let e := SMap.getD x.engines Engine.init ((r - 0x10400) / 0x400)
       let o := r % 0x400
       if o = 0 then boolNat e.ucUp * 2 ^ 31 + boolNat e.mcRun * 2 ^ 30 + min 255 e.wdog * 2 ^ 16 + e.minMargin
       else if 0x100 ≤ o ∧ o < 0x200 then
         (let m := SMap.getD e.margins (50, 50) ((o - 0x100) / 4)
          m.1 * 2 ^ 8 + m.2)
       else 0)
    else if 0x15000 ≤ r ∧ r < 0x15000 + 8 * 48 then
      (let p := SMap.getD x.ports Port.init ((r - 0x15000) / 8)
       if r % 8 = 0 then p.state.code * 2 ^ 28 + p.last * 2 ^ 24 + p.live else min 0xFFFFFFFF p.retry)
    else if 0x20100 ≤ r ∧ r < 0x20100 + 8 * 16 ∧ r % 8 = 0 then
      (let j := (r - 0x20100) / 8
       if j = pkg then 3 * 2 ^ 30
       else match SMap.find? s.dev (regPa pkg off) with | some w => w.toNat | none => 2 * 2 ^ 30)
    else if r = 0x30048 then s.reg pkg off / 2 ^ 31 * 2 ^ 31 + x.script.length
    else if 0x30400 ≤ r ∧ r < 0x30500 then s.cstat pkg ((r - 0x30400) / 4)
    else s.reg pkg off

/-- A register read of 1, 2, 4 or 8 bytes (R323). -/
def State.devRead (s : State) (pa size : Nat) (src : RegSource) : Nat :=
  let pkg := pa / 2 ^ 48
  let off := pa % 2 ^ 48 - regLo
  let w := s.devWord pkg (off - off % 4) src
  if size = 8 then w + 2 ^ 32 * s.devWord pkg (off + 4) src
  else (w >>> (8 * (off % 4))) % 2 ^ (8 * size)

/-! ## Writes that do more than store -/

/-- The slot of a token that its course's handler or program holds (R168, R335). -/
def Slot.unpark (x : Slot) (tok : Nat) (replay : Option Word) : Slot :=
  if x.parked = some tok then { x with parked := none, replay := replay } else x

/-- COURSE_REPLAY (R168): the replay mask and the record are cleared, and the slot re-executes for those lanes. A slot
whose course is in its handler re-executes at the ERET (R278). -/
def Course.resume (c : Course) (tok : Nat) : Course :=
  if c.header.parked = some tok ∨ c.stretcher.parked = some tok then
    { c with header := c.header.unpark tok c.toReplay, stretcher := c.stretcher.unpark tok c.toReplay,
             replayMask := 0#32, faultPend := 0#32 }
  else
    { c with xHeader := c.xHeader.unpark tok none, xStretcher := c.xStretcher.unpark tok none }

/-- A write to RESUME resumes the agent of the die that holds the token (R335). -/
def State.resumeToken (s : State) (die tok : Nat) : State :=
  let mine (t : Nat) : Bool := match s.team? t with | some x => decide (dieOfCore x.core = die) | none => false
  { s with
    courses := s.courses.map fun (kc : Nat × Course) => if mine (kc.1 / 16) then (kc.1, kc.2.resume tok) else kc
    teams := s.teams.map fun (kt : Nat × Team) =>
      if mine kt.1 && decide (kt.2.seq.token = some tok) then
        (kt.1, { kt.2 with seq := { kt.2.seq with token := none } }) else kt
    copies := s.copies.map fun (kc : Nat × Copy) =>
      if decide (dieOfCore kc.2.core = die) && decide (kc.2.token = some tok) then (kc.1, { kc.2 with token := none })
      else kc }

/-- Bytes of a packet slot (R380). -/
def State.slotBytes (s : State) (pkg port slot : Nat) : List Byte :=
  (List.range 16).flatMap fun i => bytesOf 4 (s.reg pkg (portBase port + 0x800 + 64 * slot + 4 * i))

/-- CRC-16 of R381: polynomial 0x1021, initial value 0xFFFF. -/
def crcStep (c : Nat) (b : Byte) : Nat :=
  (List.range 8).foldl (fun c _ =>
    if c.testBit 15 then ((c <<< 1) ^^^ 0x1021) % 2 ^ 16 else (c <<< 1) % 2 ^ 16) (c ^^^ (b.toNat * 2 ^ 8))
def crc16 (bs : List Byte) : Nat := bs.foldl crcStep 0xFFFF

/-- A field of a packet (R381). -/
def packetField (p : List Byte) (o n : Nat) : Nat := ofBytes ((p.drop o).take n)

/-- ERR of a port (R380): REASON and slot of the failed kick. -/
def State.kickError (s : State) (pkg port reason slot : Nat) (setSlot : Bool) : State :=
  let o := portBase port + 8
  let w := s.reg pkg o
  let w := setBits w 8 8 1
  let w := setBits w 7 6 reason
  let s := s.setReg pkg o (if setSlot then setBits w 4 0 slot else w)
  s.portSignal pkg port

/-- Clearing SLOTBUSY, and a kick that is over. -/
def State.kickOver (s : State) (pkg : Nat) (k : Kick) : State :=
  let o := portBase k.port + 0x0C
  let s := s.setReg pkg o (setBits (s.reg pkg o) k.slot k.slot 0)
  s.modPkg pkg fun x => { x with kicks := x.kicks.filter fun y => decide (¬ (y.port = k.port ∧ y.slot = k.slot)) }

/-- One read of a kicked slot (R382). -/
def State.kickRead (s : State) (pkg : Nat) (k : Kick) : State :=
  let p := s.slotBytes pkg k.port k.slot
  let okSeq := decide (packetField p 0x38 4 = k.seq)
  let put (f : Kick → Kick) : State := s.modPkg pkg fun x =>
    { x with kicks := x.kicks.map fun y => if y.port = k.port ∧ y.slot = k.slot then f y else y }
  if okSeq && decide (packetField p 0x3C 2 = crc16 (p.take 0x3C)) then
    if packetField p 0x10 1 = 0 ∨ packetField p 0x11 3 ≠ 0 ∨ packetField p 0x3E 2 ≠ 0 ∨ packetField p 0 8 % 4 ≠ 0 then
      (s.kickError pkg k.port 3 k.slot false).kickOver pkg k
    else put fun y => { y with reads := y.reads + 1, checked := some p }
  else if 63 ≤ k.reads then (s.kickError pkg k.port (if okSeq then 2 else 1) k.slot true).kickOver pkg k
  else put fun y => { y with reads := y.reads + 1 }

/-- A write to a kick register (R380, R382). -/
def State.kick (s : State) (pkg port v : Nat) (whole : Bool) : State :=
  let slot := v % 32
  let busy := (s.reg pkg (portBase port + 0x0C)).testBit slot
  if !whole || decide (bitsOf v 31 5 ≠ 0) || busy then s.kickError pkg port 0 slot true
  else
    let o := portBase port + 0x0C
    let k : Kick := { port := port, slot := slot, seq := v / 2 ^ 32, reads := 0, checked := none }
    let s := s.setReg pkg o (setBits (s.reg pkg o) slot slot 1)
    (s.modPkg pkg fun x => { x with kicks := x.kicks ++ [k] }).kickRead pkg k

/-- The agent that something in flight belongs to; a promotion serves another item. -/
def Flight.owner (f : Flight) : Option Agent :=
  match f with
  | .load x => some (.course x.key x.str)
  | .atom g => some g.owner
  | .value x => some (.course x.key x.str)
  | .spad x => some (.course x.key x.str)
  | .group x => some x.agent
  | .ack o .. => some o
  | .promote .. | .promoted _ => none

/-- Everything of a package as after reset (R384): registers, SRAM, teams, engines, and bring-up begins (R385). HBM is read
through the new key 0 (log 21); RCAUSE names the reset. The device registers, directories, cores, quads and dies of the package lose
their entries; what is on its way for its agents, or in packets from or to it, is lost (log 112). A line still dirty in its LLC
slice reads as HBM has it (R326; log 31). CRED as it stood is in force from now on (R414; log 23). Package time goes on (R436). -/
def State.resetPkg (s : State) (pkg cause : Nat) : State :=
  let teamGone (t : Nat) : Bool := match s.team? t with | some x => decide (pkgOfCore x.core = pkg) | none => true
  let path (p : Nat) : Bool :=
    decide (p < 16384 ∧ p / 768 = pkg) || decide (16384 ≤ p ∧ p < 20480 ∧ (p - 16384) / 8 = pkg) || decide (p = 20480 + pkg)
  let cred := s.reg pkg (wallBase + 4)
  let agentGone (a : Agent) : Bool := match a with
    | .course k _ => teamGone (k / 16)
    | .seq t => teamGone t
    | .kcore d => decide (d / 8 = pkg)
    | .lintel p => decide (p = pkg)
  let barGone (key : Nat) : Bool :=
    if key % 8 = 0 then teamGone (key / 64) else if key % 8 = 1 then decide (key / 64 / 2 ^ 45 / 8 = pkg) else decide (key / 64 % 16 = pkg)
  let lost := s.dirty.filter fun (kb : Nat × List Byte × Nat) => decide (128 * kb.1 / 2 ^ 48 = pkg) && Config.lineStays s.fresh kb.1
  let now := (s.pkg pkg).time
  let mine (bs : List Byte) (o : Nat) : Bool := [0, 1].any fun w => decide ((bs.drop o).take 6 = macOf (planeId pkg) w)
  let s : State :=
    { s with
      mem := lost.foldl (fun m kb => m.setBytes (128 * kb.1) (kb.2.1.take 128)) s.mem
      dirty := s.dirty.filter fun (kb : Nat × List Byte × Nat) => decide (128 * kb.1 / 2 ^ 48 ≠ pkg)
      frames := s.frames.filter fun (nf : Nat × List Byte) => !mine nf.2 0 && !mine nf.2 6
      dev := s.dev.filter fun (kw : Nat × Word) => decide (kw.1 / 2 ^ 48 ≠ pkg)
      dir := List.filter (fun (kw : Nat × DirLine) => decide (kw.2 ≠ DirLine.init))
        (List.map (fun (kw : Nat × DirLine) => if kw.1 * 128 / 2 ^ 48 = pkg then (kw.1, { DirLine.init with mat := kw.2.mat }) else kw) s.dir)
      fresh := s.fresh + 1
      courses := s.courses.filter fun (kc : Nat × Course) => !teamGone (kc.1 / 16)
      teams := s.teams.filter fun (kt : Nat × Team) => !teamGone kt.1
      cores := s.cores.filter fun (kc : Nat × Core) => !path kc.1
      quads := s.quads.filter fun (kq : Nat × Quad) => decide (kq.1 / 192 ≠ pkg)
      dies := s.dies.filter fun (kd : Nat × Die) => decide (kd.1 / 8 ≠ pkg)
      pkgs := SMap.put s.pkgs pkg { Pkg.init with
        credTotal := cred, time := now, slewAt := now, ports := (List.range 48).map fun n => (n, { Port.init with since := now })
        keys := [(0, ⟨true, false, 2 * s.fresh + 1⟩)] }
      copies := s.copies.filter fun (kc : Nat × Copy) => decide (pkgOfCore kc.2.core ≠ pkg)
      flights := s.flights.filter fun (nf : Nat × Flight) => match nf.2.owner with | some a => !agentGone a | none => true
      wideBars := s.wideBars.filter fun (kb : Nat × Barrier) => !barGone kb.1
      floors := s.floors.filter fun (kf : Nat × Nat) => decide (kf.1 / 48 / 8 ≠ pkg)
      packets := s.packets.filter fun (nk : Nat × Packet) => decide (nk.2.src ≠ pkg) && decide (nk.2.dst ≠ pkg)
      mortar := s.mortar.filter fun (km : Nat × MortarEntry) => decide (km.2.op.router / 384 ≠ pkg) &&
        !(decide (km.2.place = .travelling) && decide (km.2.op.src = pkg)) &&
        !(decide (km.2.place = .halfStored) && decide (km.2.op.dst / 2 ^ 48 = pkg))
      joints := s.joints.filter fun (kj : Nat × Joint) => decide (kj.2.die / 8 ≠ pkg)
      circuitChunks := s.circuitChunks.filter fun (kc : Nat × CircuitChunk) => decide (kc.2.pkg ≠ pkg) }
  let s := lost.foldl (fun s kb => s.setLine (128 * kb.1) { s.line (128 * kb.1) with mat := kb.2.2 }) s
  s.setReg pkg (pkgBase + 0x14) cause

/-- The keystone guards host writes to RW fields of the package, die and engine blocks, not to ports and packet slots
(R379). -/
def State.hostMay (s : State) (pkg off port : Nat) : Bool :=
  (decide (0x08001000 ≤ off) && decide (off < 0x08003000)) || decide ((s.pkg pkg).owner = some port)

/-- The registers of step 5 of bring-up (R385); in RUN's word PKGRST is no field of it. -/
def stepFive (off v : Nat) : Bool :=
  (decide (off < 0x08000000) && (let r := off % 0x01000000
    decide (0x020 ≤ r ∧ r ≤ 0x028) || decide (0x100000 ≤ r ∧ r ≤ 0x100014))) ||
    (decide (off = 0x08000010) && !v.testBit 31)

/-- A region-table entry's range as frames (R340). -/
def State.regionRange (s : State) (pkg d n : Nat) : Nat × Nat :=
  let o := memBase d + 0x1000 + 16 * n
  (s.reg pkg o, s.reg pkg (o + 4))

/-- A write of a word of a region-table entry (R340): every L1 and LLC copy of a line in the old or new range is
dropped. -/
def State.regionWrite (s : State) (pkg d n w v : Nat) : State :=
  let old := s.regionRange pkg d n
  let s := s.plainRegWrite pkg (memBase d + 0x1000 + 16 * n + 4 * w) v false
  let new := s.regionRange pkg d n
  let hit (l : Nat) : Bool :=
    let f := bitsOf (128 * l) 47 16
    decide (128 * l / 2 ^ 48 = pkg) && ((decide (old.1 ≤ f) && decide (f ≤ old.2)) || (decide (new.1 ≤ f) && decide (f ≤ new.2)))
  { s with
    cores := List.map (fun (kc : Nat × Core) =>
      (kc.1, { kc.2 with l1 := kc.2.l1.filter fun (kl : Nat × List Byte) => !hit kl.1,
                         l1Rel := kc.2.l1Rel.filter fun (kl : Nat × Nat × Nat × Nat) => !hit kl.1 })) s.cores
    dir := List.filter (fun (kl : Nat × DirLine) => decide (kl.2 ≠ DirLine.init))
      (List.map (fun (kl : Nat × DirLine) => if hit kl.1 then (kl.1, { kl.2 with dsh := 0#8, psh := 0#16 }) else kl) s.dir) }

/-- A write of one 32-bit word of the register window (R374). -/
def State.devWriteWord (s : State) (pkg off v : Nat) (src : RegSource) : State :=
  let mc := decide (src = .micro)
  if off < 0x08000000 then
    let d := off / 0x01000000
    let r := off % 0x01000000
    if r = 0x100018 then s.resumeToken (8 * pkg + d) v
    else if r = 0x100114 then
      (if v.testBit 0 then (s.setReg pkg (memBase d + 0x100) 0).setReg pkg (memBase d + 0x104) 0 else s)
    else if 0x101000 ≤ r ∧ r < 0x102000 then s.regionWrite pkg d ((r - 0x101000) / 16) (r % 16 / 4) v
    else if 0x200800 ≤ r ∧ r < 0x200900 then
      s.modDie (8 * pkg + d) fun y => { y with monitors := Vector.ofFn (fun i : Fin 8 =>
        (if i.val = (r - 0x200800) / 32 then (y.monitors[i]).write (r % 32 / 4) v else y.monitors[i])) }
    else s.plainRegWrite pkg off v mc
  else
    let r := off - 0x08000000
    if r = 0x1000 then s.kick pkg 0 v false
    else if r = 0x1004 then s.kick pkg 0 (v * 2 ^ 32) false
    else if r = 0x2000 then s.kick pkg 1 v false
    else if r = 0x2004 then s.kick pkg 1 (v * 2 ^ 32) false
    else if r = 0x004 then
      (match src with
       | .host p => if v.testBit 0 ∧ (s.pkg pkg).owner = some p then s.modPkg pkg fun x => { x with keyOwner := none }
                    else s
       | _ => s)
    else if r = 0x010 then
      (if v.testBit 31 then s.resetPkg pkg 4 else s.plainRegWrite pkg off v mc)
    else if r = 0x30044 then
      (if 16 ≤ (s.pkg pkg).script.length then s.orReg pkg (lintBase + 0x48) (2 ^ 31)
       else s.modPkg pkg fun x =>
         { x with script := x.script ++ [s.reg pkg (lintBase + 0x40) + 2 ^ 32 * (v % 2 ^ 24)] })
    else if r = 0x10000 then (s.plainRegWrite pkg off v mc).rethrottle pkg
    else s.plainRegWrite pkg off v mc

/-- What a write of a host without the keystone still does to a guarded word (R379): its bits that clear on a 1, the
channels' and the counters' CLR among them. -/
def State.clearBits (s : State) (pkg off v : Nat) (src : RegSource) : State :=
  let r := off % 0x01000000
  if off < 0x08000000 ∧ (r = 0x100114 ∨ (0x200800 ≤ r ∧ r < 0x200900 ∧ r % 32 = 24)) then s.devWriteWord pkg off v src
  else
    let m := (regInfo off).w1c
    if m = 0 then s else s.setReg pkg off (s.reg pkg off &&& (0xFFFFFFFF ^^^ (v &&& m)))

/-- A word written by its source (R379, R385): step 5's registers take nothing before bring-up reaches it and, with SECMODE
= 1, nothing from a host; a host's write of a guarded field needs the keystone. -/
def State.devWriteBy (s : State) (pkg off v : Nat) (src : RegSource) : State :=
  match src with
  | .agent _ => s.devWriteWord pkg off v src
  | .micro => if (s.pkg pkg).booting && stepFive off v then s else s.devWriteWord pkg off v src
  | .host p =>
    if Config.secMode pkg && stepFive off v then s
    else if decide (off = 0x08000004) || s.hostMay pkg off p then s.devWriteWord pkg off v src
    else s.clearBits pkg off v src

/-- A register write of 4 or 8 bytes (R323): both words of an 8-byte write act as one event. -/
def State.devWrite (s : State) (pa size v : Nat) (src : RegSource) : State :=
  let pkg := pa / 2 ^ 48
  let off := pa % 2 ^ 48 - regLo
  if size < 4 then s
  else if size = 8 ∧ off = 0x08001000 then s.kick pkg 0 v true
  else if size = 8 ∧ off = 0x08002000 then s.kick pkg 1 v true
  else
    let s := s.devWriteBy pkg off (v % 2 ^ 32) src
    if size = 8 then s.devWriteBy pkg (off + 4) (v / 2 ^ 32) src else s

/-! ## Fetching (R48, R49) -/

/-- What a fetch answers. -/
inductive Fetched where
  | word (w : Word)
  | miss (va : Nat)
  | bad (c : Cause) (va tinfo : Nat)
  deriving DecidableEq, Repr

/-- The word at a virtual address; a poisoned line gives SOFTERR of kind fetch (R166). -/
def State.fetchAt (s : State) (x : Xlat) (va : Nat) (park : Bool) : Fetched :=
  match s.translate x va .fetch park with
  | .miss => .miss va
  | .bad c ti => .bad c va ti
  | .ok pa leaf =>
    if isDevice pa then .word (BitVec.ofNat 32 (s.devRead pa 4 (.agent s.cur)))
    else if s.poisoned pa then .bad .softErr va AccKind.fetch.code
    else match s.bytesUnder pa 4 (leafKey leaf) with
      | [b0, b1, b2, b3] => .word (wordOfBytes b0 b1 b2 b3)
      | _ => .bad .softErr va AccKind.fetch.code

/-- Where an agent's next word lies: a course's code or handler base, a stream's section, a processor's PC. -/
def State.fetchAddr (s : State) (a : Agent) : Nat :=
  match a with
  | .course k str =>
    (match s.course? k, s.team? (k / 16) with
     | some c, some t => (if c.handler then c.hbase.toNat else t.launch.code.toNat) + (c.slot str).pc.toNat
     | _, _ => 0)
  | .seq t => (match s.team? t with | some x => x.launch.mstr.toNat + x.seq.pc.toNat | none => 0)
  | .kcore d => (s.die d).kcore.pc.toNat
  | .lintel p => (s.pkg p).lintel.pc.toNat

/-- The next word of an agent; only courses and streams may meet a recoverable miss. -/
def State.fetch (s : State) (a : Agent) : Fetched :=
  match s.xlatOf a with
  | none => .bad .pageFault 0 3
  | some x => s.fetchAt x (s.fetchAddr a) (match a with | .course .. | .seq _ => true | _ => false)

end Sys2Proof.Machine
end

