-- ==== Sys2Proof/Machine/MemOps.lean ====
section
/-! DEFINITION. The shared operations of memory access: per-lane checks and parking (R149, R168), the store buffer
(R22, R267), what a core reads (R255), orderings of a course (R161, R256), single-lane accesses of any agent. -/

namespace Sys2Proof.Machine

open Sys2Proof

/-! ## Lane checks (R149) -/

/-- What one lane of an access meets: an address and leaf, a recoverable miss, or a cause with its rank in R149's order
and its TINFO. -/
inductive LaneRes where
  | hit (pa leaf : Nat)
  | miss
  | fail (rank : Nat) (c : Cause) (tinfo : Nat)
  deriving DecidableEq, Repr

/-- The rank of a cause of translation among those of R149; a poisoned table entry comes last. -/
def causeRank (c : Cause) (tinfo : Nat) : Nat :=
  match c with
  | .align => 0
  | .access => if 4 ≤ tinfo then 1 else 4
  | .spBound => 2
  | .secViol => 3
  | .pageFault => 5
  | .versionBan => 6
  | _ => 7

/-- One lane's checks: alignment, translation, narrow device stores (R323), VERSIONBAN (R149): `ban` by the address
found, `banAll` for every lane, one that misses included. -/
def State.laneCheck (s : State) (x : Xlat) (va size : Nat) (k : AccKind) (banAll : Bool) (ban : Nat → Bool) (op : Nat) :
    LaneRes :=
  if va % size ≠ 0 then .fail 0 .align size
  else match s.translate x va k true with
  | .miss => if banAll then .fail 6 .versionBan (op * 2 ^ 24) else .miss
  | .bad c ti => .fail (causeRank c ti) c ti
  | .ok pa leaf =>
    if isDevice pa && decide (k = .store) && decide (size < 4) then .fail 4 .access 1
    else if banAll || ban pa then .fail 6 .versionBan (op * 2 ^ 24)
    else .hit pa leaf

/-- Lanes whose check fails first in the order of causes (R149): the trap, or none. -/
def firstCause (rs : List (Nat × Nat × LaneRes)) : Option Res :=
  let best := rs.foldl (fun b r => match r.2.2 with | .fail n _ _ => min b n | _ => b) 100
  if best = 100 then none
  else
    let raising := rs.filter fun r => match r.2.2 with | .fail n _ _ => decide (n = best) | _ => false
    match raising with
    | (_, va, .fail _ c ti) :: _ =>
      some (.trap c va ((raising.map fun r => 2 ^ r.1).foldl (· + ·) 0) ti)
    | _ => none

/-- A trapped slot whose miss has been resumed keeps the lanes it re-executes when a miss of the handler takes the replay
mask and the record (R168, R274). -/
def Course.freeRecord (c : Course) : Course :=
  if c.handler && c.faultPend.getLsbD 31 then
    let fix (x : Slot) (b : Bool) : Slot := if c.faultPend.getLsbD 30 == b then { x with replay := c.toReplay } else x
    { c with xHeader := fix c.xHeader false, xStretcher := fix c.xStretcher true, replayMask := 0#32, faultPend := 0#32 }
  else c

/-- Parking a slot on a recoverable miss (R168): the replay mask, the fault-pending record and one fault record. -/
def State.park (s : State) (k : Nat) (str : Bool) (lanes : Word) (addr : Nat) (kind : AccKind) : State :=
  match s.course? k, s.team? (k / 16) with
  | some c, some t =>
    let (tok, s) := s.newToken (dieOfCore t.core)
    let x := { c.slot str with parked := some tok, replay := none }
    (s.setCourse k { c.freeRecord.setSlot str x with
      replayMask := lanes, faultPend := BitVec.ofNat 32 (2 ^ 31 + boolNat str * 2 ^ 30 + 5) }).postFault
      (dieOfCore t.core) (teamRec t 1 c.cid (boolNat str) kind.code addr tok 0)
  | _, _ => s

/-- Whether another slot's miss forbids one (R169): a slot is parked, of the running code or of what a trap interrupted. -/
def Course.missHeld (c : Course) : Bool :=
  c.header.parked.isSome || c.stretcher.parked.isSome || (c.handler && (c.xHeader.parked.isSome || c.xStretcher.parked.isSome))

/-- The leaf that a core's own TLB holds for an address (R185). -/
def State.coreTlbHit (s : State) (x : Xlat) (va : Nat) : Option TlbEntry := s.tlbSearch x va (x.places.take 1)

/-- The allowance rule (R185): addresses whose translation the core's TLB holds. -/
def State.allowed (s : State) (c : Course) (x : Xlat) (vas : List Nat) : Bool :=
  c.alwLow = 0#32 || vas.all fun va => match s.coreTlbHit x va with
    | none => true
    | some e =>
      let dst := bitsOf e.leaf 63 28 * 2 ^ 16 / 2 ^ 48
      decide (dst = x.die / 8) || decide (c.alwLow.toNat ≤ s.allowance (x.die / 8) dst)

/-- Lines of a version homed on a die (R285). -/
def versionLines (m : SMap Byte) (die : Nat) : Nat :=
  (List.foldl (fun (a : List Nat) (kv : Nat × Byte) =>
    let l := lineOf kv.1
    if homeDie kv.1 = die ∧ a.head? ≠ some l then l :: a else a) [] m).length

/-- The dies of its package on which a team's store to these addresses has no room for new lines of its version: it would take the
versions there past 4 MiB, or the team is stalled there (R285, R287). -/
def State.overDies (s : State) (t : Team) (pas : List Nat) : List Nat :=
  match t.version with
  | none => []
  | some m =>
    let new := (pas.map fun pa => lineOf (s.forward pa)).eraseDups.filter fun l => !List.any m fun (kv : Nat × Byte) => decide (lineOf kv.1 = l)
    ((new.map fun l => homeDie (128 * l)).eraseDups).filter fun die =>
      let held : Nat := List.foldl (fun (n : Nat) (kt : Nat × Team) => match kt.2.version with
        | some v => n + versionLines v die | none => n) 0 s.teams
      t.verStall.contains die || decide (32768 < held + (new.filter fun l => decide (homeDie (128 * l) = die)).length)
def State.versionFull (s : State) (t : Team) (pas : List Nat) : Bool := !(s.overDies t pas).isEmpty

/-- A versioned team whose store finds no room stalls for the dies that lack it, until it is the oldest there (R287). -/
def State.stallVersion (s : State) (h : Nat) (t : Team) (pas : List Nat) : State :=
  if s.versionFull t pas then s.modTeam h fun x => { x with verStall := (x.verStall ++ s.overDies t pas).eraseDups } else s

/-- The sequence of R149 over the active lanes: `perform` gets the lanes that hit, ascending, each with its lane,
virtual and physical address and leaf, and answers the state after it, or, when it must wait, what to do meanwhile. The allowance rule comes before the causes (R185). The destination's bits have been
emptied before. -/
def State.lanesOp (s : State) (op : Nat) (act : Word) (addr : Nat → Nat) (size align : Nat) (kind : AccKind)
    (banAll : Bool) (ban : Nat → Bool) (dest : Option (Nat × Bool))
    (perform : State → List (Nat × Nat × Nat × Nat) → State ⊕ (State → State)) : Res :=
  s.asCourse fun k str c =>
    match s.team? (k / 16) with
    | none => .wait
    | some t =>
      let rs := (lanesOf act).map fun l =>
        (l, addr l, if addr l % align ≠ 0 then LaneRes.fail 0 .align align else s.laneCheck t.xlat (addr l) size kind banAll ban op)
      if !s.allowed c t.xlat ((lanesOf act).map addr) then .wait
      else match firstCause rs with
      | some r => r
      | none =>
        let hits := rs.filterMap fun r => match r.2.2 with | .hit pa leaf => some (r.1, r.2.1, pa, leaf) | _ => none
        let misses := rs.filter fun r => decide (r.2.2 = .miss)
        if misses ≠ [] ∧ c.missHeld then .wait
        else
          let s1 := hits.foldl (fun s h => s.noteTlb t.xlat h.2.1) s
          let s2 := match dest with
            | some (d, w) => s1.modCourse k fun c => c.emptyDest act d w
            | none => s1
          match perform s2 hits with
          | .inr f => .stay (f s)
          | .inl s3 =>
            let missing := maskOf fun l => misses.any fun r => decide (r.1 = l)
            match ((s3.course? k).map (fun (c : Course) => (c.slot str).hold) : Option Hold) with
            | some (.entering st rest _) =>
              .stay (s3.modCourse k fun c => c.setSlot str { c.slot str with hold := .entering st rest missing })
            | _ =>
            match misses with
            | [] => .done s3
            | m :: _ =>
              .stay (s3.park k str missing m.2.1 kind)

/-! ## The store buffer (R22, R267) -/

/-- Valid entries, oldest first. -/
def Course.entries (c : Course) : List SbEntry := c.sb.toList.filter (·.valid)
def Course.setEntries (c : Course) (es : List SbEntry) : Course :=
  { c with sb := Vector.ofFn fun i => (es[i.val]?).getD SbEntry.empty }

/-- The extended-state indices of the valid entries, and changing one. Age order is index order (R267). -/
def Course.entryIx (c : Course) : List Nat := (List.range 16).filter fun i => if h : i < 16 then c.sb[i].valid else false
def Course.setEntry (c : Course) (i : Nat) (e : SbEntry) : Course :=
  { c with sb := Vector.ofFn fun j => if j.val = i then e else c.sb[j] }

/-- The n-th valid entry leaves, and those above it move down (R267, log 102); a new one stands above every valid one. -/
def Course.dropEntry (c : Course) (n : Nat) : Course :=
  match c.entryIx[n]? with
  | some i => { c with sb := Vector.ofFn fun j =>
      if j.val < i then c.sb[j] else if h : j.val + 1 < 16 then c.sb[j.val + 1] else SbEntry.empty }
  | none => c
def Course.addEntry (c : Course) (e : SbEntry) : Course :=
  let top := c.entryIx.foldl (fun _ i => i + 1) 0
  if top < 16 then c.setEntry top e else c.setEntries (c.entries ++ [e])

/-- A store of bytes at a virtual address within one half-line, laid over an entry. -/
def SbEntry.lay (e : SbEntry) (va : Nat) (bytes : List Byte) : SbEntry :=
  let o := va % 64
  { e with
    data := Vector.ofFn fun i => if o ≤ i.val then (bytes[i.val - o]?).getD e.data[i] else e.data[i],
    mask := e.mask ||| BitVec.ofNat 64 ((2 ^ bytes.length - 1) * 2 ^ o) }

/-- Whether entry e covers a byte of a virtual address, and the byte. -/
def SbEntry.byte (e : SbEntry) (va : Nat) : Option Byte :=
  if e.valid ∧ e.va.toNat = va / 64 * 64 ∧ e.mask.getLsbD (va % 64) then
    (if h : va % 64 < 64 then some e.data[va % 64] else none)
  else none

/-- Bits(STEPNO, 15, 0) at the die of a core (R311, R392). -/
def State.stepOf (s : State) (core : Nat) : Nat := (s.die (dieOfCore core)).kcore.stepId.toNat % 2 ^ 16

/-- The half-lines of a lane's store: one, or the two of CCTL.ZERO (R22, R160). -/
def PendingStore.halves (p : PendingStore) : List PendingStore :=
  if p.bytes.length ≤ 64 then [p]
  else [{ p with bytes := p.bytes.take 64 }, { p with addr := p.addr + 64, bytes := p.bytes.drop 64 }]

/-- Whether the lanes of a store are performed one at a time: those of SC (R263), and flags to another package (R158). -/
def PendingStore.apart (p : PendingStore) : Bool := decide (p.kind = 3#4) || p.flag.isSome

/-- A lane laid over an entry; kept as a part of its own where lanes are performed one at a time. -/
def SbEntry.take (e : SbEntry) (p : PendingStore) : SbEntry :=
  let e' := e.lay p.addr p.bytes
  if p.apart then { e' with parts := e.parts ++ [{ lane := p.lane, off := p.addr % 64, bytes := p.bytes, flag := p.flag }] } else e'

/-- One half-line of a lane's store entering the buffer (R22): it shares its own instruction's entry for the half-line;
none when no entry is free. `lanes` are those of the slot, `whole` one of CCTL.ZERO. -/
def Course.enterHalf (c : Course) (issue : Nat) (str : Bool) (lanes : Word) (clock step : Nat) (whole : Bool) (p : PendingStore) :
    Option Course :=
  let es := c.entries
  let base := p.addr / 64 * 64
  let same (e : SbEntry) : Bool := decide (e.issue = issue) && decide (e.va.toNat = base)
  if es.any same then some { c with sb := c.sb.map fun e => if e.valid && same e then e.take p else e }
  else if 16 ≤ es.length then none
  else
    let e : SbEntry := { SbEntry.empty with
      va := BitVec.ofNat 64 base, valid := true, scope := p.scope, kind := p.kind, key := BitVec.ofNat 12 p.key,
      issue := issue, slot := str, lanes := lanes, step := step, whole := whole,
      stamp := if p.kind = 3#4 then BitVec.ofNat 64 (clock + 1) else 0#64 }
    some (c.addEntry (e.take p))

/-- One lane's store enters once every entry it needs is free (R22). -/
def Course.enterLane (c : Course) (issue : Nat) (str : Bool) (lanes : Word) (clock step : Nat) (p : PendingStore) :
    Option Course :=
  p.halves.foldl (fun (o : Option Course) h => o.bind fun c => c.enterHalf issue str lanes clock step (decide (p.bytes.length = 128)) h) (some c)

/-- Entering lanes in order until one finds no entry: the course, and the lanes still waiting. -/
def Course.enterLanes (c : Course) (issue : Nat) (str : Bool) (lanes : Word) (clock step : Nat) :
    List PendingStore → Course × List PendingStore
  | [] => (c, [])
  | p :: ps =>
    match c.enterLane issue str lanes clock step p with
    | some c' => Course.enterLanes c' issue str lanes clock step ps
    | none => (c, p :: ps)

/-! ## Program order in a course (R11) -/

/-- Whether two accesses of a course, by their slots and the lanes of those slots at issue, stand in program order: those
of one slot do, and so do those that a JOIN, or the path before a split, has in common (R11, R150; log 104). A JOIN widens the
lanes of what its slots have under way (State.joinLanes). -/
def inOrder (str : Bool) (lanes : Word) (str' : Bool) (lanes' : Word) : Bool :=
  str == str' || decide (lanes &&& lanes' ≠ 0#32)

/-- The lanes of a course's slot as an access of it issues. -/
def Course.slotLanes (c : Course) (str : Bool) : Word := (c.slot str).mask
def State.slotLanes (s : State) (k : Nat) (str : Bool) : Word :=
  match s.course? k with | some c => c.slotLanes str | none => 0#32

/-- Bytes a load issued as n takes from its own course's buffer (R150): the youngest older entry that covers each. -/
def Course.forward (c : Course) (n : Nat) (str : Bool) (lanes : Word) (va size : Nat) : List (Option Byte) :=
  (List.range size).map fun i => c.entries.foldl (fun b e =>
    if e.issue < n ∧ inOrder e.slot e.lanes str lanes then (match e.byte (va + i) with | some x => some x | none => b)
    else b) none

/-! ## What a core reads (R255) -/

/-- A byte of the write path laid over one read below it: the youngest write wins. -/
def overlayPath (path : SMap PathItem) (pa : Nat) (b : Byte) : Byte :=
  List.foldl (fun b (ki : Nat × PathItem) => match ki.2 with
    | .write w => if w.pa ≤ pa ∧ !w.landed then ((w.bytes[pa - w.pa]?).getD none).getD b else b
    | .mark | .red .. => b) b path

/-- The die and the package of a write path's owner; a Lintel belongs to no die. -/
def pathDie (p : Nat) : Option Nat := if p < 16384 then some (p / 96) else if p < 20480 then some (p - 16384) else none
def pathPkg (p : Nat) : Nat := if p < 16384 then p / 768 else if p < 20480 then (p - 16384) / 8 else p - 20480

/-- The copy that the LLC of an agent's die holds of a line homed in another package (R325, R406). -/
def State.heldLine (s : State) (path pa : Nat) : Option (List Byte × Bool) :=
  if s.forward pa / 2 ^ 48 = pathPkg path then none
  else (pathDie path).bind fun d => SMap.find? (s.die d).held (lineOf (s.forward pa))

/-- A byte as a read finds it below the L1 (R406): in the copy that the requesting slice holds, else at its home. -/
def State.sliceByte (s : State) (path pa key : Nat) : Byte :=
  match s.heldLine path pa with
  | some l => (l.1[pa % 128]?).getD 0#8
  | none => s.byteUnder pa key

/-- The copy that a read from another package leaves in its requesting slice (R406). -/
def State.holdLine (s : State) (path pa key : Nat) : State :=
  match pathDie path with
  | some d =>
    if s.forward pa / 2 ^ 48 = pathPkg path then s
    else s.modDie d fun x => { x with held := SMap.put x.held (lineOf (s.forward pa)) (s.bytesUnder (128 * lineOf pa) 128 key, s.poisoned pa) }
  | none => s

/-- A byte as a core's access through a leaf of a key sees it below its L1, under the writes the core has passed on (R255). -/
def State.freshByte (s : State) (path pa key : Nat) : Byte := overlayPath (s.core path).path pa (s.sliceByte path pa key)

/-- A byte as a relaxed load of a core reads it: from the L1 line when one is held. -/
def State.coreByte (s : State) (core pa key : Nat) : Byte :=
  match SMap.find? (s.core core).l1 (lineOf pa) with
  | some bs => (bs[pa % 128]?).getD (s.byteAt pa)
  | none => s.freshByte core pa key

/-- The last release the home of a line records (R260): the writer's core, scope and place; none as all zero. -/
def DirLine.release (l : DirLine) : Nat × Nat × Nat :=
  if l.relValid then (l.relCore, l.relScope, l.relStamp) else (0, 5, 0)

/-- A line as it is below the L1 now, put there with the release its home records (R255). -/
def State.refillLine (s : State) (core pa key : Nat) : State :=
  let b := 128 * lineOf pa
  s.modCore core fun c => { c with
    l1 := SMap.put c.l1 (lineOf pa) ((List.range 128).map fun i => s.freshByte core (b + i) key)
    l1Rel := SMap.setD c.l1Rel (0, 5, 0) (lineOf pa) (s.line pa).release }

/-- Filling a line of the L1 that does not hold it (R255); host memory and registers are not kept. -/
def State.fillLine (s : State) (core pa key : Nat) : State :=
  match SMap.find? (s.core core).l1 (lineOf pa) with
  | some _ => s
  | none => s.refillLine core pa key

/-- The release recorded with the bytes a relaxed load of a core reads (R257). -/
def State.releaseRead (s : State) (core pa : Nat) : Nat × Nat × Nat :=
  match SMap.find? (s.core core).l1 (lineOf pa) with
  | some _ => SMap.getD (s.core core).l1Rel (0, 5, 0) (lineOf pa)
  | none => (s.line pa).release

/-- Recording a reader in the directory of a line (R325): the die or the package that takes a copy. -/
def State.noteSharer (s : State) (die pa : Nat) : State :=
  let l := s.line pa
  if pa / 2 ^ 48 = die / 8 then
    (if homeDie pa = die then s else s.setLine pa { l with dsh := l.dsh ||| BitVec.ofNat 8 (2 ^ (die % 8)) })
  else s.setLine pa { l with psh := l.psh ||| BitVec.ofNat 16 (2 ^ (die / 8)) }

/-- Every line of a core's L1 dropped (R161, R256); one line dropped. -/
def State.dropL1 (s : State) (core : Nat) : State := s.modCore core fun c => { c with l1 := [], l1Rel := [] }
def State.dropLine (s : State) (core pa : Nat) : State :=
  s.modCore core fun c => { c with l1 := SMap.del c.l1 (lineOf pa), l1Rel := SMap.del c.l1Rel (lineOf pa) }

/-! ## SC stamps (R262) -/

/-- The home slice of an address, over the wall. -/
def sliceKey (pa : Nat) : Nat := 48 * homeDie pa + homeSlice pa

/-- Lw and Lr of a line; one without stamps of its own takes its slice's floor E (R262; log 33). -/
def State.stamps (s : State) (pa : Nat) : Nat × Nat :=
  let l := s.line pa
  if l.stamped then (l.lw, l.lr)
  else (let e := SMap.getD s.floors 0 (sliceKey (s.forward pa)); (e, e))
def State.setStamps (s : State) (pa lw lr : Nat) : State :=
  s.setLine pa { s.line pa with lw := lw, lr := lr, stamped := true }

/-- A line that no other package holds leaves its home slice (R160, R262, R325): it is written back, and its stamps raise the
floor. -/
def State.leaveLlc (s : State) (pa : Nat) : State :=
  let l := s.line pa
  let s := s.writeBack pa
  let s := if l.stamped then
      { s with floors := SMap.setD s.floors 0 (sliceKey (s.forward pa)) (max (SMap.getD s.floors 0 (sliceKey (s.forward pa))) (max l.lw l.lr)) }
    else s
  s.setLine pa { l with dsh := 0#8, psh := 0#16, lw := 0, lr := 0, stamped := false }

/-- The copies of a line homed elsewhere that a package's LLCs hold are dropped (R160, R408). -/
def State.dropCopies (s : State) (pkg line : Nat) : State :=
  { s with dies := List.map (fun (kd : Nat × Die) =>
      (if kd.1 / 8 = pkg then (kd.1, { kd.2 with held := SMap.del kd.2.held line }) else kd)) s.dies }

/-- A team's version laid over a byte (R285). -/
def State.versionByte (s : State) (v : Option Nat) (pa : Nat) : Option Byte :=
  match v with
  | none => none
  | some t => match s.team? t with
    | some x => (match x.version with | some m => SMap.find? m (s.forward pa) | none => none)
    | none => none

/-- Bytes stored into a team's version (R285), with the key and the snapshot mark of the leaf for its commit. -/
def State.versionWrite (s : State) (h pa key : Nat) (mark : Option Nat) (bs : List (Option Byte)) : State :=
  s.modTeam h fun t => { t with
    version := t.version.map (fun v =>
      bs.zipIdx.foldl (fun (v : SMap Byte) b => match b.1 with | some x => SMap.put v (s.forward (pa + b.2)) x | none => v) v)
    verLeaves := if t.verLeaves.contains (128 * lineOf pa, key, mark) then t.verLeaves else t.verLeaves ++ [(128 * lineOf pa, key, mark)] }

/-- Whether the bytes that a team's access finds are poisoned (R345): the line is, or what the team's version holds of it
(R222). -/
def State.poisonedIn (s : State) (v : Option Nat) (pa : Nat) : Bool :=
  s.poisoned pa || (match v.bind fun t => s.team? t with
    | some x => x.version.isSome && x.verPoison.contains (lineOf (s.forward pa))
    | none => false)

/-- The version a team's accesses use (R285). -/
def Team.versionOf (t : Team) (h : Nat) : Option Nat := if t.version.isSome then some h else none

/-! ## Orderings of a course -/

/-- The course an item in flight serves, its slot and lanes, when it delays the course's orderings: its register values to
come. -/
def Flight.loadOf (f : Flight) : Option (Nat × Bool × Word) :=
  match f with
  | .load x => some (x.key, x.str, x.mask)
  | .atom x => (match x.owner with
    | .course k str => if x.lanes.any fun l => l.reg.isSome then some (k, str, x.mask) else none
    | _ => none)
  | .value x => some (x.key, x.str, x.mask)
  | _ => none

/-- Whether an item in flight holds a value to come for a course's access before one of a slot. -/
def Flight.loadsFor (f : Flight) (k : Nat) (str : Bool) (lanes : Word) : Bool :=
  match f.loadOf with
  | some (j, b, m) => decide (j = k) && inOrder b m str lanes
  | none => false

/-- Whether an item in flight is an acquire whose value has not arrived (R256). -/
def Flight.acquires (f : Flight) : Bool :=
  match f with
  | .load x => x.acquire.isSome || x.sc.isSome
  | .atom x => decide (x.order ≠ .relaxed)
  | .value x => x.acquire.isSome
  | _ => false

/-- Loads and returning atomics of a slot, older than a stamp, whose values have not arrived. -/
def State.loadsOlder (s : State) (k : Nat) (str : Bool) (lanes : Word) (stamp : Nat) : Bool :=
  List.any s.flights fun (nf : Nat × Flight) => decide (nf.2.origin nf.1 < stamp) && nf.2.loadsFor k str lanes

/-- Acquires of a slot, older than a stamp, whose values have not arrived: later accesses wait for them. -/
def State.acquireOlder (s : State) (k : Nat) (str : Bool) (lanes : Word) (stamp : Nat) : Bool :=
  List.any s.flights fun (nf : Nat × Flight) => decide (nf.2.origin nf.1 < stamp) && nf.2.loadsFor k str lanes && nf.2.acquires

/-- Scratchpad lanes of a slot, older than a stamp, accepted and not performed. -/
def State.spOlder (s : State) (k : Nat) (str : Bool) (lanes : Word) (stamp : Nat) : Bool :=
  List.any s.flights fun (nf : Nat × Flight) => decide (nf.1 < stamp) && (match nf.2 with
    | .spad x => decide (x.key = k) && inOrder x.str x.mask str lanes
    | _ => false)

/-- Scratchpad lanes of a slot accepted and not performed (R179). -/
def State.spOutstanding (s : State) (k : Nat) (str : Bool) : Bool :=
  List.any s.flights fun (nf : Nat × Flight) =>
    match nf.2 with | .spad x => decide (x.key = k) && inOrder x.str x.mask str (s.slotLanes k str) | _ => false

/-- The counters of scopes .core to S all at 0 (R161). -/
def Course.countersClear (c : Course) (scope : Nat) : Bool :=
  (List.range (scope + 1)).all fun i => if h : i < 6 then decide (c.unack[i] = 0#12) else true

/-- Changing a counter (R23). -/
def Course.count (c : Course) (scope : Nat) (f : BitVec 12 → BitVec 12) : Course :=
  { c with unack := Vector.ofFn fun i => if i.val = scope then f c.unack[i] else c.unack[i] }
def Course.counter (c : Course) (scope : Nat) : Nat := if h : scope < 6 then c.unack[scope].toNat else 0

/-- The conditions of FENCE.REL at a scope, counted from a stamp (R161): entries present then have left, the counters
read 0, the slot's earlier loads have delivered. Entries that XSW restored leave after the ERET (R268), and a handler's
fence does not wait for them (log 106). -/
def State.released (s : State) (k : Nat) (str : Bool) (stamp scope : Nat) : Bool :=
  match s.course? k with
  | some c => (c.entries.all fun e => decide (stamp ≤ e.issue) || (e.frozen && e.restored)) && c.countersClear scope &&
      !s.loadsOlder k str (c.slotLanes str) stamp
  | none => true

/-- Freezing: the handler's FENCE.REL, and what acts as one (DEDUCED, log 106), lets the entries present at trap entry leave;
those that XSW restored stay frozen until the ERET (R268). -/
def Course.thaw (c : Course) : Course := { c with sb := c.sb.map fun e => { e with frozen := e.frozen && e.restored } }

/-- Whether the executing processor has no write on its way to another package. -/
def State.procClear (s : State) : Bool :=
  match s.cur with
  | .kcore _ | .lintel _ => s.pathIdle s.cur
  | .course .. | .seq _ => true

/-- A mark in the write path (R255). -/
def State.putMark (s : State) (path : Nat) : State :=
  (s.modCore path fun c => { c with path := SMap.put c.path s.fresh .mark }).tick

/-- The mark that a FENCE.REL at a scope leaves (R255). -/
def State.markFor (s : State) (scope path : Nat) : State := if scope = 0 then s else s.putMark path

/-- What acts as FENCE.REL before its own effect (R161): it begins, holding its slot from then on, and goes on once
released, with a mark in the core's write path when its scope is wider than `.core` (R255). `more` is a further condition of
the instruction itself, by the stamp it began at. A processor's accesses are performed as it issues them (log 14), but for
writes to other packages, which it waits for: its path then needs no mark. -/
def State.afterRelease (s : State) (scope : Nat) (more : Nat → Bool) (go : State → Res) : Res :=
  match s.self with
  | none => if s.procClear then go s else .wait
  | some (k, str, c) =>
    let s := if c.handler then s.modCourse k Course.thaw else s
    match (c.slot str).hold with
    | .fence stamp | .met stamp _ =>
      if s.released k str stamp scope && more stamp then
        go ((s.modCourse k fun c => c.setSlot str { c.slot str with hold := .free }).markFor scope (s.pathOf (.course k str)))
      else .wait
    | _ =>
      if s.released k str s.fresh scope && more s.fresh then go (s.markFor scope (s.pathOf (.course k str)))
      else .stay ((s.modCourse k fun c => c.setSlot str { c.slot str with hold := .fence s.fresh }).tick)

/-- The executing agent's slot held until the reply numbered n (R141); its issue is counted now. -/
def State.awaitReply (s : State) (op n : Nat) : State :=
  let s := s.countIssue op s.chargeMask.1 s.chargeMask.2
  match s.cur with
  | .course k str => s.modCourse k fun c => c.setSlot str { c.slot str with hold := .reply n }
  | .kcore d => s.modDie d fun y => { y with kcore := { y.kcore with hold := .reply n } }
  | .lintel p => s.modPkg p fun y => { y with lintel := { y.lintel with hold := .reply n } }
  | .seq _ => s

/-! ## Single accesses of any agent -/

/-- What a single access answers. -/
inductive One where
  | ok (s : State) (pa leaf : Nat)
  | res (r : Res)

/-- The checks of a single-lane access of the executing agent (R141, R163): a course parks with an empty replay mask. -/
def State.oneAccess (s : State) (va size : Nat) (kind : AccKind) (ban : Nat → Bool) (op : Nat) : One :=
  match s.xlatOf s.cur with
  | none => .res .wait
  | some x =>
    if va % size ≠ 0 then .res (.trap .align va 0 size)
    else
      match s.translate x va kind (match s.cur with | .course .. => true | _ => false), s.self with
      | .bad c ti, _ => .res (.trap c va 0 ti)
      | .miss, some (k, str, c) => .res (if c.missHeld then .wait else .stay (s.park k str 0#32 va kind))
      | .miss, none => .res (.trap .pageFault va 0 kind.code)
      | .ok pa leaf, _ =>
        if isDevice pa && decide (kind = .store) && decide (size < 4) then .res (.trap .access va 0 1)
        else if ban pa then .res (.trap .versionBan va 0 (op * 2 ^ 24))
        else .ok (s.noteTlb x va) pa leaf

/-- The path an agent writes on and reads under: its core, or its own. -/
def State.myPath (s : State) : Nat := s.pathOf s.cur

/-- VERSIONBAN's wall-remote test of a team (R149). -/
def versionBans (t : Team) (pa : Nat) : Bool := t.version.isSome && decide (pa / 2 ^ 48 ≠ pkgOfCore t.core)

/-- The course an agent is a slot of. -/
def Agent.ofCourse (a : Agent) (k : Nat) : Bool := match a with | .course j _ => decide (j = k) | _ => false

/-! ## Scope instances and promotion (R253, R257, R260) -/

/-- Whether two agents, by their write paths, share an instance of a scope (R253). -/
def sameInstance (scope p q : Nat) : Bool :=
  decide (p = q) || (match scope with
    | 0 => false
    | 1 => decide (p < 16384) && decide (q < 16384) && decide (p / 4 = q / 4)
    | 2 => (pathDie p).isSome && decide (pathDie p = pathDie q)
    | 4 => true
    | _ => decide (pathPkg p = pathPkg q))

/-- The promotion that an acquire at a scope by an agent calls for on a release (R257, R260): the acquire's scope covers
the releaser, and the release's does not cover the acquirer. -/
def promoOf (path scope : Nat) (r : Nat × Nat × Nat) : Option (Nat × Nat) :=
  if sameInstance scope path r.1 && !sameInstance r.2.1 r.1 path then some (r.1, r.2.2) else none

/-- The promotion that an acquire of a line calls for: the writer's core and the release's place in its write path. -/
def State.promoNeeds (s : State) (path pa scope : Nat) : Option (Nat × Nat) :=
  if (s.line pa).relValid then promoOf path scope (s.line pa).release else none

/-- Whether an item of a write path is still to be performed at its home. -/
def PathItem.waits (x : PathItem) : Bool :=
  match x with
  | .write w => !w.landed
  | .red .. => true
  | .mark => false

/-- Whether a core has performed every write passed on before a release (R260). -/
def State.pathClear (s : State) (core upTo : Nat) : Bool :=
  !(List.any (s.core core).path fun (ki : Nat × PathItem) => decide (ki.1 < upTo) && ki.2.waits)

/-- Whether a core has performed what a course may have seen in its write path before a stamp: what was passed on by then, and
the course's own stores issued by then (R265, R266). -/
def State.seenPerformed (s : State) (core k stamp : Nat) : Bool :=
  s.pathClear core stamp && !(List.any (s.core core).path fun (ki : Nat × PathItem) => match ki.2 with
    | .write w => w.owner.ofCourse k && decide (w.issue < stamp) && !w.landed
    | .mark | .red .. => false)

/-- Whether the promotion an acquire calls for has nothing left to wait for. -/
def State.promotionClear (s : State) (path pa scope : Nat) : Bool :=
  match s.promoNeeds path pa scope with
  | none => true
  | some (c, n) => s.pathClear c n

/-- A release that a relaxed load reads is noted with its slot, or its processor, when an acquire may have to promote it (R257). -/
def State.noteSeen (s : State) (a : Agent) (lanes : Word) (core : Nat) (r : Nat × Nat × Nat) : State :=
  let add (str : Bool) (xs : List Seen) : List Seen :=
    let x : Seen := { core := r.1, upTo := r.2.2, str := str, lanes := lanes }
    if xs.contains x then xs else xs ++ [x]
  if (promoOf core 4 r).isSome && !s.pathClear r.1 r.2.2 then
    match a with
    | .course k str => s.modCourse k fun c => { c with seen := add str c.seen }
    | .kcore _ | .lintel _ => (match s.proc? a with | some p => s.setProc a { p with seen := add false p.seen } | none => s)
    | .seq _ => s
  else s

/-- Whether the releases that a slot's earlier loads have read, and that a fence at a scope covers, are promoted (R257,
R260); those that are, forgotten. -/
def State.seenClear (s : State) (k : Nat) (str : Bool) (scope : Nat) : Bool :=
  match s.course? k with
  | some c => c.seen.all fun x => !(inOrder x.str x.lanes str (c.slotLanes str) &&
      sameInstance scope (s.pathOf (.course k str)) x.core) || s.pathClear x.core x.upTo
  | none => true
def State.forgetSeen (s : State) (k : Nat) : State :=
  s.modCourse k fun c => { c with seen := c.seen.filter fun x => !s.pathClear x.core x.upTo }

/-- The same for the executing processor. -/
def State.procSeenClear (s : State) (scope : Nat) : Bool :=
  match s.proc? s.cur with
  | some p => p.seen.all fun x => !sameInstance scope (s.pathOf s.cur) x.core || s.pathClear x.core x.upTo
  | none => true

/-- What FENCE.ACQ at a scope waits for (R161, R257): the slot's earlier loads and returning atomics have delivered, and
the releases they read are promoted. -/
def State.acquired (s : State) (k : Nat) (str : Bool) (scope : Nat) : Bool :=
  !s.loadsOlder k str (s.slotLanes k str) s.fresh && s.seenClear k str scope

/-- What a wait that acts as FENCE.ACQ does when it completes (R189, R193, R315). -/
def State.selfAcquired (s : State) (scope : Nat) : Bool :=
  match s.self with
  | some (k, str, _) => s.acquired k str scope
  | none => s.procSeenClear scope

/-- What the executing slot's acquire has promoted is forgotten. -/
def State.forgetSelf (s : State) : State :=
  match s.self with
  | some (k, _, _) => s.forgetSeen k
  | none => (match s.proc? s.cur with
    | some p => s.setProc s.cur { p with seen := p.seen.filter fun x => !s.pathClear x.core x.upTo }
    | none => s)

/-! ## A slot's own earlier accesses (R150, R255, R323) -/

/-- Whether two byte ranges overlap. -/
def overlaps (a n b m : Nat) : Bool := decide (a < b + m) && decide (b < a + n)

/-- Whether a half-line entry of a course holds bytes of a range. -/
def SbEntry.touches (e : SbEntry) (va size : Nat) : Bool :=
  (List.range size).any fun i => (e.byte (va + i)).isSome

/-- Whether an item of a write path that is still to be performed writes bytes of a range. -/
def PathItem.touches (x : PathItem) (pa size : Nat) : Bool :=
  match x with
  | .write w => !w.landed && (List.range size).any fun i => decide (w.pa ≤ pa + i) && ((w.bytes[pa + i - w.pa]?).getD none).isSome
  | .red _ a n => overlaps a n pa size
  | .mark => false

/-- Whether older atomics of a slot to bytes of a range are not yet performed. -/
def State.atomsOlder (s : State) (k : Nat) (str : Bool) (lanes : Word) (stamp va size : Nat) : Bool :=
  List.any s.flights fun (nf : Nat × Flight) => decide (nf.1 < stamp) && (match nf.2 with
    | .atom g => (match g.owner with
      | .course j b => decide (j = k) && inOrder b g.mask str lanes && overlaps g.va g.size va size
      | _ => false)
    | _ => false)

/-- Whether older stores of a slot to bytes of a range are still in its course's buffer. -/
def Course.storesOlder (c : Course) (str : Bool) (lanes : Word) (stamp va size : Nat) : Bool :=
  c.entries.any fun e => decide (e.issue < stamp) && inOrder e.slot e.lanes str lanes && e.touches va size

/-- Whether a core's write path holds writes to bytes of a range (R255). -/
def State.pathTouches (s : State) (path pa size : Nat) : Bool :=
  List.any (s.core path).path fun (ki : Nat × PathItem) => ki.2.touches pa size

/-- Whether a write path holds register writes that are not performed yet (R323). -/
def State.pathDevices (s : State) (path : Nat) : Bool :=
  List.any (s.core path).path fun (ki : Nat × PathItem) => match ki.2 with
    | .write w => isDevice w.pa && !w.landed
    | .mark | .red .. => false

/-- Whether bytes of the register window take in RESUME of a die (R335). -/
def isResume (pa n : Nat) : Bool :=
  isDevice pa && decide (pa % 2 ^ 48 - regLo < 0x08000000) && overlaps ((pa % 2 ^ 48 - regLo) % 0x01000000) n 0x100018 4

/-- Whether a course, one agent, has register accesses older than a stamp that are not yet performed (R323). -/
def State.devicesOlder (s : State) (k stamp : Nat) : Bool :=
  (match s.course? k, s.team? (k / 16) with
   | some c, some t => c.entries.any fun e => decide (e.issue < stamp) &&
       (match s.translate t.xlat e.va.toNat .store false with | .ok p _ => isDevice p | _ => false)
   | _, _ => false) ||
  (List.any (s.core (s.pathOf (.course k false))).path fun (ki : Nat × PathItem) => match ki.2 with
    | .write w => w.owner.ofCourse k && isDevice w.pa && !w.landed
    | .mark | .red .. => false) ||
  (List.any s.flights fun (nf : Nat × Flight) => decide (nf.1 < stamp) && (match nf.2 with
    | .load y => decide (y.key = k) && isDevice y.pa && y.got.isNone
    | .group y => y.agent.ofCourse k && (match y.op with | .load pa .. => isDevice pa | _ => false)
    | _ => false))

/-- Whether an acquire of a slot that reads at the home may read: the slot's own earlier accesses to the bytes are
performed, and no write of its core to them is on its way there (R255, R256). -/
def State.homeClear (s : State) (k : Nat) (str : Bool) (lanes : Word) (stamp va pa size : Nat) : Bool :=
  (match s.course? k with | some c => !c.storesOlder str lanes stamp va size | none => true) &&
  !s.atomsOlder k str lanes stamp va size && !s.pathTouches (s.pathOf (.course k str)) pa size

/-- A byte at its home as a team's course reads it: its version's, if it has one (R285). -/
def State.homeByte (s : State) (v : Option Nat) (pa key : Nat) : Byte := (s.versionByte v pa).getD (s.byteUnder pa key)

/-- A value the executing agent's wait reads at its home, or from a register (R163, R164); none while earlier accesses of
the agent must be performed first. -/
def State.waitRead (s : State) (va pa size key : Nat) : Option Nat :=
  match s.self with
  | some (k, str, c) =>
    let v := match s.team? (k / 16) with | some t => t.versionOf (k / 16) | none => none
    if isDevice pa then (if s.devicesOlder k s.fresh then none else some (s.devRead pa size (.agent s.cur)))
    else if s.acquireOlder k str (c.slotLanes str) s.fresh || !s.homeClear k str (c.slotLanes str) s.fresh va pa size then none
    else some (ofBytes ((List.range size).map fun i => s.homeByte v (pa + i) key))
  | none =>
    if isDevice pa then (if s.pathDevices s.myPath then none else some (s.devRead pa size (.agent s.cur)))
    else if s.pathTouches s.myPath pa size then none
    else some (s.natUnder pa size key)

/-- Whether the value that the executing agent's wait reads is poisoned (R163, R164). -/
def State.waitPoisoned (s : State) (pa : Nat) : Bool :=
  match s.self with
  | some (k, _, _) => s.poisonedIn (match s.team? (k / 16) with | some t => t.versionOf (k / 16) | none => none) pa
  | none => s.poisoned pa

/-- Whether a slot's scratchpad accesses to bytes of a scratchpad are still in flight (R146, R178). -/
def State.spadOlder (s : State) (k : Nat) (str : Bool) (target offset size : Nat) : Bool :=
  List.any s.flights fun (nf : Nat × Flight) => match nf.2 with
    | .spad x => decide (x.key = k) && inOrder x.str x.mask str (s.slotLanes k str) && decide (x.target = target) &&
        overlaps x.offset x.size offset size
    | _ => false

end Sys2Proof.Machine
end

