-- ==== Sys2Proof/Machine/Links.lean ====
section
/-! DEFINITION. Wall packets on their way: routes and credits (23_wall_fabric R407, R411-R414), requests and answers
(R415), and the invalidations a home sends before a write (16_die_memory R325). -/

namespace Sys2Proof.Machine

open Sys2Proof

/-! ## Routes and credits (R411-R413) -/

/-- The wall link of package i toward j (R397), as a port. -/
def wallPort (i j : Nat) : Nat := 32 + (j + 16 - i) % 16
def State.linkLive (s : State) (i j : Nat) : Bool :=
  decide ((SMap.getD (s.pkg i).ports Port.init (wallPort i j)).state = .live)

/-- The route the link states give (R411): code and relay. -/
def State.bestRoute (s : State) (i j : Nat) : Nat × Nat :=
  if i = j then (3, 0)
  else if s.linkLive i j then (0, 0)
  else
    match (List.range 16).find? fun n =>
        let r := (j + 1 + n) % 16
        decide (r ≠ i) && decide (r ≠ j) && s.linkLive i r && s.linkLive r j with
    | some n => (1, (j + 1 + n) % 16)
    | none => (2, 0)

/-- The route in force (R414). -/
def routeOff (j : Nat) : Nat := wallBase + 0x100 + 8 * j
def State.route (s : State) (i j : Nat) : Nat × Nat :=
  let w := s.reg i (routeOff j)
  (bitsOf w 31 30, bitsOf w 27 24)

/-- LEN of a packet with n payload bytes after its prefix (R407, R408). -/
def lenOf (n : Nat) : Nat := (32 + n + 31) / 32

/-- The credits a packet needs (R413). -/
def Packet.credits (k : Packet) : Nat := (16 + 32 * k.len + 127) / 128

def State.useCredits (s : State) (i j n : Nat) : State :=
  s.modPkg i fun x => { x with credits := SMap.setD x.credits 0 j (SMap.getD x.credits 0 j + n) }
def State.returnCredits (s : State) (i j n : Nat) : State :=
  s.modPkg i fun x => { x with credits := SMap.setD x.credits 0 j (SMap.getD x.credits 0 j - n) }

/-- Whether a relay's buffer of 64 KiB has room for a packet (R411); one that finds none waits where it is (DESIGN CHOICE, log
17). -/
def State.relayRoom (s : State) (relay : Nat) (k : Packet) : Bool :=
  decide (List.foldl (fun n (nk : Nat × Packet) => if nk.2.det ∧ nk.2.relay = relay then n + (16 + 32 * nk.2.len) else n) 0 s.packets +
    (16 + 32 * k.len) ≤ 65536)

/-- Whether package i may send a packet to j now (R411-R413): no change of route is due, the credits are held, and a relay on
the way has room. -/
def State.maySend (s : State) (k : Packet) : Bool :=
  let r := s.route k.src k.dst
  decide (r.1 < 2) && decide (r = s.bestRoute k.src k.dst) && decide (k.credits ≤ s.creditsLeft k.src k.dst) &&
    (decide (r.1 = 0) || s.relayRoom r.2 k)

/-- Whether what package i needs of package j, if it is another, has a route now: it is direct or by a relay (R398, R411). -/
def State.reaches (s : State) (i j : Nat) : Bool := decide ((s.bestRoute i j).1 ≠ 2)

/-- A packet of a type with nothing in it; promotions and invalidations have priority (R407). -/
def Packet.blank (type dst src : Nat) : Packet :=
  { type := type, dst := dst, src := src, tag := 0, len := 1, det := false, relay := 0, pri := decide (0x0B ≤ type ∧ type ≤ 0x0E),
    poi := false, snap := false, og := 0, step := 0, reserved := 0, addr := 0, key := 0, stamp := 0, scope := 0, atomOp := 0,
    core := 0, payload := [], mask := [], lanes := [], circuit := none, whole := false, freed := false }

/-- The 16 bytes of a header (R407), and the packet a header begins. -/
def Packet.header (k : Packet) : BitVec 128 :=
  BitVec.ofNat 128 (k.type + k.dst * 2 ^ 8 + k.src * 2 ^ 12 + k.tag * 2 ^ 16 + k.len * 2 ^ 28 + boolNat k.det * 2 ^ 36 +
    boolNat k.pri * 2 ^ 37 + boolNat k.poi * 2 ^ 38 + boolNat k.snap * 2 ^ 39 + k.og * 2 ^ 40 + k.step * 2 ^ 44 +
    k.reserved * 2 ^ 60 + k.addr * 2 ^ 64 + k.key * 2 ^ 116)
def Packet.ofHeader (w : BitVec 128) : Packet :=
  let f (hi lo : Nat) : Nat := bitsOf w.toNat hi lo
  { Packet.blank (f 7 0) (f 11 8) (f 15 12) with
    tag := f 27 16, len := f 35 28, det := w.getLsbD 36, pri := w.getLsbD 37, poi := w.getLsbD 38, snap := w.getLsbD 39, og := f 43 40,
    step := f 59 44, reserved := f 63 60, addr := f 115 64, key := f 127 116 }

/-- The 32 bytes before a payload (R408). -/
def Packet.prefixBytes (k : Packet) : List Byte :=
  bytesOf 8 k.stamp ++ bytesOf 1 k.scope ++ bytesOf 1 k.atomOp ++ bytesOf 2 k.core ++ List.replicate 20 0#8

/-- The key of a transaction: tags are per pair of packages (R407). -/
def txKey (dst tag : Nat) : Nat := 4096 * dst + tag

/-- The lowest free tag toward a package. -/
def freeTag (txs : SMap WallTx) (dst : Nat) : Nat :=
  List.foldl (fun t (kv : Nat × WallTx) => if kv.1 = txKey dst t then t + 1 else t) 0 txs

/-- A sent flit kept in the retry buffer of port n of package p (R400), with what it belongs to; a packet or chunk counts as
one. -/
def State.keepFlit (s : State) (p n owner key : Nat) : State :=
  s.modPkg p fun x => { x with ports := SMap.put x.ports n (
    let y := SMap.getD x.ports Port.init n
    { y with unacked := y.unacked ++ [(y.nextFlit, owner, key)], nextFlit := y.nextFlit + 1 }) }

/-- The transaction a packet belongs to (R407): its package and key; a notice's key is no transaction's. -/
def Packet.tx (k : Packet) : Nat × Nat :=
  if k.type = 0x12 then (k.src, 65536)
  else if [0x02, 0x06, 0x08, 0x0C, 0x0E].contains k.type then (k.dst, txKey k.src k.tag) else (k.src, txKey k.dst k.tag)

/-- The flit of a packet on its first link, or from its relay on its second (R400, R411). -/
def State.keepLink (s : State) (k : Packet) : State :=
  if k.det then s.keepFlit k.src (wallPort k.src k.relay) k.tx.1 k.tx.2
  else s.keepFlit k.src (wallPort k.src k.dst) k.tx.1 k.tx.2
def State.keepRelay (s : State) (k : Packet) : State := s.keepFlit k.relay (wallPort k.relay k.dst) k.tx.1 k.tx.2

/-- Sending a request: none while it must wait at its source (R412, R413). -/
def State.request (s : State) (k : Packet) (sv : Serves) : Option State :=
  let tag := freeTag (s.pkg k.src).txs k.dst
  if s.maySend k && decide (tag < 4096) then
    let k := { k with tag := tag, det := decide ((s.route k.src k.dst).1 = 1), relay := (s.route k.src k.dst).2 }
    let s := (s.useCredits k.src k.dst k.credits).modPkg k.src fun x =>
      { x with txs := SMap.put x.txs (txKey k.dst tag) { pkt := k, serves := sv, reply := none, query := 0, since := x.time } }
    let s := s.keepLink k
    some { s with packets := requeue s.packets k }
  else none

/-- A packet leaves its destination's ingress (R413). -/
def State.leave (s : State) (n : Nat) (k : Packet) : State :=
  ({ s with packets := SMap.del s.packets n }).returnCredits k.src k.dst k.credits

/-- The transaction of a request packet at its source. -/
def State.txOf (s : State) (k : Packet) : Option WallTx := SMap.find? (s.pkg k.src).txs (txKey k.dst k.tag)

/-- An answer or a notice leaves by the route that the links give (R398, R411; log 17), direct or by a relay, once the credits
for it are held (R413); until then it waits where it was formed. -/
def State.issuePacket (s : State) (r : Packet) : State :=
  let (code, relay) := s.bestRoute r.src r.dst
  let r' : Packet := { r with det := decide (code = 1), relay := if code = 1 then relay else 0 }
  if decide (code ≠ 2) && decide (r.credits ≤ s.creditsLeft r.src r.dst) && (decide (code ≠ 1) || s.relayRoom relay r') then
    let s := (s.useCredits r.src r.dst r.credits).keepLink r'
    { s with packets := requeue s.packets r' }
  else { s with packets := requeue s.packets { r with det := true, relay := 16 } }

/-- A performed request is marked done and answered (R415). -/
def State.answer (s : State) (k r : Packet) : State :=
  let r : Packet := { r with tag := k.tag }
  (s.modPkg k.src fun x =>
    { x with txs := SMap.modify x.txs (txKey k.dst k.tag) fun t => { t with reply := some r } }).issuePacket r

/-- Whether a packet is an answer (R408). -/
def Packet.isAnswer (k : Packet) : Bool := [0x02, 0x06, 0x08, 0x0C, 0x0E].contains k.type

/-- WTO of a package, in ns (R414); 0 is stored as 1. -/
def State.wallTimeoutNs (s : State) (p : Nat) : Nat := 1000 * bitsOf (s.reg p wallBase) 15 0

/-- Package time is at least n ns past a moment. -/
def Pkg.past (x : Pkg) (since n : Nat) : Bool := decide (since + n ≤ x.time)

/-! ## Invalidations (R325, R408) -/

/-- Invalidations of a line's copies in other packages, sent once each; a package that no route reaches counts as
holding none (log 15). -/
def State.invalidate (s : State) (pa : Nat) : State :=
  let line := lineOf (s.forward pa)
  let home := pa / 2 ^ 48
  (List.range 16).foldl (fun s q =>
    if !(s.line pa).psh.getLsbD q then s
    else if List.any (s.pkg home).txs fun (kt : Nat × WallTx) =>
        decide (kt.2.serves = .inval line) && decide (kt.2.pkt.dst = q) then s
    else if q = home ∨ (s.route home q).1 = 2 then
      { s with dir := SMap.modify s.dir line fun l => { l with psh := l.psh &&& ~~~ (BitVec.ofNat 16 (2 ^ q)) } }
    else (s.request { Packet.blank 0x0B q home with addr := 128 * line } (.inval line)).getD s) s

end Sys2Proof.Machine
end

