-- ==== Sys2Proof/Machine/Mem.lean ====
section
/-! DEFINITION. The memory instructions of a course and GLD and GST (07_course_memory R145-R165, 06 R141). -/

namespace Sys2Proof.Machine

open Sys2Proof

/-- Sign-extended imm12. -/
def addImm (a : Nat) (i : BitVec 12) : Nat := wrapTo 64 ((a : Int) + i.toInt)

/-- Access size in bytes of a whole-word form, and of a narrow one (R148, R153). -/
def ElemType.bytes (t : ElemType) : Nat := if t.wide then 8 else 4
def ElemType.narrow (t : ElemType) : Nat := if t.width = 16 then 2 else 1

/-- The packed types (R148). -/
def packedEt (t : ElemType) : Bool := decide (1 < t.count)

/-- The course as the checks of a re-execution see it (R168): the destination bits that the parked instruction itself
emptied hold it back no more (DEDUCED, log 101). -/
def Course.ownBits (c : Course) (str : Bool) (act : Word) (dest : Option (Nat × Bool)) : Course :=
  match (c.slot str).replay, dest with
  | some _, some (d, w) => (lanesOf act).foldl (fun c l => c.arriveFail l (d - 16) w) c
  | _, _ => c

/-- A per-lane memory instruction: R83, the operand checks over the active lanes, then the sequence of R149. -/
def State.memVec (s : State) (op : Nat) (accepts : Bool) (uses : List Use) (dest : Option (Nat × Bool))
    (body : Nat → Bool → Course → Word → Res) : Res :=
  s.asCourse fun k str c =>
    if !accepts then etIllegal op
    else
      let act := c.active str
      match (c.ownBits str act dest).checks act uses dest with
      | some r => r
      | none => body k str c act

/-- The lane loads of one instruction go in flight (R150): `acquire` and `sc` as R256 and R262. -/
def State.sendLoads (s : State) (k : Nat) (str : Bool) (c : Course) (reg size : Nat) (sext wide : Bool)
    (acquire : Option Nat) (sc : Bool) (hits : List (Nat × Nat × Nat × Nat)) : State :=
  let v := match s.team? (k / 16) with | some t => t.versionOf (k / 16) | none => none
  let low := (lanesOf (c.slot str).mask).find? c.guard
  hits.foldl (fun s h => s.send (.load
    { since := if low = some h.1 then some (s.pkg (pkgOfCore (s.pathOf (.course k str)))).time else none, key := k, str := str, mask := c.slotLanes str, lane := h.1, reg := reg, size := size, sext := sext, wide := wide,
      va := h.2.1, pa := h.2.2.1, fwd := List.replicate size none, acquire := acquire,
      sc := if sc then some 0 else none, version := v, asked := false, promoting := false, promoted := false, got := none, keyId := leafKey h.2.2.2,
      pc := (c.slot str).pc })) s

/-- A load instruction of the global space. -/
def State.loadOp (s : State) (op d a : Nat) (accepts : Bool) (more : List Use) (addr : Course → Nat → Nat → Nat)
    (size : ElemType → Nat) (sext wide : ElemType → Bool) (acquire : Option Nat) (sc : Bool) : Res :=
  s.memVec op accepts ([⟨a, .n64, 13⟩] ++ more) (some (d, wide s.et)) fun k str c act =>
    s.lanesOp op act (fun l => addr c l (c.src .n64 a l)) (size c.et) (size c.et) .load false (fun _ => false)
      (some (d, wide c.et)) fun s hits =>
        .inl (s.sendLoads k str c (d - 16) (size c.et) (sext c.et) (wide c.et) acquire sc hits)

/-- LD (R153). -/
def execLd (d a : BitVec 6) (i : BitVec 12) (s : State) : Out :=
  s.runWord (.ld d a i) (s.loadOp 0x80 d.toNat a.toNat true [] (fun _ _ x => addImm x i) ElemType.bytes
    (fun _ => false) ElemType.wide none false)

/-- LDN (R148, R153). -/
def execLdn (d a : BitVec 6) (i : BitVec 12) (s : State) : Out :=
  s.runWord (.ldn d a i) (s.loadOp 0x81 d.toNat a.toNat (packedEt s.et) [] (fun _ _ x => addImm x i) ElemType.narrow
    (fun t => t.signed && t.isInt) (fun _ => false) none false)

/-- The scaled index of LDX and STX (R154). -/
def indexed (x : BitVec 1) (n : BitVec 2) (base idx : Nat) : Nat := lea (x == 1#1) n.toNat base idx

/-- LDX (R154). -/
def execLdx (d a b : BitVec 6) (x : BitVec 1) (n : BitVec 2) (s : State) : Out :=
  s.runWord (.ldx d a b x n) (s.loadOp 0x86 d.toNat a.toNat true [⟨b.toNat, .n32, 14⟩]
    (fun c l y => indexed x n y (c.src .n32 b.toNat l)) ElemType.bytes (fun _ => false) ElemType.wide none false)

/-- LDACQ (R152, R256). -/
def execLdacq (d a : BitVec 6) (sc : BitVec 3) (s : State) : Out :=
  s.runWord (.ldacq d a sc) (s.loadOp 0x88 d.toNat a.toNat true [] (fun _ _ x => x) ElemType.bytes (fun _ => false)
    ElemType.wide (some sc.toNat) false)

/-- LDSC (R152, R262). -/
def execLdsc (d a : BitVec 6) (sc : BitVec 3) (s : State) : Out :=
  s.runWord (.ldsc d a sc) (s.loadOp 0x8A d.toNat a.toNat true [] (fun _ _ x => x) ElemType.bytes (fun _ => false)
    ElemType.wide (some sc.toNat) true)

/-! ## Stores -/

/-- The store lanes of one instruction enter the buffer (R22, R151); a versioned team may stall (R287). -/
def State.enterStores (s : State) (k : Nat) (str : Bool) (ps : List PendingStore) (pas : List Nat) :
    State ⊕ (State → State) :=
  match s.course? k, s.team? (k / 16) with
  | some c, some t =>
    if s.versionFull t pas then .inr fun s => s.stallVersion (k / 16) t pas
    else
      let clock := (s.core t.core).clock
      let (c', rest) := c.enterLanes s.fresh str (c.slotLanes str) clock (s.stepOf t.core) ps
      let c' := match rest with
        | [] => c'
        | _ => c'.setSlot str { c'.slot str with hold := .entering s.fresh rest 0#32 }
      .inl (s.setCourse k c').tick
  | _, _ => .inr fun s => s

/-- A store whose earlier lanes have entered goes on entering (R22). -/
def State.resumeEntering (s : State) (k : Nat) (str : Bool) (c : Course) (st : Nat) (rest : List PendingStore)
    (left : Word) : Res :=
  let (clock, step) := match s.team? (k / 16) with | some t => ((s.core t.core).clock, s.stepOf t.core) | none => (0, 0)
  let (c', rest') := c.enterLanes st str (c.slotLanes str) clock step rest
  match rest' with
  | [] =>
    if left = 0#32 then .done (s.setCourse k c')
    else .stay (s.setCourse k (c'.setSlot str { c'.slot str with hold := .free, replay := some left }))
  | _ =>
    if rest'.length = rest.length then .wait
    else .stay (s.setCourse k (c'.setSlot str { c'.slot str with hold := .entering st rest' left }))

/-- A store instruction: `kind` and `scope` of its entries, `data` the bytes of a lane. -/
def State.storeOp (s : State) (op d a : Nat) (accepts : Bool) (dty : ElemType) (more : List Use)
    (addr : Course → Nat → Nat → Nat) (size : Nat) (kind scope : Nat) (banAll : Bool)
    (flag : Course → Nat → Nat → Option FlagInfo) : Res :=
  s.memVec op accepts ([⟨a, .n64, 13⟩, ⟨d, dty, 15⟩] ++ more) none fun k str c act =>
    match (c.slot str).hold, s.team? (k / 16) with
    | .entering st rest left, _ => s.resumeEntering k str c st rest left
    | _, none => .wait
    | _, some t =>
      s.lanesOp op act (fun l => addr c l (c.src .n64 a l)) size size .store
        (banAll && t.version.isSome) (versionBans t) none fun s hits =>
          s.enterStores k str (hits.map fun h =>
            { addr := h.2.1, bytes := bytesOf size (c.src dty d h.1), key := leafKey h.2.2.2, kind := BitVec.ofNat 4 kind,
              scope := BitVec.ofNat 3 scope, lane := h.1,
              flag := if h.2.2.1 / 2 ^ 48 = pkgOfCore t.core then none else flag c h.1 h.2.2.1 }) (hits.map fun h => h.2.2.1)

/-- No FLAGW. -/
def noFlag (_ : Course) (_ _ : Nat) : Option FlagInfo := none

/-- ST (R153). -/
def execSt (d a : BitVec 6) (i : BitVec 12) (s : State) : Out :=
  s.runWord (.st d a i) (s.storeOp 0x82 d.toNat a.toNat true s.et [] (fun _ _ x => addImm x i) s.et.bytes 0 0 false noFlag)

/-- STN (R148, R153). -/
def execStn (d a : BitVec 6) (i : BitVec 12) (s : State) : Out :=
  s.runWord (.stn d a i) (s.storeOp 0x83 d.toNat a.toNat (packedEt s.et) s.et [] (fun _ _ x => addImm x i) s.et.narrow 1 0
    false noFlag)

/-- STX (R154). -/
def execStx (d a b : BitVec 6) (x : BitVec 1) (n : BitVec 2) (s : State) : Out :=
  s.runWord (.stx d a b x n) (s.storeOp 0x87 d.toNat a.toNat true s.et [⟨b.toNat, .n32, 14⟩]
    (fun c l y => indexed x n y (c.src .n32 b.toNat l)) s.et.bytes 0 0 false noFlag)

/-- STREL (R152). -/
def execStrel (d a : BitVec 6) (sc : BitVec 3) (s : State) : Out :=
  s.runWord (.strel d a sc) (s.storeOp 0x89 d.toNat a.toNat true s.et [] (fun _ _ x => x) s.et.bytes 2 sc.toNat false noFlag)

/-- STSC (R152, R262, R263). -/
def execStsc (d a : BitVec 6) (sc : BitVec 3) (s : State) : Out :=
  s.runWord (.stsc d a sc) (s.storeOp 0x8B d.toNat a.toNat true s.et [] (fun _ _ x => x) s.et.bytes 3 sc.toNat false noFlag)

/-- FLAGW (R158): a release at .wall of one word, with a count when it leaves the package. -/
def execFlagw (d a b : BitVec 6) (g : BitVec 4) (s : State) : Out :=
  s.runWord (.flagw d a b g) (s.storeOp 0x92 d.toNat a.toNat true .n32 [⟨b.toNat, .n32, 14⟩] (fun _ _ x => x) 4 2 4 true
    fun c l pa => some { count := bitsOf (c.src .n32 b.toNat l) 11 0, group := g.toNat, pkg := pa / 2 ^ 48 })

/-! ## Scratchpad (R146, R178) -/

/-- Where a scratchpad offset leads (R146): the target team's handle, the offset in it, the member, and whether it is a
window access; or SPBOUND with its TINFO. -/
def State.spTarget (s : State) (h : Nat) (t : Team) (o size : Nat) : (Nat × Nat × Nat × Bool) ⊕ Nat :=
  if o < 2 ^ 31 then (if o + size ≤ t.spSize then .inl (h, o, t.core % 4, false) else .inr 0)
  else
    let m := bitsOf o 30 29
    let o' := bitsOf o 28 0
    if t.gang.length < 2 then .inr 1
    else if m = t.core % 4 then (if o' + size ≤ t.spSize then .inl (h, o', m, false) else .inr 0)
    else
      let core := t.core / 4 * 4 + m
      match List.find? (fun (kt : Nat × Team) => decide (kt.2.core = core) && decide (kt.2.gangHead = t.gangHead) &&
          (decide (kt.2.residency = .resident) || decide (kt.2.residency = .saving))) s.teams with
      | none => .inr 1
      | some (h', t') => if o' + size ≤ t'.spSize then .inl (h', o', m, true) else .inr 0

/-- Lanes that name one word of one scratchpad, by whatever offset (R146), in the order of their lowest lanes (R178). -/
def groupTargets {α : Type} [DecidableEq α] (rs : List (Nat × α)) : List (α × List Nat) :=
  rs.foldl (fun gs r =>
    if gs.any fun g => decide (g.1 = r.2) then gs.map fun g => if g.1 = r.2 then (g.1, g.2 ++ [r.1]) else g
    else gs ++ [(r.2, [r.1])]) []

/-- A scratchpad instruction over the active lanes: alignment before bounds (R149), then the bank requests: one for each lane,
or, where lanes share an access, one for all that name a word, queued under the lowest (R178). TINFO is the lowest raising
lane's (DESIGN CHOICE, log 105). -/
def State.spadOp (s : State) (act : Word) (share : Bool) (addr : Nat → Nat) (size : Nat) (dest : Option (Nat × Bool))
    (op : Course → List Nat → SpOp) : Res :=
  s.asCourse fun k str c =>
    match s.team? (k / 16) with
    | none => .wait
    | some t =>
      let rs := (lanesOf act).map fun l => (l, addr l, s.spTarget (k / 16) t (addr l) size)
      let mis := rs.filter fun r => decide (r.2.1 % size ≠ 0)
      let out := rs.filter fun r => match r.2.2 with | .inr _ => true | _ => false
      let mask (xs : List (Nat × Nat × ((Nat × Nat × Nat × Bool) ⊕ Nat))) : Nat :=
        (xs.map fun r => 2 ^ r.1).foldl (· + ·) 0
      match mis, out with
      | r :: _, _ => .trap .align r.2.1 (mask mis) size
      | [], r :: _ => .trap .spBound r.2.1 (mask out) (match r.2.2 with | .inr n => n | _ => 0)
      | [], [] =>
        let s1 := match dest with
          | some (d, w) => s.modCourse k fun c => c.emptyDest act d w
          | none => s
        let places := rs.filterMap fun r => match r.2.2 with | .inl p => some (r.1, p) | .inr _ => none
        let groups := if share then groupTargets places else places.map fun r => (r.2, [r.1])
        .done (groups.foldl (fun s g =>
          let (h, o, m, win) := g.1
          s.send (.spad { key := k, str := str, mask := c.slotLanes str, lane := (g.2.head?).getD 0, pc := (c.slot str).pc, target := h,
                          member := m, offset := o, size := size, window := win, op := op c g.2 })) s1)

/-- A 32-bit offset (R148). -/
def spAddr (a : Nat) (i : BitVec 12) : Nat := wrapTo 32 ((a : Int) + i.toInt)

/-- LDS (R153): lanes that name one word read it in one access of its bank (R178). -/
def execLds (d a : BitVec 6) (i : BitVec 12) (s : State) : Out :=
  s.runWord (.lds d a i) (s.memVec 0x84 true [⟨a.toNat, .n32, 13⟩] (some (d.toNat, s.et.wide)) fun _ _ c act =>
    s.spadOp act true (fun l => spAddr (c.src .n32 a.toNat l) i) c.et.bytes (some (d.toNat, c.et.wide))
      fun c ls => .load (d.toNat - 16) c.et.wide ls)

/-- STS (R153). -/
def execSts (d a : BitVec 6) (i : BitVec 12) (s : State) : Out :=
  s.runWord (.sts d a i) (s.memVec 0x85 true [⟨a.toNat, .n32, 13⟩, ⟨d.toNat, s.et, 15⟩] none fun _ _ c act =>
    s.spadOp act false (fun l => spAddr (c.src .n32 a.toNat l) i) c.et.bytes none
      fun c ls => .store (bytesOf c.et.bytes (c.src c.et d.toNat ((ls.head?).getD 0))))

/-! ## Atomics (R155, R156) -/

/-- The element types an atomic operation accepts (R155). -/
def atomEt (op : Nat) (t : ElemType) : Bool :=
  match op with
  | 0 => decide (t.count = 1) || decide (t = .bf16x2)
  | 1 | 2 => decide (t.count = 1)
  | 3 | 4 | 5 => decide (t.count = 1) && t.isInt
  | _ => true

/-- One application of an operation to memory value m and operand x (R155): RNE, MODE.FTZ as at issue, wrapping, no SAT,
no flags, canonical NaN. -/
def atomApply (op : Nat) (t : ElemType) (ftz : Bool) (m x : Nat) : Nat :=
  let a : AluMode := { et := t, sat := false, rm := 0, ftz := ftz }
  match op with
  | 0 => if t.isInt then iadd a m x else (fadd a m x).bits
  | 1 => if t.isInt then imin a m x else (fminmax a false m x).bits
  | 2 => if t.isInt then imax a m x else (fminmax a true m x).bits
  | 3 => bitAnd t m x
  | 4 => bitOr t m x
  | _ => bitXor t m x

/-- A group of lanes performed as one event (R156): the new memory value and each lane's returned value. -/
def atomGroup (op : Nat) (t : ElemType) (ftz : Bool) (m : Nat) (ls : List AtomLane) : Nat × List (AtomLane × Nat) :=
  match op with
  | 6 =>
    let r := ls.foldl (fun (a : Nat × List (AtomLane × Nat)) l => (l.x, a.2 ++ [(l, a.1)])) (m, [])
    r
  | 7 => ls.foldl (fun (a : Nat × List (AtomLane × Nat)) l =>
      (if a.1 = l.cmp then l.x else a.1, a.2 ++ [(l, a.1)])) (m, [])
  | _ =>
    let r := ls.foldl (fun (a : Option Nat × List (AtomLane × Nat)) l => match a.1 with
      | none => (some l.x, a.2 ++ [(l, m)])
      | some y => (some (atomApply op t ftz y l.x), a.2 ++ [(l, atomApply op t ftz m y)])) (none, [])
    (match r.1 with | some y => atomApply op t ftz m y | none => m, r.2)

/-- A BF16x2 addition adds each half by itself, and the two halves are not atomic as a pair (R155): they are two events. -/
def atomSplits (op : Nat) (t : ElemType) : Bool := decide (op = 0) && decide (t = .bf16x2)

/-- The upper or lower half of a word; a word with one half replaced. -/
def halfOf (up : Bool) (v : Nat) : Nat := if up then v / 65536 % 65536 else v % 65536
def withHalf (up : Bool) (h v : Nat) : Nat := if up then h % 65536 * 65536 + v % 65536 else v / 65536 * 65536 + h % 65536

/-- One event of a group (R155, R156): which half it performs, if it performs one, and what the first half, if it has been
performed, returned to each lane. -/
def atomEvent (op : Nat) (t : ElemType) (ftz : Bool) (m : Nat) (ls : List AtomLane) (up : Option Bool)
    (first : Option (Bool × List Nat)) : Nat × List (AtomLane × Nat) :=
  let r := atomGroup op t ftz m ls
  match up, first with
  | some u, _ => (withHalf u (halfOf u r.1) m, r.2)
  | none, some (u, vs) =>
    (withHalf (!u) (halfOf (!u) r.1) m, r.2.zipIdx.map fun lv => (lv.1.1, withHalf u ((vs[lv.2]?).getD 0) lv.1.2))
  | none, none => r

/-- Hits grouped by address, in lane order (R156). -/
def groupByAddr (hits : List (Nat × Nat × Nat × Nat)) : List (Nat × List (Nat × Nat × Nat × Nat)) :=
  hits.foldl (fun gs h =>
    if gs.any fun g => decide (g.1 = h.2.1) then gs.map fun g => if g.1 = h.2.1 then (g.1, g.2 ++ [h]) else g
    else gs ++ [(h.2.1, [h])]) []

/-- A global atomic (R152, R155): groups in flight, each counted in the counter of its scope until acknowledged. -/
def State.atomOp (s : State) (op p d a b : Nat) (ret : Bool) (order : AtomOrder) (scope : Nat) : Res :=
  let uses : List Use := [⟨a, .n64, 13⟩, ⟨b, s.et, if ret then 14 else 15⟩]
  let cas : List Use := if ret && decide (p = 7) then [⟨d, s.et, 16⟩] else []
  s.memVec op (atomEt p s.et) uses (if ret then some (d, s.et.wide) else none) fun k str c act =>
    match c.checks act cas none, s.team? (k / 16) with
    | some (.trap .softErr x y z), _ => .trap .softErr x y z
    | _, none => .wait
    | _, some t =>
      s.lanesOp op act (fun l => c.src .n64 a l) c.et.bytes c.et.bytes .atomic false (versionBans t)
        (if ret then some (d, c.et.wide) else none) fun s hits =>
          let gs := groupByAddr hits
          if 4095 < c.counter scope + gs.length ∨ s.versionFull t (hits.map fun h => h.2.2.1) then
            .inr fun s => s.stallVersion (k / 16) t (hits.map fun h => h.2.2.1)
          else .inl ((gs.foldl (fun s g => match g.2 with
            | [] => s
            | h :: _ => s.send (.atom
              { owner := s.cur, mask := c.slotLanes str, pc := (c.slot str).pc, op := p, et := c.et, ftz := c.alu.ftz, size := c.et.bytes,
                pa := h.2.2.1, va := g.1, order := order, scope := scope, stamp := 0, counter := some scope,
                version := t.versionOf (k / 16), snap := snapMark h.2.2.2, keyId := leafKey h.2.2.2, step := s.stepOf t.core, sent := false, mark := none, engine := none,
                half := none, copy := none,
                lanes := g.2.map fun h =>
                  { lane := h.1, reg := if ret then some (d - 16) else none, x := c.src c.et b h.1,
                    cmp := if ret then c.src c.et d h.1 else 0 } })) s).modCourse k fun c =>
              c.count scope fun n => n + BitVec.ofNat 12 gs.length)

/-- ATOM (R155). -/
def execAtom (d a b : BitVec 6) (sc p : BitVec 3) (s : State) : Out :=
  s.runWord (.atom d a b sc p) (s.atomOp 0x8C p.toNat d.toNat a.toNat b.toNat true .relaxed sc.toNat)

/-- ATOMAR (R155, R152). -/
def execAtomar (d a b : BitVec 6) (sc p : BitVec 3) (s : State) : Out :=
  s.runWord (.atomar d a b sc p) (s.atomOp 0x8D p.toNat d.toNat a.toNat b.toNat true .acqRel sc.toNat)

/-- ATOMSC (R155, R262). -/
def execAtomsc (d a b : BitVec 6) (sc p : BitVec 3) (s : State) : Out :=
  s.runWord (.atomsc d a b sc p) (s.atomOp 0x8E p.toNat d.toNat a.toNat b.toNat true .sc sc.toNat)

/-- RED (R155): no value returns. -/
def execRed (d a : BitVec 6) (sc p : BitVec 3) (s : State) : Out :=
  s.runWord (.red d a sc p) (s.atomOp 0x8F p.toNat d.toNat a.toNat d.toNat false .relaxed sc.toNat)

/-- ATOMS (R155, R178): lanes to one word are one group, queued under the lowest lane. The compare value of CAS is read
from nd, so a poisoned nd raises SOFTERR (R199). -/
def execAtoms (d a b : BitVec 6) (p : BitVec 3) (s : State) : Out :=
  s.runWord (.atoms d a b p)
    (let ret := decide (d.toNat ≠ 0)
     let cas : List Use := if ret && decide (p = 7#3) then [⟨d.toNat, s.et, 16⟩] else []
     s.memVec 0x90 (atomEt p.toNat s.et) [⟨a.toNat, .n32, 13⟩, ⟨b.toNat, s.et, 14⟩]
      (if ret then some (d.toNat, s.et.wide) else none) fun _ _ c act =>
        match c.checks act cas none with
        | some (.trap .softErr x y z) => .trap .softErr x y z
        | _ =>
          s.spadOp act true (fun l => c.src .n32 a.toNat l) c.et.bytes (if ret then some (d.toNat, c.et.wide) else none) fun c ls =>
            .atom p.toNat c.et c.alu.ftz none (ls.map fun j =>
              { lane := j, reg := if ret then some (d.toNat - 16) else none,
                x := c.src c.et b.toNat j, cmp := if ret then c.src c.et d.toNat j else 0 }))

/-! ## Prefetch and cache control (R159, R160) -/

/-- PREF (R159): the lines of lanes whose translation is at hand are brought in; no value changes. -/
def execPref (t : BitVec 2) (a : BitVec 6) (i : BitVec 12) (s : State) : Out :=
  s.runWord (.pref t a i) (s.memVec 0x91 true [⟨a.toNat, .n64, 13⟩] none fun k _ c act =>
    match s.team? (k / 16) with
    | none => .wait
    | some tm =>
      .done ((lanesOf act).foldl (fun s l =>
        match s.translate tm.xlat (addImm (c.src .n64 a.toNat l) i) .load false with
        | .ok pa leaf =>
          if isDevice pa ∨ isHost pa ∨ s.poisoned pa then s
          else
            let held := if (s.heldLine tm.core pa).isSome then s else (s.holdLine tm.core pa (leafKey leaf)).noteSharer (dieOfCore tm.core) pa
            if t = 0#2 then held.fillLine tm.core pa (leafKey leaf) else if t = 1#2 then held else s
        | _ => s) s))

/-- Where an address leads, whatever its leaf permits: none without a translation (R329). -/
def State.findPa (s : State) (x : Xlat) (va : Nat) : Option Nat :=
  let at' (leaf size : Nat) : Nat := bitsOf leaf 63 28 * 2 ^ 16 + va % 2 ^ size
  if 2 ^ 56 ≤ va then none
  else match s.tlbHit x va with
  | some e => some (at' e.leaf e.size)
  | none => (match s.walk x false 0 walkLevels x.root va with
    | .inr (leaf, size) => some (at' leaf size)
    | .inl _ => none)

/-- CCTL.INV1 (R160): lanes with a translation drop their line from the core's L1. -/
def State.cctlInv (s : State) (t : Team) (lanes : List Nat) : State :=
  lanes.foldl (fun s va => match s.findPa t.xlat va with
    | some pa => s.dropLine t.core pa
    | none => s) s

/-- CCTL.FLUSH and .EVICT of lines, for a core of a package (R160): a line homed there is written back if it is dirty; EVICT
then drops it from every LLC of the package, a home line once no other package holds a copy (R325). -/
def State.cctlFlush (s : State) (pkg : Nat) (evict : Bool) (pas : List Nat) : State :=
  pas.foldl (fun s pa =>
    let home := s.forward pa / 2 ^ 48
    if home = pkg then (if evict then s.leaveLlc pa else s.writeBack pa)
    else if evict then s.dropCopies pkg (lineOf (s.forward pa)) else s) s

/-- CCTL (R160). FLUSH and EVICT change no value that an agent can read. ZERO stores 128 bytes of zero in each lane (R22). -/
def execCctl (p : BitVec 2) (a : BitVec 6) (i : BitVec 12) (s : State) : Out :=
  s.runWord (.cctl p a i) (s.memVec 0x93 true [⟨a.toNat, .n64, 13⟩] none fun k str c act =>
    let addr (l : Nat) : Nat := addImm (c.src .n64 a.toNat l) i
    match (c.slot str).hold, s.team? (k / 16) with
    | .entering st rest left, _ => s.resumeEntering k str c st rest left
    | _, none => .wait
    | _, some t =>
      if p = 0#2 then .done (s.cctlInv t ((lanesOf act).map addr))
      else if p = 3#2 then
        s.lanesOp 0x93 act addr 128 128 .store false (versionBans t) none fun s hits =>
          s.enterStores k str (hits.map fun h =>
            { addr := h.2.1, bytes := List.replicate 128 0#8, key := leafKey h.2.2.2, kind := 0#4, scope := 0#3, flag := none, lane := h.1 })
            (hits.map fun h => h.2.2.1)
      else
        s.lanesOp 0x93 act addr 1 1 .load false (fun _ => false) none fun s hits =>
          let pkg := pkgOfCore t.core
          match (if p = 2#2 then hits.find? fun h => decide (s.forward h.2.2.1 / 2 ^ 48 = pkg) && !s.unshared h.2.2.1 else none) with
          | some h => .inr fun s => s.invalidate h.2.2.1
          | none => .inl (s.cctlFlush pkg (p == 2#2) (hits.map fun h => h.2.2.1)))

/-! ## Fences and waits (R161-R165) -/

/-- Dropping the L1 of the executing agent's core at an acquire wider than .core (R161, R256). -/
def State.acquireDrop (s : State) (scope : Nat) : State :=
  match s.cur with
  | .course k _ => (match s.team? (k / 16) with | some t => if scope = 0 then s else s.dropL1 t.core | none => s)
  | _ => s

/-- FENCE (R161): the release part waits and marks the write path, the acquire part waits for the slot's loads, and for
the releases they read (R257), and drops the L1. In a handler the release part lets frozen entries leave (R268). -/
def execFence (r q : BitVec 1) (sc : BitVec 3) (s : State) : Out :=
  s.runWord (.fence r q sc)
    (let rel := decide (r = 1#1)
     let acq := decide (q = 1#1)
     let finish (s : State) : Res := .done (if acq then s.acquireDrop sc.toNat else s)
     match s.self with
     | none => if s.procClear && (!acq || s.procSeenClear sc.toNat) then finish (if acq then s.forgetSelf else s) else .wait
     | some (k, str, _) =>
       if s.spOutstanding k str then .wait
       else if rel then
         s.afterRelease sc.toNat
           (fun _ => !acq || s.seenClear k str sc.toNat) fun s => finish (if acq then s.forgetSeen k else s)
       else if s.acquired k str sc.toNat then finish (s.forgetSeen k)
       else .wait)

/-- A cross-path fence (R162): the reads of Q that follow go to the home, so its core's L1 lines are dropped when Q has
V. -/
def State.xfence (s : State) (q : Nat) : State := if q.testBit 0 then s.acquireDrop 4 else s

/-- The wait of a FENCE.AR.core (R161, R179), as XFENCE and the then-fences with V in P begin with (R162, R165). What the
course has seen in its core's write path is performed at its home before a path of Q other than V reads it (R265, R266). -/
def State.vFence (s : State) (q : Nat) (go : State → Res) : Res :=
  match s.self with
  | none => if s.procClear then go s else .wait
  | some (k, str, _) =>
    s.afterRelease 0
      (fun stamp => !s.spOutstanding k str && (decide (q / 2 = 0) || s.seenPerformed (s.pathOf (.course k str)) k stamp)) go

/-- XFENCE (R162): with V in P it first waits as FENCE.AR.core. -/
def execXfence (q p : BitVec 6) (s : State) : Out :=
  s.runWord (.xfence q p)
    (if p.getLsbD 0 then s.vFence q.toNat fun s => .done (s.xfence q.toNat) else .done (s.xfence q.toNat))

/-- The value that has satisfied the executing slot's wait, whose then-fence still runs (R165). -/
def State.metValue (s : State) : Option Nat :=
  match s.self with
  | some (_, str, c) => (match (c.slot str).hold with | .met _ v => some v | _ => none)
  | none => (match (s.proc? s.cur).map Proc.hold with | some (.met _ v) => some v | _ => none)

/-- A slot that its then-fence holds keeps the value. -/
def State.keepMet (s : State) (v : Nat) : State :=
  match s.self with
  | some (k, str, c) => (match (c.slot str).hold with
    | .fence n => s.modCourse k fun c => c.setSlot str { c.slot str with hold := .met n v }
    | _ => s)
  | none => (match s.proc? s.cur with
    | some p => s.setProc s.cur { p with hold := .met 0 v }
    | none => s)

/-- A then-fence over the value that has satisfied the wait (R165): XFENCE with P the named path and Q all. -/
def State.thenFence (s : State) (path v : Nat) (go : State → Res) : Res :=
  if path = 0 then go s
  else if path = 1 ∨ path = 7 then
    (match s.vFence 63 fun s => go (s.xfence 63) with
     | .stay t => .stay (t.keepMet v)
     | .wait => if s.metValue.isNone then .stay (s.keepMet v) else .wait
     | r => r)
  else go (s.xfence 63)

/-- The condition of WAITA (R163). -/
def waitCond (c : Nat) (v x : Nat) : Bool :=
  match c with
  | 0 => decide (v ≠ x)
  | 1 => decide (v = x)
  | _ => decide (x ≤ v)

/-- What a wait reads once a route reaches its home (R398; log 34): a wait goes on waiting while none does. -/
def State.waitLook (s : State) (va pa size key : Nat) : Option Nat :=
  if s.reaches (s.pkgOf s.cur) (pa / 2 ^ 48) then s.waitRead va pa size key else none

/-- WAITA (R163). -/
def execWaita (d a b : BitVec 6) (t : BitVec 3) (x : BitVec 1) (c : BitVec 2) (s : State) : Out :=
  s.runWord (.waita d a b t x c) (s.groupOp [(a.toNat, x == 0#1), (b.toNat, s.gwide)] fun sc =>
    let size := if s.gwide then 8 else 4
    let target := sc.src s.gwide b.toNat
    let fence (s : State) (v : Nat) : Res := s.thenFence t.toNat v fun s => .done (s.gdst s.gwide d.toNat v)
    let finish (s : State) (v : Nat) : Res := if waitCond c.toNat v target then fence s v else .wait
    match s.metValue with
    | some v => fence s v
    | none =>
    if x = 1#1 then
      match s.self with
      | none => .wait
      | some (k, str, _) =>
        let o := sc.src false a.toNat
        match s.team? (k / 16) with
        | none => .wait
        | some tm =>
          if o % size ≠ 0 then .trap .align o 0 size
          else match s.spTarget (k / 16) tm o size with
          | .inr n => .trap .spBound o 0 n
          | .inl (h, o', _, win) =>
            match s.team? h with
            | none => .wait
            | some tt =>
              if s.spadOlder k str h o' size then .wait
              else if tt.spPoisoned o' size then .trap .softErr o 0 0
              else finish (if win then s.acquireDrop 1 else s) (ofBytes (tt.spBytes o' size))
    else
      let va := sc.src true a.toNat
      match s.oneAccess va size .load (fun _ => false) 0x0E with
      | .res r => r
      | .ok s1 pa leaf =>
        match s.waitLook va pa size (leafKey leaf) with
        | none => .wait
        | some v =>
          if s.waitPoisoned pa then .trap .softErr va 0 0
          else if !s.promotionClear s.myPath pa 4 then .wait
          else finish (s1.acquireDrop 4) v)

/-- Base of the counter array of an agent (R164, R346, R417). -/
def State.cntBase (s : State) : Nat :=
  match s.cur with
  | .course k _ | .seq k =>
    (match s.team? (match s.cur with | .course j _ => j / 16 | _ => k) with
     | some t => t.launch.cntBase.toNat
     | none => 0)
  | .kcore _ | .lintel _ =>
    let (p, b) := procBase s.cur
    s.reg p (b + 0x18) + 2 ^ 32 * s.reg p (b + 0x1C)

/-- WAITC (R164): a counter slot marked failed traps COPYERR once the condition holds, without the then-fence. -/
def execWaitc (d a b : BitVec 6) (t : BitVec 3) (s : State) : Out :=
  s.runWord (.waitc d a b t) (s.groupOp [(a.toNat, false), (b.toNat, true)] fun sc =>
    let slot := bitsOf (sc.src false a.toNat) 11 0
    let va := s.cntBase + 8 * slot
    let fence (s : State) (v : Nat) : Res := s.thenFence t.toNat v fun s => .done (s.gdst true d.toNat v)
    match s.metValue with
    | some v => fence s v
    | none =>
    match s.oneAccess va 8 .load (fun _ => false) 0x0F with
    | .res r => r
    | .ok s1 pa leaf =>
      match s.waitLook va pa 8 (leafKey leaf) with
      | none => .wait
      | some v =>
        if s.waitPoisoned pa then .trap .softErr va 0 0
        else if v < sc.src true b.toNat then .wait
        else if !s.promotionClear s.myPath pa 3 then .wait
        else
          let failed := match s.self with
            | some (k, _, _) => (match s.team? (k / 16) with | some tm => tm.failedSlots.contains slot | none => false)
            | none => false
          if failed then
            .stay ((s1.modTeam (match s1.cur with | .course k _ => k / 16 | _ => 0) fun t =>
              { t with failedSlots := t.failedSlots.filter fun x => decide (x ≠ slot) }).takeTrap .copyErr 0 0 slot)
          else fence (s1.acquireDrop 3) v)

/-! ## GLD and GST (R141) -/

/-- The allowance rule for a single access (R185): a course's access is not ready while its core's TLB holds its translation
and the package it goes to is below ALWLOW. -/
def State.oneAllowed (s : State) (va : Nat) : Bool :=
  match s.self with
  | some (k, _, c) => (match s.team? (k / 16) with | some t => s.allowed c t.xlat [va] | none => true)
  | none => true

/-- GLD (R141): the slot is held until the reply. A course's GLD reads under its store buffer as a lane of LD would. -/
def execGld (d a : BitVec 6) (i : BitVec 12) (s : State) : Out :=
  s.runWord (.gld d a i) (s.groupOp [(a.toNat, true)] fun sc =>
    let size := if s.gwide then 8 else 4
    let va := addImm (sc.src true a.toNat) i
    if !s.oneAllowed va then .wait
    else match s.oneAccess va size .load (fun _ => false) 0xDE with
    | .res r => r
    | .ok s1 pa leaf =>
        let reg := if d.toNat < 32 then some d.toNat else none
        let (lanes, ver, pc) := match s.self with
          | some (k, str, c) => (c.slotLanes str, (match s.team? (k / 16) with | some t => t.versionOf (k / 16) | none => none),
                                 (c.slot str).pc)
          | none => (0#32, none, 0#32)
        let n := s1.fresh
        let s2 := s1.send (.group { agent := s.cur, reg := reg, wide := s.gwide,
                                    op := .load pa va size lanes (List.replicate size none) ver false (leafKey leaf), pc := pc })
        .stay (s2.awaitReply 0xDE n))

/-- Bits(STEPNO, 15, 0) at the executing processor (R311, R392). -/
def State.procStep (s : State) : Nat :=
  match s.proc? s.cur with | some p => p.stepId.toNat % 2 ^ 16 | none => 0

/-- A processor's store (R141): performed as it issues in its own package (log 14), once no other package holds a copy of
the line (R325); to another package it goes by the processor's write path. -/
def State.procGst (s : State) (va pa leaf size v : Nat) : Res :=
  let away := decide (pa / 2 ^ 48 ≠ s.pkgOf s.cur)
  if isDevice pa && (s.pathDevices s.myPath || isResume pa size && !s.procClear) then .wait
  else if away then
    let w : PathWrite :=
      { owner := s.cur, pa := pa, va := va, bytes := (bytesOf size v).map some, kind := 0#4, scope := 0, ts := 0, flag := none,
        issue := s.fresh, snap := snapMark leaf, step := s.procStep, keyId := leafKey leaf, whole := false, parts := [], sent := false,
        landed := false }
    .done ((s.modCore s.myPath fun x => { x with path := SMap.put x.path s.fresh (.write w) }).tick)
  else if isDevice pa then .done (s.devWrite pa size v (.agent s.cur))
  else if !s.unshared pa then .stay (s.invalidate pa)
  else .done (s.homeWriteKey pa ((bytesOf size v).map some) (snapMark leaf) (leafKey leaf))

/-- GST (R141): one lane of a plain ST of a course. -/
def execGst (d a : BitVec 6) (i : BitVec 12) (s : State) : Out :=
  s.runWord (.gst d a i) (s.groupOp [(a.toNat, true), (d.toNat, s.gwide)] fun sc =>
    let size := if s.gwide then 8 else 4
    let va := addImm (sc.src true a.toNat) i
    let v := sc.src s.gwide d.toNat
    let ban (pa : Nat) : Bool := match s.self with
      | some (k, _, _) => (match s.team? (k / 16) with | some t => versionBans t pa | none => false)
      | none => false
    match s.self with
    | some (k, str, c) =>
      (match (c.slot str).hold, s.team? (k / 16) with
       | .entering st rest left, _ => s.resumeEntering k str c st rest left
       | _, none => .wait
       | _, some _ =>
         if !s.oneAllowed va then .wait
         else match s.oneAccess va size .store ban 0xDF with
         | .res r => r
         | .ok s1 pa leaf =>
           match s1.enterStores k str [{ addr := va, bytes := bytesOf size v, key := leafKey leaf, kind := 0#4, scope := 0#3, flag := none, lane := 0 }] [pa] with
           | .inr f => .stay (f s)
           | .inl s2 =>
             match ((s2.course? k).map (fun (c : Course) => (c.slot str).hold) : Option Hold) with
             | some (.entering ..) => .stay s2
             | _ => .done s2)
    | none =>
      match s.oneAccess va size .store ban 0xDF with
      | .res r => r
      | .ok s1 pa leaf => s1.procGst va pa leaf size v)

end Sys2Proof.Machine
end

