-- ==== Sys2Proof/Machine/Packets.lean ====
section
/-! DEFINITION. What wall packets and their transactions do at home and at their source (23_wall_fabric R405-R415,
11_ordering R269, R270): writes and atomics performed at their homes, reads answered, what a completed or failed
transaction does at its source. -/

namespace Sys2Proof.Machine

open Sys2Proof

/-! ## Clocks and flights of a course -/

/-- Raising a core's Lamport clock (R262); at 2^49 the die's event word gets SCCLK (R264, R416). -/
def State.raiseClock (s : State) (core t : Nat) : State :=
  let old := (s.core core).clock
  let new := max old t
  let s := if new = old then s else s.modCore core fun c => { c with clock := new, scHalt := c.scHalt || decide (2 ^ 50 ≤ new + 1) }
  if old < 2 ^ 49 ∧ 2 ^ 49 ≤ new ∧ core < 12288 then s.orReg (core / 768) (distBase (core / 96 % 8)) 4 else s

/-- A deferred cause of R167 for a lane: lanes of one instruction share it, and TADDR is the lowest one's (R166). -/
def addLaneCause (hs : List HeldCause) (cause : Cause) (tpc : Word) (str : Bool) (lane taddr : Nat) (tinfo : Word) :
    List HeldCause :=
  let same (h : HeldCause) : Bool := decide (h.cause = cause) && decide (h.tpc = some tpc) && decide (h.slot = some str)
  let bit : Word := BitVec.ofNat 32 (2 ^ lane)
  if hs.any same then
    hs.map fun h => if same h then
      { h with tmask := h.tmask ||| bit, taddr := if h.tmask.toNat % 2 ^ lane = 0 then BitVec.ofNat 64 taddr else h.taddr } else h
  else hs ++ [{ cause := cause, tpc := some tpc, slot := some str, taddr := BitVec.ofNat 64 taddr, tmask := bit, tinfo := tinfo }]

/-- Bytes of a bound course's pending record written at their home, by the addresses found at the bind (R291). -/
def State.recordWrite (s : State) (b : Bound) (o : Nat) (bytes : List Byte) : State :=
  match b.pages.find? fun p => decide (p.1 = (b.va + o) / 65536) with
  | some p =>
    let pa := p.2.1 + (b.va + o) % 65536
    s.homeWriteKey pa (bytes.map some) (snapMark p.2.2) (leafKey p.2.2)
  | none => s
/-- The line of a record's bytes, when another package still holds it (R325). -/
def State.recordShared (s : State) (b : Bound) (o : Nat) : Option Nat :=
  match b.pages.find? fun p => decide (p.1 = (b.va + o) / 65536) with
  | some p => if s.unshared (p.2.1 + (b.va + o) % 65536) then none else some (p.2.1 + (b.va + o) % 65536)
  | none => none
def State.recordPoison (s : State) (b : Bound) (o : Nat) : Bool :=
  match b.pages.find? fun p => decide (p.1 = (b.va + o) / 65536) with
  | some p => s.poisoned (p.2.1 + (b.va + o) % 65536)
  | none => false
def State.recordRead (s : State) (b : Bound) (o n : Nat) : Nat :=
  match b.pages.find? fun p => decide (p.1 = (b.va + o) / 65536) with
  | some p => s.natUnder (p.2.1 + (b.va + o) % 65536) n (leafKey p.2.2)
  | none => 0

/-- A reply filed in the record (R290): 16 bytes with the value and its flags; a pair is filed at the even register. -/
def State.fileEntry (s : State) (b : Bound) (o v flags : Nat) : State :=
  s.recordWrite b o (bytesOf 8 v ++ bytesOf 1 flags ++ List.replicate 7 0#8)

/-- Where the entry of a lane's register lies in a record (R290). -/
def pendEntry (reg lane : Nat) : Nat := 64 + 16 * (32 * reg + lane)

/-- A lane's reply of a bound course filed, its value or its failure: it stays on its way as a value while another package holds
the entry's line (R325). -/
def State.fileLane (s : State) (b : Bound) (k o lane reg : Nat) (wide : Bool) (v : Nat) (fail : Option (Cause × Nat × Word)) : State :=
  match s.recordShared b (pendEntry reg lane) with
  | some _ => s.send (.value
      { key := k, str := false, mask := 0xFFFFFFFF#32, lane := lane, reg := reg, wide := wide, value := v, poison := false, fail := fail,
        pc := 0#32, acquire := none, origin := o })
  | none =>
    let flags := match fail with | some (.softErr, _, _) => 2 | some _ => 4 | none => 0
    s.fileEntry b (pendEntry reg lane) v (1 + flags + if wide then 8 else 0)

/-- Whether an access with an issue stamp was issued by a handler of the course, the running one or an earlier one (R274). -/
def Course.byHandler (c : Course) (o : Nat) : Bool :=
  (c.handler && decide (c.entered ≤ o)) || c.spans.any fun p => decide (p.1 ≤ o) && decide (o < p.2)

/-- A failed access of a handler is a double trap, whenever it fails (R274); a versioned team's trap is that of R286. -/
def State.handlerFails (s : State) (k : Nat) (str : Bool) (cause : Cause) (pc : Word) (taddr : Nat) : State :=
  match s.team? (k / 16) with
  | some t =>
    if t.abnormal then s
    else if t.version.isSome then s.versionTrap (k / 16) (k % 16) str cause taddr
    else s.doubleTrap (k / 16) (k % 16) str cause pc
  | none => s

/-- A lane whose access failed after issue (R167): its registers keep their values and are set full. A bound course's is
filed as poisoned or failed (R291). The cause is taken before the course's next issue or, of an instruction issued before
trap entry, at ERET (R443); a saved course's is kept with its team; of one that a handler issued it is a double trap (R274). -/
def State.laneFails (s : State) (k o : Nat) (str : Bool) (pc : Word) (cause : Cause) (lane reg : Nat) (wide : Bool)
    (taddr : Nat) (tinfo : Word) : State :=
  match s.course? k with
  | none => s
  | some c =>
    match c.recordOf o with
    | some b =>
      if reg < 32 then s.fileLane b k o lane reg wide 0 (some (cause, taddr, tinfo))
      else s.defer k { cause := cause, tpc := none, slot := none, taddr := BitVec.ofNat 64 taddr,
                       tmask := BitVec.ofNat 32 (2 ^ lane), tinfo := tinfo }
    | none =>
      match c.life with
      | .live =>
        let c := c.arriveFail lane reg wide
        if c.byHandler o then (s.setCourse k c).handlerFails k str cause pc taddr
        else s.setCourse k { c with held := addLaneCause c.held cause pc str lane taddr tinfo }
      | .saved | .endedSaved =>
        s.modTeam (k / 16) fun t =>
          let mine := t.keptCauses.filter fun x => decide (x.1 = k % 16)
          { t with keptCauses := (t.keptCauses.filter fun x => decide (x.1 ≠ k % 16)) ++
              (addLaneCause (mine.map Prod.snd) cause pc str lane taddr tinfo).map fun h => (k % 16, h) }
      | .ended | .finished => s

/-- A value reaching a lane (R150); a bound course's is filed in its record (R291), one that has ended discards it
(R121). -/
def State.landLane (s : State) (k o lane reg : Nat) (wide : Bool) (v : Nat) : State :=
  match s.course? k with
  | none => s
  | some c =>
    match c.recordOf o with
    | some b => s.fileLane b k o lane reg wide v none
    | none => if c.life = .live then s.setCourse k (c.arrive lane reg wide v) else s

/-! ## Performing at the home -/

/-- The time an SC operation takes at its home from its provisional time c0 (R262). -/
def State.scTime (s : State) (pa c0 : Nat) (load : Bool) : Nat :=
  let (lw, lr) := s.stamps pa
  if load then max c0 (lw + 1) else max c0 (max (lw + 1) (lr + 1))

/-- A stamp that would pass 2^50 - 1 halts SC issue on its core until the reset (R264), and its operation waits. -/
def State.haltSc (s : State) (core : Nat) : State := s.modCore core fun c => { c with scHalt := true }

/-- A write performed at its home, with what its kind records (R260, R262): the SC time it took, and the state. -/
def State.performWrite (s : State) (pa : Nat) (bytes : List (Option Byte)) (mark : Option Nat)
    (kind core scope stamp c0 : Nat) : Nat × State :=
  let t := if kind = 3 then s.scTime pa c0 false else 0
  let lr := (s.stamps pa).2
  let s := s.homeWrite pa bytes mark
  if kind < 2 then (t, s)
  else
    let s := s.setLine pa { s.line pa with relCore := core, relScope := scope, relValid := true, relStamp := stamp }
    (t, if kind = 3 then s.setStamps pa t lr else s)

/-- What an atomic group answers: none for a poisoned line (R345), else its lanes' values and SC time. -/
structure AtomAnswer where
  values : List (AtomLane × Nat)
  time : Nat
  deriving DecidableEq, Repr

/-- One event of an atomic group at its home, or on its team's version (R155, R156, R285, R345): the whole group, or one
half of a BF16x2 addition. -/
def State.atomAt (s : State) (pa : Nat) (g : AtomGroup) (up : Option Bool) (core stamp : Nat) (mark : Option Nat) :
    Option AtomAnswer × State :=
  let b (i : Nat) : Byte := s.homeByte g.version (pa + i) g.keyId
  if s.poisonedIn g.version pa then (none, s)
  else
    let (m, rets) := atomEvent g.op g.et g.ftz (ofBytes ((List.range g.size).map b)) g.lanes up g.half
    match g.version with
    | some t =>
      (some { values := rets, time := 0 }, s.versionWrite t pa g.keyId mark ((bytesOf g.size m).map some))
    | none =>
      let kind := match g.order with | .relaxed => (if g.copy.isSome then 2 else 0) | .acqRel => 2 | .sc => 3
      let (t, s) := (s.keyLine pa g.keyId mark).performWrite pa ((bytesOf g.size m).map some) mark kind core g.scope stamp (g.stamp)
      let s := if g.order = .sc then s.setStamps pa t (max (s.stamps pa).2 t) else s
      (some { values := rets, time := t }, s)

/-- Whether a group's first event is to be one half alone. -/
def AtomGroup.firstHalf (g : AtomGroup) : Bool := atomSplits g.op g.et && g.half.isNone

/-- The first half of the group numbered n, either one (a free value): the group keeps what it returned. -/
def State.performHalf (s : State) (n pa : Nat) (g : AtomGroup) (core stamp : Nat) (mark : Option Nat) : State :=
  let up := (s.draw 0).getLsbD 0
  match s.tick.atomAt pa g (some up) core stamp mark with
  | (some a, s) => s.setFlight n (.atom { g with half := some (up, a.values.map fun v => halfOf up v.2) })
  | (none, s) => s

/-- The event that completes an atomic group (R156). -/
def State.performAtom (s : State) (pa : Nat) (g : AtomGroup) (core stamp : Nat) (mark : Option Nat) :
    Option AtomAnswer × State := s.atomAt pa g none core stamp mark

/-- A record of type 9 for a copy's counter that is left unchanged (R214). -/
def State.counterRecord (s : State) (c : Copy) (cause : Cause) : State :=
  s.postFault (dieOfCore c.core)
    { type := 9, asid := c.xlat.asid, core := c.core % 96, cidSlot := c.cid + 48, kind := cause.code,
      addr := c.cntBase.toNat + 8 * bitsOf c.desc[6].toNat 31 20, tid := c.tid.toNat, token := 0,
      info := bitsOf c.desc[6].toNat 31 20, members := [] }

/-- A joint is over: when its counter has received its add, the time of each MJOIN that it delivers is sampled (R320,
R369). -/
def State.jointDone (s : State) (j : Nat) (x : Joint) (added : Bool) : State :=
  let s : State := { s with joints := SMap.del s.joints j }
  if added then x.joined.foldl (fun s ct => s.sampleSource ct.2.1 2 ((s.pkg (pkgOfCore ct.2.1)).time - ct.2.2)) s else s

/-- The counter update of a copy or a joint in another package is done, or has failed (R214, R366); a launch's done word
concerns neither (R357). -/
def State.counterDone (s : State) (n : Nat) (fail : Option Cause) : State :=
  match SMap.find? s.copies n with
  | some c =>
    let s : State := { s with copies := SMap.put s.copies n { c with phase := .updating 1 } }
    (match fail with | some f => s.counterRecord c f | none => s)
  | none => (match SMap.find? s.joints n with
    | some x => s.jointDone n x fail.isNone
    | none => s)

/-- Marks with no write before them have done their work. -/
def trimMarks : SMap PathItem → SMap PathItem
  | (_, .mark) :: rest => trimMarks rest
  | p => p

/-- Dropping a write path's item. -/
def State.dropItem (s : State) (path key : Nat) : State := s.modCore path fun c => { c with path := trimMarks (SMap.del c.path key) }

/-- The registers, counter and clock an answered group gives its issuer: value and acknowledgement flights. It leaves the write
path, and its core's L1 holds its line no more (R255). -/
def State.finishAtom (s : State) (n : Nat) (g : AtomGroup) (a : Option AtomAnswer) (fail : Cause) (tinfo : Word) : State :=
  let s := s.drop n
  let s := match g.mark with
    | some m => (s.dropItem (s.pathOf g.owner) m).dropLine (s.pathOf g.owner) g.pa
    | none => s
  match g.copy with
  | some m => s.counterDone m (if a.isSome then none else some fail)
  | none =>
  match g.owner with
  | .course k str =>
    let acq := if g.order = .relaxed then none else some g.scope
    let put (s : State) (l : AtomLane) (v : Nat) (f : Option (Cause × Nat × Word)) : State :=
      match l.reg, f with
      | none, none => s
      | r, _ => s.send (.value { key := k, str := str, mask := g.mask, lane := l.lane, reg := r.getD 32, wide := decide (g.size = 8),
                                 value := v, poison := false, fail := f, pc := g.pc, acquire := acq, origin := n })
    let s := match a with
      | some a => a.values.foldl (fun s lv => put s lv.1 lv.2 none) s
      | none => g.lanes.foldl (fun s l => put s l 0 (some (fail, g.va, tinfo))) s
    (match g.counter with
     | some c => s.send (.ack g.owner c (match a with | some a => a.time | none => 0) n)
     | none => s)
  | .seq t =>
    (match a with
     | some _ => s.modTeam t fun x =>
         if x.seq.pending.isSome then { x with seq := { x.seq with pending := none, openBatch := true, pc := x.seq.pc + 4#32 } } else x
     | none => s.stopStream t 0xC4 fail.code 5 (BitVec.ofNat 64 g.va))
  | .kcore _ | .lintel _ => s

/-! ## What packets count and mark (R390, R392, R407-R409) -/

/-- Adding to U (R269, R409), modulo 2^32. -/
def uKey (src og : Nat) : Nat := 16 * src + og
def State.addU (s : State) (dst src og : Nat) : State :=
  s.modPkg dst fun x => { x with uCount := SMap.setD x.uCount 0 (uKey src og) ((SMap.getD x.uCount 0 (uKey src og) + 1) % 2 ^ 32) }

/-- Packet types that modify memory (R392), and those counted (R408). -/
def Packet.modifies (k : Packet) : Bool := [0x03, 0x04, 0x05, 0x07, 0x09, 0x0A, 0x0F, 0x11].contains k.type
def Packet.counted (k : Packet) : Bool := [0x03, 0x04, 0x05, 0x07, 0x09, 0x0F].contains k.type

/-- Whether a packet is malformed (R407). -/
def Packet.bad (k : Packet) : Bool :=
  decide (128 < k.len) || decide (k.reserved ≠ 0) || !(decide (1 ≤ k.type ∧ k.type ≤ 0x12) || decide (k.type = 0x1E) || decide (k.type = 0x1F))

/-- The mark of R390 that a packet's SNAP bit gives: a generation other than any PGEN. -/
def Packet.markOf (k : Packet) : Option Nat := if k.snap then some 256 else none

/-- Whether a write by a leaf with this mark is sent with SNAP (R407). -/
def State.snapBit (s : State) (dst : Nat) (mark : Option Nat) : Bool :=
  match mark with | some g => decide (g ≠ (s.pkg dst).snap.pgen) | none => false

/-! ## Arrival -/

/-- A packet that is dropped: it leaves and is counted (R407). -/
def State.dropPacket (s : State) (n : Nat) (k : Packet) : State := (s.leave n k).countReg k.dst (wallBase + 0xC) 1

/-- The packet numbered n, if it is of a type and has come past any relay: a malformed one is dropped and counted. -/
def State.ingress (s : State) (n type : Nat) (f : Packet → State) : State :=
  match SMap.find? s.packets n with
  | none => s
  | some k =>
    if k.det then s
    else if k.bad then s.dropPacket n k
    else if k.type ≠ type then s
    else f k

/-! ## What a write packet of a store-buffer entry holds (R406, R408, R409) -/

/-- The ordering group of an agent's writes (R409). -/
def State.groupOf (s : State) (a : Agent) : Nat :=
  match a with
  | .course k _ => k % 16
  | .seq t => (match s.team? t with | some x => x.mgoCid | none => 0)
  | .kcore _ | .lintel _ => 0

/-- The one packet of a store-buffer entry (R406). That of a `FLAGW` brings its lanes with their counts, the lowest lane's in
COUNT (log 107). -/
def State.writePacket (s : State) (path : Nat) (w : PathWrite) : Packet :=
  let dst := w.pa / 2 ^ 48
  let type := if w.flag.isSome then 0x0A else if w.kind = 2#4 then 0x04 else if w.kind = 3#4 then 0x05 else 0x03
  { Packet.blank type dst (s.pkgOf w.owner) with
    len := if w.flag.isSome then 2 else 4, addr := w.pa, snap := s.snapBit dst w.snap, step := w.step,
    og := match w.flag with | some f => f.group | none => s.groupOf w.owner,
    key := match w.flag with | some f => f.count | none => w.keyId, stamp := w.ts, scope := w.scope, core := path,
    payload := w.bytes.map fun b => b.getD 0#8, mask := w.bytes.map Option.isSome, lanes := w.parts, whole := w.whole }

/-- The bytes of a write packet. -/
def Packet.bytes (k : Packet) : List (Option Byte) := (k.payload.zip k.mask).map fun b => if b.2 then some b.1 else none

/-- Whether an earlier flag of the same group from package i to j is not yet applied (R270): among the lanes that wait to
enter a store buffer, in one, or in a write path, where it stays until then. `issue` is the later write's issue stamp. -/
def State.flagPending (s : State) (i j og issue : Nat) : Bool :=
  let same (f : Option FlagInfo) : Bool := match f with | some f => decide (f.group = og) && decide (f.pkg = j) | none => false
  (List.any s.courses fun (kc : Nat × Course) => decide (s.pkgOf (.course kc.1 false) = i) &&
    ((kc.2.entries.any fun e => decide (e.issue < issue) && e.parts.any fun p => same p.flag) ||
     [kc.2.header, kc.2.stretcher].any fun x => match x.hold with
       | .entering st ps _ => decide (st < issue) && ps.any fun p => same p.flag
       | _ => false)) ||
  (List.any s.cores fun (kc : Nat × Core) => decide (pathPkg kc.1 = i) && List.any kc.2.path fun (ki : Nat × PathItem) =>
    match ki.2 with
    | .write w => decide (w.issue < issue) && !w.landed && same w.flag
    | .mark | .red .. => false)

/-! ## Writes performed lane by lane (R158, R263) -/

/-- The provisional time of an SC operation of a core, now that it starts (R262; log 33). -/
def State.scStart (s : State) (core ts : Nat) : Nat := max ts ((s.core core).clock + 1)

/-- The address and bytes of the lane that is performed next; of a write without lanes of its own, all of it. -/
def laneOr (ps : List SbPart) (pa : Nat) (bytes : List (Option Byte)) : Nat × List (Option Byte) :=
  match ps with
  | p :: _ => (pa + p.off, p.bytes.map some)
  | [] => (pa, bytes)

/-- Whether the next lane of a write performed lane by lane is the lowest of its instruction that is not performed: those of the
instruction's other entries, in the buffer or on the path, come in their turn (R263; log 107). -/
def State.scTurn (s : State) (owner : Agent) (issue : Nat) (ps : List SbPart) : Bool :=
  match owner, ps with
  | .course k _, p :: _ =>
    (match s.course? k with
     | some c => c.entries.all fun e => !(decide (e.issue = issue) && e.parts.any fun q => decide (q.lane < p.lane))
     | none => true) &&
    (s.core (s.pathOf owner)).path.all fun (ki : Nat × PathItem) => match ki.2 with
      | .write w => !(w.owner.ofCourse k && decide (w.issue = issue) && w.parts.any fun q => decide (q.lane < p.lane))
      | .mark | .red .. => true
  | _, _ => true

/-- A lane of the path write of a key has been performed: its bytes are those of its lanes still to come. -/
def PathWrite.laneDone (w : PathWrite) : PathWrite :=
  { w with parts := w.parts.drop 1, bytes := w.bytes.zipIdx.map fun b =>
      if (w.parts.drop 1).any fun p => decide (p.off ≤ b.2) && decide (b.2 < p.off + p.bytes.length) then b.1 else none }
def State.itemLane (s : State) (path key : Nat) : State :=
  s.modCore path fun c => { c with path := SMap.modify c.path key fun x => match x with
    | .write w => .write w.laneDone
    | .mark | .red .. => x }

/-! ## The end of a transaction -/

/-- TINFO for FABRIC (R415). -/
def fabricInfo (type reason pkg : Nat) : Word := BitVec.ofNat 32 (type * 256 + reason * 16 + pkg)

/-- A record of R334 for an agent that has ended. -/
def State.lostRecord (s : State) (k type kind addr info : Nat) : State :=
  match s.team? (k / 16) with
  | some t => s.postFault (dieOfCore t.core) (teamRec t type (k % 16) 0 kind addr 0 info)
  | none => s

/-- A store-buffer entry's failure (R415): its counter falls, and the course takes FABRIC as a deferred cause. -/
def State.writeFails (s : State) (o : Nat) (owner : Agent) (scope : Nat) (ti : Word) : State :=
  let s := s.send (.ack owner scope 0 o)
  match owner with
  | .course k _ =>
    (match s.course? k with
     | some c =>
       if c.life = .ended ∨ c.life = .finished then s.lostRecord k 6 Cause.fabric.code 0 0
       else s.defer k { cause := .fabric, tpc := none, slot := none, taddr := 0#64, tmask := 0#32, tinfo := ti }
     | none => s)
  | .seq _ | .kcore _ | .lintel _ => s

/-- A group-wide request answered (R141). -/
def State.groupDone (s : State) (n v : Nat) (fail : Option (Cause × Nat × Word)) : State :=
  match s.flight? n with
  | some (.group x) => s.setFlight n (.group { x with op := .done v fail })
  | _ => s

/-- FABRIC reported for a failed transaction (R415, R221); FAILS counts it (R414). -/
def State.txFails (s : State) (p : Nat) (t : WallTx) (reason : Nat) : State :=
  let ti := fabricInfo t.pkt.type reason t.pkt.dst
  let s := s.countReg p (routeOff t.pkt.dst + 4) 1
  match t.serves with
  | .write path key owner scope => (s.dropItem path key).writeFails key owner scope ti
  | .flight n =>
    (match s.flight? n with
     | some (.load x) => (s.laneFails x.key n x.str x.pc .fabric x.lane x.reg x.wide x.va ti).drop n
     | some (.atom g) => s.finishAtom n g none .fabric ti
     | some (.group _) => s.groupDone n 0 (some (.fabric, 0, ti))
     | _ => s)
  | .copy n off _ =>
    { s with copies := SMap.modify s.copies n fun (c : Copy) => { c with failed := some (c.failed.getD (BitVec.ofNat 64 off)) } }
  | .joint j => { s with joints := SMap.del s.joints j }
  | .mortar m => { s with mortar := SMap.del s.mortar m }
  | .inval line => { s with dir := SMap.modify s.dir line fun l => { l with psh := l.psh &&& ~~~ (BitVec.ofNat 16 (2 ^ t.pkt.dst)) } }
  | .promote n => (match s.flight? n with
     | some (.promote l c u _) => s.setFlight n (.promote l c u false)
     | _ => s)

/-- A byte that a core's write path holds, if one does: the youngest write's. -/
def pathByte (path : SMap PathItem) (pa : Nat) : Option Byte :=
  List.foldl (fun (o : Option Byte) (ki : Nat × PathItem) => match ki.2 with
    | .write w => if w.pa ≤ pa ∧ !w.landed then (match (w.bytes[pa - w.pa]?).getD none with | some b => some b | none => o) else o
    | .mark | .red .. => o) none path

/-- Whether a load reads at its home alone: an SC one, or an acquire wider than .core (R256, R263). -/
def LoadLane.atHome (x : LoadLane) : Bool := x.sc.isSome || (match x.acquire with | some (_ + 1) => true | _ => false)

/-- The bytes a relaxed load finds above the home of its line: its own course's buffer, then its core's path (R150,
R255). -/
def State.nearBytes (s : State) (core n : Nat) (owner : Agent) (lanes : Word) (va pa size : Nat) : List (Option Byte) :=
  let own : List (Option Byte) := match owner with
    | .course k str => (match s.course? k with | some c => c.forward n str lanes va size | none => List.replicate size none)
    | _ => List.replicate size none
  own.zipIdx.map fun bi => match bi.1 with
    | some b => some b
    | none => pathByte (s.core core).path (pa + bi.2)

/-- A relaxed read of a line by an agent: the release that its bytes bring is noted (R257). A course's read puts the reader in
the directory (R325) and the line in the core's L1 (R255): in place of an older one when the read has gone below the L1. -/
def State.noteRead (s : State) (core : Nat) (owner : Agent) (lanes : Word) (pa key : Nat) (below : Bool) : State :=
  let s := s.noteSeen owner lanes core (if below then (s.line pa).release else s.releaseRead core pa)
  match owner with
  | .course .. =>
    (if isHost pa || s.poisoned pa then s else if below then s.refillLine core pa key else s.fillLine core pa key).noteSharer
      (dieOfCore core) pa
  | _ => s

/-- What a read of a flight takes at its home in another package (R406, R408): the copy that its requesting slice then holds,
the bytes above the home, and the line in the reader's L1, all as one event there (log 104). -/
def State.readTaken (s : State) (n : Nat) : State :=
  let hold (s : State) (a : Agent) (pa key : Nat) : State := if isHost pa then s else s.holdLine (s.pathOf a) pa key
  match s.flight? n with
  | some (.load x) =>
    let a := Agent.course x.key x.str
    if isDevice x.pa then s
    else if x.atHome then hold s a x.pa x.keyId
    else
      ((hold s a x.pa x.keyId).setFlight n (.load { x with fwd := s.nearBytes (s.pathOf a) n a x.mask x.va x.pa x.size })).noteRead
        (s.pathOf a) a x.mask x.pa x.keyId true
  | some (.group x) =>
    (match x.op with
     | .load pa va size lanes _ version asked key =>
       if isDevice pa then s
       else
         ((hold s x.agent pa key).setFlight n (.group { x with
            op := .load pa va size lanes (s.nearBytes (s.pathOf x.agent) n x.agent lanes va pa size) version asked key })).noteRead
           (s.pathOf x.agent) x.agent lanes pa key true
     | _ => s)
  | _ => s

/-- A read's answer (R406, R408): the value is kept with the load. -/
def State.readAnswered (s : State) (n : Nat) (r : Packet) : State :=
  let value (pa size : Nat) (fwd : List (Option Byte)) : Nat := ofBytes ((List.range size).map fun i =>
    ((fwd[i]?).getD none).getD ((r.payload[pa % 128 + i]?).getD 0#8))
  match s.flight? n with
  | some (.load x) =>
    let s := if x.sc.isSome then s.raiseClock (s.pathOf (.course x.key x.str)) r.stamp else s
    if r.poi && x.fwd.any Option.isNone then
      (s.laneFails x.key n x.str x.pc .softErr x.lane x.reg x.wide x.va 0#32).drop n
    else s.setFlight n (.load { x with got := some (value x.pa x.size x.fwd) })
  | some (.group x) =>
    (match x.op with
     | .load pa va size _ fwd _ _ _ =>
       if r.poi && fwd.any Option.isNone then s.groupDone n 0 (some (.softErr, va, 0#32))
       else s.groupDone n (value pa size fwd) none
     | _ => s)
  | _ => s

/-- Values of lanes as an atomic reply carries them, eight bytes each. -/
def replyValues (ls : List AtomLane) (bs : List Byte) : List (AtomLane × Nat) :=
  ls.zipIdx.map fun li => (li.1, ofBytes ((bs.drop (8 * li.2)).take 8))

/-- What an answered transaction does at its source (R406, R408). -/
def State.txDone (s : State) (t : WallTx) (r : Packet) : State :=
  match t.serves with
  | .write path key owner scope => (s.dropItem path key).send (.ack owner scope r.stamp key)
  | .flight n =>
    (match s.flight? n with
     | some (.atom g) =>
       if r.poi then s.finishAtom n g none .softErr 2#32
       else s.finishAtom n g (some { values := replyValues g.lanes r.payload, time := r.stamp }) .softErr 2#32
     | _ => s.readAnswered n r)
  | .copy n off len =>
    { s with copies := SMap.modify s.copies n fun (c : Copy) => { c with remote := c.remote ++ [(off, len)], sent := c.sent + len } }
  | .joint j => { s with joints := SMap.modify s.joints j fun (x : Joint) => { x with left := [] } }
  | .mortar _ => s
  | .inval line => { s with dir := SMap.modify s.dir line fun l => { l with psh := l.psh &&& ~~~ (BitVec.ofNat 16 (2 ^ t.pkt.dst)) } }
  | .promote n =>
    (match s.flight? n with
     | some (.promote load _ _ _) => s.setFlight n (.promoted load)
     | _ => s)

/-- Freeing a transaction's tag. -/
def State.dropTx (s : State) (p key : Nat) : State := s.modPkg p fun x => { x with txs := SMap.del x.txs key }

end Sys2Proof.Machine
end

