-- ==== Sys2Proof/Machine/MemEvents.lean ====
section
/-! DEFINITION. The steps of the memory system inside a package (07_course_memory R150, R156, R167; 08_core R178-R181;
11_ordering R255-R263, R267; 16_die_memory R334): values arriving, entries leaving the buffer, writes performed, bank
accesses, fault records. A step whose conditions do not hold changes nothing. -/

namespace Sys2Proof.Machine

open Sys2Proof

/-- Whether new SC operations of a core wait (R264, R416). -/
def State.scHalted (s : State) (core : Nat) : Bool := (s.core core).scHalt || (s.pkg (pkgOfCore core)).scStop

/-- Whether SC operations of a course older than a stamp are outstanding (R263): a write stands in its path until it is
acknowledged. -/
def State.scOlder (s : State) (k stamp : Nat) : Bool :=
  (List.any s.flights fun (nf : Nat × Flight) => match nf.2 with
    | .load x => decide (x.key = k) && x.sc.isSome && x.got.isNone && decide (nf.1 < stamp)
    | .atom g => (match g.owner with | .course j _ => decide (j = k) | _ => false) && decide (g.order = .sc) && decide (nf.1 < stamp)
    | .ack (.course j _) _ t _ => decide (j = k) && decide (t ≠ 0)
    | _ => false) ||
  (match s.course? k with
   | some c => c.entries.any fun e => decide (e.kind = 3#4) && decide (e.issue < stamp)
   | none => false) ||
  (List.any (s.core (s.pathOf (.course k false))).path fun (ki : Nat × PathItem) => match ki.2 with
    | .write w => w.owner.ofCourse k && decide (w.kind = 3#4) && decide (w.issue < stamp)
    | .mark | .red .. => false)

/-! ## Loads -/

/-- Whether a value may be read for a slot of a course under the order of its own accesses: older overlapping reads and
atomics are made, older acquires delivered; for a read at the home, older stores to its bytes are performed there, and no
write of its core to them is on its way; for SC, older SC operations are performed; for a register, older register
accesses of the course are performed (R150, R255, R256, R263, R323). -/
def State.mayRead (s : State) (n k : Nat) (str : Bool) (lanes : Word) (va pa size : Nat) (home sc : Bool) : Bool :=
  !(List.any s.flights fun (mf : Nat × Flight) => decide (mf.1 < n) && (match mf.2 with
      | .load y => decide (y.key = k) && y.got.isNone && inOrder y.str y.mask str lanes && overlaps y.va y.size va size
      | _ => false)) &&
  !s.atomsOlder k str lanes n va size && !s.acquireOlder k str lanes n &&
  (!isDevice pa || !s.devicesOlder k n) &&
  (isDevice pa || !home || s.homeClear k str lanes n va pa size) &&
  (!sc || !s.scOlder k n)

/-- The bytes a load reads in its own package: its version, what lies above the home, L1, home. -/
def State.loadBytes (s : State) (core pa size : Nat) (own : List (Option Byte)) (version : Option Nat)
    (home : Bool) (key : Nat) : List Byte :=
  (List.range size).map fun i =>
    match (own[i]?).getD none with
    | some b => b
    | none => match s.versionByte version (pa + i) with
      | some b => b
      | none => if home then s.sliceByte core (pa + i) key else s.coreByte core (pa + i) key

/-- The bytes a load takes from its own course's buffer when it is read: none for a read at the home (R150, R256). -/
def State.ownBytes (s : State) (n k : Nat) (str : Bool) (lanes : Word) (va size : Nat) (home : Bool) : List (Option Byte) :=
  match s.course? k with
  | some c => if home then List.replicate size none else c.forward n str lanes va size
  | none => List.replicate size none

/-- Whether a read meets poison: a poisoned line, or a poisoned copy of one, that the buffer does not cover (R345). -/
def State.readsPoison (s : State) (core pa : Nat) (own : List (Option Byte)) (version : Option Nat) (home : Bool) : Bool :=
  (match s.heldLine core pa with | some l => l.2 || s.poisonedIn version pa && version.isSome | none => s.poisonedIn version pa) &&
    own.any Option.isNone && (home || (SMap.find? (s.core core).l1 (lineOf pa)).isNone)

/-- Whether a read must go to another package (R406): neither the L1 nor the requesting slice has the line, or it is an SC one,
whose time is taken at the home (R262). -/
def State.readsAway (s : State) (core pa : Nat) (own : List (Option Byte)) (home sc : Bool) : Bool :=
  decide (pa / 2 ^ 48 ≠ pathPkg core) && own.any Option.isNone && (sc || (s.heldLine core pa).isNone) &&
    (home || (SMap.find? (s.core core).l1 (lineOf pa)).isNone)

/-- A value in register width (R153). -/
def LoadLane.value (x : LoadLane) (v : Nat) : Nat :=
  if x.sext && v.testBit (8 * x.size - 1) then v + (2 ^ 32 - 2 ^ (8 * x.size)) else v

/-- What an acquire's delivery does to its core's L1 (R256): wider than .core it drops every line; an SC one at .core,
which has read at the home, its own line. -/
def State.acquireDone (s : State) (core pa : Nat) (scope : Nat) : State :=
  if scope = 0 then s.dropLine core pa else s.dropL1 core

/-- A read value reaches its lane, unless a promotion still runs. -/
def State.landLoad (s : State) (n : Nat) (x : LoadLane) (v : Nat) : State :=
  let s := (s.landLane x.key n x.lane x.reg x.wide (x.value v)).drop n
  let s := match x.since with
    | some t => s.sampleLoad (s.pathOf (.course x.key x.str)) t
    | none => s
  match x.acquire with
  | some sc => if x.atHome then s.acquireDone (s.pathOf (.course x.key x.str)) x.pa sc else s
  | none => s

/-- The read request of a load in another package (R406, R408), with the scope of an acquire; an SC one takes its provisional
time c0 now (R262), which is never 0. -/
def State.readPacket (s : State) (a : Agent) (pa key scope : Nat) (sc : Bool) : Packet :=
  { Packet.blank 0x01 (pa / 2 ^ 48) (s.pkgOf a) with
    addr := pa, key := key, core := s.pathOf a, stamp := if sc then (s.core (s.pathOf a)).clock + 1 else 0, scope := scope }

/-- A load's value read in its own package: kept with the load, with a promotion under way where one is called for. -/
def State.readHere (s : State) (n : Nat) (x : LoadLane) : State :=
  let core := s.pathOf (.course x.key x.str)
  let own := s.ownBytes n x.key x.str x.mask x.va x.size x.atHome
  let t := s.scTime x.pa ((s.core core).clock + 1) true
  if isDevice x.pa then s.landLoad n x (s.devRead x.pa x.size (.agent (.course x.key x.str)))
  else if s.readsPoison core x.pa own x.version x.atHome then
    (s.laneFails x.key n x.str x.pc .softErr x.lane x.reg x.wide x.va 0#32).drop n
  else if x.sc.isSome && decide (2 ^ 50 ≤ t) then s.haltSc core
  else
    let v := ofBytes (s.loadBytes core x.pa x.size own x.version x.atHome x.keyId)
    let s := if x.atHome then s else s.noteRead core (.course x.key x.str) x.mask x.pa x.keyId false
    let s := if x.sc.isSome then
        (s.setStamps x.pa (s.stamps x.pa).1 (max (s.stamps x.pa).2 t)).raiseClock core t
      else s
    match (match x.acquire with | some sc => s.promoNeeds core x.pa sc | none => none) with
    | some (c, up) =>
      if s.pathClear c up then s.landLoad n x v
      else (s.setFlight n (.load { x with got := some v, promoting := true })).send (.promote n c up false)
    | none => s.landLoad n x v

/-- The item in flight numbered f, a load or a value, goes on to its lane: a load is read first, here or by a packet. -/
def State.deliverFlight (s : State) (f : Nat) : State :=
  match s.flight? f with
  | some (.load x) =>
    (match x.got with
     | some v => if x.promoting && !x.promoted then s else s.landLoad f x v
     | none =>
       let core := s.pathOf (.course x.key x.str)
       let own := s.ownBytes f x.key x.str x.mask x.va x.size x.atHome
       if x.asked || !s.mayRead f x.key x.str x.mask x.va x.pa x.size x.atHome x.sc.isSome then s
       else if x.sc.isSome && s.scHalted core then s
       else if x.version.isNone && s.readsAway core x.pa own x.atHome x.sc.isSome then
         (match s.request (s.readPacket (.course x.key x.str) x.pa x.keyId (x.acquire.getD 0) x.sc.isSome) (.flight f) with
          | some s' => s'.setFlight f (.load { x with asked := true })
          | none => s)
       else s.readHere f x)
  | some (.value x) =>
    let s := s.drop f
    let s := match x.fail with
      | some (cause, taddr, ti) => s.laneFails x.key x.origin x.str x.pc cause x.lane x.reg x.wide taddr ti
      | none => s.landLane x.key x.origin x.lane x.reg x.wide x.value
    (match x.acquire with
     | some (sc + 1) => s.acquireDone (s.pathOf (.course x.key x.str)) 0 (sc + 1)
     | _ => s)
  | _ => s

/-- The course a reply or acknowledgement in flight is for. -/
def Flight.courseOf (x : Flight) : Option Nat :=
  match x with
  | .load y => some y.key
  | .value y => some y.key
  | .ack (.course k _) _ _ _ => some k
  | .group y => (match y.agent with | .course k _ => some k | _ => none)
  | _ => none

/-- Whether an item in flight is for a course that is bound to a pending record (R291). -/
def State.diverted (s : State) (f : Nat) : Bool :=
  match s.flight? f with
  | some x => (match x.courseOf.bind fun k => s.course? k with | some c => (c.recordOf (x.origin f)).isSome | none => false)
  | none => false

/-- LANE_VALUE_DELIVERY (R150, R167, R256): item f for a course that is not bound. -/
def execLaneValueDelivery (f : Nat) (s : State) : Out :=
  .next (if s.diverted f then s
    else match s.flight? f with
    | some (.load x) => (match s.course? x.key with | none => s.drop f | some _ => s.deliverFlight f)
    | some (.value x) => (match s.course? x.key with | none => s.drop f | some _ => s.deliverFlight f)
    | _ => s)

/-! ## Stores -/

/-- The counter of an entry (R152). -/
def SbEntry.counter (e : SbEntry) : Nat := if e.kind.toNat < 2 then 0 else e.scope.toNat

/-- Whether the counters of scopes .core to S count nothing but atomics younger than a stamp that have not been performed,
and entries of the same instruction: what a release or SC entry waits for (R263, R267; logs 107, 108). -/
def State.countersBefore (s : State) (k : Nat) (c : Course) (stamp scope : Nat) : Bool :=
  (List.range (scope + 1)).all fun i => decide (c.counter i =
    (List.filter (fun (nf : Nat × Flight) => decide (stamp < nf.1) && (match nf.2 with
      | .atom g => g.owner.ofCourse k && decide (g.counter = some i)
      | _ => false)) s.flights).length +
    (List.filter (fun (ki : Nat × PathItem) => match ki.2 with
      | .write w => w.owner.ofCourse k && decide (w.issue = stamp) && decide (w.kind = 3#4) && decide (w.scope = i)
      | .mark | .red .. => false) (s.core (s.pathOf (.course k false))).path).length)

/-- The scope at which an entry acts as a release: its own, and .pkg for a write to RESUME (R335). -/
def SbEntry.releases (e : SbEntry) (pa : Nat) : Option Nat :=
  if 2 ≤ e.kind.toNat then some e.scope.toNat
  else if isDevice pa && decide ((pa % 2 ^ 48 - regLo) < 0x08000000) &&
      decide ((pa % 2 ^ 48 - regLo) % 0x01000000 / 64 = 0x100018 / 64) && e.touches (e.va.toNat + 0x18) 4 then some 3
  else none

/-- Whether the core has passed on every atomic of a course older than a stamp (R255): a release that leaves later comes after
them in the write path. -/
def State.atomsPlaced (s : State) (k stamp : Nat) : Bool :=
  !(List.any s.flights fun (nf : Nat × Flight) => decide (nf.1 < stamp) && (match nf.2 with
    | .atom g => g.owner.ofCourse k && g.mark.isNone && g.version.isNone
    | _ => false))

/-- Whether a buffer entry to an address may leave (R22, R146, R263, R267, R268, R323): entries before it are `older`. -/
def State.mayLeave (s : State) (k : Nat) (c : Course) (e : SbEntry) (pa : Nat) (older : List SbEntry) : Bool :=
  let before := older.filter fun o => !(o.frozen && o.restored)
  !e.frozen &&
  (older.all fun o => !(decide (o.va = e.va) && decide (o.mask &&& e.mask ≠ 0#64))) &&
  (e.restored || before.all fun o => !o.restored) &&
  (match e.releases pa with
   | some scope => before.isEmpty && s.countersBefore k c e.issue scope && !s.loadsOlder k e.slot e.lanes e.issue &&
       !s.spOlder k e.slot e.lanes e.issue && s.atomsPlaced k e.issue
   | none => true) &&
  (decide (e.kind ≠ 3#4) || !s.scOlder k e.issue) &&
  (!isDevice pa || !s.devicesOlder k e.issue) &&
  !s.acquireOlder k e.slot e.lanes e.issue &&
  !(List.any s.flights fun (nf : Nat × Flight) => decide (nf.1 < e.issue) && (match nf.2 with
      | .load y => decide (y.key = k) && inOrder y.str y.mask e.slot e.lanes && overlaps e.va.toNat 64 y.va y.size && y.got.isNone
      | .atom g => g.owner.ofCourse k && overlaps e.va.toNat 64 g.va g.size
      | _ => false))

/-- The bytes of an entry as a write of its half-line. -/
def SbEntry.bytes (e : SbEntry) : List (Option Byte) :=
  e.data.toList.zipIdx.map fun b => if e.mask.getLsbD b.2 then some b.1 else none

/-- Register writes of an entry, in address order: words whose bytes are all valid; a full aligned pair is one 8-byte
access (R323). -/
def deviceWrites (bs : List (Option Byte)) : List (Nat × Nat × Nat) :=
  (List.range 8).flatMap fun i =>
    let lo := (bs.drop (8 * i)).take 4
    let hi := (bs.drop (8 * i + 4)).take 4
    let val (l : List (Option Byte)) : Nat := ofBytes (l.map fun b => b.getD 0#8)
    let full (l : List (Option Byte)) : Bool := l.all Option.isSome
    if full lo && full hi then [(8 * i, 8, val (lo ++ hi))]
    else (if full lo then [(8 * i, 4, val lo)] else []) ++ (if full hi then [(8 * i + 4, 4, val hi)] else [])

/-- Laying a write over a line held in an L1 (R255). -/
def overL1 (l1 : SMap (List Byte)) (pa : Nat) (bs : List (Option Byte)) : SMap (List Byte) :=
  SMap.modify l1 (lineOf pa) fun line => line.zipIdx.map fun b =>
    if pa % 128 ≤ b.2 then (((bs[b.2 - pa % 128]?).getD none).getD b.1) else b.1

/-- An entry passed on to the core's write path (R22, R255), or performed at once on a version or a register. -/
def State.passOn (s : State) (k : Nat) (t : Team) (e : SbEntry) (pa leaf : Nat) : State :=
  match t.version with
  | some _ => s.versionWrite (k / 16) pa (leafKey leaf) (snapMark leaf) e.bytes
  | none =>
    let s := s.modCourse k fun c => c.count e.counter (· + 1#12)
    if isDevice pa ∧ pa / 2 ^ 48 = pkgOfCore t.core then
      ((deviceWrites e.bytes).foldl (fun s w => s.devWrite (pa + w.1) w.2.1 w.2.2 (.agent (.course k e.slot))) s).send
        (.ack (.course k e.slot) e.counter 0 s.fresh)
    else
      let s := if decide (2 ≤ e.kind.toNat) && decide (e.scope ≠ 0#3) then s.putMark t.core else s
      let w : PathWrite :=
        { owner := .course k e.slot, pa := pa, va := e.va.toNat, bytes := e.bytes, kind := e.kind, scope := e.counter,
          ts := e.stamp.toNat, flag := (e.parts.head?).bind SbPart.flag, issue := e.issue, snap := snapMark leaf,
          step := e.step, keyId := leafKey leaf, whole := e.whole, parts := e.parts, sent := false, landed := false }
      (s.modCore t.core fun x => { x with path := SMap.put x.path s.fresh (.write w), l1 := overL1 x.l1 pa e.bytes }).tick

/-- The n-th valid entry leaves; an SC entry takes its core's clock as it goes (R262; log 33). -/
def State.entryLeaves (s : State) (k : Nat) (t : Team) (n : Nat) (e : SbEntry) (pa leaf : Nat) : State :=
  let x := if e.kind = 3#4 then { e with stamp := BitVec.ofNat 64 (max e.stamp.toNat ((s.core t.core).clock + 1)) } else e
  (s.modCourse k fun c => c.dropEntry n).passOn k t x pa leaf

/-- STORE_BUFFER_DRAIN (R267): the entry at place e of course c leaves. An entry whose translation fails now stays
(log 16); a versioned team's stays while its version has no room (R287). -/
def execStoreBufferDrain (c e : Nat) (s : State) : Out :=
  .next (match s.course? c, s.team? (c / 16) with
    | some x, some t =>
      match x.entries[e]? with
      | none => s
      | some en =>
        let stopped := decide (t.residency ≠ .resident) && decide (t.residency ≠ .saving)
        if stopped || decide (4095 ≤ x.counter en.counter) || (decide (en.kind = 3#4) && s.scHalted t.core) then s
        else match s.translate t.xlat en.va.toNat .store false with
        | .ok pa leaf =>
          if !s.mayLeave c x en pa (x.entries.take e) then s
          else if s.versionFull t [pa] then s.stallVersion (c / 16) t [pa]
          else s.entryLeaves c t e en pa leaf
        | _ => s
    | _, _ => s)

/-- Whether what stands at a place of a write path, an owner's access to a range, may be performed at its home (R255, R323,
R412): nothing that stands before a mark before it is still to be performed, and no earlier write to its bytes waits for its
acknowledgement, nor an earlier atomic of its course on them, nor an earlier register write of its owner. -/
def mayPerform (path : SMap PathItem) (key : Nat) (owner : Agent) (pa size : Nat) : Bool :=
  let last := List.foldl (fun a (ki : Nat × PathItem) => if ki.1 < key ∧ ki.2 = .mark then max a ki.1 else a) 0 path
  path.all fun (ki : Nat × PathItem) => decide (key ≤ ki.1) || (!(ki.2.waits && decide (ki.1 < last)) && (match ki.2 with
    | .mark => true
    | .write v => !(overlaps v.pa v.bytes.length pa size) && !(isDevice v.pa && isDevice pa && decide (v.owner = owner))
    | .red o a n => !(decide (o = owner) && overlaps a n pa size)))

/-- HOME_WRITE_PERFORM (R255): the write of a key on a core's write path p is performed at its home, or sent there when
its home is in another package; a line shared by other packages is invalidated first (R325). An SC store is performed lane by
lane, and its core's clock is raised with each (R262, R263; log 107). -/
def execHomeWritePerform (p w : Nat) (s : State) : Out :=
  .next (match SMap.find? (s.core p).path w with
    | some (.write x) =>
      if x.sent || !mayPerform (s.core p).path w x.owner x.pa x.bytes.length then s
      else
        let src := s.pkgOf x.owner
        let dst := x.pa / 2 ^ 48
        if dst ≠ src then
          let k := s.writePacket p x
          if s.flagPending src dst k.og x.issue then s
          else match s.request k (.write p w x.owner x.scope) with
          | some s' => s'.modCore p fun c => { c with path := SMap.put c.path w (.write { x with sent := true }) }
          | none => s
        else if !s.unshared x.pa then s.invalidate x.pa
        else if x.kind = 3#4 ∧ 2 ^ 50 ≤ s.scTime x.pa (s.scStart p x.ts) false then s.haltSc p
        else if !s.scTurn x.owner x.issue x.parts then s
        else
          let (pa, bytes) := laneOr x.parts x.pa x.bytes
          let c0 := if x.kind = 3#4 then s.scStart p x.ts else x.ts
          let (t, s) := (s.keyLine x.pa x.keyId x.snap).performWrite pa bytes x.snap x.kind.toNat p x.scope w c0
          let s := if x.kind = 3#4 then s.raiseClock p t else s
          if 2 ≤ x.parts.length then s.itemLane p w
          else
            let s := if x.whole then s.wholePart x.pa x.bytes.length false else s
            (s.dropItem p w).send (.ack x.owner x.scope t w)
    | _ => s)

/-- STORE_ACK (R23): an acknowledgement lowers its counter; one of an SC store raises the clock (R262). -/
def execStoreAck (f : Nat) (s : State) : Out :=
  .next (match s.flight? f with
    | some (.ack owner scope t _) =>
      match owner with
      | .course k _ =>
        (match s.course? k with
         | some _ =>
           if s.diverted f then s
           else
             let s := (s.drop f).modCourse k fun c => c.count scope fun n => if n = 0#12 then n else n - 1#12
             if t = 0 then s else s.raiseClock (s.pathOf owner) t
         | none => s.drop f)
      | _ => s.drop f
    | _ => s)

/-- L1_LINE_EXPIRY (R255): core c drops line l. -/
def execL1LineExpiry (c l : Nat) (s : State) : Out :=
  .next (s.modCore c fun x => { x with l1 := SMap.del x.l1 l, l1Rel := SMap.del x.l1Rel l })

/-! ## Atomics -/

/-- The packet of an atomic group (R406, R408). -/
def State.atomPacket (s : State) (g : AtomGroup) : Packet :=
  let dst := g.pa / 2 ^ 48
  { Packet.blank (match g.owner with
      | .seq _ => 0x07
      | _ => if g.lanes.any fun l => l.reg.isSome then 0x07 else 0x09) dst (s.pkgOf g.owner) with
    len := 2, addr := g.pa, key := g.keyId, snap := s.snapBit dst g.snap, step := g.step, og := s.groupOf g.owner, stamp := g.stamp,
    scope := g.scope, atomOp := 8 * g.et.code + g.op, core := s.pathOf g.owner }

/-- Whether a course's atomic group issued as n may be passed on (R255, R256, R263): its slot's older accesses to its bytes
are performed, or, of a store, passed on; with acquire or release, so is every older access of the slot; for SC its older SC
operations are performed. -/
def State.mayPlace (s : State) (n k : Nat) (str : Bool) (g : AtomGroup) : Bool :=
  let ordered := decide (g.order ≠ .relaxed)
  (match s.course? k with
   | some c => c.entries.all fun e => !(decide (e.issue < n) && ((ordered && inOrder e.slot e.lanes str g.mask) || overlaps e.va.toNat 64 g.va g.size))
   | none => true) &&
  !s.acquireOlder k str g.mask n && !(ordered && s.spOlder k str g.mask n) &&
  !(List.any s.flights fun (mf : Nat × Flight) => decide (mf.1 < n) && (match mf.2 with
      | .load y => decide (y.key = k) && y.got.isNone && inOrder y.str y.mask str g.mask && (ordered || overlaps y.va y.size g.va g.size)
      | .atom h => (match h.owner with
        | .course j b => decide (j = k) && inOrder b h.mask str g.mask && (ordered || overlaps h.va h.size g.va g.size)
        | _ => false)
      | _ => false)) &&
  (decide (g.order ≠ .sc) || (!s.scOlder k n && !s.scHalted (s.pathOf g.owner)))

/-- The core passes an atomic on (R255): a release wider than .core puts its mark before it, and one without a reply stands in
the path until it is performed. -/
def State.placeAtom (s : State) (f : Nat) (g : AtomGroup) : State :=
  let path := s.pathOf g.owner
  let s := if g.order ≠ .relaxed ∧ g.scope ≠ 0 then s.putMark path else s
  let s' := s.setFlight f (.atom { g with mark := some s.fresh })
  (if g.lanes.any fun l => l.reg.isSome then s'
   else s'.modCore path fun c => { c with path := SMap.put c.path s.fresh (.red g.owner g.pa g.size) }).tick

/-- Whether the promotion that an atomic's acquire calls for is asked for and not answered (R260). -/
def State.promoting (s : State) (n : Nat) : Bool :=
  List.any s.flights fun (mf : Nat × Flight) => match mf.2 with
    | .promote l .. => decide (l = n)
    | .promoted l => decide (l = n)
    | _ => false

/-- An atomic at its home whose acquire calls for a promotion (R260): the request is sent, and it waits for the answer; none
when nothing is to be promoted. -/
def State.promoteAtom (s : State) (n : Nat) (g : AtomGroup) (path pa : Nat) : Option State :=
  if g.order = .relaxed then none
  else if s.promoting n then some s
  else match s.promoNeeds path pa g.scope with
    | some (c, up) => if s.pathClear c up then none else some (s.send (.promote n c up false))
    | none => none

/-- Whether a versioned team's atomic has no room for its line (R285, R287). -/
def State.atomStalls (s : State) (g : AtomGroup) : Bool :=
  match g.version with
  | some h => (match s.team? h with | some t => s.versionFull t [g.pa] | none => false)
  | none => false

/-- ATOMIC_PERFORM (R156): the group numbered f is performed at its home as one event, or sent there; a BF16x2 addition as
two, one half each (R155). -/
def execAtomicPerform (f : Nat) (s : State) : Out :=
  .next (match s.flight? f with
    | some (.atom g) =>
      let core := s.pathOf g.owner
      let waits : Option State :=
        if g.sent then some s
        else if g.copy.isSome || g.version.isSome && (match g.owner with | .course k str => s.mayPlace f k str g | _ => true) then none
        else match g.owner, g.mark with
          | .course k str, none => some (if s.mayPlace f k str g then s.placeAtom f g else s)
          | _, some m => if mayPerform (s.core core).path m g.owner g.pa g.size then none else some s
          | _, none => if s.pathTouches core g.pa g.size then some s else none
      match waits with
      | some s => s
      | none =>
        let g := if g.order = .sc then { g with stamp := (s.core core).clock + 1 } else g
        let src := s.pkgOf g.owner
        let dst := g.pa / 2 ^ 48
        if dst ≠ src ∧ g.version.isNone then
          let k := s.atomPacket g
          if s.flagPending src dst k.og f then s
          else match s.request k (.flight f) with
          | some s' => s'.setFlight f (.atom { g with sent := true })
          | none => s
        else if g.version.isNone && !s.unshared g.pa then s.invalidate g.pa
        else if g.order = .sc ∧ 2 ^ 50 ≤ s.scTime g.pa g.stamp false then s.haltSc core
        else if s.atomStalls g then s
        else match (if g.version.isSome then none else s.promoteAtom f g core g.pa) with
        | some s => s
        | none =>
          if g.firstHalf && !s.poisonedIn g.version g.pa then s.performHalf f g.pa g core (g.mark.getD f) g.snap
          else
            let (a, s) := s.performAtom g.pa g core (g.mark.getD f) g.snap
            s.finishAtom f g a .softErr 2#32
    | _ => s)

/-! ## Promotion (R260, R261) -/

/-- PROMOTE_REQUEST (R260): request n at the writer's core, from its own package or as a wall packet. It is answered
once the core has performed what it passed on before the release. -/
def execPromoteRequest (wall : Bool) (n : Nat) (s : State) : Out :=
  .next (if wall then
      s.ingress n 0x0D fun k =>
        if ¬ s.pathClear k.core k.stamp then s
        else (s.leave n k).answer k { Packet.blank 0x0E k.src k.dst with addr := k.addr }
    else
      match s.flight? n with
      | some (.promote load core upTo sent) =>
        let home := match s.flight? load with
          | some (.load x) => x.pa / 2 ^ 48
          | some (.atom g) => g.pa / 2 ^ 48
          | _ => pathPkg core
        if sent then s
        else if home = pathPkg core then
          (if s.pathClear core upTo then s.setFlight n (.promoted load) else s)
        else match s.request { Packet.blank 0x0D (pathPkg core) home with core := core, stamp := upTo } (.promote n) with
        | some s' => s'.setFlight n (.promote load core upTo true)
        | none => s
      | _ => s)

/-- PROMOTE_ANSWER (R260): the acquire may complete. -/
def execPromoteAnswer (wall : Bool) (n : Nat) (s : State) : Out :=
  .next (if wall then
      s.ingress n 0x0E fun r =>
        let s := s.leave n r
        match SMap.find? (s.pkg r.dst).txs (txKey r.src r.tag) with
        | some t => (s.dropTx r.dst (txKey r.src r.tag)).txDone t r
        | none => s
    else
      match s.flight? n with
      | some (.promoted load) =>
        let s := s.drop n
        (match s.flight? load with
         | some (.load x) => s.setFlight load (.load { x with promoted := true })
         | _ => s)
      | _ => s)

/-! ## Scratchpad banks (R178, R181) -/

/-- Whether a lane must wait (R146, R256): an older lane of the same course touches the same bytes of the same scratchpad, or
an older acquire of its slot has not delivered. -/
def State.bankBusy (s : State) (n : Nat) (x : SpLane) : Bool :=
  s.acquireOlder x.key x.str x.mask n ||
  List.any s.flights fun (mf : Nat × Flight) => decide (mf.1 < n) && (match mf.2 with
    | .spad y => decide (y.key = x.key) && decide (y.target = x.target) && overlaps y.offset y.size x.offset x.size
    | _ => false)

/-- A lane served at its bank: a poisoned word gives SOFTERR (R199). A BF16x2 addition is two events (R155). -/
def State.serveBank (s : State) (n : Nat) (x : SpLane) : State :=
  match s.team? x.target with
  | none => s.drop n
  | some t =>
    let bad := t.spPoisoned x.offset x.size
    match x.op with
    | .load reg wide lanes =>
      (lanes.foldl (fun s l =>
        if bad then s.laneFails x.key n x.str x.pc .softErr l reg wide x.offset 0#32
        else s.landLane x.key n l reg wide (ofBytes (t.spBytes x.offset x.size))) s).drop n
    | .store bytes => (s.setTeam x.target (t.spWrite x.offset bytes)).drop n
    | .atom op et ftz half lanes =>
      if bad then
        (lanes.foldl (fun s l => s.laneFails x.key n x.str x.pc .softErr l.lane (l.reg.getD 32) (decide (x.size = 8)) x.offset 2#32) s).drop n
      else if atomSplits op et && half.isNone then
        let up := (s.draw 0).getLsbD 0
        let (m, rets) := atomEvent op et ftz (ofBytes (t.spBytes x.offset x.size)) lanes (some up) none
        (s.tick.setTeam x.target (t.spWrite x.offset (bytesOf x.size m))).setFlight n
          (.spad { x with op := .atom op et ftz (some (up, rets.map fun v => halfOf up v.2)) lanes })
      else
        let (m, rets) := atomEvent op et ftz (ofBytes (t.spBytes x.offset x.size)) lanes none half
        let s := s.setTeam x.target (t.spWrite x.offset (bytesOf x.size m))
        (rets.foldl (fun s lv => match lv.1.reg with
          | some r => s.landLane x.key n lv.1.lane r (decide (x.size = 8)) lv.2
          | none => s) s).drop n

/-- SCRATCHPAD_LANE_COMPLETE (R178): lane access f is served in its own core. -/
def execScratchpadLaneComplete (f : Nat) (s : State) : Out :=
  .next (match s.flight? f with
    | some (.spad x) => if x.window || s.bankBusy f x then s else s.serveBank f x
    | _ => s)

/-- Whether a core refuses requests for a team's scratchpad (R316): its ingress has closed, or the team has left it. -/
def State.refuses (s : State) (h : Nat) : Bool :=
  match s.team? h with
  | some (t : Team) => (s.core t.core).ingressClosed || (decide (t.residency ≠ Residency.resident) && decide (t.residency ≠ Residency.saving))
  | none => true

/-- WINDOW_ACCESS (R181, R316): lane access f arrives at the partner's banks; once ingress has closed there it is
refused with SPGONE (R167). An access checked at issue that arrives after the partner's CARVE has completed is performed
without another check of its size (DESIGN CHOICE, log 105: R177 names only those accepted before and checked after). -/
def execWindowAccess (f : Nat) (s : State) : Out :=
  .next (match s.flight? f with
    | some (.spad x) =>
      if !x.window || s.bankBusy f x then s
      else
        if s.refuses x.target then
          let regs : List (Nat × Nat × Bool) := match x.op with
            | .load reg wide ls => ls.map fun (l : Nat) => (l, reg, wide)
            | .store _ => [(x.lane, 32, false)]
            | .atom _ _ _ _ ls => ls.map fun (l : AtomLane) => (l.lane, l.reg.getD 32, decide (x.size = 8))
          (List.foldl (fun (s : State) (r : Nat × Nat × Bool) => s.laneFails x.key f x.str x.pc .spGone r.1 r.2.1 r.2.2 x.offset (BitVec.ofNat 32 x.member)) s regs).drop f
        else s.serveBank f x
    | _ => s)

/-! ## Fault records (R333, R334) -/

/-- The bytes of a record. -/
def FaultRec.bytes (r : FaultRec) : List Byte :=
  let n := 1 + (r.members.length + 1) / 2
  let body := bytesOf 1 r.type ++ bytesOf 1 n ++ bytesOf 2 r.asid ++ bytesOf 2 r.core ++ bytesOf 1 r.cidSlot ++
    bytesOf 1 r.kind ++ bytesOf 8 r.addr ++ bytesOf 8 r.tid ++ bytesOf 4 r.token ++ bytesOf 4 r.info ++ r.members.flatten
  body ++ List.replicate (32 * n - body.length) 0#8

/-- A line of n slots of a ring from one on that another package still holds a copy of (R325). -/
def State.ringShared (s : State) (ring size at' n : Nat) : Option Nat :=
  ((List.range n).map fun i => ring + 32 * ((at' + i) % size)).find? fun a => !s.unshared a

/-- FAULT_RECORD_WRITE (R334): the oldest waiting record of die d is written whole once the ring has room and no copy of its
lines is left elsewhere (R325), after a pad record where it would wrap; without room OVF is set. Ring memory is written on
path V of the die. -/
def execFaultRecordWrite (d : Nat) (s : State) : Out :=
  .next (let pkg := d / 8
    let base := memBase (d % 8)
    let ctl := s.reg pkg (base + 0x14)
    match (s.die d).faults with
    | [] => s
    | r :: rest =>
      if !ctl.testBit 0 then s
      else
        let size := 2 ^ (s.reg pkg (base + 8))
        let ring := s.reg pkg base + 2 ^ 32 * s.reg pkg (base + 4)
        let head := s.reg pkg (base + 0xC) % size
        let room := (s.reg pkg (base + 0x10) + 2 * size - head - 1) % size
        let bytes := r.bytes
        let n := bytes.length / 32
        let left := size - head
        let put (s : State) (at' : Nat) (bs : List Byte) : State :=
          (List.range (bs.length / 32)).foldl (fun s i =>
            s.homeWrite (ring + 32 * ((at' + i) % size)) (((bs.drop (32 * i)).take 32).map some) none) s
        let setHead (s : State) (h : Nat) : State := s.setReg pkg (base + 0xC) (h % size)
        if left < n then
          if room < left then s.orReg pkg (base + 0x14) (2 ^ 31)
          else match s.ringShared ring size head left with
          | some a => s.invalidate a
          | none => setHead (put s head (bytesOf 1 0 ++ bytesOf 1 left ++ List.replicate (32 * left - 2) 0#8)) (head + left)
        else if room < n then s.orReg pkg (base + 0x14) (2 ^ 31)
        else match s.ringShared ring size head n with
        | some a => s.invalidate a
        | none =>
          let s := setHead (put s head bytes) (head + n)
          let s := s.modDie d fun x => { x with faults := rest }
          let s := if ctl.testBit 1 then s.orReg pkg (distBase (d % 8)) 1 else s
          let s := if ctl.testBit 3 then s.msi pkg 0 (bitsOf ctl 15 8) else s
          if ctl.testBit 4 then s.msi pkg 1 (bitsOf ctl 15 8) else s)

end Sys2Proof.Machine
end

