-- ==== Sys2Proof/Machine/PlaneBase.lean ====
section
/-! DEFINITION. What a package sends on the Weazon plane (24_lintel_circuits R431-R433): frames, streams, and the messages
of the device's own endpoints. -/

namespace Sys2Proof.Machine

open Sys2Proof

/-! ## Frames (R432) -/

/-- CRC-32 of IEEE 802.3, bit-reflected. -/
def crc32Step (c : Nat) (b : Byte) : Nat :=
  (List.range 8).foldl (fun c _ => if c.testBit 0 then (c >>> 1) ^^^ 0xEDB88320 else c >>> 1) (c ^^^ b.toNat)
def crc32 (bs : List Byte) : Nat := (bs.foldl crc32Step 0xFFFFFFFF) ^^^ 0xFFFFFFFF

/-- A plane frame's fields. A package is named 16 * wall + package. -/
structure PlaneFrame where
  kind : Nat
  sep : Nat
  dep : Nat
  win : Nat
  src : Nat
  dst : Nat
  seq : Nat
  ack : Nat
  payload : List Byte
  deriving DecidableEq, Repr

/-- SRC and DST as the header lays them out: wall [9:0], package [13:10]. -/
def packId (id : Nat) : Nat := id / 16 + id % 16 * 2 ^ 10
def unpackId (w : Nat) : Nat := bitsOf w 9 0 * 16 + bitsOf w 13 10

/-- A frame as bytes, padded to the Ethernet minimum of 64 with its FCS. -/
def PlaneFrame.bytes (f : PlaneFrame) (port : Nat) : List Byte :=
  let head := macOf f.dst port ++ macOf f.src port ++ [0x88#8, 0xB5#8] ++
    bytesOf 1 1 ++ bytesOf 1 f.kind ++ bytesOf 1 (f.sep + 16 * f.dep) ++ bytesOf 1 f.win ++ bytesOf 2 (packId f.src) ++
    bytesOf 2 (packId f.dst) ++ bytesOf 2 f.seq ++ bytesOf 2 f.ack ++ bytesOf 2 f.payload.length ++ bytesOf 2 0 ++ f.payload
  let body := head ++ List.replicate (60 - head.length) 0#8
  body ++ bytesOf 4 (crc32 body)

/-- A frame as it is received: none when it is dropped. -/
def PlaneFrame.parse (bs : List Byte) : Option PlaneFrame :=
  let at' (o n : Nat) : Nat := ofBytes ((bs.drop o).take n)
  let body := bs.take (bs.length - 4)
  let f : PlaneFrame :=
    { kind := at' 15 1, sep := at' 16 1 % 16, dep := at' 16 1 / 16, win := at' 17 1, src := unpackId (at' 18 2),
      dst := unpackId (at' 20 2), seq := at' 22 2, ack := at' 24 2, payload := (bs.drop 30).take (at' 26 2) }
  let isAck := decide (f.kind = 2)
  let ok := decide (64 ≤ bs.length) && decide (at' 12 2 = 0xB588) && decide (at' (bs.length - 4) 4 = crc32 body) &&
    decide (at' 14 1 = 1) && decide (1 ≤ f.kind) && decide (f.kind ≤ 3) &&
    (if isAck then decide (f.win ≤ 16) || decide (f.win = 0xFF) else decide (f.win = 0)) &&
    decide (at' 19 1 < 64) && decide (at' 21 1 < 64) && (!isAck || decide (f.seq = 0)) && (isAck || decide (f.ack = 0)) &&
    (if f.kind = 1 then decide (1 ≤ at' 26 2) && decide (at' 26 2 ≤ 256) else decide (at' 26 2 = 0)) &&
    decide (at' 28 2 = 0) && decide (30 + at' 26 2 + 4 ≤ bs.length)
  if ok then some f else none

/-! ## Streams (R433) -/

/-- The keys of a stream where it is sent and where it is received. -/
def sendKey (dst sep dep : Nat) : Nat := 2 * ((dst * 16 + sep) * 16 + dep)
def recvKey (src sep dep : Nat) : Nat := 2 * ((src * 16 + sep) * 16 + dep) + 1

def Pkg.stream (x : Pkg) (k : Nat) : Stream := SMap.getD x.streams Stream.init k
def State.setStream (s : State) (p k : Nat) (y : Stream) : State := s.modPkg p fun x => { x with streams := SMap.put x.streams k y }

/-- Whether a Weazon port is up (R419). -/
def State.weazonUp (s : State) (p port : Nat) : Bool := (s.reg p (lintBase + 0x64)).testBit port

/-- A frame leaves on a port, or on the other when that is down: to a package of this wall, where it is lost on a port that is down,
or out of it. -/
def State.emit (s : State) (p port : Nat) (f : PlaneFrame) : State :=
  let port := if s.weazonUp p port then port else 1 - port
  if !s.weazonUp p port then s
  else if f.dst / 16 = Config.wallId.toNat then
    if s.weazonUp (f.dst % 16) port then ({ s with frames := SMap.put s.frames s.fresh (f.bytes port) }).tick else s
  else { s with outbox := s.outbox ++ [{ kind := 7, pkg := p, info := [port], bytes := f.bytes port }] }

/-- A stream's frames, by its key. -/
def streamFrame (p k kind seq : Nat) (payload : List Byte) : PlaneFrame :=
  { kind := kind, sep := k / 32 % 16, dep := k / 2 % 16, win := 0, src := planeId p, dst := k / 512, seq := seq, ack := 0,
    payload := payload }

/-- What a sender may now send: its open, or the messages within its window. -/
def State.pump (s : State) (p k : Nat) : State :=
  let y := (s.pkg p).stream k
  let now := (s.pkg p).time
  if !y.opened then
    (s.setStream p k { y with opened := true, answered := false, sent := y.acked, last := now }).emit p y.port
      (streamFrame p k 3 y.acked [])
  else if !y.answered then s
  else
    let done := (y.sent + 2 ^ 16 - y.acked) % 2 ^ 16
    let goes := (y.out.take (min 16 y.win)).drop done
    let s := s.setStream p k { y with sent := (y.sent + goes.length) % 2 ^ 16, last := if goes.isEmpty then y.last else now }
    goes.foldl (fun s m => s.emit p y.port (streamFrame p k 1 m.1 m.2)) s

/-- A message given to a stream. -/
def State.planeSend (s : State) (p dst sep dep : Nat) (bytes : List Byte) : State :=
  let k := sendKey dst sep dep
  let y := (s.pkg p).stream k
  let y := { y with out := y.out ++ [(y.next, bytes)], next := (y.next + 1) % 2 ^ 16,
                    heard := if y.out.isEmpty then (s.pkg p).time else y.heard }
  (s.setStream p k y).pump p k

/-- The package of this wall that a plane number names. -/
def pkgOfPlane (id : Nat) : Option Nat := if id / 16 = Config.wallId.toNat then some (id % 16) else none

/-- The oldest message on an endpoint of a package: its source and bytes. -/
def State.planeHead (s : State) (p ep : Nat) : Option (Nat × List Byte) := (SMap.getD (s.pkg p).endpoints [] ep).head?

/-- The oldest message on an endpoint taken by its user. -/
def State.planeTake (s : State) (p ep : Nat) : State :=
  s.modPkg p fun x => { x with endpoints := SMap.put x.endpoints ep ((SMap.getD x.endpoints [] ep).drop 1) }

/-- A message between the device's own endpoints 13 and 14 of a package and another (R431). -/
def State.tellPeer (s : State) (p dst ep : Nat) (bytes : List Byte) : State := s.planeSend p dst ep ep bytes

/-- A fate query or its answer (R415), as endpoint 13 carries it: the kind (1 a query, 2 performed, 3 not performed), the tag, and
with an answer the reply data (DESIGN CHOICE, log 82). -/
def fateBytes (kind tag : Nat) (data : List Byte) : List Byte := bytesOf 1 kind ++ bytesOf 2 tag ++ data.take 160

/-- Sending the fate query of a transaction (R415, R414); its answer is due within WTO of now. -/
def State.queryFate (s : State) (p key : Nat) (t : WallTx) : State :=
  ((s.countReg p (wallBase + 0x10) 1).modPkg p fun x => { x with txs := SMap.put x.txs key { t with query := 1, since := x.time } }).tellPeer
    p (planeId t.pkt.dst) 13 (fateBytes 1 t.pkt.tag [])

end Sys2Proof.Machine
end

