-- ==== Sys2Proof/Machine/Fabric.lean ====
section
/-! DEFINITION. Packets of the wall as they arrive (23_wall_fabric R407-R416), flags with counts (11_ordering R269,
R270), and the snapshot's hold and log of arriving writes (21_snapshot R390-R392). -/

namespace Sys2Proof.Machine

open Sys2Proof

/-! ## Holding and performing -/

/-- Whether a packet's step is greater than the snapshot's (R392). -/
def State.stepGreater (s : State) (k : Packet) : Bool :=
  let d := (k.step + 2 ^ 16 - (s.pkg k.dst).snap.step % 2 ^ 16) % 2 ^ 16
  decide (1 ≤ d) && decide (d < 2 ^ 15)

/-- The part of a packet's bytes in each line it touches. -/
def Packet.parts (k : Packet) : List Packet :=
  let n := max 1 k.payload.length
  (List.range (lineOf (k.addr + n - 1) + 1 - lineOf k.addr)).map fun i =>
    let lo := max k.addr (128 * (lineOf k.addr + i))
    { k with addr := lo, payload := (k.payload.drop (lo - k.addr)).take (128 - lo % 128),
             mask := (k.mask.drop (lo - k.addr)).take (128 - lo % 128) }

/-- A line of a packet of the cut performed where the line is already saved is logged (R391, R392). -/
def State.logLine (s : State) (k : Packet) : State :=
  let sn := (s.pkg k.dst).snap
  match mapIndex sn.ranges k.addr with
  | none => s
  | some i =>
    if sn.state ≠ .draining ∨ s.stepGreater k ∨ (s.ownByte (sn.mapBase + i)).toNat ≠ sn.pgen then s
    else if s.poisoned (sn.mapBase + i) then s.snapFail k.dst 4
    else if sn.logLen < 160 * (sn.logRecs + 1) then s.snapFail k.dst 2
    else
      let l := 128 * lineOf k.addr
      let at' (j : Nat) : Option Byte := if k.addr % 128 ≤ j then (k.bytes[j - k.addr % 128]?).getD none else none
      let bs := (List.range 128).map at'
      let rec' := recordBytes l 2 (bs.map Option.isSome) (bs.map fun b => b.getD 0#8)
      (s.engineWrite (sn.log + 160 * sn.logRecs) rec').modPkg k.dst fun x =>
        { x with snap := { x.snap with
          logRecs := sn.logRecs + 1
          drainPoison := if k.poi && !x.snap.drainPoison.contains i then x.snap.drainPoison ++ [i] else x.snap.drainPoison } }
def State.logWrite (s : State) (k : Packet) : State := k.parts.foldl (fun s p => s.logLine p) s

/-- The mark of a packet's write (R390): one whose step is not greater than S is never protected. -/
def State.packetMark (s : State) (k : Packet) : Option Nat := if s.stepGreater k then k.markOf else none

/-- The bytes of a copy chunk or joint written at their home, line by line, poison with them (R345). -/
def State.performChunk (s : State) (k : Packet) : State :=
  k.parts.foldl (fun s p =>
    (s.homeWriteKey p.addr p.bytes (s.packetMark p) p.key).wholePart p.addr
      (if p.type = 0x0F ∧ p.mask.all id then p.payload.length else 0) p.poi) s

/-- A circuit chunk performed (R428): its bytes, then RXCTR's update, whose address travels as the packet's stamp, as a
release at .wall; then the sender's answer. -/
def State.chunkAnswer (s : State) (k : Packet) (ok : Bool) : State :=
  match k.circuit with
  | some (_, n + 1) => { s with circuitChunks := SMap.modify s.circuitChunks n fun c => { c with reply := some ok } }
  | some (port, 0) => { s with outbox := s.outbox ++ [{ kind := 6, pkg := k.dst, info := [port, k.tag, boolNat ok], bytes := [] }] }
  | none => s
def State.performCircuit (s : State) (k : Packet) : State :=
  let len := match k.circuit with
    | some (_, n + 1) => (match SMap.find? s.circuitChunks n with | some c => c.len | none => k.payload.length)
    | _ => k.payload.length
  let s := (s.logWrite k).performChunk k
  let s := if k.stamp = 0 then s else
    let s := s.keyLine k.stamp k.key (s.packetMark { k with addr := k.stamp })
    let v := bytesOf 8 ((s.natAt k.stamp 8 + len) % 2 ^ 64)
    let r : Packet := { k with addr := k.stamp, payload := v, mask := List.replicate 8 true }
    ((s.logWrite r).performWrite k.stamp (v.map some) (s.packetMark r) 2 (lintelPath k.dst) 4 0 0).2
  s.chunkAnswer k true

/-- The release number a write packet brings: its place in its core's path. -/
def State.stampOf (s : State) (k : Packet) : Nat :=
  match s.txOf k with
  | some t => (match t.serves with | .write _ key _ _ => key | .flight n => n | _ => 0)
  | none => 0

/-- The item of a write path that a packet carries has been performed; it stays there until the acknowledgement returns, for a
later write to its bytes waits for that (R412). -/
def State.itemDone (s : State) (k : Packet) : State :=
  match s.txOf k with
  | some t => (match t.serves with
    | .write path key _ _ => s.modCore path fun c => { c with path := SMap.modify c.path key fun x => match x with
        | .write w => .write { w with landed := true, parts := [] }
        | .mark | .red .. => x }
    | _ => s)
  | none => s

/-- The write on a path that a packet carries. -/
def State.pathOfPacket (s : State) (k : Packet) : Option (Nat × Nat × PathWrite) :=
  match s.txOf k with
  | some t => (match t.serves with
    | .write path key _ _ => (match SMap.find? (s.core path).path key with
      | some (.write w) => some (path, key, w)
      | _ => none)
    | _ => none)
  | none => none

/-- A request that modifies memory, performed at its destination: effect, count (R409), credits (R413), answer. A `FLAGW` is
withheld (R269); what it writes is logged when it is applied. -/
def State.performPacket (s : State) (k : Packet) : State :=
  if k.circuit.isSome then s.performCircuit k else
  let s := if k.payload.isEmpty || k.type == 0x0A then s else s.logWrite k
  let returned (s : State) : State := s.returnCredits k.src k.dst k.credits
  let count (s : State) : State := if k.counted then s.addU k.dst k.src k.og else s
  let ack : Packet := { Packet.blank 0x06 k.src k.dst with addr := k.addr }
  match k.type with
  | 0x07 | 0x09 =>
    (match s.txOf k with
     | some t =>
       (match t.serves with
        | .flight n =>
          (match s.flight? n with
           | some (.atom g) =>
             let (a, s) := s.performAtom k.addr g k.core (g.mark.getD n) (s.packetMark k)
             let s := if a.isSome then s.logWrite { k with payload := s.bytesAt k.addr g.size, mask := List.replicate g.size true } else s
             let r : Packet :=
               { ack with type := if k.type = 0x07 then 0x08 else 0x06, len := if k.type = 0x07 then 2 else 1,
                          poi := a.isNone, stamp := (a.map AtomAnswer.time).getD 0,
                          payload := ((a.map AtomAnswer.values).getD []).flatMap fun v => bytesOf 8 v.2 }
             (count (returned s)).answer k r
           | _ => returned s)
        | _ => returned s)
     | none => returned s)
  | 0x0A => s.modPkg k.dst fun x => { x with flags := x.flags ++ [k] }
  | 0x0F | 0x11 => (count (returned (s.performChunk k))).answer k ack
  | _ =>
    if isDevice k.addr then
      (count (returned (((deviceWrites k.bytes).foldl (fun s w =>
        s.devWrite (k.addr + w.1) w.2.1 w.2.2 (.agent (.kcore (8 * k.dst)))) s).itemDone k))).answer k ack
    else
      let kind := if k.type = 0x04 then 2 else if k.type = 0x05 then 3 else 0
      let c0 := if kind = 3 then s.scStart k.core k.stamp else k.stamp
      let (t, s) := (s.keyLine k.addr k.key (s.packetMark k)).performWrite k.addr k.bytes (s.packetMark k) kind k.core k.scope (s.stampOf k) c0
      let s := if k.whole then s.wholePart k.addr k.payload.length false else s
      let s := if kind = 3 then s.raiseClock k.core t else s
      (count (returned (s.itemDone k))).answer k { ack with stamp := t }

/-- Held bytes (R392, R395): the payload of R408, prefix and all, which LEN counts in units of 32. -/
def heldBytes (ps : List Packet) : Nat := (ps.map fun p => 32 * p.len).foldl (· + ·) 0

/-- The atomic group that a request carries. -/
def State.atomOf (s : State) (k : Packet) : Option AtomGroup :=
  match s.txOf k with
  | some t => (match t.serves with
    | .flight n => (match s.flight? n with | some (.atom g) => some g | _ => none)
    | _ => none)
  | none => none

/-- The flight that a packet serves. -/
def State.flightOf (s : State) (k : Packet) : Nat :=
  match s.txOf k with
  | some t => (match t.serves with | .flight n => n | _ => 0)
  | none => 0

/-- What still holds a modifying request at its home: copies of its lines elsewhere (R325), a promotion that an atomic's
acquire calls for (R260), a stamp that would pass its width (R264), the turn of an SC lane (R263). -/
def State.packetHeld (s : State) (k : Packet) : Option State :=
  match k.parts.find? fun p => !isDevice p.addr && !s.unshared p.addr with
  | some p => some (s.invalidate p.addr)
  | none =>
    match s.atomOf k with
    | some g =>
      if g.order = .sc ∧ 2 ^ 50 ≤ s.scTime k.addr g.stamp false then some (s.haltSc k.core)
      else s.promoteAtom (s.flightOf k) g k.core k.addr
    | none =>
      if k.type = 0x05 ∧ 2 ^ 50 ≤ s.scTime k.addr (s.scStart k.core k.stamp) false then some (s.haltSc k.core)
      else match s.pathOfPacket k with
        | some (_, _, w) => if s.scTurn w.owner w.issue k.lanes then none else some s
        | none => none

/-- A BF16x2 addition at its destination performs its first half alone, and its packet stays for the other (R155). -/
def State.halfDue (s : State) (k : Packet) : Option State :=
  match s.txOf k, s.atomOf k with
  | some t, some g =>
    (match t.serves with
     | .flight n => if g.firstHalf && !s.poisoned k.addr then some (s.performHalf n k.addr g k.core (g.mark.getD n) (s.packetMark k)) else none
     | _ => none)
  | _, _ => none

/-- A packet cut down to the lane of it that is performed next. -/
def Packet.lane (k : Packet) (p : SbPart) : Packet :=
  { k with addr := k.addr + p.off, payload := p.bytes, mask := List.replicate p.bytes.length true, whole := false }

/-- An SC write with more than one lane to come performs the next one alone, and stays for the others; its core's clock is
raised at once (R262, R263; log 107). -/
def State.laneDue (s : State) (n : Nat) (k : Packet) : Option State :=
  match k.lanes with
  | p :: q :: ps =>
    if k.type ≠ 0x05 then none
    else
      let x := k.lane p
      let s := s.logWrite x
      let (t, s) := (s.keyLine x.addr x.key (s.packetMark x)).performWrite x.addr x.bytes (s.packetMark x) 3 k.core k.scope (s.stampOf k)
        (s.scStart k.core k.stamp)
      let s : State := { s with packets := SMap.put s.packets n { k with lanes := q :: ps } }
      some ((match s.pathOfPacket k with | some (path, key, _) => s.itemLane path key | none => s).raiseClock k.core t)
  | _ => none

/-- Whether a modifying request must let others go first: those a snapshot engine of its package has let go were there before it
(R392, R394). -/
def State.freedFirst (s : State) (n : Nat) (k : Packet) : Bool :=
  List.any s.packets fun (mk : Nat × Packet) => mk.2.freed && decide (mk.2.dst = k.dst) && (!k.freed || decide (mk.1 < n))

/-- What keeps a modifying request at its destination from being performed, none if nothing does: others let go before it, an
armed engine that holds it because its step is greater (R392), or what `packetHeld` names. -/
def State.packetStays (s : State) (n : Nat) (k : Packet) : Option State :=
  let sn := (s.pkg k.dst).snap
  if s.freedFirst n k then some s
  else if sn.state = .armed ∧ s.stepGreater k ∧ !k.freed then
    some (if heldBytes (sn.held ++ [k]) ≤ 2 ^ 21 then
      ({ s with packets := SMap.del s.packets n }).modPkg k.dst fun x => { x with snap := { x.snap with held := x.snap.held ++ [k] } }
    else s)
  else s.packetHeld k

/-- A modifying request at its destination. -/
def State.takePacket (s : State) (n : Nat) (k : Packet) : State :=
  match s.packetStays n k with
  | some s => s
  | none =>
    match s.halfDue k, s.laneDue n k with
    | some s, _ => s
    | none, some s => s
    | none, none =>
      ({ s with packets := SMap.del s.packets n }).performPacket (match k.type, k.lanes with | 0x05, [p] => { k.lane p with lanes := [] } | _, _ => k)

/-- The held packets of an engine are let go, to be performed in arrival order, and notices go to their sources (R392, R394,
R408). -/
def State.releaseHeld (s : State) (p : Nat) : State :=
  let held := (s.pkg p).snap.held
  let s := s.modPkg p fun x => { x with snap := { x.snap with held := [] } }
  let s : State := { s with packets := held.foldl (fun ps k => requeue ps { k with freed := true }) s.packets }
  (List.range 16).foldl (fun s q => if held.any fun h => decide (h.src = q) then s.issuePacket (Packet.blank 0x12 q p) else s) s

/-! ## Reads -/

/-- The 128 bytes of a line, or the words of device registers. -/
def State.lineBytes (s : State) (pa key : Nat) (a : Agent) : List Byte :=
  if isDevice pa then (List.range 32).flatMap fun i => bytesOf 4 (s.devRead (pa + 4 * i) 4 (.agent a))
  else s.bytesUnder pa 128 key

/-- READ_REQUEST (R408): packet n arrives at its home; the line is answered and the reader's package noted (R325). An SC
read takes its time there (R262); an acquire may call for a promotion (R260); a relaxed read takes what lies above the
home in its core (R255). -/
def execReadRequest (n : Nat) (s : State) : Out :=
  .next (s.ingress n 0x01 fun k =>
    let l := 128 * lineOf k.addr
    let bytes := s.lineBytes l k.key (.kcore (8 * k.dst))
    let poi := !isDevice k.addr && s.poisoned k.addr
    let sc := decide (k.stamp ≠ 0) && !isDevice k.addr
    let t := if sc then s.scTime k.addr k.stamp true else 0
    if 2 ^ 50 ≤ t then s.haltSc k.core
    else
    let s := s.leave n k
    let s := if sc then s.setStamps k.addr (s.stamps k.addr).1 (max (s.stamps k.addr).2 t) else s
    let s := match s.txOf k with
      | some tx => (match tx.serves with | .flight f => s.readTaken f | _ => s)
      | none => s
    let s := if isDevice k.addr then s
      else s.setLine k.addr { s.line k.addr with psh := (s.line k.addr).psh ||| BitVec.ofNat 16 (2 ^ k.src) }
    let s := match s.txOf k with
      | some tx => (match tx.serves with
        | .flight f => (match s.flight? f with
          | some (.load x) => (match x.acquire with
            | some sc => (match s.promoNeeds k.core k.addr sc with
              | some (c, up) =>
                (s.setFlight f (.load { x with promoting := true })).send (.promote f c up false)
              | none => s)
            | none => s)
          | _ => s)
        | _ => s)
      | none => s
    s.answer k { Packet.blank 0x02 k.src k.dst with len := 5, addr := l, payload := bytes, poi := poi, stamp := t })

/-- An answer arriving at its source: its transaction is done (R406). -/
def State.answerArrives (s : State) (n type : Nat) : State :=
  s.ingress n type fun r =>
    let s := s.leave n r
    match SMap.find? (s.pkg r.dst).txs (txKey r.src r.tag) with
    | some t => (s.dropTx r.dst (txKey r.src r.tag)).txDone t r
    | none => s

/-- READ_REPLY (R408). -/
def execReadReply (n : Nat) (s : State) : Out := .next (s.answerArrives n 0x02)
/-- ACKNOWLEDGEMENT (R408): the acknowledgement then lowers its counter as any (R23). -/
def execAcknowledgement (n : Nat) (s : State) : Out := .next (s.answerArrives n 0x06)
/-- ATOMIC_REPLY (R408). -/
def execAtomicReply (n : Nat) (s : State) : Out := .next (s.answerArrives n 0x08)

/-! ## Writes and atomics -/

/-- WRITE_PLAIN (R408). -/
def execWritePlain (n : Nat) (s : State) : Out := .next (s.ingress n 0x03 (s.takePacket n))
/-- WRITE_RELEASE (R408). -/
def execWriteRelease (n : Nat) (s : State) : Out := .next (s.ingress n 0x04 (s.takePacket n))
/-- WRITE_SC (R408). -/
def execWriteSc (n : Nat) (s : State) : Out := .next (s.ingress n 0x05 (s.takePacket n))
/-- ATOMIC_REQUEST (R408). -/
def execAtomicRequest (n : Nat) (s : State) : Out := .next (s.ingress n 0x07 (s.takePacket n))
/-- RED_PACKET (R408). -/
def execRedPacket (n : Nat) (s : State) : Out := .next (s.ingress n 0x09 (s.takePacket n))

/-- FLAGW_PACKET (R269, R270): the flag is withheld, one for each of its lanes; with 256 withheld it waits at its sender. -/
def execFlagwPacket (n : Nat) (s : State) : Out :=
  .next (s.ingress n 0x0A fun k =>
    let mine := ((s.pkg k.dst).flags.filter fun f => decide (f.dst = k.dst)).foldl (fun n f => n + max 1 f.lanes.length) 0
    let marker (f : Packet) : Bool := decide (f.src = k.src) && decide (f.dst = k.dst) && decide (f.tag = k.tag)
    if 256 < mine + max 1 k.lanes.length then
      s.modPkg k.src fun x => if x.flags.any marker then x else { x with flags := x.flags ++ [k] }
    else (s.modPkg k.src fun x => { x with flags := x.flags.filter fun f => !(marker f) }).takePacket n k)

/-- FLAG_APPLY (R269): the i-th withheld flag of package p claims the count of its next lane, which is performed on path F; with
its last lane it is acknowledged. Its line stays under the key it has, for the packet brings a count in the place of a key (R407;
DESIGN CHOICE, log 107). -/
def execFlagApply (p i : Nat) (s : State) : Out :=
  .next (match (s.pkg p).flags[i]? with
    | none => s
    | some k =>
      let u := SMap.getD (s.pkg p).uCount 0 (uKey k.src k.og)
      let earlier := ((s.pkg p).flags.take i).any fun f =>
        decide (f.src = k.src) && decide (f.og = k.og) && decide (f.dst = p)
      let (x, count) := match k.lanes with
        | q :: _ => (k.lane q, match q.flag with | some f => f.count | none => k.key)
        | [] => (k, k.key)
      if k.dst ≠ p ∨ earlier ∨ u < count then s
      else if !s.unshared x.addr then s.invalidate x.addr
      else
        let s := s.modPkg p fun y => { y with uCount := SMap.setD y.uCount 0 (uKey k.src k.og) (u - count) }
        let s := s.logWrite x
        let (_, s) := s.performWrite x.addr x.bytes (s.packetMark x) 2 k.core k.scope (s.stampOf k) 0
        if 2 ≤ k.lanes.length then
          (match s.pathOfPacket k with | some (path, key, _) => s.itemLane path key | none => s).modPkg p fun y =>
            { y with flags := y.flags.set i { k with lanes := k.lanes.drop 1 } }
        else
          let s := s.modPkg p fun y => { y with flags := y.flags.eraseIdx i }
          ((s.itemDone k).returnCredits k.src k.dst k.credits).answer k { Packet.blank 0x06 k.src k.dst with addr := k.addr })

/-! ## Invalidations (R325) -/

/-- INVALIDATE (R408): the package drops the copies of the line that its LLCs hold. -/
def execInvalidate (n : Nat) (s : State) : Out :=
  .next (s.ingress n 0x0B fun k =>
    ((s.leave n k).dropCopies k.dst (lineOf k.addr)).answer k { Packet.blank 0x0C k.src k.dst with addr := k.addr })
/-- INVALIDATE_ACK (R408): the home counts the copy gone. -/
def execInvalidateAck (n : Nat) (s : State) : Out := .next (s.answerArrives n 0x0C)

/-- SNAPSHOT_HELD_NOTICE (R408). -/
def execSnapshotHeldNotice (n : Nat) (s : State) : Out := .next (s.ingress n 0x12 fun k => s.leave n k)

/-! ## Header compression (R410) -/

/-- The key of a context: package, link and number. -/
def ctxKey (l c : Nat) : Nat := 8 * l + c % 8

/-- STREAM_OPEN (R410): a full header opens context KEY[2:0] of link l at package p; what the packets of the stream carry after
their headers is all zero (log 17). -/
def execStreamOpen (p l : Nat) (ids tag : BitVec 16) (flags : Word) (addr : BitVec 52) (key : BitVec 12) (s : State) : Out :=
  .next (let k := Packet.ofHeader (key ++ addr ++ flags ++ tag ++ ids)
    s.modPkg p fun x => { x with ctxs := SMap.put x.ctxs (ctxKey l (k.key % 8)) k })

/-- COMPRESSED_PACKET (R410): the eight bytes of a header: a context, TAG, and a signed address delta; every other field is the
context's, TYPE but for that of the stream's opening. A context that is not open drops it. -/
def execCompressedPacket (p l : Nat) (c tag : BitVec 16) (delta : Word) (s : State) : Out :=
  .next (let n := bitsOf c.toNat 15 8
    match SMap.find? (s.pkg p).ctxs (ctxKey l n) with
    | none => s.countReg p (wallBase + 0xC) 1
    | some k =>
      if 8 ≤ n then s.countReg p (wallBase + 0xC) 1
      else
        let k := { k with tag := tag.toNat % 2 ^ 12, addr := wrapTo 52 ((k.addr : Int) + 32 * delta.toInt) }
        let s := s.modPkg p fun x => { x with ctxs := SMap.put x.ctxs (ctxKey l n) k }
        { s.useCredits k.src p k.credits with packets := requeue s.packets k })

/-! ## Routes (R411, R412) -/

/-- RELAY_FORWARD (R411): a packet on a detour passes its relay when the second link is live, else it is dropped. An answer or
a notice that waits where it was formed leaves when it has a route and credits (log 17). -/
def execRelayForward (n : Nat) (s : State) : Out :=
  .next (match SMap.find? s.packets n with
    | none => s
    | some k =>
      if !k.det then s
      else if k.relay = 16 then ({ s with packets := SMap.del s.packets n }).issuePacket k
      else if s.linkLive k.relay k.dst then { s.keepRelay k with packets := SMap.put s.packets n { k with det := false } }
      else s.leave n k)

/-- ROUTE_CHANGE (R411, R412): package p takes the route to j that its links give, once nothing sent on the old one is
unanswered. -/
def execRouteChange (p j : Nat) (s : State) : Out :=
  .next (let busy := List.any (s.pkg p).txs fun (kt : Nat × WallTx) => decide (kt.2.pkt.dst = j)
    let r := s.bestRoute p j
    if busy || decide (j = p) || decide (16 ≤ j) then s
    else s.setReg p (routeOff j) (r.1 * 2 ^ 30 + r.2 * 2 ^ 24))

/-! ## Failures and fate (R415) -/

/-- The packet of a transaction, wherever it stands. -/
def WallTx.holds (t : WallTx) (k : Packet) : Bool :=
  decide (k.src = t.pkt.src) && decide (k.dst = t.pkt.dst) && decide (k.tag = t.pkt.tag) && decide (k.type = t.pkt.type)

/-- A transaction's packet is dead: neither in flight, withheld nor held any more; the credits of one that had not been dropped
return. -/
def State.killPacket (s : State) (t : WallTx) : State :=
  if t.reply.isSome then s
  else
    let keep (k : Packet) : Bool := !t.holds k
    let there := (s.packets.any fun (nk : Nat × Packet) => t.holds nk.2) || (s.pkg t.pkt.dst).flags.any t.holds || (s.pkg t.pkt.dst).snap.held.any t.holds
    let s : State := { s with packets := s.packets.filter fun (nk : Nat × Packet) => keep nk.2 }
    let s := s.modPkg t.pkt.src fun x => { x with flags := x.flags.filter keep }
    let s := s.modPkg t.pkt.dst fun x =>
      { x with flags := x.flags.filter keep, snap := { x.snap with held := x.snap.held.filter keep } }
    let s := if there then s.returnCredits t.pkt.src t.pkt.dst t.pkt.credits else s
    if t.pkt.counted then s.addU t.pkt.dst t.pkt.src t.pkt.og else s

/-- Whether a transaction has been performed in part: some lanes of an SC store or `FLAGW`, or half of a BF16x2 addition. Its fate
is settled once it is performed whole (log 17). -/
def State.partly (s : State) (t : WallTx) : Bool :=
  t.reply.isNone && (match t.serves with
    | .write path key _ _ => (match SMap.find? (s.core path).path key with
      | some (.write w) => decide (w.parts.length < t.pkt.lanes.length)
      | _ => false)
    | .flight n => (match s.flight? n with
      | some (.atom g) => g.half.isSome
      | _ => false)
    | _ => false)

/-- The oldest message on endpoint 13 of a package (R431), when it comes from a package of this wall: that package, the kind and the
tag. -/
def State.fateHead (s : State) (p : Nat) : Option (Nat × Nat × Nat) :=
  match s.planeHead p 13 with
  | some (src, m) => (pkgOfPlane src).map fun q => (q, ofBytes (m.take 1), ofBytes ((m.drop 1).take 2) % 2 ^ 12)
  | none => none

/-- FATE_QUERY (R415): package q takes the oldest message of its endpoint 13, a query, and answers it; a tag not performed is dead.
One of a tag with no query outstanding is dropped. The event names the message's tag. -/
def execFateQuery (q n : Nat) (s : State) : Out :=
  .next (match s.fateHead q with
    | some (p, 1, tag) =>
      if tag ≠ n then s
      else (match SMap.find? (s.pkg p).txs (txKey q tag) with
       | some t =>
         if t.query ≠ 1 then s.planeTake q 13
         else if s.partly t then s
         else
           let (kind, data) := match t.reply with | some r => (2, r.payload) | none => (3, [])
           (((s.planeTake q 13).killPacket t).modPkg p fun x =>
             { x with txs := SMap.put x.txs (txKey q tag) { t with query := kind } }).tellPeer q (planeId p) 13 (fateBytes kind tag data)
       | none => s.planeTake q 13)
    | some _ => s
    | none => s.planeTake q 13)

/-- Removing an answer still in flight, or waiting to leave; the credits of one in flight return. -/
def State.dropReply (s : State) (r : Packet) : State :=
  let is (k : Packet) : Bool := decide ({ k with det := r.det, relay := r.relay } = r)
  let sent := s.packets.any fun (nk : Nat × Packet) => is nk.2 && decide (nk.2.relay ≠ 16)
  let s : State := { s with packets := s.packets.filter fun (nk : Nat × Packet) => !is nk.2 }
  if sent then s.returnCredits r.src r.dst r.credits else s

/-- FATE_ANSWER (R415): package p takes the oldest message of its endpoint 13, an answer: it completes the transaction, or reports
FABRIC reason 2. The event names the message's tag. -/
def execFateAnswer (p w : Nat) (s : State) : Out :=
  .next (match s.fateHead p with
    | some (_, 1, _) => s
    | some (q, _, tag) =>
      if tag ≠ w then s
      else
        let n := txKey q tag
        let s := s.planeTake p 13
        (match SMap.find? (s.pkg p).txs n with
         | some t =>
           (match t.query, t.reply with
            | 2, some r => ((s.dropReply r).dropTx p n).txDone t r
            | 3, _ => (s.dropTx p n).txFails p t 2
            | _, _ => s)
         | none => s)
    | none => s.planeTake p 13)

/-- FATE_NO_ANSWER (R415): no answer within WTO of the query; FABRIC reason 3. A packet not yet performed is never performed
(log 17). -/
def execFateNoAnswer (p n : Nat) (s : State) : Out :=
  .next (match SMap.find? (s.pkg p).txs n with
    | some t =>
      if t.query = 0 ∨ s.partly t ∨ !(s.pkg p).past t.since (s.wallTimeoutNs p) then s
      else
        let s := if t.query = 1 then s.killPacket t else s
        let s := match t.reply with | some r => s.dropReply r | none => s
        (s.dropTx p n).txFails p t 3
    | none => s)

/-! ## SC clock reset (R416) -/

/-- Whether an SC operation at an address, with a provisional time, waits for the reset: its time would pass its width (R264). -/
def State.scStuck (s : State) (pa c0 : Nat) (load : Bool) : Bool := decide (2 ^ 50 ≤ s.scTime pa c0 load)

/-- SC operations of a package outstanding (R416): those that have started, but for those that only the reset can let go on. What
waits in a store buffer, or has not been sent or performed, has not started. -/
def State.scBusy (s : State) (p : Nat) : Bool :=
  let mine (a : Agent) : Bool := decide (s.pkgOf a = p)
  let sent (n : Nat) (a : Agent) : Nat :=
    List.foldl (fun b (kt : Nat × WallTx) => if kt.2.serves = .flight n then kt.2.pkt.stamp else b) 0 (s.pkg (s.pkgOf a)).txs
  (List.any s.flights fun (nf : Nat × Flight) => match nf.2 with
    | .load x => x.asked && x.sc.isSome && x.got.isNone && mine (.course x.key x.str) &&
        !s.scStuck x.pa (sent nf.1 (.course x.key x.str)) true
    | .atom g => decide (g.order = .sc) && g.sent && mine g.owner && !s.scStuck g.pa (sent nf.1 g.owner) false
    | .ack a _ t _ => decide (t ≠ 0) && mine a
    | _ => false) ||
  (List.any s.cores fun (kc : Nat × Core) => decide (kc.1 / 768 = p) && List.any kc.2.path fun (ki : Nat × PathItem) =>
    match ki.2 with
    | .write w => decide (w.kind = 3#4) && (w.landed || !s.scStuck w.pa (s.scStart kc.1 w.ts) false)
    | .mark | .red .. => false)

/-- The provisional times of SC operations that the reset finds waiting start anew, at one more than their clocks (R262, R416). -/
def Packet.scAnew (k : Packet) : Packet :=
  { k with stamp := if (k.type = 0x01 ∨ k.type = 0x05 ∨ k.type = 0x07) ∧ k.stamp ≠ 0 then 1 else k.stamp }
def State.scAnew (s : State) : State :=
  { s with
    packets := s.packets.mapVals Packet.scAnew
    courses := s.courses.mapVals fun c => { c with sb := c.sb.map fun e => if e.valid ∧ e.kind = 3#4 then { e with stamp := 1#64 } else e }
    cores := s.cores.mapVals fun c => { c with path := c.path.mapVals fun x => match x with
      | .write w => .write { w with ts := if w.kind = 3#4 then 1 else w.ts }
      | .mark | .red .. => x }
    flights := s.flights.mapVals fun f => match f with
      | .atom g => .atom { g with stamp := if g.order = .sc then 1 else g.stamp }
      | _ => f
    pkgs := s.pkgs.mapVals fun x => { x with
      txs := x.txs.mapVals fun t => { t with pkt := t.pkt.scAnew }
      snap := { x.snap with held := x.snap.held.map Packet.scAnew } } }

/-- SC_CLOCK_RESET_REQUEST (R416): package 0 receives a request of core c, whose clock has reached 2^49, and SC issue
stops over the wall. -/
def execScClockResetRequest (c : Nat) (s : State) : Out :=
  .next (if (s.core c).clock < 2 ^ 49 then s
    else (List.range 16).foldl (fun s p => s.modPkg p fun x => { x with scStop := true, scReported := x.scStop && x.scReported }) s)

/-- SC_QUIESCENT_REPORT (R416): package p reports; with the last report clocks and stamps are zeroed, SCEPOCH counts and
SC issue resumes. -/
def execScQuiescentReport (p : Nat) (s : State) : Out :=
  .next (if !(s.pkg p).scStop || s.scBusy p then s
    else
      let s := s.modPkg p fun x => { x with scReported := true }
      if (List.range 16).all fun q => (s.pkg q).scReported then
        let s := s.scAnew
        let s : State := { s with
          cores := s.cores.map fun (kc : Nat × Core) => (kc.1, { kc.2 with clock := 0, scHalt := false })
          dir := List.filter (fun (kl : Nat × DirLine) => decide (kl.2 ≠ DirLine.init))
            (s.dir.map fun (kl : Nat × DirLine) => (kl.1, { kl.2 with lw := 0, lr := 0, stamped := false }))
          floors := [] }
        (List.range 16).foldl (fun s q =>
          (s.modPkg q fun x => { x with scStop := false, scReported := false }).setReg q (wallBase + 8)
            ((s.reg q (wallBase + 8) + 1) % 2 ^ 16)) s
      else s)

end Sys2Proof.Machine
end

