-- ==== Sys2Proof/Machine/CopyBase.lean ====
section
/-! DEFINITION. The copy engine's descriptors, checks, layouts and conversions (09_copy_engine R202-R213), and updates of
generation barriers (08_core R194). -/

namespace Sys2Proof.Machine

open Sys2Proof

/-! ## Generation barriers (R194) -/

/-- One update at the bank: arrivals, then an amount added to BYTES, then the completion test; the value is GEN as the
update read it. -/
def Team.genUpdate (t : Team) (o arrivals : Nat) (add : Int) : Nat × Team :=
  let w (i n : Nat) : Nat := ofBytes (t.spBytes (o + i) n)
  let gen := w 0 4
  let exact : Int := signedOf 32 (w 4 4) + add
  let bytes := wrapTo 32 exact
  let arr := w 8 2
  let narr := w 10 2
  let status := w 12 4
  let status := if signedOf 32 bytes ≠ exact then setBits status 1 1 1 else status
  let status := if arr < arrivals ∧ narr ≠ 0 then setBits status 0 0 1 else status
  let arr := arr - arrivals
  let whole := decide (arr = 0) && decide (bytes = 0)
  (gen, t.spWrite o (bytesOf 4 ((if whole then gen + 1 else gen) % 2 ^ 32) ++ bytesOf 4 bytes ++
    bytesOf 2 (if whole then narr else arr) ++ bytesOf 2 narr ++ bytesOf 4 status))

/-! ## Descriptors (R202) -/

def dSrc (d : Vector Word 8) : Nat := d[0].toNat + 2 ^ 32 * d[1].toNat
def dDst (d : Vector Word 8) : Nat := d[2].toNat + 2 ^ 32 * d[3].toNat
def dStride (d : Vector Word 8) : Nat := d[5].toNat
def dFmt (d : Vector Word 8) : Nat := bitsOf d[6].toNat 7 0
def dLay (d : Vector Word 8) : Nat := bitsOf d[6].toNat 15 8
def dScl (d : Vector Word 8) : Nat := bitsOf d[6].toNat 19 16
def dSlot (d : Vector Word 8) : Nat := bitsOf d[6].toNat 31 20
def dGen (d : Vector Word 8) : Bool := d[7].getLsbD 31
def dTgt (d : Vector Word 8) : Nat := bitsOf d[7].toNat 30 0

/-- The flags of C (R201). -/
def fCE (f : Nat) : Bool := f.testBit 0
def fCU (f : Nat) : Bool := f.testBit 1
def fTE (f : Nat) : Bool := f.testBit 2
def fDSP (f : Nat) : Bool := f.testBit 3
def fSSP (f : Nat) : Bool := f.testBit 4
def fSlot (f : Nat) : Nat := bitsOf f 5 3

/-- Opcodes of the copies (R201). -/
def opCpy : Nat := 0xA0
def opCpyt : Nat := 0xA1
def opCpyw : Nat := 0xA2
def opCpyo : Nat := 0xA3
def opCpyr : Nat := 0xA4
def opCpyx : Nat := 0xA5
def opCpyq : Nat := 0xA6

/-- Whether source and destination are scratchpad ranges (R201, R205-R213). -/
def srcSp (op f : Nat) : Bool := decide (op = opCpyo) || (decide (op = opCpy) && fSSP f)
def dstSp (op f : Nat) : Bool := decide (op = opCpyt) || decide (op = opCpyq) || (decide (op = opCpy) && fDSP f)
def dstGlobal (op f : Nat) : Bool := decide (op = opCpyo) || (decide (op = opCpy) && !fDSP f)

/-- Source and destination element bytes of a conversion code (R206, R212). -/
def elemBytes (op fmt : Nat) : Nat × Nat :=
  if op = opCpyo then
    (match fmt with | 0x10 | 0x11 => (4, 2) | 0x12 | 0x13 | 0x14 => (4, 1) | _ => (1, 1))
  else match fmt with | 0x03 | 0x04 | 0x07 => (1, 2) | 0x05 | 0x06 => (2, 4) | _ => (1, 1)

/-- Destination bytes of a row: RB times the factor f. -/
def rowOut (op : Nat) (d : Vector Word 8) : Nat :=
  let e := elemBytes op (dFmt d)
  dRb d / e.1 * e.2

/-- Chunks of an ATILE (R207). -/
def tileChunks (op : Nat) (d : Vector Word 8) : Nat := rowOut op d / 128

/-- The destination extent in its space, from DST, as the range check of R203 counts it: a whole tile. -/
def dstExtent (op : Nat) (d : Vector Word 8) : Nat :=
  if op = opCpyo then (dRows d - 1) * dStride d + rowOut op d
  else if dLay d = 1 then
    8192 * tileChunks op d + (if dScl d = 1 then 32 * tileChunks op d * dRows d else 0)
  else dRows d * rowOut op d

/-- Where the last byte that a copy writes ends, from DST: a tile's rows from ROWS on are not written (R207, R219). -/
def dstEnd (op : Nat) (d : Vector Word 8) : Nat :=
  if op ≠ opCpyo ∧ dLay d = 1 ∧ dScl d ≠ 1 then 8192 * (tileChunks op d - 1) + 128 * dRows d else dstExtent op d

/-- The source extent from SRC, without scales. -/
def srcExtent (op : Nat) (d : Vector Word 8) : Nat :=
  if op = opCpyo then dRows d * dRb d else (dRows d - 1) * dStride d + dRb d

/-- Data bytes and scale bytes of a CPYW's stream (R208, R209). -/
def wData (d : Vector Word 8) : Nat := dRows d * dRb d
def wScales (d : Vector Word 8) : Nat :=
  match dFmt d with | 0x23 => wData d / 4 | 0x24 => wData d / 2 | _ => 0

/-- Lines of a CPYW of a kind other than sparse (R208). -/
def wLines (d : Vector Word 8) : Nat :=
  match dFmt d with
  | 0x20 => (wData d + 127) / 128
  | 0x23 => (2 * wData d + 191) / 192
  | 0x24 => (wData d / 2 + 39) / 40
  | _ => 0

/-! ## Checks (R203) -/

/-- Reason 2: a code no table lists, or an unused word or bit set. -/
def copyCodes (op f ws : Nat) (d : Vector Word 8) : Bool :=
  let z (i : Nat) (h : i < 8 := by omega) : Bool := decide (d[i] = 0#32)
  if op = opCpy then
    decide (dFmt d = 0) && decide (dLay d = 0) && decide (dScl d = 0) && (!fSSP f || z 1) && (!fDSP f || z 3)
  else if op = opCpyt ∨ op = opCpyq then
    decide (dFmt d ≤ 7) && decide (dLay d ≤ 1) && decide (dScl d = if dFmt d = 1 ∨ dFmt d = 2 then 1 else 0) &&
      (decide (dLay d = 1) || !(decide (dFmt d = 1 ∨ dFmt d = 2))) &&
      (if op = opCpyt then z 3 else decide (bitsOf d[3].toNat 31 4 = 0))
  else if op = opCpyw then
    decide (0x20 ≤ dFmt d) && decide (dFmt d ≤ 0x24) && decide (dLay d = 0) &&
      decide (dScl d = if 0x23 ≤ dFmt d then 1 else 0) && z 2 && z 3 && decide (fSlot f < ws)
  else if op = opCpyo then
    (decide (dFmt d = 0) || (decide (0x10 ≤ dFmt d) && decide (dFmt d ≤ 0x14))) &&
      (decide (dLay d = 0) || decide (dLay d = 2)) && decide (dScl d = 0) && z 1
  else if op = opCpyr then
    decide (dFmt d = 0) && decide (dLay d = 0) && decide (dScl d = 0) && z 3 && decide (bitsOf d[2].toNat 31 21 = 0)
  else decide (dFmt d ≤ 63) && decide (dLay d = 0) && decide (dScl d = 0) && z 3

/-- Whether a scratchpad range, own or through the window, lies in its team's scratchpad. -/
def State.rangeOk (s : State) (h : Nat) (t : Team) (o n : Nat) (window : Bool) : Bool :=
  if 2 ^ 32 ≤ o then false
  else if o < 2 ^ 31 then decide (o + n ≤ t.spSize)
  else window && (match s.spTarget h t o 0 with
    | .inl (h', o', _, _) => (match s.team? h' with | some t' => decide (o' + n ≤ t'.spSize) | none => false)
    | .inr _ => false)

/-- The team of the issuing team's gang on core n of the quad. -/
def State.gangOn (s : State) (t : Team) (n : Nat) : Option (Nat × Team) :=
  List.find? (fun (kt : Nat × Team) => decide (kt.2.core = t.core / 4 * 4 + n) && decide (kt.2.gangHead = t.gangHead) &&
    (decide (kt.2.residency = Residency.resident) || decide (kt.2.residency = Residency.saving))) s.teams

/-- Reason 4 of each copy. -/
def State.rangesOk (s : State) (h : Nat) (t : Team) (op f : Nat) (d : Vector Word 8) : Bool :=
  (!srcSp op f || s.rangeOk h t (dSrc d) (srcExtent op d) (decide (op = opCpy))) &&
  (if op = opCpyq then
    (let mask := bitsOf d[3].toNat 3 0
     decide (mask ≠ 0) && !d[2].getLsbD 31 && decide (2 ≤ t.gang.length) &&
      (List.range 4).all fun n => !mask.testBit n || (match s.gangOn t n with
        | some (_, t') => decide (d[2].toNat + dstExtent op d ≤ t'.spSize)
        | none => false))
   else !dstSp op f || s.rangeOk h t (dDst d) (dstExtent op d) (decide (op = opCpy)))

/-- The first failing check of R203, as its reason. R203 names R206 and R209 alone at reason 3; a CPYO that breaks a CTILE limit
of R212 gets it too (DESIGN CHOICE, log 40). -/
def State.copyReason (s : State) (h : Nat) (t : Team) (op f : Nat) (d : Vector Word 8) : Option Nat :=
  let dstAddr := if op = opCpyw ∨ op = opCpyr then 0 else if op = opCpyq then d[2].toNat else dDst d
  if dRows d = 0 ∨ dRb d = 0 ∨ dRb d % 16 ≠ 0 ∨ dSrc d % 16 ≠ 0 ∨ dstAddr % 16 ≠ 0 then some 1
  else if !copyCodes op f t.ws d then some 2
  else if ((op = opCpyt ∨ op = opCpyq) ∧ dLay d = 1 ∧ (64 < dRows d ∨ rowOut op d % 128 ≠ 0 ∨ dstAddr % 128 ≠ 0)) ∨
      (op = opCpyo ∧ dLay d = 2 ∧ (64 < dRows d ∨ dRb d % 128 ≠ 0)) then some 3
  else if !s.rangesOk h t op f d then some 4
  else if op = opCpyr ∧ (dRb d ≠ 128 ∨ 32 < bitsOf d[2].toNat 20 16 + dRows d) then some 5
  else if op = opCpyw ∧ 128 < wLines d then some 6
  else if fTE f ∧ ((if dGen d then dTgt d % 16 ≠ 0 else dTgt d % 4 ≠ 0) ∨ t.spSize < dTgt d + (if dGen d then 16 else 4)) then some 7
  else if fCE f ∧ t.launch.ncnt ≤ dSlot d then some 8
  else none

/-! ## Layout and conversion -/

/-- Named courses of a CPYR, ascending (R211). -/
def rCids (d : Vector Word 8) : List Nat := (List.range 16).filter fun c => d[2].getLsbD c

/-- What a destination byte takes (R205-R207, R212): row and byte of the expanded row, or a byte of the scale area by
its source address. -/
inductive DstByte where
  | data (row e : Nat)
  | scale (src : Nat)
  deriving DecidableEq, Repr

/-- The destination byte at distance x from DST. Where CPYO's rows overlap, a byte is its highest row's (DESIGN CHOICE, log
105: R212 does not say which row's). -/
def dstAt (op : Nat) (d : Vector Word 8) (x : Nat) : Option DstByte :=
  let len := rowOut op d
  if op = opCpyo then
    let i := if dStride d = 0 then dRows d - 1 else min (dRows d - 1) (x / dStride d)
    if x - i * dStride d < len then some (.data i (x - i * dStride d)) else none
  else if dLay d = 1 then
    let c := tileChunks op d
    if x < 8192 * c then
      let i := x / 128 % 64
      let u := (x % 128 / 16) ^^^ (i % 8)
      if i < dRows d then some (.data i (x / 8192 * 128 + u * 16 + x % 16)) else none
    else if dScl d = 1 then
      let y := x - 8192 * c
      let i := y / (32 * c)
      let j := y % (32 * c)
      if i < dRows d ∧ j < dRb d / 4 then some (.scale (dSrc d + dRows d * dStride d + i * (dRb d / 4) + j)) else none
    else none
  else if x < dRows d * len then some (.data (x / len) (x % len))
  else none

/-- Address of the byte b of source row i (R202, R212). -/
def srcByteAt (op : Nat) (d : Vector Word 8) (i b : Nat) : Nat :=
  if op = opCpyo then
    dSrc d + i * dRb d + (if dLay d = 2 then b / 128 * 128 + (((b % 128 / 16) ^^^ (i % 8)) * 16) + b % 16 else b)
  else dSrc d + i * dStride d + b

/-- Source addresses of a destination byte. -/
def srcNeeds (op : Nat) (d : Vector Word 8) (x : Nat) : List Nat :=
  match dstAt op d x with
  | none => []
  | some (.scale a) => [a]
  | some (.data i e) =>
    let (ss, ds) := elemBytes op (dFmt d)
    (List.range ss).map fun j => srcByteAt op d i (e / ds * ss + j)

/-- An element brought in (R206): exact; NaN canonical. -/
def expandElem (fmt x : Nat) : Nat :=
  match fmt with
  | 0x03 => (convertTo .bf16 .rne false false (Fmt.e4m3.decode x)).bits
  | 0x04 => (convertTo .bf16 .rne false false (Fmt.e5m2.decode x)).bits
  | 0x05 => (convertTo .f32 .rne false false (Fmt.h16.decode x)).bits
  | 0x06 => (convertTo .f32 .rne false false (Fmt.bf16.decode x)).bits
  | 0x07 => (convertTo .bf16 .rne false false (FVal.ofInt (signedOf 8 x))).bits
  | _ => x

/-- The SR state of group g of a CPYO (R74, R212). -/
def srAfter : Nat → Nat → Nat
  | 0, x => x
  | n + 1, x => srAfter n (srStep x)

/-- An element sent out (R212): n is its place among the copy's output elements. -/
def outElem (fmt rm : Nat) (sat : Bool) (seed n x : Nat) : Nat :=
  let m := RMode.ofCodeSr rm (srWord (srAfter (n / 32 + 1) seed) (n % 32))
  let v := Fmt.f32.decode x
  match fmt with
  | 0x10 => (convertTo .bf16 m false sat v).bits
  | 0x11 => (convertTo .h16 m false sat v).bits
  | 0x12 => (convertTo .e4m3 m false sat v).bits
  | 0x13 => (convertTo .e5m2 m false sat v).bits
  | 0x14 => fitInt sat true 8 (signedOf 32 x)
  | _ => x

/-- The value of a destination byte from its source bytes. -/
def Copy.dstByte (c : Copy) (x : Nat) (src : List Byte) : Byte :=
  match dstAt c.op c.desc x with
  | some (.data i e) =>
    let (ss, ds) := elemBytes c.op (dFmt c.desc)
    let v := ofBytes src
    let w := if c.op = opCpyo then outElem (dFmt c.desc) c.rm c.sat c.seed.toNat (i * (dRb c.desc / ss) + e / ds) v
      else expandElem (dFmt c.desc) v
    BitVec.ofNat 8 (w >>> (8 * (e % ds)))
  | _ => (src[0]?).getD 0#8

/-- DST as the space of the copy's chunks: an address, or an offset in the team's scratchpad. -/
def Copy.base (c : Copy) : Nat := if c.op = opCpyq then c.desc[2].toNat else dDst c.desc

/-- Bytes of the chunk at a (R216): for each of its 32 bytes the distance from DST, when the copy writes it. -/
def Copy.chunk (c : Copy) (a : Nat) : List (Option Nat) :=
  (List.range 32).map fun i =>
    if a + i < c.base then none
    else match dstAt c.op c.desc (a + i - c.base) with
      | some _ => some (a + i - c.base)
      | none => none

/-- The aligned 32-byte chunks a copy writes. -/
def Copy.chunks (c : Copy) : List Nat :=
  let lo := c.base / 32
  let hi := (c.base + dstExtent c.op c.desc + 31) / 32
  ((List.range (hi - lo)).map fun i => 32 * (lo + i)).filter fun a => (c.chunk a).any Option.isSome

/-- The units a copy's progress counts: chunks (for CPYQ by core, core number at bit 40), 32-byte pieces of a CPYW's
stream, rows of a CPYR. -/
def Copy.units (c : Copy) : List Nat :=
  if c.op = opCpyw then List.range ((wData c.desc + wScales c.desc + 31) / 32)
  else if c.op = opCpyr then List.range ((rCids c.desc).length * dRows c.desc)
  else if c.op = opCpyq then
    (List.range 4).flatMap fun n => if c.desc[3].getLsbD n then c.chunks.map (· + n * 2 ^ 40) else []
  else if c.op = opCpyx then []
  else c.chunks

/-- The byte count of a copy (R202, R210, R211). -/
def Copy.count (c : Copy) : Nat :=
  if c.op = opCpyr then (rCids c.desc).length * dRows c.desc * 128 else dRows c.desc * dRb c.desc

/-- Whether an outstanding copy writes scratchpad bytes of team h at or beyond an offset, or updates a word there
(R176, R219): its own team's, or those of a team of the issuing team's gang. The arrival word or barrier of every copy counts,
whatever its destination: R219's last sentence is read of the copied bytes (DESIGN CHOICE, log 116). -/
def State.copyReaches (s : State) (c : Copy) (h : Nat) (t : Team) (o : Nat) : Bool :=
  let mate : Bool := match s.team? c.team with
    | some x => decide (c.core / 4 = t.core / 4) && decide (2 ≤ x.gang.length) && decide (x.gangHead = t.gangHead)
    | none => false
  let own (a n : Nat) : Bool :=
    if a < 2 ^ 31 then decide (c.team = h) && decide (o < a + n)
    else decide (bitsOf a 30 29 = t.core % 4) && mate && decide (o < bitsOf a 28 0 + n)
  (decide (c.op = opCpyq) && c.desc[3].getLsbD (t.core % 4) && mate &&
      decide (o < c.desc[2].toNat + dstEnd c.op c.desc)) ||
  (dstSp c.op c.flags && decide (c.op ≠ opCpyq) && own (dDst c.desc) (dstEnd c.op c.desc)) ||
  (fTE c.flags && decide (c.team = h) && decide (o < dTgt c.desc + (if dGen c.desc then 16 else 4)))

/-- Where the stores of a team's copies go once its version is committed or gone (R281, R285, R287). -/
def State.copiesInto (s : State) (h : Nat) (w : CopyInto) : State :=
  { s with copies := s.copies.map fun (kc : Nat × Copy) =>
      if kc.2.team = h ∧ kc.2.into = .version then (kc.1, { kc.2 with into := w }) else kc }

/-! ## The lines of a CPYW (R208, R209) -/

/-- A list cut into pieces of n, the last padded. -/
def pieces {α : Type} (n : Nat) (pad : α) : Nat → List α → List (List α)
  | 0, _ => []
  | k + 1, xs => (xs.take n ++ List.replicate (n - xs.length) pad) :: pieces n pad k (xs.drop n)

/-- A sparse group: its lines, and whether it is stored plain. -/
def sparseGroup (limit : Nat) (es : List (List Byte)) : List (List Byte) × Bool :=
  let nz := es.filter fun e => e.any fun b => decide (b ≠ 0#8)
  if nz.length ≤ limit then
    let map := bytesOf 16 (es.zipIdx.foldl (fun a e => if e.1.any fun b => decide (b ≠ 0#8) then a + 2 ^ e.2 else a) 0)
    let data := nz.flatten
    ([map ++ data ++ List.replicate (112 - data.length) 0#8], false)
  else
    let bs := es.flatten
    (pieces 128 0#8 (bs.length / 128) bs, true)

/-- The groups of 128 positions of a sparse stream (R209). -/
def sparseGroups (fmt : Nat) (data : List Byte) : List (List (List Byte) × Bool) :=
  let w := if fmt = 0x21 then 1 else 2
  let n := data.length / w
  (pieces 128 (List.replicate w 0#8) ((n + 127) / 128) (pieces w 0#8 n data)).map (sparseGroup (112 / w))

/-- The lines and plain groups a stream builds. -/
def buildLines (fmt : Nat) (data scales : List Byte) : List (List Byte) × List Nat :=
  let n := data.length
  match fmt with
  | 0x20 => (pieces 128 0#8 ((n + 127) / 128) data, [])
  | 0x21 | 0x22 =>
    let groups := sparseGroups fmt data
    (groups.flatMap fun g => g.1, (groups.zipIdx.filter fun g => g.1.2).map fun g => g.2)
  | 0x23 =>
    let k := (2 * n + 191) / 192
    (((pieces 96 0#8 k data).zip (pieces 24 127#8 k scales)).map fun l => l.2 ++ l.1 ++ List.replicate 8 0#8, [])
  | _ =>
    let k := (n / 2 + 39) / 40
    (((pieces 80 0#8 k data).zip (pieces 40 127#8 k scales)).map fun l => l.2 ++ l.1 ++ List.replicate 8 0#8, [])

/-- The stream bytes that each line takes, as offsets and lengths (R208, R209): a line of a sparse group takes the whole
group, or its 128 bytes when the group is stored plain. -/
def lineRanges (fmt : Nat) (data : List Byte) (lines : Nat) : List (List (Nat × Nat)) :=
  let n := data.length
  let each (f : Nat → List (Nat × Nat)) : List (List (Nat × Nat)) := (List.range lines).map f
  match fmt with
  | 0x20 => each fun i => [(128 * i, 128)]
  | 0x23 => each fun i => [(96 * i, 96), (n + 24 * i, 24)]
  | 0x24 => each fun i => [(80 * i, 80), (n + 40 * i, 40)]
  | _ =>
    let w := if fmt = 0x21 then 1 else 2
    (sparseGroups fmt data).zipIdx.flatMap fun g =>
      (List.range g.1.1.length).map fun j => if g.1.2 then [(128 * w * g.2 + 128 * j, 128)] else [(128 * w * g.2, 128 * w)]

/-- The kind of a CPYW's lines (R208). -/
def wKind (fmt : Nat) : WKind :=
  match fmt with | 0x21 => .sparse8 | 0x22 => .sparse16 | 0x23 => .block4 | 0x24 => .vq2 | _ => .plain

end Sys2Proof.Machine
end

