-- ==== Sys2Proof/Machine/CopyEngine.lean ====
section
/-! DEFINITION. The tensor copy engine: the seven copy instructions, chunks written one at a time, completion and
failure (09_copy_engine R201-R222). CPYX's transfer stands with the circuits. -/

namespace Sys2Proof.Machine

open Sys2Proof

/-! ## Issue -/

/-- Copies outstanding on a core (R204). -/
def State.copyCount (s : State) (core : Nat) : Nat :=
  (s.copies.filter fun (kc : Nat × Copy) => decide (kc.2.core = core)).length

/-- Addresses that meet every page of a global destination: the first and last byte of each row. -/
def destEnds (op : Nat) (d : Vector Word 8) : List Nat :=
  let step := if op = opCpyo then dStride d else rowOut op d
  (List.range (dRows d)).flatMap fun i => [dDst d + i * step, dDst d + i * step + rowOut op d - 1]

/-- The allowance rule of a copy instruction (R185): its destination pages, or its circuit's group (log 18). -/
def State.copyAllowed (s : State) (c : Course) (t : Team) (op f : Nat) (d : Vector Word 8) : Bool :=
  let pkg := pkgOfCore t.core
  if c.alwLow = 0#32 then true
  else if op = opCpyx then decide (c.alwLow.toNat ≤ s.allowance pkg (16 + dFmt d / 4))
  else if dstGlobal op f then
    (destEnds op d).all fun va => match s.coreTlbHit t.xlat va with
     | some _ => (match s.translate t.xlat va .store false with
       | .ok pa _ => decide (pa / 2 ^ 48 = pkg) || decide (c.alwLow.toNat ≤ s.allowance pkg (pa / 2 ^ 48))
       | _ => true)
     | none => true
  else true

/-- Whether a circuit-live barrier takes a copy when it reaches it (R428): not free, releasing or failed, and lent to the
copy's team or launch. -/
def State.barTakes (s : State) (c : Copy) : Bool :=
  let b := SMap.getD (s.pkg (pkgOfCore c.core)).bars CircuitBar.init (dFmt c.desc)
  decide (1 ≤ b.state) && decide (b.state ≤ 3) && b.lent &&
    (decide (b.borrower = 0 ∧ b.tid = c.tid.toNat) || decide (b.borrower = 1 ∧ b.tid / 2 ^ 16 = c.tid.toNat / 2 ^ 16))

/-- SR steps a copy takes (R212). -/
def srGroups (op rm : Nat) (d : Vector Word 8) : Nat :=
  if op = opCpyo ∧ rm = 5 ∧ 0x10 ≤ dFmt d ∧ dFmt d ≤ 0x13 then (dRows d * (dRb d / 4) + 31) / 32 else 0

/-- A copy instruction (R201, R203, R204): checks, then the copy enters its core's queue. -/
def State.copyOp (s : State) (op a b f : Nat) : Res :=
  s.asCourse fun k _ c =>
    match s.team? (k / 16), c.sc.checks (((List.range 8).map fun i => (a + i, false)) ++ [(b, false)]) with
    | none, _ => .wait
    | _, some r => r
    | some t, none =>
      let d : Vector Word 8 := Vector.ofFn fun i => c.sc.reg (a + i.val)
      match s.copyReason (k / 16) t op f d with
      | some r => .trap .copyErr r 0 (dSlot d)
      | none =>
        if op = opCpyx ∧ t.version.isSome then .trap .versionBan 0 0 (op * 2 ^ 24)
        else if 32 ≤ s.copyCount t.core || !s.copyAllowed c t op f d then .wait
        else
          let rm := bitsOf c.mode.toNat 10 8
          let x : Copy :=
            { op := op, flags := f, team := k / 16, cid := c.cid, core := t.core, xlat := t.xlat, tid := t.tid,
              cntBase := t.launch.cntBase, into := if t.version.isSome then .version else .memory, desc := d,
              arrival := BitVec.ofNat 32 (c.sc.src false b), rm := rm, sat := c.mode.getLsbD 11, seed := c.srSeedO,
              phase := if op = opCpyw ∨ op = opCpyx then .waiting else .moving, done := [], remote := [], cache := [], taken := [],
              takenPoison := [], failed := none, token := none, acked := 0, sent := 0, step := s.stepOf t.core,
              bar := if op = opCpyx then some (dFmt d) else none, since := (s.pkg (pkgOfCore t.core)).time }
          let x := if op = opCpyx ∧ !s.barTakes x then { x with failed := some (BitVec.ofNat 64 (dSrc d)) } else x
          let s := ({ s with copies := SMap.put s.copies s.fresh x }).tick
          let s := s.modCourse k fun c =>
            { c with srSeedO := BitVec.ofNat 32 (srAfter (srGroups op rm d) c.srSeedO.toNat) }
          let lo := bitsOf d[2].toNat 20 16
          .done (if op = opCpyr then
              { s with courses := s.courses.map fun (kc : Nat × Course) =>
                  if kc.1 / 16 = k / 16 && d[2].getLsbD (kc.1 % 16) && decide (kc.2.life = .live) then
                    (kc.1, kc.2.mapLanes fun _ l => (List.range (dRows d)).foldl (fun (l : Lane) j => l.empty (lo + j)) l)
                  else kc }
            else s)

/-- CPY (R205). -/
def execCpy (a b : BitVec 6) (f : BitVec 5) (s : State) : Out :=
  s.runWord (.cpy a b f) (s.copyOp opCpy a.toNat b.toNat f.toNat)
/-- CPYT (R206). -/
def execCpyt (a b : BitVec 6) (f : BitVec 3) (s : State) : Out :=
  s.runWord (.cpyt a b f) (s.copyOp opCpyt a.toNat b.toNat f.toNat)
/-- CPYW (R208). -/
def execCpyw (a b : BitVec 6) (w f : BitVec 3) (s : State) : Out :=
  s.runWord (.cpyw a b w f) (s.copyOp opCpyw a.toNat b.toNat (f.toNat + 8 * w.toNat))
/-- CPYO (R212). -/
def execCpyo (a b : BitVec 6) (f : BitVec 3) (s : State) : Out :=
  s.runWord (.cpyo a b f) (s.copyOp opCpyo a.toNat b.toNat f.toNat)
/-- CPYR (R211). -/
def execCpyr (a b : BitVec 6) (f : BitVec 3) (s : State) : Out :=
  s.runWord (.cpyr a b f) (s.copyOp opCpyr a.toNat b.toNat f.toNat)
/-- CPYX (R213). -/
def execCpyx (a b : BitVec 6) (f : BitVec 3) (s : State) : Out :=
  s.runWord (.cpyx a b f) (s.copyOp opCpyx a.toNat b.toNat f.toNat)
/-- CPYQ (R210). -/
def execCpyq (a b : BitVec 6) (f : BitVec 3) (s : State) : Out :=
  s.runWord (.cpyq a b f) (s.copyOp opCpyq a.toNat b.toNat f.toNat)

/-! ## Reading a source -/

/-- Source bytes: read, with poison; held by a recoverable miss; failing at an address; or waiting for a route. -/
inductive CopyRead where
  | ok (bytes : List Byte) (poison : Bool)
  | miss (va : Nat)
  | bad (va : Nat)
  /-- no route reaches its home now (R415) -/
  | away (va : Nat)
  deriving DecidableEq, Repr

/-- The version a copy reads and writes (R203, R285). -/
def Copy.version (c : Copy) : Option Nat := if c.into = .version then some c.team else none

/-- One source byte as it stands: at its home in global memory, or in a scratchpad. A home that no route reaches holds the read
until WTO fails the copy (R221, R415; log 34). Once the team has left its core, its scratchpad is read as that team then has it: 0
while it has none, the new one after it is readmitted (DESIGN CHOICE, log 116: R220 is silent). -/
def State.sourceByte (s : State) (c : Copy) (sp : Bool) (a : Nat) : CopyRead :=
  if sp then
    match s.team? c.team with
    | some t => (match s.spTarget c.team t a 1 with
      | .inl (h, o, _, _) => (match s.team? h with
        | some t' => .ok [t'.spByte o] (t'.spPoisoned o 1)
        | none => .ok [0#8] false)
      | .inr _ => .ok [0#8] false)
    | none => .ok [0#8] false
  else
    match s.translate c.xlat a .load true with
    | .ok pa leaf =>
      if !s.reaches (pkgOfCore c.core) (pa / 2 ^ 48) then .away a
      else if isDevice pa then .ok [BitVec.ofNat 8 (s.devRead pa 1 (.agent (.course (courseKey c.team c.cid) false)))] false
      else .ok [s.homeByte c.version pa (leafKey leaf)] (s.poisonedIn c.version pa)
    | .miss => .miss a
    | .bad _ _ => .bad a

/-- One source byte (R217): of its 32-byte chunk as the copy has read it, or as it stands. -/
def State.copyByte (s : State) (c : Copy) (sp : Bool) (a : Nat) : CopyRead :=
  match (SMap.find? c.cache (a / 32)).bind fun bs => bs[a % 32]? with
  | some (b, p) => .ok [b] p
  | none => s.sourceByte c sp a

/-- A source chunk read whole; none while a byte of it cannot be read. -/
def State.sourceChunk (s : State) (c : Copy) (sp : Bool) (k : Nat) : Option (List (Byte × Bool)) :=
  (List.range 32).foldl (fun (o : Option (List (Byte × Bool))) i => match o, s.sourceByte c sp (32 * k + i) with
    | some bs, .ok [b] p => some (bs ++ [(b, p)])
    | _, _ => none) (some [])

/-- The source chunks of some addresses read, each once in the copy's life (R217): those not read before. -/
def State.readSource (s : State) (c : Copy) (sp : Bool) (as : List Nat) : Copy :=
  as.foldl (fun (c : Copy) a =>
    if (SMap.find? c.cache (a / 32)).isSome then c
    else match s.sourceChunk c sp (a / 32) with
      | some bs => { c with cache := SMap.put c.cache (a / 32) bs }
      | none => c) c

/-- Source bytes in order. -/
def State.copyBytes (s : State) (c : Copy) (sp : Bool) (as : List Nat) : CopyRead :=
  as.foldl (fun r a => match r with
    | .ok bs p => (match s.copyByte c sp a with | .ok b q => .ok (bs ++ b) (p || q) | x => x)
    | x => x) (.ok [] false)

/-- A copy put back. -/
def State.setCopy (s : State) (n : Nat) (c : Copy) : State := { s with copies := SMap.put s.copies n c }

/-- A copy failed at an address (R221), logged when a region-table entry is why (R341); one held by a miss (R222). -/
def State.copyFails (s : State) (n : Nat) (c : Copy) (va : Nat) : State :=
  let s := match s.translate c.xlat va .load true, s.translate c.xlat va .store true with
    | .bad cause ti, _ => s.logSecure c.xlat cause va ti
    | _, .bad cause ti => s.logSecure c.xlat cause va ti
    | _, _ => s
  s.setCopy n { c with failed := some (c.failed.getD (BitVec.ofNat 64 va)) }
def State.copyMiss (s : State) (n : Nat) (c : Copy) (va kind : Nat) : State :=
  let die := dieOfCore c.core
  let (tok, s) := s.newToken die
  (s.setCopy n { c with token := some tok }).postFault die
    { type := 2, asid := c.xlat.asid, core := c.core % 96, cidSlot := c.cid + 48, kind := kind, addr := va,
      tid := c.tid.toNat, token := tok, info := 0, members := [] }

/-! ## Chunks -/

/-- A copy with the sources of a destination chunk read. -/
def State.readChunk (s : State) (c : Copy) (ds : List (Option Nat)) : Copy :=
  s.readSource c (srcSp c.op c.flags) (ds.flatMap fun d => match d with | some x => srcNeeds c.op c.desc x | none => [])

/-- The bytes of a chunk as written, and poison; or why they cannot be read. -/
def State.chunkValue (s : State) (c : Copy) (ds : List (Option Nat)) : (List (Option Byte) × Bool) ⊕ CopyRead :=
  ds.foldl (fun r d => match r, d with
    | .inr x, _ => .inr x
    | .inl (bs, p), none => .inl (bs ++ [none], p)
    | .inl (bs, p), some x =>
      match s.copyBytes c (srcSp c.op c.flags) (srcNeeds c.op c.desc x) with
      | .ok src q => .inl (bs ++ [some (c.dstByte x src)], p || q)
      | e => .inr e) (.inl ([], false))

/-- A chunk written into a scratchpad, poisoned words marked. -/
def Team.writeChunk (t : Team) (o : Nat) (bs : List (Option Byte)) (poison : Bool) : Team :=
  let t := bs.zipIdx.foldl (fun (t : Team) b => match b.1 with | some x => t.spWrite (o + b.2) [x] | none => t) t
  if poison then
    { t with spPoison := bs.zipIdx.foldl (fun m b => if b.1.isSome then SMap.put m ((o + b.2) / 4) true else m) t.spPoison }
  else t

/-- A chunk written to global memory in the own package: to memory, or into the team's version with its poison (R222). -/
def State.writeChunk (s : State) (c : Copy) (pa leaf : Nat) (bs : List (Option Byte)) (poison : Bool) : State :=
  match c.into with
  | .nowhere => s
  | .version =>
    (s.versionWrite c.team pa (leafKey leaf) (snapMark leaf) bs).modTeam c.team fun t => { t with
      verPoison := if poison && !t.verPoison.contains (lineOf (s.forward pa)) then t.verPoison ++ [lineOf (s.forward pa)] else t.verPoison }
  | .memory =>
    (s.homeWriteKey pa bs (snapMark leaf) (leafKey leaf)).wholePart pa (if bs.all Option.isSome then bs.length else 0) poison

/-- The row a destination address belongs to. -/
def Copy.rowAt (c : Copy) (va : Nat) : Option Nat :=
  if va < c.base then none
  else match dstAt c.op c.desc (va - c.base) with
    | some (.data i _) => some i
    | _ => none

/-- Whether the bytes at an address and after it go in one run: those of one row (R409; log 44). -/
def Copy.joined (c : Copy) (a : Nat) : Bool := (c.rowAt a).isSome && decide (c.rowAt a = c.rowAt (a + 1))

/-- The run of destination bytes about an address (R409), within one aligned 2 KiB block: its start and length. -/
def Copy.run (c : Copy) (a : Nat) : Nat × Nat :=
  let block := a / 2048 * 2048
  let back := List.foldl (fun (r : Nat) i => if c.joined (block + i) then r else i + 1) 0 (List.range (a - block))
  let fwd := List.foldl (fun (r : Nat × Bool) i => if r.2 && c.joined (a + i) then (i + 1, true) else (r.1, false))
    (0, true) (List.range (2047 - (a - block)))
  (block + back, a - block - back + fwd.1 + 1)

/-- Whether the byte at an address has been written in another package. -/
def Copy.answered (c : Copy) (va : Nat) : Bool := c.remote.any fun r => decide (r.1 ≤ va) && decide (va < r.1 + r.2)

/-- Whether a packet of a copy covering an address is unanswered. -/
def State.copySent (s : State) (n : Nat) (c : Copy) (va : Nat) : Bool :=
  List.any (s.pkg (pkgOfCore c.core)).txs fun (kt : Nat × WallTx) => match kt.2.serves with
    | .copy m off len => decide (m = n) && decide (off ≤ va) && decide (va < off + len)
    | _ => false

/-- A chunk of a destination in another package (R409): its run goes as one packet. The copy's other bytes that lie with it in one
aligned 32-byte chunk go along, and such a chunk is never seen half new (R216; log 44). -/
def State.sendChunk (s : State) (n : Nat) (c : Copy) (first pa leaf : Nat) : State :=
  let (lo, len) := c.run first
  let src := pkgOfCore c.core
  let dst := pa / 2 ^ 48
  if s.flagPending src dst c.cid n then s
  else
    let from' := lo / 32 * 32
    let ds := (List.range (((lo + len + 31) / 32 * 32 - from') / 32)).flatMap fun i => c.chunk (from' + 32 * i)
    let skip := (ds.takeWhile Option.isNone).length
    let ds := ((ds.drop skip).reverse.dropWhile Option.isNone).reverse
    let c := s.readChunk c ds
    match s.chunkValue c ds with
    | .inr (.miss va) => s.copyMiss n c va 0
    | .inr (.bad va) => s.copyFails n c va
    | .inr (.ok _ _) | .inr (.away _) => s
    | .inl (bs, poison) =>
      let k : Packet :=
        { Packet.blank 0x0F dst src with
          len := lenOf bs.length, addr := pa + from' + skip - first, poi := poison, snap := s.snapBit dst (snapMark leaf), og := c.cid, key := leafKey leaf,
          step := c.step, core := c.core, payload := bs.map (·.getD 0#8), mask := bs.map Option.isSome }
      match s.request k (.copy n lo len) with
      | some s => s.setCopy n c
      | none => s

/-- A unit of a copy marked written. -/
def Copy.mark (c : Copy) (u : Nat) : Copy := { c with done := c.done ++ [u] }

/-- A chunk with a global destination (R203, R216, R221); in another package, the run of its first byte that no packet
carries. -/
def State.globalChunk (s : State) (n u : Nat) (c : Copy) : State :=
  let ds := c.chunk u
  match ds.zipIdx.find? fun d => d.1.isSome && !c.answered (u + d.2) && !s.copySent n c (u + d.2) with
  | none => s
  | some d =>
  let first := u + d.2
  match s.translate c.xlat first .store true with
  | .miss => s.copyMiss n c first 1
  | .bad _ _ => s.copyFails n c first
  | .ok pa leaf =>
    if isDevice pa then s.copyFails n c first
    else if c.into = .nowhere then s.setCopy n (c.mark u)
    else if pa / 2 ^ 48 ≠ pkgOfCore c.core then
      (if c.into = .version then (s.versionTrap c.team c.cid false .versionBan first).copyFails n c first
       else s.sendChunk n c first pa leaf)
    else
      let full : Bool := match s.team? c.team with | some t => decide (c.into = .version) && s.versionFull t [pa] | none => false
      if full then (match s.team? c.team with | some t => s.stallVersion c.team t [pa] | none => s)
      else if c.into = .memory ∧ !s.unshared pa then s.invalidate pa
      else
      let c := s.readChunk c ds
      match s.chunkValue c ds with
      | .inr (.miss va) => s.copyMiss n c va 0
      | .inr (.bad va) => s.copyFails n c va
      | .inr (.ok _ _) | .inr (.away _) => s
      | .inl (bs, poison) => (s.writeChunk c (pa + u - first) leaf bs poison).setCopy n (c.mark u)

/-- A chunk with a scratchpad destination, own, a partner's, or one of a CPYQ's (R205, R206, R210, R220). -/
def State.scratchChunk (s : State) (n u : Nat) (c : Copy) : State :=
  let a := u % 2 ^ 40
  let c := s.readChunk c (c.chunk a)
  match s.chunkValue c (c.chunk a) with
  | .inr (.miss va) => s.copyMiss n c va 0
  | .inr (.bad va) => s.copyFails n c va
  | .inr (.ok _ _) | .inr (.away _) => s
  | .inl (bs, poison) =>
    let target : Option (Nat × Nat) := match s.team? c.team with
      | none => none
      | some t =>
        if c.op = opCpyq then (s.gangOn t (u / 2 ^ 40)).map fun x => (x.1, a)
        else match s.spTarget c.team t a 0 with
          | .inl (h, o, _, _) => some (h, o)
          | .inr _ => none
    let s := match target with
      | some (h, o) => s.modTeam h fun t => t.writeChunk o bs poison
      | none => s
    s.setCopy n (c.mark u)

/-- A row of a CPYR landing in its course's register (R211); a poisoned row poisons the register (R222). -/
def State.registerRow (s : State) (n u : Nat) (c : Copy) : State :=
  let rows := dRows c.desc
  let as := (List.range 128).map fun i => dSrc c.desc + u * dStride c.desc + i
  let c := s.readSource c false as
  match s.copyBytes c false as with
  | .miss va => s.copyMiss n c va 0
  | .bad va => s.copyFails n c va
  | .away _ => s
  | .ok bs poison =>
    let reg := bitsOf c.desc[2].toNat 20 16 + u % rows
    let key := courseKey c.team ((rCids c.desc)[u / rows]?.getD 0)
    let s := s.modCourse key fun x =>
      if x.life = .live then x.mapLanes fun l y =>
        let y := y.writeN reg (ofBytes ((bs.drop (4 * l)).take 4))
        if poison then { y with nPoison := y.nPoison ||| BitVec.ofNat 32 (2 ^ reg) } else y
      else x
    s.setCopy n (c.mark u)

/-- A piece of a CPYW's stream read once (R208, R217). -/
def State.weightPiece (s : State) (n u : Nat) (c : Copy) : State :=
  let total := wData c.desc + wScales c.desc
  let rb := dRb c.desc
  let at' (p : Nat) : Nat :=
    if p < wData c.desc then dSrc c.desc + p / rb * dStride c.desc + p % rb
    else dSrc c.desc + dRows c.desc * dStride c.desc + (p - wData c.desc)
  let as := ((List.range 32).filter fun i => decide (32 * u + i < total)).map fun i => at' (32 * u + i)
  let c := s.readSource c false as
  match s.copyBytes c false as with
  | .miss va => s.copyMiss n c va 0
  | .bad va => s.copyFails n c va
  | .away _ => s
  | .ok bs _ =>
    s.setCopy n { c.mark u with
                        taken := SMap.put c.taken u bs
                        takenPoison := c.takenPoison ++ ((as.zipIdx.filter fun a => match s.copyByte c false a.1 with
                          | .ok _ p => p | _ => false).map fun a => 32 * u + a.2) }

/-! ## Chunks that arrive in another package (R216, R409) -/

/-- The copy a chunk's packet belongs to, and where its run begins. -/
def State.copyOfPacket (s : State) (k : Packet) : Option (Nat × Copy × Nat) :=
  match s.txOf k with
  | some t => (match t.serves with
    | .copy m lo _ => (SMap.find? s.copies m).map fun c => (m, c, lo)
    | _ => none)
  | none => none

/-- The packets of a copy that have arrived at a package, each with where its run begins. -/
def State.runsThere (s : State) (m p : Nat) : List (Nat × Packet × Nat) :=
  List.filterMap (fun (nk : Nat × Packet) =>
    if nk.2.det || decide (nk.2.type ≠ 0x0F) || decide (nk.2.dst ≠ p) then none
    else match s.copyOfPacket nk.2 with
      | some (m', _, lo) => if m' = m then some (nk.1, nk.2, lo) else none
      | none => none) s.packets

/-- The aligned 32-byte chunks of a packet's run that can become new whole (R216): every byte that the copy still owes them
stands in a packet that has arrived. -/
def Copy.ready (c : Copy) (runs : List (Nat × Packet × Nat)) (k : Packet) (lo : Nat) : List Nat :=
  let n := k.payload.length
  ((List.range ((lo + n + 31) / 32 - lo / 32)).map fun i => 32 * (lo / 32 + i)).filter fun a =>
    (c.chunk a).zipIdx.all fun d => d.1.isNone || c.answered (a + d.2) ||
      runs.any fun r => decide (r.2.2 ≤ a + d.2) && decide (a + d.2 < r.2.2 + r.2.1.payload.length)

/-- A packet cut down to the bytes of some chunks, or to the others. -/
def Packet.within (k : Packet) (lo : Nat) (chunks : List Nat) (keep : Bool) : Packet :=
  { k with mask := k.mask.zipIdx.map fun b => b.1 && (chunks.contains ((lo + b.2) / 32 * 32) == keep) }

/-- A copy chunk at its destination: the 32-byte chunks that it completes with what has arrived before it become new, each as a
whole; the packet is performed, counted and answered with the last of its own (R216, R409; log 44). -/
def State.takeCopyChunk (s : State) (n : Nat) (k : Packet) : State :=
  match s.packetStays n k, s.copyOfPacket k with
  | some s, _ => s
  | none, none => ({ s with packets := SMap.del s.packets n }).performPacket k
  | none, some (m, c, lo) =>
    let runs := s.runsThere m k.dst
    let ready := c.ready runs k lo
    let s := (runs.filter fun r => decide (r.1 ≠ n)).foldl (fun s r =>
      let part := r.2.1.within r.2.2 ready true
      if part.mask.any id then
        { (s.logWrite part).performChunk part with packets := SMap.put s.packets r.1 (r.2.1.within r.2.2 ready false) }
      else s) s
    let part := k.within lo ready true
    let rest := k.within lo ready false
    if rest.mask.any id then { (s.logWrite part).performChunk part with packets := SMap.put s.packets n rest }
    else ({ s with packets := SMap.del s.packets n }).performPacket part

/-- COPY_CHUNK (R409): packet n arrives at its destination. -/
def execCopyChunk (n : Nat) (s : State) : Out := .next (s.ingress n 0x0F (s.takeCopyChunk n))

/-- COPY_CHUNK_WRITE (R216): copy n writes its unit u whole: a destination chunk, a register's row, or a piece of the
stream that becomes a weight slot. -/
def execCopyChunkWrite (n u : Nat) (s : State) : Out :=
  .next (match SMap.find? s.copies n with
    | none => s
    | some c =>
      if c.phase ≠ .moving ∨ c.failed.isSome ∨ c.token.isSome ∨ c.done.contains u ∨ !c.units.contains u then s
      else if c.op = opCpyw then s.weightPiece n u c
      else if c.op = opCpyr then s.registerRow n u c
      else if dstSp c.op c.flags then s.scratchChunk n u c
      else s.globalChunk n u c)

/-- CPYW_FILL_START (R209): the copy begins once its slot is empty, in issue order per slot. -/
def execCpywFillStart (n : Nat) (s : State) : Out :=
  .next (match SMap.find? s.copies n with
    | none => s
    | some c =>
      let older := List.any s.copies fun (kc : Nat × Copy) => decide (kc.1 < n) && decide (kc.2.team = c.team) &&
        decide (kc.2.op = opCpyw) && decide (fSlot kc.2.flags = fSlot c.flags) &&
        (decide (kc.2.phase = .waiting) || decide (kc.2.phase = .moving))
      let full : Bool := match s.team? c.team with
        | some t => (let k := fSlot c.flags
                     if h : k < 8 then t.slots[k].full else true)
        | none => false
      if c.op ≠ opCpyw ∨ c.phase ≠ .waiting ∨ older ∨ full then s
      else s.setCopy n { c with phase := .moving })

/-! ## Completion (R214, R221) -/

/-- Every unit is written: marked, or a destination chunk whose bytes all lie in answered runs. -/
def Copy.written (c : Copy) : Bool :=
  c.units.all fun u => c.done.contains u || (dstGlobal c.op c.flags &&
    (c.chunk u).zipIdx.all fun d => d.1.isNone || c.answered (u + d.2))

/-- A weight slot filled by its copy's stream (R208, R209): none when sparse lines overflow. -/
def Copy.slot (c : Copy) : Option WSlot :=
  let stream := List.flatMap (fun (kb : Nat × List Byte) => kb.2) c.taken
  let fmt := dFmt c.desc
  let (lines, plain) := buildLines fmt (stream.take (wData c.desc)) (stream.drop (wData c.desc))
  if 128 < lines.length then none
  else some { full := true, kind := wKind fmt, lines := lines, plainGroups := plain, length := wData c.desc, cursor := 0,
              poison := ((lineRanges fmt (stream.take (wData c.desc)) lines.length).zipIdx.filter fun ri =>
                ri.1.any fun r => c.takenPoison.any fun p => overlaps r.1 r.2 p 1).map fun ri => ri.2 }

/-- The registers of rows a failed CPYR never landed are set full (R221). -/
def State.fillFailedRows (s : State) (c : Copy) : State :=
  let rows := dRows c.desc
  c.units.foldl (fun s u =>
    if c.done.contains u then s
    else s.modCourse (courseKey c.team ((rCids c.desc)[u / rows]?.getD 0)) fun x =>
      if x.life = .live then x.mapLanes fun _ l => l.full (bitsOf c.desc[2].toNat 20 16 + u % rows) else x) s

/-- A failure reported once (R221), before the updates that let its waiters go on. -/
def State.copyReport (s : State) (c : Copy) : State :=
  match c.failed with
  | none => s
  | some va =>
    if fCE c.flags then
      s.modTeam c.team fun t => { t with failedSlots := if t.failedSlots.contains (dSlot c.desc) then t.failedSlots else t.failedSlots ++ [dSlot c.desc] }
    else
      let key := courseKey c.team c.cid
      let ended : Bool := match s.course? key with
        | some x => decide (x.life = .ended) || decide (x.life = .finished)
        | none => true
      if ended then s.postFault (dieOfCore c.core)
        { type := 6, asid := c.xlat.asid, core := c.core % 96, cidSlot := c.cid + 48, kind := Cause.copyErr.code,
          addr := va.toNat, tid := c.tid.toNat, token := 0, info := dSlot c.desc, members := [] }
      else s.defer key { cause := .copyErr, tpc := none, slot := none, taddr := va, tmask := 0#32,
                         tinfo := BitVec.ofNat 32 (dSlot c.desc) }

/-- Every byte is written, or the copy has failed: what the last write brings with it. -/
def State.copyWritten (s : State) (n : Nat) (c : Copy) : State :=
  let next (s : State) (c : Copy) : State := (s.copyReport c).setCopy n { c with phase := .updating 0 }
  if c.op = opCpyw ∧ c.failed.isNone then
    match c.slot with
    | some w => next (s.modTeam c.team fun t =>
        { t with slots := Vector.ofFn (fun i : Fin 8 => (if i.val = fSlot c.flags then w else t.slots[i])) }) c
    | none => next s { c with failed := some (BitVec.ofNat 64 (dSrc c.desc)) }
  else if c.op = opCpyr ∧ c.failed.isSome then next (s.fillFailedRows c) c
  else next s c

/-- Whether a copy's counter update is on its way to another package. -/
def State.counterSent (s : State) (n : Nat) : Bool :=
  List.any s.flights fun (nf : Nat × Flight) => match nf.2 with | .atom g => decide (g.copy = some n) | _ => false

/-- The counter update (R214): one atomic add at its home, a release at .pkg; in another package it goes there as an atomic
(log 109). A poisoned line is left unchanged (R345). -/
def State.copyCounter (s : State) (n : Nat) (c : Copy) : State :=
  let next (s : State) : State := s.setCopy n { c with phase := .updating 1 }
  if !fCE c.flags then next s
  else if s.counterSent n then s
  else
    let va := c.cntBase.toNat + 8 * dSlot c.desc
    let add := if fCU c.flags then 1 else c.count
    match s.translate c.xlat va .atomic true with
    | .miss => s.copyMiss n c va 2
    | .bad cause ti => next ((s.logSecure c.xlat cause va ti).counterRecord c cause)
    | .ok pa leaf =>
      if pa / 2 ^ 48 ≠ pkgOfCore c.core then
        s.send (.atom
          { owner := .course (courseKey c.team c.cid) false, mask := 0#32, pc := 0#32, op := 0, et := .n64, ftz := false,
            size := 8, pa := pa, va := va, order := .relaxed, scope := 3, stamp := 0, counter := none, version := none,
            snap := snapMark leaf, keyId := leafKey leaf, step := c.step, sent := false, mark := none, half := none, copy := some n, engine := some (c.xlat.die, c.xlat.asid),
            lanes := [{ lane := 0, reg := none, x := add, cmp := 0 }] })
      else if s.poisoned pa then next (s.counterRecord c .softErr)
      else if !s.unshared pa then s.invalidate pa
      else
        let s := s.keyLine pa (leafKey leaf) (snapMark leaf)
        next (s.performWrite pa ((bytesOf 8 ((s.natAt pa 8 + add) % 2 ^ 64)).map some) (snapMark leaf) 2 c.core 3 0 0).2

/-- The target update (R214): arrival word or barrier, dropped when the team is no longer resident (R220). -/
def State.copyTarget (s : State) (n : Nat) (c : Copy) : State :=
  let s := ({ s with copies := SMap.del s.copies n }).sampleSource c.core 1 ((s.pkg (pkgOfCore c.core)).time - c.since)
  match s.team? c.team with
  | some t =>
    if !fTE c.flags ∨ (t.residency ≠ .resident ∧ t.residency ≠ .saving) then s
    else if dGen c.desc then s.setTeam c.team (t.genUpdate (dTgt c.desc) 0 (-(c.count : Int))).2
    else s.setTeam c.team (t.spWrite (dTgt c.desc) (bytesOf 4 c.arrival.toNat))
  | none => s

/-- COPY_COMPLETE (R214): copy n makes its next update: its data written, then the counter, then the target. -/
def execCopyComplete (n : Nat) (s : State) : Out :=
  .next (match SMap.find? s.copies n with
    | none => s
    | some c =>
      if c.token.isSome then s
      else match c.phase with
      | .waiting => if c.failed.isSome then s.copyWritten n c else s
      | .moving =>
        let busy := List.any (s.pkg (pkgOfCore c.core)).txs fun (kt : Nat × WallTx) => match kt.2.serves with
          | .copy m _ _ => decide (m = n)
          | _ => false
        if busy then s
        else if c.op = opCpyx then (if c.failed.isSome ∨ c.acked = c.count then s.copyWritten n c else s)
        else if c.failed.isSome || c.written then s.copyWritten n c else s
      | .updating 0 => s.copyCounter n c
      | .updating _ => s.copyTarget n c)

/-! ## Transactions without an answer (R415) -/

/-- A transaction that is reported without having been sent: its packet has been counted if it would have been (R270). -/
def State.failUnsent (s : State) (k : Packet) (sv : Serves) (reason : Nat) : State :=
  (if k.counted then s.addU k.dst k.src k.og else s).txFails k.src { pkt := k, serves := sv, reply := none, query := 0, since := 0 } reason

/-- An access of package p to package j that no route carries, by kind and number (R415): noted with the time at first, and failed
once WTO has passed; one that has a route is forgotten. A package that is not fitted gives reason 3 (R405). -/
def State.unreachable (s : State) (p j kind n : Nat) (fail : State → Nat → State) : State :=
  let clear (s : State) : State := s.modPkg p fun x => { x with noRoute := x.noRoute.filter fun y => decide (y.1 ≠ (kind, n)) }
  if s.reaches p j then clear s
  else match (s.pkg p).noRoute.find? fun y => decide (y.1 = (kind, n)) with
    | none => s.modPkg p fun x => { x with noRoute := x.noRoute ++ [((kind, n), x.time)] }
    | some y =>
      if (s.pkg p).past y.2 (s.wallTimeoutNs p) then fail (clear s) (if Config.fitted j then 1 else 3) else s

/-- The bytes of a copy that a unit not yet written still needs of another package, by the first address of each: its destination,
and its sources. -/
def State.copyAway (s : State) (c : Copy) (u : Nat) : Option (Nat × Nat) :=
  let src := pkgOfCore c.core
  let far (va : Nat) (k : AccKind) : Option (Nat × Nat) := match s.translate c.xlat va k true with
    | .ok pa _ => if s.reaches src (pa / 2 ^ 48) then none else some (va, pa / 2 ^ 48)
    | _ => none
  let dst := if dstGlobal c.op c.flags then far (max u c.base) .store else none
  let as : List Nat :=
    if srcSp c.op c.flags then []
    else if c.op = opCpyr then [dSrc c.desc + u % dRows c.desc * dStride c.desc]
    else if c.op = opCpyw then [dSrc c.desc + 32 * u / dRb c.desc * dStride c.desc + 32 * u % dRb c.desc]
    else (c.chunk (u % 2 ^ 40)).flatMap fun d => match d with | some x => srcNeeds c.op c.desc x | none => []
  match dst with
  | some x => some x
  | none => as.findSome? fun a => far a .load

/-- WALL_TIMEOUT (R415). k = 0: transaction n of package p has been unanswered for WTO, or its route has become unreachable, and a
fate query is sent. An access that no route carries is reported with reason 1 once WTO has passed: k = 1 the item n of write path p,
k = 2 the item in flight n, k = 3 copy n. -/
def execWallTimeout (k p n : Nat) (s : State) : Out :=
  .next (match k with
    | 0 =>
      (match SMap.find? (s.pkg p).txs n with
       | some t =>
         if t.query = 0 ∧ (!s.reaches p t.pkt.dst ∨ (s.pkg p).past t.since (s.wallTimeoutNs p)) then s.queryFate p n t else s
       | none => s)
    | 1 =>
      (match SMap.find? (s.core p).path n with
       | some (.write w) =>
         let src := s.pkgOf w.owner
         let j := w.pa / 2 ^ 48
         if w.sent ∨ j = src then s
         else s.unreachable src j 1 n fun s r => s.failUnsent (s.writePacket p w) (.write p n w.owner w.scope) r
       | _ => s)
    | 2 =>
      (match s.flight? n with
       | some (.load x) =>
         let a := Agent.course x.key x.str
         if x.asked ∨ x.got.isSome ∨ x.pa / 2 ^ 48 = s.pkgOf a then s
         else s.unreachable (s.pkgOf a) (x.pa / 2 ^ 48) 2 n fun s r =>
           s.failUnsent (s.readPacket a x.pa x.keyId (x.acquire.getD 0) x.sc.isSome) (.flight n) r
       | some (.atom g) =>
         if g.sent ∨ g.pa / 2 ^ 48 = s.pkgOf g.owner then s
         else s.unreachable (s.pkgOf g.owner) (g.pa / 2 ^ 48) 2 n fun s r => s.failUnsent (s.atomPacket g) (.flight n) r
       | some (.group x) =>
         (match x.op with
          | .load pa _ _ _ _ _ asked key =>
            if asked ∨ pa / 2 ^ 48 = s.pkgOf x.agent then s
            else s.unreachable (s.pkgOf x.agent) (pa / 2 ^ 48) 2 n fun s r => s.failUnsent (s.readPacket x.agent pa key 0 false) (.flight n) r
          | _ => s)
       | _ => s)
    | _ =>
      (match SMap.find? s.copies n with
       | some c =>
         if c.phase ≠ .moving ∨ c.failed.isSome then s
         else match (c.units.filter fun u => !c.done.contains u).findSome? fun u => s.copyAway c u with
         | some (va, j) => s.unreachable (pkgOfCore c.core) j 3 n fun s r =>
             (s.failUnsent { Packet.blank 0x0F j (pkgOfCore c.core) with og := c.cid } (.copy n va 0) r).copyFails n c va
         | none => s
       | none => s))

end Sys2Proof.Machine
end

