-- ==== Sys2Proof/Machine/Barriers.lean ====
section
/-! DEFINITION. Numbered barriers: team barriers (08_core R187-R190), scope barriers of a quad, die, package and wall
(14_quad_power R314, R315; 17_die_launch R359; 24_lintel_circuits R437), and generation barriers (R194-R197). -/

namespace Sys2Proof.Machine

open Sys2Proof

/-! ## One barrier (R188) -/

/-- The party number of a team's sequencer, above every course's key. -/
def seqParty (t : Nat) : Nat := 2 ^ 60 + t

/-- One arrival: the first of a generation fixes the count, and a party arrives once. -/
def Barrier.arrive (b : Barrier) (party count : Nat) : Barrier :=
  if b.pending.contains party then b
  else { b with need := if b.arrivals = 0 then count else b.need, arrivals := b.arrivals + 1, pending := b.pending ++ [party] }

/-- Whether the generation in progress is complete: `live` parties count for a need of 0. -/
def Barrier.full (b : Barrier) (live : Nat) : Bool :=
  decide (b.arrivals ≠ 0) && decide ((if b.need = 0 then live else b.need) ≤ b.arrivals)

/-- The completion of a generation: `stands` tells which listed slots still stand at the barrier. -/
def Barrier.complete (b : Barrier) (stands : Nat × Bool × Word → Bool) : Barrier :=
  let released := (b.standing.filter stands).map fun x => (x.1, x.2.1)
  { b with gen := b.gen + 1#16, arrivals := 0, pending := [], standing := [],
           passed := b.passed ++ released.filter fun x => !b.passed.contains x,
           unreleased := b.unreleased ++ released.filter fun x => !b.unreleased.contains x }

/-- A slot that waits is listed as standing. -/
def Barrier.stand (b : Barrier) (me : Nat × Bool) (pc : Word) : Barrier :=
  { b with standing := (b.standing.filter fun x => decide ((x.1, x.2.1) ≠ me)) ++ [(me.1, me.2, pc)] }

/-- The passed flag of a slot consumed. -/
def Barrier.pass (b : Barrier) (me : Nat × Bool) : Barrier :=
  { b with passed := b.passed.filter fun x => decide (x ≠ me), unreleased := b.unreleased.filter fun x => decide (x ≠ me) }

/-- Whether a listed slot stands at its barrier still: its PC, or in a handler the one saved at trap entry, is at the
instruction; a saved course's is in memory (R188, R190). -/
def State.stands (s : State) (x : Nat × Bool × Word) : Bool :=
  if 2 ^ 60 ≤ x.1 then
    (match s.team? (x.1 - 2 ^ 60) with | some t => decide (t.seq.pc = x.2.2) | none => false)
  else match s.course? x.1 with
  | none => false
  | some c =>
    if c.life ≠ .live then decide (c.life = .saved) || decide (c.life = .endedSaved)
    else if c.handler ∧ c.tcause = BitVec.ofNat 32 Cause.preempt.code ∧ c.tinfo.getLsbD 0 then true
    else
      let at' (y : Slot) : Bool := decide (y.mask ≠ 0#32) && decide (y.pc = x.2.2)
      at' (c.slot x.2.1) || (c.handler && at' (if x.2.1 then c.xStretcher else c.xHeader))

/-- Whether a course counts as a party: it has not ended, a save apart (R188, R283). -/
def Course.party (c : Course) : Bool := decide (c.life = .live) || decide (c.life = .endedSaved) || decide (c.life = .saved)

/-- The courses of a set of teams that count as live. -/
def State.parties (s : State) (mine : Nat → Bool) : Nat :=
  (List.filter (fun (kc : Nat × Course) => mine (kc.1 / 16) && kc.2.party) s.courses).length

/-- Testing a barrier for completion. -/
def State.testBar (s : State) (b : Barrier) (live : Nat) : Barrier := if b.full live then b.complete s.stands else b

/-- What a slot does at a barrier (R188): kind 0 arrives and waits, 1 arrives, 2 waits. `put` stores the barrier,
`live` is the party count for a need of 0, `scope` that of its release and acquire (R189, R315, R359), and a wait that is
over holds the slot until its earlier loads have delivered (R161); `auto` false leaves completion to the coordinator
(R437). -/
def State.atBarrier (s : State) (party : Nat) (str : Bool) (pc : Word) (b : Barrier) (put : State → Barrier → State)
    (kind count live scope : Nat) (auto : Bool) : Res :=
  let me := (party, str)
  let goOn (s : State) (b : Barrier) (hold : Res) : Res :=
    if s.selfAcquired scope then .done ((put s (b.pass me)).forgetSelf.acquireDrop scope) else hold
  if kind ≠ 1 ∧ b.passed.contains me then (if b.unreleased.contains me then .wait else goOn s b .wait)
  else
    let b := b.pass me
    if kind = 1 ∧ b.pending.contains party then .done (put s b)
    else if kind = 2 ∨ b.pending.contains party then
      (if !b.pending.contains party then goOn s b .wait
       else if b.standing.contains (party, str, pc) then .wait
       else .stay (put s (b.stand me pc)))
    else
      s.afterRelease scope (fun _ => match s.self with | some (k, str, _) => !s.spOutstanding k str | none => true) fun s =>
        let b := b.arrive party count
        let b := if kind = 1 then b else b.stand me pc
        let b := if auto then s.testBar b live else b
        if kind = 1 then .done (put s b)
        else if b.passed.contains me then goOn s b (.stay (put s b))
        else .stay (put s b)

/-! ## Team barriers (R187-R189) -/

/-- A team's barrier k. -/
def Team.bar (t : Team) (k : Nat) : Barrier := if h : k < 16 then t.barriers[k] else Barrier.init
def State.putBar (team k : Nat) (s : State) (b : Barrier) : State :=
  s.modTeam team fun t => { t with barriers := Vector.ofFn fun i => if i.val = k then b else t.barriers[i] }

/-- BAR (R188). -/
def execBar (n : BitVec 5) (t : BitVec 2) (k : BitVec 4) (s : State) : Out :=
  s.runWord (.bar n t k) (s.asCourse fun key str c =>
    match s.team? (key / 16) with
    | none => .wait
    | some x =>
      s.atBarrier key str (c.slot str).pc (x.bar k.toNat) (State.putBar (key / 16) k.toNat) t.toNat n.toNat
        (s.parties fun j => decide (j = key / 16)) 0 true)

/-- Team barriers tested again when a course has ended (R188). -/
def State.retestTeam (s : State) (t : Nat) : State :=
  let live := s.parties fun j => decide (j = t)
  s.modTeam t fun x => { x with barriers := x.barriers.map fun b => if b.need = 0 then s.testBar b live else b }

/-! ## Scope barriers (R314, R315, R359, R437) -/

/-- The key of a scope barrier: level, number, and its owner: the gang's head (level 0), the launch (1), package and PBG
(2-4), and the coordinator's count of parts (5 for the wall, 6 for the pod). -/
def barKey (level owner k : Nat) : Nat := (owner * 8 + k) * 8 + level
def launchKey (l : Launch) : Nat := l.die * 2 ^ 45 + l.number
def pbgKey (pkg pbg : Nat) : Nat := pkg + 16 * pbg
def State.wideBar (s : State) (key : Nat) : Barrier := SMap.getD s.wideBars Barrier.init key
def State.putWide (key : Nat) (s : State) (b : Barrier) : State := { s with wideBars := SMap.put s.wideBars key b }

/-- The coordinator of a level for a package: its wall and package. -/
def State.coordinator (s : State) (level p : Nat) : Nat × Nat :=
  if level = 3 then
    (Config.wallId.toNat, ((List.range 16).find? fun i => (s.reg p (lintBase + 0x5C)).testBit i).getD 0)
  else (bitsOf (s.reg p (lintBase + 0x54)) 9 0, bitsOf (s.reg p (lintBase + 0x54)) 13 10)

/-- Parts a coordinator waits for. -/
def State.partsNeeded (s : State) (level p : Nat) : Nat :=
  if level = 3 then popCount 16 (s.reg p (lintBase + 0x5C)) else s.reg p (lintBase + 0x58)

/-- Barrier traffic as endpoint 14 carries it: the kind (1 a part, 2 a release), the level, the barrier, its PBG and the generation
(R437; DESIGN CHOICE, log 82). -/
def partBytes (kind level k pbg gen : Nat) : List Byte := bytesOf 1 kind ++ bytesOf 1 level ++ bytesOf 1 k ++ bytesOf 2 pbg ++ bytesOf 2 gen

/-- The oldest message on endpoint 14 of a package: its source, its kind, and what it names. -/
def State.partHead (s : State) (p : Nat) : Option (Nat × Nat × Nat × Nat × Nat × Nat) :=
  (s.planeHead p 14).map fun x =>
    let f (o n : Nat) : Nat := ofBytes ((x.2.drop o).take n)
    (x.1, f 0 1, f 1 1, f 2 1 % 8, f 3 2, f 5 2)

/-- A package's barrier of level 3 or 4 stored (R437): once all its own parties have arrived, its part of the generation goes to the
coordinator, and a need that is no longer 0 says so. -/
def State.putPart (level p pbg k live : Nat) (s : State) (b : Barrier) : State :=
  let key := barKey level (pbgKey p pbg) k
  if b.need = 0 && b.full live then
    let co := s.coordinator level p
    (s.putWide key { b with need := b.arrivals }).tellPeer p (16 * co.1 + co.2) 14 (partBytes 1 level k pbg b.gen.toNat)
  else s.putWide key b

/-- The teams whose live courses are the parties of a team's scope barrier of a level. -/
def State.barTeams (s : State) (t : Team) (level : Nat) (h : Nat) : Bool :=
  match s.team? h with
  | none => false
  | some x =>
    if level = 0 then decide (x.gangHead = t.gangHead)
    else if level = 1 then decide (launchKey x.launch = launchKey t.launch)
    else decide (x.launch.cls = 0) && decide (x.launch.pbg = t.launch.pbg) && decide (pkgOfCore x.core = pkgOfCore t.core)
def barOwner (t : Team) (level : Nat) : Nat :=
  if level = 0 then t.gangHead
  else if level = 1 then launchKey t.launch
  else pbgKey (pkgOfCore t.core) t.launch.pbg

/-- BARX's checks at execution (R314, R315, R359, R437): the failing field. -/
def barxCheck (t : Team) (level count : Nat) : Option Nat :=
  if level = 0 then
    (if t.gang.length < 2 then some 5 else if 64 < bitsOf count 6 0 then some 2 else none)
  else if t.launch.cls ≠ 0 then some 5
  else if level = 1 then none
  else if t.launch.pbg = 0 then some 5
  else if level = 2 then (if bitsOf count 15 0 = 0 then some 2 else none)
  else if bitsOf count 15 0 ≠ 0 then some 2 else none

/-- The scope of a level's arrivals and waits. -/
def barScope (level : Nat) : Nat := min 4 (level + 1)

/-- BARX (R314). -/
def execBarx (a : BitVec 6) (t : BitVec 2) (l k : BitVec 3) (s : State) : Out :=
  s.runWord (.barx a t l k) (s.groupOp [(a.toNat, false)] fun sc => s.asCourse fun key str c =>
    match s.team? (key / 16) with
    | none => .wait
    | some x =>
      let v := sc.src false a.toNat
      match barxCheck x l.toNat v with
      | some fld => illegalAt 0x79 fld 3
      | none =>
        let bk := barKey l.toNat (barOwner x l.toNat) k.toNat
        let live := s.parties (s.barTeams x l.toNat)
        s.atBarrier key str (c.slot str).pc (s.wideBar bk)
          (if l.toNat < 3 then State.putWide bk else State.putPart l.toNat (pkgOfCore x.core) x.launch.pbg k.toNat live) t.toNat
          (if l.toNat = 0 then bitsOf v 6 0 else bitsOf v 15 0) live (barScope l.toNat) (decide (l.toNat < 3)))

/-- Scope barriers that count live courses tested again when a course of a team has ended (R188, R315, R359), and the parts of wall
and pod barriers (R437). -/
def State.retestWide (s : State) (t : Team) : State :=
  (if t.launch.cls = 0 ∧ t.launch.pbg ≠ 0 then [0, 1, 3, 4] else [0, 1]).foldl (fun s level =>
    (List.range 8).foldl (fun s k =>
      let key := barKey level (barOwner t level) k
      let b := s.wideBar key
      let live := s.parties (s.barTeams t level)
      if 3 ≤ level then (if decide (b.need = 0) && b.full live then State.putPart level (pkgOfCore t.core) t.launch.pbg k live s b else s)
      else if decide (b.need = 0) && b.full live then s.putWide key (b.complete s.stands) else s) s) s

/-- BARRIER_WAITER_RELEASE (R198, R315, R359): the waiters of a completed generation may issue: barrier b of team o, or
the scope barrier of key o. -/
def execBarrierWaiterRelease (wide : Bool) (o b : Nat) (s : State) : Out :=
  .next (if wide then s.putWide o { s.wideBar o with unreleased := [] }
    else match s.team? o with
    | some t => s.putBar o b { t.bar b with unreleased := [] }
    | none => s)

/-! ## Wall and pod barriers (R437) -/

/-- The teams of a package in a package-barrier group. -/
def State.pbgTeams (s : State) (p pbg h : Nat) : Bool :=
  match s.team? h with
  | some x => decide (x.launch.cls = 0) && decide (x.launch.pbg = pbg) && decide (pkgOfCore x.core = p)
  | none => false

/-- Whether a package's part of a generation has arrived: all its own parties have. -/
def State.partArrived (s : State) (level p pbg k : Nat) : Bool :=
  (s.wideBar (barKey level (pbgKey p pbg) k)).full (s.parties (s.pbgTeams p pbg))

/-- Whether a package is one of a coordinator's parts: at level 3 those of WALLMASK. -/
def State.partOf (s : State) (level p src : Nat) : Bool :=
  decide (level = 4) || (decide (level = 3) && match pkgOfPlane src with
    | some q => (s.reg p (lintBase + 0x5C)).testBit q
    | none => false)

/-- BARRIER_PART_ARRIVAL (R437): the coordinator package p takes the oldest message of its endpoint 14, a part: the first of a
generation names it, and with the last the release goes back to every part. Other messages than releases are dropped. The event names what the message does. -/
def execBarrierPartArrival (level p group bar source : Nat) (s : State) : Out :=
  .next (match s.partHead p with
    | none => s
    | some (_, 2, _) => s
    | some (src, kind, l, k, pbg, gen) =>
      if (l, pbg, k, src) ≠ (level, group, bar, source) then s
      else
      let s := s.planeTake p 14
      let key := barKey (l + 2) (pbgKey p pbg) k
      let b := s.wideBar key
      let b := if b.arrivals = 0 then { b with gen := BitVec.ofNat 16 gen } else b
      if kind ≠ 1 ∨ !s.partOf l p src ∨ s.coordinator l p ≠ (Config.wallId.toNat, p) ∨ b.gen.toNat ≠ gen then s
      else
        let b := b.arrive src (s.partsNeeded l p)
        if !b.full 0 then s.putWide key b
        else b.pending.foldl (fun s q => s.tellPeer p q 14 (partBytes 2 l k pbg gen))
          (s.putWide key { b.complete (fun _ => false) with need := 0 }))

/-- BARRIER_RELEASE_MESSAGE (R437): package p takes the oldest message of its endpoint 14, the coordinator's release of the
generation whose part it has sent, and its waiters pass. The event names what the message does. -/
def execBarrierReleaseMessage (level p group bar : Nat) (s : State) : Out :=
  .next (match s.partHead p with
    | some (src, 2, l, k, pbg, gen) =>
      if (l, pbg, k) ≠ (level, group, bar) then s
      else
      let s := s.planeTake p 14
      let key := barKey l (pbgKey p pbg) k
      let b := s.wideBar key
      let co := s.coordinator l p
      if (decide (l = 3) || decide (l = 4)) && decide (src = 16 * co.1 + co.2) && decide (b.gen.toNat = gen) && decide (b.need ≠ 0 ∧ b.arrivals ≠ 0) then
        s.putWide key { b.complete s.stands with unreleased := [] }
      else s
    | _ => s)

/-! ## Generation barriers (R194-R197) -/

/-- Guard-true lanes of the executing slot's mask. -/
def State.activeLanes (s : State) : Nat :=
  match s.self with | some (_, str, c) => (lanesOf (c.active str)).length | none => 0

/-- The checks of a barrier offset (R197): the team, the offset in it, and whether it is a window access. -/
def State.genTarget (s : State) (key o : Nat) (go : Nat → Nat → Nat → Bool → Res) : Res :=
  match s.team? (key / 16) with
  | none => .wait
  | some t =>
    if o % 16 ≠ 0 then .trap .align o 0 16
    else match s.spTarget (key / 16) t o 16 with
    | .inr n => .trap .spBound o 0 n
    | .inl (h, o', m, win) => go h o' m win

/-- GBARA (R195): after its release, one request to the barrier's bank; the slot is held until gd is written. -/
def execGbara (d a b : BitVec 6) (m : BitVec 2) (s : State) : Out :=
  s.runWord (.gbara d a b m) (s.groupOp [(a.toNat, false), (b.toNat, false)] fun sc => s.asCourse fun key str c =>
    s.genTarget key (sc.src false a.toNat) fun h o member win =>
      let arrivals := match m.toNat with | 0 => 1 | 1 => s.activeLanes | _ => 0
      s.afterRelease (boolNat win) (fun _ => !s.spOutstanding key str) fun s =>
        let n := s.fresh
        let s := s.send (.group { agent := s.cur, reg := if d.toNat < 32 then some d.toNat else none, wide := false,
                                  op := .barrier h o (sc.src false b.toNat) arrivals member, pc := (c.slot str).pc })
        .stay (s.awaitReply 0x7A n))

/-- GEN_BARRIER_UPDATE (R194, R197): request f at its bank: the update and the completion test as one event, or its refusal
(R316). -/
def execGenBarrierUpdate (f : Nat) (s : State) : Out :=
  .next (match s.flight? f with
    | some (.group x) =>
      (match x.op with
       | .barrier h o bytes arrivals member =>
         (match s.team? h with
          | none => s.groupDone f 0 (some (.spGone, o, BitVec.ofNat 32 member))
          | some t =>
            if s.refuses h then s.groupDone f 0 (some (.spGone, o, BitVec.ofNat 32 (t.core % 4)))
            else if t.spPoisoned o 16 then s.groupDone f 0 (some (.softErr, o, 0#32))
            else
              let (gen, t) := t.genUpdate o arrivals (signedOf 32 bytes)
              (s.setTeam h t).groupDone f gen none)
       | _ => s)
    | _ => s)

/-- GBARW (R196): it reads after its slot's own scratchpad accesses to the barrier. -/
def execGbarw (d a b : BitVec 6) (t : BitVec 3) (s : State) : Out :=
  s.runWord (.gbarw d a b t) (s.groupOp [(a.toNat, false), (b.toNat, false)] fun sc => s.asCourse fun key str _ =>
    let at' := sc.src false a.toNat
    let fence (s : State) (v : Nat) : Res := s.thenFence t.toNat v fun s => .done (s.gdst false d.toNat v)
    match s.metValue with
    | some v => fence s v
    | none =>
    s.genTarget key at' fun h o m win =>
      match s.team? h with
      | none => .wait
      | some x =>
        if win && s.refuses h then .trap .spGone at' 0 m
        else if s.spadOlder key str h o 16 then .wait
        else if x.spPoisoned o 4 then .trap .softErr at' 0 0
        else
          let gen := ofBytes (x.spBytes o 4)
          if 2 ^ 31 ≤ (gen + 2 ^ 33 - sc.src false b.toNat - 1) % 2 ^ 32 then .wait
          else fence (if win then s.acquireDrop 1 else s) gen)

end Sys2Proof.Machine
end

