-- ==== Sys2Proof/Machine/MatrixOps.lean ====
section
/-! DEFINITION. The arithmetic of the matrix engine (10_matrix_engine R224, R225, R231-R240; 04_number_formats R64, R65,
R76, R77): operand elements from the scratchpad and the weight slots, tiles, and their conversions. -/

namespace Sys2Proof.Machine

open Sys2Proof

/-! ## Tiles (R224) -/

def Team.tileWord (t : Team) (k i j : Nat) : Nat := (SMap.getD t.tiles 0#32 (4096 * k + 64 * i + j)).toNat

/-- A whole tile replaced: element (i, j) from a function. -/
def Team.setTile (t : Team) (k : Nat) (f : Nat → Nat → Nat) : Team :=
  let words : SMap Word := (List.range 4096).filterMap fun n =>
    let w : Word := BitVec.ofNat 32 (f (n / 64) (n % 64))
    if w = 0#32 then none else some (4096 * k + n, w)
  { t with
    tiles := (t.tiles.filter fun (kw : Nat × Word) => decide (kw.1 < 4096 * k)) ++ words ++
      (t.tiles.filter fun (kw : Nat × Word) => decide (4096 * (k + 1) ≤ kw.1))
    tilePoison := t.tilePoison.filter fun x => decide (x ≠ k) }

/-- A tile of rows of words, F64 elements as a pair of tiles (R224). -/
def Team.setTileRows (t : Team) (k : Nat) (wide : Bool) (rows : List (List Nat)) : Team :=
  let at' (i j : Nat) : Nat := ((rows[i]?).getD [])[j]?.getD 0
  let t := t.setTile k fun i j => at' i j % 2 ^ 32
  if wide then t.setTile (k + 1) fun i j => at' i j / 2 ^ 32 else t

/-- An element of a tile or of an F64 pair. -/
def Team.tileElem (t : Team) (k : Nat) (wide : Bool) (i j : Nat) : Nat :=
  t.tileWord k i j + if wide then 2 ^ 32 * t.tileWord (k + 1) i j else 0

def Team.hasTile (t : Team) (k : Nat) (wide : Bool) : Bool := decide (k + boolNat wide < t.acc)
def Team.tilePoisoned (t : Team) (k : Nat) (wide : Bool) : Bool :=
  t.tilePoison.contains k || (wide && t.tilePoison.contains (k + 1))

/-! ## Formats of MMA (R231) -/

/-- K, the A element width in bits, and bB of a format. -/
def mmaShape (f : Nat) : Nat × Nat × Nat :=
  match f with
  | 0 => (4, 64, 2048) | 1 => (16, 32, 4096) | 2 => (64, 16, 8192) | 3 => (64, 16, 8192) | 4 => (128, 8, 8192)
  | 5 => (128, 8, 8192) | 6 => (128, 8, 8192) | 7 => (128, 8, 8192) | 8 => (256, 4, 8192) | 9 => (256, 4, 8192)
  | 10 => (64, 16, 1024) | 11 => (128, 8, 2048) | 12 => (64, 16, 2048) | _ => (128, 8, 4096)

/-- The value of an A element's bits, before its scale. -/
def mmaA (f x : Nat) : FVal :=
  match f with
  | 0 => Fmt.f64.decode x
  | 1 => Fmt.f32.decode x
  | 2 | 10 | 12 => Fmt.bf16.decode x
  | 3 => Fmt.h16.decode x
  | 5 => Fmt.e5m2.decode x
  | 7 => FVal.ofInt (signedOf 8 x)
  | 8 => Fmt.fp4.decode x
  | 9 => FVal.ofInt (signedOf 4 x)
  | _ => Fmt.e4m3.decode x

/-- Kinds of slot a format accepts (R233). -/
def mmaKind (f : Nat) (k : WKind) : Bool :=
  match f with
  | 0 | 1 => decide (k = .plain)
  | 2 | 3 => decide (k = .plain) || decide (k = .sparse16)
  | 4 | 5 | 6 | 7 => decide (k = .plain) || decide (k = .sparse8)
  | 8 | 9 | 12 | 13 => decide (k = .block4)
  | _ => decide (k = .vq2)

/-! ## The A operand (R231, R232) -/

/-- The 16-byte unit a chunk starts at is one the format allows, and the chunk lies in the scratchpad. -/
def aOffsetOk (f o sp : Nat) : Bool :=
  let su := bitsOf o 6 4
  !o.testBit 31 && decide (o % 16 = 0) &&
    (decide (su = 0) || (decide (f = 1) && decide (su = 4)) || (decide (f = 0) && decide (su % 2 = 0))) &&
    decide (o - o % 128 + 8192 ≤ sp)

/-- Loc(r, b) of R231. -/
def aLoc (o r b : Nat) : Nat :=
  o - o % 128 + 128 * r + (((bitsOf o 6 4 + b / 16) ^^^ (r % 8)) % 8) * 16 + b % 16

/-- The scale control of formats 8 and 9 (R232). -/
def scaleOk (v sp : Nat) : Bool :=
  let cs := bitsOf v 23 20
  let a := bitsOf v 19 0
  decide (bitsOf v 31 24 = 0) && decide (cs ≠ 0) && decide (a % 32 = 0) && decide (a + 32 * cs * 63 + 32 ≤ sp)

/-- The bits of A[i][k]. -/
def Team.aBits (t : Team) (f o : Nat) (ta : Bool) (i k : Nat) : Nat :=
  let w := (mmaShape f).2.1
  if ta then ofBytes (t.spBytes (aLoc o k (2 * i)) 2)
  else if w = 4 then bitsOf (t.spByte (aLoc o i (k / 2))).toNat (4 * (k % 2) + 3) (4 * (k % 2))
  else ofBytes (t.spBytes (aLoc o i (k * w / 8)) (w / 8))

/-- A[i][k] as an exact value. -/
def Team.aVal (t : Team) (f o scale : Nat) (ta : Bool) (i k : Nat) : FVal :=
  let x := mmaA f (t.aBits f o ta i k)
  if f = 8 ∨ f = 9 then
    (exactMul x (se8 (t.spByte (bitsOf scale 19 0 + 32 * bitsOf scale 23 20 * i + k / 8)).toNat)).val
  else x

/-- Whether a byte of A or of its scales is poisoned. -/
def Team.aPoisoned (t : Team) (f o scale : Nat) (ta : Bool) : Bool :=
  let (kk, w, _) := mmaShape f
  let rows := if ta then kk else 64
  let bytes := if ta then 128 else kk * w / 8
  ((List.range rows).any fun r => (List.range ((bytes + 15) / 16)).any fun u => t.spPoisoned (aLoc o r (16 * u)) 16) ||
  ((decide (f = 8) || decide (f = 9)) && (List.range 64).any fun i =>
    t.spPoisoned (bitsOf scale 19 0 + 32 * bitsOf scale 23 20 * i) 32)

/-! ## The B operand (R233) -/

/-- The line a sparse group starts at. -/
def WSlot.groupLine (x : WSlot) (per : Nat) (g : Nat) : Nat :=
  (List.range g).foldl (fun n i => n + if x.plainGroups.contains i then per else 1) 0

/-- A byte of a line. -/
def WSlot.byte (x : WSlot) (line o : Nat) : Nat := ((((x.lines[line]?).getD [])[o]?).getD 0#8).toNat
def WSlot.nat (x : WSlot) (line o n : Nat) : Nat :=
  (List.range n).foldl (fun a i => a + 2 ^ (8 * i) * x.byte line (o + i)) 0

/-- Element e of a sparse slot of w-byte elements: its bits and line. -/
def WSlot.sparseElem (x : WSlot) (w e : Nat) : Nat × Nat :=
  let g := e / 128
  let p := e % 128
  let line := x.groupLine w g
  if x.plainGroups.contains g then
    let b := p * w
    (x.nat (line + b / 128) (b % 128) w, line + b / 128)
  else
    let map := x.nat line 0 16
    if map.testBit p then (x.nat line (16 + w * popCount p map) w, line) else (0, line)

/-- Element e of the logical stream for a format: its exact value and the line it stands in. -/
def WSlot.elem (x : WSlot) (f e : Nat) : FVal × Nat :=
  match x.kind with
  | .plain =>
    let w := (mmaShape f).2.1 / 8
    let b := e * w
    let v := x.nat (b / 128) (b % 128) w
    (if f = 6 then Fmt.e5m2.decode v else mmaA f v, b / 128)
  | .sparse8 =>
    let (v, l) := x.sparseElem 1 e
    (if f = 6 then Fmt.e5m2.decode v else mmaA f v, l)
  | .sparse16 =>
    let (v, l) := x.sparseElem 2 e
    (mmaA f v, l)
  | .block4 =>
    let n := e / 192
    let r := e % 192
    let v := bitsOf (x.byte n (24 + r / 2)) (4 * (r % 2) + 3) (4 * (r % 2))
    ((exactMul (if f = 9 then FVal.ofInt (signedOf 4 v) else Fmt.fp4.decode v) (se8 (x.byte n (r / 8)))).val, n)
  | .vq2 =>
    let t := e / 8
    let n := t / 40
    (((vq2 (x.nat n (40 + 2 * (t % 40)) 2) (x.byte n (t % 40)))[e % 8]?).getD .nan, n)

/-- Elements per byte of the logical stream, as bits of an element: the stream's cursor in elements. -/
def bWidth (f : Nat) : Nat :=
  match f with
  | 0 => 64 | 1 => 32 | 2 | 3 => 16 | 4 | 5 | 6 | 7 => 8 | 8 | 9 | 12 | 13 => 4 | _ => 2

/-! ## The product (R76, R77, R234) -/

/-- A list of values cut into runs of eight along K. -/
def runsOf8 : Nat → List FVal → List (List FVal)
  | 0, _ => []
  | n + 1, xs => xs.take 8 :: runsOf8 n (xs.drop 8)

/-- The exact integer of a value (formats whose elements are integers). -/
def FVal.toInt : FVal → Int
  | .fin n m e => let v : Int := (m : Int) * (2 ^ e.toNat : Nat); if n then -v else v
  | _ => 0

/-- One element of the product: row of A, column of B, accumulator bits. -/
def mmaElem (f : Nat) (a b : List FVal) (acc : Nat) : Nat :=
  if f = 0 then
    (a.zip b).foldl (fun acc p => (fMulAdd .f64 .rne false p.1 p.2 (Fmt.f64.decode acc)).bits) acc
  else
    let prods := (a.zip b).map fun p => mmaProduct p.1 p.2
    if f = 7 then wrapTo 32 (prods.foldl (fun (s : Int) p => s + p.toInt) (acc : Int))
    else (runsOf8 ((mmaShape f).1 / 8) prods).foldl mmaChunkF32 acc

/-- The accumulator MMA starts from without ACC (R234). -/
def mmaStart (f : Nat) : Nat := if f = 0 then 2 ^ 63 else if f = 7 then 0 else 2 ^ 31

/-- Every element of the product of an A operand and the B stream at a slot's cursor. -/
def mmaTile (t : Team) (x : WSlot) (f o scale : Nat) (ta acc : Bool) (tile : Nat) : List (List Nat) :=
  let kk := (mmaShape f).1
  let base := x.cursor * 8 / bWidth f
  let cols := (List.range 64).map fun j => (List.range kk).map fun k => (x.elem f (base + j * kk + k)).1
  (List.range 64).map fun i =>
    let row := (List.range kk).map fun k => t.aVal f o scale ta i k
    cols.zipIdx.map fun cj => mmaElem f row cj.1 (if acc then t.tileElem tile (decide (f = 0)) i cj.2 else mmaStart f)

/-- Whether a weight line the product reads is poisoned (R234). -/
def WSlot.reads (x : WSlot) (f : Nat) : Bool :=
  let base := x.cursor * 8 / bWidth f
  !x.poison.isEmpty && (List.range (64 * (mmaShape f).1)).any fun e => x.poison.contains (x.elem f (base + e)).2

/-! ## Layout and conversion of MOUT and MLOAD (R236-R239) -/

/-- Where byte b of row i lands, for elements of w bytes (R238). -/
def outLoc (o w i b : Nat) : Nat :=
  if 64 * w < 128 then o + 64 * i + b else o + i * 64 * w + ((b / 16) ^^^ (i % 8)) * 16 + b % 16

/-- Output bytes per element of a MOUT format. -/
def outWidth (f : Nat) : Nat := match f with | 0 => 4 | 1 => 2 | 2 => 2 | 3 => 1 | 4 => 1 | 5 => 8 | 6 => 1 | _ => 4

/-- The exact value times a power of two. -/
def FVal.scale (n : Int) : FVal → FVal
  | .fin s m e => .fin s m (e + n)
  | x => x

/-- One element of MOUT (R238, R239): ctl is the control word, `sr` the readout state of the row, j the column. -/
def outConv (f rm ctl sr j x : Nat) : Nat :=
  let m := RMode.ofCodeSr rm (srWord sr j)
  let sat := ctl.testBit 8
  let go (dst src : Fmt) : Nat := (convertTo dst m false sat ((src.decode x).scale (signedOf 8 ctl))).bits
  match f with
  | 0 => go .f32 .f32
  | 1 => go .bf16 .f32
  | 2 => go .h16 .f32
  | 3 => go .e4m3 .f32
  | 4 => go .e5m2 .f32
  | 5 => go .f64 .f64
  | 6 => fitInt sat true 8 (signedOf 32 x)
  | _ => x

/-- A tile converted out, row by row. -/
def Team.outRow (t : Team) (f rm ctl tile o sr : Nat) (u : Team) (i : Nat) : Team :=
  let w := outWidth f
  (List.range 64).foldl (fun u j =>
    (bytesOf w (outConv f rm ctl sr j (t.tileElem tile (decide (f = 5)) i j))).zipIdx.foldl (fun (u : Team) bx =>
      u.spWrite (outLoc o w i (j * w + bx.2)) [bx.1]) u) u
def Team.moutTile (t : Team) (f rm ctl tile o : Nat) : Team :=
  let r := (List.range 64).foldl (fun (a : Team × Nat) i =>
    let sr := if rm = 5 then srStep a.2 else a.2
    (t.outRow f rm ctl tile o sr a.1 i, sr)) (t, t.srSeedM.toNat)
  { r.1 with srSeedM := BitVec.ofNat 32 r.2 }

/-- Row i of a tile as MLOAD reads it (R236): a BF16 is widened exactly, and a NaN it produces is canonical (R62). -/
def Team.inRow (t : Team) (f o i : Nat) : List Nat :=
  let w := if f = 0 then 4 else if f = 1 then 2 else 8
  (List.range 64).map fun j =>
    let x := ofBytes ((List.range w).map fun b => t.spByte (outLoc o w i (j * w + b)))
    if f = 1 then (convertTo .f32 .rne false false (Fmt.bf16.decode x)).bits else x

/-- The maximum of |element| over a tile (R240). -/
def Team.tileMax (t : Team) (tile : Nat) : Nat :=
  (List.range 4096).foldl (fun a n => fMinMax .f32 false true a (t.tileWord tile (n / 64) (n % 64) % 2 ^ 31)) Fmt.f32.nan

end Sys2Proof.Machine
end

