-- ==== Sys2Proof/Machine/Matrix.lean ====
section
/-! DEFINITION. The matrix sequencer (10_matrix_engine R223-R252): MGO and MWAIT of courses, stream words, and the
completion of words that take time. A word issues and holds the stream until it is performed (log 19). -/

namespace Sys2Proof.Machine

open Sys2Proof

/-- Giving a rule the team whose stream executes; a held word waits. -/
def State.asStream (s : State) (f : Nat → Team → Res) : Res :=
  match s.cur with
  | .seq t =>
    (match s.team? t with
     | some x => if x.seq.pending.isSome then .wait else f t x
     | none => .wait)
  | _ => .wait

/-- m registers of a sequencer (R223). -/
def Seq.reg (q : Seq) (k : Nat) : Nat := if h : k < 16 then q.m[k].toNat else 0
def Seq.setReg (q : Seq) (k v : Nat) : Seq :=
  { q with m := Vector.ofFn fun i => if i.val = k then BitVec.ofNat 32 v else q.m[i] }

/-- A stop of the executing stream with a reason of R249; `addr` replaces WHERE and DETAIL for reasons 5 and 7. -/
def State.streamFault (s : State) (t : Nat) (x : Team) (op cause reason : Nat) (addr : Option Nat) : Res :=
  .stay (s.stopStream t op cause reason (BitVec.ofNat 64 (addr.getD x.seq.pc.toNat)))

/-! ## Courses (R226, R227) -/

/-- The sequencer started (R226). -/
def Seq.start (q : Seq) (entry arg : Word) : Seq :=
  { q with pc := entry, m := Vector.ofFn fun i => if i.val = 0 then arg else 0#32, closed := 0#32, retired := 0#32,
           faultValid := false, faultInfo := 0#32, faultAddr := 0#64, abandoned := false, run := .running,
           openBatch := false, pending := none, token := none, holdBatch := none }

/-- MGO (R226). -/
def execMgo (d a : BitVec 6) (s : State) : Out :=
  s.runWord (.mgo d a) (s.groupOp [(d.toNat, false), (a.toNat, false)] fun sc => s.asCourse fun key _ c =>
    match s.team? (key / 16) with
    | none => .wait
    | some t =>
      let entry := sc.src false a.toNat
      if entry % 4 ≠ 0 then .trap .align entry 0 4
      else if t.seq.run = .running then .wait
      else .done (s.setTeam (key / 16) { t with
        seq := t.seq.start (BitVec.ofNat 32 entry) (BitVec.ofNat 32 (sc.src false d.toNat)), mgoCid := c.cid }))

/-- Whether batch n has retired, or closed, at count x: (x - n) mod 2^32 < 2^31. -/
def reached (x : Word) (n : Nat) : Bool := decide ((x.toNat + 2 ^ 32 - n) % 2 ^ 32 < 2 ^ 31)

/-- MWAIT (R227): once the batch has retired only the then-fence is left (R165). A slot that waits is marked so. -/
def execMwait (d a : BitVec 6) (t : BitVec 3) (s : State) : Out :=
  s.runWord (.mwait d a t) (s.groupOp [(a.toNat, false)] fun sc => s.asCourse fun key str c =>
    match s.team? (key / 16) with
    | none => .wait
    | some x =>
      let n := sc.src false a.toNat
      let q := x.seq
      let fence (v : Nat) : Res := s.thenFence t.toNat v fun s => .done (s.gdst false d.toNat v)
      match s.metValue with
      | some v => fence v
      | none =>
      if q.faultValid then .trap .mxFault q.faultAddr.toNat 0 q.faultInfo.toNat
      else if q.abandoned && !reached q.retired n then .trap .mxFault 0 0 8
      else if reached q.retired n then fence q.retired.toNat
      else if q.run = .idle ∧ !reached q.closed n then .trap .mxFault 0 0 9
      else if (c.slot str).hold = .batch then .wait
      else .stay (s.setCourse key (c.setSlot str { c.slot str with hold := .batch })))

/-! ## The array (R229, R305) -/

/-- Steps of 4 cycles that the array word of a stream needs sectors for: its sector count. -/
def MPending.sectors : MPending → Option Nat
  | .mma _ => some 4
  | .fill w => some (bitsOf (fldImm12 w) 7 6 + 1)
  | _ => none

/-- Teams of a core whose sequencers want the array, in team order. -/
def State.arrayWants (s : State) (core : Nat) : List Nat :=
  (List.filter (fun (kt : Nat × Team) => match kt.2.seq.pending with
    | some p => p.sectors.isSome
    | none => false) (s.teamsOn core)).map fun kt => kt.1

/-- A free array goes to the next waiting sequencer after the last holder (R229). -/
def State.grantArray (s : State) (core : Nat) : State :=
  let c := s.core core
  match c.arrayHolder with
  | some _ => s
  | none =>
    let ws := s.arrayWants core
    match ((ws.find? fun t => decide (c.arrayLast < t)).orElse fun _ => ws.head?) with
    | some t => s.setCore core { c with arrayHolder := some t, arrayLast := t }
    | none => s

/-- A word that waits for the array, or moves data, is held as pending. -/
def State.hold (s : State) (t : Nat) (x : Team) (p : MPending) : State :=
  s.setTeam t { x with seq := { x.seq with pending := some p } }

/-- A pending word is performed: the stream goes on. -/
def State.performed (s : State) (t op : Nat) : State :=
  let s := s.modTeam t fun x =>
    { x with seq := { x.seq with pending := none, openBatch := true, pc := x.seq.pc + 4#32, moves := x.seq.moves + 1 } }
  match s.team? t with
  | some x =>
    let d := dieOfCore x.core
    if op = 0xC0 ∨ op = 0xCC then
      (s.modCore x.core fun c => { c with arrayHolder := if c.arrayHolder = some t then none else c.arrayHolder }).grantArray x.core
    else s.addCharge (quadOfCore x.core) (s.weight (d / 8) (d % 8) (quadOfCore x.core % 24) 13)
  | none => s

/-! ## MMA, MZERO, MFILL (R231-R235, R244) -/

/-- A weight slot of a team. -/
def Team.slot (t : Team) (k : Nat) : WSlot := if h : k < 8 then t.slots[k] else WSlot.empty
def Team.setSlot (t : Team) (k : Nat) (w : WSlot) : Team :=
  { t with slots := Vector.ofFn fun i => if i.val = k then w else t.slots[i] }

/-- The reason an MMA stops with at issue (R231-R234, R249): none when it may go on; `hold` an empty slot. -/
inductive MmaCheck where
  | ok | hold | bad (reason : Nat)
  deriving DecidableEq, Repr

def Team.mmaCheck (t : Team) (w : Word) : MmaCheck :=
  let f := fldC w % 16
  let k := fldB w - 32
  let o := t.seq.reg (fldA w)
  let x := t.slot k
  if !t.hasTile (fldD w - 16) (decide (f = 0)) then .bad 2
  else if !aOffsetOk f o t.spSize then .bad 3
  else if (f = 8 ∨ f = 9) ∧ !scaleOk (t.seq.reg (fldA w + 1)) t.spSize then .bad 3
  else if t.ws ≤ k then .bad 4
  else if !x.full then .hold
  else if !mmaKind f x.kind || decide (x.length < x.cursor + (mmaShape f).2.2) then .bad 4
  else .ok

/-- MMA (R231): its checks, then it waits for the array and the sectors. -/
def execMma (d a b : BitVec 6) (t u : BitVec 1) (f : BitVec 4) (s : State) : Out :=
  s.runWord (.mma d a b t u f)
    (match s.cur with
     | .seq k =>
       (match s.team? k, encode (.mma d a b t u f) with
        | some x, some w =>
          if x.seq.pending.isSome then
            (if (s.core x.core).arrayHolder.isNone then .stay (s.grantArray x.core) else .wait)
          else match x.mmaCheck w with
          | .bad r => s.streamFault k x 0xC0 0 r none
          | .hold => .wait
          | .ok => .stay ((s.hold k x (.mma w)).grantArray x.core)
        | _, _ => .wait)
     | _ => .wait)

/-- MFILL (R244). -/
def execMfill (c : BitVec 2) (n : BitVec 6) (s : State) : Out :=
  s.runWord (.mfill c n)
    (match s.cur with
     | .seq k =>
       (match s.team? k, encode (.mfill c n) with
        | some x, some w =>
          if x.seq.pending.isSome then
            (if (s.core x.core).arrayHolder.isNone then .stay (s.grantArray x.core) else .wait)
          else .stay ((s.hold k x (.fill w)).grantArray x.core)
        | _, _ => .wait)
     | _ => .wait)

/-- Whether the array word of a team may run to its end: it holds the array and its sectors are enabled (R305). -/
def State.arrayReady (s : State) (t : Nat) (x : Team) (p : MPending) : Bool :=
  match p.sectors with
  | none => false
  | some n =>
    decide ((s.core x.core).arrayHolder = some t) &&
      (let q := s.quad (quadOfCore x.core)
       let i := x.core % 4
       if h : i < 4 then decide (n ≤ q.sectors[i]) else false)

/-- The effect of an MMA on its team (R233, R234), or the stop by poison. -/
def Team.mmaEffect (t : Team) (w : Word) : Option Team :=
  let f := fldC w % 16
  let tile := fldD w - 16
  let k := fldB w - 32
  let o := t.seq.reg (fldA w)
  let scale := t.seq.reg (fldA w + 1)
  let ta := (fldC w).testBit 5
  let acc := (fldC w).testBit 4
  let x := t.slot k
  if t.aPoisoned f o scale ta || x.reads f || (acc && t.tilePoisoned tile (decide (f = 0))) then none
  else
    let next := x.cursor + (mmaShape f).2.2
    some ((t.setTileRows tile (decide (f = 0)) (mmaTile t x f o scale ta acc tile)).setSlot k
      { x with cursor := if next = x.length then 0 else next })

/-- MMA_COMPLETE (R231): the array's MMA of team t finishes; a poisoned operand stops the stream with reason 6. -/
def execMmaComplete (t : Nat) (s : State) : Out :=
  .next (match s.team? t with
    | some x =>
      (match x.seq.pending with
       | some (.mma w) =>
         if !s.arrayReady t x (.mma w) then s
         else match x.mmaEffect w with
         | some x' => (s.setTeam t x').performed t 0xC0
         | none =>
           let s := s.modCore x.core fun c => { c with arrayHolder := none }
           (s.stopStream t 0xC0 Cause.softErr.code 6 (BitVec.ofNat 64 x.seq.pc.toNat)).grantArray x.core
       | _ => s)
    | none => s)

/-- MFILL_COMPLETE (R244). -/
def execMfillComplete (t : Nat) (s : State) : Out :=
  .next (match s.team? t with
    | some x =>
      (match x.seq.pending with
       | some (.fill w) => if !s.arrayReady t x (.fill w) then s else s.performed t 0xCC
       | _ => s)
    | none => s)

/-- MZERO (R235). -/
def execMzero (d : BitVec 6) (s : State) : Out :=
  s.runWord (.mzero d) (s.asStream fun t x =>
    if d.toNat < 32 then
      (if !x.hasTile (d.toNat - 16) false then s.streamFault t x 0xC1 0 2 none
       else .done (s.setTeam t (x.setTile (d.toNat - 16) fun _ _ => 0)))
    else if x.ws ≤ d.toNat - 32 then s.streamFault t x 0xC1 0 4 none
    else .done (s.setTeam t (x.setSlot (d.toNat - 32) WSlot.empty)))

/-! ## MOUT, MLOAD, MSCL (R236-R239) -/

/-- A scratchpad range of a stream: own, a multiple of 128, inside (R236, R238). -/
def streamRange (t : Team) (o n : Nat) : Bool := !o.testBit 31 && decide (o % 128 = 0) && decide (o + n ≤ t.spSize)

/-- An m register or zero. -/
def Seq.regOrZero (q : Seq) (c : Nat) : Nat := if c < 16 then q.reg c else 0

/-- MOUT (R238): checks, then its rows are written later. -/
def execMout (d a b : BitVec 6) (r f : BitVec 3) (s : State) : Out :=
  s.runWord (.mout d a b r f) (s.asStream fun t x =>
    if !x.hasTile (a.toNat - 16) (f == 5#3) then s.streamFault t x 0xC2 0 2 none
    else if !streamRange x (x.seq.reg b.toNat) (4096 * outWidth f.toNat) ||
        decide (2 ^ 9 ≤ x.seq.regOrZero d.toNat) then s.streamFault t x 0xC2 0 3 none
    else if x.tilePoisoned (a.toNat - 16) (f == 5#3) then s.streamFault t x 0xC2 Cause.softErr.code 6 none
    else match encode (.mout d a b r f) with
    | some w => .stay (s.hold t x (.move w))
    | none => .wait)

/-- Bytes of an element of MLOAD. -/
def loadWidth (f : Nat) : Nat := if f = 0 then 4 else if f = 1 then 2 else 8

/-- MLOAD (R236). -/
def execMload (d a : BitVec 6) (f : BitVec 3) (s : State) : Out :=
  s.runWord (.mload d a f) (s.asStream fun t x =>
    if !x.hasTile (d.toNat - 16) (f == 5#3) then s.streamFault t x 0xC3 0 2 none
    else if !streamRange x (x.seq.reg a.toNat) (4096 * loadWidth f.toNat) then s.streamFault t x 0xC3 0 3 none
    else match encode (.mload d a f) with
    | some w => .stay (s.hold t x (.move w))
    | none => .wait)

/-- MSCL (R237). -/
def execMscl (d a b : BitVec 6) (f : BitVec 1) (s : State) : Out :=
  s.runWord (.mscl d a b f) (s.asStream fun t x =>
    if !x.hasTile (d.toNat - 16) (f == 1#1) || !x.hasTile (a.toNat - 16) (f == 1#1) then s.streamFault t x 0xCD 0 2 none
    else if x.tilePoisoned (a.toNat - 16) (f == 1#1) then s.streamFault t x 0xCD Cause.softErr.code 6 none
    else match encode (.mscl d a b f) with
    | some w => .stay (s.hold t x (.move w))
    | none => .wait)

/-- The effect of MOUT, MLOAD or MSCL (R236-R239), or the stop by poison. -/
def Team.moveEffect (t : Team) (w : Word) : Option Team :=
  match opOf w with
  | 0xC2 =>
    some (t.moutTile (fldC w % 8) (fldC w / 8) (t.seq.regOrZero (fldD w)) (fldA w - 16) (t.seq.reg (fldB w)))
  | 0xC3 =>
    let f := fldC w % 8
    let o := t.seq.reg (fldA w)
    let n := loadWidth f
    if (List.range (4096 * n / 128)).any fun i => t.spPoisoned (o + 128 * i) 128 then none
    else some (t.setTileRows (fldD w - 16) (decide (f = 5)) ((List.range 64).map fun i => t.inRow f o i))
  | _ =>
    let wide := (fldC w).testBit 0
    let fmt := if wide then Fmt.f64 else Fmt.f32
    let k := t.seq.regOrZero (fldB w) + if wide then 2 ^ 32 * (if fldB w < 16 then t.seq.reg (fldB w + 1) else 0) else 0
    some (t.setTileRows (fldD w - 16) wide ((List.range 64).map fun i => (List.range 64).map fun j =>
      (fMul fmt .rne false (fmt.decode (t.tileElem (fldA w - 16) wide i j)) (fmt.decode k)).bits))

/-- MOUT_MLOAD_PERFORMED (R248). -/
def execMoutMloadPerformed (t : Nat) (s : State) : Out :=
  .next (match s.team? t with
    | some x =>
      (match x.seq.pending with
       | some (.move w) =>
         match x.moveEffect w with
         | some x' => (s.setTeam t x').performed t (opOf w)
         | none => s.stopStream t (opOf w) Cause.softErr.code 6 (BitVec.ofNat 64 x.seq.pc.toNat)
       | _ => s)
    | none => s)

/-! ## MAMAX (R240) -/

/-- A recoverable miss of a stream: one record, and the word is held (R251). -/
def State.streamMiss (s : State) (t : Nat) (x : Team) (va : Nat) (k : AccKind) : State :=
  let (tok, s) := s.newToken (dieOfCore x.core)
  (s.setTeam t { x with seq := { x.seq with token := some tok } }).postFault (dieOfCore x.core)
    (teamRec x 3 0 2 k.code va tok 0)

/-- MAMAX (R240): the atomic of the tile's maximum goes to its home. -/
def execMamax (a b : BitVec 6) (s : State) : Out :=
  s.runWord (.mamax a b) (s.asStream fun t x =>
    let va := x.seq.reg a.toNat + 2 ^ 32 * x.seq.reg (a.toNat + 1)
    if x.seq.token.isSome then .wait
    else if !x.hasTile (b.toNat - 16) false then s.streamFault t x 0xC4 0 2 none
    else if va % 4 ≠ 0 then s.streamFault t x 0xC4 Cause.align.code 5 (some va)
    else match s.translate x.xlat va .atomic true with
    | .bad c ti => (s.logSecure x.xlat c va ti).streamFault t x 0xC4 c.code 5 (some va)
    | .miss => .stay (s.streamMiss t x va .atomic)
    | .ok pa leaf =>
      if versionBans x pa then s.streamFault t x 0xC4 Cause.versionBan.code 5 (some va)
      else if x.tilePoisoned (b.toNat - 16) false then s.streamFault t x 0xC4 Cause.softErr.code 6 none
      else match encode (.mamax a b) with
      | none => .wait
      | some w =>
        .stay (((s.noteTlb x.xlat va).hold t x (.amax w pa)).send (.atom
          { owner := .seq t, mask := 0#32, mark := none, half := none, copy := none, engine := none, pc := x.seq.pc, op := 2, et := .f32, ftz := false, size := 4, pa := pa, va := va,
            order := .relaxed, scope := 4, stamp := 0, counter := none, version := x.versionOf t,
            snap := snapMark leaf, keyId := leafKey leaf, step := s.stepOf x.core, sent := false,
            lanes := [{ lane := 0, reg := none, x := x.tileMax (b.toNat - 16), cmp := 0 }] })))

/-! ## Stream control (R241-R246) -/

/-- A word that writes an m register. -/
def State.mset (s : State) (k v : Nat) : Res :=
  s.asStream fun t x => .done (s.setTeam t { x with seq := x.seq.setReg k v })

/-- MLI (R241). -/
def execMli (d : BitVec 6) (v : BitVec 17) (s : State) : Out :=
  s.runWord (.mli d v) (s.mset d.toNat (wrapTo 32 v.toInt))

/-- MLI.H (R241). -/
def execMliH (d : BitVec 6) (v : BitVec 15) (s : State) : Out :=
  s.runWord (.mliH d v) (s.asStream fun t x =>
    .done (s.setTeam t { x with seq := x.seq.setReg d.toNat (v.toNat * 2 ^ 17 + bitsOf (x.seq.reg d.toNat) 16 0) }))

/-- MADD (R241). -/
def execMadd (d a : BitVec 6) (i : BitVec 12) (s : State) : Out :=
  s.runWord (.madd d a i) (s.asStream fun t x =>
    .done (s.setTeam t { x with seq := x.seq.setReg d.toNat (wrapTo 32 ((x.seq.reg a.toNat : Int) + i.toInt)) }))

/-- MLOOP (R242). -/
def execMloop (k : BitVec 4) (o : BitVec 20) (s : State) : Out :=
  s.runWord (.mloop k o) (s.asStream fun t x =>
    let v := (x.seq.reg k.toNat + (2 ^ 32 - 1)) % 2 ^ 32
    (s.setTeam t { x with seq := x.seq.setReg k.toNat v }).branch (decide (v ≠ 0)) o)

/-- MJMP (R242). -/
def execMjmp (o : BitVec 20) (s : State) : Out := s.runWord (.mjmp o) (s.asStream fun _ _ => s.branch true o)

/-- Closing the open batch (R245). -/
def Seq.close (q : Seq) : Seq := { q with closed := q.closed + 1#32, openBatch := false }

/-- MFENCE (R245): closes a batch; .W holds the stream until it retires. -/
def execMfence (w : BitVec 1) (s : State) : Out :=
  s.runWord (.mfence w) (s.asStream fun t x =>
    match x.seq.holdBatch with
    | some n => if reached x.seq.retired n.toNat then .done (s.setTeam t { x with seq := { x.seq with holdBatch := none } }) else .wait
    | none =>
      let q := x.seq.close
      if w = 1#1 then .stay (s.setTeam t { x with seq := { q with holdBatch := some q.closed } })
      else .done (s.setTeam t { x with seq := q }))

/-- BATCH_RETIRE (R245): the next closed batch of team t retires. -/
def execBatchRetire (t : Nat) (s : State) : Out :=
  .next (s.modTeam t fun x =>
    if x.seq.retired = x.seq.closed ∨ x.seq.abandoned then x
    else { x with seq := { x.seq with retired := x.seq.retired + 1#32 } })

/-- MEND (R243): closes an open batch and sets the sequencer idle. -/
def execMend (s : State) : Out :=
  s.runWord .mend (s.asStream fun t x =>
    let q := if x.seq.openBatch then x.seq.close else x.seq
    .done (s.setTeam t { x with seq := { q with run := .idle } }))

/-- MBAR (R246): the sequencer as one further party of a team barrier. -/
def execMbar (n : BitVec 5) (t : BitVec 2) (k : BitVec 4) (s : State) : Out :=
  s.runWord (.mbar n t k) (s.asStream fun h x =>
    s.atBarrier (seqParty h) false x.seq.pc (x.bar k.toNat) (State.putBar h k.toNat) t.toNat n.toNat
      (s.parties fun j => decide (j = h)) 0 true)

end Sys2Proof.Machine
end

