-- ==== Sys2Proof/Machine/Sync.lean ====
section
/-! DEFINITION. Mailboxes (08_core R191-R193), CARVE (R175-R177), and the ends of courses and programs: EXIT and
EXIT.SAVED (06_course_control R121, R122; 11_ordering R268; 17_die_launch R348). -/

namespace Sys2Proof.Machine

open Sys2Proof

/-! ## Mailboxes -/

/-- A mailbox of a team. -/
def Team.box (t : Team) (k : Nat) : Mailbox := if h : k < 16 then t.mail[k] else { full := false, value := 0#32 }
def Team.setBox (t : Team) (k : Nat) (b : Mailbox) : Team :=
  { t with mail := Vector.ofFn fun i => if i.val = k then b else t.mail[i] }

/-- Writing mailbox k of a team; a full one holds the word. -/
def State.mbw (s : State) (h k v : Nat) : Res :=
  match s.team? h with
  | none => .wait
  | some t =>
    if (t.box k).full then .wait else .done (s.setTeam h (t.setBox k { full := true, value := BitVec.ofNat 32 v }))

/-- The release of MBW waits for the slot's scratchpad counter too (R179, R193). -/
def State.mbwRelease (s : State) (key : Nat) (str : Bool) (k v : Nat) : Res :=
  match s.team? (key / 16) with
  | none => .wait
  | some t =>
    if (t.box k).full then .wait
    else s.afterRelease 0 (fun _ => !s.spOutstanding key str) fun s => s.mbw (key / 16) k v

/-- MBW, vector form and stream form (R192). -/
def execMbwVector (d : BitVec 6) (k : BitVec 4) (s : State) : Out :=
  s.runWord (.mbwVector d k)
    (match s.cur with
     | .seq _ => s.asStream fun t x => s.mbw t k.toNat (x.seq.reg d.toNat)
     | _ => s.asCourse fun key str c =>
       let act := c.active str
       match lanesOf act with
       | [] => .done s
       | l :: _ =>
         match c.checks act [⟨d.toNat, .n32, 15⟩] none with
         | some r => r
         | none => s.mbwRelease key str k.toNat (c.src .n32 d.toNat l))

/-- MBW, group form (R192). -/
def execMbwGroup (d : BitVec 6) (k : BitVec 4) (s : State) : Out :=
  s.runWord (.mbwGroup d k) (s.groupOp [(d.toNat, false)] fun sc =>
    s.asCourse fun key str _ => s.mbwRelease key str k.toNat (sc.src false d.toNat))

/-- Reading mailbox k of a team, emptied unless peeked; an empty one holds the word, and so do a course's loads that have
not delivered (R161, R193). -/
def State.mbr (s : State) (h k : Nat) (peek : Bool) (go : State → Word → Res) : Res :=
  match s.team? h with
  | none => .wait
  | some t =>
    let b := t.box k
    if !b.full || !s.selfAcquired 0 then .wait
    else go (if peek then s else s.setTeam h (t.setBox k { b with full := false })) b.value

/-- MBR, vector form and stream form (R192): the value arrives as a long-latency producer's. -/
def execMbrVector (d : BitVec 6) (p : BitVec 1) (k : BitVec 4) (s : State) : Out :=
  s.runWord (.mbrVector d p k)
    (match s.cur with
     | .seq _ => s.asStream fun t _ => s.mbr t k.toNat (p == 1#1) fun s v => .done (s.modTeam t fun x =>
         { x with seq := x.seq.setReg d.toNat v.toNat })
     | _ => s.asCourse fun key str c =>
       let act := c.active str
       match c.checks act [] (if d = 0#6 then none else some (d.toNat, false)) with
       | some r => r
       | none =>
         if act = 0#32 then .done s
         else s.mbr (key / 16) k.toNat (p == 1#1) fun s v =>
           if d = 0#6 then .done s
           else
             let s := s.modCourse key fun c => c.emptyDest act d.toNat false
             .done ((lanesOf act).foldl (fun s l => s.send (.value
               { key := key, str := str, mask := c.slotLanes str, lane := l, reg := d.toNat - 16, wide := false, value := v.toNat, poison := false,
                 fail := none, pc := (c.slot str).pc, acquire := some 0, origin := s.fresh })) s))

/-- MBR, group form (R192). -/
def execMbrGroup (d : BitVec 6) (p : BitVec 1) (k : BitVec 4) (s : State) : Out :=
  s.runWord (.mbrGroup d p k) (s.asCourse fun key _ _ =>
    s.mbr (key / 16) k.toNat (p == 1#1) fun s v => .done (s.gdst false d.toNat v.toNat))

/-! ## CARVE (R176) -/

/-- RF granules of a team (R171). -/
def Team.rf (t : Team) : Nat := (6 * t.launch.courses + 15) / 16

/-- Why a CARVE fails (R176): reasons 1 and 2, by the new sizes. -/
def State.carveReason (s : State) (h : Nat) (t : Team) (sp acc : Nat) : Option Nat :=
  let removed := 16384 * sp
  let mout : Bool := match t.seq.pending with
    | some (.move w) => decide (opOf w = 0xC2) &&
        decide (removed < t.seq.reg (fldB w) + 4096 * outWidth (fldC w % 8))
    | _ => false
  if acc ≠ t.acc ∧ t.seq.run ≠ .idle then some 1
  else if sp < t.sp ∧ (mout ∨ List.any s.copies (fun (kc : Nat × Copy) => s.copyReaches kc.2 h t removed) = true) then some 2
  else none

/-- Granules moved (R177): what is kept below both sizes. -/
def Team.carveTo (t : Team) (sp acc : Nat) : Team :=
  let lim := 16384 * min sp t.sp
  { t with
    sp := sp, acc := acc
    scratch := t.scratch.filter fun (kb : Nat × Byte) => decide (kb.1 < lim)
    spPoison := t.spPoison.filter fun (kb : Nat × Bool) => decide (4 * kb.1 < lim)
    tiles := t.tiles.filter fun (kw : Nat × Word) => decide (kw.1 < 4096 * min acc t.acc)
    tilePoison := t.tilePoison.filter fun k => decide (k < min acc t.acc) }

/-- An arrival of CARVE: its slot, imm12, predicate, and whether a handler issued it. -/
structure CarveArrival where
  key : Nat
  str : Bool
  imm : Nat
  pred : Nat
  inHandler : Bool

def carveArrival (e : Nat × Nat × Nat) : CarveArrival :=
  { key := e.1 / 2, str := decide (e.1 % 2 = 1), imm := e.2.1, pred := e.2.2 % 8, inHandler := decide (8 ≤ e.2.2) }

/-- CARVEFAIL in an arrived course (R176); one that a handler or a save has interrupted holds it as R443 holds causes. -/
def State.carveFail (s : State) (a : CarveArrival) (reason : Nat) : State :=
  match s.course? a.key with
  | some c =>
    if c.life = .live ∧ c.handler = a.inHandler then
      s.trapCourse a.key a.str .carveFail (c.slot a.str).pc 0#64 0#32 (BitVec.ofNat 32 reason)
    else s.defer a.key { cause := .carveFail, tpc := none, slot := none, taddr := 0#64, tmask := 0#32,
                         tinfo := BitVec.ofNat 32 reason }
  | none => s

/-- Granules that pass from the L1 to a team take the lines they held with them (R173): the model drops every line of the
core (log 110). -/
def State.takeGranules (s : State) (t : Team) (sp acc : Nat) : State :=
  if t.sp < sp ∨ t.acc < acc then s.dropL1 t.core else s

/-- CARVE's completion once every live course has arrived (R176). A slot keeps the mark of an earlier completed CARVE until
it consumes it (R188). -/
def State.testCarve (s : State) (h : Nat) : State :=
  match s.team? h with
  | none => s
  | some t =>
    let as := t.carve.map carveArrival
    let live := s.coursesOf h |>.filter fun (kc : Nat × Course) => kc.2.party
    if as.isEmpty || !(live.all fun (kc : Nat × Course) => as.any fun a => decide (a.key = kc.1)) then s
    else
      let imm := (as.head?.map CarveArrival.imm).getD 0
      let sp := bitsOf imm 5 0
      let acc := bitsOf imm 10 6
      let reason := if as.any fun a => decide (a.imm ≠ imm) then some 0 else s.carveReason h t sp acc
      match reason with
      | some r => as.foldl (fun s a => s.carveFail a r) (s.setTeam h { t with carve := [] })
      | none =>
        let others := List.foldl (fun n (kt : Nat × Team) => if kt.1 = h then n else n + kt.2.rf + kt.2.sp + kt.2.acc) 0
          (s.teamsOn t.core)
        let fits := decide (t.rf + sp + acc + others ≤ 46)
        let s := if fits then s.takeGranules t sp acc else s
        let t := if fits then t.carveTo sp acc else t
        let s := s.setTeam h { t with
          carve := [], carved := t.carved ++ (t.carve.map fun e => e.1).filter fun e => !t.carved.contains e }
        as.foldl (fun s a => s.modCourse a.key fun c => { c with sc := c.sc.setPred a.pred fits }) s

/-- CARVE (R175, R176): k predicate, n accumulator granules, m scratchpad granules. A completed one passes by its
mark. -/
def execCarve (k : BitVec 3) (n : BitVec 5) (m : BitVec 6) (s : State) : Out :=
  s.runWord (.carve k n m) (s.asCourse fun key str c =>
    let me := 2 * key + boolNat str
    match s.team? (key / 16) with
    | none => .wait
    | some t =>
      let pass (s : State) : State := s.modTeam (key / 16) fun t => { t with carved := t.carved.filter fun x => decide (x ≠ me) }
      if t.carved.contains me then .done (pass s)
      else if t.carve.any fun e => decide (e.1 / 2 = key) then .wait
      else
        s.afterRelease 0 (fun _ => !s.spOutstanding key str) fun s =>
          let s := s.modTeam (key / 16) fun t =>
            { t with carve := t.carve ++ [(me, n.toNat * 64 + m.toNat, k.toNat + 8 * boolNat c.handler)] }
          let s := s.testCarve (key / 16)
          match s.team? (key / 16) with
          | some t => if t.carved.contains me then .done (pass s) else .stay s
          | none => .stay s)

/-! ## EXIT -/

/-- A cause of R368 raised in the lowest live course of a team; lost when none is. -/
def State.deferTeam (s : State) (t : Nat) (h : HeldCause) : State :=
  match (s.coursesOf t).find? fun (kc : Nat × Course) => kc.2.party with
  | some kc => s.defer kc.1 h
  | none => s

/-- A deferred cause of a course that ends while it holds it (R443): COPYERR and FABRIC leave a record (R221, R415),
ORPHAN and TAGOVERRUN go to the team's lowest live course (R368); the others are lost. -/
def State.reportEnded (s : State) (k : Nat) (h : HeldCause) : State :=
  match h.cause, s.team? (k / 16) with
  | .orphan, _ | .tagOverrun, _ => s.deferTeam (k / 16) h
  | _, some t => s.reportHeld t (k % 16) h
  | _, none => s

/-- What the end of a course brings about at once: barriers and CARVE are tested again (R188, R176). -/
def State.courseEnded (s : State) (k : Nat) : State :=
  match s.course? k, s.team? (k / 16) with
  | some c, some t =>
    let s := c.held.foldl (fun s h => s.reportEnded k h) s
    let s := s.modCourse k fun c => { c with held := [], preempt := none }
    ((s.retestTeam (k / 16)).retestWide t).testCarve (k / 16)
  | _, _ => s

/-- The slot freed, refilled, and the course's end when nothing is left (R121, R131). -/
def Course.exitSlot (t : Team) (c : Course) (str saved : Bool) : Course :=
  ((c.setSlot str Slot.free).refill t str).endIfFree saved

/-- EXIT of a course (R121). One that ends the course inside a PREEMPT handler lets the entries frozen at its entry leave: the
course is in handler mode no more (R268; DESIGN CHOICE, log 105). -/
def State.exitCourse (s : State) (k : Nat) (str : Bool) (c : Course) : Res :=
  match s.team? (k / 16) with
  | none => .wait
  | some t =>
    if s.spOutstanding k str then .wait
    else match refillFails t c with
    | some (ca, ti) => .trap ca 0 0 ti
    | none =>
      let c' := c.exitSlot t str false
      let s' := s.setCourse k (if c'.life = .ended then c'.unfreeze else c')
      .jumped (if c'.life = .ended then s'.courseEnded k else s')

/-- A processor's program that ends idles it; a handler's end returns through the frame, or ends the program it
interrupted (R122, R348, R420). -/
def Proc.reload (p : Proc) (f : List Byte) : Proc :=
  let w (o n : Nat) : Nat := ofBytes ((f.drop o).take n)
  { p with
    sc := { g := Vector.ofFn fun i => BitVec.ofNat 32 (w (4 * i.val) 4), gp := BitVec.ofNat 8 (w 0x80 1) ||| 0x80#8,
            gPoison := 0#32, red := BitVec.ofNat 64 (w 0x98 8), redSeq := BitVec.ofNat 16 (w 0xA0 2) }
    pc := BitVec.ofNat 64 (w 0x84 4 + 2 ^ 32 * w 0xA8 4) }

/-- Bytes of a processor's own memory, none when the read faults. -/
def State.procLoad (s : State) (a : Agent) (va n : Nat) : Option (List Byte) :=
  match s.xlatOf a with
  | none => none
  | some x =>
    match s.translate x va .load false with
    | .ok pa leaf => if isDevice pa then none else some ((List.range n).map fun i => s.freshByte (s.pathOf a) (pa + i) (leafKey leaf))
    | _ => none

/-- EXIT of a control core or Lintel. -/
def State.exitProc (s : State) (a : Agent) (p : Proc) : State :=
  let (k, b) := procBase a
  let tact := s.reg k (b + 0x14)
  if !tact.testBit 0 then s.setProc a { p with running := false, hold := .free }
  else
    match s.procLoad a p.frame.toNat 128, s.procLoad a (p.frame.toNat + 128) 128 with
    | some lo, some hi =>
      let s := s.setReg k (b + 0x14) (tact - 1)
      let f := lo ++ hi
      if ofBytes ((f.drop 0xA4).take 4) = 1 then
        s.setProc a { p.reload f with running := !p.alone, alone := false, hold := .free }
      else s.setProc a { p with running := false, alone := false, hold := .free }
    | _, _ => s.haltProc a

/-- EXIT (R121, R122). -/
def execExit (s : State) : Out :=
  s.runWord .exit
    (match s.cur with
     | .course .. => s.asCourse fun k str c => s.exitCourse k str c
     | .kcore _ | .lintel _ =>
       (match s.proc? s.cur with
        | some p => .jumped (s.exitProc s.cur p)
        | none => .wait)
     | .seq _ => .wait)

/-- Writes of a course that its core has passed on and that are not performed at their homes (R268). -/
def State.writesLeft (s : State) (k : Nat) : Bool :=
  let mine (a : Agent) : Bool := match a with | .course j _ => decide (j = k) | _ => false
  (List.any (s.core (s.pathOf (.course k false))).path fun (ki : Nat × PathItem) => match ki.2 with
    | .write w => mine w.owner && !w.landed
    | .red a _ _ => mine a
    | .mark => false)

/-- EXIT.SAVED (R122, R268): with a valid entry it is a double trap, and no entry leaves any more. -/
def execExitSaved (s : State) : Out :=
  s.runWord .exitSaved (s.asCourse fun k str c =>
    match s.team? (k / 16) with
    | none => .wait
    | some t =>
      if s.spOutstanding k str then .wait
      else if !c.entries.isEmpty then
        .stay ((s.modCourse k Course.freeze).takeTrap
          .illMode 0 0 3)
      else if s.writesLeft k || (c.bound.isNone && !c.countersClear 5) then .wait
      else
        let c' := c.exitSlot t str true
        .jumped (s.setCourse k c'))

end Sys2Proof.Machine
end

