-- ==== Sys2Proof/Machine/Traps.lean ====
section
/-! DEFINITION. Extended state, return from a handler, deferred causes and the pending record (12_traps R276-R278,
R443, R288-R293; 01_course_state R22, R26). -/

namespace Sys2Proof.Machine

open Sys2Proof

/-! ## Extended state (R26, R276, R277) -/

/-- Whether an index is per lane. -/
def xPerLane (x : Nat) : Bool := decide (x = 6) || (decide (8 ≤ x) && decide (x ≤ 0x17))

/-- Word L of an entry's image (R22). -/
def SbEntry.image (e : SbEntry) (l : Nat) : Nat :=
  if l < 16 then ofBytes ((e.data.toList.drop (4 * l)).take 4)
  else match l with
  | 16 => bitsOf e.mask.toNat 31 0
  | 17 => bitsOf e.mask.toNat 63 32
  | 18 => bitsOf e.va.toNat 31 0
  | 19 => bitsOf e.va.toNat 63 32
  | 20 => boolNat e.valid * 2 ^ 31 + e.scope.toNat * 2 ^ 28 + e.kind.toNat * 2 ^ 24 + e.key.toNat
  | 21 => bitsOf e.stamp.toNat 31 0
  | 22 => bitsOf e.stamp.toNat 63 32
  | _ => 0

/-- Whether an image meets R22: reserved bits zero, no reserved scope or kind. -/
def imageOk (w : Nat → Nat) : Bool :=
  decide (w 18 % 64 = 0) && decide (w 19 < 2 ^ 24) && decide (bitsOf (w 20) 30 28 ≤ 5) && decide (bitsOf (w 20) 27 24 ≤ 3) &&
    decide (bitsOf (w 20) 23 12 = 0) && (List.range 9).all fun i => decide (w (23 + i) = 0)

/-- The entry an image describes, frozen until ERET (R268, R277). What the image has no place for, its lanes in order and
their flags, stays with an entry of the same bytes and is gone otherwise (log 106). -/
def SbEntry.ofImage (old : SbEntry) (issue step : Nat) (w : Nat → Nat) : SbEntry :=
  let byte (i : Nat) : Byte := BitVec.ofNat 8 (w (i / 4) >>> (8 * (i % 4)))
  let same := old.valid && decide (old.mask.toNat = w 16 + 2 ^ 32 * w 17) && decide (old.va.toNat = w 18 + 2 ^ 32 * w 19)
  { data := Vector.ofFn fun i => byte i.val
    mask := BitVec.ofNat 64 (w 16 + 2 ^ 32 * w 17)
    va := BitVec.ofNat 64 (w 18 + 2 ^ 32 * w 19)
    valid := (w 20).testBit 31
    scope := BitVec.ofNat 3 (bitsOf (w 20) 30 28)
    kind := BitVec.ofNat 4 (bitsOf (w 20) 27 24)
    key := BitVec.ofNat 12 (bitsOf (w 20) 11 0)
    stamp := BitVec.ofNat 64 (w 21 + 2 ^ 32 * w 22)
    parts := if same then old.parts.map fun p => { p with bytes := (List.range p.bytes.length).map fun i => byte (p.off + i) } else []
    whole := same && old.whole
    frozen := true
    restored := true
    issue := if old.valid then old.issue else issue
    slot := old.slot
    lanes := if old.valid then old.lanes else 0xFFFFFFFF#32
    step := if old.valid then old.step else step }

/-- Entry n of the buffer by its extended-state index. -/
def Course.sbAt (c : Course) (n : Nat) : SbEntry := if h : n < 16 then c.sb[n] else SbEntry.empty

/-- A per-lane word. -/
def Course.xLane (c : Course) (x l : Nat) : Nat :=
  if x = 6 then (c.lane l).fe.toNat else (c.sbAt (x - 8)).image l

/-- A course-wide word. -/
def Course.xWord (c : Course) (x : Nat) : Nat :=
  match x with
  | 0x00 => c.xHeader.pc.toNat
  | 0x01 => c.xHeader.mask.toNat
  | 0x02 => c.xStretcher.pc.toNat
  | 0x03 => c.xStretcher.mask.toNat
  | 0x04 => c.depth
  | 0x05 => c.xMode.toNat
  | 0x07 => c.xHeader.id.toNat + 2 ^ 16 * c.xStretcher.id.toNat
  | 0x1E => c.replayMask.toNat
  | 0x1F => c.faultPend.toNat
  | _ => c.counter (x - 0x18)

/-- A saved slot at another PC has nothing begun there. -/
def Slot.setPc (x : Slot) (v : Nat) : Slot :=
  let pc := BitVec.ofNat 32 (v / 4 * 4)
  if pc = x.pc then x else { x with pc := pc, hold := .free, parked := none, replay := none, kept := none }

/-- The checks and effects of R277 for a course-wide index: none when a check fails. -/
def Course.xWrite (c : Course) (x v : Nat) : Option Course :=
  let w : Word := BitVec.ofNat 32 v
  let when (b : Bool) (c : Course) : Option Course := if b then some c else none
  match x with
  | 0x00 => some { c with xHeader := c.xHeader.setPc v }
  | 0x01 => when (decide (w &&& c.xStretcher.mask = 0#32)) { c with xHeader := { c.xHeader with mask := w } }
  | 0x02 => some { c with xStretcher := c.xStretcher.setPc v }
  | 0x03 => when (decide (w &&& c.xHeader.mask = 0#32)) { c with xStretcher := { c.xStretcher with mask := w } }
  | 0x04 => when (decide (v ≤ 32)) { c with depth := v }
  | 0x05 => when (modeOk v) { c with xMode := w }
  | 0x07 => some { c with xHeader := { c.xHeader with id := BitVec.ofNat 16 v },
                          xStretcher := { c.xStretcher with id := BitVec.ofNat 16 (v / 2 ^ 16) } }
  | 0x1E => some { c with replayMask := w }
  | 0x1F => when (decide (bitsOf v 29 8 = 0) && (!v.testBit 31 || decide (v % 256 = 5))) { c with faultPend := w }
  | _ => when (decide (v < 4096)) (c.count (x - 0x18) fun _ => BitVec.ofNat 12 v)

/-- XSR (R276). -/
def execXsr (d : BitVec 6) (x : BitVec 5) (s : State) : Out :=
  s.runWord (.xsr d x) (s.asCourse fun k str c =>
    if xPerLane x.toNat then
      let act := c.active str
      match c.checks act [] (some (d.toNat, false)) with
      | some r => r
      | none => .done (s.setCourse k (c.deliver (c.mask str) act d.toNat false fun l => c.xLane x.toNat l))
    else .done (s.gdst false d.toNat (c.xWord x.toNat)))

/-- XSW (R276, R277). -/
def execXsw (a : BitVec 6) (x : BitVec 5) (s : State) : Out :=
  s.runWord (.xsw a x) (s.asCourse fun k str c =>
    if xPerLane x.toNat then
      let act := c.active str
      match c.checks act [⟨a.toNat, .n32, 13⟩] none with
      | some r => r
      | none =>
        let v (l : Nat) : Nat := c.src .n32 a.toNat l
        if x.toNat = 6 then
          .done (s.setCourse k (c.mapFrom act fun l y => { y with fe := BitVec.ofNat 32 (v l) }))
        else
          let n := x.toNat - 8
          let w (l : Nat) : Nat := if act.getLsbD l then v l else (c.sbAt n).image l
          if !imageOk w then .trap .illMode 0 0 0
          else
            let step := match s.team? (k / 16) with | some t => s.stepOf t.core | none => 0
            .done (s.setCourse k (c.setEntry n ((c.sbAt n).ofImage s.fresh step w))).tick
    else s.groupOp [(a.toNat, false)] fun sc =>
      match c.xWrite x.toNat (sc.src false a.toNat) with
      | some c => .done (s.setCourse k c)
      | none => .trap .illMode 0 0 0)

/-! ## Return from a handler (R278) -/

/-- Whether an item in flight is an access of a course. -/
def Flight.accessOf (x : Flight) (k : Nat) : Bool :=
  match x with
  | .load y => decide (y.key = k)
  | .atom y => y.owner.ofCourse k
  | .value y => decide (y.key = k)
  | .spad y => decide (y.key = k)
  | .group y => y.agent.ofCourse k
  | .ack .. | .promote .. | .promoted _ => false

/-- Handlers of a course that has accesses of theirs still under way (R274). -/
def State.handlerSpans (s : State) (k : Nat) (ps : List (Nat × Nat)) : List (Nat × Nat) :=
  ps.filter fun p => List.any s.flights fun (nf : Nat × Flight) =>
    nf.2.accessOf k && decide (p.1 ≤ nf.2.origin nf.1) && decide (nf.2.origin nf.1 < p.2)

/-- ERET (R278). -/
def execEret (s : State) : Out :=
  s.runWord .eret (s.asCourse fun k _ c =>
    match s.team? (k / 16) with
    | none => .wait
    | some t =>
      match c.takeHeld with
      | some c' => .jumped (s.setCourse k c')
      | none =>
        let c1 := { c.restore with spans := s.handlerSpans k (c.spans ++ [(c.entered, s.fresh)]) }
        match eretFails t c1 with
        | some (ca, ti) => .trap ca 0 0 ti
        | none =>
          let c2 := c1.refillFree t
          let s := s.setCourse k c2
          .jumped (if c2.life = .ended then s.courseEnded k else s))

/-! ## Deferred causes (R443) -/

/-- DEFERRED_CAUSE_TAKEN (R443): the oldest cause held by course c, outside handler mode, is taken before its next
issue, on the header slot or, when that is free, on the stretcher; a cause of R167 brings its own TPC. -/
def execDeferredCauseTaken (c : Nat) (s : State) : Out :=
  .next (match s.course? c with
    | none => s
    | some x => if x.handler ∨ x.life ≠ .live then s else s.takeCause c)

/-! ## The pending record (R289-R293) -/

/-- Bytes of a pending record (R290). -/
def pendBytes : Nat := 16512

/-- The offset of a slot's GLD entry (R290). -/
def pendGld (str : Bool) : Nat := 16448 + 16 * boolNat str

/-- What translating every page of a record answers (R289, R291). -/
inductive PendRes where
  | ok (s : State) (b : Bound)
  | res (r : Res)

/-- Each 64 KiB of the record translated as a lane of ST would be (R289). -/
def State.pendPages (s : State) (va : Nat) : List Nat → List (Nat × Nat × Nat) → PendRes
  | [], ps => .ok s { va := va, pages := ps, core := 0, upTo := 0 }
  | p :: rest, ps =>
    match s.oneAccess (max va (65536 * p)) 64 .store (fun _ => false) 0xEA with
    | .res r => .res r
    | .ok s' pa leaf =>
      if isDevice pa then .res (.trap .access (max va (65536 * p)) 0 1)
      else s'.pendPages va rest (ps ++ [(p, pa - (max va (65536 * p)) % 65536, leaf)])

/-- The record at an address, checked (R289). -/
def State.pendRecord (s : State) (va : Nat) (go : State → Bound → Res) : Res :=
  if va % 128 ≠ 0 then .trap .align va 0 128
  else
    let lo := va / 65536
    let hi := (va + pendBytes - 1) / 65536
    match s.pendPages va (if lo = hi then [lo] else [lo, hi]) [] with
    | .res r => r
    | .ok s b => go s b

/-- The record as PEND.BIND writes it (R290, R291): its first 64 bytes, and zero entries. -/
def pendHead (tid : Nat) (cid core clock : Nat) : List Byte :=
  bytesOf 8 tid ++ bytesOf 4 (1 + cid * 16 + core * 65536) ++ List.replicate 28 0#8 ++ bytesOf 8 clock ++
    List.replicate 16 0#8

/-- A GBARA of a course that has not written its gd (R291). -/
def State.gbaraOut (s : State) (k : Nat) : Bool :=
  List.any s.flights fun (nf : Nat × Flight) => match nf.2 with
    | .group x => (match x.agent, x.op with
      | .course j _, .barrier .. => decide (j = k)
      | .course j _, .done .. => decide (j = k) && x.reg.isSome && (match s.course? k with
        | some c => decide (x.wide = false) && c.handler
        | none => false)
      | _, _ => false)
    | _ => false

/-- The lines of a record that other packages still hold (R325). -/
def State.recordLines (s : State) (b : Bound) : List Nat :=
  (List.range (pendBytes / 128)).filterMap fun i => s.recordShared b (128 * i)

/-- PEND.BIND (R289-R291): the record is written in one step (log 35), once no other package holds a line of it. -/
def execPendBind (a : BitVec 6) (s : State) : Out :=
  s.runWord (.pendBind a) (s.groupOp [(a.toNat, true)] fun sc => s.asCourse fun k _ c =>
    match s.team? (k / 16) with
    | none => .wait
    | some t =>
      let va := sc.src true a.toNat
      s.pendRecord va fun s b =>
        if c.bound.isSome then .trap .illMode 0 0 1
        else if s.spOutstanding k false || s.spOutstanding k true || s.gbaraOut k then .wait
        else if !(s.recordLines b).isEmpty then .stay ((s.recordLines b).foldl State.invalidate s)
        else
          let core := s.core t.core
          let s := s.recordWrite b 0 (pendHead t.tid.toNat c.cid t.core core.clock)
          let s := (List.range 257).foldl (fun s i => s.recordWrite b (64 + 64 * i) (List.replicate 64 0#8)) s
          .done (s.modCourse k fun c => { c with bound := some { b with core := t.core } }))

/-- Where in its course's record a reply or acknowledgement in flight is filed (R290). -/
def Flight.recordPlace (x : Flight) : Option Nat :=
  match x with
  | .load y => some (pendEntry y.reg y.lane)
  | .value y => some (pendEntry y.reg y.lane)
  | .ack .. => some 0
  | .group y => (match y.agent with | .course _ str => some (pendGld str) | _ => none)
  | _ => none

/-- The line that filing item f writes, when another package still holds it (R325). -/
def State.divertShared (s : State) (f : Nat) : Option Nat :=
  match s.flight? f with
  | some x =>
    (match x.courseOf.bind fun k => (s.course? k).bind fun c => c.recordOf (x.origin f), x.recordPlace with
     | some b, some o => s.recordShared b o
     | _, _ => none)
  | none => none

/-- PENDING_DIVERT (R291): reply or acknowledgement f for a bound course is filed in its record, once no other package holds
the line. -/
def execPendingDivert (f : Nat) (s : State) : Out :=
  .next (if !s.diverted f then s
    else match s.divertShared f with
    | some pa => s.invalidate pa
    | none =>
    match s.flight? f with
    | some (.load _) | some (.value _) => s.deliverFlight f
    | some (.ack (.course k _) scope t o) =>
      (match (s.course? k).bind fun c => c.recordOf o with
       | some b =>
         let at' := 16 + 4 * scope
         let s := s.recordWrite b at' (bytesOf 4 (s.recordRead b at' 4 + 1))
         let s := if t = 0 then s else s.recordWrite b 40 (bytesOf 8 (max t (s.recordRead b 40 8)))
         s.drop f
       | none => s)
    | some (.group x) =>
      (match x.agent, x.op with
       | .course k str, .done v fail =>
         (match (s.course? k).bind fun c => c.recordOf f with
          | some b =>
            let flags := match fail with
              | some (.softErr, _, _) => 2
              | some _ => 4
              | none => 0
            (s.fileEntry b (pendGld str) v (1 + flags + if x.wide then 8 else 0)).drop f
          | none => s)
       | _, _ => s)
    | _ => s)

/-- One valid entry imported: the value, a poison mark, or a failed lane that is set full (R292). -/
def Lane.import (x : Lane) (k v flags : Nat) : Lane :=
  let pair := flags.testBit 3
  if flags.testBit 2 then (if pair then (x.full k).full (k + 1) else x.full k)
  else
    let y := if pair then (x.writeN k v).writeN (k + 1) (v / 2 ^ 32) else x.writeN k v
    if flags.testBit 1 then { y with nPoison := y.nPoison ||| BitVec.ofNat 32 (2 ^ k + if pair then 2 ^ (k + 1) else 0) }
    else y

/-- Value and flags of a named entry: one whose line is poisoned reads poisoned (R291). -/
def State.pendValue (s : State) (b : Bound) (k l : Nat) : Nat × Nat :=
  let o := pendEntry k l
  (s.recordRead b o 8, s.recordRead b (o + 8) 1 ||| if s.recordPoison b o then 2 else 0)

/-- The named entries of a record imported (R292). -/
def State.pendImport (s : State) (b : Bound) (c : Course) : Course :=
  c.mapLanes fun l x => (List.range 32).foldl (fun x k =>
    let e := s.pendValue b k l
    if e.2.testBit 0 then x.import k e.1 e.2 else x) x

/-- Lanes in which some entry failed. -/
def State.pendFailed (s : State) (b : Bound) : Word :=
  maskOf fun l => (List.range 32).any fun k =>
    let f := (s.pendValue b k l).2
    f.testBit 0 && f.testBit 2

/-- The import itself, after the redirect's answer (R292). What a failed entry's FABRIC reports of its access is not in
the record: TADDR and TINFO are free values (log 20). -/
def State.pendFinish (s : State) (k : Nat) (c : Course) (core : Nat) (b : Bound) : State :=
  let failed := s.pendFailed b
  let c := s.pendImport b c
  let c := (List.range 6).foldl (fun (c : Course) i =>
    c.count i fun n => BitVec.ofNat 12 (n.toNat - s.recordRead b (16 + 4 * i) 4)) c
  let held : List HeldCause := if failed = 0#32 then [] else
    [{ cause := .fabric, tpc := none, slot := none, taddr := s.draw 0, tmask := failed, tinfo := (s.draw 1).setWidth 32 }]
  let clock := s.recordRead b 40 8
  let s := (s.setCourse k { c with held := c.held ++ held }).raiseClock core clock
  (s.recordWrite b 8 (bytesOf 1 (s.recordRead b 8 1 ||| 2))).tick.tick

/-- PEND.IMP (R289, R292): the redirect first, the import once it is answered. -/
def execPendImp (a : BitVec 6) (s : State) : Out :=
  s.runWord (.pendImp a) (s.groupOp [(a.toNat, true)] fun sc => s.asCourse fun k str c =>
    match s.team? (k / 16) with
    | none => .wait
    | some t =>
      let va := sc.src true a.toNat
      s.pendRecord va fun s b =>
        let state := s.recordRead b 8 4
        if s.recordRead b 0 8 ≠ t.tid.toNat ∨ !state.testBit 0 ∨ state.testBit 1 then .trap .illMode 0 0 2
        else match (c.slot str).hold with
        | .fence _ => (match s.recordShared b 0 with
          | some pa => .stay (s.invalidate pa)
          | none => .done (s.pendFinish k c t.core b))
        | _ =>
          let n := s.fresh
          .stay ((s.send (.group { agent := s.cur, reg := none, wide := false, op := .redirect { b with core := bitsOf state 31 16 }, pc := (c.slot str).pc })).modCourse
            k fun c => c.setSlot str { c.slot str with hold := .reply n }))

/-- Whether a binding of the core in STATE is of the same record: one in the same frames, at whatever addresses (R292). -/
def Bound.same (b r : Bound) : Bool :=
  decide (b.core = r.core) && decide (b.va % 65536 = r.va % 65536) &&
    decide (b.pages.map (fun p => p.2.1) = r.pages.map fun p => p.2.1)

/-- A record takes nothing more for a course (R292); a slot the handler saved waits for no old GLD. -/
def Course.unbind (c : Course) (r : Bound) : Course :=
  let gone (b : Bound) : Bool := b.same r
  let fix (x : Slot) : Slot := match x.hold with | .reply _ => { x with hold := .free } | _ => x
  let here := match c.bound with | some b => gone b | none => false
  { c with bound := if here then none else c.bound, earlier := c.earlier.filter fun b => !gone b,
           xHeader := if here then fix c.xHeader else c.xHeader, xStretcher := if here then fix c.xStretcher else c.xStretcher }

/-- Replies to the GLDs of a record are not used: their slots issue the GLD again (R141, R292). -/
def State.dropGld (s : State) (k : Nat) (r : Bound) : State :=
  match s.course? k with
  | none => s
  | some c => { s with flights := s.flights.filter fun (nf : Nat × Flight) => match nf.2 with
      | .group x => (match x.op with
        | .load .. | .done .. => !(decide (nf.2.courseOf = some k) && x.reg.isSome && (match c.recordOf nf.1 with
            | some b => b.same r
            | none => false))
        | _ => true)
      | _ => true }

/-- PENDING_REDIRECT (R292): the old core answers redirect f: what arrives from now on goes straight to the course. -/
def execPendingRedirect (f : Nat) (s : State) : Out :=
  .next (match s.flight? f with
    | some (.group x) =>
      (match x.agent, x.op with
       | .course k str, .redirect r =>
         (((s.drop f).dropGld k r).modCourse k fun c => (c.unbind r).setSlot str { c.slot str with hold := .fence s.fresh }).tick
       | _, _ => s)
    | _ => s)

/-- FAULT_QUEUE_RESUME (R335): RESUME of die d gets a token. -/
def execFaultQueueResume (d tok : Nat) (s : State) : Out := .next (s.resumeToken d tok)

end Sys2Proof.Machine
end

