-- ==== Sys2Proof/Machine/Launch.lean ====
section
/-! DEFINITION. Launch records, queues, tile slots, TLB invalidation, the ends of teams and launches, versions
(17_die_launch R349-R351, R353, R354, R357, R358; 16_die_memory R331, R332; 12_traps R285, R287; 06_course_control R121). -/

namespace Sys2Proof.Machine

open Sys2Proof

/-! ## Partition words and slot ranges (R172, R349) -/

def partRf (w : Word) : Nat := bitsOf w.toNat 5 0
def partSp (w : Word) : Nat := bitsOf w.toNat 11 6
def partAcc (w : Word) : Nat := bitsOf w.toNat 17 12
def partWs (w : Word) : Nat := bitsOf w.toNat 21 18
def rfOf (courses : Nat) : Nat := (6 * courses + 15) / 16

/-- A partition word that R172 allows. -/
def partOk (w : Word) (courses : Nat) : Bool :=
  decide (bitsOf w.toNat 31 22 = 0) && decide (partWs w ≤ 8) && decide (partAcc w ≤ 16) && decide (partSp w ≤ 46) &&
    decide (partRf w = rfOf courses) && decide (partRf w + partSp w + partAcc w ≤ 46)

/-- A slot range word: none when it is not valid, else per-team, first and last. -/
def slotRange (w : Word) : Option (Bool × Nat × Nat) :=
  if w.getLsbD 31 then some (w.getLsbD 30, bitsOf w.toNat 11 0, bitsOf w.toNat 27 16) else none

/-- A range's own checks (R350 reason 5). -/
def rangeBad (w : Word) (teams : Nat) : Bool :=
  match slotRange w with
  | none => false
  | some (per, first, last) => decide (last < first) || (per && decide ((last - first + 1) % teams ≠ 0))

/-- The slots of a range that team t of a launch uses (R357). -/
def teamSlots (w : Word) (teams t : Nat) : List Nat :=
  match slotRange w with
  | none => []
  | some (per, first, last) =>
    let n := last + 1 - first
    if per then (let k := n / teams
                 (List.range k).map fun i => first + t * k + i)
    else (List.range n).map fun i => first + i

/-- Whether a course of a launch may name a slot (R358). -/
def inRanges (l : Launch) (x : Nat) : Bool :=
  [l.inSlots, l.outSlots].any fun w => match slotRange w with
    | some (_, first, last) => decide (first ≤ x) && decide (x ≤ last)
    | none => false

/-! ## LAUNCH (R350) -/

/-- Whether a launch's teams can never be co-resident (R353). -/
def neverFits (teams gang courses : Nat) (p : Word) : Bool :=
  let k := min (min 4 (16 / courses)) (46 / (partRf p + partSp p + partAcc p))
  let k := if partWs p = 0 then k else min k (8 / partWs p)
  if gang = 1 then decide (96 * k < teams) else decide (24 * (4 * k / gang) < teams / gang)

/-- The first check of R350 that a record fails; `w o` is the record's word at byte o. -/
def recordReason (w : Nat → Nat) (hbase cntBase : Nat) : Option Nat :=
  let teams := w 0
  let courses := bitsOf (w 4) 4 0
  let gang := bitsOf (w 4) 7 5
  let cls := bitsOf (w 4) 9 8
  let part := BitVec.ofNat 32 (w 8)
  let slots := [BitVec.ofNat 32 (w 0x20), BitVec.ofNat 32 (w 0x24)]
  let range (lo hi x : Nat) : Bool := decide (lo ≤ x) && decide (x ≤ hi)
  if !(range 1 65535 teams && range 1 16 courses && range 1 4 gang && decide (cls ≠ 3) && range 0 4096 (w 0x0C) &&
      decide (w 0x10 ≠ 0) && decide (w 0x14 ≠ 0) && decide (bitsOf (w 4) 31 20 = 0) &&
      (slots.all fun x => decide (bitsOf x.toNat 29 28 = 0) && decide (bitsOf x.toNat 15 12 = 0)) &&
      ((List.range 6).all fun i => decide (w (0x28 + 4 * i) = 0))) then some 2
  else if !partOk part courses then some 3
  else if w 0x18 % 4 ≠ 0 ∨ hbase % 4 ≠ 0 ∨ cntBase % 8 ≠ 0 then some 4
  else if (slots.any fun x => rangeBad x teams) || decide (teams % gang ≠ 0) then some 5
  else if cls = 0 ∧ neverFits teams gang courses part then some 6
  else if (w 4).testBit 10 ∧ cls = 0 then some 7
  else none

/-- The entry that a record makes (R349, R350). -/
def launchOf (w : Nat → Nat) (va arg hbase cntBase : Nat) (q : LQueue) (number queue die : Nat) : Launch :=
  let at' (o : Nat) : DWord := BitVec.ofNat 64 (wrapTo 64 ((va : Int) + signedOf 32 (w o)))
  { teams := w 0, pbg := bitsOf (w 4) 19 12, idem := (w 4).testBit 11, vers := (w 4).testBit 10, cls := bitsOf (w 4) 9 8,
    gang := bitsOf (w 4) 7 5, courses := bitsOf (w 4) 4 0, part := BitVec.ofNat 32 (w 8), ncnt := bitsOf (w 0x0C) 12 0,
    est := w 0x10, lanes := BitVec.ofNat 32 (w 0x14), code := at' 0x18, mstr := at' 0x1C,
    inSlots := BitVec.ofNat 32 (w 0x20), outSlots := BitVec.ofNat 32 (w 0x24), arg := BitVec.ofNat 64 arg,
    hbase := BitVec.ofNat 64 hbase, cntBase := BitVec.ofNat 64 cntBase, asid := q.asid, root := q.root, secure := q.sec,
    number := number, queue := queue, die := die }

/-- Queue q of a die (R351). -/
def State.queue (s : State) (die q : Nat) : LQueue := SMap.getD (s.die die).queues LQueue.init q
def State.setQueue (s : State) (die q : Nat) (x : LQueue) : State :=
  s.modDie die fun d => { d with queues := SMap.put d.queues q x }

/-- A control core's number, for its own instructions. -/
def State.asKcore (s : State) (f : Nat → Res) : Res :=
  match s.cur with
  | .kcore d => f d
  | _ => .wait

/-- The words of a record through a queue's translation; none when its read faults. -/
def LQueue.xlat (q : LQueue) (die : Nat) : Xlat := { root := q.root, asid := q.asid, secure := q.sec, die := die, core := none }
def State.recordWords (s : State) (die va : Nat) (q : LQueue) : Option (Nat → Nat) :=
  match s.translate (q.xlat die) va .load false with
  | .ok pa leaf =>
    if isDevice pa then some fun o => s.devRead (pa + o) 4 (.agent (.kcore die))
    else if s.poisoned pa then none else some fun o => s.natUnder (pa + o) 4 (leafKey leaf)
  | _ => none

/-- The secure log after a record's read (R341). -/
def State.recordLogged (s : State) (die va : Nat) (q : LQueue) : State :=
  match s.translate (q.xlat die) va .load false with
  | .bad c ti => s.logSecure (q.xlat die) c va ti
  | _ => s

/-- LAUNCH (R350): after what FENCE.REL.pkg waits for, the record is read and checked. -/
def execLaunch (d a q : BitVec 6) (s : State) : Out :=
  let b := a.toNat
  s.runWord (.launch d a q) (s.groupOp [(b, true), (b + 2, true), (b + 4, true), (b + 6, true)] fun sc => s.asKcore fun die => s.afterRelease 3 (fun _ => true) fun s =>
    let va := sc.src true b
    let hbase := sc.src true (b + 4)
    let cnt := sc.src true (b + 6)
    let x := s.queue die q.toNat
    let fail (r : Nat) : Res := .trap .launchErr va 0 (q.toNat * 256 + r)
    match (if va % 64 = 0 then s.recordWords die va x else none) with
    | none =>
      if va % 64 = 0 then .stay ((s.recordLogged die va x).takeTrap .launchErr va 0 (q.toNat * 256 + 1)) else fail 1
    | some w =>
      match recordReason w hbase cnt with
      | some r => fail r
      | none =>
        if !x.en then .done (s.gdst false d.toNat 2)
        else if 16 ≤ x.entries.length then .done (s.gdst false d.toNat 1)
        else
          let n := (s.die die).nextLaunch
          let l := launchOf w va (sc.src true (b + 2)) hbase cnt x n q.toNat die
          let s := s.setQueue die q.toNat { x with entries := x.entries ++ [(l, 0)] }
          let s := s.modDie die fun y => { y with nextLaunch := if n + 1 = 2 ^ 45 then 1 else n + 1 }
          .done (s.gdst false d.toNat (n % 2 ^ 24 * 256)))

/-- LQCFG (R351). -/
def execLqcfg (d a b q : BitVec 6) (s : State) : Out :=
  s.runWord (.lqcfg d a b q) (s.groupOp [(a.toNat, false), (b.toNat, true)] fun sc => s.asKcore fun die =>
    let v := sc.src false a.toNat
    let x := s.queue die q.toNat
    if bitsOf v 15 6 ≠ 0 ∨ v.testBit 3 then illegalAt 0xE4 2 3
    else if v.testBit 5 ∧ !(s.kcoreXlat die).secure then .trap .secViol 0 0 24
    else
      let old := x.asid * 2 ^ 16 + boolNat x.sec * 2 ^ 5 + boolNat x.en * 2 ^ 4 + x.prio
      let s := s.setQueue die q.toNat { x with
        asid := bitsOf v 31 16, sec := v.testBit 5, en := v.testBit 4, prio := bitsOf v 2 0,
        root := if b.toNat < 32 then sc.src true b.toNat else x.root }
      .done (s.gdst false d.toNat old))

/-! ## Tile slots (R358) -/

/-- The slots of a range that are full, as a mask. -/
def fullMask (full : List Nat) (first n : Nat) : Nat :=
  (List.range n).foldl (fun a i => a + boolNat (full.contains (first + i)) * 2 ^ i) 0

/-- Setting slots full or empty. -/
def setSlots (full : List Nat) (xs : List Nat) (b : Bool) : List Nat :=
  let rest := full.filter fun x => !xs.contains x
  if b then rest ++ xs else rest

/-- TSLOT (R358). -/
def execTslot (d a b : BitVec 6) (p : BitVec 2) (s : State) : Out :=
  s.runWord (.tslot d a b p) (s.groupOp [(a.toNat, false), (b.toNat, false)] fun sc =>
    let first := bitsOf (sc.src false a.toNat) 11 0
    let n := bitsOf (sc.src false b.toNat) 5 0
    let xs := (List.range n).map fun i => first + i
    let team : Option Team := match s.self with | some (k, _, _) => s.team? (k / 16) | none => none
    let die := match s.cur, team with
      | .kcore die, _ => die
      | _, some t => dieOfCore t.core
      | _, none => 0
    if n = 0 ∨ 32 < n then illegalAt 0xE8 3 3
    else if 4096 < first + n then illegalAt 0xE8 2 3
    else if (match team with | some t => xs.any fun x => !inRanges t.launch x | none => false) then .trap .access 0 0 1
    else
      let read (s : State) : State := s.gdst false d.toNat (fullMask (s.die die).full first n)
      if p = 0#2 then .done (read (s.acquireDrop 3))
      else if (match team with | some t => t.version.isSome | none => false) then .trap .versionBan 0 0 (0xE8 * 2 ^ 24)
      else s.afterRelease 3 (fun _ => true) fun s =>
        .done ((read s).modDie die fun y => { y with full := setSlots y.full xs (p == 1#2) }))

/-! ## TLBI (R331, R332) -/

/-- The ASID of an agent, when a set of dies serves it. -/
def State.asidOf (s : State) (dies : Nat → Bool) (a : Agent) : Option Nat :=
  match s.xlatOf a with
  | some x => if dies x.die then some x.asid else none
  | none => none

/-- Whether an access of a matching agent has been translated and is not yet performed (R332). -/
def State.translatedLeft (s : State) (dies : Nat → Bool) (hit : Nat → Bool) : Bool :=
  let mine (a : Agent) : Bool := match s.asidOf dies a with | some x => hit x | none => false
  (List.any s.flights fun (nf : Nat × Flight) => match nf.2 with
    | .load x => x.got.isNone && mine (.course x.key x.str)
    | .atom x => (match x.engine with | some e => dies e.1 && hit e.2 | none => mine x.owner)
    | .group x => (match x.op with | .load .. => mine x.agent | _ => false)
    | _ => false) ||
  (List.any s.cores fun (kc : Nat × Core) => List.any kc.2.path fun (ki : Nat × PathItem) => match ki.2 with
    | .write w => !w.landed && mine w.owner
    | .red a _ _ => mine a
    | .mark => false) ||
  (List.any s.courses fun (kc : Nat × Course) => [kc.2.header, kc.2.stretcher, kc.2.xHeader, kc.2.xStretcher].any fun x =>
    match x.hold with
    | .joining _ o _ => dies (dieOfCore o.core) && hit o.asid
    | _ => false) ||
  (List.any s.mortar fun (km : Nat × MortarEntry) => dies (dieOfCore km.2.op.core) && hit km.2.op.asid) ||
  (List.any s.joints fun (kj : Nat × Joint) => kj.2.joined.any fun y => dies (dieOfCore y.2.1) && hit y.1) ||
  (List.any s.pkgs fun (kp : Nat × Pkg) => List.any kp.2.txs fun (kt : Nat × WallTx) => match kt.2.serves with
    | .copy n _ _ => (match SMap.find? s.copies n with
      | some c => dies c.xlat.die && hit c.xlat.asid
      | none => false)
    | _ => false)

/-- Dropping the entries of matching ASIDs, of one address or of all, in the TLBs and walker caches of some dies (R330). -/
def State.dropTlb (s : State) (dies : List Nat) (hit : Nat → Bool) (va : Option Nat) : State :=
  let keep (es : List TlbEntry) : List TlbEntry :=
    es.filter fun e => !(hit e.asid && (match va with | some v => decide (e.va = v / 2 ^ e.size) | none => true))
  let s := dies.foldl (fun s d => s.modDie d fun y => { y with tlb := keep y.tlb }) s
  { s with
    cores := List.map (fun (kc : Nat × Core) => if dies.contains (dieOfCore kc.1) then (kc.1, { kc.2 with tlb := keep kc.2.tlb }) else kc) s.cores
    quads := List.map (fun (kq : Nat × Quad) => if dies.contains (kq.1 / 24) then (kq.1, { kq.2 with tlb := keep kq.2.tlb }) else kq) s.quads }

/-- The sources of a TLBI form (R331): `.ALL` has none, `.AS` the ASID, `.VA` the address too. -/
def tlbiUses (a b : BitVec 6) (f : BitVec 2) : List (Nat × Bool) :=
  if f = 0#2 then [] else if f = 2#2 then [(a.toNat, false), (b.toNat, true)] else [(a.toNat, false)]

/-- TLBI (R331, R332): completes once no translated access of a matching agent is left in its scope. -/
def execTlbi (a b : BitVec 6) (sc : BitVec 1) (f : BitVec 2) (s : State) : Out :=
  s.runWord (.tlbi a b sc f) (s.groupOp (tlbiUses a b f) fun g =>
    let own : Option Nat := match s.self with | some (k, _, _) => (s.team? (k / 16)).map fun t => t.launch.asid | none => none
    let asid := own.getD (bitsOf (g.src false a.toNat) 15 0)
    let all := decide (f = 0#2) && own.isNone
    let hit (x : Nat) : Bool := all || decide (x = asid)
    let die := match s.xlatOf s.cur with | some x => x.die | none => 0
    let dies := if sc = 0#1 then [die] else (List.range 8).map fun i => die / 8 * 8 + i
    let va := if f = 2#2 then some (g.src true b.toNat) else none
    s.afterRelease 3 (fun _ => !s.translatedLeft dies.contains hit) fun s =>
      if s.translatedLeft dies.contains hit then .wait else .done (s.dropTlb dies hit va))

/-! ## Versions (R285, R287) -/

/-- A line of a version that another package still holds (R325). -/
def State.sharedLine (s : State) (h : Nat) : Option Nat :=
  match s.team? h with
  | some t => t.version.bind fun m => (List.find? (fun (kb : Nat × Byte) => !s.unshared kb.1) m).map fun kb => kb.1
  | none => none

/-- A version committed: its bytes replace the committed ones at every home die, each line saved before as a write through
its leaf is (R390) and under the leaf's key (R342), with its poison (R222). -/
def State.commit (s : State) (h : Nat) : State :=
  match s.team? h with
  | some t =>
    (match t.version with
     | some m =>
       let s := t.verLeaves.foldl (fun s x => s.keyLine x.1 x.2.1 x.2.2) s
       let s := List.foldl (fun (s : State) (kb : Nat × Byte) => s.homeWrite kb.1 [some kb.2] none) s m
       let s := t.verPoison.foldl (fun s l => s.setLine (128 * l) { s.line (128 * l) with poi := true }) s
       s.modTeam h fun t => { t with version := none, verLeaves := [], verPoison := [], verStall := [] }
     | none => s)
  | none => s

/-- Whether no older versioned team holds lines homed on a die. -/
def State.oldestOn (s : State) (h die : Nat) : Bool :=
  !(List.any s.teams fun (kt : Nat × Team) => decide (kt.1 < h) && (match kt.2.version with
    | some v => decide (versionLines v die ≠ 0)
    | none => false))

/-- Atomics of a team on their way act on memory once its version is committed. -/
def State.atomsInto (s : State) (h : Nat) : State :=
  { s with flights := s.flights.map fun (nf : Nat × Flight) => match nf.2 with
      | .atom g => if g.version = some h then (nf.1, .atom { g with version := none }) else nf
      | _ => nf }

/-- VERSION_OVERFLOW_COMMIT (R287): stalled team t, the oldest versioned one on each die that its store would take past 4 MiB,
commits and goes on without a version. -/
def execVersionOverflowCommit (t : Nat) (s : State) : Out :=
  .next (match s.team? t with
    | some x =>
      if x.version.isSome && !x.verStall.isEmpty && x.verStall.all fun d => s.oldestOn t d then
        (match s.sharedLine t with
         | some l => s.invalidate l
         | none => ((s.commit t).copiesInto t .memory).atomsInto t)
      else s
    | none => s)

/-! ## The end of a team and of a launch (R121, R354, R357) -/

/-- Whether a copy writes the scratchpad, a weight slot or named registers of a team (R220). -/
def State.copyProtects (s : State) (c : Copy) (h : Nat) (t : Team) : Bool :=
  ((decide (c.op = opCpyw) || decide (c.op = opCpyr)) && decide (c.team = h)) ||
    (dstSp c.op c.flags && s.copyReaches { c with flags := c.flags &&& 0xFFFFFFFB } h t 0)

/-- Whether copies that R220 protects are outstanding for a team. -/
def State.protected (s : State) (h : Nat) (t : Team) : Bool :=
  List.any s.copies fun (kc : Nat × Copy) => s.copyProtects kc.2 h t

/-- The teams of a launch that have ended, and whether one of them ended abnormally. -/
def State.launchEnded (s : State) (l : Launch) : List (Nat × Team) :=
  List.filter (fun (kt : Nat × Team) => decide (kt.2.launch.number = l.number) && decide (kt.2.launch.die = l.die) &&
    decide (kt.2.residency = .ended)) s.teams

/-- An update of tile slots: outputs full, then inputs empty, at once (R357). -/
def State.slotUpdate (s : State) (die : Nat) (outs ins : List Nat) : State :=
  s.modDie die fun d => { d with full := setSlots (setSlots d.full outs true) ins false }

/-- The slots that a range in the given mode names. -/
def modeSlots (w : Word) (per : Bool) (teams t : Nat) : List Nat :=
  match slotRange w with
  | some (p, _, _) => if p = per then teamSlots w teams t else []
  | none => []

/-- Where the done word of a launch lies, through the translation captured with it (R357). -/
def Launch.doneVa (l : Launch) : Nat := l.cntBase.toNat + 8 * l.ncnt
def Launch.xlat (l : Launch) : Xlat := { root := l.root, asid := l.asid, secure := l.secure, die := l.die, core := none }
def State.doneAt (s : State) (l : Launch) : TRes := s.translate l.xlat l.doneVa .store false

/-- The done word's line, when other packages still hold copies of it (R325): its add waits for them. -/
def State.sharedDone (s : State) (l : Launch) : Option Nat :=
  match s.doneAt l with
  | .ok pa _ => if !isDevice pa && decide (pa / 2 ^ 48 = l.die / 8) && !s.unshared pa then some pa else none
  | _ => none

/-- The done word of a launch increased (R357), or a record of type 9. A poisoned line is left unchanged (R345); in another
package the add goes there as an atomic does (log 109). -/
def State.doneWord (s : State) (t : Team) : State :=
  let l := t.launch
  let va := l.doneVa
  match s.doneAt l with
  | .ok pa leaf =>
    if isDevice pa then s.postFault l.die { teamRec t 9 0 0 Cause.access.code va 0 l.ncnt with core := 0xFFFF }
    else if pa / 2 ^ 48 ≠ l.die / 8 then
      s.send (.atom
        { owner := .kcore l.die, mask := 0#32, pc := 0#32, op := 0, et := .n64, ftz := false, size := 8, pa := pa, va := va,
          order := .relaxed, scope := 3, stamp := 0, counter := none, version := none, snap := snapMark leaf,
          keyId := leafKey leaf, step := (s.die l.die).kcore.stepId.toNat % 2 ^ 16, sent := false, mark := none,
          half := none, copy := some s.fresh, engine := some (l.die, l.asid), lanes := [{ lane := 0, reg := none, x := 1, cmp := 0 }] })
    else if s.poisoned pa then s.postFault l.die { teamRec t 9 0 0 Cause.softErr.code va 0 l.ncnt with core := 0xFFFF }
    else
      let s := s.keyLine pa (leafKey leaf) (snapMark leaf)
      (s.performWrite pa ((bytesOf 8 ((s.natAt pa 8 + 1) % 2 ^ 64)).map some) (snapMark leaf) 2 (kcorePath l.die) 3 s.fresh 0).2.tick
  | .bad c ti => (s.logSecure l.xlat c va ti).postFault l.die { teamRec t 9 0 0 c.code va 0 l.ncnt with core := 0xFFFF }
  | .miss => s

/-- A team off its core: its granules' contents are gone (R173), and it holds the array no more. -/
def Team.leaveCore (t : Team) : Team :=
  { t with scratch := [], spPoison := [], tiles := [], tilePoison := [], slots := Vector.replicate 8 WSlot.empty }
def State.leftCore (s : State) (h core : Nat) : State :=
  let s := s.modCore core fun c => { c with arrayHolder := if c.arrayHolder = some h then none else c.arrayHolder }
  (s.grantArray core).modQuad (quadOfCore core) fun q => { q with idleSince := (s.pkg (pkgOfCore core)).time }

/-- Whether copies of a team have still to store into its version, which they join before it commits (R203, R285; log 61). -/
def State.versionCopies (s : State) (h : Nat) (t : Team) : Bool :=
  t.version.isSome && !t.abnormal && List.any s.copies fun (kc : Nat × Copy) => decide (kc.2.team = h) && decide (kc.2.into = .version) &&
    (match kc.2.phase with | .updating _ => false | _ => true)

/-- The end of team h (R354, R357), once its courses have finished, its sequencer is idle or stopped, the copies of R220
have completed and those into its version have stored. -/
def State.tryEndTeam (s : State) (h : Nat) : State :=
  match s.team? h with
  | none => s
  | some t =>
    let finished := (s.coursesOf h).all fun (kc : Nat × Course) => decide (kc.2.life = .finished)
    let alive := decide (t.residency = .resident) || decide (t.residency = .saving)
    if !alive || !finished || t.flush || decide (t.seq.run = .running) || t.seq.pending.isSome || s.protected h t || s.versionCopies h t then s
    else
      let last := decide (t.launch.teams ≤ (s.launchEnded t.launch).length + 1)
      match (if t.abnormal then none else (s.sharedLine h).orElse fun _ => if last then s.sharedDone t.launch else none) with
      | some l => s.invalidate l
      | none =>
      let s := if t.abnormal then s.modTeam h fun t => { t with version := none, verLeaves := [], verPoison := [] } else s.commit h
      let s := (s.copiesInto h .nowhere).modTeam h fun t => { t.leaveCore with residency := .ended }
      let s := s.leftCore h t.core
      let l := t.launch
      let s := if t.abnormal then s
        else s.slotUpdate l.die (modeSlots l.outSlots true l.teams t.index) (modeSlots l.inSlots true l.teams t.index)
      let done := s.launchEnded l
      if done.length < l.teams then s
      else
        let s := if done.any fun kt => kt.2.abnormal then s
          else (s.slotUpdate l.die (modeSlots l.outSlots false l.teams 0) (modeSlots l.inSlots false l.teams 0)).doneWord t
        s.orReg (l.die / 8) (distBase (l.die % 8)) 8

/-- COURSE_FINISH (R121): course c, ended, counts as finished once its buffer is empty and its counters read 0, or once
its buffer is empty when it is bound to a pending record; the team's end follows. The entries that a double trap in a
PREEMPT handler left frozen never leave, and do not hold up the team's end (R268, R274). -/
def execCourseFinish (c : Nat) (s : State) : Out :=
  .next (match s.course? c with
    | none => s
    | some x =>
      if x.life = .finished then s.tryEndTeam (c / 16)
      else
        let dead : Bool := match s.team? (c / 16) with | some t => t.abnormal | none => false
        if x.life ≠ .ended ∨ (x.entries.any fun e => !(dead && e.frozen)) ∨ (x.bound.isNone && !x.countersClear 5) then s
        else
          let s := s.setCourse c { x with life := .finished }
          let s := match s.team? (c / 16) with | some t => s.retestWide t | none => s
          s.tryEndTeam (c / 16))

end Sys2Proof.Machine
end

