-- ==== Sys2Proof/Machine/Admission.lean ====
section
/-! DEFINITION. The distributor's decisions: placement, pre-emption, saves, restarts and readmissions (17_die_launch
R352-R356; 12_traps R273, R279-R284; 01_course_state R28). -/

namespace Sys2Proof.Machine

open Sys2Proof

/-! ## Starting a team (R28, R354) -/

/-- A team as admitted for the first time. -/
def Team.start (l : Launch) (index core : Nat) (gang : List Nat) (head now : Nat) : Team :=
  { launch := l, index := index, core := core, gang := gang, gangHead := head, residency := .resident,
    sp := partSp l.part, acc := partAcc l.part, ws := partWs l.part, scratch := [], spPoison := [], tiles := [],
    tilePoison := [], slots := Vector.replicate 8 WSlot.empty, barriers := Vector.replicate 16 Barrier.init,
    carve := [], carved := [], mail := Vector.replicate 16 { full := false, value := 0#32 },
    srSeedM := BitVec.ofNat 32 (index % 2 ^ 16 * 2 ^ 16 + 5), seq := Seq.init, failedSlots := [], deadline := none,
    optIn := false, tag := 0#32, issued := 0, resTime := 0, since := now, admitted := 0, version := if l.vers then some [] else none,
    verLeaves := [], verPoison := [], verStall := [], abnormal := false, savedCore := core, keptCauses := [], mgoCid := 0, flush := false,
    drain := false, risked := false }

/-- A course of a team as it starts. -/
def Team.newCourse (t : Team) (h cid : Nat) : Course :=
  Course.init h cid 0#32 t.launch.lanes t.tid t.launch.hbase t.spSize

/-- A core takes a team: admission acts as an acquire (R354), and ingress is open (R316). -/
def State.enterCore (s : State) (core : Nat) : State :=
  s.modCore core fun c => { c with l1 := [], l1Rel := [], ingressClosed := false }

/-- One team of a launch started on a core, under a new handle; `was` is the time it has been resident before, since a
flush does not set t back (R279, R281). -/
def State.startTeam (s : State) (l : Launch) (index core : Nat) (gang : List Nat) (head was : Nat) : State :=
  let h := s.fresh
  let t := { Team.start l index core gang head (s.pkg (pkgOfCore core)).time with resTime := was, admitted := h }
  let s := ((s.setTeam h t).enterCore core).tick
  (List.range l.courses).foldl (fun s cid => s.setCourse (courseKey h cid) (t.newCourse h cid)) s

/-- The teams of a unit (one team, or a quad gang) started on their cores. -/
def State.startUnit (s : State) (l : Launch) (idxs cores : List Nat) (was : Nat → Nat) : State :=
  let head := s.fresh
  (idxs.zip cores).foldl (fun s ic => s.startTeam l ic.1 ic.2 cores head (was ic.1)) s

/-! ## Placement (R353) -/

/-- What a team needs of a core. -/
structure Need where
  courses : Nat
  granules : Nat
  ws : Nat
  deriving DecidableEq, Repr

def Launch.need (l : Launch) : Need :=
  { courses := l.courses, granules := partRf l.part + partSp l.part + partAcc l.part, ws := partWs l.part }
def Team.need (t : Team) : Need := { courses := t.launch.courses, granules := t.rf + t.sp + t.acc, ws := t.ws }

/-- Whether a core has room (R172, R353). -/
def State.coreFits (s : State) (core : Nat) (n : Need) : Bool :=
  let ns := (s.teamsOn core).map fun (kt : Nat × Team) => kt.2.need
  let sum (f : Need → Nat) : Nat := (ns.map f).foldl (· + ·) 0
  decide (ns.length < 4) && decide (sum Need.courses + n.courses ≤ 16) && decide (sum Need.granules + n.granules ≤ 46) &&
    decide (sum Need.ws + n.ws ≤ 8)

/-- Whether a quad of a die is power-gated (R317). -/
def State.gated (s : State) (quad : Nat) : Bool :=
  (s.reg (quad / 192) (quadBase (quad / 24 % 8) (quad % 24) + 4)).testBit 31

/-- Quads of a die in the order tried: ungated, then gated. -/
def State.quadOrder (s : State) (die : Nat) : List Nat :=
  let qs := (List.range 24).map fun q => 24 * die + q
  (qs.filter fun q => !s.gated q) ++ qs.filter fun q => s.gated q

/-- The ways to take n of a list, in order. -/
def choose {α : Type} : Nat → List α → List (List α)
  | 0, _ => [[]]
  | _ + 1, [] => []
  | n + 1, x :: xs => (choose n xs).map (fun ys => x :: ys) ++ choose (n + 1) xs

/-- The cores that a unit's teams take: one core, or distinct cores of one quad. -/
def State.fitUnit (s : State) (die : Nat) (ns : List Need) : Option (List Nat) :=
  let cores := (s.quadOrder die).map fun q => (List.range 4).map fun i => 4 * q + i
  match ns with
  | [n] => (cores.flatten.find? fun c => s.coreFits c n).map fun c => [c]
  | _ => cores.findSome? fun q => (choose ns.length q).find? fun cs => (cs.zip ns).all fun cn => s.coreFits cn.1 cn.2

/-! ## Heads (R352) -/

/-- The head of a queue: saved teams to readmit, flushed ones to start again, or unstarted ones, by units. -/
inductive Head where
  | readmit (units : List (List Nat))
  | again (l : Launch) (units : List (List Nat)) (old : List Nat)
  | fresh (l : Launch) (units : List (List Nat)) (started : Nat)
  deriving DecidableEq, Repr

/-- Team numbers cut into gangs. -/
def chunks (n : Nat) : Nat → List Nat → List (List Nat)
  | 0, _ => []
  | k + 1, xs => if xs.isEmpty then [] else xs.take n :: chunks n k (xs.drop n)

/-- Teams of a queue of a die in one residency. -/
def State.waitingTeams (s : State) (die q : Nat) (r : Residency) : List (Nat × Team) :=
  List.filter (fun (kt : Nat × Team) => decide (kt.2.residency = r) && decide (kt.2.launch.die = die) &&
    decide (kt.2.launch.queue = q)) s.teams

/-- The handles that go with a team: its launch's when concurrent, its gang's, else itself. -/
def State.together (s : State) (h : Nat) (t : Team) : List Nat :=
  (List.filter (fun (kt : Nat × Team) =>
    if t.launch.cls = 0 then decide (launchKey kt.2.launch = launchKey t.launch)
    else decide (kt.1 = h) || decide (kt.2.gangHead = t.gangHead)) s.teams).map fun kt => kt.1

/-- Handles grouped by gang. -/
def State.gangsOf (s : State) (hs : List Nat) : List (List Nat) :=
  let head (h : Nat) : Nat := match s.team? h with | some t => t.gangHead | none => h
  let heads := hs.foldl (fun (a : List Nat) h => if a.contains (head h) then a else a ++ [head h]) []
  heads.map fun g => hs.filter fun h => decide (head h = g)

/-- The head of queue q of a die. -/
def State.headOf (s : State) (die q : Nat) : Option Head :=
  match s.waitingTeams die q .saved, s.waitingTeams die q .flushed, (s.queue die q).entries with
  | (h, t) :: _, _, _ =>
    let all := (s.together h t).filter fun k => match s.team? k with
      | some x => decide (x.residency ≠ .ended)
      | none => false
    if all.all fun k => (match s.team? k with | some x => decide (x.residency = .saved) | none => false) then
      some (.readmit (s.gangsOf all))
    else none
  | [], (h, t) :: _, _ =>
    let all := (s.together h t).filter fun k => match s.team? k with
      | some x => decide (x.residency ≠ .ended)
      | none => false
    if all.all fun k => (match s.team? k with | some x => decide (x.residency = .flushed) | none => false) then
      some (.again t.launch ((s.gangsOf all).map fun g => g.map fun k => (match s.team? k with | some x => x.index | none => 0)) all)
    else none
  | [], [], (l, n) :: _ =>
    let take := if l.cls = 0 then l.teams - n else l.gang
    some (.fresh l (chunks l.gang l.teams ((List.range take).map fun i => n + i)) (n + take))
  | [], [], [] => none

/-- Whether a team's input slots are full and its output slots empty (R357). -/
def State.eligible (s : State) (l : Launch) (idx : Nat) : Bool :=
  let full := (s.die l.die).full
  ((teamSlots l.inSlots l.teams idx).all fun x => full.contains x) &&
    ((teamSlots l.outSlots l.teams idx).all fun x => !full.contains x)

/-- Whether a head may be placed now: its eligibility, and under the throttle only readmissions (R352, R357). -/
def State.headReady (s : State) (die : Nat) (h : Head) : Bool :=
  match h with
  | .readmit _ => true
  | .again l us _ | .fresh l us _ => !(s.die die).throttle && us.all fun u => u.all fun i => s.eligible l i

/-! ## Readmission (R273, R284) -/

/-- A saved team readmitted on a core: R28's state with what R283 keeps, and the releases its loads have read (R268 rule 4);
its courses enter their handlers. -/
def State.readmit (s : State) (h core : Nat) (gang : List Nat) : State :=
  match s.team? h with
  | none => s
  | some t =>
    let t' := { t.leaveCore with
      core := core, gang := gang, residency := .resident, since := (s.pkg (pkgOfCore core)).time, admitted := s.fresh, keptCauses := [],
      srSeedM := BitVec.ofNat 32 (t.index % 2 ^ 16 * 2 ^ 16 + 5) }
    let s := ((s.setTeam h t').enterCore core).tick
    let tinfo := BitVec.ofNat 32 (1 + 2 * boolNat (decide (core ≠ t.savedCore)))
    (s.coursesOf h).foldl (fun s (kc : Nat × Course) =>
      if kc.2.life ≠ .saved then s
      else
        let kept := (t.keptCauses.filter fun x => decide (x.1 = kc.2.cid)).map fun x => x.2
        let c : Course := { t'.newCourse h kc.2.cid with
          hbase := kc.2.hbase, seen := kc.2.seen.map fun (x : Seen) => { x with lanes := 0xFFFFFFFF#32 }, held := kc.2.held ++ kept,
          earlier := kc.2.earlier ++ (kc.2.bound.toList.map fun b => { b with upTo := s.fresh }) }
        (s.setCourse kc.1 c).trapCourse kc.1 false .preempt c.header.pc 0#64 0#32 tinfo) s

/-- The time that a team of an index has been resident, among flushed ones. -/
def State.wasResident (s : State) (old : List Nat) (idx : Nat) : Nat :=
  match (old.filterMap s.team?).find? fun t => decide (t.index = idx) with
  | some t => t.resTime
  | none => 0

/-- A launch whose every team starts again finds its die barriers as at team start (R188, R281, R359). -/
def State.freshLaunch (s : State) (l : Launch) : State :=
  if l.cls = 0 then { s with wideBars := (List.range 8).foldl (fun (m : SMap Barrier) k => SMap.del m (barKey 1 (launchKey l) k)) s.wideBars } else s

/-- A head placed: every unit in turn, none when one finds no cores (R352, R353). -/
def State.placeHead (s : State) (die : Nat) (h : Head) : Option State :=
  match h with
  | .readmit us => us.foldl (fun (o : Option State) u => o.bind fun s =>
      let ts := u.filterMap fun k => s.team? k
      (s.fitUnit die (ts.map Team.need)).map fun cs => (u.zip cs).foldl (fun s hc => s.readmit hc.1 hc.2 cs) s) (some s)
  | .again l us old =>
    let was := s.wasResident old
    us.foldl (fun (o : Option State) u => o.bind fun s =>
      (s.fitUnit die (u.map fun _ => l.need)).map fun cs => s.startUnit l u cs was)
      (some { s.freshLaunch l with teams := old.foldl (fun (m : SMap Team) k => SMap.del m k) s.teams })
  | .fresh l us n =>
    (us.foldl (fun (o : Option State) u => o.bind fun s =>
      (s.fitUnit die (u.map fun _ => l.need)).map fun cs => s.startUnit l u cs fun _ => 0) (some s)).map fun s =>
        let q := s.queue die l.queue
        s.setQueue die l.queue { q with entries := (match q.entries with
          | (x, _) :: rest => if l.teams ≤ n then rest else (x, n) :: rest
          | [] => []) }

/-! ## Pre-emption (R279-R282, R356) -/

/-- A course stopped to be flushed (R281): what its buffer holds for a version is discarded with it; the stores of a team
without one have been issued, and leave. -/
def Course.flush (c : Course) (versioned : Bool) : Course :=
  { c.stop with sb := if versioned then Vector.replicate 16 SbEntry.empty
                      else c.sb.map fun e => { e with frozen := false, restored := false } }

/-- A team stopped to be flushed (R281): courses and sequencer stop without trap entry, its version is discarded, and what
its copies would still store there. -/
def State.flushTeam (s : State) (h : Nat) : State :=
  let v : Bool := match s.team? h with | some t => t.version.isSome | none => false
  let s : State := { s with
    courses := List.map (fun (kc : Nat × Course) => if kc.1 / 16 = h then (kc.1, kc.2.flush v) else kc) s.courses }
  (s.copiesInto h .nowhere).modTeam h fun t =>
    { t with flush := true, version := none, verLeaves := [], verPoison := [], verStall := [],
             seq := { t.seq with run := .idle, pending := none, holdBatch := none, token := none } }

/-- PREEMPT for every live course of a team (R282): one in its handler holds it, and so does one that first takes a cause
it holds already (R275, R443). -/
def State.saveTeam (s : State) (h : Nat) : State :=
  let s := s.modTeam h fun t => { t with residency := .saving }
  (s.coursesOf h).foldl (fun s (kc : Nat × Course) =>
    let c := kc.2
    if c.life ≠ .live then s
    else if c.handler then s.setCourse kc.1 { c with preempt := some 0#32 }
    else if c.held ≠ [] then (s.takeCause kc.1).modCourse kc.1 fun c => { c with preempt := some 0#32 }
    else
      let str := decide (c.header.mask = 0#32)
      s.trapCourse kc.1 str .preempt (c.slot str).pc 0#64 0#32 0#32) s

/-- Pre-emption modes (R279). -/
inductive PreMode where
  | drain | flush | save
  deriving DecidableEq, Repr

/-- The mode for the teams of one unit (R279, R287). u and E count every team of a gang or a concurrent launch, those that
have ended too; t is a resident one's. -/
def State.preMode (s : State) (die : Nat) (hs : List Nat) : PreMode :=
  let ts := hs.filterMap s.team?
  let all := match hs with
    | h :: _ => (match s.team? h with | some t => (s.together h t).filterMap s.team? | none => [])
    | [] => []
  let u : Nat := (all.map Team.issued).foldl (· + ·) 0
  let e : Nat := (all.map fun t => t.launch.est).foldl (· + ·) 0
  let now := (s.pkg (die / 8)).time
  let t := match ts.head? with | some x => x.resTime + (now - x.since) | none => 0
  let w := s.reg (die / 8) (distBase (die % 8) + 0x100)
  let dprog := bitsOf w 21 12
  let drem := bitsOf w 11 0
  let fprog := bitsOf (s.reg (die / 8) (distBase (die % 8) + 0x104)) 9 0
  let p := min 1024 (1024 * u / e)
  let near := decide (u ≠ 0) && decide (((e : Int) - u) * t < drem * 1000 * u)
  let versioned := ts.any fun t => t.version.isSome
  let idem := ts.any fun t => t.launch.idem
  let handlers := hs.all fun h => (s.coursesOf h).all fun (kc : Nat × Course) => decide (kc.2.hbase ≠ 0#64)
  if ts.any (fun t => !t.verStall.isEmpty) then .flush
  else if dprog ≤ p && near then .drain
  else if (versioned || idem) && decide (p < fprog) then .flush
  else if versioned then .flush
  else if handlers then .save
  else if idem then .flush
  else .drain

/-- The teams of one unit pre-empted. -/
def State.preempt (s : State) (die : Nat) (hs : List Nat) : State :=
  match s.preMode die hs with
  | .drain => hs.foldl (fun s h => s.modTeam h fun t => { t with drain := true }) s
  | .flush => hs.foldl (fun s h => s.flushTeam h) s
  | .save => hs.foldl (fun s h => s.saveTeam h) s

/-- The state as if some teams had left. -/
def State.without (s : State) (hs : List Nat) : State :=
  hs.foldl (fun s h => s.modTeam h fun t => { t with residency := .ended }) s

/-- A team put among others in the order of their latest admissions, the latest first. -/
def byLatest (kt : Nat × Team) : List (Nat × Team) → List (Nat × Team)
  | [] => [kt]
  | x :: xs => if x.2.admitted < kt.2.admitted then kt :: x :: xs else x :: byLatest kt xs

/-- Units of resident teams of lower priority, lowest priority first, latest admitted first (R356). -/
def State.victims (s : State) (die prio : Nat) : List (List Nat) :=
  let prioOf (t : Team) : Nat := (s.queue die t.launch.queue).prio
  let ts := List.filter (fun (kt : Nat × Team) => decide (dieOfCore kt.2.core = die) && decide (kt.2.residency = .resident) &&
    !kt.2.flush && !kt.2.drain && decide (prioOf kt.2 < prio)) s.teams
  let units (p : Nat) : List (List Nat) :=
    ((ts.filter fun kt => decide (prioOf kt.2 = p)).foldl (fun a kt => byLatest kt a) []).foldl (fun (a : List (List Nat)) kt =>
      let g := (s.together kt.1 kt.2).filter fun h => ts.any fun x => decide (x.1 = h)
      if a.contains g then a else a ++ [g]) []
  (List.range prio).flatMap units

/-- Teams that are leaving already. -/
def State.leaving (s : State) (die : Nat) : List Nat :=
  (List.filter (fun (kt : Nat × Team) => decide (dieOfCore kt.2.core = die) &&
    (decide (kt.2.residency = .saving) || (decide (kt.2.residency = .resident) && (kt.2.flush || kt.2.drain)))) s.teams).map
      fun kt => kt.1

/-- Pre-empting units one by one until a head would fit. -/
def State.preemptFor (s : State) (die : Nat) (h : Head) (gone : List Nat) : List (List Nat) → State
  | [] => s
  | u :: us =>
    if ((s.without gone).placeHead die h).isSome then s
    else (s.preempt die u).preemptFor die h (gone ++ u) us

/-! ## The decision (R352, R356) -/

/-- The first queue of a priority from the rotating pointer on. -/
def pickQueue (qs : List Nat) (ptr : Nat) : Option Nat :=
  (qs.find? fun q => decide (ptr ≤ q)).orElse fun _ => qs.head?

/-- One decision of the distributor of a die. -/
def State.admitOne (s : State) (die : Nat) : State :=
  let d := s.die die
  let qs := List.filterMap (fun (kq : Nat × LQueue) =>
    if kq.2.en then (match s.headOf die kq.1 with
      | some h => if s.headReady die h then some (kq.1, kq.2.prio, h, s.placeHead die h) else none
      | none => none) else none) d.queues
  let cand := qs.filter fun x => x.2.2.2.isSome
  let top (xs : List (Nat × Nat × Head × Option State)) : Nat := xs.foldl (fun m x => max m x.2.1) 0
  let best (xs : List (Nat × Nat × Head × Option State)) : Option (Nat × Nat × Head × Option State) :=
    let p := top xs
    let ys := xs.filter fun x => decide (x.2.1 = p)
    match pickQueue (ys.map fun x => x.1) (if h : p < 8 then d.ptr[p] else 0) with
    | some q => ys.find? fun x => decide (x.1 = q)
    | none => none
  match best cand with
  | some (q, p, _, some s') =>
    s'.modDie die fun d => { d with ptr := Vector.ofFn fun i => if i.val = p then (q + 1) % 64 else d.ptr[i] }
  | some (_, _, _, none) => s
  | none =>
    match best qs with
    | some (_, p, h, _) => s.preemptFor die h (s.leaving die) (s.victims die p)
    | none => s

/-- ADMISSION_DECISION (R352): teams of die d whose end is due end, then one head is placed, or room is made for one. -/
def execAdmissionDecision (d : Nat) (s : State) : Out :=
  .next ((((List.filter (fun (kt : Nat × Team) => decide (dieOfCore kt.2.core = d)) s.teams).map fun kt => kt.1).foldl
    (fun s h => s.tryEndTeam h) s).admitOne d)

/-! ## The end of a save or a flush (R281, R282) -/

/-- SAVE_COMPLETE (R282): the save of team t completes once each of its courses has executed EXIT.SAVED or had ended, the
copies of R220 are done and the sequencer has stopped; a flushed team (R281) then waits in its queue. -/
def execSaveComplete (t : Nat) (s : State) : Out :=
  .next (match s.team? t with
    | none => s
    | some x =>
      let cs := s.coursesOf t
      let isOver (k : Life) : Bool := decide (k = .endedSaved) || decide (k = .finished)
      if s.protected t x || x.seq.pending.isSome then s
      else if x.flush ∧ x.residency = .resident then
        if cs.all fun (kc : Nat × Course) => kc.2.entries.isEmpty then
          let s := (s.setTeam t { x.leaveCore with
            residency := .flushed, flush := false, resTime := x.resTime + ((s.pkg (pkgOfCore x.core)).time - x.since) }).leftCore t x.core
          { s with courses := s.courses.filter fun (kc : Nat × Course) => decide (kc.1 / 16 ≠ t) }
        else s
      else if x.residency ≠ .saving ∨ !(cs.all fun (kc : Nat × Course) => isOver kc.2.life) then s
      else if cs.all fun (kc : Nat × Course) => decide (kc.2.life = .finished) then
        (s.setTeam t { x with seq := { x.seq with run := .idle } }).tryEndTeam t
      else
        let now := (s.pkg (pkgOfCore x.core)).time
        let s := s.setTeam t { x.leaveCore with
          residency := .saved, savedCore := x.core, resTime := x.resTime + (now - x.since),
          seq := { Seq.init with closed := x.seq.closed, retired := x.seq.retired, abandoned := true } }
        let s := s.leftCore t x.core
        { s with courses := s.courses.map fun (kc : Nat × Course) =>
            if kc.1 / 16 = t ∧ kc.2.life = .endedSaved then (kc.1, { kc.2 with life := .saved }) else kc })

end Sys2Proof.Machine
end

