-- ==== Sys2Proof/Machine/Probe.lean ====
section
/-! DEFINITION. Wait edges, probes and wait cycles (12_traps R294-R296). -/

namespace Sys2Proof.Machine

open Sys2Proof

/-- A wait edge: its row of R294's table, its object, and the parties that can end the wait; no list when something that
does not wait (a copy, a host) can. -/
structure WaitEdge where
  row : Nat
  object : Nat
  enders : Option (List Waiter)
  deriving DecidableEq, Repr

/-- The live courses of teams, as parties. -/
def State.liveOf (s : State) (mine : Nat → Bool) : List Waiter :=
  (List.filter (fun (kc : Nat × Course) => mine (kc.1 / 16) && kc.2.party) s.courses).map fun kc => .course kc.1

/-- The agents that can end the wait for a mailbox (R294): a team's live courses and its sequencer, running or idle. -/
def State.boxParties (s : State) (h : Nat) : List Waiter := s.liveOf (fun j => decide (j = h)) ++ [.seq h]

/-- The parties of a team's barrier: its courses, and its sequencer when that runs (log 58). -/
def State.teamParties (s : State) (h : Nat) : List Waiter :=
  s.liveOf (fun j => decide (j = h)) ++
    (match s.team? h with | some t => if t.seq.run = .running then [.seq h] else [] | none => [])

/-- Parties of a barrier's generation that have not arrived. -/
def Barrier.missing (b : Barrier) (ws : List Waiter) : List Waiter :=
  ws.filter fun w => match w with
    | .course k => !b.pending.contains k
    | .seq t => !b.pending.contains (seqParty t)
    | .queued .. => false

/-- Whether a slot of a party stands at a barrier and has not passed. -/
def Barrier.holds (b : Barrier) (party : Nat) (str : Bool) (pc : Word) : Bool :=
  b.standing.contains (party, str, pc) && !b.passed.contains (party, str)

/-- The edge of a memory address or counter (R294): the launch's live courses, unless a copy of it is outstanding. -/
def State.memoryEdge (s : State) (t : Team) (object : Nat) : WaitEdge :=
  let ours (h : Nat) : Bool := match s.team? h with | some x => decide (launchKey x.launch = launchKey t.launch) | none => false
  { row := 4, object := object % 2 ^ 32,
    enders := if List.any s.copies fun (kc : Nat × Copy) => ours kc.2.team then none else some (s.liveOf ours) }

/-- The members of a wall or pod barrier that have not arrived (R437): the parties of the packages of its scope whose part has
not; none when some of a pod lie in other walls, which publish nothing here. -/
def State.wideMissing (s : State) (l p pbg k : Nat) : Option (List Waiter) :=
  let mine := (List.range 16).filter fun q =>
    if l = 3 then (s.reg p (lintBase + 0x5C)).testBit q else decide (s.parties (s.pbgTeams q pbg) ≠ 0)
  if l ≠ 3 ∧ mine.length < s.partsNeeded l p then none
  else some (mine.flatMap fun q =>
    if s.partArrived l q pbg k then []
    else (s.wideBar (barKey l (pbgKey q pbg) k)).missing (s.liveOf (s.pbgTeams q pbg)))

/-- The value a wait of team h looks at, in global memory, with the team's version before it (R285), or in a register. -/
def State.waitValue (s : State) (h : Nat) (t : Team) (va size : Nat) : Option Nat :=
  match s.translate t.xlat va .load false with
  | .ok pa leaf =>
    if isDevice pa then some (s.devRead pa size (.agent s.cur))
    else some (ofBytes ((List.range size).map fun i => s.homeByte (t.versionOf h) (pa + i) (leafKey leaf)))
  | _ => none

/-- The edge that the next instruction of a course's slot publishes, when it waits (R294). CARVE is a team barrier (R176, R190), and a
slot of a course whose arrival there is pending waits at it, under the number 16 (DESIGN CHOICE, log 58). -/
def State.slotEdge (s : State) (key : Nat) (str : Bool) (c : Course) (t : Team) (i : Instr) : Option WaitEdge :=
  let h := key / 16
  let pc := (c.slot str).pc
  let box (k : Nat) (full : Bool) : Option WaitEdge :=
    if (t.box k).full = full then some { row := 1, object := k, enders := some (s.boxParties h) } else none
  let at' (o size : Nat) : Option Nat :=
    match s.spTarget h t o size with
    | .inl (g, o', _, _) => (s.team? g).map fun x => ofBytes (x.spBytes o' size)
    | .inr _ => none
  if t.carve.any fun e => decide (e.1 / 2 = key) && (decide (8 ≤ e.2.2) == c.handler) then
    some { row := 0, object := 16, enders := some ((s.liveOf fun j => decide (j = h)).filter fun w => match w with
      | .course k => !(t.carve.any fun e => decide (e.1 / 2 = k))
      | .seq _ | .queued .. => false) }
  else match i with
  | .bar _ _ k =>
    let b := t.bar k.toNat
    if b.holds key str pc then
      some { row := 0, object := k.toNat,
             enders := some (b.missing (if b.need = 0 then s.liveOf fun j => decide (j = h) else s.teamParties h)) }
    else none
  | .mbrVector _ _ k | .mbrGroup _ _ k => box k.toNat false
  | .mbwVector _ k | .mbwGroup _ k => box k.toNat true
  | .mwait _ a _ =>
    let n := c.sc.src false a.toNat
    if t.seq.faultValid || reached t.seq.retired n then none
    else some { row := 3, object := n, enders := some [.seq h] }
  | .waita _ a b _ x cond =>
    let wide := c.gt.wide
    let size := if wide then 8 else 4
    let va := c.sc.src (x == 0#1) a.toNat
    (match (if x = 1#1 then at' va size else s.waitValue h t va size) with
     | some v => if waitCond cond.toNat v (c.sc.src wide b.toNat) then none else some (s.memoryEdge t va)
     | none => none)
  | .waitc _ a b _ =>
    let va := t.launch.cntBase.toNat + 8 * bitsOf (c.sc.src false a.toNat) 11 0
    (match s.waitValue h t va 8 with
     | some v => if v < c.sc.src true b.toNat then some (s.memoryEdge t va) else none
     | none => none)
  | .gbarw _ a b _ =>
    let o := c.sc.src false a.toNat
    (match at' o 4 with
     | some gen => if 2 ^ 31 ≤ (gen + 2 ^ 33 - c.sc.src false b.toNat - 1) % 2 ^ 32 then some (s.memoryEdge t o) else none
     | none => none)
  | .barx _ _ l k =>
    let b := s.wideBar (barKey l.toNat (barOwner t l.toNat) k.toNat)
    if b.holds key str pc then
      some { row := 6, object := k.toNat,
             enders := if l.toNat < 3 then some (b.missing (s.liveOf (s.barTeams t l.toNat)))
               else s.wideMissing l.toNat (pkgOfCore t.core) t.launch.pbg k.toNat }
    else none
  | _ => none

/-- The word at an offset of a team's stream. -/
def State.streamWord (s : State) (t : Team) (pc : Word) : Option Word :=
  match s.translate t.xlat (wrapTo 64 ((t.launch.mstr.toNat : Int) + pc.toNat)) .fetch false with
  | .ok pa leaf => some (BitVec.ofNat 32 (s.natUnder pa 4 (leafKey leaf)))
  | _ => none

/-- The instruction a word decodes to. -/
def instrOf (w : Option Word) : Option Instr :=
  match w with
  | some x => (match decode x with | .ok i => some i | .error _ => none)
  | none => none

/-- The edge of a running sequencer (R252, R294). -/
def State.seqEdge (s : State) (h : Nat) (t : Team) : Option WaitEdge :=
  let courses := s.liveOf fun j => decide (j = h)
  if t.seq.run ≠ .running ∨ t.seq.pending.isSome then none
  else match instrOf (s.streamWord t t.seq.pc) with
  | some (.mbar _ _ k) =>
    let b := t.bar k.toNat
    if b.holds (seqParty h) false t.seq.pc then
      some { row := 0, object := k.toNat, enders := some (b.missing (s.teamParties h)) }
    else none
  | some (.mbrVector _ _ k) =>
    if (t.box k.toNat).full then none else some { row := 1, object := k.toNat, enders := some (s.boxParties h) }
  | some (.mbwVector _ k) =>
    if (t.box k.toNat).full then some { row := 1, object := k.toNat, enders := some (s.boxParties h) } else none
  | some (.mma _ _ b _ _ _) =>
    let k := b.toNat - 32
    if (t.slot k).full then none
    else some { row := 2, object := k, enders :=
      if List.any s.copies fun (kc : Nat × Copy) => decide (kc.2.team = h) && decide (kc.2.op = opCpyw) && decide (fSlot kc.2.flags = k)
      then none else some courses }
  | _ => none

/-- The edge of a queue whose head waits for tile slots (R294); no list without a team that produces one. -/
def State.queueEdge (s : State) (die q : Nat) : Option WaitEdge :=
  match (s.queue die q).entries with
  | [] => none
  | (l, n) :: _ =>
    if s.eligible l n then none
    else
      let need := teamSlots l.inSlots l.teams n
      let makes (x : Launch) (i : Nat) : Bool := (teamSlots x.outSlots x.teams i).any need.contains
      let made := List.filter (fun (kt : Nat × Team) => decide (kt.2.launch.die = die) && decide (kt.2.residency ≠ .ended) &&
        makes kt.2.launch kt.2.index) s.teams
      let queues := List.filter (fun (kq : Nat × LQueue) => kq.2.entries.any fun e =>
        (List.range (e.1.teams - e.2)).any fun i => makes e.1 (e.2 + i)) (s.die die).queues
      let ws := (s.liveOf fun h => made.any fun kt => decide (kt.1 = h)) ++ queues.map fun kq => Waiter.queued die kq.1
      some { row := 5, object := (need.find? fun x => !((s.die die).full.contains x)).getD 0,
             enders := if ws.isEmpty then none else some ws }

/-- The edges of a party, with its slot numbers of R296; none when it does not wait, in every occupied slot. -/
def State.edgesOf (s : State) (w : Waiter) : Option (List (Nat × WaitEdge)) :=
  match w with
  | .course k =>
    (match s.course? k, s.team? (k / 16) with
     | some c, some t =>
       let sides := [false, true].filter fun str => decide ((c.slot str).mask ≠ 0#32)
       if c.life ≠ .live ∨ sides.isEmpty then none
       else sides.foldl (fun (o : Option (List (Nat × WaitEdge))) str => o.bind fun es =>
         (instrOf (s.peekWord t c (c.slot str).pc)).bind fun i => (s.slotEdge k str c t i).map fun e => es ++ [(boolNat str, e)]) (some [])
     | _, _ => none)
  | .seq h => (match s.team? h with | some t => (s.seqEdge h t).map fun e => [(2, e)] | none => none)
  | .queued die q => (s.queueEdge die q).map fun e => [(3, e)]

/-- Where a party stands: what it has completed, and its PCs; it has moved when either differs. -/
def State.standing (s : State) (w : Waiter) : Nat × Nat :=
  match w with
  | .course k => (match s.course? k with | some c => (c.moves, c.header.pc.toNat + 2 ^ 32 * c.stretcher.pc.toNat) | none => (0, 0))
  | .seq h => (match s.team? h with | some t => (t.seq.moves, t.seq.pc.toNat) | none => (0, 0))
  | .queued die q => (match (s.queue die q).entries with | (l, n) :: _ => (l.number, n) | [] => (0, 0))

/-- The die that looks after a party. -/
def State.dieOfWaiter (s : State) (w : Waiter) : Nat :=
  match w with
  | .course k => (match s.team? (k / 16) with | some t => dieOfCore t.core | none => 0)
  | .seq h => (match s.team? h with | some t => dieOfCore t.core | none => 0)
  | .queued die _ => die

/-- A party by its kind (0 course, 1 sequencer, 2 queue of a die, 64 to a die) and number. -/
def waiterOf (k n : Nat) : Waiter :=
  match k with
  | 0 => .course n
  | 1 => .seq n
  | _ => .queued (n / 64) (n % 64)

/-- The parties that a list of edges leads to; none when one leads outside the waiting ones. -/
def endersOf (es : List (Nat × WaitEdge)) : Option (List Waiter) :=
  es.foldl (fun (o : Option (List Waiter)) e => o.bind fun ws => e.2.enders.map fun xs => ws ++ xs) (some [])

/-- PROBE_TIMER (R295): the distributor looks at party n of kind k. It notes since when the party has held its edges, and once
that is PROBET, in µs, it sends a probe along them. -/
def execProbeTimer (k n : Nat) (s : State) : Out :=
  let w := waiterOf k n
  let die := s.dieOfWaiter w
  let now := (s.pkg (die / 8)).time
  let others (d : Die) : List (Waiter × List (Nat × Nat × Nat) × (Nat × Nat) × Nat) := d.edgeSince.filter fun x => decide (x.1 ≠ w)
  .next (match s.edgesOf w with
    | none => s.modDie die fun d => { d with edgeSince := others d }
    | some es =>
      let held := es.map fun e => (e.1, e.2.row, e.2.object)
      match (s.die die).edgeSince.find? fun x => decide (x.1 = w) && decide (x.2.1 = held) && decide (x.2.2.1 = s.standing w) with
      | none => s.modDie die fun d => { d with edgeSince := others d ++ [(w, held, s.standing w, now)] }
      | some x =>
        if now < x.2.2.2 + 1000 * bitsOf (s.reg (die / 8) (distBase (die % 8) + 0x104)) 19 10 then s
        else match endersOf es with
        | some ws => s.modDie die fun d => { d with probes := d.probes ++ [{ origin := w, seen := [w], front := ws }] }
        | none => s)

/-- The member entries of a party (R296). -/
def State.memberEntries (s : State) (w : Waiter) : List (List Byte) :=
  let (tid, cid) : Nat × Nat := match w with
    | .course k => ((match s.team? (k / 16) with | some t => t.tid.toNat | none => 0), k % 16)
    | .seq h => ((match s.team? h with | some t => t.tid.toNat | none => 0), 0xFF)
    | .queued die q => ((match (s.queue die q).entries with
        | (l, n) :: _ => die % 8 * 2 ^ 61 + l.number * 2 ^ 16 + n
        | [] => 0), 0xFF)
  ((s.edgesOf w).getD []).map fun e =>
    bytesOf 8 tid ++ bytesOf 1 cid ++ bytesOf 1 e.1 ++ bytesOf 1 e.2.row ++ bytesOf 1 0 ++ bytesOf 4 (e.2.object % 2 ^ 32)

/-- A found cycle (R295, R296): reported once, until a member moves; DEADLOCK is held for the control core. -/
def State.reportCycle (s : State) (die : Nat) (p : Probe) : State :=
  let now := p.seen.map fun w => (w, s.standing w)
  let same (r : List (Waiter × Nat × Nat)) : Bool := (r.all fun x => now.contains x) && (now.all fun x => r.contains x)
  let held := (s.die die).waitReported.filter fun r => r.all fun x => decide (s.standing x.1 = x.2)
  if held.any same then s.modDie die fun d => { d with waitReported := held }
  else
    let all := p.seen.flatMap s.memberEntries
    let ms := all.take 64
    let ms := if all.length ≤ 64 then ms
      else ms.take 63 ++ (ms.drop 63).map fun m => m.take 11 ++ [1#8] ++ m.drop 12
    let base : FaultRec := match p.origin with
      | .course k => (match s.team? (k / 16) with
        | some t => teamRec t 7 (k % 16) 0 0 0 0 0
        | none => { type := 7, asid := 0, core := 0xFFFF, cidSlot := 0, kind := 0, addr := 0, tid := 0, token := 0, info := 0, members := [] })
      | .seq h => (match s.team? h with
        | some t => teamRec t 7 0 2 0 0 0 0
        | none => { type := 7, asid := 0, core := 0xFFFF, cidSlot := 0, kind := 0, addr := 0, tid := 0, token := 0, info := 0, members := [] })
      | .queued d q =>
        { type := 7, asid := (s.queue d q).asid, core := 0xFFFF, cidSlot := 0, kind := 0, addr := 0, tid := 0, token := 0, info := 0, members := [] }
    (s.postFault die { base with members := ms }).modDie die fun d =>
      { d with waitReported := held ++ [now], kcore := { d.kcore with deadlock := true } }

/-- PROBE (R295): probe i of die d arrives at the next party, which forwards it along its own edge when it waits, and
absorbs it otherwise; a probe with nobody left to reach has found a wait cycle. -/
def execProbe (d i : Nat) (s : State) : Out :=
  .next (match (s.die d).probes[i]? with
    | none => s
    | some p =>
      let gone := s.modDie d fun x => { x with probes := x.probes.eraseIdx i }
      match p.front with
      | [] => if (p.seen.all fun w => (s.edgesOf w).isSome) then gone.reportCycle d p else gone
      | w :: rest =>
        if p.seen.contains w then s.modDie d fun x => { x with probes := x.probes.set i { p with front := rest } }
        else match (s.edgesOf w).bind endersOf with
        | none => gone
        | some ws => s.modDie d fun x => { x with probes := x.probes.set i { p with seen := p.seen ++ [w], front := rest ++ ws } })

end Sys2Proof.Machine
end

