-- ==== Sys2Proof/Machine/Power.lean ====
section
/-! DEFINITION. Steps, the slew limiter, the power loop, the kiln, the limits, monitors, power-gating (14_quad_power
R303-R320), and the snapshot's cut, which a step's end takes (21_snapshot R389, R392). -/

namespace Sys2Proof.Machine

open Sys2Proof

/-! ## The cut (R389) -/

/-- PGEN's next value. -/
def nextGen (g : Nat) : Nat := if g = 255 then 1 else g + 1

/-- The die's end of step S is noted; with the last die of DMASK the cut is taken, and held packets are performed. -/
def State.snapClose (s : State) (die id : Nat) : State :=
  let p := die / 8
  let sn := (s.pkg p).snap
  if sn.state ≠ .armed ∨ sn.step ≠ id ∨ !sn.dmask.testBit (die % 8) then s
  else
    let closed := if sn.closed.contains (die % 8) then sn.closed else sn.closed ++ [die % 8]
    let s := s.modPkg p fun x => { x with snap := { x.snap with closed := closed } }
    if (List.range 8).all fun d => !sn.dmask.testBit d || closed.contains d then
      ((s.modPkg p fun x => { x with snap := { x.snap with pgen := nextGen x.snap.pgen, state := .draining } }).snapStatus p 1).releaseHeld p
    else s

/-! ## STEP and STEPE (R310, R311) -/

/-- 1 ≤ (a - b) mod 2^32 < 2^31. -/
def after32 (a b : Nat) : Bool :=
  let d := (a + 2 ^ 32 - b % 2 ^ 32) % 2 ^ 32
  decide (1 ≤ d) && decide (d < 2 ^ 31)

/-- Package time of the executing agent. -/
def State.now (s : State) : Nat := (s.pkg (s.pkgOf s.cur)).time

/-- A processor's step opened or given a new deadline; none when R311 refuses the id. -/
def Proc.openStep (p : Proc) (id dl now : Nat) : Option Proc :=
  let dead := if dl = 0 then 0 else now + dl
  if !p.stepOpen then
    (if after32 id p.stepLast.toNat then some { p with stepOpen := true, stepId := BitVec.ofNat 32 id, stepDl := dead } else none)
  else if p.stepId.toNat = id then some { p with stepDl := dead }
  else none

/-- The kiln's OPEN and RISK bits of a die. -/
def State.kilnOpen (s : State) (a : Agent) (isOpen clearRisk : Bool) : State :=
  match a with
  | .kcore d =>
    let o := pwrBase (d % 8) + 4
    let w := setBits (s.reg (d / 8) o) 31 31 (boolNat isOpen)
    s.setReg (d / 8) o (if clearRisk then setBits w 30 30 0 else w)
  | _ => s

/-- Whether a STEP must wait for the cut (R389). -/
def State.stepWaits (s : State) (id : Nat) (p : Proc) : Bool :=
  match s.cur with
  | .kcore d =>
    let sn := (s.pkg (d / 8)).snap
    !p.stepOpen && decide (sn.state = .armed) && sn.dmask.testBit (d % 8) && after32 id sn.step
  | _ => false

/-- STEP (R310, R311). -/
def execStep (d a : BitVec 6) (x : BitVec 1) (s : State) : Out :=
  s.runWord (.step d a x) (s.groupOp [(d.toNat, false), (a.toNat, false)] fun sc =>
    let id := sc.src false d.toNat
    let dl := sc.src false a.toNat
    match s.cur, s.proc? s.cur with
    | .course k _, _ => .done (s.modTeam (k / 16) fun t =>
        { t with deadline := if dl = 0 then none else some (s.now + dl), optIn := x == 1#1, tag := BitVec.ofNat 32 id,
                 risked := t.risked && decide (t.tag.toNat = id) })
    | a, some p =>
      if s.stepWaits id p then .wait
      else
        (match p.openStep id dl s.now with
         | some p' =>
           let s' := s.setProc a p'
           .done (if p.stepOpen then s' else s'.kilnOpen a true true)
         | none => illegalAt 0x7C 1 3)
    | _, none => .wait)

/-- STEPE (R310, R311). -/
def execStepe (d a : BitVec 6) (s : State) : Out :=
  s.runWord (.stepe d a) (s.groupOp [(a.toNat, false)] fun sc =>
    let id := sc.src false a.toNat
    match s.cur, s.proc? s.cur with
    | .course k _, _ =>
      (match s.team? (k / 16) with
       | none => .wait
       | some t =>
         if t.tag.toNat ≠ id then illegalAt 0x7D 1 3
         else .done ((s.modTeam (k / 16) fun t => { t with deadline := none, optIn := false }).gdst false d.toNat
           (slackOf (t.deadline.getD 0) s.now)))
    | a, some p =>
      if !p.stepOpen || decide (p.stepId.toNat ≠ id) then illegalAt 0x7D 1 3
      else
        let s := (s.setProc a { p with stepOpen := false, stepLast := p.stepId, stepDl := 0 }).kilnOpen a false false
        let s := s.gdst false d.toNat (slackOf p.stepDl s.now)
        .done (match a with
          | .kcore die => s.snapClose die id
          | _ => s)
    | _, none => .wait)

/-! ## The slew limiter (R303-R306) -/

/-- A quad's package, die and register block. -/
def quadAt (q : Nat) : Nat × Nat × Nat := (q / 192, q / 24 % 8, quadBase (q / 24 % 8) (q % 24))

/-- Sectors that a sequencer's next word needs when it is an array word that is ready to start (R304, R305). -/
def State.readyNeed (s : State) (h : Nat) (t : Team) : Option Nat :=
  if t.seq.run ≠ .running ∨ t.seq.pending.isSome ∨ t.seq.token.isSome ∨ t.residency ≠ .resident then none
  else match s.fetch (.seq h) with
  | .word w =>
    if opOf w = 0xC0 then (match t.mmaCheck w with | .ok => some 4 | _ => none)
    else if opOf w = 0xCC then (MPending.fill w).sectors
    else none
  | _ => none

/-- Sectors that a core's array word needs; none when no MMA or MFILL runs or is ready to start (R304): the holder's word
or, while the array is free, that of the first sequencer in the order of R229 whose next word is ready. -/
def State.arrayNeed (s : State) (core : Nat) : Option Nat :=
  let last := (s.core core).arrayLast
  match (s.core core).arrayHolder with
  | some h => (match s.team? h with
    | some t => (match t.seq.pending with | some p => p.sectors | none => none)
    | none => none)
  | none =>
    let ts := s.teamsOn core
    ((ts.filter fun kt => decide (last < kt.1)) ++ ts.filter fun kt => decide (kt.1 ≤ last)).findSome? fun kt => s.readyNeed kt.1 kt.2

/-- Releasing one core's sectors, highest first, at most k. -/
def releaseOne (uf : Int) : Nat → Nat → Int → Nat × Int
  | 0, n, m => (n, m)
  | k + 1, n, m => if n = 0 ∨ m - 12 < uf then (n, m) else releaseOne uf k (n - 1) (m - 12)

/-- Enabling one core's sectors as grout, at most k. -/
def groutOne (uf : Int) : Nat → Nat → Int → Nat × Int
  | 0, n, m => (n, m)
  | k + 1, n, m => if 4 ≤ n ∨ uf ≤ m then (n, m) else groutOne uf k (n + 1) (m + 12)

/-- The limiter's three passes over the cores in order: `need` and sectors of each, and the charge M (R304). -/
def limiterRelease (uf : Int) : List (Option Nat × Nat) → Int → List (Option Nat × Nat) × Int
  | [], m => ([], m)
  | (some n, k) :: cs, m => let r := limiterRelease uf cs m; ((some n, k) :: r.1, r.2)
  | (none, k) :: cs, m =>
    let a := releaseOne uf 4 k m
    let r := limiterRelease uf cs a.2
    ((none, a.1) :: r.1, r.2)
def limiterGrant (uc : Int) : List (Option Nat × Nat) → Int → List (Option Nat × Nat) × Int
  | [], m => ([], m)
  | (some n, k) :: cs, m =>
    let a : Nat × Int := if k < n ∧ m + 12 ≤ uc then (k + 1, m + 12) else (k, m)
    let r := limiterGrant uc cs a.2
    ((some n, a.1) :: r.1, r.2)
  | (none, k) :: cs, m => let r := limiterGrant uc cs m; ((none, k) :: r.1, r.2)
def limiterGrout (uf : Int) : List (Option Nat × Nat) → Int → List (Option Nat × Nat) × Int
  | [], m => ([], m)
  | (some n, k) :: cs, m => let r := limiterGrout uf cs m; ((some n, k) :: r.1, r.2)
  | (none, k) :: cs, m =>
    let a := groutOne uf 4 k m
    let r := limiterGrout uf cs a.2
    ((none, a.1) :: r.1, r.2)

/-- SLEW_STEP (R304): quad q's limiter starts a step. -/
def execSlewStep (q : Nat) (s : State) : Out :=
  .next (let (p, d, base) := quadAt q
    let x := s.quad q
    let w := s.weight p d (q % 24) 12
    let on : Nat := x.sectors.toList.foldl (· + ·) 0
    let l := w * on + x.excess / 4
    let n := if x.level < l then min 15 (x.rises + 1) else 0
    let uf : Int := (l : Int) - (s.reg p (base + 0x30) : Int)
    let uc : Int := (l : Int) + (bitsOf (s.reg p (base + 0x20 + 4 * (n / 4))) (8 * (n % 4) + 7) (8 * (n % 4)) : Int)
    let cs := (List.range 4).map fun i => (s.arrayNeed (4 * q + i), (x.sectors.toList[i]?).getD 0)
    let (cs, m) := limiterRelease uf cs ((w * on : Nat) : Int)
    let (cs, m) := limiterGrant uc cs m
    let (cs, m) := limiterGrout uf cs m
    let h := ((List.range 4).filter fun i => !(s.teamsOn (4 * q + i)).isEmpty).length
    let extra : Int := if h = 0 then 0 else max 0 ((uc - m) / (h : Int))
    s.setQuad q { x with
      sectors := Vector.ofFn fun i => ((cs[i.val]?).map fun c => c.2).getD 0,
      level := l, rises := n, excess := 0, allow := s.reg p (base + 0x18) + extra.toNat })

/-! ## The estimate and the loop (R307, R308) -/

/-- PEST at a voltage for a charge num / den per µs. -/
def pestAt (q v num den temp : Nat) : Nat :=
  Config.chargeEnergy q * v * v * num / (650 * 650 * den * 2 ^ 16) + Config.leakPower q v temp

/-- One run of a quad's controller: the integral and the target. -/
def piStep (i e kp ki vref : Int) (vtgt vmin vmax : Nat) : Int × Nat :=
  let held := (decide (vtgt = vmax) && decide (0 < e)) || (decide (vtgt = vmin) && decide (e < 0))
  let i := if held then i else max (-(2 ^ 24)) (min (2 ^ 24 - 1) (i + e))
  let u := vref + (kp * e + ki * i) / 2 ^ 16
  let v := (max (vmin : Int) (min (vmax : Int) u)).toNat
  (i, v - v % 5)

/-- The regulator's output after one µs: at most 10 mV nearer. -/
def slewMv (v t : Nat) : Nat := if v < t then min t (v + 10) else max t (v - 10)

/-- POWER_ESTIMATE (R307, R308): quad q forms PEST with the temperature its sensor shows, the loop runs, the regulator
moves. A gated quad's rail is off. -/
def execPowerEstimate (q temp : Nat) (s : State) : Out :=
  .next (let (p, d, base) := quadAt q
    let x := s.quad q
    let w := s.reg p (base + 4)
    if w.testBit 31 then s.setQuad q { x with lastCharge := x.charge, charge := 0, temp := temp }
    else
      let vset := bitsOf w 19 10
      let vtgt := bitsOf w 9 0
      let pest := pestAt q vset x.charge 1 temp
      let gains := s.reg p (base + 0x0C)
      let r := piStep x.integral ((s.reg p base : Int) - (pest : Int)) (bitsOf gains 15 0) (bitsOf gains 31 16)
        (s.reg p (base + 0x14)) vtgt (bitsOf (s.reg p (base + 0x10)) 9 0) (s.vmax p d (q % 24))
      let vtgt := if w.testBit 30 then 550 else r.2
      let s := s.setQuad q { x with integral := r.1, lastCharge := x.charge, charge := 0, temp := temp }
      let s := s.setReg p (base + 8) (min (2 ^ 17 - 1) pest)
      s.setReg p (base + 4) (setBits (setBits w 19 10 (slewMv vset vtgt)) 9 0 vtgt))

/-! ## The kiln (R312, R313) -/

/-- The 5 mV set-points, lowest first. -/
def setPoints : List Nat := (List.range 61).map fun i => 550 + 5 * i

/-- What the kiln finds for one quad: its budget, whether it is at risk with the lateness in µs, its predicted slack. -/
structure KilnRes where
  budget : Nat
  risk : Option Nat
  slack : Option Int
  deriving DecidableEq, Repr

/-- The kiln's computation for quad q of a die at a deadline; the measured frequency is R300's, the temperature
the sensor's last. Work w in issue slots, ρ = slots / cycles, times in ns. -/
def State.kilnAt (s : State) (q w slots cycles : Nat) (tr : Int) : KilnRes :=
  let (p, d, _) := quadAt q
  let qcap := s.qcap p d (q % 24)
  let vmax := s.vmax p d (q % 24)
  let x := s.quad q
  let pest (v : Nat) : Nat := pestAt q v (x.lastCharge * freq20 q v * 50) (s.quadKhz q q) x.temp
  let reaches (v : Nat) : Bool := decide (0 < tr) && decide (w * cycles * 20000 ≤ freq20 q v * slots * tr.toNat)
  let v := (setPoints.find? reaches).getD 850
  let vcap := (setPoints.filter fun v => decide (v ≤ vmax) && decide (pest v ≤ qcap)).foldl (fun _ v => v) 550
  let need : Int := (w * cycles * 20000 / (freq20 q vcap * slots) : Nat)
  { budget := min (pest v) qcap
    risk := if reaches vcap then none else some (min 0xFFFFFFFF ((need - tr).toNat / 1000))
    slack := some (tr - need) }

/-- DLRISK for the opted-in teams of a quad, and the event word (R313). -/
def State.raiseRisk (s : State) (die q late : Nat) : State :=
  let p := die / 8
  let o := pwrBase (die % 8)
  let first := !(s.reg p (o + 4)).testBit 30
  let s := s.orReg p (o + 4) (2 ^ 30)
  let s := if first && (s.reg p o).testBit 1 then s.orReg p (distBase (die % 8)) 2 else s
  let ts := (List.range 4).flatMap fun i => s.teamsOn (4 * q + i)
  ts.foldl (fun (s : State) (kt : Nat × Team) =>
    if !kt.2.optIn || kt.2.risked then s
    else
      let s := s.modTeam kt.1 fun t => { t with risked := true }
      (s.coursesOf kt.1).foldl (fun s (kc : Nat × Course) =>
        s.defer kc.1 { cause := .dlRisk, tpc := none, slot := none, taddr := 0#64, tmask := 0#32, tinfo := BitVec.ofNat 32 late }) s) s

/-- One quad's turn of the kiln: the budget written, its slack. -/
def State.kilnQuad (s : State) (die q : Nat) : State × Option Int :=
  let (p, _, base) := quadAt q
  let k := (s.die die).kcore
  let ts := (List.range 4).flatMap fun i => s.teamsOn (4 * q + i)
  let dls := (ts.filterMap fun (kt : Nat × Team) => kt.2.deadline) ++ (if k.stepOpen ∧ k.stepDl ≠ 0 then [k.stepDl] else [])
  let idle (s : State) : State := s.setReg p base (min (s.reg p (pwrBase (die % 8) + 0x10)) (s.qcap p (die % 8) (q % 24)))
  if ts.isEmpty then (idle s, none)
  else if s.gated q then (s, none)
  else match dls with
  | [] => (idle s, none)
  | x :: xs =>
    let tr : Int := ((xs.foldl Nat.min x : Nat) : Int) - ((s.pkg p).time : Int) -
      (1000 * bitsOf (s.reg p (pwrBase (die % 8) + 8)) 15 0 : Nat)
    let w := ts.foldl (fun n (kt : Nat × Team) => n + (kt.2.launch.est - kt.2.issued)) 0
    let y := s.quad q
    let small := decide (64 * y.issues < y.cycles) || decide (y.cycles = 0) || decide (y.issues = 0)
    let r := s.kilnAt q w (if small then 1 else y.issues) (if small then 64 else y.cycles) tr
    let s := s.setReg p base r.budget
    (match r.risk with | some late => s.raiseRisk die q late | none => s, r.slack)

/-- KILN_UPDATE (R312): the kiln of die d, when KEN is set; its interval's counts start again. -/
def execKilnUpdate (d : Nat) (s : State) : Out :=
  .next (let p := d / 8
    let o := pwrBase (d % 8)
    let qs := (List.range 24).map fun q => 24 * d + q
    let clear (s : State) : State := qs.foldl (fun s q => s.modQuad q fun x => { x with issues := 0, cycles := 0 }) s
    if !(s.reg p o).testBit 0 then clear s
    else
      let (s, slacks) := qs.foldl (fun (a : State × List Int) q =>
        let r := a.1.kilnQuad d q
        (r.1, match r.2 with | some x => a.2 ++ [x] | none => a.2)) (s, [])
      let s := match slacks with
        | [] => s
        | x :: xs => s.setReg p (o + 0x0C) (satS32 (xs.foldl min x))
      { clear s with fresh := s.fresh + 3072 })

/-! ## Limits (R318, R319) -/

/-- The integral of every quad of a die zeroed (R308). -/
def State.zeroIntegrals (s : State) (die : Nat) : State :=
  (List.range 24).foldl (fun s q => s.modQuad (24 * die + q) fun x => { x with integral := 0 }) s

/-- SAFE of every die of a package. -/
def State.setSafe (s : State) (p : Nat) (b : Bool) : State :=
  (List.range 8).foldl (fun s d =>
    let w := s.reg p (pwrBase d + 4)
    if w.testBit 29 = b then s else (s.setReg p (pwrBase d + 4) (setBits w 29 29 (boolNat b))).zeroIntegrals (8 * p + d)) s

/-- PMC_HEARTBEAT (R318, R385): a heartbeat of package p's power microcontroller; one of a validated image clears SAFE, and
the first after a reset ends steps 1 to 4 of bring-up (log 113). -/
def execPmcHeartbeat (p : Nat) (v : Bool) (s : State) : Out :=
  .next (if v && !(s.pkg p).held then (s.setSafe p false).modPkg p fun x => { x with booting := false } else s)
/-- HEARTBEAT_MISS (R318). -/
def execHeartbeatMiss (p : Nat) (s : State) : Out := .next (s.setSafe p true)
/-- IMAGE_UPDATE_ANNOUNCE (R318). -/
def execImageUpdateAnnounce (p : Nat) (s : State) : Out := .next (s.setSafe p true)

/-- COMP of every quad of a package; tripping aims every quad at 550 mV (R319). -/
def State.comparator (s : State) (p : Nat) (b : Bool) : State :=
  (List.range 192).foldl (fun s i =>
    let q := 192 * p + i
    let (_, _, base) := quadAt q
    let w := s.reg p (base + 4)
    let w := setBits w 30 30 (boolNat b)
    (s.setReg p (base + 4) (if b then setBits w 9 0 550 else w)).modQuad q fun x => { x with integral := 0 }) s

/-- COMPARATOR_TRIP (R319). -/
def execComparatorTrip (p : Nat) (s : State) : Out := .next (s.comparator p true)
/-- COMPARATOR_RELEASE (R319). -/
def execComparatorRelease (p : Nat) (s : State) : Out := .next (s.comparator p false)

/-- THERM of a quad. -/
def State.therm (s : State) (q : Nat) (b : Bool) : State :=
  let (p, _, base) := quadAt q
  s.setReg p (base + 4) (setBits (s.reg p (base + 4)) 29 29 (boolNat b))
/-- THERMAL_THROTTLE (R319): a quad's sensor shows 105 °C or more (a free value, log 22). -/
def execThermalThrottle (q : Nat) (s : State) : Out :=
  .next ((s.therm q true).modQuad q fun x => { x with temp := max 105 ((s.draw 0).toNat % 256) })
/-- THERMAL_THROTTLE_RELEASE (R319): it shows less than 100 °C. -/
def execThermalThrottleRelease (q : Nat) (s : State) : Out :=
  .next ((s.therm q false).modQuad q fun x => { x with temp := (s.draw 0).toNat % 100 })
/-- THERMAL_TRIP (R319, R384): package p is reset and held. -/
def execThermalTrip (p : Nat) (s : State) : Out :=
  .next ((s.resetPkg p 2).modPkg p fun x => { x with held := true })

/-! ## Monitors (R320) -/

/-- The sample that a channel takes every µs (R320): none for a source that a load, a copy or a joint samples as it ends
(State.sampleSource). Voltage and charge are a quad's: the spec names no quad for a die's channel, whose sample of them is
any value (DESIGN CHOICE, log 111). -/
def State.sampleOf (s : State) (die : Bool) (n v : Nat) (m : Monitor) : Option Nat :=
  let p := if die then n / 8 else n / 192
  match m.src.toNat with
  | 3 => some (s.allowance p (m.param.toNat % 32))
  | 4 => some (if die then v % 2 ^ 32 else bitsOf (s.reg p ((quadAt n).2.2 + 4)) 19 10)
  | 5 => some (if die then v % 2 ^ 32 else (s.quad n).lastCharge)
  | _ => none

/-- MONITOR_SAMPLE (R320): channel ch of quad n, or of die n, takes its sample of the µs. -/
def execMonitorSample (die : Bool) (n ch v : Nat) (s : State) : Out :=
  .next (s.modMonitor die n ch fun m => match s.sampleOf die n v m with | some x => m.sample x | none => m)

/-- MONITOR_CLR (R320). -/
def execMonitorClr (die : Bool) (n ch : Nat) (s : State) : Out := .next (s.modMonitor die n ch fun m => m.write 6 1)

/-! ## Power-gating (R316, R317) -/

/-- SCRATCHPAD_INGRESS_CLOSE (R316): core c, whose last team has left. -/
def execScratchpadIngressClose (c : Nat) (s : State) : Out :=
  .next (if (s.teamsOn c).isEmpty then s.modCore c fun x => { x with ingressClosed := true } else s)

/-- QUAD_GATE (R317). -/
def execQuadGate (q : Nat) (s : State) : Out :=
  .next (let (p, _, base) := quadAt q
    let ready := (List.range 4).all fun i =>
      let c := s.core (4 * q + i)
      c.ingressClosed && c.path.isEmpty && (s.teamsOn (4 * q + i)).isEmpty
    if !ready || s.gated q || decide ((s.pkg p).time < (s.quad q).idleSince + 100000) then s
    else
      let s := (List.range 4).foldl (fun s i => s.modCore (4 * q + i) fun c => { c with l1 := [] }) s
      let w := s.reg p (base + 4)
      s.setReg p (base + 4) (setBits (setBits w 31 31 1) 19 10 0))

/-- QUAD_POWER_UP (R317): the rail of a gated quad with a placement reaches VMIN. -/
def execQuadPowerUp (q : Nat) (s : State) : Out :=
  .next (let (p, _, base) := quadAt q
    let wanted := (List.range 4).any fun i => !(s.teamsOn (4 * q + i)).isEmpty
    let w := s.reg p (base + 4)
    if !wanted || !w.testBit 31 then s
    else s.setReg p (base + 4) (setBits (setBits w 31 31 0) 19 10 (bitsOf (s.reg p (base + 0x10)) 9 0)))

end Sys2Proof.Machine
end

