-- ==== Sys2Proof/Machine/Mortar.lean ====
section
/-! DEFINITION. Mortar (18_mortar R360-R368): tags, operands, meeting routers, halves, joints, orphans; and the replies
that group-wide instructions wait for (06_course_control R141). -/

namespace Sys2Proof.Machine

open Sys2Proof

/-! ## Tags (R360, R361) -/

def tagScope (t : Nat) : Nat := bitsOf t 31 30
def tagDom (t : Nat) : Nat := bitsOf t 29 20
def tagIdx (t : Nat) : Nat := bitsOf t 19 0

/-- The meeting router of a tag, as 48 * die of the wall + router (R360). -/
def tagRouter (t : Nat) : Nat :=
  let h := tagIdx t * 40503 % 2 ^ 20
  match tagScope t with
  | 1 => 48 * tagDom t + h % 48
  | 2 => 384 * tagDom t + h % 384
  | _ => h % 6144

/-- Die and package of an issuer for tags; a Lintel counts as die 0 of its package (R361). -/
def State.tagDie (s : State) (a : Agent) : Nat :=
  match a with
  | .kcore d => d
  | .lintel p => 8 * p
  | .course .. | .seq _ => dieOfCore (s.pathOf a)

/-- DOM of an issuer in a scope, and the die that keeps the allocator of a scope instance. -/
def domOf (scope die : Nat) : Nat := match scope with | 1 => die | 2 => die / 8 | _ => 0
def allocDie (scope dom : Nat) : Nat := match scope with | 1 => dom | 2 => 8 * dom | _ => 0

/-- Whether a tag names an instance (R361). -/
def domOk (t : Nat) : Bool :=
  match tagScope t with
  | 1 => decide (tagDom t ≤ 127)
  | 2 => decide (tagDom t ≤ 15)
  | 3 => decide (tagDom t = 0)
  | _ => false

/-- A block of 64 tags of a scope as an allocator lists it. -/
def blockKey (scope b : Nat) : Nat := scope * 2 ^ 14 + b

/-- The lowest run of k free blocks of a scope. -/
def lowestRun (used : List Nat) (scope k : Nat) : Option Nat :=
  let mine := (used.filter fun u => decide (u / 2 ^ 14 = scope)).map fun u => u % 2 ^ 14
  let free (b : Nat) : Bool := decide (b + k ≤ 2 ^ 14) && mine.all fun u => decide (u < b) || decide (b + k ≤ u)
  ((0 :: mine.map (· + 1)).filter free).foldl (fun r b => match r with
    | none => some b
    | some a => some (min a b)) none

/-- An allocation (R361): the first tag, or 0. -/
def State.tagAlloc (s : State) (scope dom n : Nat) : Nat × State :=
  let die := allocDie scope dom
  let k := (n + 63) / 64
  match lowestRun (s.die die).tagBlocks scope k with
  | none => (0, s)
  | some b =>
    (scope * 2 ^ 30 + dom * 2 ^ 20 + 64 * b,
     s.modDie die fun d => { d with tagBlocks := d.tagBlocks ++ (List.range k).map fun i => blockKey scope (b + i) })

/-- A release of tags (R361): status 0, or 1 when a block was not allocated. -/
def State.tagFree (s : State) (first n : Nat) : Nat × State :=
  let scope := tagScope first
  let die := allocDie scope (tagDom first)
  let lo := tagIdx first / 64
  let hi := (tagIdx first + n - 1) / 64
  let bs := (List.range (hi + 1 - lo)).map fun i => blockKey scope (lo + i)
  if bs.all fun b => (s.die die).tagBlocks.contains b then
    (0, s.modDie die fun d => { d with tagBlocks := d.tagBlocks.filter fun b => !bs.contains b })
  else (1, s)

/-- A request of the executing agent that holds its slot (R141, R361). -/
def State.askGroup (s : State) (opc : Nat) (d : BitVec 6) (op : GroupOp) : Res :=
  .stay ((s.send (.group { agent := s.cur, reg := if d.toNat < 32 then some d.toNat else none, wide := false, op := op,
                           pc := BitVec.ofNat 32 s.pc })).awaitReply opc s.fresh)

/-- A count of tags that R361 allows. -/
def countOk (x : Nat) : Bool := decide (1 ≤ x) && decide (bitsOf x 31 17 = 0) && decide (x ≤ 65536)

/-- MTAGA (R361). -/
def execMtaga (d a : BitVec 6) (sc : BitVec 2) (s : State) : Out :=
  s.runWord (.mtaga d a sc) (s.groupOp [(a.toNat, false)] fun g =>
    let n := g.src false a.toNat
    if !countOk n then illegalAt 0xE0 2 3 else s.askGroup 0xE0 d (.tagAlloc sc.toNat n))

/-- MTAGF (R361). -/
def execMtagf (d a b : BitVec 6) (s : State) : Out :=
  s.runWord (.mtagf d a b) (s.groupOp [(a.toNat, false), (b.toNat, false)] fun g =>
    let first := g.src false a.toNat
    let n := g.src false b.toNat
    if !countOk n then illegalAt 0xE1 3 3
    else if !domOk first ∨ 2 ^ 20 < tagIdx first + n then illegalAt 0xE1 2 3
    else s.askGroup 0xE1 d (.tagFree first n))

/-! ## Replies to group-wide instructions (R141) -/

/-- A held slot goes on: in the running program, or among the slots a handler saved. -/
def Slot.replied (x : Slot) (n : Nat) : Slot :=
  if x.hold = .reply n then { x with pc := x.pc + 4#32, replay := none, hold := .free, kept := none } else x
def Course.replied (c : Course) (n : Nat) : Course :=
  { c with header := c.header.replied n, stretcher := c.stretcher.replied n, xHeader := c.xHeader.replied n,
           xStretcher := c.xStretcher.replied n }

/-- The reply numbered f reaches its agent: gd is written and the slot released; a failure is a deferred cause of a
course (R167), kept with a saved one's team (R443), of an instruction that its handler issued a double trap (R274), and a trap
of a processor. -/
def State.groupAnswered (s : State) (f : Nat) (x : GroupReq) (v : Nat) (fail : Option (Cause × Nat × Word)) : State :=
  let s := s.drop f
  match x.agent with
  | .course k str =>
    (match s.course? k with
     | none => s
     | some c =>
       if c.life = .ended ∨ c.life = .finished then s
       else
         let c := c.replied f
         match fail, x.reg with
         | some (cause, taddr, ti), _ =>
           if c.byHandler f then (s.setCourse k c).handlerFails k str cause x.pc taddr
           else (s.setCourse k c).defer k { cause := cause, tpc := some x.pc, slot := some str, taddr := BitVec.ofNat 64 taddr,
                                            tmask := 0#32, tinfo := ti }
         | none, some r => s.setCourse k { c with sc := c.sc.dst x.wide r v }
         | none, none => s.setCourse k c)
  | .seq _ => s
  | .kcore _ | .lintel _ =>
    (match s.proc? x.agent with
     | none => s
     | some p =>
       if p.hold ≠ .reply f then s
       else match fail with
       | some (cause, taddr, ti) => s.trapProc x.agent cause taddr ti.toNat
       | none => s.setProc x.agent { p with pc := lowPc p.pc (p.pc.toNat + 4), hold := .free, sc := match x.reg with
           | some r => p.sc.dst x.wide r v
           | none => p.sc })

/-- The read of a GLD at its home, or its packet to another package (R141, R406). -/
def State.groupRead (s : State) (f : Nat) (x : GroupReq) (pa va size : Nat) (lanes : Word) (version : Option Nat)
    (asked : Bool) (key : Nat) : State :=
  let core := s.pathOf x.agent
  let own := match x.agent with
    | .course k str => s.ownBytes f k str lanes va size false
    | _ => List.replicate size none
  let mine := match x.agent with
    | .course k str => s.mayRead f k str lanes va pa size false false
    | _ => !isDevice pa || !s.pathDevices core
  if asked || !mine then s
  else if version.isNone && s.readsAway core pa own false false then
    (match s.request (s.readPacket x.agent pa key 0 false) (.flight f) with
     | some s' => s'.setFlight f (.group { x with op := .load pa va size lanes own version true key })
     | none => s)
  else if isDevice pa then s.groupDone f (s.devRead pa size (.agent x.agent)) none
  else if s.readsPoison core pa own version false then s.groupDone f 0 (some (.softErr, va, 0#32))
  else
    let v := ofBytes (s.loadBytes core pa size own version false key)
    (s.noteRead core x.agent lanes pa key false).groupDone f v none

/-- GROUP_REPLY (R141, R361): request f is answered where it is performed, then reaches its agent. One for a bound course
is filed in its record instead (R291). -/
def execGroupReply (f : Nat) (s : State) : Out :=
  .next (match s.flight? f with
    | some (.group x) =>
      (match x.op with
       | .load pa va size lanes _ version asked key => s.groupRead f x pa va size lanes version asked key
       | .tagAlloc scope n =>
         let r := s.tagAlloc scope (domOf scope (s.tagDie x.agent)) n
         r.2.groupDone f r.1 none
       | .tagFree first n =>
         let r := s.tagFree first n
         r.2.groupDone f r.1 none
       | .done v fail => if s.diverted f then s else s.groupAnswered f x v fail
       | .redirect _ | .barrier .. => s)
    | _ => s)

/-! ## MJOIN (R362-R364) -/

/-- The joint of two elements, x0 of party 0 (R81, R362). -/
def jointOf (op x0 x1 : Nat) : Nat :=
  let m (t : ElemType) : AluMode := { et := t, sat := false, rm := 0, ftz := false }
  match op with
  | 0 => (fadd (m .f32) x0 x1).bits
  | 1 => (fadd (m .bf16x2) x0 x1).bits
  | 2 => iadd (m .s32) x0 x1
  | 3 => (fminmax (m .f32) true x0 x1).bits
  | 4 => (fminmax (m .f32) false x0 x1).bits
  | _ => bitXor .s32 x0 x1

/-- The identity of an op (R362). -/
def jointIdentity (op : Nat) : Nat :=
  match op with
  | 0 => 0x80000000 | 1 => 0x80008000 | 3 | 4 => 0x7FC00000 | _ => 0

/-- A descriptor's fields (R363). -/
structure MDesc where
  dst : Nat
  ctr : Nat
  party : Nat
  len : Nat
  src : Nat
  deriving DecidableEq, Repr

/-- A descriptor that R363 allows for a form. -/
def mDescOk (vec : Bool) (w4 w5 w6 w7 : Nat) : Bool :=
  let len := bitsOf w4 5 0
  decide (bitsOf w4 30 6 = 0) && decide (w6 = 0) && decide (w7 = 0) &&
    (if vec then decide (len = 8) && decide (w5 = 0) else decide (1 ≤ len) && decide (len ≤ 32) && decide (w5 % 16 = 0))

/-- Whether a tag's instance holds an issuer on a die (R364). -/
def tagHolds (t die : Nat) : Bool := decide (tagScope t ≠ 0) && decide (tagDom t = domOf (tagScope t) die)

/-- The packet of an operand or half (R408). -/
def MortarOp.packet (o : MortarOp) (dst src : Nat) : Packet :=
  { Packet.blank 0x10 dst src with
    len := lenOf (4 * o.words.length), addr := o.dst, payload := o.words.flatMap fun w => bytesOf 4 w.toNat }

/-- The operand leaves for its router (R364 step 7); to another package it waits for credits (R413). -/
def State.sendOperand (s : State) (o : MortarOp) : Option State :=
  let n := s.fresh
  let s1 := { s with mortar := SMap.put s.mortar n { op := o, place := .travelling, since := 0, order := 0 }, fresh := n + 1 }
  let p := o.router / 384
  if p = o.src then some s1
  else s1.request (o.packet p o.src) (.mortar n)

/-- Steps 6 and 7 (R364) of an operand that its slot has held since a stamp: as FENCE.REL at the tag's scope, with its mark
(R255), then the tile is read, and the operand leaves. -/
def State.mjoinSend (s : State) (k : Nat) (str : Bool) (t : Team) (stamp : Nat) (o : MortarOp) (tile : Option Nat) : Res :=
  let low := match s.course? k with | some c => c.alwLow.toNat | none => 0
  let scope := tagScope o.tag + 1
  let n := o.words.length
  let words : List Word := match tile with
    | some a => (List.range n).map fun i => BitVec.ofNat 32 (ofBytes (t.spBytes (a + 4 * i) 4))
    | none => o.words
  if !s.released k str stamp scope || s.spOutstanding k str then .wait
  else match (match tile with | some a => if t.spPoisoned a (4 * n) then some a else none | none => none) with
  | some a => .stay ((s.modCourse k fun c => c.setSlot str { c.slot str with hold := .free }).takeTrap .softErr a 0 0)
  | none =>
    if o.router / 384 ≠ o.src ∧ s.allowance o.src (o.router / 384) < low then .wait
    else match (s.markFor scope (s.pathOf (.course k str))).sendOperand { o with words := words } with
      | some s => .done s
      | none => .wait

/-- Steps 6 and 7 begin: the slot holds the operand as read at issue until it has left. -/
def State.mjoinHold (s : State) (k : Nat) (str : Bool) (t : Team) (o : MortarOp) (tile : Option Nat) : Res :=
  let s' := (s.modCourse k fun c =>
    (if c.handler then c.thaw else c).setSlot str { c.slot str with hold := .joining s.fresh o tile }).tick
  match s'.mjoinSend k str t s.fresh o tile with
  | .wait => .stay s'
  | r => r

/-- Step 5's checks of DST and CTR (R364); `go` gets the state, and address and leaf of DST and of CTR. -/
def State.mjoinTargets (s : State) (x : MDesc) (go : State → Nat → Nat → Nat → Nat → Res) : Res :=
  if x.dst % 16 ≠ 0 ∨ 512 < x.dst % 512 + 16 * x.len then .trap .align x.dst 0 16
  else match s.oneAccess x.dst 16 .store (fun _ => false) 0xE2 with
  | .res r => r
  | .ok s pa leaf =>
    if x.ctr = 0 then go s pa leaf 0 0
    else match s.oneAccess x.ctr 8 .store (fun _ => false) 0xE2 with
    | .res r => r
    | .ok s cpa cleaf => go s pa leaf cpa cleaf

/-- Steps 4 and 5 (R364), and the operand they make. -/
def State.mjoinTagged (s : State) (k : Nat) (str : Bool) (t : Team) (vec : Bool) (op tag : Nat) (x : MDesc)
    (lanes : List Word) : Res :=
  if !tagHolds tag (dieOfCore t.core) then illegalAt 0xE2 3 3
  else s.mjoinTargets x fun s pa leaf cpa cleaf =>
    let src := pkgOfCore t.core
    let o : MortarOp :=
      { tag := tag, op := op, party := x.party, words := if vec then lanes else List.replicate (4 * x.len) 0#32, dst := pa,
        dstVa := x.dst, ctr := cpa, key := k, router := tagRouter tag, issued := (s.pkg src).time, src := src, snap := snapMark leaf,
        keyId := leafKey leaf, ctrSnap := snapMark cleaf, ctrKey := leafKey cleaf, core := t.core, asid := t.launch.asid }
    if vec then s.mjoinHold k str t o none
    else if t.spSize < x.src + 16 * x.len then .trap .spBound x.src 0 0
    else s.mjoinHold k str t o (some x.src)

/-- The element type of an op (R362): k1 and km1 read as its constants (R444). -/
def jointType (op : Nat) : ElemType :=
  match op with
  | 0 | 3 | 4 => .f32
  | 1 => .bf16x2
  | _ => .s32

/-- MJOIN up to the tag (R364 steps 1 to 3). A parked one re-executes whole; one that step 6 holds has been read (R363). A
team whose version R287 has committed early raises VERSIONBAN no more. -/
def State.mjoin (s : State) (vec : Bool) (d a b op : Nat) : Res :=
  s.asCourse fun k str c =>
    match s.team? (k / 16) with
    | none => .wait
    | some t =>
      match (c.slot str).hold with
      | .joining stamp o tile => s.mjoinSend k str t stamp o tile
      | _ =>
      let r (i : Nat) : Nat := (c.sc.reg (a + i)).toNat
      let x : MDesc := { dst := r 0 + 2 ^ 32 * r 1, ctr := r 2 + 2 ^ 32 * r 3, party := bitsOf (r 4) 31 31,
                         len := bitsOf (r 4) 5 0, src := r 5 }
      if t.version.isSome then .trap .versionBan 0 0 (0xE2 * 2 ^ 24)
      else match c.sc.checks ((List.range 8).map fun i => (a + i, false)) with
      | some e => e
      | none =>
        if !mDescOk vec (r 4) (r 5) (r 6) (r 7) then illegalAt 0xE2 2 3
        else if vec then
          let act := maskOf fun l => (c.slot str).mask.getLsbD l && c.guard l
          match c.checks act [⟨d, jointType op, 15⟩, ⟨b, .n32, 14⟩] none with
          | some e => e
          | none =>
            match lanesOf act with
            | [] => .done s
            | l :: _ => s.mjoinTagged k str t true op (c.src .n32 b l) x ((List.range 32).map fun i =>
                BitVec.ofNat 32 (if act.getLsbD i then c.src (jointType op) d i else jointIdentity op))
        else match c.sc.checks [(b, false)] with
        | some e => e
        | none => s.mjoinTagged k str t false op (c.sc.src false b) x []

/-- MJOIN, vector form (R364). -/
def execMjoinVector (d a b : BitVec 6) (p : BitVec 3) (s : State) : Out :=
  s.runWord (.mjoinVector d a b p) (s.mjoin true d.toNat a.toNat b.toNat p.toNat)

/-- MJOIN, group form (R364). -/
def execMjoinGroup (a b : BitVec 6) (p : BitVec 3) (s : State) : Out :=
  s.runWord (.mjoinGroup a b p) (s.mjoin false 0 a.toNat b.toNat p.toNat)

/-! ## The meeting router (R365-R368) -/

/-- Two operands that meet: different parties, all else equal. -/
def MortarOp.meets (x y : MortarOp) : Bool :=
  decide (x.tag = y.tag) && decide (x.party ≠ y.party) && decide (x.op = y.op) &&
    decide (x.words.length = y.words.length) && decide (x.dst = y.dst) && decide (x.ctr = y.ctr)

/-- The half table's record of an operand, and whether an operand meets a record. -/
def MortarOp.half (x : MortarOp) : HalfRec :=
  { tag := x.tag, op := x.op, party := x.party, len := x.words.length, dst := x.dst, ctr := x.ctr, router := x.router }
def HalfRec.meets (h : HalfRec) (x : MortarOp) : Bool :=
  decide (h.router = x.router) && decide (h.party ≠ x.party) && decide ({ h with party := x.party } = x.half)

/-- ORPHAN or TAGOVERRUN in the team that sent an operand (R368). -/
def State.raiseMortar (s : State) (o : MortarOp) (cause : Cause) : State :=
  let h : HeldCause := { cause := cause, tpc := none, slot := none, taddr := BitVec.ofNat 64 o.dstVa, tmask := 0#32,
                         tinfo := BitVec.ofNat 32 o.tag }
  match s.course? o.key with
  | some c => if c.party then s.defer o.key h else s.deferTeam (o.key / 16) h
  | none => s.deferTeam (o.key / 16) h

/-- A die's mortar counter (R369). -/
def State.countMortar (s : State) (die off : Nat) : State := s.countReg (die / 8) (distBase (die % 8) + off) 1

/-- The 32-byte blocks of a tile at its destination (R366). -/
def jointChunks (dst n : Nat) : List Nat := List.range ((dst % 32 + n + 31) / 32)

/-- A tile on its way to DST (R366, R368): `add` is what CTR then receives, `from'` the operands it delivers. -/
def State.putJoint (s : State) (o : MortarOp) (words : List Word) (die add : Nat) (from' : List MortarOp) : State :=
  let j : Joint :=
    { dst := o.dst, bytes := words.flatMap fun w => bytesOf 4 w.toNat, left := jointChunks o.dst (4 * words.length),
      ctr := o.ctr, add := add, die := die, snap := o.snap, keyId := o.keyId, ctrSnap := o.ctrSnap, ctrKey := o.ctrKey,
      sent := false, adding := false, joined := from'.map fun y => (y.asid, y.core, y.issued) }
  { s with joints := SMap.put s.joints s.fresh j, fresh := s.fresh + 1 }

/-- The joint of two operands that meet (R366). -/
def State.joinPair (s : State) (x y : MortarOp) (die : Nat) : State :=
  let x0 := if x.party = 0 then x else y
  let x1 := if x.party = 0 then y else x
  s.putJoint x0 ((x0.words.zip x1.words).map fun e => BitVec.ofNat 32 (jointOf x.op e.1.toNat e.2.toNat)) die 2 [x, y]

/-- The packet that carries operand m and has come past any relay. -/
def State.mortarPacket (s : State) (m : Nat) : Option (Nat × Packet) :=
  List.find? (fun (nk : Nat × Packet) => decide (nk.2.type = 0x10) && !nk.2.det && (match s.txOf nk.2 with
    | some t => decide (t.serves = .mortar m)
    | none => false)) s.packets

/-- The packet's credits return, and its transaction is answered (R413). -/
def State.mortarTaken (s : State) (p : Option (Nat × Packet)) : State :=
  match p with
  | none => s
  | some (n, k) => (s.leave n k).answer k { Packet.blank 0x06 k.src k.dst with addr := k.addr }

def State.setMortar (s : State) (m : Nat) (e : MortarEntry) : State := { s with mortar := SMap.put s.mortar m e }
def State.dropMortar (s : State) (m : Nat) : State := { s with mortar := SMap.del s.mortar m }

/-- Operands of a router at a place. -/
def State.mortarAt (s : State) (router : Nat) (place : MortarPlace) : SMap MortarEntry :=
  s.mortar.filter fun (kv : Nat × MortarEntry) => decide (kv.2.op.router = router) && decide (kv.2.place = place)

/-- Adding to and removing from the half table of a router. -/
def State.modHalves (s : State) (router : Nat) (f : List HalfRec → List HalfRec) : State :=
  s.modDie (router / 48) fun d => { d with halves := f d.halves }

/-- The table of R365 for operand m, which has arrived with packet p, if it came in one. -/
def State.routeOperand (s : State) (m : Nat) (e : MortarEntry) (p : Option (Nat × Packet)) : State :=
  let o := e.op
  let die := o.router / 48
  let stored := s.mortarAt o.router .stored
  let halves := (s.die die).halves.filter fun h => decide (h.router = o.router)
  let held := (s.mortarAt o.router .heldInput).filter fun (kv : Nat × MortarEntry) => decide (kv.1 ≠ m)
  let waitsBehind := held.any fun (kv : Nat × MortarEntry) => decide (e.place ≠ .heldInput) || decide (kv.2.order < e.order)
  let asHalf (s : State) : State := (s.countMortar die 0x304).setMortar m { e with place := .half }
  match List.find? (fun (kv : Nat × MortarEntry) => kv.2.op.meets o) stored, halves.find? fun h => h.meets o with
  | some (n, y), _ => (((s.mortarTaken p).dropMortar n).dropMortar m).joinPair y.op o die
  | none, some h => (asHalf (s.mortarTaken p)).modHalves o.router fun hs => hs.filter fun x => decide (x ≠ h)
  | none, none =>
    if (stored.any fun (kv : Nat × MortarEntry) => decide (kv.2.op.tag = o.tag)) || (halves.any fun h => decide (h.tag = o.tag)) then
      (((s.mortarTaken p).dropMortar m).countMortar die 0x30C).raiseMortar o .tagOverrun
    else if !waitsBehind && decide (stored.length < 64) then
      (s.mortarTaken p).setMortar m { e with place := .stored, since := (s.pkg (die / 8)).time }
    else if !waitsBehind && decide (halves.length < 256) then
      (asHalf (s.mortarTaken p)).modHalves o.router fun hs => hs ++ [o.half]
    else if e.place = .heldInput then s
    else (s.setMortar m { e with place := .heldInput, order := s.fresh }).tick

/-- Whether an operand of the same course to the same router was sent before and has not arrived: a path keeps the
order of its messages (R301). -/
def State.operandBehind (s : State) (m : Nat) (e : MortarEntry) : Bool :=
  List.any s.mortar fun (kv : Nat × MortarEntry) => decide (kv.1 < m) && decide (kv.2.place = .travelling) &&
    decide (kv.2.op.key = e.op.key) && decide (kv.2.op.router = e.op.router)

/-- MORTAR_OPERAND (R365): operand m at its router, arriving or held at the input. -/
def execMortarOperand (m : Nat) (s : State) : Out :=
  .next (match SMap.find? s.mortar m with
    | none => s
    | some e =>
      if e.place ≠ .travelling ∧ e.place ≠ .heldInput then s
      else if decide (e.place = .travelling) && s.operandBehind m e then s
      else if e.op.router / 384 = e.op.src then s.routeOperand m e none
      else match s.mortarPacket m with
      | some p => s.routeOperand m e (some p)
      | none => s)

/-- Halves held at the slice of DST's first line (R367). -/
def State.halfStore (s : State) (dst : Nat) : SMap MortarEntry :=
  s.mortar.filter fun (kv : Nat × MortarEntry) => decide (kv.2.place = .halfStored) &&
    decide (homeDie kv.2.op.dst = homeDie dst) && decide (homeSlice kv.2.op.dst = homeSlice dst)

/-- A half at the slice: held, or the second of its tag (R367). -/
def State.takeHalf (s : State) (m : Nat) (e : MortarEntry) (p : Option (Nat × Packet)) : State :=
  let o := e.op
  let die := homeDie o.dst
  let store := s.halfStore o.dst
  match List.find? (fun (kv : Nat × MortarEntry) => kv.2.op.meets o) store with
  | some (n, y) => (((s.mortarTaken p).dropMortar n).dropMortar m).joinPair y.op o die
  | none =>
    if store.any fun (kv : Nat × MortarEntry) => decide (kv.2.op.tag = o.tag) then
      (((s.mortarTaken p).dropMortar m).countMortar die 0x30C).raiseMortar o .tagOverrun
    else if 16 ≤ store.length then s
    else (s.mortarTaken p).setMortar m { e with place := .halfStored, since := (s.pkg (die / 8)).time }

/-- HALF_ARRIVAL (R367): half m goes on to DST's home slice. -/
def execHalfArrival (m : Nat) (s : State) : Out :=
  .next (match SMap.find? s.mortar m with
    | none => s
    | some e =>
      let home := e.op.dst / 2 ^ 48
      match e.place with
      | .half =>
        if home = e.op.router / 384 then s.takeHalf m e none
        else (match s.request (e.op.packet home (e.op.router / 384)) (.mortar m) with
              | some s' => s'.setMortar m { e with place := .halfSent }
              | none => s)
      | .halfSent => (match s.mortarPacket m with
        | some p => s.takeHalf m e (some p)
        | none => s)
      | _ => s)

/-- ORPHAN_TIMEOUT (R368): a stored operand or held half whose time has run out is delivered alone. -/
def execOrphanTimeout (m : Nat) (s : State) : Out :=
  .next (match SMap.find? s.mortar m with
    | none => s
    | some e =>
      let half := decide (e.place = .halfStored)
      let die := if half then homeDie e.op.dst else e.op.router / 48
      let orpht := s.reg (die / 8) (distBase (die % 8) + 0x300)
      if !half && decide (e.place ≠ .stored) then s
      else if (s.pkg (die / 8)).time < e.since + 1000 * orpht then s
      else
        let s := (s.dropMortar m).putJoint e.op e.op.words die 1 [e.op]
        let s := if half then s.modHalves e.op.router fun hs => hs.filter fun x => decide (x ≠ e.op.half) else s
        (s.countMortar die 0x308).raiseMortar e.op .orphan)

/-! ## Joints (R366) -/

/-- Block c of a joint performed at its home in the same package. -/
def State.jointChunk (s : State) (x : Joint) (c : Nat) : State :=
  let lo := max x.dst (x.dst / 32 * 32 + 32 * c)
  let hi := min (x.dst + x.bytes.length) (x.dst / 32 * 32 + 32 * c + 32)
  let bs := ((x.bytes.drop (lo - x.dst)).take (hi - lo)).map some
  if isDevice lo then (deviceWrites bs).foldl (fun s w => s.devWrite (lo + w.1) w.2.1 w.2.2 (.agent (.kcore x.die))) s
  else s.homeWriteKey lo bs x.snap x.keyId

/-- CTR's add at its home slice, a release at .wall on path J; one of a poisoned line is not performed (R345). It is
protected as a write through CTR's leaf is (R390). -/
def State.jointCounter (s : State) (j : Nat) (x : Joint) : State :=
  if x.ctr = 0 then { s with joints := SMap.del s.joints j }
  else if isDevice x.ctr || s.poisoned x.ctr then s.jointDone j x false
  else if !s.unshared x.ctr then s.invalidate x.ctr
  else
    let s := s.keyLine x.ctr x.ctrKey x.ctrSnap
    (s.performWrite x.ctr ((bytesOf 8 ((s.natAt x.ctr 8 + x.add) % 2 ^ 64)).map some) x.ctrSnap 2 (kcorePath x.die) 4 0 0).2.jointDone j x true

/-- CTR's add goes to its home in another package as an atomic does (R366, R408; log 109). -/
def State.jointAdd (s : State) (j : Nat) (x : Joint) : State :=
  { s with joints := SMap.put s.joints j { x with adding := true } }.send (.atom
    { owner := .kcore x.die, mask := 0#32, pc := 0#32, op := 0, et := .n64, ftz := false, size := 8, pa := x.ctr, va := 0,
      order := .relaxed, scope := 4, stamp := 0, counter := none, version := none, snap := x.ctrSnap, keyId := x.ctrKey,
      step := (s.die x.die).kcore.stepId.toNat % 2 ^ 16, sent := false, mark := none, half := none, copy := some j, engine := none,
      lanes := [{ lane := 0, reg := none, x := x.add, cmp := 0 }] })

/-- The packet of a joint for another package (R408). -/
def State.jointPacket (s : State) (x : Joint) : Packet :=
  let home := x.dst / 2 ^ 48
  { Packet.blank 0x11 home (x.die / 8) with
    len := lenOf x.bytes.length, addr := x.dst, snap := s.snapBit home x.snap, key := x.keyId,
    step := (s.die x.die).kcore.stepId.toNat % 2 ^ 16, payload := x.bytes, mask := x.bytes.map fun _ => true }

/-- JOINT_COUNTER_ADD (R366): the block c of joint j is performed, or the joint is sent to DST's package; once every
block is, CTR receives its add. -/
def execJointCounterAdd (j c : Nat) (s : State) : Out :=
  .next (match SMap.find? s.joints j with
    | none => s
    | some x =>
      let home := x.dst / 2 ^ 48
      if x.left = [] then
        (if x.adding then s
         else if x.ctr = 0 ∨ x.ctr / 2 ^ 48 = x.die / 8 then s.jointCounter j x
         else s.jointAdd j x)
      else if home = x.die / 8 then
        (if ¬ x.left.contains c then s
         else if !s.unshared (x.dst / 32 * 32 + 32 * c) then s.invalidate (x.dst / 32 * 32 + 32 * c)
         else
           let s := s.jointChunk x c
           { s with joints := SMap.put s.joints j { x with left := x.left.filter fun y => decide (y ≠ c) } })
      else if x.sent then s
      else match s.request (s.jointPacket x) (.joint j) with
        | some s' => { s' with joints := SMap.put s'.joints j { x with sent := true } }
        | none => s)

/-- JOINT_WRITE (R408). -/
def execJointWrite (n : Nat) (s : State) : Out := .next (s.ingress n 0x11 (s.takePacket n))

end Sys2Proof.Machine
end

