-- ==== Sys2Proof/Machine/DieMem.lean ====
section
/-! DEFINITION. Keys, page migration, region table and soft errors (16_die_memory R336-R345, 08_core R199). -/

namespace Sys2Proof.Machine

open Sys2Proof

/-! ## Keys (R342, R343) -/

/-- Bytes at an address as a control core loads them, with the frame check of R343: the bytes and whether every frame is
secure, or what ended the access. -/
def State.keyBytes (s : State) (va : Nat) : (List Byte × Bool) ⊕ Res :=
  (List.range 64).foldl (fun (a : (List Byte × Bool) ⊕ Res) i => match a with
    | .inr r => .inr r
    | .inl (bs, sec) => (match s.oneAccess (va + i) 1 .load (fun _ => false) 0xE6 with
      | .res r => .inr r
      | .ok _ pa leaf => if s.poisoned pa then .inr (.trap .softErr (va + i) 0 0)
        else .inl (bs ++ [s.freshByte s.myPath pa (leafKey leaf)], sec && (s.secureFrame pa).isSome))) (.inl ([], true))

/-- The lines of a package that a key id tags: written under it, by their directory entries. -/
def State.taggedLines (s : State) (pkg id : Nat) : List Nat :=
  ((List.map (fun (kl : Nat × DirLine) => kl.1) s.dir) ++ List.map (fun (kl : Nat × List Byte × Nat) => kl.1) s.dirty).filter fun l =>
    decide (128 * l / 2 ^ 48 = pkg) && decide ((SMap.getD s.dir DirLine.init l).key = id)

/-- A key id takes a new key, or none (R342, R343): its lines are written back and leave the LLC, and with them every line of the
package's L1s, which may leave at any time (R255), whatever id it was read through. The bytes in HBM stand as they were written
under the old key material, and read as other bytes under new. -/
def State.setKey (s : State) (pkg id : Nat) (k : Option KeyState) : State :=
  let s : State := { s with cores := List.map (fun (kc : Nat × Core) =>
    (if kc.1 < 12288 ∧ pkgOfCore kc.1 = pkg then (kc.1, { kc.2 with l1 := [], l1Rel := [] }) else kc)) s.cores }
  let s := (s.taggedLines pkg id).foldl (fun s l => s.leaveLlc (128 * l)) s
  s.modPkg pkg fun p => { p with keys := match k with | some x => SMap.put p.keys id x | none => SMap.del p.keys id }

/-- KEYLD (R343): once no other package holds a line that the id tags (R325). Key material that is loaded is named by its bytes, random material by a number of its own (log 21). -/
def execKeyld (d a b : BitVec 6) (w : BitVec 1) (p : BitVec 2) (s : State) : Out :=
  s.runWord (.keyld d a b w p) (s.groupOp ([(a.toNat, false)] ++ if p = 0#2 then [(b.toNat, true)] else []) fun sc =>
    s.asKcore fun die =>
      let pkg := die / 8
      let id := sc.src false a.toNat
      let status (s : State) (n : Nat) : Res := .done (s.gdst false d.toNat n)
      let set (s : State) (k : Option KeyState) : Res :=
        match (s.taggedLines pkg id).find? fun l => !s.unshared (128 * l) with
        | some l => .stay (s.invalidate (128 * l))
        | none => status (s.setKey pkg id k) 0
      let key (m : Nat) : KeyState := { valid := true, secure := w == 1#1, mat := m }
      if !(s.kcoreXlat die).secure then .trap .secViol 0 0 24
      else if 4096 ≤ id then status s 2
      else match p.toNat with
      | 0 =>
        (match s.keyBytes (sc.src true b.toNat) with
         | .inr r => r
         | .inl (bs, sec) =>
           if !sec then status s 3
           else if bs.take 32 = bs.drop 32 then status s 1
           else set s (some (key (2 * ofBytes bs + 2))))
      | 1 => set s.tick (some (key (2 * s.fresh + 1)))
      | _ => set s none)

/-! ## Page migration (R336-R338) -/

/-- Bytes of a frame size code. -/
def migrSize (z : Nat) : Nat := match z with | 0 => 2 ^ 16 | 1 => 2 ^ 21 | _ => 2 ^ 30

/-- A frame that may move: aligned, in the wall, in HBM. -/
def frameOk (pa n : Nat) : Bool := decide (pa % n = 0) && decide (pa < 2 ^ 52) && isHbm pa && isHbm (pa + n - 1)

/-- Every active migration of the wall. -/
def State.migrations (s : State) : List Migration := List.flatMap (fun (kd : Nat × Die) => kd.2.migrations) s.dies

/-- Status 2 of a .CPY. -/
def State.migrRefused (s : State) (old new n : Nat) : Bool :=
  !frameOk old n || !frameOk new n || overlaps old n new n ||
    s.migrations.any fun m => [m.old, m.new].any fun f => overlaps f m.size old n || overlaps f m.size new n

/-- MIGR.CPY (R337): the migration begins and holds the control core until its last line has been copied. -/
def execMigrCpy (d a b : BitVec 6) (z : BitVec 2) (s : State) : Out :=
  s.runWord (.migrCpy d a b z) (s.groupOp [(a.toNat, true), (b.toNat, true)] fun sc => s.asKcore fun die =>
    let old := sc.src true a.toNat
    let new := sc.src true b.toNat
    let n := migrSize z.toNat
    let ms := (s.die die).migrations
    let mine (m : Migration) : Bool := decide (m.old = old) && decide (m.new = new) && decide (m.size = n) && !m.done
    match ms.find? mine with
    | some m =>
      if 128 * m.moved < n then .wait
      else .done ((s.modDie die fun y => { y with
        migrations := y.migrations.map fun x => if mine x then { x with done := true } else x }).gdst false d.toNat
          (if m.poisoned then 3 else 0))
    | none =>
      if 4 ≤ ms.length then .done (s.gdst false d.toNat 1)
      else if s.migrRefused old new n then .done (s.gdst false d.toNat 2)
      else
        let m : Migration := { old := old, new := new, size := n, moved := 0, poisoned := false, done := false }
        .stay (s.modDie die fun y =>
          { y with migrations := y.migrations ++ [m], kcore := { y.kcore with hold := .fence s.fresh } }).tick)

/-- MIGR.END (R338): the TLBIs issued earlier have completed; forwarding stops. -/
def execMigrEnd (d a b : BitVec 6) (z : BitVec 2) (s : State) : Out :=
  s.runWord (.migrEnd d a b z) (s.groupOp [(a.toNat, true), (b.toNat, true)] fun sc => s.asKcore fun die =>
    let mine (m : Migration) : Bool := decide (m.old = sc.src true a.toNat) && decide (m.new = sc.src true b.toNat) &&
      decide (m.size = migrSize z.toNat) && m.done
    if (s.die die).migrations.any mine then
      .done ((s.modDie die fun y => { y with migrations := y.migrations.filter fun m => !mine m }).gdst false d.toNat 0)
    else .done (s.gdst false d.toNat 2))

/-- Whether a version holds a byte of a line. -/
def State.versionHolds (s : State) (line : Nat) : Bool :=
  List.any s.teams fun (kt : Nat × Team) => match kt.2.version with
    | some v => List.any v fun (kb : Nat × Byte) => decide (lineOf kb.1 = line)
    | none => false

/-- MIGRATION_LINE_COPY (R337): the next line of migration i of die d, held by no version and, once invalidated, by no
cache elsewhere, moves with its bytes, stamps and poison: in its new package it is under that package's material of its key id
(R342). -/
def execMigrationLineCopy (d i : Nat) (s : State) : Out :=
  .next (match (s.die d).migrations[i]? with
    | none => s
    | some m =>
      let a := m.old + 128 * m.moved
      if m.done || decide (m.size ≤ 128 * m.moved) || s.versionHolds (lineOf a) then s
      else if !s.unshared a then s.invalidate a
      else
        let l := SMap.getD s.dir DirLine.init (lineOf a)
        let b := m.new + 128 * m.moved
        let bs := s.ownBytesAt a 128
        let mat := match SMap.find? (s.pkg (b / 2 ^ 48)).keys l.key with | some k => k.mat | none => l.mat
        let s := (s.touch b).writeBack a
        let s : State := { s with
          mem := s.mem.setBytes b bs
          dir := SMap.setD s.dir DirLine.init (lineOf b) { l with dsh := 0#8, psh := 0#16, mat := mat } }
        s.modDie d fun y => { y with migrations := y.migrations.zipIdx.map fun x =>
          if x.2 = i then { x.1 with moved := x.1.moved + 1, poisoned := x.1.poisoned || l.poi } else x.1 })

/-! ## The region table (R340) -/

/-- REGION_ENTRY_WRITE (R340): word w of entry n of die d written by a secure agent. -/
def execRegionEntryWrite (d n w v : Nat) (s : State) : Out :=
  .next (if Config.secMode (d / 8) ∧ n < 256 ∧ w < 4 then s.regionWrite (d / 8) (d % 8) n w v else s)

/-! ## Soft errors (R199, R344, R345) -/

/-- A line of the machine's memory becomes poisoned, or its copies are dropped with it. -/
def State.poisonLine (s : State) (pa : Nat) (dropCopies : Bool) : State :=
  let l := s.line pa
  (if dropCopies then s.dropHeld pa else s).setLine pa (if dropCopies then { l with poi := true, whole := 0, dsh := 0#8, psh := 0#16 } else { l with poi := true, whole := 0 })

/-- The counters and record of an uncorrectable error (R344, R345). -/
def State.reportError (s : State) (die structure' pa : Nat) : State :=
  let p := die / 8
  let b := memBase (die % 8)
  let s := s.countReg p (b + 0x104) 1
  let s := (s.setReg p (b + 0x108) (pa % 2 ^ 32)).setReg p (b + 0x10C) (pa / 2 ^ 32)
  s.postFault die { type := 8, asid := 0, core := 0xFFFF, cidSlot := 0, kind := 0, addr := pa, tid := 0, token := 0,
                    info := structure', members := [] }

/-- A lane's register or queue age poisoned. -/
def Lane.poisonNamed (x : Lane) (k : Nat) : Lane := { x with nPoison := x.nPoison ||| BitVec.ofNat 32 (2 ^ k) }
def Lane.poisonAge (x : Lane) (k : Nat) : Lane := { x with qPoison := x.qPoison ||| BitVec.ofNat 16 (2 ^ k) }
def Scalar.poison (x : Scalar) (k : Nat) : Scalar := { x with gPoison := x.gPoison ||| BitVec.ofNat 32 (2 ^ k) }
def Course.poisonLane (c : Course) (l : Nat) (f : Lane → Lane) : Course := c.mapLanes fun i x => if i = l then f x else x
def Team.poisonSlot (t : Team) (j line : Nat) : Team :=
  { t with slots := Vector.ofFn fun i => if i.val = j then { t.slots[i] with poison := t.slots[i].poison ++ [line] } else t.slots[i] }

/-- What a TLB or walker-cache entry names (R327, R328): a frame, or the next table. -/
def TlbEntry.target (e : TlbEntry) : Nat := if e.table then bitsOf e.leaf 51 8 * 256 else bitsOf e.leaf 63 28 * 2 ^ 16

/-- UNCORRECTABLE_ERROR (R345, R199) in a structure k: 0 HBM, 1 LLC data, 2 directory, of line x; 3 entry x of the TLBs of
die n; 4 line x of the L1 of core n; 5 named register y and 6 queue age y of lane x, 7 group register x, of course n; 8
scratchpad word x, 9 tile x, 10 line y of weight slot x, of team n; 11 group register x of control core n, 12 of Lintel n; 13
entry x of the TLB of core n, 14 of quad n. -/
def execUncorrectableError (k n x y : Nat) (s : State) : Out :=
  .next (match k with
    | 0 | 1 => if isHbm x ∨ isHost x then (s.poisonLine x false).reportError (homeDie x) k (x % 2 ^ 52) else s
    | 2 => if isHbm x ∨ isHost x then (s.poisonLine x true).reportError (homeDie x) 2 (x % 2 ^ 52) else s
    | 3 => (match (s.die n).tlb[x]? with
      | some e => (s.modDie n fun d => { d with tlb := d.tlb.eraseIdx x }).reportError n 3 e.target
      | none => s)
    | 4 => s.modCore n fun c => { c with l1 := SMap.del c.l1 x }
    | 5 => s.modCourse n fun c => c.poisonLane x fun l => l.poisonNamed y
    | 6 => s.modCourse n fun c => c.poisonLane x fun l => l.poisonAge y
    | 7 => s.modCourse n fun c => { c with sc := c.sc.poison x }
    | 8 => s.modTeam n fun t => if 4 * x < t.spSize then { t with spPoison := SMap.put t.spPoison x true } else t
    | 9 => s.modTeam n fun t => { t with tilePoison := x :: t.tilePoison.filter fun z => decide (z ≠ x) }
    | 10 => s.modTeam n fun t => t.poisonSlot x y
    | 11 => s.modDie n fun d => { d with kcore := { d.kcore with sc := d.kcore.sc.poison x } }
    | 12 => s.modPkg n fun p => { p with lintel := { p.lintel with sc := p.lintel.sc.poison x } }
    | 13 => (match (s.core n).tlb[x]? with
      | some e => (s.modCore n fun c => { c with tlb := c.tlb.eraseIdx x }).reportError (dieOfCore n) 3 e.target
      | none => s)
    | 14 => (match (s.quad n).tlb[x]? with
      | some e => (s.modQuad n fun q => { q with tlb := q.tlb.eraseIdx x }).reportError (n / 24) 3 e.target
      | none => s)
    | _ => s)

/-- PATROL_SCRUB (R344): a line is read and a correction, if one was made, is written back and counted at its home die. The
address tells the structure: HBM, by the scrubber or a demand read; host memory, LLC data and the directory; the register
window, the TLBs and walker caches of the register's die (log 115). -/
def execPatrolScrub (pa : Nat) (corrected : Bool) (s : State) : Out :=
  .next (if corrected then s.countReg (homeDie pa / 8) (memBase (homeDie pa % 8) + 0x100) 1 else s)

/-- ECC_COUNTER_CLR (R344). -/
def execEccCounterClr (d : Nat) (s : State) : Out :=
  .next ((s.setReg (d / 8) (memBase (d % 8) + 0x100) 0).setReg (d / 8) (memBase (d % 8) + 0x104) 0)

end Sys2Proof.Machine
end

