-- ==== Sys2Proof/Machine/Snapshot.lean ====
section
/-! DEFINITION. The snapshot engine's instructions, drain and completion (21_snapshot R387-R394). The cut stands with
STEPE, copy-on-write with the write at the home, the hold and the log with arriving packets. -/

namespace Sys2Proof.Machine

open Sys2Proof

/-- Bytes of a descriptor through a control core's translation, 64 at a time (R387): none when a read faults. -/
def State.descPieces (s : State) (x : Xlat) (path va : Nat) : Nat → Option (List Byte)
  | 0 => some []
  | n + 1 =>
    match s.translate x va .load false with
    | .ok pa leaf =>
      if isDevice pa || s.poisoned pa then none
      else match s.descPieces x path (va + 64) n with
        | some bs => some ((List.range 64).map (fun i => s.freshByte path (pa + i) (leafKey leaf)) ++ bs)
        | none => none
    | _ => none

/-- A descriptor's fields (R388). -/
structure SnapDesc where
  target : Nat
  route : Nat
  dmask : Nat
  mapBase : Nat
  shadow : Nat
  shLen : Nat
  logLen : Nat
  log : Nat
  cap : Nat
  nrange : Nat
  ranges : List (Nat × Nat)
  deriving DecidableEq, Repr

def snapField (b : List Byte) (o n : Nat) : Nat := ofBytes ((b.drop o).take n)
def SnapDesc.of (b : List Byte) : SnapDesc :=
  let n := snapField b 0x31 1
  { target := snapField b 0 8, route := snapField b 8 4, dmask := snapField b 0xC 4, mapBase := snapField b 0x10 8,
    shadow := snapField b 0x18 8, shLen := snapField b 0x20 4, logLen := snapField b 0x24 4, log := snapField b 0x28 8,
    cap := snapField b 0x30 1, nrange := n,
    ranges := (List.range n).map fun r => (snapField b (0x40 + 16 * r) 8, snapField b (0x48 + 16 * r) 8) }

/-- Lines of the ranges. -/
def rangeLines (rs : List (Nat × Nat)) : Nat := (rs.map fun r => r.2 / 128).foldl (· + ·) 0

/-- The line address of a map index. -/
def rangeLine : List (Nat × Nat) → Nat → Option Nat
  | [], _ => none
  | (b, n) :: rs, i => if i < n / 128 then some (b + 128 * i) else rangeLine rs (i - n / 128)

/-- A region in a package's HBM. -/
def inHbm (pkg pa n : Nat) : Bool := decide (pkg * 2 ^ 48 ≤ pa) && decide (pa + n ≤ pkg * 2 ^ 48 + regLo)

/-- Reserved bits, multiples and places of R388, of a record's first 64 bytes and its ranges. -/
def SnapDesc.ok (d : SnapDesc) (b : List Byte) (pkg : Nat) : Bool :=
  let m := rangeLines d.ranges
  decide (bitsOf d.route 30 6 = 0) && decide (1 ≤ d.dmask) && decide (d.dmask < 256) &&
  decide (d.mapBase % 128 = 0) && decide (d.shadow % 128 = 0) && decide (d.log % 128 = 0) &&
  decide (d.shLen % 160 = 0) && decide (d.logLen % 160 = 0) && decide (d.cap ≤ 50) &&
  decide (1 ≤ d.nrange) && decide (d.nrange ≤ 64) && decide (snapField b 0x32 2 = 0) && decide (snapField b 0x34 8 = 0) &&
  (d.ranges.all fun r => decide (r.1 % 65536 = 0) && decide (r.2 % 65536 = 0) && inHbm pkg r.1 r.2) &&
  inHbm pkg d.mapBase m && inHbm pkg d.shadow d.shLen && inHbm pkg d.log d.logLen &&
  !overlaps d.mapBase m d.shadow d.shLen && !overlaps d.mapBase m d.log d.logLen && !overlaps d.shadow d.shLen d.log d.logLen &&
  d.ranges.all fun r => !overlaps d.mapBase m r.1 r.2 && !overlaps d.shadow d.shLen r.1 r.2 && !overlaps d.log d.logLen r.1 r.2

/-- The descriptor at a VA, and the PA of its STATUS; none for status 2. -/
def State.snapDesc (s : State) (die va : Nat) : Option (SnapDesc × Nat) :=
  let x := s.kcoreXlat die
  if va % 64 ≠ 0 then none
  else match s.descPieces x (kcorePath die) va 1, s.translate x va .load false with
    | some head, .ok pa _ =>
      (match s.descPieces x (kcorePath die) va (1 + (snapField head 0x31 1 + 3) / 4) with
       | some b => if (SnapDesc.of b).ok b (die / 8) then some (SnapDesc.of b, pa + 0x3C) else none
       | none => none)
    | _, _ => none

/-- The engine's state for an accepted descriptor. -/
def Snap.load (sn : Snap) (d : SnapDesc) (step statusPa : Nat) (st : SnapState) : Snap :=
  { sn with state := st, step := step, target := d.target, route := d.route, dmask := d.dmask, closed := [],
            mapBase := d.mapBase, shadow := d.shadow, log := d.log, shLen := d.shLen, logLen := d.logLen,
            cap := if d.cap = 0 then 10 else d.cap, ranges := d.ranges, statusPa := statusPa, held := [], shRecs := 0,
            logRecs := 0, drained := [], drainPoison := [], shPoison := [] }

/-- SNAP.ARM (R387, R389). -/
def execSnapArm (d a b : BitVec 6) (s : State) : Out :=
  s.runWord (.snapArm d a b) (s.groupOp [(a.toNat, false), (b.toNat, true)] fun sc => s.asKcore fun die =>
    let p := die / 8
    let step := sc.src false a.toNat
    let status (s : State) (n : Nat) : Res := .done (s.gdst false d.toNat n)
    if (s.pkg p).snap.state ≠ .idle then status s 1
    else match s.snapDesc die (sc.src true b.toNat) with
    | none => status s 2
    | some (x, pa) =>
      if (List.range 8).any fun i => x.dmask.testBit i && !after32 step (s.die (8 * p + i)).kcore.stepLast.toNat then status s 3
      else
        let s := s.engineWrite x.mapBase (List.replicate (rangeLines x.ranges) 0#8)
        let s := s.modPkg p fun k => { k with snap := k.snap.load x step pa .armed }
        status (s.snapStatus p 0) 0)

/-- SNAP.CANCEL (R387, R394). -/
def execSnapCancel (d a : BitVec 6) (s : State) : Out :=
  s.runWord (.snapCancel d a) (s.asKcore fun die =>
    let p := die / 8
    if (s.pkg p).snap.state = .idle then .done (s.gdst false d.toNat 1) else .done (((s.snapFail p 5).releaseHeld p).gdst false d.toNat 0))

/-- SNAP.LOAD (R387, R394). -/
def execSnapLoad (d a b : BitVec 6) (s : State) : Out :=
  s.runWord (.snapLoad d a b) (s.groupOp [(b.toNat, true)] fun sc => s.asKcore fun die =>
    let p := die / 8
    let status (s : State) (n : Nat) : Res := .done (s.gdst false d.toNat n)
    if (s.pkg p).snap.state ≠ .idle then status s 1
    else match s.snapDesc die (sc.src true b.toNat) with
    | none => status s 2
    | some (x, pa) => status (s.modPkg p fun k => { k with snap := k.snap.load x k.snap.step pa .loading }) 0)

/-! ## Drain and completion (R393, R394) -/

/-- Whether the stream may move: over a circuit the barrier is live and lent to the engine (R393, R427). -/
def Pkg.snapRoute (x : Pkg) : Bool :=
  let r := x.snap.route
  r.testBit 31 || (let b := SMap.getD x.bars CircuitBar.init (r % 64)
                   decide (b.state = 3) && b.lent && decide (b.borrower = 2))

/-- Whether a record of the shadow or the log lies in a poisoned line of its region (R394). -/
def State.recordLost (s : State) (at' : Nat) : Bool := s.poisoned at' || s.poisoned (at' + 159)

/-- The number of the shadow record of a line, and its bytes. -/
def State.shadowOf (s : State) (sn : Snap) (line : Nat) : Option (Nat × List Byte) :=
  ((List.range sn.shRecs).find? fun i => decide (s.ownNat (sn.shadow + 160 * i) 8 = line)).map fun i =>
    (i, s.ownBytesAt (sn.shadow + 160 * i + 32) 128)

/-- SNAPSHOT_DRAIN_LINE (R393): the drain of package p reads the line of map index i, or its shadow, with the poison of what it
reads (R345); the engine fails on a poisoned map byte or record (R394). -/
def execSnapshotDrainLine (p i : Nat) (s : State) : Out :=
  .next (let x := s.pkg p
    let sn := x.snap
    match rangeLine sn.ranges i with
    | none => s
    | some l =>
      if sn.state ≠ .draining ∨ (SMap.find? sn.drained i).isSome ∨ !x.snapRoute then s
      else if s.poisoned (sn.mapBase + i) then s.snapFail p 4
      else
        let marked := decide ((s.ownByte (sn.mapBase + i)).toNat = sn.pgen)
        let take (s : State) (bytes : List Byte) (poison : Bool) : State := s.modPkg p fun k => { k with snap := { k.snap with
          drained := SMap.put k.snap.drained i bytes
          drainPoison := if poison then k.snap.drainPoison ++ [i] else k.snap.drainPoison } }
        match (if marked then s.shadowOf sn l else none) with
        | some (n, bytes) =>
          if s.recordLost (sn.shadow + 160 * n) then s.snapFail p 4 else take s bytes (sn.shPoison.contains n)
        | none =>
          take (s.engineWrite (sn.mapBase + i) [BitVec.ofNat 8 sn.pgen]) (s.ownBytesAt l 128) (s.poisoned l))

/-- The log records of a line laid over its image, in order. -/
def State.applyLog (s : State) (sn : Snap) (line : Nat) (bytes : List Byte) : List Byte :=
  (List.range sn.logRecs).foldl (fun bs k =>
    let o := sn.log + 160 * k
    if s.ownNat o 8 = line then
      let mask := s.ownNat (o + 16) 16
      (bs.zip (s.ownBytesAt (o + 32) 128)).zipIdx.map fun x => if mask.testBit x.2 then x.1.2 else x.1.1
    else bs) bytes

/-- The image as it is streamed (R393). -/
def State.snapImage (s : State) (p : Nat) : List Byte :=
  let sn := (s.pkg p).snap
  bytesOf 4 sn.step ++ bytesOf 2 Config.wallId.toNat ++ bytesOf 1 p ++ bytesOf 1 sn.pgen ++ bytesOf 4 sn.ranges.length ++
    bytesOf 4 (rangeLines sn.ranges) ++ List.replicate 48 0#8 ++
    (sn.ranges.flatMap fun r => bytesOf 8 r.1 ++ bytesOf 8 r.2) ++
    List.flatMap (fun (ib : Nat × List Byte) => match rangeLine sn.ranges ib.1 with
      | some l => s.applyLog sn l ib.2
      | none => []) sn.drained

/-- SNAPSHOT_DONE (R394): every byte has been sent and acknowledged; a poisoned log record fails the engine. -/
def execSnapshotDone (p : Nat) (s : State) : Out :=
  .next (let sn := (s.pkg p).snap
    if sn.state ≠ .draining ∨ sn.drained.length ≠ rangeLines sn.ranges then s
    else if (List.range sn.logRecs).any fun i => s.recordLost (sn.log + 160 * i) then s.snapFail p 4
    else
      let msg : OutMsg := { kind := 2, pkg := p, info := sn.target :: sn.drainPoison, bytes := s.snapImage p }
      let s : State := { s with outbox := s.outbox ++ [msg] }
      (s.snapStatus p 2).modPkg p fun k => { k with snap := { k.snap with state := .idle } })

/-- A line of a snapshot's ranges that another package still holds a copy of (R325). -/
def State.rangeShared (s : State) (rs : List (Nat × Nat)) : Option Nat :=
  ((List.range (rangeLines rs)).filterMap (rangeLine rs)).find? fun l => !s.unshared l

/-- SNAPSHOT_LOAD_COMPLETE (R394): the image's lines come from the storage service, in range order, with the map indices
of poisoned ones, once no other package holds a copy of one (R325); a load that fails leaves memory as it is. -/
def execSnapshotLoadComplete (p : Nat) (done : Bool) (image : List (BitVec 8)) (poison : List Nat) (s : State) : Out :=
  .next (let sn := (s.pkg p).snap
    if sn.state ≠ .loading then s
    else match (if done then s.rangeShared sn.ranges else none) with
    | some l => s.invalidate l
    | none =>
      let s := if !done then s.snapStatus p (3 * 256 + 3) else
        ((List.range (rangeLines sn.ranges)).foldl (fun s i => match rangeLine sn.ranges i with
          | some l =>
            let s := s.engineWrite l ((image.drop (128 * i)).take 128)
            if poison.contains i then s.poisonLine l false else s
          | none => s) s).snapStatus p 2
      s.modPkg p fun k => { k with snap := { k.snap with state := .idle } })

end Sys2Proof.Machine
end

