-- ==== Sys2Proof/Machine/HostPort.lean ====
section
/-! DEFINITION. Hosts and the package's control blocks (20_package R374-R386): kicks and launch packets, the keystone,
host memory accesses, register writes from outside, resets. -/

namespace Sys2Proof.Machine

open Sys2Proof

/-! ## Kicks and launch packets (R382, R383) -/

/-- Whether BAR0 and BAR2 of a package answer: from step 5 of its bring-up on (R385). -/
def State.hostAnswers (s : State) (p : Nat) : Bool := !(s.pkg p).held && !(s.pkg p).booting

/-- KICK_SLOT_READ (R382): the next read for the i-th kick of package p. -/
def execKickSlotRead (p i : Nat) (s : State) : Out :=
  .next (match (s.pkg p).kicks[i]? with
    | some k => if k.checked.isSome then s else s.kickRead p k
    | none => s)

/-- DMASK of a packet, as dies of a package. -/
def packetDies (pkg : Nat) (bs : List Byte) : List Nat :=
  ((List.range 8).filter fun d => (packetField bs 0x10 1).testBit d).map fun d => 8 * pkg + d

/-- KICK_APPEND (R383): the i-th kick's checked packet joins the pending lists of its dies, once each has a free entry; of
kicks whose dies all have one, the earlier goes first. What its port received before it, and the packet's start sees, was
performed before the kick was taken (R378). -/
def execKickAppend (p i : Nat) (s : State) : Out :=
  .next (match (s.pkg p).kicks[i]? with
    | none => s
    | some k =>
      match k.checked with
      | none => s
      | some bs =>
        let dies := packetDies p bs
        let full (d : Nat) : Bool := decide (64 ≤ (s.die d).pending.length)
        let earlier := ((s.pkg p).kicks.take i).any fun y => match y.checked with
          | some b => (packetDies p b).any dies.contains && !(packetDies p b).any full
          | none => false
        if earlier || dies.any full then s
        else
          let s := dies.foldl (fun s d => s.modDie d fun y => { y with pending := y.pending ++ [bs] }) s
          (s.setReg p (portBase k.port + 0x10) k.seq).kickOver p k)

/-- Group registers of a program that starts (R383, R418). -/
def Scalar.start (x : Scalar) (w : Nat → Nat) : Scalar :=
  { x with g := Vector.ofFn fun i => BitVec.ofNat 32 (w i.val), gp := 0x80#8, gPoison := 0#32 }

/-- PACKET_START (R383): die d's idle control core, with RUN set and HALT clear, takes its oldest packet. -/
def execPacketStart (d : Nat) (s : State) : Out :=
  .next (let y := s.die d
    let run := (s.reg (d / 8) (pkgBase + 0x10)).testBit (d % 8)
    let halt := (s.reg (d / 8) (distBase (d % 8) + 0x14)).testBit 1
    match y.pending with
    | [] => s
    | bs :: rest =>
      if y.kcore.running || !run || halt then s
      else
        let w (i : Nat) : Nat := if i < 2 then packetField bs (8 + 4 * i) 4
          else if i ≤ 10 then packetField bs (0x14 + 4 * (i - 2)) 4 else 0
        s.setDie d { y with pending := rest, kcore :=
          { y.kcore with pc := BitVec.ofNat 64 (packetField bs 0 8), sc := y.kcore.sc.start w, running := true,
                         alone := false, hold := .free } })

/-! ## The keystone (R379) -/

/-- KEYSTONE_RELEASE (R379). -/
def execKeystoneRelease (p port : Nat) (s : State) : Out :=
  .next (s.modPkg p fun x => if x.owner = some port then { x with keyOwner := none } else x)

/-- KEYSTONE_LEASE_EXPIRY (R379). -/
def execKeystoneLeaseExpiry (p : Nat) (s : State) : Out :=
  .next (s.modPkg p fun x => if x.time < x.keyLease then x else { x with keyOwner := none })

/-! ## Host memory (R378) -/

/-- Whether a BAR2 access is refused (R341, R378): a secure frame, or a key that is invalid or secure. -/
def State.hostRefused (s : State) (pa key : Nat) : Bool :=
  (s.secureFrame pa).isSome || (!isHost pa && match SMap.find? (s.pkg (pa / 2 ^ 48)).keys key with
    | some k => !k.valid || k.secure
    | none => true)

/-- What a host read of n bytes gets, and whether it is refused. -/
def State.hostAnswer (s : State) (pkg port : Nat) (bytes : List Byte) (refused : Bool) : State :=
  { s with outbox := s.outbox ++ [{ kind := 3, pkg := pkg, info := [port, boolNat refused], bytes := bytes }] }

/-- The keystone as a read of a port leaves it (R379): a lease is 100 ms. -/
def Pkg.keystoneRead (x : Pkg) (port : Nat) : Pkg :=
  match x.owner with
  | some q => if q = port then { x with keyLease := x.time + 100000000 } else x
  | none => { x with keyOwner := some port, keyLease := x.time + 100000000 }

/-- A host's read of registers through a port of package p (R374): one that takes in the keystone claims or renews it before
it reads (R379). -/
def State.hostRead (s : State) (p port pa len : Nat) : State :=
  let s := if overlaps pa len (regPa p (pkgBase + 4)) 4 then s.modPkg p fun x => x.keystoneRead port else s
  s.hostAnswer p port ((List.range len).flatMap fun i => bytesOf 1 (s.devRead (pa + i) 1 (.host port))) false

/-- Whether writes that a port has received still wait: what it receives after them comes behind (R323, R378). -/
def State.portWaits (s : State) (p port : Nat) : Bool := (s.pkg p).hostWrites.any fun w => decide (w.port = port)

/-- KEYSTONE_READ (R379): a port reads the keystone. -/
def execKeystoneRead (p port : Nat) (s : State) : Out :=
  .next (if port < 2 && s.hostAnswers p && !s.portWaits p port then s.hostRead p port (regPa p (pkgBase + 4)) 4 else s)

/-- A refused access of a host (R341, R378): counted where the region table decides, and a read is answered so. -/
def State.hostRefuse (s : State) (p port pa : Nat) (write : Bool) : State :=
  let s := if (s.secureFrame pa).isSome then
    s.modDie (homeDie pa) fun d => { d with secCount := d.secCount + 1, secAddr := pa } else s
  if write then s else s.hostAnswer p port [] true
/-- Whether a BAR2 access reaches nothing: an address without memory, registers of the secure world alone, or a refusal. -/
def State.hostBarred (s : State) (pa key : Nat) : Bool :=
  isReserved pa || secureOnly pa || (s.hostRefused pa key && !isDevice pa)

/-- A host's write performed (R374, R378); none while another package holds a copy of the line (R325). -/
def State.hostPerform (s : State) (p : Nat) (w : HostWrite) : Option State :=
  let n := w.bytes.length
  if s.hostBarred w.pa w.key then some (s.hostRefuse p w.port w.pa true)
  else if isDevice w.pa then
    some (if (n = 4 ∨ n = 8) ∧ w.pa % n = 0 then s.devWrite w.pa n (ofBytes w.bytes) (.host w.port) else s)
  else if !s.unshared w.pa then none
  else some (s.homeWriteKey w.pa (w.bytes.map some) none w.key)

/-- The oldest write that waits at a port goes on: performed, or its line's copies invalidated. -/
def State.hostDrain (s : State) (p port : Nat) : State :=
  match (s.pkg p).hostWrites.find? fun w => decide (w.port = port) with
  | none => s
  | some w =>
    match s.hostPerform p w with
    | some t => t.modPkg p fun x => { x with hostWrites := x.hostWrites.erase w }
    | none => s.invalidate w.pa

/-- A write received by a port: behind those that wait (R378). -/
def State.hostReceive (s : State) (p : Nat) (w : HostWrite) : State :=
  let first := !s.portWaits p w.port
  let s := s.modPkg p fun x => { x with hostWrites := x.hostWrites ++ [w] }
  if first then s.hostDrain p w.port else s

/-- KICK (R382): one 64-bit write to the kick register of a port of package p, in its turn among the port's writes (R378). -/
def execKick (p port v : Nat) (s : State) : Out :=
  .next (if port < 2 && s.hostAnswers p then
      s.hostReceive p { port := port, pa := regPa p (portBase port), key := 0, bytes := bytesOf 8 v }
    else s)

/-- HOST_MEMORY_ACCESS (R378) at offset o of BAR2 of a port of package p: a write of some bytes within a line, or a read of n
bytes of one, not there yet while writes of the port wait (log 113); a write of none lets the oldest of these go on. Ports 2 and 3 name BAR0 of ports 0 and 1,
where o is an offset of the register window (R374). -/
def execHostMemoryAccess (p port o n : Nat) (write : Bool) (data : List (BitVec 8)) (s : State) : Out :=
  .next (let bar0 := decide (2 ≤ port)
    let q := port % 2
    let win := s.reg p (portBase q + 0x18)
    let pa := if bar0 then regPa p o else (bitsOf win 31 16 * 2 ^ 36 + o) % 2 ^ 52
    let key := bitsOf win 11 0
    let len := if write then data.length else n
    if 4 ≤ port ∨ (if bar0 then 2 ^ 32 else 2 ^ 36) ≤ o ∨ 128 < pa % 128 + len ∨ !s.hostAnswers p then s
    else if len = 0 then (if write then s.hostDrain p q else s)
    else if write then s.hostReceive p { port := q, pa := pa, key := key, bytes := data }
    else if s.portWaits p q then s
    else if s.hostBarred pa key then s.hostRefuse p q pa false
    else if isDevice pa then s.hostRead p q pa len
    else if s.poisoned pa then s.hostAnswer p q [] true
    else s.hostAnswer p q (s.bytesUnder pa len key) false)

/-! ## Register writes (R374) -/

/-- REGISTER_WRITE (R374): src 0 and 1 the host ports, 2 the power microcontroller of package p, writing at an offset of
the register window; a port's in its turn among the port's writes (R378). -/
def execRegisterWrite (p src off size v : Nat) (s : State) : Out :=
  .next (let pa := regPa p off
    if 2 < src ∨ 2 ^ 32 ≤ off ∨ (size ≠ 4 ∧ size ≠ 8) ∨ off % size ≠ 0 ∨ secureOnly pa ∨ (src ≠ 2 ∧ !s.hostAnswers p) then s
    else if src = 2 then s.devWrite pa size (v % 2 ^ (8 * size)) .micro
    else s.hostReceive p { port := src, pa := pa, key := 0, bytes := bytesOf size v })

/-! ## Resets (R384, R385) -/

/-- POWER_ON (R384, R385): the package is reset and brought up with SAFE set. -/
def execPowerOn (p : Nat) (s : State) : Out := .next (s.resetPkg p 1)
/-- PKGRST_WRITE (R384). -/
def execPkgrstWrite (p : Nat) (s : State) : Out := .next (s.resetPkg p 4)
/-- PMC_WATCHDOG_RESET (R384). -/
def execPmcWatchdogReset (p : Nat) (s : State) : Out := .next (s.resetPkg p 8)

/-- PORT_RESET (R384): the port's block and slots, its kicks, its keystone. -/
def execPortReset (p port : Nat) (s : State) : Out :=
  .next (if 2 ≤ port then s
    else
      let lo := regPa p (portBase port)
      let s : State := { s with dev := s.dev.filter fun (kw : Nat × Word) => !(decide (lo ≤ kw.1) && decide (kw.1 < lo + 0x1000)) }
      s.modPkg p fun x => { x with kicks := x.kicks.filter fun k => decide (k.port ≠ port),
                                   hostWrites := x.hostWrites.filter fun w => decide (w.port ≠ port),
                                   keyOwner := if x.keyOwner = some port then none else x.keyOwner })

/-- HBM_THERMAL_THROTTLE (R386): a stack's sensor shows 95 °C or more (a free value, log 22), and its controller halves its
bandwidth. -/
def execHbmThermalThrottle (p stack : Nat) (s : State) : Out :=
  .next (s.modPkg p fun x => { x with
    hbmHot := if x.hbmHot.contains stack then x.hbmHot else x.hbmHot ++ [stack],
    hbmTemp := SMap.put x.hbmTemp stack (max 95 ((s.draw 0).toNat % 256)) })
/-- HBM_THERMAL_RELEASE (R386): it shows less than 90 °C. -/
def execHbmThermalRelease (p stack : Nat) (s : State) : Out :=
  .next (s.modPkg p fun x => { x with
    hbmHot := x.hbmHot.filter fun y => decide (y ≠ stack), hbmTemp := SMap.put x.hbmTemp stack ((s.draw 0).toNat % 90) })

end Sys2Proof.Machine
end

