-- ==== Sys2Proof/Machine/Optics.lean ====
section
/-! DEFINITION. The optical engines and their ports (22_optical_ports R396-R404), with what a port's change does to its
circuit-live barrier, its copies and its wall traffic (R221, R400, R402, R415, R421). -/

namespace Sys2Proof.Machine

open Sys2Proof

/-! ## Ports, engines and barriers -/

/-- The engines whose fibres carry a port (R397): a wall link has channels on every wall engine. -/
def portEngines (n : Nat) : List Nat := if n < 32 then [8 + n / 4] else List.range 8
/-- The ports of an engine. -/
def enginePorts (e : Nat) : List Nat :=
  if e < 8 then (List.range 16).map (32 + ·) else (List.range 4).map fun f => 4 * (e - 8) + f
/-- Channels of a port, and those it needs (R397, R398). -/
def portChannels (n : Nat) : Nat := if n < 32 then 16 else 32
def portNeeds (n : Nat) : Nat := portChannels n / 2

def Pkg.port (x : Pkg) (n : Nat) : Port := SMap.getD x.ports Port.init n
def Pkg.bar (x : Pkg) (b : Nat) : CircuitBar := SMap.getD x.bars CircuitBar.init b
def State.setPort (s : State) (p n : Nat) (y : Port) : State := s.modPkg p fun x => { x with ports := SMap.put x.ports n y }
def State.modEngine (s : State) (p e : Nat) (f : Engine → Engine) : State :=
  s.modPkg p fun x => { x with engines := SMap.put x.engines e (f (x.engine e)) }
def State.setBar (s : State) (p b : Nat) (y : CircuitBar) : State := s.modPkg p fun x => { x with bars := SMap.put x.bars b y }

/-- The barrier that holds a circuit port (R421). -/
def Pkg.barOf (x : Pkg) (n : Nat) : Option (Nat × CircuitBar) :=
  if 32 ≤ n then none
  else List.find? (fun (kb : Nat × CircuitBar) => decide (kb.2.state ≠ 0) && decide (kb.2.port = n)) x.bars

/-- Whether every microcontroller and UCIe link of a port's engines runs. -/
def Pkg.mcRuns (x : Pkg) (n : Nat) : Bool := (portEngines n).all fun e => (x.engine e).mcRun
def Pkg.linksUp (x : Pkg) (n : Nat) : Bool := (portEngines n).all fun e => (x.engine e).ucUp

/-! ## What a lost port does -/

/-- Copies of a barrier that have bytes not acknowledged and meet a condition fail (R221, R421). -/
def State.failCopies (s : State) (p b : Nat) (which : Copy → Bool) : State :=
  { s with copies := s.copies.map fun (kc : Nat × Copy) =>
      if decide (kc.2.bar = some b) && decide (pkgOfCore kc.2.core = p) && kc.2.failed.isNone &&
          decide (kc.2.acked < kc.2.count) && which kc.2 then
        (kc.1, { kc.2 with failed := some (BitVec.ofNat 64 (dSrc kc.2.desc)) }) else kc }

/-- The chunks of a port are gone: no answer can return. -/
def State.dropChunks (s : State) (p n : Nat) : State :=
  { s with circuitChunks := s.circuitChunks.filter fun (kc : Nat × CircuitChunk) => !(decide (kc.2.pkg = p) && decide (kc.2.port = n)) }

/-- A barrier fails (R421): the reason, and its copies; a snapshot stream over it fails with reason 3 (R394). -/
def State.failBar (s : State) (p b reason : Nat) : State :=
  let y := (s.pkg p).bar b
  let s := (s.setBar p b { y with state := 5, reason := reason }).failCopies p b fun _ => true
  let sn := (s.pkg p).snap
  if sn.state = .draining ∧ !sn.route.testBit 31 ∧ sn.route % 64 = b then s.snapFail p 3 else s

/-- Freeing a barrier: its lending ends (R421, R429); the number of its last request stays (R425). -/
def State.freeBar (s : State) (p b : Nat) : State :=
  s.setBar p b { CircuitBar.init with seq := ((s.pkg p).bar b).seq }

/-- The wall transactions whose flits a port that goes dark had not got acknowledged, requests and answers, are resolved by fate
queries of their sources (R400, R415). -/
def State.failFlits (s : State) (p n : Nat) : State :=
  let owners := ((s.pkg p).port n).unacked.map Prod.snd
  if n < 32 then s.dropChunks p n
  else owners.foldl (fun s o => match SMap.find? (s.pkg o.1).txs o.2 with
    | some t =>
      if t.query ≠ 0 then s
      else s.queryFate o.1 o.2 t
    | none => s) s

/-- A port goes dark other than by a release (R399, R400): LAST, its flits, its barrier. -/
def State.goDark (s : State) (p n : Nat) (last : Option Nat) : State :=
  let x := s.pkg p
  let y := x.port n
  let s := s.failFlits p n
  let s := s.setPort p n { y with state := .dark, last := last.getD y.last, live := 0, since := x.time, awaitMc := false,
                                  releasing := false, unacked := [] }
  match x.barOf n with
  | some (b, z) => if z.closing then s.freeBar p b else if z.state = 5 then s else s.failBar p b 2
  | none => s

/-- A port enters quarantine (R399, R402). -/
def State.quarantine (s : State) (p n : Nat) : State :=
  let x := s.pkg p
  let y := x.port n
  let s := (if n < 32 then s.dropChunks p n else s).setPort p n { y with state := .quarantine, last := 3, live := 0, since := x.time, releasing := false }
  match x.barOf n with
  | some (b, _) => s.failBar p b 3
  | none => s

/-- A port enters locking from live or hold (R399): from hold it waits for the microcontroller. A live barrier becomes
connecting (R421). -/
def State.relock (s : State) (p n : Nat) (last : Option Nat) : State :=
  let x := s.pkg p
  let y := x.port n
  let s := s.setPort p n { y with state := .locking, last := last.getD y.last, since := x.time,
                                  awaitMc := decide (y.state = .hold) }
  match x.barOf n with
  | some (b, z) => if z.state = 3 then s.setBar p b { z with state := 2 } else s
  | none => s

/-- A port becomes live (R399): the flits kept are resent and counted (R400); its barrier is live (R421). -/
def State.goLive (s : State) (p n : Nat) : State :=
  let x := s.pkg p
  let y := x.port n
  let s := s.setPort p n { y with state := .live, since := x.time, retry := min 0xFFFFFFFF (y.retry + y.unacked.length) }
  match x.barOf n with
  | some (b, z) => if z.state = 2 then s.setBar p b { z with state := 3 } else s
  | none => s

/-- The circuit request of R399, or a wall link's own start: a port whose engine has no UCIe link is dark again. -/
def State.startLocking (s : State) (p n : Nat) : State :=
  let x := s.pkg p
  let s := s.setPort p n { x.port n with state := .locking, since := x.time, awaitMc := false }
  if x.linksUp n then s else s.goDark p n (some 5)

/-- Hold expiry (R399), 50 ms after a watchdog reset from which the microcontroller has not returned, comes before any event
lower in the table. -/
def State.holdExpires (s : State) (p n : Nat) : State :=
  let x := s.pkg p
  let y := x.port n
  let isOver := (portEngines n).any fun e => !(x.engine e).mcRun && x.past (x.engine e).downSince 50000000
  if (y.state = .hold ∨ (y.state = .locking ∧ y.awaitMc)) ∧ isOver then s.goDark p n (some 5) else s

/-- A port's event, for a port that exists. -/
def State.portEvent (s : State) (p n : Nat) (f : Pkg → Port → State) : Out :=
  .next (if 16 ≤ p ∨ 48 ≤ n then s
    else
      let s := s.holdExpires p n
      f (s.pkg p) ((s.pkg p).port n))

/-- More than n ns have passed since a moment: the time-out that lies n ns after it came before (R399). -/
def Pkg.over (x : Pkg) (since n : Nat) : Bool := decide (since + n < x.time)

/-- The port at the other end of a port, if it lies in this wall (R397, R421): loopback has none. -/
def State.peerPort (s : State) (p n : Nat) : Option (Nat × Nat) :=
  if n = 32 then none
  else if 32 ≤ n then some ((p + n - 32) % 16, wallPort ((p + n - 32) % 16) p)
  else match (s.pkg p).barOf n with
    | some (_, y) => if y.peerWall = Config.wallId.toNat then some (y.peerPkg, y.peerPort) else none
    | none => none

/-- Whether a port can have its peer's light (R399): a peer of this wall that is dark or in quarantine has its lasers off. -/
def State.lit (s : State) (p n : Nat) : Bool :=
  match s.peerPort p n with
  | some (q, m) => decide (((s.pkg q).port m).state ≠ .dark) && decide (((s.pkg q).port m).state ≠ .quarantine)
  | none => true

/-! ## Links and microcontrollers -/

/-- UCIE_LINK_DOWN (R396, R399). -/
def execUcieLinkDown (p e : Nat) (s : State) : Out :=
  .next (if 16 ≤ p ∨ 16 ≤ e then s
    else (enginePorts e).foldl (fun s n => if ((s.pkg p).port n).state = .dark then s else s.goDark p n (some 5))
      (s.modEngine p e fun y => { y with ucUp := false }))

/-- UCIE_LINK_UP (R396). -/
def execUcieLinkUp (p e : Nat) (s : State) : Out :=
  .next (if 16 ≤ p ∨ 16 ≤ e then s else s.modEngine p e fun y => { y with ucUp := true })

/-- HOLD_EXPIRY (R399): 50 ms after the watchdog reset, while the microcontroller has not returned. -/
def execHoldExpiry (p n : Nat) (s : State) : Out :=
  .next (if 16 ≤ p ∨ 48 ≤ n then s else s.holdExpires p n)

/-- MC_WATCHDOG_RESET (R399): live ports hold, with their margins latched; ports before live go dark. -/
def execMcWatchdogReset (p e : Nat) (s : State) : Out :=
  .next (if 16 ≤ p ∨ 16 ≤ e then s
    else
      let now := (s.pkg p).time
      let s := s.modEngine p e fun y => { y with mcRun := false, wdog := min 255 (y.wdog + 1), downSince := now }
      (enginePorts e).foldl (fun s n =>
        let y := (s.pkg p).port n
        match y.state with
        | .live => s.setPort p n { y with state := .hold }
        | .locking | .trained | .authenticating => s.goDark p n (some 6)
        | .dark | .quarantine | .hold => s) s)

/-- MC_RETURN (R399): ports in hold go live, and a locking port that waited begins its bound; a port whose channels fell
below R398 in hold locks again. Ports whose hold has expired are dark. -/
def execMcReturn (p e : Nat) (s : State) : Out :=
  .next (if 16 ≤ p ∨ 16 ≤ e then s
    else
      let s := (enginePorts e).foldl (fun s n => s.holdExpires p n) s
      let s := s.modEngine p e fun y => { y with mcRun := true }
      (enginePorts e).foldl (fun s n =>
        let x := s.pkg p
        let y := x.port n
        if !x.mcRuns n then s
        else match y.state with
        | .hold =>
          let s := s.setPort p n { y with state := .live }
          if y.live < portNeeds n then s.relock p n none else s
        | .locking => if y.awaitMc then s.setPort p n { y with awaitMc := false, since := x.time } else s
        | _ => s) s)

/-- WALL_LINK_RESTART (R399): a wall link 10 ms dark, with its microcontrollers running. -/
def execWallLinkRestart (p n : Nat) (s : State) : Out :=
  s.portEvent p n fun x y =>
    if 32 ≤ n ∧ y.state = .dark ∧ x.mcRuns n ∧ x.linksUp n ∧ x.past y.since 10000000 then s.startLocking p n else s

/-! ## Channels, training, authentication -/

/-- CHANNEL_LOCK_LOSS (R398, R399). -/
def execChannelLockLoss (p n : Nat) (s : State) : Out :=
  s.portEvent p n fun _ y =>
    if y.live = 0 then s
    else
      let s := s.setPort p n { y with live := y.live - 1 }
      if portNeeds n ≤ y.live - 1 then s
      else match y.state with
      | .live => s.relock p n none
      | .trained | .authenticating => s.goDark p n (some 2)
      | .dark | .locking | .quarantine | .hold => s

/-- CHANNEL_RELOCK (R398). -/
def execChannelRelock (p n : Nat) (s : State) : Out :=
  s.portEvent p n fun _ y =>
    if y.state = .dark ∨ y.state = .quarantine then s else s.setPort p n { y with live := min (portChannels n) (y.live + 1) }

/-- LOCK_ACHIEVED (R399): lock on ch channels with the peer's light, within 1.5 ms. -/
def execLockAchieved (p n ch : Nat) (s : State) : Out :=
  s.portEvent p n fun x y =>
    if y.state = .locking ∧ !y.awaitMc ∧ portNeeds n ≤ ch ∧ s.lit p n ∧ !x.over y.since 1500000 then
      s.setPort p n { y with state := .trained, live := min (portChannels n) ch, since := x.time }
    else s

/-- LOCK_TIMEOUT (R399): 1.5 ms in locking, from the microcontroller's return when it was awaited. -/
def execLockTimeout (p n : Nat) (s : State) : Out :=
  s.portEvent p n fun x y =>
    if y.state = .locking ∧ !y.awaitMc ∧ x.past y.since 1500000 then s.goDark p n (some 1) else s

/-- DESKEW_DONE (R399), within 120 µs: loopback needs no authentication (R397). -/
def execDeskewDone (p n : Nat) (s : State) : Out :=
  s.portEvent p n fun x y =>
    if y.state ≠ .trained ∨ !s.lit p n ∨ x.over y.since 120000 then s
    else if n = 32 then s.goLive p n
    else s.setPort p n { y with state := .authenticating, since := x.time }

/-- TRAIN_TIMEOUT (R399). -/
def execTrainTimeout (p n : Nat) (s : State) : Out :=
  s.portEvent p n fun x y => if y.state = .trained ∧ x.past y.since 120000 then s.goDark p n (some 2) else s

/-- AUTH_SUCCESS (R399, R401), before 80 µs have passed at either end. Authentication is mutual, and live needs both ends
authenticated (R442): with a peer of this wall the two ends go live together (DEDUCED, log 70). -/
def execAuthSuccess (p n : Nat) (s : State) : Out :=
  s.portEvent p n fun x y =>
    if y.state ≠ .authenticating ∨ x.past y.since 80000 then s
    else match s.peerPort p n with
    | none => s.goLive p n
    | some (q, m) =>
      let z := (s.pkg q).port m
      if z.state = .live then s.goLive p n
      else if z.state = .authenticating ∧ !(s.pkg q).past z.since 80000 then (s.goLive p n).goLive q m
      else s

/-- AUTH_FAILURE (R399, R401). -/
def execAuthFailure (p n : Nat) (s : State) : Out :=
  s.portEvent p n fun _ y => if y.state = .authenticating then s.quarantine p n else s

/-- AUTH_TIMEOUT (R399, R401). -/
def execAuthTimeout (p n : Nat) (s : State) : Out :=
  s.portEvent p n fun x y => if y.state = .authenticating ∧ x.past y.since 80000 then s.quarantine p n else s

/-- ERROR_WINDOW_EXCEEDED (R399): w CRC-failed flits in one 100 µs window. -/
def execErrorWindowExceeded (p n w : Nat) (s : State) : Out :=
  s.portEvent p n fun _ y =>
    if (y.state = .live ∨ y.state = .hold) ∧ bitsOf (s.reg p optBase) 31 24 < w then s.relock p n (some 4) else s

/-- FLIT_ACK (R400): the peer has accepted the flits numbered up to q. -/
def execFlitAck (p n q : Nat) (s : State) : Out :=
  s.portEvent p n fun _ y => s.setPort p n { y with unacked := y.unacked.filter fun f => decide (q < f.1) }

/-- QUARANTINE_EXIT (R399, R402): every queued transfer has failed and completed, and QHOLD ms have passed. -/
def execQuarantineExit (p n : Nat) (s : State) : Out :=
  s.portEvent p n fun x y =>
    let waits := match x.barOf n with
      | some (b, _) => List.any s.copies fun (kc : Nat × Copy) => decide (kc.2.bar = some b) &&
          decide (pkgOfCore kc.2.core = p) && kc.2.failed.isSome
      | none => false
    if y.state = .quarantine ∧ !waits ∧ x.past y.since (1000000 * bitsOf (s.reg p (optBase + 4)) 15 0) then
      s.goDark p n none
    else s

/-! ## Heater margins (R403) -/

/-- The ports that a channel (16 * fibre + wavelength) of an engine serves, sending and receiving (R397): wall link k sends on
wavelength k and receives on wavelength (16 - k) mod 16. -/
def sendPort (e ch : Nat) : Nat := if e < 8 then 32 + ch % 16 else 4 * (e - 8) + ch / 16
def receivePort (e ch : Nat) : Nat := if e < 8 then 32 + (16 - ch % 16) % 16 else 4 * (e - 8) + ch / 16

/-- HEATER_MARGIN_CHANGE (R403): the margins of channel ch of engine e; each is latched while its port is in hold. -/
def execHeaterMarginChange (p e ch tx rx : Nat) (s : State) : Out :=
  let held (n : Nat) : Bool := decide (((s.pkg p).port n).state = .hold)
  .next (if 16 ≤ p ∨ 16 ≤ e ∨ 64 ≤ ch then s
    else if held (sendPort e ch) && held (receivePort e ch) then s
    else (s.modEngine p e fun y =>
      let old := SMap.getD y.margins (50, 50) ch
      let new := (if held (sendPort e ch) then old.1 else min 50 tx, if held (receivePort e ch) then old.2 else min 50 rx)
      { y with margins := SMap.setD y.margins (50, 50) ch new }).rethrottle p)

end Sys2Proof.Machine
end

