-- ==== Sys2Proof/Machine/Plane.lean ====
section
/-! DEFINITION. The Weazon plane as frames arrive (24_lintel_circuits R431-R434): endpoint queues, EPSND and EPRCV, package time
(R435, R436). The users of endpoints 12 to 14 take their messages from the queues in events of their own. -/

namespace Sys2Proof.Machine

open Sys2Proof

/-! ## Receiving -/

/-- Frames held ahead that now fill in, while the queue has room. -/
def fillIn : Nat → Nat → List (Nat × List Byte) → List (Nat × List Byte) → Nat → Nat × List (Nat × List Byte) × List (Nat × List Byte)
  | 0, _, held, q, next => (next, held, q)
  | n + 1, src, held, q, next =>
    match held.find? fun h => decide (h.1 = next) with
    | some h => if q.length < 16 then fillIn n src (held.filter fun x => decide (x.1 ≠ next)) (q ++ [(src, h.2)]) ((next + 1) % 2 ^ 16)
                else (next, held, q)
    | none => (next, held, q)

/-- The Weazon port of a package that a frame is for, if it is up (R419, R432). -/
def State.portOf (s : State) (p : Nat) (bytes : List Byte) : Option Nat :=
  [0, 1].find? fun port => decide (bytes.take 6 = macOf (planeId p) port) && s.weazonUp p port

/-- An arriving frame, and the port it arrives on: one of this wall by its number, or bytes from outside it. Frames of other kinds,
for other packages or on a port that is down, or that claim to come from this wall from outside, are left. -/
def State.frameIn (s : State) (p n kind : Nat) (bytes : List Byte) : Option (PlaneFrame × Nat × State) :=
  let (bs, s', mine) := match bytes with
    | [] => ((SMap.find? s.frames n).getD [], { s with frames := SMap.del s.frames n }, true)
    | _ => (bytes, s, false)
  match PlaneFrame.parse bs, s.portOf p bs with
  | some f, some port =>
    if f.kind = kind ∧ f.dst = planeId p ∧ (mine ∨ f.src / 16 ≠ Config.wallId.toNat) then some (f, port, s') else none
  | _, _ => none

/-- The answer to a data or open frame. -/
def State.planeAnswer (s : State) (p port : Nat) (f : PlaneFrame) (reopen : Bool) : State :=
  let y := (s.pkg p).stream (recvKey f.src f.sep f.dep)
  let q := SMap.getD (s.pkg p).endpoints [] f.dep
  s.emit p port { kind := 2, sep := f.dep, dep := f.sep, win := if reopen then 0xFF else 16 - q.length, src := planeId p,
                  dst := f.src, seq := 0, ack := y.next, payload := [] }

/-- PLANE_DATA_FRAME (R431, R433): on a port of package p. The snapshot engine and the clock, the users of endpoint 15, take their messages at
once (log 82). -/
def execPlaneDataFrame (p on n : Nat) (frame : List (BitVec 8)) (s : State) : Out :=
  .next (match s.frameIn p n 1 frame with
    | none => s
    | some (f, port, u) =>
      let s := if port = on then u else s
      let k := recvKey f.src f.sep f.dep
      let y := (s.pkg p).stream k
      if port ≠ on then s
      else if !y.opened then s.planeAnswer p port f true
      else
        let q := SMap.getD (s.pkg p).endpoints [] f.dep
        let ahead := (f.seq + 2 ^ 16 - y.next) % 2 ^ 16
        let has := y.out.any fun h => decide (h.1 = f.seq)
        let held := if ahead ≤ 15 ∧ !has ∧ (ahead ≠ 0 ∨ q.length < 16) then y.out ++ [(f.seq, f.payload)] else y.out
        let (next, held, q') := fillIn 16 f.src held q y.next
        let s := s.setStream p k { y with next := next, out := held }
        let s := if f.dep = 15 then s else s.modPkg p fun x => { x with endpoints := SMap.put x.endpoints f.dep q' }
        s.planeAnswer p port f false)

/-- PLANE_OPEN_FRAME (R433): an open sets the next number of a stream that is not open, and is answered. -/
def execPlaneOpenFrame (p on n : Nat) (frame : List (BitVec 8)) (s : State) : Out :=
  .next (match s.frameIn p n 3 frame with
    | none => s
    | some (f, port, u) =>
      let s := if port = on then u else s
      let k := recvKey f.src f.sep f.dep
      if port ≠ on then s
      else (if ((s.pkg p).stream k).opened then s else s.setStream p k { Stream.init with opened := true, next := f.seq }).planeAnswer p port f
        false)

/-- PLANE_ACK_FRAME (R433). -/
def execPlaneAckFrame (p n : Nat) (frame : List (BitVec 8)) (s : State) : Out :=
  .next (match s.frameIn p n 2 frame with
    | none => s
    | some (f, _, s) =>
      let k := sendKey f.src f.dep f.sep
      let y := (s.pkg p).stream k
      let gone := (f.ack + 2 ^ 16 - y.acked) % 2 ^ 16
      if f.win = 0xFF then (s.setStream p k { y with opened := false, sent := y.acked, heard := (s.pkg p).time }).pump p k
      else if y.out.length < gone then s
      else
        let done := (y.sent + 2 ^ 16 - y.acked) % 2 ^ 16
        (s.setStream p k { y with answered := true, acked := f.ack, win := f.win, out := y.out.drop gone,
                                  sent := if done < gone then f.ack else y.sent, heard := (s.pkg p).time }).pump p k)

/-- PLANE_RESEND_TIMER (R433): 10 µs with nothing heard on stream k of package p. -/
def execPlaneResendTimer (p k : Nat) (s : State) : Out :=
  .next (let y := (s.pkg p).stream k
    let port := 1 - y.port
    if k % 2 = 1 ∨ !(s.pkg p).past y.last 10000 ∨ !y.opened then s
    else
      let s := s.setStream p k { y with last := (s.pkg p).time, port := port }
      if !y.answered then s.emit p port (streamFrame p k 3 y.acked [])
      else match y.out with
      | [] => s
      | m :: _ =>
        if y.sent = y.acked ∧ y.win ≠ 0 then s
        else (s.modPkg p fun x => { x with streams := SMap.modify x.streams k fun y =>
                { y with sent := if y.sent = y.acked then (y.acked + 1) % 2 ^ 16 else y.sent } }).emit p port (streamFrame p k 1 m.1 m.2))

/-- The processor's wait of a Lintel (R426, R434). -/
def State.setLintelHold (s : State) (p : Nat) (h : Hold) : State :=
  s.modPkg p fun x => { x with lintel := { x.lintel with hold := h } }

/-- The number that the receiver of stream k of package p expects next: what comes before it is delivered. A receiver of another wall
counts as having what it has acknowledged. -/
def State.delivered (s : State) (p k : Nat) : Nat :=
  let y := (s.pkg p).stream k
  let dst := k / 512
  match pkgOfPlane dst with
  | some q =>
    let z := (s.pkg q).stream (recvKey (planeId p) (k / 32 % 16) (k / 2 % 16))
    if z.opened ∧ (z.next + 2 ^ 16 - y.acked) % 2 ^ 16 ≤ y.out.length then z.next else y.acked
  | none => y.acked

/-- PLANE_UNREACHABLE (R433): 100 µs without an acknowledgement on stream k of package p. A script's message that its destination has
not accepted is not delivered (R434), nor is a fate query (R415) or a barrier's message; one that it has accepted waits for its
acknowledgement. A snapshot stream over the plane fails with reason 3 (R394). -/
def execPlaneUnreachable (p k : Nat) (s : State) : Out :=
  .next (let x := s.pkg p
    let y := x.stream k
    if k / 2 % 16 = 15 then
      (if x.snap.state = .draining ∧ x.snap.route.testBit 31 then s.snapFail p 3 else s)
    else if k % 2 = 1 ∨ y.out.isEmpty ∨ !x.past y.heard 100000 ∨ k / 32 % 16 = 12 ∨
      (y.out.length : Nat) ≤ (s.delivered p k + 2 ^ 16 - y.acked) % 2 ^ 16 then s
    else
      let m := s.delivered p k
      let s := match pkgOfPlane (k / 512) with
        | some q => s.modPkg q fun z =>
          { z with streams := SMap.modify z.streams (recvKey (planeId p) (k / 32 % 16) (k / 2 % 16)) fun w => { w with out := [] } }
        | none => s
      let s : State := { s with frames := s.frames.filter fun (nf : Nat × List Byte) => match PlaneFrame.parse nf.2 with
        | some f => !(decide (f.src = planeId p) && decide (f.kind = 1) && decide (sendKey f.dst f.sep f.dep = k))
        | none => true }
      let s := s.setStream p k { y with opened := false, answered := false, acked := m, sent := m, next := m, win := 0, out := [] }
      match x.lintel.hold with
      | .timed 0xF5 n false => if k / 32 % 16 < 12 ∧ (m + 2 ^ 16 - (n + 1) % 2 ^ 16) % 2 ^ 16 ≥ 2 ^ 15 then s.setLintelHold p (.timed 0xF5 n true) else s
      | _ => s)

/-- WEAZON_PORT_DOWN and WEAZON_PORT_UP (R419, R431): the frames on a port that goes down are lost. -/
def State.setWeazon (s : State) (p w : Nat) (up : Bool) : State :=
  if 16 ≤ p ∨ 2 ≤ w then s
  else
    let mac := macOf (planeId p) w
    let s : State := if up then s else
      { s with frames := s.frames.filter fun (nf : Nat × List Byte) => decide (nf.2.take 6 ≠ mac) && decide ((nf.2.drop 6).take 6 ≠ mac) }
    s.setReg p (lintBase + 0x64) (setBits (s.reg p (lintBase + 0x64)) w w (boolNat up))
def execWeazonPortDown (p w : Nat) (s : State) : Out := .next (s.setWeazon p w false)
def execWeazonPortUp (p w : Nat) (s : State) : Out := .next (s.setWeazon p w true)

/-! ## The Lintel's messages (R434) -/

/-- Giving a rule the executing Lintel: its package and itself; no other agent passes R39 with such a word. -/
def State.asLintel (s : State) (f : Nat → Proc → Res) : Res :=
  match s.cur with
  | .lintel p => f p (s.pkg p).lintel
  | _ => .wait

/-- Bytes that a Lintel reads through its translation, or the trap the first bad one raises. -/
def State.lintelRead (s : State) (p va : Nat) : Nat → List Byte ⊕ Res
  | 0 => .inl []
  | n + 1 =>
    match s.translate (s.lintelXlat p) va .load false with
    | .ok pa leaf =>
      if s.poisoned pa && !isDevice pa then .inr (.trap .softErr va 0 0)
      else
        let b := if isDevice pa then BitVec.ofNat 8 (s.devRead pa 1 (.agent (.lintel p))) else s.freshByte (lintelPath p) pa (leafKey leaf)
        (match s.lintelRead p (va + 1) n with
         | .inl bs => .inl (b :: bs)
         | r => r)
    | .bad c ti => .inr (.trap c va 0 ti)
    | .miss => .inr (.trap .pageFault va 0 0)

/-- Where the n bytes from va would be stored, or the trap the first bad one raises. -/
def State.lintelPlaces (s : State) (p va : Nat) : Nat → List (Nat × Nat) ⊕ Res
  | 0 => .inl []
  | n + 1 =>
    match s.translate (s.lintelXlat p) va .store false with
    | .ok pa leaf =>
      if isDevice pa then .inr (.trap .access va 0 1)
      else (match s.lintelPlaces p (va + 1) n with
        | .inl ps => .inl ((pa, leaf) :: ps)
        | r => r)
    | .bad c ti => .inr (.trap c va 0 ti)
    | .miss => .inr (.trap .pageFault va 0 1)

/-- EPSND (R434): the message is sent once; the Lintel then waits for its acceptance. -/
def execEpsnd (d a b : BitVec 6) (s : State) : Out :=
  s.runWord (.epsnd d a b) (s.groupOp [(a.toNat, false), (b.toNat, true)] fun sc => s.asLintel fun p l =>
    let w := sc.src false a.toNat
    let dst := bitsOf w 9 0 * 16 + bitsOf w 13 10
    let ep := bitsOf w 17 14
    if bitsOf w 31 26 ≠ 0 ∨ 12 ≤ ep then illegalAt 0xF5 2 3
    else match l.hold with
    | .timed 0xF5 n isOver =>
      let y := (s.pkg p).stream (sendKey dst ep ep)
      if isOver then .done (s.gdst false d.toNat 1)
      else if (y.acked + 2 ^ 16 - (n + 1) % 2 ^ 16) % 2 ^ 16 < 2 ^ 15 then .done (s.gdst false d.toNat 0)
      else .wait
    | _ =>
      match s.lintelRead p (sc.src true b.toNat) (bitsOf w 25 18 + 1) with
      | .inr r => r
      | .inl bytes =>
        let n := ((s.pkg p).stream (sendKey dst ep ep)).next
        .stay ((s.planeSend p dst ep ep bytes).setLintelHold p (.timed 0xF5 n false)))

/-- The header EPRCV writes (R434). -/
def planeHeader (src len : Nat) : Nat := 2 ^ 31 + src / 16 * 2 ^ 21 + src % 16 * 2 ^ 17 + len

/-- A received message's bytes stored, as releases at .pkg. -/
def State.storeMessage (s : State) (p : Nat) (places : List (Nat × Nat)) (bytes : List Byte) : State :=
  (places.zip bytes).foldl (fun s x =>
    ((s.keyLine x.1.1 (leafKey x.1.2) (snapMark x.1.2)).performWrite x.1.1 [some x.2] (snapMark x.1.2) 2 (lintelPath p) 3 0 0).2) s

/-- EPRCV (R434). -/
def execEprcv (d a b : BitVec 6) (s : State) : Out :=
  s.runWord (.eprcv d a b) (s.groupOp [(a.toNat, false), (b.toNat, true)] fun sc => s.asLintel fun p l =>
    let w := sc.src false a.toNat
    let ep := bitsOf w 3 0
    let limit := 1000 * bitsOf w 31 4
    if 12 ≤ ep then illegalAt 0xF6 2 3
    else match l.hold, SMap.getD (s.pkg p).endpoints [] ep with
    | .timed _ _ true, _ => .done (s.gdst false d.toNat 0)
    | _, m :: rest =>
      (match s.lintelPlaces p (sc.src true b.toNat) m.2.length with
       | .inr r => r
       | .inl places =>
         let s := s.modPkg p fun x => { x with endpoints := SMap.put x.endpoints ep rest }
         .done ((s.storeMessage p places m.2).gdst false d.toNat (planeHeader m.1 m.2.length)))
    | .timed .., [] => .wait
    | _, [] =>
      if limit = 0 then .done (s.gdst false d.toNat 0)
      else .stay (s.setLintelHold p (.timed 0xF6 ((s.pkg p).time + limit) false)))

/-- A wait's time-out at the Lintel of package p. -/
def State.lintelTimeout (s : State) (p op : Nat) : State :=
  match (s.pkg p).lintel.hold with
  | .timed o t false => if o = op ∧ t ≤ (s.pkg p).time then s.setLintelHold p (.timed o t true) else s
  | _ => s

/-- EPRCV_TIMEOUT (R434): gd takes 0. -/
def execEprcvTimeout (p : Nat) (s : State) : Out := .next (s.lintelTimeout p 0xF6)

/-! ## Package time (R435, R436) -/

/-- TIME (R435). -/
def execTime (d : BitVec 6) (s : State) : Out :=
  s.runWord (.time d) (s.asLintel fun p _ => .done (s.gdst true d.toNat ((s.pkg p).time % 2 ^ 64)))

/-- TIME_SYNC (R436): a two-step exchange over the plane finds package time off by `off` ns, and the clock slews it away. What it
finds leads to a time within 50 ns of the pod's reference clock. -/
def execTimeSync (p : Nat) (off : Int) (s : State) : Out :=
  .next (let t : Int := (s.pkg p).time + off
    if (s.weazonUp p 0 || s.weazonUp p 1) && decide (t ≤ s.refTime + 50) && decide ((s.refTime : Int) ≤ t + 50) then
      s.modPkg p fun x => { x with slew := off }
    else s)

/-- Package time one nanosecond on, with at most one nanosecond of correction in a microsecond (R436). -/
def Pkg.tickTime (x : Pkg) : Pkg :=
  if x.slew ≠ 0 ∧ x.slewAt + 1000 ≤ x.time + 1 then
    if 0 < x.slew then { x with time := x.time + 2, slew := x.slew - 1, slewAt := x.time + 2 }
    else { x with slew := x.slew + 1, slewAt := x.time }
  else { x with time := x.time + 1 }

/-- HTUNE (R435). -/
def execHtune (d a : BitVec 6) (m : BitVec 1) (s : State) : Out :=
  s.runWord (.htune d a m) (s.groupOp [(a.toNat, false)] fun sc => s.asLintel fun p _ =>
    let w := sc.src false a.toNat
    let e := (s.pkg p).engine (bitsOf w 3 0)
    if bitsOf w 31 10 ≠ 0 then illegalAt 0xF8 2 3
    else
      let ch := SMap.getD e.margins (50, 50) (16 * bitsOf w 5 4 + bitsOf w 9 6)
      .done (s.gdst false d.toNat (if m = 1#1 then e.minMargin else ch.1 * 2 ^ 8 + ch.2)))

end Sys2Proof.Machine
end

