-- ==== Sys2Proof/Machine/Circuits.lean ====
section
/-! DEFINITION. Circuit-live barriers, CPYX's transfer, the switch service and circuit scripts (24_lintel_circuits
R418, R421-R430; 09_copy_engine R213). -/

namespace Sys2Proof.Machine

open Sys2Proof

/-! ## The switch service (R425) -/

/-- An end of a circuit as the messages lay it out: wall, package, port. -/
def circuitEnd (wall pkg port : Nat) : Nat := wall + pkg * 2 ^ 10 + port * 2 ^ 14

/-- A message to the switch service, over endpoint 12. -/
def State.tellService (s : State) (p kind b : Nat) (y : CircuitBar) : State :=
  let w := s.reg p (lintBase + 0x50)
  s.planeSend p (bitsOf w 9 0 * 16 + bitsOf w 13 10) 12 (bitsOf w 17 14)
    (bytesOf 1 kind ++ bytesOf 1 b ++ bytesOf 2 y.seq ++ bytesOf 4 (circuitEnd Config.wallId.toNat p y.port) ++
      bytesOf 4 (circuitEnd y.peerWall y.peerPkg y.peerPort) ++ List.replicate 20 0#8)

/-- The oldest message on endpoint 12, if it is of a kind; one that is neither a grant nor a deny is discarded. -/
def State.fromService (s : State) (p kind : Nat) (f : State → List Byte → State) : State :=
  match SMap.getD (s.pkg p).endpoints [] 12 with
  | [] => s
  | m :: rest =>
    let k := ofBytes (m.2.take 1)
    let s' := s.modPkg p fun x => { x with endpoints := SMap.put x.endpoints 12 rest }
    if k = kind then f s' m.2 else if k = 4 ∨ k = 5 then s else s'

/-- A grant or deny as its barrier takes it: a number that is not the barrier's current one is answered with a release
and changes nothing. -/
def State.serviceAnswer (s : State) (p : Nat) (m : List Byte) (f : State → Nat → CircuitBar → State) : State :=
  let b := ofBytes ((m.drop 1).take 1)
  let seq := ofBytes ((m.drop 2).take 2)
  let y := (s.pkg p).bar b
  if 64 ≤ b ∨ y.state = 0 ∨ y.seq ≠ seq then s.tellService p 3 b { y with seq := seq }
  else if y.state = 1 then f s b y
  else s

/-- Whether the Lintel of a package is halted (R420): it sends nothing new, takes no answer of the service, and its barriers keep
their states. -/
def State.lintelHalted (s : State) (p : Nat) : Bool := (s.reg p (lintBase + 0x14)).testBit 1

/-- SWITCH_GRANT (R425): the barrier is connecting and its port takes the circuit request of R399. -/
def execSwitchGrant (p : Nat) (s : State) : Out :=
  .next (if s.lintelHalted p then s
    else s.fromService p 4 fun s m => s.serviceAnswer p m fun s b y =>
      let s := s.setBar p b { y with state := 2 }
      if ((s.pkg p).port y.port).state = .dark then s.startLocking p y.port else s)

/-- SWITCH_DENY (R425). -/
def execSwitchDeny (p : Nat) (s : State) : Out :=
  .next (if s.lintelHalted p then s else s.fromService p 5 fun s m => s.serviceAnswer p m fun s b _ => s.failBar p b 4)

/-! ## CREQ, CAWT, CSTAT -/

/-- CREQ's status (R424). -/
def State.creqStatus (s : State) (p b c : Nat) : Nat :=
  let x := s.pkg p
  let st := (x.bar b).state
  if 1 ≤ st ∧ st ≤ 4 then 1
  else match x.barOf c with
  | some (b', _) => if b' = b ∧ (x.port c).state = .dark then 0 else 2
  | none => if (x.port c).state = .dark then 0 else 2

/-- CREQ (R424). -/
def execCreq (d a b : BitVec 6) (s : State) : Out :=
  s.runWord (.creq d a b) (s.groupOp [(a.toNat, false), (b.toNat, false)] fun sc => s.asLintel fun p _ =>
    let w := sc.src false a.toNat
    let v := sc.src false b.toNat
    let k := bitsOf w 5 0
    let c := bitsOf w 12 8
    if bitsOf w 31 13 ≠ 0 ∨ bitsOf w 7 6 ≠ 0 then illegalAt 0xF0 2 3
    else if bitsOf v 31 19 ≠ 0 || (decide (bitsOf v 13 10 = p) && decide (bitsOf v 9 0 = Config.wallId.toNat)) then
      illegalAt 0xF0 3 3
    else
      let st := s.creqStatus p k c
      if st ≠ 0 then .done (s.gdst false d.toNat st)
      else
        let y : CircuitBar :=
          { CircuitBar.init with
            state := 1, port := c, peerWall := bitsOf v 9 0, peerPkg := bitsOf v 13 10, peerPort := bitsOf v 18 14
            seq := (((s.pkg p).bar k).seq + 1) % 2 ^ 16, credits := bitsOf (s.reg p (lintBase + 0x60)) 11 0 }
        .done (((s.setBar p k y).tellService p 1 k y).gdst false d.toNat 0))

/-- CAWT's code for a state of the barrier (R426): none while it waits. -/
def cawtCode (y : CircuitBar) (free : Bool) : Option Nat :=
  match y.state with
  | 0 => some (if free then 5 else 6)
  | 3 => if free then none else some 0
  | 4 => if free then none else some 6
  | 5 => some y.reason
  | _ => none

/-- CAWT (R426). -/
def execCawt (d a b : BitVec 6) (m : BitVec 1) (s : State) : Out :=
  s.runWord (.cawt d a b m) (s.groupOp [(a.toNat, false), (b.toNat, false)] fun sc => s.asLintel fun p l =>
    let y := (s.pkg p).bar (bitsOf (sc.src false a.toNat) 5 0)
    let us := sc.src false b.toNat
    match l.hold, cawtCode y (decide (m = 1#1)) with
    | .timed _ _ true, _ => .done (s.gdst false d.toNat 1)
    | _, some code => .done (s.gdst false d.toNat code)
    | .timed .., none => .wait
    | _, none =>
      if us = 0 then .done (s.gdst false d.toNat 1)
      else .stay (s.setLintelHold p (.timed 0xF1 ((s.pkg p).time + 1000 * us) false)))

/-- CAWT_TIMEOUT (R426). -/
def execCawtTimeout (p : Nat) (s : State) : Out := .next (s.lintelTimeout p 0xF1)

/-- CSTAT (R430). -/
def execCstat (d a : BitVec 6) (s : State) : Out :=
  s.runWord (.cstat d a) (s.groupOp [(a.toNat, false)] fun sc => s.asLintel fun p _ =>
    .done (s.gdst false d.toNat (s.cstat p (bitsOf (sc.src false a.toNat) 5 0))))

/-! ## CUSE (R427) -/

/-- A lending as its descriptor gives it. -/
def lendOf (bs : List Byte) (y : CircuitBar) : CircuitBar :=
  let f (o n : Nat) : Nat := ofBytes ((bs.drop o).take n)
  { y with lent := true, tid := f 0 8, rxBase := f 8 8, rxCtr := f 16 8, rxLen := f 24 4, rxKey := bitsOf (f 28 4) 27 16,
           borrower := bitsOf (f 28 4) 1 0 }

/-- Reserved values and places of a lend descriptor. -/
def lendOk (bs : List Byte) (y : CircuitBar) (p : Nat) : Bool :=
  let w := ofBytes ((bs.drop 28).take 4)
  decide (bitsOf w 31 28 = 0) && decide (bitsOf w 15 2 = 0) && decide (y.borrower < 3) && decide (y.rxBase % 4096 = 0) &&
    decide (y.rxLen % 4096 = 0) && decide (y.rxCtr % 8 = 0) && inHbm p y.rxBase y.rxLen

/-- Whether copies of a barrier's borrower are not complete. -/
def State.borrowerBusy (s : State) (p b : Nat) (y : CircuitBar) : Bool :=
  List.any s.copies fun (kc : Nat × Copy) => decide (kc.2.bar = some b) && decide (pkgOfCore kc.2.core = p) &&
    (decide (y.borrower = 0 ∧ kc.2.tid.toNat = y.tid) || decide (y.borrower = 1 ∧ kc.2.tid.toNat / 2 ^ 16 = y.tid / 2 ^ 16))

/-- Whether two lendings are to one borrower (R427): a team by its TID, a launch by TID[63:16], the snapshot engine. -/
def sameBorrower (y z : CircuitBar) : Bool :=
  decide (y.borrower = z.borrower) && (if y.borrower = 0 then decide (y.tid = z.tid)
    else if y.borrower = 1 then decide (y.tid / 2 ^ 16 = z.tid / 2 ^ 16) else true)

/-- CUSE (R427). -/
def execCuse (d a b : BitVec 6) (s : State) : Out :=
  s.runWord (.cuse d a b) (s.groupOp [(a.toNat, false), (b.toNat, true)] fun sc => s.asLintel fun p _ =>
    let k := bitsOf (sc.src false a.toNat) 5 0
    let va := sc.src true b.toNat
    let y := (s.pkg p).bar k
    let status (s : State) (n : Nat) : Res := .done (s.gdst false d.toNat n)
    if y.state = 0 ∨ 4 ≤ y.state then status s 1
    else if va % 32 ≠ 0 then status s 2
    else match s.lintelRead p va 32 with
    | .inr _ => status s 2
    | .inl bs =>
      let y' := lendOf bs y
      if !lendOk bs y' p then status s 2
      else if y.lent && !sameBorrower y y' && s.borrowerBusy p k y then .wait
      else status (s.setBar p k y') 0)

/-! ## CREL (R429) -/

/-- A port taken dark by a release, without a failure. -/
def State.releasePort (s : State) (p n : Nat) : State :=
  let x := s.pkg p
  (s.dropChunks p n).setPort p n { x.port n with state := .dark, live := 0, since := x.time, awaitMc := false, releasing := false,
                                                 unacked := [] }

/-- CREL (R429). -/
def execCrel (d a : BitVec 6) (m : BitVec 1) (s : State) : Out :=
  s.runWord (.crel d a m) (s.groupOp [(a.toNat, false)] fun sc => s.asLintel fun p _ =>
    let b := bitsOf (sc.src false a.toNat) 5 0
    let x := s.pkg p
    let y := x.bar b
    let status (s : State) (n : Nat) : Res := .done (s.gdst false d.toNat n)
    match y.state with
    | 3 =>
      let s := s.setBar p b { y with state := 4, abort := decide (m = 1#1) }
      let s := s.setPort p y.port { x.port y.port with releasing := true }
      status (if m = 1#1 then s.failCopies p b fun c => decide (c.sent < c.count) else s) 0
    | 1 | 2 =>
      let s := (s.tellService p 2 b y).failCopies p b fun _ => true
      status ((if (x.port y.port).state = .dark then s else s.releasePort p y.port).freeBar p b) 0
    | 5 =>
      let s := s.tellService p 3 b y
      status (if (x.port y.port).state = .dark then s.freeBar p b else s.setBar p b { y with closing := true }) 0
    | _ => status s 1)

/-- CIRCUIT_RELEASE_COMPLETE (R399, R429): barrier b of package p has drained; its port goes dark, the service is told
and the barrier is free. A halted Lintel's barrier stays as it is (R420). -/
def execCircuitReleaseComplete (p b : Nat) (s : State) : Out :=
  .next (let y := (s.pkg p).bar b
    let busy := (List.any s.copies fun (kc : Nat × Copy) => decide (kc.2.bar = some b) && decide (pkgOfCore kc.2.core = p) &&
        kc.2.failed.isNone && decide (kc.2.acked < kc.2.count)) ||
      List.any s.circuitChunks fun (kc : Nat × CircuitChunk) => decide (kc.2.pkg = p) && decide (kc.2.bar = b)
    if y.state ≠ 4 ∨ busy ∨ ((s.pkg p).port y.port).state ≠ .live ∨ s.lintelHalted p then s
    else ((s.releasePort p y.port).tellService p 3 b y).freeBar p b)

/-! ## CPYX's chunks (R213, R409, R422, R428) -/

/-- Credits of a chunk (R422). -/
def chunkCredits (n : Nat) : Nat := (16 + n + 127) / 128

/-- The next chunk of a copy (R409): its window offset and length, within a row and an aligned 2 KiB block. -/
def Copy.nextChunk (c : Copy) : Nat × Nat :=
  let o := c.desc[2].toNat + c.sent
  (o, min (dRb c.desc - c.sent % dRb c.desc) (2048 - o % 2048))

/-- The bytes before and after a chunk of its copy that lie with it in one aligned 32-byte chunk of the destination: they go with it
to a package of this wall, and such a chunk is never seen half new (R216). -/
def Copy.margins (c : Copy) (o len : Nat) : Nat × Nat :=
  (min c.sent (o % 32), min (c.count - c.sent - len) ((32 - (o + len) % 32) % 32))

/-- CPYX_SEND_START (R213, R428): copy n sends its next chunk, its barrier being live, or draining. -/
def execCpyxSendStart (n : Nat) (s : State) : Out :=
  .next (match SMap.find? s.copies n with
    | none => s
    | some c =>
      let p := pkgOfCore c.core
      let b := dFmt c.desc
      let y := (s.pkg p).bar b
      let (o, len) := c.nextChunk
      let near := decide (y.peerWall = Config.wallId.toNat)
      let (before, after) := if near then c.margins o len else (0, 0)
      let n' := before + len + after
      let at' (i : Nat) : Nat := dSrc c.desc + i / dRb c.desc * dStride c.desc + i % dRb c.desc
      let ready := decide (c.op = opCpyx) && (decide (c.phase = .waiting) || decide (c.phase = .moving)) && c.failed.isNone &&
        c.token.isNone && decide (c.sent < c.count) && (decide (y.state = 3) || (decide (y.state = 4) && !y.abort)) &&
        decide (((s.pkg p).port y.port).state = .live) && decide (chunkCredits n' ≤ y.credits - y.used)
      if !ready then s
      else
      let as := (List.range n').map fun i => at' (c.sent - before + i)
      let c := s.readSource c false as
      match s.copyBytes c false as with
      | .miss va => s.copyMiss n c va 0
      | .bad va => s.copyFails n c va
      | .away _ => s
      | .ok bs poison =>
        let k : Packet :=
          { Packet.blank 0x0F (if near then y.peerPkg else p) p with
            len := (n' + 31) / 32, addr := o - before, poi := poison, og := c.cid, step := c.step, core := c.core, payload := bs,
            mask := bs.map fun _ => true, circuit := some (y.peerPort, if near then s.fresh + 1 else 0) }
        let m := s.fresh
        let s := (s.setCopy n { c with phase := .moving, sent := c.sent + len }).tick
        let s := (s.setBar p b { y with used := y.used + chunkCredits n' }).keepFlit p y.port p m
        let ch : CircuitChunk := { pkg := p, bar := b, port := y.port, copy := n, pkt := k, len := len, taken := false, reply := none }
        let s : State := { s with circuitChunks := SMap.put s.circuitChunks m ch }
        if near then s
        else { s with outbox := s.outbox ++ [{ kind := 5, pkg := p, info := [y.port, m, o, c.step, boolNat poison], bytes := bs }] })

/-- A chunk at its receiving package (R428): not there until the port is live (R399); not performed beyond the window, unlent, or
refused by R341; held by an armed snapshot engine (R392); else performed once its lines have no copy elsewhere. -/
def State.takeChunk (s : State) (k : Packet) (port : Nat) : State :=
  let x := s.pkg k.dst
  let no := s.chunkAnswer k false
  match x.barOf port with
  | none => no
  | some (_, y) =>
    if (x.port port).state ≠ .live then s
    else
    let k' := { k with addr := y.rxBase + k.addr, key := y.rxKey, stamp := y.rxCtr }
    if !y.lent ∨ y.rxLen < k.addr + k.payload.length then no
    else if k'.parts.any fun q => s.hostRefused q.addr q.key then no
    else if x.snap.state = .armed ∧ s.stepGreater k' then
      if heldBytes (x.snap.held ++ [k']) ≤ 2 ^ 21 then
        let s := s.modPkg k.dst fun x => { x with snap := { x.snap with held := x.snap.held ++ [k'] } }
        (match k.circuit with
         | some (_, n + 1) => { s with circuitChunks := SMap.modify s.circuitChunks n fun c => { c with taken := true } }
         | _ => s)
      else s
    else match k'.parts.find? fun q => !s.unshared q.addr with
    | some q => s.invalidate q.addr
    | none => s.performCircuit k'

/-- CIRCUIT_CHUNK (R428): chunk n of this wall reaches its peer; or, with bytes, one of another wall reaches circuit port
c of package p. -/
def execCircuitChunk (n p c off step : Nat) (poi : Bool) (data : List (BitVec 8)) (s : State) : Out :=
  .next (match data with
    | [] =>
      (match SMap.find? s.circuitChunks n with
       | some k =>
         (match k.pkt.circuit with
          | some (port, _ + 1) => if k.taken ∨ k.reply.isSome then s else s.takeChunk k.pkt port
          | _ => s)
       | none => s)
    | _ =>
      if 16 ≤ p ∨ 32 ≤ c then s
      else s.takeChunk
        { Packet.blank 0x0F p p with len := (data.length + 31) / 32, addr := off, tag := n, poi := poi, step := step, payload := data,
                                     mask := data.map fun _ => true, circuit := some (c, 0) } c)

/-- CIRCUIT_CHUNK_ACK (R422, R428): the peer's answer to chunk n, given here when the peer lies in another wall. -/
def execCircuitChunkAck (n : Nat) (ok : Bool) (s : State) : Out :=
  .next (match SMap.find? s.circuitChunks n with
    | none => s
    | some k =>
      let answer : Option Bool := match k.pkt.circuit with | some (_, _ + 1) => k.reply | _ => some ok
      match answer with
      | none => s
      | some r =>
        if ((s.pkg k.pkg).port k.port).state ≠ .live then s
        else
          let y := (s.pkg k.pkg).bar k.bar
          let z := (s.pkg k.pkg).port k.port
          let s : State := { s with circuitChunks := SMap.del s.circuitChunks n }
          let s := s.setBar k.pkg k.bar { y with used := y.used - chunkCredits k.pkt.payload.length }
          let s := s.setPort k.pkg k.port { z with unacked := z.unacked.filter fun f => decide (f.2 ≠ (k.pkg, n)) }
          { s with copies := SMap.modify s.copies k.copy fun c =>
              if r then { c with acked := c.acked + k.len }
              else { c with failed := some (c.failed.getD (BitVec.ofNat 64 (dSrc c.desc))) } })

/-! ## Circuit scripts (R418) -/

/-- SCRIPT_RECORD_APPEND (R418): a host port writes SQHI, in its turn among the port's writes (R378). -/
def execScriptRecordAppend (p port v : Nat) (s : State) : Out :=
  .next (if 16 ≤ p ∨ 2 ≤ port ∨ !s.hostAnswers p then s
    else s.hostReceive p { port := port, pa := regPa p (lintBase + 0x44), key := 0, bytes := bytesOf 4 v })

/-- SCRIPT_START (R418): an idle Lintel takes its oldest record, or skips it. -/
def execScriptStart (p : Nat) (s : State) : Out :=
  .next (let x := s.pkg p
    let runs := (s.reg p (pkgBase + 0x10)).testBit 8
    let halt := (s.reg p (lintBase + 0x14)).testBit 1
    match x.script with
    | [] => s
    | va :: rest =>
      if x.lintel.running || !runs || halt then s
      else
        let s' := s.modPkg p fun x => { x with script := rest }
        let skip := s'.orReg p (lintBase + 0x48) (2 ^ 31)
        match s.lintelRead p va 16 with
        | .inr _ => skip
        | .inl bs =>
          let prog := ofBytes (bs.take 8)
          let w (i : Nat) : Nat := if i < 2 then ofBytes ((bs.drop (8 + 4 * i)).take 4) else 0
          if prog % 4 ≠ 0 then skip
          else s'.modPkg p fun x => { x with lintel :=
            { x.lintel with pc := BitVec.ofNat 64 prog, sc := x.lintel.sc.start w, running := true, alone := false, hold := .free } })

/-! ## Words that decode to nothing -/

/-- ILLEGAL_INSTRUCTION_WORD (R39, R40): the agent that issues takes ILLEGAL or PRIV with the first failing check's
TINFO. -/
def execIllegalInstructionWord (w : BitVec 32) (s : State) : Out :=
  if !s.curRuns then .fault .noSuchAgent
  else match r39 (s.env s.cur) w with
  | some (c, ti) => .next (s.takeTrap c 0 0 ti.toNat)
  | none => .next s

end Sys2Proof.Machine
end

