-- ==== Sys2Proof/Machine/Dispatch.lean ====
section
/-! DEFINITION. One arm per constructor of Instr: a direct call of its meaning. -/

namespace Sys2Proof.Machine

open Sys2Proof

/-- What a row of the opcode table does in a state. -/
def exec (i : Instr) (s : State) : Host.Outcome State Fault Refusal :=
  match i with
  | .nop => Sys2Proof.Machine.execNop s
  | .setm k v => Sys2Proof.Machine.execSetm k v s
  | .getm d => Sys2Proof.Machine.execGetm d s
  | .yield => Sys2Proof.Machine.execYield s
  | .exit => Sys2Proof.Machine.execExit s
  | .exitSaved => Sys2Proof.Machine.execExitSaved s
  | .trap imm => Sys2Proof.Machine.execTrap imm s
  | .bkpt imm => Sys2Proof.Machine.execBkpt imm s
  | .gsr d n => Sys2Proof.Machine.execGsr d n s
  | .gsw a n => Sys2Proof.Machine.execGsw a n s
  | .xsr d x => Sys2Proof.Machine.execXsr d x s
  | .xsw a x => Sys2Proof.Machine.execXsw a x s
  | .eret => Sys2Proof.Machine.execEret s
  | .fence r q sc => Sys2Proof.Machine.execFence r q sc s
  | .xfence q p => Sys2Proof.Machine.execXfence q p s
  | .waita d a b t sc c => Sys2Proof.Machine.execWaita d a b t sc c s
  | .waitc d a b t => Sys2Proof.Machine.execWaitc d a b t s
  | .iadd d a b => Sys2Proof.Machine.execIadd d a b s
  | .isub d a b => Sys2Proof.Machine.execIsub d a b s
  | .imul d a b => Sys2Proof.Machine.execImul d a b s
  | .imulh d a b => Sys2Proof.Machine.execImulh d a b s
  | .imad d a b c => Sys2Proof.Machine.execImad d a b c s
  | .imin d a b => Sys2Proof.Machine.execImin d a b s
  | .imax d a b => Sys2Proof.Machine.execImax d a b s
  | .iabs d a => Sys2Proof.Machine.execIabs d a s
  | .and d a b => Sys2Proof.Machine.execAnd d a b s
  | .or d a b => Sys2Proof.Machine.execOr d a b s
  | .xor d a b => Sys2Proof.Machine.execXor d a b s
  | .andn d a b => Sys2Proof.Machine.execAndn d a b s
  | .shl d a b => Sys2Proof.Machine.execShl d a b s
  | .shr d a b => Sys2Proof.Machine.execShr d a b s
  | .sar d a b => Sys2Proof.Machine.execSar d a b s
  | .rotl d a b => Sys2Proof.Machine.execRotl d a b s
  | .popc d a => Sys2Proof.Machine.execPopc d a s
  | .clz d a => Sys2Proof.Machine.execClz d a s
  | .brev d a => Sys2Proof.Machine.execBrev d a s
  | .bfx d a b => Sys2Proof.Machine.execBfx d a b s
  | .bfi d a b c => Sys2Proof.Machine.execBfi d a b c s
  | .perm d a b c => Sys2Proof.Machine.execPerm d a b c s
  | .sel d a b n k => Sys2Proof.Machine.execSel d a b n k s
  | .lea d a b x sc => Sys2Proof.Machine.execLea d a b x sc s
  | .cmp k m a b c => Sys2Proof.Machine.execCmp k m a b c s
  | .cmpi k m a c v => Sys2Proof.Machine.execCmpi k m a c v s
  | .addi d a imm => Sys2Proof.Machine.execAddi d a imm s
  | .andi d a imm => Sys2Proof.Machine.execAndi d a imm s
  | .ori d a imm => Sys2Proof.Machine.execOri d a imm s
  | .xori d a imm => Sys2Proof.Machine.execXori d a imm s
  | .shli d a n => Sys2Proof.Machine.execShli d a n s
  | .shri d a n x => Sys2Proof.Machine.execShri d a n x s
  | .li d imm => Sys2Proof.Machine.execLi d imm s
  | .lih d v => Sys2Proof.Machine.execLih d v s
  | .mov d a => Sys2Proof.Machine.execMov d a s
  | .idot4 d a b c => Sys2Proof.Machine.execIdot4 d a b c s
  | .pmov k m a x n => Sys2Proof.Machine.execPmov k m a x n s
  | .plop k m u v l => Sys2Proof.Machine.execPlop k m u v l s
  | .fadd d a b => Sys2Proof.Machine.execFadd d a b s
  | .fsub d a b => Sys2Proof.Machine.execFsub d a b s
  | .fmul d a b => Sys2Proof.Machine.execFmul d a b s
  | .fma d a b c => Sys2Proof.Machine.execFma d a b c s
  | .fnma d a b c => Sys2Proof.Machine.execFnma d a b c s
  | .fmin d a b => Sys2Proof.Machine.execFmin d a b s
  | .fmax d a b => Sys2Proof.Machine.execFmax d a b s
  | .fabs d a => Sys2Proof.Machine.execFabs d a s
  | .fneg d a => Sys2Proof.Machine.execFneg d a s
  | .fcmp k m a b c => Sys2Proof.Machine.execFcmp k m a b c s
  | .fclass d a => Sys2Proof.Machine.execFclass d a s
  | .frcp d a => Sys2Proof.Machine.execFrcp d a s
  | .frsq d a => Sys2Proof.Machine.execFrsq d a s
  | .fsqrt d a => Sys2Proof.Machine.execFsqrt d a s
  | .fex2 d a => Sys2Proof.Machine.execFex2 d a s
  | .flg2 d a => Sys2Proof.Machine.execFlg2 d a s
  | .fsin d a => Sys2Proof.Machine.execFsin d a s
  | .fcos d a => Sys2Proof.Machine.execFcos d a s
  | .fscl d a b => Sys2Proof.Machine.execFscl d a b s
  | .frnd d a => Sys2Proof.Machine.execFrnd d a s
  | .cvt d a t => Sys2Proof.Machine.execCvt d a t s
  | .cvtn d a b f => Sys2Proof.Machine.execCvtn d a b f s
  | .cvtw d a b f => Sys2Proof.Machine.execCvtw d a b f s
  | .fdot2 d a b c => Sys2Proof.Machine.execFdot2 d a b c s
  | .shfl d a b m => Sys2Proof.Machine.execShfl d a b m s
  | .vote d n k m => Sys2Proof.Machine.execVote d n k m s
  | .bcst d a b => Sys2Proof.Machine.execBcst d a b s
  | .rdx a p => Sys2Proof.Machine.execRdx a p s
  | .rdxwWait d a => Sys2Proof.Machine.execRdxwWait d a s
  | .rdxwSeq d => Sys2Proof.Machine.execRdxwSeq d s
  | .rdxwSet a b => Sys2Proof.Machine.execRdxwSet a b s
  | .scan d a p => Sys2Proof.Machine.execScan d a p s
  | .mbwVector d k => Sys2Proof.Machine.execMbwVector d k s
  | .mbwGroup d k => Sys2Proof.Machine.execMbwGroup d k s
  | .mbrVector d p k => Sys2Proof.Machine.execMbrVector d p k s
  | .mbrGroup d p k => Sys2Proof.Machine.execMbrGroup d p k s
  | .bra n p o => Sys2Proof.Machine.execBra n p o s
  | .brc n p o => Sys2Proof.Machine.execBrc n p o s
  | .join => Sys2Proof.Machine.execJoin s
  | .call o => Sys2Proof.Machine.execCall o s
  | .ret => Sys2Proof.Machine.execRet s
  | .jmpi a l => Sys2Proof.Machine.execJmpi a l s
  | .loop k o => Sys2Proof.Machine.execLoop k o s
  | .balw k o => Sys2Proof.Machine.execBalw k o s
  | .bar n t k => Sys2Proof.Machine.execBar n t k s
  | .barx a t l k => Sys2Proof.Machine.execBarx a t l k s
  | .gbara d a b m => Sys2Proof.Machine.execGbara d a b m s
  | .gbarw d a b t => Sys2Proof.Machine.execGbarw d a b t s
  | .step d a x => Sys2Proof.Machine.execStep d a x s
  | .stepe d a => Sys2Proof.Machine.execStepe d a s
  | .carve k c sc => Sys2Proof.Machine.execCarve k c sc s
  | .ld d a imm => Sys2Proof.Machine.execLd d a imm s
  | .ldn d a imm => Sys2Proof.Machine.execLdn d a imm s
  | .st d a imm => Sys2Proof.Machine.execSt d a imm s
  | .stn d a imm => Sys2Proof.Machine.execStn d a imm s
  | .lds d a imm => Sys2Proof.Machine.execLds d a imm s
  | .sts d a imm => Sys2Proof.Machine.execSts d a imm s
  | .ldx d a b x sc => Sys2Proof.Machine.execLdx d a b x sc s
  | .stx d a b x sc => Sys2Proof.Machine.execStx d a b x sc s
  | .ldacq d a sc => Sys2Proof.Machine.execLdacq d a sc s
  | .strel d a sc => Sys2Proof.Machine.execStrel d a sc s
  | .ldsc d a sc => Sys2Proof.Machine.execLdsc d a sc s
  | .stsc d a sc => Sys2Proof.Machine.execStsc d a sc s
  | .atom d a b sc p => Sys2Proof.Machine.execAtom d a b sc p s
  | .atomar d a b sc p => Sys2Proof.Machine.execAtomar d a b sc p s
  | .atomsc d a b sc p => Sys2Proof.Machine.execAtomsc d a b sc p s
  | .red d a sc p => Sys2Proof.Machine.execRed d a sc p s
  | .atoms d a b p => Sys2Proof.Machine.execAtoms d a b p s
  | .pref t a imm => Sys2Proof.Machine.execPref t a imm s
  | .flagw d a b g => Sys2Proof.Machine.execFlagw d a b g s
  | .cctl p a imm => Sys2Proof.Machine.execCctl p a imm s
  | .cpy a b f => Sys2Proof.Machine.execCpy a b f s
  | .cpyt a b f => Sys2Proof.Machine.execCpyt a b f s
  | .cpyw a b k f => Sys2Proof.Machine.execCpyw a b k f s
  | .cpyo a b f => Sys2Proof.Machine.execCpyo a b f s
  | .cpyr a b f => Sys2Proof.Machine.execCpyr a b f s
  | .cpyx a b f => Sys2Proof.Machine.execCpyx a b f s
  | .cpyq a b f => Sys2Proof.Machine.execCpyq a b f s
  | .mgo d a => Sys2Proof.Machine.execMgo d a s
  | .mwait d a t => Sys2Proof.Machine.execMwait d a t s
  | .mma d a b t u f => Sys2Proof.Machine.execMma d a b t u f s
  | .mzero d => Sys2Proof.Machine.execMzero d s
  | .mout d a b r f => Sys2Proof.Machine.execMout d a b r f s
  | .mload d a f => Sys2Proof.Machine.execMload d a f s
  | .mamax a b => Sys2Proof.Machine.execMamax a b s
  | .mfence w => Sys2Proof.Machine.execMfence w s
  | .mbar n t k => Sys2Proof.Machine.execMbar n t k s
  | .mli d v => Sys2Proof.Machine.execMli d v s
  | .mliH d v => Sys2Proof.Machine.execMliH d v s
  | .madd d a imm => Sys2Proof.Machine.execMadd d a imm s
  | .mloop k o => Sys2Proof.Machine.execMloop k o s
  | .mjmp o => Sys2Proof.Machine.execMjmp o s
  | .mend => Sys2Proof.Machine.execMend s
  | .mfill c sc => Sys2Proof.Machine.execMfill c sc s
  | .mscl d a b f => Sys2Proof.Machine.execMscl d a b f s
  | .gadd d a b => Sys2Proof.Machine.execGadd d a b s
  | .gsub d a b => Sys2Proof.Machine.execGsub d a b s
  | .gmul d a b => Sys2Proof.Machine.execGmul d a b s
  | .gand d a b => Sys2Proof.Machine.execGand d a b s
  | .gor d a b => Sys2Proof.Machine.execGor d a b s
  | .gxor d a b => Sys2Proof.Machine.execGxor d a b s
  | .gshl d a b => Sys2Proof.Machine.execGshl d a b s
  | .gshr d a b => Sys2Proof.Machine.execGshr d a b s
  | .gsar d a b => Sys2Proof.Machine.execGsar d a b s
  | .gmin d a b => Sys2Proof.Machine.execGmin d a b s
  | .gmax d a b => Sys2Proof.Machine.execGmax d a b s
  | .gcmp k m a b c => Sys2Proof.Machine.execGcmp k m a b c s
  | .gli d v => Sys2Proof.Machine.execGli d v s
  | .gliH d v => Sys2Proof.Machine.execGliH d v s
  | .gaddi d a imm => Sys2Proof.Machine.execGaddi d a imm s
  | .gld d a imm => Sys2Proof.Machine.execGld d a imm s
  | .gst d a imm => Sys2Proof.Machine.execGst d a imm s
  | .mtaga d a sc => Sys2Proof.Machine.execMtaga d a sc s
  | .mtagf d a b => Sys2Proof.Machine.execMtagf d a b s
  | .mjoinVector d a b p => Sys2Proof.Machine.execMjoinVector d a b p s
  | .mjoinGroup a b p => Sys2Proof.Machine.execMjoinGroup a b p s
  | .launch d a q => Sys2Proof.Machine.execLaunch d a q s
  | .lqcfg d a b q => Sys2Proof.Machine.execLqcfg d a b q s
  | .snapArm d a b => Sys2Proof.Machine.execSnapArm d a b s
  | .snapCancel d a => Sys2Proof.Machine.execSnapCancel d a s
  | .snapLoad d a b => Sys2Proof.Machine.execSnapLoad d a b s
  | .keyld d a b w p => Sys2Proof.Machine.execKeyld d a b w p s
  | .migrCpy d a b z => Sys2Proof.Machine.execMigrCpy d a b z s
  | .migrEnd d a b z => Sys2Proof.Machine.execMigrEnd d a b z s
  | .tslot d a b p => Sys2Proof.Machine.execTslot d a b p s
  | .tlbi a b sc f => Sys2Proof.Machine.execTlbi a b sc f s
  | .pendBind a => Sys2Proof.Machine.execPendBind a s
  | .pendImp a => Sys2Proof.Machine.execPendImp a s
  | .creq d a b => Sys2Proof.Machine.execCreq d a b s
  | .cawt d a b m => Sys2Proof.Machine.execCawt d a b m s
  | .cuse d a b => Sys2Proof.Machine.execCuse d a b s
  | .crel d a m => Sys2Proof.Machine.execCrel d a m s
  | .cstat d a => Sys2Proof.Machine.execCstat d a s
  | .epsnd d a b => Sys2Proof.Machine.execEpsnd d a b s
  | .eprcv d a b => Sys2Proof.Machine.execEprcv d a b s
  | .time d => Sys2Proof.Machine.execTime d s
  | .htune d a m => Sys2Proof.Machine.execHtune d a m s
  | .laneValueDelivery f => Sys2Proof.Machine.execLaneValueDelivery f s
  | .storeBufferDrain c e => Sys2Proof.Machine.execStoreBufferDrain c e s
  | .homeWritePerform p w => Sys2Proof.Machine.execHomeWritePerform p w s
  | .storeAck f => Sys2Proof.Machine.execStoreAck f s
  | .l1LineExpiry c l => Sys2Proof.Machine.execL1LineExpiry c l s
  | .atomicPerform f => Sys2Proof.Machine.execAtomicPerform f s
  | .faultRecordWrite d => Sys2Proof.Machine.execFaultRecordWrite d s
  | .deferredCauseTaken c => Sys2Proof.Machine.execDeferredCauseTaken c s
  | .courseFinish c => Sys2Proof.Machine.execCourseFinish c s
  | .versionOverflowCommit t => Sys2Proof.Machine.execVersionOverflowCommit t s
  | .scratchpadLaneComplete f => Sys2Proof.Machine.execScratchpadLaneComplete f s
  | .windowAccess f => Sys2Proof.Machine.execWindowAccess f s
  | .barrierWaiterRelease wide o b => Sys2Proof.Machine.execBarrierWaiterRelease wide o b s
  | .genBarrierUpdate f => Sys2Proof.Machine.execGenBarrierUpdate f s
  | .copyChunkWrite n u => Sys2Proof.Machine.execCopyChunkWrite n u s
  | .copyComplete n => Sys2Proof.Machine.execCopyComplete n s
  | .cpywFillStart n => Sys2Proof.Machine.execCpywFillStart n s
  | .cpyxSendStart n => Sys2Proof.Machine.execCpyxSendStart n s
  | .mmaComplete t => Sys2Proof.Machine.execMmaComplete t s
  | .batchRetire t => Sys2Proof.Machine.execBatchRetire t s
  | .slewStep q => Sys2Proof.Machine.execSlewStep q s
  | .powerEstimate q temp => Sys2Proof.Machine.execPowerEstimate q temp s
  | .kilnUpdate d => Sys2Proof.Machine.execKilnUpdate d s
  | .pmcHeartbeat p v => Sys2Proof.Machine.execPmcHeartbeat p v s
  | .heartbeatMiss p => Sys2Proof.Machine.execHeartbeatMiss p s
  | .imageUpdateAnnounce p => Sys2Proof.Machine.execImageUpdateAnnounce p s
  | .comparatorTrip p => Sys2Proof.Machine.execComparatorTrip p s
  | .comparatorRelease p => Sys2Proof.Machine.execComparatorRelease p s
  | .thermalThrottle q => Sys2Proof.Machine.execThermalThrottle q s
  | .thermalThrottleRelease q => Sys2Proof.Machine.execThermalThrottleRelease q s
  | .thermalTrip p => Sys2Proof.Machine.execThermalTrip p s
  | .monitorSample die n ch v => Sys2Proof.Machine.execMonitorSample die n ch v s
  | .monitorClr die n ch => Sys2Proof.Machine.execMonitorClr die n ch s
  | .scratchpadIngressClose c => Sys2Proof.Machine.execScratchpadIngressClose c s
  | .quadGate q => Sys2Proof.Machine.execQuadGate q s
  | .quadPowerUp q => Sys2Proof.Machine.execQuadPowerUp q s
  | .flagApply p imm => Sys2Proof.Machine.execFlagApply p imm s
  | .admissionDecision d => Sys2Proof.Machine.execAdmissionDecision d s
  | .saveComplete t => Sys2Proof.Machine.execSaveComplete t s
  | .pendingDivert f => Sys2Proof.Machine.execPendingDivert f s
  | .pendingRedirect f => Sys2Proof.Machine.execPendingRedirect f s
  | .probeTimer k n => Sys2Proof.Machine.execProbeTimer k n s
  | .probe d imm => Sys2Proof.Machine.execProbe d imm s
  | .faultQueueResume d tok => Sys2Proof.Machine.execFaultQueueResume d tok s
  | .regionEntryWrite d n w v => Sys2Proof.Machine.execRegionEntryWrite d n w v s
  | .patrolScrub pa corrected => Sys2Proof.Machine.execPatrolScrub pa corrected s
  | .uncorrectableError k n x y => Sys2Proof.Machine.execUncorrectableError k n x y s
  | .eccCounterClr d => Sys2Proof.Machine.execEccCounterClr d s
  | .mortarOperand m => Sys2Proof.Machine.execMortarOperand m s
  | .jointCounterAdd j c => Sys2Proof.Machine.execJointCounterAdd j c s
  | .halfArrival m => Sys2Proof.Machine.execHalfArrival m s
  | .orphanTimeout m => Sys2Proof.Machine.execOrphanTimeout m s
  | .kick p port v => Sys2Proof.Machine.execKick p port v s
  | .kickSlotRead p imm => Sys2Proof.Machine.execKickSlotRead p imm s
  | .kickAppend p imm => Sys2Proof.Machine.execKickAppend p imm s
  | .packetStart d => Sys2Proof.Machine.execPacketStart d s
  | .keystoneRead p port => Sys2Proof.Machine.execKeystoneRead p port s
  | .keystoneRelease p port => Sys2Proof.Machine.execKeystoneRelease p port s
  | .keystoneLeaseExpiry p => Sys2Proof.Machine.execKeystoneLeaseExpiry p s
  | .hostMemoryAccess p port o n write data => Sys2Proof.Machine.execHostMemoryAccess p port o n write data s
  | .powerOn p => Sys2Proof.Machine.execPowerOn p s
  | .pkgrstWrite p => Sys2Proof.Machine.execPkgrstWrite p s
  | .pmcWatchdogReset p => Sys2Proof.Machine.execPmcWatchdogReset p s
  | .portReset p port => Sys2Proof.Machine.execPortReset p port s
  | .hbmThermalThrottle p stack => Sys2Proof.Machine.execHbmThermalThrottle p stack s
  | .hbmThermalRelease p stack => Sys2Proof.Machine.execHbmThermalRelease p stack s
  | .registerWrite p src off size v => Sys2Proof.Machine.execRegisterWrite p src off size v s
  | .snapshotDrainLine p imm => Sys2Proof.Machine.execSnapshotDrainLine p imm s
  | .snapshotDone p => Sys2Proof.Machine.execSnapshotDone p s
  | .snapshotLoadComplete p done image poison => Sys2Proof.Machine.execSnapshotLoadComplete p done image poison s
  | .ucieLinkDown p e => Sys2Proof.Machine.execUcieLinkDown p e s
  | .holdExpiry p n => Sys2Proof.Machine.execHoldExpiry p n s
  | .mcWatchdogReset p e => Sys2Proof.Machine.execMcWatchdogReset p e s
  | .mcReturn p e => Sys2Proof.Machine.execMcReturn p e s
  | .wallLinkRestart p n => Sys2Proof.Machine.execWallLinkRestart p n s
  | .channelLockLoss p n => Sys2Proof.Machine.execChannelLockLoss p n s
  | .channelRelock p n => Sys2Proof.Machine.execChannelRelock p n s
  | .lockAchieved p n ch => Sys2Proof.Machine.execLockAchieved p n ch s
  | .lockTimeout p n => Sys2Proof.Machine.execLockTimeout p n s
  | .deskewDone p n => Sys2Proof.Machine.execDeskewDone p n s
  | .trainTimeout p n => Sys2Proof.Machine.execTrainTimeout p n s
  | .authSuccess p n => Sys2Proof.Machine.execAuthSuccess p n s
  | .authFailure p n => Sys2Proof.Machine.execAuthFailure p n s
  | .authTimeout p n => Sys2Proof.Machine.execAuthTimeout p n s
  | .errorWindowExceeded p n w => Sys2Proof.Machine.execErrorWindowExceeded p n w s
  | .flitAck p n q => Sys2Proof.Machine.execFlitAck p n q s
  | .quarantineExit p n => Sys2Proof.Machine.execQuarantineExit p n s
  | .heaterMarginChange p e ch tx rx => Sys2Proof.Machine.execHeaterMarginChange p e ch tx rx s
  | .readRequest n => Sys2Proof.Machine.execReadRequest n s
  | .readReply n => Sys2Proof.Machine.execReadReply n s
  | .writePlain n => Sys2Proof.Machine.execWritePlain n s
  | .writeRelease n => Sys2Proof.Machine.execWriteRelease n s
  | .writeSc n => Sys2Proof.Machine.execWriteSc n s
  | .acknowledgement n => Sys2Proof.Machine.execAcknowledgement n s
  | .atomicRequest n => Sys2Proof.Machine.execAtomicRequest n s
  | .atomicReply n => Sys2Proof.Machine.execAtomicReply n s
  | .redPacket n => Sys2Proof.Machine.execRedPacket n s
  | .flagwPacket n => Sys2Proof.Machine.execFlagwPacket n s
  | .invalidate n => Sys2Proof.Machine.execInvalidate n s
  | .invalidateAck n => Sys2Proof.Machine.execInvalidateAck n s
  | .promoteRequest wall n => Sys2Proof.Machine.execPromoteRequest wall n s
  | .promoteAnswer wall n => Sys2Proof.Machine.execPromoteAnswer wall n s
  | .copyChunk n => Sys2Proof.Machine.execCopyChunk n s
  | .jointWrite n => Sys2Proof.Machine.execJointWrite n s
  | .snapshotHeldNotice n => Sys2Proof.Machine.execSnapshotHeldNotice n s
  | .streamOpen p l ids tag flags addr key => Sys2Proof.Machine.execStreamOpen p l ids tag flags addr key s
  | .compressedPacket p l c tag delta => Sys2Proof.Machine.execCompressedPacket p l c tag delta s
  | .relayForward n => Sys2Proof.Machine.execRelayForward n s
  | .routeChange p j => Sys2Proof.Machine.execRouteChange p j s
  | .wallTimeout k p n => Sys2Proof.Machine.execWallTimeout k p n s
  | .fateQuery p tag => Sys2Proof.Machine.execFateQuery p tag s
  | .fateAnswer p tag => Sys2Proof.Machine.execFateAnswer p tag s
  | .fateNoAnswer p n => Sys2Proof.Machine.execFateNoAnswer p n s
  | .scClockResetRequest c => Sys2Proof.Machine.execScClockResetRequest c s
  | .scQuiescentReport p => Sys2Proof.Machine.execScQuiescentReport p s
  | .scriptRecordAppend p port v => Sys2Proof.Machine.execScriptRecordAppend p port v s
  | .scriptStart p => Sys2Proof.Machine.execScriptStart p s
  | .switchGrant p => Sys2Proof.Machine.execSwitchGrant p s
  | .switchDeny p => Sys2Proof.Machine.execSwitchDeny p s
  | .cawtTimeout p => Sys2Proof.Machine.execCawtTimeout p s
  | .circuitChunk n p c off step poi data => Sys2Proof.Machine.execCircuitChunk n p c off step poi data s
  | .circuitChunkAck n ok => Sys2Proof.Machine.execCircuitChunkAck n ok s
  | .circuitReleaseComplete p b => Sys2Proof.Machine.execCircuitReleaseComplete p b s
  | .planeDataFrame p port n frame => Sys2Proof.Machine.execPlaneDataFrame p port n frame s
  | .planeAckFrame p n frame => Sys2Proof.Machine.execPlaneAckFrame p n frame s
  | .planeOpenFrame p port n frame => Sys2Proof.Machine.execPlaneOpenFrame p port n frame s
  | .planeResendTimer p k => Sys2Proof.Machine.execPlaneResendTimer p k s
  | .planeUnreachable p k => Sys2Proof.Machine.execPlaneUnreachable p k s
  | .eprcvTimeout p => Sys2Proof.Machine.execEprcvTimeout p s
  | .barrierPartArrival l p pbg k src => Sys2Proof.Machine.execBarrierPartArrival l p pbg k src s
  | .barrierReleaseMessage l p pbg k => Sys2Proof.Machine.execBarrierReleaseMessage l p pbg k s
  | .timeSync p off => Sys2Proof.Machine.execTimeSync p off s
  | .illegalInstructionWord w => Sys2Proof.Machine.execIllegalInstructionWord w s
  | .migrationLineCopy d imm => Sys2Proof.Machine.execMigrationLineCopy d imm s
  | .moutMloadPerformed t => Sys2Proof.Machine.execMoutMloadPerformed t s
  | .mfillComplete t => Sys2Proof.Machine.execMfillComplete t s
  | .ucieLinkUp p e => Sys2Proof.Machine.execUcieLinkUp p e s
  | .weazonPortDown p w => Sys2Proof.Machine.execWeazonPortDown p w s
  | .weazonPortUp p w => Sys2Proof.Machine.execWeazonPortUp p w s
  | .groupReply f => Sys2Proof.Machine.execGroupReply f s

end Sys2Proof.Machine
end

