-- ==== Sys2Proof/Machine/Issue.lean ====
section
/-! DEFINITION. Whose word comes next (02_instruction_words R42, R48, R49; 08_core R183-R186; 12_traps R443; 17_die_launch
R346, R348; 20_package R376): fetching a word, readiness, the issues of one cycle, one turn. -/

namespace Sys2Proof.Machine

open Sys2Proof

/-! ## Fetching (R48, R49) -/

/-- A fetch that fails (R49, R249, R348): TADDR is the PC; a stream stops for reason 7. -/
def State.fetchFails (s : State) (a : Agent) (c : Cause) (va tinfo : Nat) : State :=
  let s := match s.xlatOf a with | some x => s.logSecure x c va tinfo | none => s
  match a with
  | .seq t => s.stopStream t 0 c.code 7 (BitVec.ofNat 64 va)
  | _ => s.enterTrap c (match a with | .course .. => s.pc | _ => va) 0 tinfo

/-- A recoverable miss of a fetch (R49, R169, R251): the slot parks with TADDR the PC; a second miss of a course waits for
the first. Its replay mask is 0, the word then runs whole, unless the slot was to re-execute for some lanes (log 86). -/
def State.fetchMisses (s : State) (a : Agent) (va : Nat) : State :=
  match a with
  | .course k str =>
    (match s.course? k with
     | some c =>
       if c.missHeld then s
       else (s.park k str ((c.slot str).replay.getD 0#32) va .fetch).modCourse k fun c => { c with taddr := BitVec.ofNat 64 (c.slot str).pc.toNat }
     | none => s)
  | .seq t => (match s.team? t with | some x => s.streamMiss t x va .fetch | none => s)
  | .kcore _ | .lintel _ => s

/-! ## Readiness (R184) -/

/-- Whether a hold lets the agent try again: all but a reply still awaited. -/
def Hold.tries (h : Hold) : Bool := match h with | .reply _ => false | _ => true

/-- Whether the package of an agent is out of reset. -/
def State.pkgRuns (s : State) (a : Agent) : Bool := !(s.pkg (s.pkgOf a)).held && !(s.pkg (s.pkgOf a)).booting

/-- Whether a processor may issue (R346, R348, R376, R417): its run bit set, HALT clear. -/
def State.procRuns (s : State) (a : Agent) : Bool :=
  let (p, b) := procBase a
  let bit := match a with | .kcore d => d % 8 | _ => 8
  (s.reg p (pkgBase + 0x10)).testBit bit && !(s.reg p (b + 0x14)).testBit 1

/-- Whether an agent may try its next word, whatever that word needs. -/
def State.mayIssue (s : State) (a : Agent) : Bool :=
  s.pkgRuns a && (match a with
  | .course k str =>
    (match s.course? k, s.team? (k / 16) with
     | some c, some t =>
       let x := c.slot str
       let carving := t.carve.any fun e => decide (e.1 / 2 = k) && (decide (8 ≤ e.2.2) == c.handler)
       decide (c.life = .live) && decide (x.mask ≠ 0#32) && x.parked.isNone && x.hold.tries && !carving &&
         !s.gated (quadOfCore t.core) && (decide (t.residency = .resident) || decide (t.residency = .saving))
     | _, _ => false)
  | .seq t =>
    (match s.team? t with
     | some x => decide (x.seq.run = .running) && x.seq.token.isNone && x.seq.pending.isNone &&
         !s.gated (quadOfCore x.core) && decide (x.residency = .resident)
     | none => false)
  | .kcore d => s.procRuns a && ((s.die d).kcore.running || (s.die d).kcore.deadlock) && (s.die d).kcore.hold.tries
  | .lintel p => s.procRuns a && (s.pkg p).lintel.running && (s.pkg p).lintel.hold.tries)

/-! ## One issue -/

/-- A fetched word decoded and executed; one that decodes to nothing is the table's last row. -/
def State.runFetched (s : State) (w : Word) : Out :=
  match decode w with
  | .ok i => exec i s
  | .error _ => execIllegalInstructionWord w s

/-- Whether an instruction of a slot has begun and is not complete: held, parked, or to re-execute for some lanes; an MWAIT that waits
is evaluated anew. -/
def Slot.begun (x : Slot) : Bool := decide (x.hold ≠ .free ∧ x.hold ≠ .batch) || x.parked.isSome || x.replay.isSome

/-- Whether a word changes registers that a word of the other slot reads: SETM, GSW. A core issues one such word a cycle
(R44, R186), and the other slot's is then of the vector or the memory class. -/
def Before.writes (b : Before) : Bool := decide (opOf b.word = 0x01) || decide (opOf b.word = 0x08)

/-- The course as a stretcher slot's word sees it after the header slot's word of the same cycle (R118, R124): SETM and
GSW take effect in later cycles. -/
def Course.viewBefore (c : Course) (b : Before) : Course :=
  if b.writes then
    { c with mode := b.course.mode, fpflags := 0#5, srSeedV := b.course.srSeedV, srSeedO := b.course.srSeedO,
             alwLow := b.course.alwLow, hbase := b.course.hbase }
  else c

/-- MODE put back after a word that ran under an older one; a trap entry has saved it instead. -/
def Course.putMode (c d : Course) : Course :=
  if d.handler = c.handler then { d with mode := c.mode } else { d with xMode := c.mode }

/-- The course after that word: what the header slot's wrote stands. A seed that the header's GSW has changed keeps that value, and
the stretcher's advance of it in the cycle is lost (DESIGN CHOICE, log 117: R124 gives no order of the two). -/
def Course.mergeAfter (c : Course) (b : Before) (d : Course) : Course :=
  if b.writes then
    { c.putMode d with
      fpflags := c.fpflags ||| d.fpflags, hbase := c.hbase
      srSeedV := if c.srSeedV = b.course.srSeedV then d.srSeedV else c.srSeedV
      srSeedO := if c.srSeedO = b.course.srSeedO then d.srSeedO else c.srSeedO
      alwLow := c.alwLow }
  else d

/-- What an issue of a slot sees of the header slot's word of the same cycle, if there was one. -/
def State.beforeFor (s : State) (k : Nat) (str : Bool) : Option Before :=
  match s.before with
  | some b => if b.key = k ∧ str = true then some b else none
  | none => none

/-- The state as an agent's word reads it at issue: MODE as its slot has kept it since the word began (R118), and what a
word of the same cycle has not changed yet. -/
def State.seenBy (s : State) (a : Agent) : State :=
  match a with
  | .course k str =>
    (match s.course? k with
     | some c =>
       (match (c.slot str).kept, s.beforeFor k str with
        | none, none => s
        | some m, none => s.setCourse k { c with mode := m }
        | none, some b => s.setCourse k (c.viewBefore b)
        | some m, some b => s.setCourse k { c.viewBefore b with mode := m })
     | none => s)
  | _ => s

/-- The MODE that a word of a slot reads. -/
def State.modeSeen (s : State) (k : Nat) (str : Bool) (c : Course) : Word :=
  match (c.slot str).kept, s.beforeFor k str with
  | some m, _ => m
  | none, some b => (c.viewBefore b).mode
  | none, none => c.mode

/-- What a word that read an older MODE leaves: MODE as the course has it, kept by the slot while the word is not complete;
one that its own trap has ended is issued anew. -/
def Course.keepMode (c d : Course) (str : Bool) (seen : Word) : Course :=
  let d := if (c.slot str).kept.isSome then c.putMode d else d
  if d.handler = c.handler then d.setSlot str { d.slot str with kept := if (d.slot str).begun then some seen else none }
  else if str then { d with xStretcher := { d.xStretcher with kept := none } }
  else { d with xHeader := { d.xHeader with kept := none } }

/-- The state after an agent's word that ran on seenBy. -/
def State.settled (s : State) (a : Agent) (t : State) : State :=
  match a with
  | .course k str =>
    (match s.course? k, t.course? k with
     | some c, some d =>
       (match (c.slot str).kept, s.beforeFor k str, (d.slot str).begun with
        | none, none, false => t
        | _, b, _ =>
          let d := match b with | some b => c.mergeAfter b d | none => d
          t.setCourse k (c.keepMode d str (s.modeSeen k str c)))
     | _, _ => t)
  | _ => t

/-- A fetched word run by its agent. -/
def State.issueWord (s : State) (a : Agent) (w : Word) : Out :=
  match (s.seenBy a).runFetched w with
  | .next t => .next (s.settled a t)
  | o => o

/-- A held DEADLOCK reaches a control core at an instruction boundary with TACT clear (R348). -/
def State.deadlockDue (s : State) (a : Agent) : Bool :=
  match a with
  | .kcore d => (s.die d).kcore.deadlock && decide ((s.die d).kcore.hold = .free) &&
      !(s.reg (d / 8) (distBase (d % 8) + 0x14)).testBit 0
  | _ => false
def State.takeDeadlock (s : State) (a : Agent) : State :=
  match a with
  | .kcore d =>
    let s := s.modDie d fun y => { y with kcore := { y.kcore with deadlock := false, alone := !y.kcore.running, running := true } }
    s.trapProc a .deadlock 0 0
  | _ => s

/-- Whether a processor's trap waits for its frame (R348). -/
def State.entryDue (s : State) (a : Agent) : Bool :=
  match s.proc? a with
  | some p => p.entry.isSome
  | none => false

/-- A waiting trap goes on: the copies of its frame's lines are called back, or it is entered (R325, R348). -/
def State.goEntry (s : State) (a : Agent) : State :=
  match s.frameShared a with
  | some pa => s.invalidate pa
  | none => s.enterProc a

/-- The deferred cause a course takes before its next issue (R443). -/
def State.causeDue (s : State) (a : Agent) : Option Nat :=
  match a with
  | .course k _ => (match s.course? k with | some c => if c.held ≠ [] ∧ !c.handler then some k else none | none => none)
  | _ => none

/-- An agent issues: what it must take first, else its next word. -/
def State.issue (s : State) (a : Agent) : Out :=
  let s := { s with cur := a }
  if !s.mayIssue a then .next s
  else match s.causeDue a with
  | some k => execDeferredCauseTaken k s
  | none =>
    if s.entryDue a then .next (s.goEntry a)
    else if s.deadlockDue a then .next (s.takeDeadlock a)
    else if !s.curRuns then .next s
    else match (s.seenBy a).fetch a with
      | .word w => s.issueWord a w
      | .miss va => .next (s.fetchMisses a va)
      | .bad c va ti => .next (s.fetchFails a c va ti)

/-! ## The issues of a cycle (R183-R186) -/

/-- A slot that could issue: its agent and team, its word's class (none: it has no word to run, or one that no course
runs, and takes the group slot), its charge, and whether it yielded. -/
structure Cand where
  agent : Agent
  team : Nat
  cls : IssueClass
  charge : Nat
  deriving DecidableEq, Repr

/-- Whether an issue now would do anything. -/
def State.ready (s : State) (a : Agent) : Bool :=
  s.mayIssue a && (match s.issue a with | .next t => decide (t ≠ { s with cur := a }) | _ => true)

/-- The candidates of a core in team order, header before stretcher (R186). -/
def State.cands (s : State) (core : Nat) : List (Cand × Bool) :=
  List.flatMap (fun (kt : Nat × Team) => List.flatMap (fun (kc : Nat × Course) =>
    [false, true].filterMap fun str =>
      let x := kc.2.slot str
      let a := Agent.course kc.1 str
      if x.mask = 0#32 ∨ !s.ready a then none
      else
        let op := match s.fetch a with | .word w => opOf w | _ => 0
        let cls := match issueClass op with | .vector => IssueClass.vector | .memory => .memory | _ => .group
        some ({ agent := a, team := kt.1, cls := cls, charge := s.chargeOf core op kc.2.et.wide (kc.2.slot str).mask }, x.yielded))
    (s.coursesOf kt.1)) (s.teamsOn core)

/-- order(c) of R186: from a team on, wrapping, slots that yielded last. The teams' cyclic order is that of their handles, in
which they were admitted (DESIGN CHOICE, log 5: R186 names no order of a core's teams). -/
def orderFrom (p : Nat) (cs : List (Cand × Bool)) : List Cand :=
  let r := (cs.filter fun c => decide (p ≤ c.1.team)) ++ cs.filter fun c => decide (c.1.team < p)
  ((r.filter fun c => !c.2) ++ r.filter fun c => c.2).map fun c => c.1

/-- The four selections of R186. -/
structure Picks where
  x0 : Option Cand
  x1 : Option Cand
  xg : Option Cand
  xm : Option Cand
  deriving DecidableEq, Repr

def pickIssues (c : Core) (allow : Nat) (cs : List (Cand × Bool)) : Picks :=
  let of' (k : IssueClass) (p : Nat) : List Cand := (orderFrom p cs).filter fun x => decide (x.cls = k)
  let x0 := (of' .vector c.ptrVector).head?
  let x1 := match x0 with
    | some a => (of' .vector c.ptrVector).find? fun b => decide (b.agent ≠ a.agent) && decide (a.charge + b.charge ≤ allow)
    | none => none
  { x0 := x0, x1 := x1, xg := (of' .group c.ptrGroup).head?, xm := (of' .memory c.ptrMemory).head? }

/-- Header slots before stretcher slots of one course, so that of two traps the header's is taken (R42). -/
def headerFirst (as : List Agent) : List Agent :=
  let str (a : Agent) : Bool := match a with | .course _ b => b | _ => false
  as.filter (fun a => !str a) ++ as.filter str

/-- A slot that yielded ranks last in one decision alone (R120). -/
def State.endYields (s : State) (core : Nat) : State :=
  let ts := (s.teamsOn core).map fun kt => kt.1
  { s with courses := s.courses.map fun (kc : Nat × Course) =>
      if ts.contains (kc.1 / 16) && (kc.2.header.yielded || kc.2.stretcher.yielded) then
        (kc.1, { kc.2 with header := { kc.2.header with yielded := false }, stretcher := { kc.2.stretcher with yielded := false } })
      else kc }

/-- The turns of a cycle's agents: both slots of one course are one turn. -/
def pairUp (as : List Agent) : List Turn :=
  as.filterMap fun a => match a with
    | .course k false => some (if as.contains (.course k true) then .pair k else .issue a)
    | .course k true => if as.contains (.course k false) then none else some (.issue a)
    | _ => some (.issue a)

/-- A core's cycle: its selections, pointers moved, the charge above VBASE of its vector issues (R303). -/
def State.coreCycle (s : State) (core : Nat) : State × List Agent :=
  let q := quadOfCore core
  let (p, _, base) := quadAt q
  let x := pickIssues (s.core core) (s.quad q).allow (s.cands core)
  let after (old : Nat) (w : Option Cand) : Nat := match w with | some c => c.team + 1 | none => old
  let s := s.modCore core fun c =>
    { c with ptrVector := after c.ptrVector x.x0, ptrGroup := after c.ptrGroup x.xg, ptrMemory := after c.ptrMemory x.xm }
  let ch (w : Option Cand) : Nat := match w with | some c => c.charge | none => 0
  let s := s.modQuad q fun y => { y with excess := y.excess + (ch x.x0 + ch x.x1 - s.reg p (base + 0x18)) }
  let s := s.endYields core
  let seqs := (s.teamsOn core).map fun (kt : Nat × Team) => Agent.seq kt.1
  (s, headerFirst ([x.x0, x.x1, x.xg, x.xm].filterMap fun w => w.map Cand.agent) ++ seqs)

/-- The cores that hold teams, in order. -/
def State.busyCores (s : State) : List Nat :=
  List.foldl (fun (a : List Nat) (kt : Nat × Team) =>
    if kt.2.residency = .resident ∨ kt.2.residency = .saving then (if a.contains kt.2.core then a else a ++ [kt.2.core]) else a)
    [] s.teams

/-- Sector and idle-floor charges of a quad's cycle (R302), and the kiln's count of cycles (R312). -/
def State.quadCycle (s : State) (q : Nat) : State :=
  let (p, d, _) := quadAt q
  if s.gated q then s
  else
    let x := s.quad q
    let on := x.sectors.toList.foldl (· + ·) 0
    let held := ((List.range 4).filter fun i => !(s.teamsOn (4 * q + i)).isEmpty).length
    s.setQuad q { x with charge := x.charge + s.weight p d (q % 24) 12 * on + s.weight p d (q % 24) 14 * held,
                         cycles := x.cycles + 1 }

/-- One cycle: what every core, sequencer and processor issues, put on the agenda; the pod's reference clock and package time move on
(R436; log 2). -/
def State.cycle (s : State) : State :=
  let (s, as) := s.busyCores.foldl (fun (r : State × List Agent) core =>
    let x := r.1.coreCycle core
    (x.1, r.2 ++ x.2)) (s, [])
  let quads := List.foldl (fun (a : List Nat) (kq : Nat × Quad) => if a.contains kq.1 then a else a ++ [kq.1])
    (s.busyCores.map quadOfCore).eraseDups s.quads
  let s := quads.foldl (fun s q => s.quadCycle q) s
  let ks := List.filterMap (fun (kd : Nat × Die) => if kd.2.kcore.running || kd.2.kcore.deadlock then some (Agent.kcore kd.1) else none) s.dies
  let ls := List.filterMap (fun (kp : Nat × Pkg) => if kp.2.lintel.running then some (Agent.lintel kp.1) else none) s.pkgs
  let s := (List.range 16).foldl (fun s p => s.modPkg p Pkg.tickTime) s
  { s with refTime := s.refTime + 1, agenda := pairUp (as ++ ks ++ ls) }

/-! ## One turn -/

/-- Rows of the table that are no words of an agent. -/
def isEvent (i : Instr) : Bool :=
  match i with
  | .illegalInstructionWord _ => false
  | _ => (encode i).isNone

/-- A course of a team that a double trap or a version's trap ended stops once its begun store has entered (R274). -/
def State.haltAborted (s : State) (a : Agent) : State :=
  match a with
  | .course k _ =>
    (match s.team? (k / 16), s.course? k with
     | some t, some c => if t.abnormal && decide (c.life = .live) then s.setCourse k c.halt else s
     | _, _ => s)
  | _ => s

/-- An issue after which nothing of a pair's first word is to be seen. -/
def State.issueAlone (s : State) (a : Agent) : Out :=
  match s.issue a with
  | .next t => .next { t.haltAborted a with before := none }
  | o => o

/-- Both slots of a course issue: the header slot's word first, and what the stretcher slot's must not see of it (R42,
R113, R118, R124). -/
def State.issuePair (s : State) (k : Nat) : Out :=
  let w : Word := match s.fetch (.course k false) with | .word w => w | _ => 0#32
  match s.course? k, s.issueAlone (.course k false) with
  | some c, .next t => .next { t with before := some { key := k, course := c, word := w }, agenda := .issue (.course k true) :: t.agenda }
  | _, o => o

/-- A turn taken. -/
def State.turn (s : State) (t : Turn) : Out :=
  match t with
  | .issue a => s.issueAlone a
  | .pair k => s.issuePair k
  | .occur i => if isEvent i then exec i s else .next s
  | .cycle => .next s.cycle

/-- What comes next: the head of the agenda, else an event, else a cycle. -/
def State.nextTurn (s : State) : Turn × State :=
  match s.agenda with
  | t :: ts => (t, { s with agenda := ts })
  | [] => ((match Config.nextEvent s.fresh with | some i => .occur i | none => .cycle), s.tick)

/-! ## A word placed where the next turn runs it -/

/-- The launch of the team that runs a placed word: one team of one course, code and stream at VA 64 KiB. -/
def placedLaunch : Launch :=
  { teams := 1, pbg := 0, idem := false, vers := false, cls := 0, gang := 1, courses := 1, part := 0#32, ncnt := 0,
    est := 1, lanes := 0xFFFFFFFF#32, code := 0x10000#64, mstr := 0x10000#64, inSlots := 0#32, outSlots := 0#32,
    arg := 0#64, hbase := 0x10000#64, cntBase := 0#64, asid := 0, root := 0x100000, secure := false, number := 0,
    queue := 0, die := 0 }

/-- The agent that a placed word of an opcode runs in (R37): a course, in its handler for the H opcodes; the sequencer,
a control core, a Lintel for those that only these execute. -/
def placedAgent (op : Nat) : Agent :=
  let cs := opContexts op
  if cs.testBit 0 || cs.testBit 1 || cs.testBit 5 then .course 0 false
  else if cs.testBit 2 then .seq 0
  else if cs.testBit 3 then .kcore 0
  else .lintel 1

/-- The team and course of a placed word: what a launch and its admission would have set up. -/
def placedTeam (op : Nat) : Team :=
  let t := Team.start placedLaunch 0 0 [0] 0 0
  if placedAgent op = .seq 0 then { t with seq := { t.seq with run := .running } } else t
def placedCourse (op : Nat) : Course :=
  let c := (placedTeam op).newCourse 0 0
  let cs := opContexts op
  if cs.testBit 0 || cs.testBit 1 then c else { c with handler := true, header := handlerSlot, xHeader := c.header }

/-- The program of one word placed in memory at 64 KiB, under tables at 1 MiB that map the first GiB of every agent's
space onto itself, with its agent started and next on the agenda: what a host and a command program bring about from
reset. -/
def State.place (s : State) (w : Word) : State :=
  let op := opOf w
  let a := placedAgent op
  let s : State := { s with
    mem := ((s.mem.setBytes 0x10000 (bytesOfWord w)).setBytes 0x100000 (bytesOf 8 0x201001)).setBytes 0x201000 (bytesOf 8 0x1F)
    dir := [], dirty := [], dev := [], packets := [], agenda := [.issue a], before := none }
  match a with
  | .kcore d => (((s.setReg 0 (pkgBase + 0x10) 1).setReg 0 (distBase 0 + 0x20) 0x100000).modDie d fun y =>
      { y with tlb := [], migrations := [], kcore := { Proc.init with pc := 0x10000#64, running := true } }).modPkg 0
      fun x => { x with held := false, booting := false }
  | .lintel p => ((s.setReg p (pkgBase + 0x10) 0x100).setReg p (lintBase + 0x20) 0x100000).modPkg p fun x =>
      { x with lintel := { Proc.init with pc := 0x10000#64, running := true }, held := false, booting := false }
  | _ => (((((s.setTeam 0 (placedTeam op)).setCourse 0 (placedCourse op)).modDie 0 fun y => { y with tlb := [], migrations := [] }).setCore 0 Core.init).setQuad 0 Quad.init).modPkg 0
      fun x => { x with held := false, booting := false }

end Sys2Proof.Machine
end

