-- ==== Sys2Proof/Machine/Step.lean ====
section
/-! DEFINITION. The step, and the state in which a given word comes next. -/

namespace Sys2Proof.Machine

open Sys2Proof

/-- One step: the turn that comes next. -/
def step (s : State) : Host.Outcome State Fault Refusal := (s.nextTurn.2).turn s.nextTurn.1

/-- The state with a table word of nbits placed so that the next step fetches and runs it. -/
def State.withFetchWord (s : State) (nbits w : Nat) : State := s.place (BitVec.ofNat 32 (w % 2 ^ nbits))

end Sys2Proof.Machine
end

