-- ==== Sys2Proof/Safety.lean ====
section
/-! DEFINITION. What counts as a safe state and a safe step: the forms of the data that every meaning keeps. -/

namespace Sys2Proof.Machine

open Sys2Proof

/-- The canonical form of physical memory. -/
abbrev State.memWf (s : State) : Prop := Memory.wf s.mem = true

/-- A step that neither faults nor is refused. -/
def State.goesOn (s : State) : Prop := ∃ t, step s = .next t

end Sys2Proof.Machine
end

