-- ==== Sys2Proof/Certificates/Slice0/Obligations.lean ====
section
/-! DEFINITION. The statements for the provers, and the terms they are said in. -/

namespace Sys2Proof.Spec

open Sys2Proof Sys2Proof.Machine

/-! ## Terms -/

/-- The executing agent is slot `str` of course k, which is c, of team t: the course is live and the slot occupied. -/
abbrev Runs (s : State) (k : Nat) (str : Bool) (c : Course) (t : Team) : Prop :=
  s.cur = .course k str ∧ s.course? k = some c ∧ s.team? (k / 16) = some t ∧ c.life = .live ∧ (c.slot str).mask ≠ 0#32

/-- The executing agent exists: a live course with an occupied slot, a running stream, a running program. -/
abbrev Present (s : State) : Prop := s.curRuns = true

/-- w is the word of i and passes R39 for the executing agent. -/
abbrev Passes (s : State) (i : Instr) (w : Word) : Prop := encode i = some w ∧ r39 (s.env s.cur) w = none

/-- The state `t` an instruction's effect leaves, with its issue counted; and with the PC moved to the next word too. -/
def counted (s t : State) (w : Word) : State := t.countIssue (opOf w) s.chargeMask.1 s.chargeMask.2
def finished (s t : State) (w : Word) : State := (counted s t w).advance

/-- In each of the lanes, every source register is full and unpoisoned, and every destination full (R18, R199). -/
abbrev Ready (c : Course) (lanes : Word) (reads : List Use) (dests : List (Nat × Bool)) : Prop :=
  ∀ l, l < 32 → lanes.getLsbD l = true →
    (∀ u ∈ reads, c.isEmpty u.type.wide u.code l = false ∧ c.isPoisoned u.type.wide u.code l = false) ∧
    (∀ d ∈ dests, c.isEmpty d.2 d.1 l = false)

/-- Everything outside course k and the counts of its team and quad is as before. -/
def Elsewhere (s u : State) (k : Nat) : Prop :=
  (∀ a, u.mem.byte a = s.mem.byte a) ∧ u.dir = s.dir ∧ u.dev = s.dev ∧ (∀ j, j ≠ k → u.course? j = s.course? j) ∧
  (∀ j, j ≠ k / 16 → u.team? j = s.team? j) ∧
  u.team? (k / 16) = (s.team? (k / 16)).map (fun t => { t with issued := t.issued + 1 }) ∧
  u.cores = s.cores ∧ u.dies = s.dies ∧ u.pkgs = s.pkgs ∧ u.flights = s.flights ∧ u.copies = s.copies ∧
  u.mortar = s.mortar ∧ u.joints = s.joints ∧ u.wideBars = s.wideBars ∧ u.packets = s.packets ∧ u.outbox = s.outbox

/-! ## The value-producing vector instructions (R82-R109) -/

/-- An instruction as R82 sees it: whether ET is accepted (R83), what it reads, its destination and width, the value of a
lane, and SRSEEDV after it when it rounds stochastically (R74). -/
structure VecRow where
  types : Bool
  reads : List Use
  dest : Nat
  wide : Bool
  value : Nat → Rounded
  seed : Option Word

def vec1 (c : Course) (types : Bool) (d a : BitVec 6) (f : AluMode → Nat → Rounded) : Option VecRow :=
  some ⟨types, [⟨a.toNat, c.et, 13⟩], d.toNat, c.et.wide, fun l => f c.alu (c.src c.et a.toNat l), none⟩
def vec2 (c : Course) (types : Bool) (d a b : BitVec 6) (tb : ElemType) (f : AluMode → Nat → Nat → Rounded) : Option VecRow :=
  some ⟨types, [⟨a.toNat, c.et, 13⟩, ⟨b.toNat, tb, 14⟩], d.toNat, c.et.wide,
    fun l => f c.alu (c.src c.et a.toNat l) (c.src tb b.toNat l), none⟩
def vec3 (c : Course) (types : Bool) (d a b x : BitVec 6) (tx : ElemType) (wide : Bool)
    (f : AluMode → Nat → Nat → Nat → Rounded) : Option VecRow :=
  some ⟨types, [⟨a.toNat, c.et, 13⟩, ⟨b.toNat, c.et, 14⟩, ⟨x.toNat, tx, 15⟩], d.toNat, wide,
    fun l => f c.alu (c.src c.et a.toNat l) (c.src c.et b.toNat l) (c.src tx x.toNat l), none⟩

/-- Whether RM asks for stochastic rounding, the state it then uses, and SRSEEDV afterwards (R74, R107). -/
def stochastic (c : Course) : Bool := decide (bitsOf c.mode.toNat 10 8 = 5)
def srState (c : Course) : Nat := if stochastic c then srStep c.srSeedV.toNat else 0
def srAfter (c : Course) : Option Word := if stochastic c then some (BitVec.ofNat 32 (srStep c.srSeedV.toNat)) else none

/-- Element types accepted (R83). -/
def is32 (t : ElemType) : Bool := t == .s32 || t == .n32 || t == .f32

/-- The value-producing vector instructions of R88, R98 and R107-R109. -/
def vecRow (c : Course) (i : Instr) : Option VecRow :=
  let n := c.et.isInt
  let f := c.et.fmt.isSome
  match i with
  | .iadd d a b => vec2 c n d a b c.et fun m x y => ⟨iadd m x y, 0⟩
  | .isub d a b => vec2 c n d a b c.et fun m x y => ⟨isub m x y, 0⟩
  | .imul d a b => vec2 c n d a b c.et fun m x y => ⟨imul m x y, 0⟩
  | .imulh d a b => vec2 c n d a b c.et fun m x y => ⟨imulh m x y, 0⟩
  | .imin d a b => vec2 c n d a b c.et fun m x y => ⟨imin m x y, 0⟩
  | .imax d a b => vec2 c n d a b c.et fun m x y => ⟨imax m x y, 0⟩
  | .imad d a b x => vec3 c n d a b x c.et c.et.wide fun m x y z => ⟨imad m x y z, 0⟩
  | .iabs d a => vec1 c n d a fun m x => ⟨iabs m x, 0⟩
  | .and d a b => vec2 c true d a b c.et fun m x y => ⟨bitAnd m.et x y, 0⟩
  | .or d a b => vec2 c true d a b c.et fun m x y => ⟨bitOr m.et x y, 0⟩
  | .xor d a b => vec2 c true d a b c.et fun m x y => ⟨bitXor m.et x y, 0⟩
  | .andn d a b => vec2 c true d a b c.et fun m x y => ⟨bitAndNot m.et x y, 0⟩
  | .shl d a b => vec2 c n d a b c.et fun m x y => ⟨shl m x y, 0⟩
  | .shr d a b => vec2 c n d a b c.et fun m x y => ⟨shr m.et x y, 0⟩
  | .sar d a b => vec2 c n d a b c.et fun m x y => ⟨sar m.et x y, 0⟩
  | .rotl d a b => vec2 c n d a b c.et fun m x y => ⟨rotlOp m.et x y, 0⟩
  | .popc d a => vec1 c n d a fun m x => ⟨popc m.et x, 0⟩
  | .clz d a => vec1 c n d a fun m x => ⟨clz m.et x, 0⟩
  | .brev d a => vec1 c n d a fun m x => ⟨brev m.et x, 0⟩
  | .bfx d a b => vec2 c n d a b .n32 fun m x y => ⟨bfx m.et x y, 0⟩
  | .bfi d a b x => vec3 c n d a b x .n32 c.et.wide fun m x y z => ⟨bfi m.et x y z, 0⟩
  | .perm d a b x => some ⟨true, [⟨a.toNat, .n32, 13⟩, ⟨b.toNat, .n32, 14⟩, ⟨x.toNat, .n32, 15⟩], d.toNat, false,
      fun l => ⟨perm (c.src .n32 a.toNat l) (c.src .n32 b.toNat l) (c.src .n32 x.toNat l), 0⟩, none⟩
  | .sel d a b neg p => some ⟨true, [⟨a.toNat, c.et, 13⟩, ⟨b.toNat, c.et, 14⟩], d.toNat, c.et.wide,
      fun l => ⟨if (c.lane l).pred p.toNat != (neg == 1#1) then c.src c.et a.toNat l else c.src c.et b.toNat l, 0⟩, none⟩
  | .lea d a b x k => some ⟨true, [⟨a.toNat, .n64, 13⟩, ⟨b.toNat, .n32, 14⟩], d.toNat, true,
      fun l => ⟨lea (x == 1#1) k.toNat (c.src .n64 a.toNat l) (c.src .n32 b.toNat l), 0⟩, none⟩
  | .addi d a v => vec1 c n d a fun m x => ⟨elems1 m.et (fun e => m.fit (m.et.int e + v.toInt)) x, 0⟩
  | .andi d a v => vec1 c true d a fun m x => ⟨bitAnd m.et x (wrapTo m.et.opWidth v.toInt), 0⟩
  | .ori d a v => vec1 c true d a fun m x => ⟨bitOr m.et x (wrapTo m.et.opWidth v.toInt), 0⟩
  | .xori d a v => vec1 c true d a fun m x => ⟨bitXor m.et x (wrapTo m.et.opWidth v.toInt), 0⟩
  | .shli d a k => vec1 c n d a fun m x => ⟨shli m k.toNat x, 0⟩
  | .shri d a k x => vec1 c n d a fun m y => ⟨shri m.et (x == 1#1) k.toNat y, 0⟩
  | .li d v => some ⟨true, [], d.toNat, false, fun _ => ⟨wrapTo 32 v.toInt, 0⟩, none⟩
  | .lih d v => some ⟨true, oldUse d.toNat, d.toNat, false, fun l => ⟨lih v.toNat (c.oldDest d.toNat l), 0⟩, none⟩
  | .mov d a => vec1 c true d a fun _ x => ⟨x, 0⟩
  | .idot4 d a b x => vec3 c (c.et == .s8x4 || c.et == .n8x4) d a b x .n32 false fun m x y z => ⟨idot4 m x y z, 0⟩
  | .fadd d a b => vec2 c f d a b c.et fadd
  | .fsub d a b => vec2 c f d a b c.et fsub
  | .fmul d a b => vec2 c f d a b c.et fmul
  | .fma d a b x => vec3 c f d a b x c.et c.et.wide fma
  | .fnma d a b x => vec3 c f d a b x c.et c.et.wide fnma
  | .fmin d a b => vec2 c f d a b c.et fun m => fminmax m false
  | .fmax d a b => vec2 c f d a b c.et fun m => fminmax m true
  | .fabs d a => vec1 c f d a fun m => fsign m false
  | .fneg d a => vec1 c f d a fun m => fsign m true
  | .fclass d a => vec1 c f d a fun m x => ⟨fclass m.et x, 0⟩
  | .frcp d a => vec1 c f d a fun m => felem m .rcp
  | .frsq d a => vec1 c f d a fun m => felem m .rsq
  | .fsqrt d a => vec1 c f d a fun m => felem m .sqrt
  | .fex2 d a => vec1 c f d a fun m => felem m .ex2
  | .flg2 d a => vec1 c f d a fun m => felem m .lg2
  | .fsin d a => vec1 c f d a fun m => felem m .sin
  | .fcos d a => vec1 c f d a fun m => felem m .cos
  | .fscl d a b => vec2 c f d a b .n32 fscl
  | .frnd d a => vec1 c f d a frnd
  | .fdot2 d a b x => vec3 c (c.et == .bf16x2 || c.et == .h16x2) d a b x .f32 false fdot2
  | .cvt d a t =>
    let src := (ElemType.ofCode t.toNat).getD .s32
    some ⟨decide (src.count = c.et.count), [⟨a.toNat, src, 13⟩], d.toNat, c.et.wide,
      fun l => cvt c.alu src (srState c) l (c.src src a.toNat l), srAfter c⟩
  | .cvtn d a b k => some ⟨is32 c.et, [⟨a.toNat, c.et, 13⟩, ⟨b.toNat, c.et, 14⟩] ++ oldUse d.toNat, d.toNat, false,
      fun l => cvtn c.alu ((NarrowFmt.ofCode k.toNat).getD (.flt .bf16)) (srState c) l (c.src c.et a.toNat l)
        (c.src c.et b.toNat l) (c.oldDest d.toNat l), srAfter c⟩
  | .cvtw d a b k => let tb : ElemType := if c.et.wide then .n64 else .n32
    some ⟨is32 c.et || c.et == .f64, [⟨a.toNat, .n32, 13⟩, ⟨b.toNat, tb, 14⟩], d.toNat, c.et.wide,
      fun l => cvtw c.alu ((NarrowFmt.ofCode k.toNat).getD (.flt .bf16)) (c.src .n32 a.toNat l) (c.src tb b.toNat l), none⟩
  | _ => none

/-- The flags the guard-true lanes raise (R85). -/
def rowFlags (act : Word) (r : VecRow) : Flags := (lanesOf act).foldl (fun f l => f ||| (r.value l).flags) 0#5

/-- The state after R82's delivery. -/
def vecDone (s : State) (k : Nat) (str : Bool) (c : Course) (r : VecRow) : State :=
  let c' := c.deliver (c.mask str) (c.active str) r.dest r.wide fun l => (r.value l).bits
  let s' := s.setCourse k { c' with fpflags := c'.fpflags ||| rowFlags (c.active str) r }
  match r.seed with
  | some x => s'.modCourse k fun c => { c with srSeedV := x }
  | none => s'

/-- When a value-producing vector instruction executes normally (R39, R83, R18, R199). -/
def VecReady (s : State) (k : Nat) (str : Bool) (c : Course) (t : Team) (i : Instr) (w : Word) (r : VecRow) : Prop :=
  Runs s k str c t ∧ Passes s i w ∧ vecRow c i = some r ∧ r.types = true ∧
    Ready c (c.active str) r.reads [(r.dest, r.wide)]

/-- Instructions that also read their destination's old value (R96, R108); the field that R83's refusal names (R107). -/
def readsOldValue (i : Instr) : Bool := match i with | .lih .. | .cvtn .. => true | _ => false
def typeField (i : Instr) : Nat := match i with | .cvt .. => 4 | _ => 0

/-! ## Predicates, lanes, MODE and special registers (R86, R110-R125) -/

/-- An instruction that writes a lane predicate (R86): types, sources, D field and the lane's condition. -/
structure PredRow where
  types : Bool
  reads : List Use
  field : Nat
  cond : Nat → Bool

def predRow (c : Course) (i : Instr) : Option PredRow :=
  match i with
  | .cmp p m a b k => some ⟨c.et.isInt, [⟨a.toNat, c.et, 13⟩, ⟨b.toNat, c.et, 14⟩], 8 * p.toNat + m.toNat,
      fun l => cmpInt c.et k.toNat (c.src c.et a.toNat l) (c.src c.et b.toNat l)⟩
  | .cmpi p m a k v => some ⟨c.et.isInt, [⟨a.toNat, c.et, 13⟩], 8 * p.toNat + m.toNat,
      fun l => cmpImm c.et k.toNat (c.src c.et a.toNat l) v.toInt⟩
  | .fcmp p m a b k => some ⟨c.et.fmt.isSome, [⟨a.toNat, c.et, 13⟩, ⟨b.toNat, c.et, 14⟩], 8 * p.toNat + m.toNat,
      fun l => cmpFloat c.alu k.toNat (c.src c.et a.toNat l) (c.src c.et b.toNat l)⟩
  | .pmov p m a x n => some ⟨true, [⟨a.toNat, .n32, 13⟩], 8 * p.toNat + m.toNat,
      fun l => (c.src .n32 a.toNat l).testBit n.toNat != (x == 1#1)⟩
  | .plop p m u v z => some ⟨true, [], 8 * p.toNat + m.toNat,
      fun l => z.getLsbD (2 * boolNat ((c.lane l).pred u.toNat) + boolNat ((c.lane l).pred v.toNat))⟩
  | _ => none

/-- R86's table: what a combine code makes of the old predicate and the condition. -/
def combined (code : Nat) (old cond : Bool) : Bool :=
  match code with
  | 0 => cond
  | 1 => old && cond
  | 2 => old || cond
  | 3 => old != cond
  | 4 => old && !cond
  | _ => !cond

/-- The course after a predicate is written in the guard-true lanes (R86); p7 never changes (R17). -/
def predDone (c : Course) (str : Bool) (r : PredRow) : Course :=
  c.mapFrom (c.active str) fun l x => x.setPred (r.field / 8) (combined (r.field % 8) (x.pred (r.field / 8)) (r.cond l))

/-- The lanes in which a voted predicate, negated or not, holds (R112). -/
def voters (c : Course) (str : Bool) (neg : Bool) (p : Nat) : Word :=
  maskOf fun l => (c.active str).getLsbD l && ((c.lane l).pred p != neg)
/-- VOTE's word by mode (R112): ballot, any, all, count. -/
def voteWord (mode : Nat) (act yes : Word) : Nat :=
  match mode with
  | 0 => yes.toNat
  | 1 => if yes ≠ 0#32 then 1 else 0
  | 2 => if yes = act then 1 else 0
  | _ => ((List.range 32).filter fun l => yes.getLsbD l).length

/-- SHFL's source lane (R111): one outside M reads the lane itself. -/
def shflSource (mode l b : Nat) (mask : Word) : Nat :=
  let src := match mode with
    | 0 => b % 32
    | 1 => l ^^^ (b % 32)
    | 2 => if b ≤ l then l - b else l
    | _ => if l + b ≤ 31 then l + b else l
  if mask.getLsbD src then src else l

/-- No source group register is poisoned (R199). -/
abbrev Clean (s : State) (uses : List (Nat × Bool)) : Prop := s.sc.checks uses = none

/-- A special register that an access of this kind and width may reach (R25, R124). -/
def MayAccess (c : Course) (n : Nat) (write wide : Bool) : Prop :=
  ∃ i, specialInfo n = some i ∧ (wide = true → i.low = true) ∧ (write = true → i.ro = false) ∧
    (c.handler = true ∨ (if write then i.writePriv else i.readPriv) = false)

/-! ## Traps (R271-R278, R348) -/

/-- What R271 lists of trap entry, from the course before and after: the saved slots and MODE, the cause registers, MODE and mode, the
handler's slot; and what it leaves untouched. -/
def Entered (c c' : Course) (cause : Nat) (tpc : Word) (taddr tmask tinfo : Nat) : Prop :=
  c'.xHeader = c.header ∧ c'.xStretcher = c.stretcher ∧ c'.xMode = c.mode ∧
  c'.tcause = BitVec.ofNat 32 cause ∧ c'.tpc = tpc ∧ c'.taddr = BitVec.ofNat 64 taddr ∧ c'.tmask = BitVec.ofNat 32 tmask ∧
  c'.tinfo = BitVec.ofNat 32 tinfo ∧ c'.mode = 0x00000007#32 ∧ c'.handler = true ∧
  c'.header.pc = 0#32 ∧ c'.header.mask = 0xFFFFFFFF#32 ∧ c'.header.id = 0#16 ∧ c'.stretcher.mask = 0#32 ∧
  c'.lanes = c.lanes ∧ c'.sc = c.sc ∧ c'.fpflags = c.fpflags ∧ c'.srSeedV = c.srSeedV ∧ c'.srSeedO = c.srSeedO ∧
  c'.alwLow = c.alwLow ∧ c'.splitSp = c.splitSp ∧ c'.hbase = c.hbase ∧ c'.charge = c.charge ∧
  c'.depth = c.depth ∧ c'.replayMask = c.replayMask ∧ c'.faultPend = c.faultPend ∧ c'.unack = c.unack ∧
  (cause ≠ 0x16 → c'.sb = c.sb)

/-- A course that can take a trap: outside handler mode, with a handler base, in a team that is not versioned and that no
trap has ended. -/
abbrev CanTrap (c : Course) (t : Team) : Prop := c.handler = false ∧ c.hbase ≠ 0#64 ∧ t.version = none ∧ t.abnormal = false

/-- A slot holds a store whose lanes have begun to enter the buffer (R22): its course stops when they all have (R274). -/
def Entering (x : Slot) : Prop := ∃ n ps m, x.hold = .entering n ps m


/-- The trap of a course's instruction, as takeTrap delivers it, is entry to its handler (R271). -/
def TrapsWith (s u : State) (k : Nat) (str : Bool) (c : Course) (cause taddr tmask tinfo : Nat) : Prop :=
  ∃ c', u = s.setCourse k c' ∧ Entered c c' cause (c.slot str).pc taddr tmask tinfo

/-! ## Slots and the split stack (R127-R134) -/

/-- A slot moved to a PC, nothing held or to be re-executed there. -/
def Slot.moved (x : Slot) (pc : Word) : Slot := { x with pc := pc, replay := none, hold := .free }

/-- The target of a branch: 4 times the signed offset from the branch itself (R127). -/
def branchTarget (pc : Word) (o : BitVec 20) : Word := pc + 4#32 * o.signExtend 32

/-- The lanes of a slot in which BRC's predicate, negated or not, holds (R129). -/
def takers (c : Course) (str : Bool) (neg : Bool) (p : Nat) : Word :=
  maskOf fun l => (c.slot str).mask.getLsbD l && ((c.lane l).pred p != neg)

/-- The number a taken branch puts in the PC, and the one it puts there otherwise (R127, R128). -/
def branchTo (s : State) (taken : Bool) (o : BitVec 20) : Nat :=
  if taken then (branchTarget (BitVec.ofNat 32 s.pc) o).toNat else s.pc + 4

/-- The course after BRC has split slot X into the free slot Y, or pushed (R129): n is j + 1. -/
def splitFree (c : Course) (str : Bool) (tk target : Word) : Course :=
  let x := c.slot str
  (c.setSlot str { Slot.free with pc := x.pc + 4#32, mask := x.mask &&& ~~~tk, id := x.id + 1#16 }).setSlot (!str)
    { Slot.free with pc := target, mask := tk, id := x.id + 1#16 }
def splitPush (c : Course) (str : Bool) (tk : Word) : Course :=
  let x := c.slot str
  ({ c with depth := c.depth + 1 }).setSlot str
    { Slot.free with pc := x.pc + 4#32, mask := x.mask &&& ~~~tk, id := x.id + 1#16 }

/-- The 16 bytes of a stack entry (R12): PC, mask, id, reserved 0, little-endian. -/
def entryBytes (pc mask : Word) (id : BitVec 16) : List Byte :=
  bytesOf 4 pc.toNat ++ bytesOf 4 mask.toNat ++ bytesOf 2 id.toNat ++ List.replicate 6 0#8

/-! ## Group-wide arithmetic (R137-R140) -/

/-- A w-bit value as a signed number. -/
def signedVal (w a : Nat) : Int := if a < 2 ^ (w - 1) then a else (a : Int) - 2 ^ w

/-- R138's results of a and b at width w, by instruction; `sgn` under GT 0 and 2. -/
def groupResult (i : Instr) (w : Nat) (sgn : Bool) (a b : Nat) : Option Nat :=
  let less (x y : Nat) : Bool := if sgn then decide (signedVal w x < signedVal w y) else decide (x < y)
  match i with
  | .gadd .. => some ((a + b) % 2 ^ w)
  | .gsub .. => some ((a + 2 ^ w - b) % 2 ^ w)
  | .gmul .. => some (a * b % 2 ^ w)
  | .gand .. => some (a &&& b)
  | .gor .. => some (a ||| b)
  | .gxor .. => some (a ^^^ b)
  | .gshl .. => some (if b < w then a * 2 ^ b % 2 ^ w else 0)
  | .gshr .. => some (if b < w then a / 2 ^ b else 0)
  | .gsar .. => some ((signedVal w a / 2 ^ min b (w - 1)) % 2 ^ w).toNat
  | .gmin .. => some (if less b a then b else a)
  | .gmax .. => some (if less a b then b else a)
  | _ => none

/-- The operand fields of a group-wide instruction of two sources. -/
def groupFields (i : Instr) : Option (BitVec 6 × BitVec 6 × BitVec 6) :=
  match i with
  | .gadd d a b | .gsub d a b | .gmul d a b | .gand d a b | .gor d a b | .gxor d a b | .gshl d a b | .gshr d a b
  | .gsar d a b | .gmin d a b | .gmax d a b => some (d, a, b)
  | _ => none

/-- GT of the executing agent is one of the four that MODE may hold (R24). -/
abbrev GtLegal (s : State) : Prop := s.gt s.cur = .s32 ∨ s.gt s.cur = .n32 ∨ s.gt s.cur = .s64 ∨ s.gt s.cur = .n64
def gtSigned (s : State) : Bool := s.gt s.cur == .s32 || s.gt s.cur == .s64
def gtWidth (s : State) : Nat := if s.gwide then 64 else 32

/-- R88's conditions 0 to 5. -/
def condHolds (k : Nat) (less equal : Bool) : Bool :=
  match k with
  | 0 => equal
  | 1 => !equal
  | 2 => less
  | 3 => less || equal
  | 4 => !less && !equal
  | _ => !less

/-! ## Accesses (R141, R149-R160) -/

/-- Lane l of an access hits: aligned, translated, permitted, its physical address and leaf. -/
abbrev Hits (s : State) (t : Team) (va size align : Nat) (kind : AccKind) (ban : Nat → Bool) (op : Nat) (h : Nat × Nat) : Prop :=
  va % align = 0 ∧ s.laneCheck t.xlat va size kind false ban op = .hit h.1 h.2

/-- Every active lane hits, at the addresses and leaves that `at'` gives. -/
def AllHit (s : State) (t : Team) (act : Word) (va : Nat → Nat) (size align : Nat) (kind : AccKind) (ban : Nat → Bool) (op : Nat)
    (at' : Nat → Nat × Nat) : Prop :=
  ∀ l, l < 32 → act.getLsbD l = true → Hits s t (va l) size align kind ban op (at' l)

/-- The hits of the active lanes, ascending: lane, virtual and physical address, leaf. -/
def hitsOf (act : Word) (va : Nat → Nat) (at' : Nat → Nat × Nat) : List (Nat × Nat × Nat × Nat) :=
  (lanesOf act).map fun l => (l, va l, (at' l).1, (at' l).2)

/-- The die's TLBs keep the translations of a list of hits (R330). -/
def kept (s : State) (t : Team) (hs : List (Nat × Nat × Nat × Nat)) : State := hs.foldl (fun s h => s.noteTlb t.xlat h.2.1) s

/-- A global load of R152-R154: opcode, address of a lane from its base, size, sign extension, pair, acquire scope, SC. -/
structure LoadRow where
  op : Nat
  types : Bool
  d : Nat
  reads : List Use
  addr : Nat → Nat
  size : Nat
  sext : Bool
  wide : Bool
  acquire : Option Nat
  sc : Bool

def loadRow (c : Course) (i : Instr) : Option LoadRow :=
  let b (a l : Nat) : Nat := c.src .n64 a l
  match i with
  | .ld d a v => some ⟨0x80, true, d.toNat, [⟨a.toNat, .n64, 13⟩], fun l => addImm (b a.toNat l) v, c.et.bytes, false, c.et.wide, none, false⟩
  | .ldn d a v => some ⟨0x81, packedEt c.et, d.toNat, [⟨a.toNat, .n64, 13⟩], fun l => addImm (b a.toNat l) v, c.et.narrow,
      c.et.signed && c.et.isInt, false, none, false⟩
  | .ldx d a x e n => some ⟨0x86, true, d.toNat, [⟨a.toNat, .n64, 13⟩, ⟨x.toNat, .n32, 14⟩],
      fun l => lea (e == 1#1) n.toNat (b a.toNat l) (c.src .n32 x.toNat l), c.et.bytes, false, c.et.wide, none, false⟩
  | .ldacq d a sc => some ⟨0x88, true, d.toNat, [⟨a.toNat, .n64, 13⟩], b a.toNat, c.et.bytes, false, c.et.wide, some sc.toNat, false⟩
  | .ldsc d a sc => some ⟨0x8A, true, d.toNat, [⟨a.toNat, .n64, 13⟩], b a.toNat, c.et.bytes, false, c.et.wide, some sc.toNat, true⟩
  | _ => none

/-- A global store of R152-R154 and R158: opcode, data type, kind and scope of its entries, FLAGW's count, group and package. -/
structure StoreRow where
  op : Nat
  types : Bool
  d : Nat
  dty : ElemType
  reads : List Use
  addr : Nat → Nat
  size : Nat
  kind : Nat
  scope : Nat
  banAll : Bool
  flag : Nat → Nat → Option FlagInfo

def storeRow (c : Course) (i : Instr) : Option StoreRow :=
  let b (a l : Nat) : Nat := c.src .n64 a l
  let uses (a d : Nat) (t : ElemType) : List Use := [⟨a, .n64, 13⟩, ⟨d, t, 15⟩]
  match i with
  | .st d a v => some ⟨0x82, true, d.toNat, c.et, uses a.toNat d.toNat c.et, fun l => addImm (b a.toNat l) v, c.et.bytes, 0, 0, false, fun _ _ => none⟩
  | .stn d a v => some ⟨0x83, packedEt c.et, d.toNat, c.et, uses a.toNat d.toNat c.et, fun l => addImm (b a.toNat l) v, c.et.narrow, 1, 0, false,
      fun _ _ => none⟩
  | .stx d a x e n => some ⟨0x87, true, d.toNat, c.et, uses a.toNat d.toNat c.et ++ [⟨x.toNat, .n32, 14⟩],
      fun l => lea (e == 1#1) n.toNat (b a.toNat l) (c.src .n32 x.toNat l), c.et.bytes, 0, 0, false, fun _ _ => none⟩
  | .strel d a sc => some ⟨0x89, true, d.toNat, c.et, uses a.toNat d.toNat c.et, b a.toNat, c.et.bytes, 2, sc.toNat, false, fun _ _ => none⟩
  | .stsc d a sc => some ⟨0x8B, true, d.toNat, c.et, uses a.toNat d.toNat c.et, b a.toNat, c.et.bytes, 3, sc.toNat, false, fun _ _ => none⟩
  | .flagw d a x g => some ⟨0x92, true, d.toNat, .n32, uses a.toNat d.toNat .n32 ++ [⟨x.toNat, .n32, 14⟩], b a.toNat, 4, 2, 4, true,
      fun l pa => some { count := bitsOf (c.src .n32 x.toNat l) 11 0, group := g.toNat, pkg := pa / 2 ^ 48 }⟩
  | _ => none

/-- The lane of a store as it waits to enter the buffer (R22, R151, R158): address, bytes, key id, kind, scope, flag. -/
def storeLane (c : Course) (t : Team) (r : StoreRow) (h : Nat × Nat × Nat × Nat) : PendingStore :=
  { addr := h.2.1, bytes := bytesOf r.size (c.src r.dty r.d h.1), key := leafKey h.2.2.2, kind := BitVec.ofNat 4 r.kind,
    scope := BitVec.ofNat 3 r.scope, lane := h.1, flag := if h.2.2.1 / 2 ^ 48 = pkgOfCore t.core then none else r.flag h.1 h.2.2.1 }

/-- Every active lane of a scratchpad access is aligned and in bounds (R146, R149). -/
def InSpad (s : State) (k : Nat) (t : Team) (act : Word) (o : Nat → Nat) (size : Nat) : Prop :=
  ∀ l, l < 32 → act.getLsbD l = true → o l % size = 0 ∧ (s.spTarget (k / 16) t (o l) size).isLeft = true

/-- The bank requests of lanes, in lane order (R178): where each goes and what it does there. -/
def queueSpad (u s : State) (k : Nat) (str : Bool) (c : Course) (t : Team) (lanes : Word) (o : Nat → Nat) (size : Nat) (op : Nat → SpOp) : State :=
  (lanesOf lanes).foldl (fun u l => match s.spTarget (k / 16) t (o l) size with
    | .inl (h, x, m, win) => u.send (.spad { key := k, str := str, mask := c.slotLanes str, lane := l, pc := (c.slot str).pc, target := h, member := m, offset := x, size := size, window := win, op := op l })
    | .inr _ => u) u

/-- Whether two lanes name one word of one scratchpad, by whatever offset (R146, R178). -/
def sameWord (s : State) (k : Nat) (t : Team) (o : Nat → Nat) (size j l : Nat) : Bool :=
  decide (s.spTarget (k / 16) t (o j) size = s.spTarget (k / 16) t (o l) size)
/-- The active lanes that name the word of lane l. -/
def lanesAt (s : State) (k : Nat) (t : Team) (act : Word) (o : Nat → Nat) (size l : Nat) : List Nat := (lanesOf act).filter fun j => sameWord s k t o size j l
/-- Of the lanes that name one word, the lowest. -/
def lowestLanes (s : State) (k : Nat) (t : Team) (act : Word) (o : Nat → Nat) (size : Nat) : Word :=
  maskOf fun l => act.getLsbD l && !((List.range l).any fun j => act.getLsbD j && sameWord s k t o size j l)

/-- A global atomic (R155): opcode, operation, whether it returns, destination, operand, order, scope. -/
structure AtomRow where
  op : Nat
  p : Nat
  ret : Bool
  d : Nat
  b : Nat
  reads : List Use
  addr : Nat → Nat
  order : AtomOrder
  scope : Nat

def atomRow (c : Course) (i : Instr) : Option AtomRow :=
  let row (op : Nat) (d a b : BitVec 6) (sc p : BitVec 3) (o : AtomOrder) : Option AtomRow :=
    some ⟨op, p.toNat, true, d.toNat, b.toNat,
      [⟨a.toNat, .n64, 13⟩, ⟨b.toNat, c.et, 14⟩] ++ (if p = 7#3 then [⟨d.toNat, c.et, 16⟩] else []), c.src .n64 a.toNat, o, sc.toNat⟩
  match i with
  | .atom d a b sc p => row 0x8C d a b sc p .relaxed
  | .atomar d a b sc p => row 0x8D d a b sc p .acqRel
  | .atomsc d a b sc p => row 0x8E d a b sc p .sc
  | .red d a sc p => some ⟨0x8F, p.toNat, false, d.toNat, d.toNat, [⟨a.toNat, .n64, 13⟩, ⟨d.toNat, c.et, 15⟩], c.src .n64 a.toNat, .relaxed, sc.toNat⟩
  | _ => none

/-- The groups of an atomic sent to their homes (R156). -/
def sendGroups (u : State) (s : State) (k : Nat) (str : Bool) (c : Course) (t : Team) (r : AtomRow)
    (gs : List (Nat × List (Nat × Nat × Nat × Nat))) : State :=
  gs.foldl (fun u g => match g.2 with
    | [] => u
    | h :: _ => u.send (.atom
      { owner := s.cur, mask := c.slotLanes str, pc := (c.slot str).pc, op := r.p, et := c.et, ftz := c.mode.getLsbD 12, size := c.et.bytes, pa := h.2.2.1, va := g.1,
        order := r.order, scope := r.scope, stamp := 0, counter := some r.scope, version := t.versionOf (k / 16),
        snap := snapMark h.2.2.2, keyId := leafKey h.2.2.2, step := s.stepOf t.core, sent := false, mark := none, engine := none, half := none, copy := none,
        lanes := g.2.map fun h => { lane := h.1, reg := if r.ret then some (r.d - 16) else none, x := c.src c.et r.b h.1,
                                    cmp := if r.ret then c.src c.et r.d h.1 else 0 } })) u

/-! ## Fences, waits and barriers (R159-R165, R187-R197) -/

/-- What a release in a handler does first (R268): entries frozen at trap entry may leave. -/
def thawed (s : State) (k : Nat) (c : Course) : State := if c.handler then s.modCourse k Course.thaw else s

/-- The slot that begins to wait as FENCE.REL does, counting from now (R161). -/
def fenceBegun (s : State) (k : Nat) (str : Bool) : State := (s.modCourse k fun c => c.setSlot str { c.slot str with hold := .fence s.fresh }).tick

/-- The mark in the core's write path that a release of course k wider than .core leaves (R255). -/
def marked (s : State) (k : Nat) (scope : Nat) : State := if scope = 0 then s else s.putMark (s.pathOf (.course k false))

/-- What FENCE's acquire part does at its end (R161, R257): promotions that are over are forgotten, and the L1 is dropped. -/
def fenceEnd (s : State) (k : Nat) (q : BitVec 1) (sc : BitVec 3) : State := if q = 1#1 then (s.forgetSeen k).acquireDrop sc.toNat else s

/-- A slot that has begun to wait counts from this stamp, or none has begun. -/
abbrev Begun (c : Course) (str : Bool) (n : Nat) : Prop := (c.slot str).hold = .fence n
def NotJoining (c : Course) (str : Bool) : Prop := ∀ n o t, (c.slot str).hold ≠ .joining n o t
def NotBegun (c : Course) (str : Bool) : Prop := ∀ n, (c.slot str).hold ≠ .fence n ∧ ∀ v, (c.slot str).hold ≠ .met n v

/-- FENCE.REL.core of a slot has nothing to wait for, its scratchpad accesses among it (R161, R179). -/
abbrev CoreReleased (s : State) (k : Nat) (str : Bool) (c : Course) : Prop :=
  NotBegun c str ∧ (thawed s k c).released k str s.fresh 0 = true ∧ s.spOutstanding k str = false

/-- The slot freed of its wait. -/
def unheld (s : State) (k : Nat) (str : Bool) : State := s.modCourse k fun c => c.setSlot str { c.slot str with hold := .free }

/-- WAITA's condition (R163): .NE, .EQ, .GE unsigned. -/
abbrev waits (c : Nat) (v x : Nat) : Prop := (c = 0 ∧ v ≠ x) ∨ (c = 1 ∧ v = x) ∨ (c = 2 ∧ x ≤ v)

/-- Arrivals a count asks for, and the barrier after one arrival that does not complete it (R188). -/
def arrived (b : Barrier) (party count : Nat) : Barrier :=
  { b with need := if b.arrivals = 0 then count else b.need, arrivals := b.arrivals + 1, pending := b.pending ++ [party] }


/-! ## Ends, steps, copies, streams and launches -/

/-- What a CARVE leaves when its team's only live course has arrived: the team's granules become the requested ones if they fit beside the
other teams of the core, and the predicate says whether they did (R176). -/
def carveFits (s : State) (h : Nat) (t : Team) (sp acc : Nat) : Bool :=
  decide (t.rf + sp + acc + List.foldl (fun n (kt : Nat × Team) => if kt.1 = h then n else n + kt.2.rf + kt.2.sp + kt.2.acc) 0 (s.teamsOn t.core) ≤ 46)

/-- A copy instruction (R201): opcode, descriptor base, arrival value and flags, WS above bit 2 for CPYW. -/
def copyRow (i : Instr) : Option (Nat × Nat × Nat × Nat) :=
  match i with
  | .cpy a b f => some (0xA0, a.toNat, b.toNat, f.toNat)
  | .cpyt a b f => some (0xA1, a.toNat, b.toNat, f.toNat)
  | .cpyw a b w f => some (0xA2, a.toNat, b.toNat, f.toNat + 8 * w.toNat)
  | .cpyo a b f => some (0xA3, a.toNat, b.toNat, f.toNat)
  | .cpyr a b f => some (0xA4, a.toNat, b.toNat, f.toNat)
  | .cpyx a b f => some (0xA5, a.toNat, b.toNat, f.toNat)
  | .cpyq a b f => some (0xA6, a.toNat, b.toNat, f.toNat)
  | _ => none

/-- The descriptor a copy reads from the group registers (R202). -/
def descriptor (c : Course) (a : Nat) : Vector Word 8 := Vector.ofFn fun i => c.sc.reg (a + i.val)

/-- A stream that may issue: its team's sequencer runs and holds no word. -/
abbrev Streams (s : State) (h : Nat) (x : Team) : Prop :=
  s.cur = .seq h ∧ s.team? h = some x ∧ x.seq.run = .running ∧ x.seq.pending = none

/-- A processor's PC one word on, modulo 2^32: bits [63:32] stay (R30). -/
def nextPc (x : DWord) : DWord := BitVec.ofNat 64 (x.toNat / 2 ^ 32 * 2 ^ 32 + (x.toNat + 4) % 2 ^ 32)

/-- A control core, or a Lintel, that runs. -/
abbrev OnKcore (s : State) (d : Nat) : Prop := s.cur = .kcore d ∧ (s.die d).kcore.running = true
abbrev OnLintel (s : State) (p : Nat) : Prop := s.cur = .lintel p ∧ (s.pkg p).lintel.running = true

/-- The descriptor of an MJOIN in g[a..a+7] (R363). -/
def joinDescriptor (c : Course) (a : Nat) : MDesc :=
  let r (i : Nat) : Nat := (c.sc.reg (a + i)).toNat
  { dst := r 0 + 2 ^ 32 * r 1, ctr := r 2 + 2 ^ 32 * r 3, party := bitsOf (r 4) 31 31, len := bitsOf (r 4) 5 0, src := r 5 }
def joinDescriptorOk (c : Course) (a : Nat) (vec : Bool) : Bool :=
  mDescOk vec (c.sc.reg (a + 4)).toNat (c.sc.reg (a + 5)).toNat (c.sc.reg (a + 6)).toNat (c.sc.reg (a + 7)).toNat

/-- The guard-true lanes of a slot's mask: MJOIN re-executes whole (R364). -/
def guarded (c : Course) (str : Bool) : Word := maskOf fun l => (c.slot str).mask.getLsbD l && c.guard l

/-- The tile of an MJOIN (R362): the guard-true lanes' words with the op's identity elsewhere, or the scratchpad's 4 · LEN words. -/
def joinWords (t : Team) (c : Course) (vec : Bool) (act : Word) (d op : Nat) (x : MDesc) : List Word :=
  if vec then (List.range 32).map fun i => BitVec.ofNat 32 (if act.getLsbD i then c.src (jointType op) d i else jointIdentity op)
  else (List.range (4 * x.len)).map fun i => BitVec.ofNat 32 (ofBytes (t.spBytes (x.src + 4 * i) 4))

/-- The slot holds an MJOIN's operand as read at issue, until it has left (R363, R364); in a handler, entries frozen at trap entry may leave. -/
def joining (s : State) (k : Nat) (str : Bool) (c : Course) (o : MortarOp) (tile : Option Nat) : State :=
  (s.modCourse k fun x => (if c.handler then x.thaw else x).setSlot str { x.slot str with hold := .joining s.fresh o tile }).tick

/-- MJOIN's last step (R364): the operand leaves, its checks passed: the tag's scope holds the issuer, DST and CTR translate, the
release is over and marked in the write path (R255), and the allowance toward its router's package suffices. Its time counts from its issue
(R369). -/
abbrev JoinLeaves (s : State) (k : Nat) (str : Bool) (c : Course) (t : Team) (vec : Bool) (x : MDesc) (op tag : Nat) (words : List Word) (pa leaf cpa cleaf : Nat) (u : State) : Prop :=
  let s1 := s.noteTlb t.xlat x.dst
  let s2 := if x.ctr = 0 then s1 else s1.noteTlb t.xlat x.ctr
  let o : MortarOp :=
    { tag := tag, op := op, party := x.party, words := if vec then words else List.replicate (4 * x.len) 0#32, dst := pa, dstVa := x.dst, ctr := cpa,
      key := k, router := tagRouter tag, issued := (s2.pkg (pkgOfCore t.core)).time, src := pkgOfCore t.core, snap := snapMark leaf, keyId := leafKey leaf,
      ctrSnap := snapMark cleaf, ctrKey := leafKey cleaf, core := t.core, asid := t.launch.asid }
  let s3 := joining s2 k str c o (if vec then none else some x.src)
  tagHolds tag (dieOfCore t.core) = true ∧ x.dst % 16 = 0 ∧ x.dst % 512 + 16 * x.len ≤ 512 ∧
  s.translate t.xlat x.dst .store true = .ok pa leaf ∧
  (x.ctr = 0 → cpa = 0 ∧ cleaf = 0) ∧ (x.ctr ≠ 0 → x.ctr % 8 = 0 ∧ s1.translate t.xlat x.ctr .store true = .ok cpa cleaf) ∧
  NotJoining c str ∧ s3.released k str s2.fresh (tagScope tag + 1) = true ∧ s3.spOutstanding k str = false ∧
  (vec = false → t.spPoisoned x.src (16 * x.len) = false) ∧
  (tagRouter tag / 384 = pkgOfCore t.core ∨ c.alwLow.toNat ≤ s3.allowance (pkgOfCore t.core) (tagRouter tag / 384)) ∧
  (s3.putMark t.core).sendOperand { o with words := words } = some u

/-- The words of a launch record at a virtual address readable through a queue's translation (R349, R350). -/
def LaunchRecord (s : State) (d va : Nat) (q : LQueue) (rec : Nat → Nat) : Prop := va % 64 = 0 ∧ s.recordWords d va q = some rec

/-! ## Events -/

/-- A course that values in flight reach directly: live, and not bound to a pending record (R291). -/
abbrev Reached (s : State) (k : Nat) (c : Course) : Prop := s.course? k = some c ∧ c.life = .live ∧ c.bound = none ∧ c.earlier = []

/-- A write of these bytes is performed in place: its frame does not move (R337) and it is no protected write (R390). -/
abbrev InPlace (s : State) (pa : Nat) (mark : Option Nat) : Prop := s.forward pa = pa ∧ mark = none

/-- The write of item w of core p's write path may be performed in its own package: nothing before it holds it back (R255), its lane is the
lowest of its instruction still to come (R263), and no copy is in another package (R325). -/
abbrev MayPerform (s : State) (p w : Nat) (x : PathWrite) : Prop :=
  SMap.find? (s.core p).path w = some (.write x) ∧ x.sent = false ∧ mayPerform (s.core p).path w x.owner x.pa x.bytes.length = true ∧
  x.pa / 2 ^ 48 = s.pkgOf x.owner ∧ s.unshared x.pa = true ∧ s.scTurn x.owner x.issue x.parts = true

/-- The records of a fault ring written at a place of it (R334). -/
def ringPut (s : State) (ring size head : Nat) (bytes : List Byte) : State :=
  (List.range (bytes.length / 32)).foldl (fun s i => s.homeWrite (ring + 32 * ((head + i) % size)) (((bytes.drop (32 * i)).take 32).map some) none) s

/-- A register word's fields read back when the sparse device registers are in key order. -/
abbrev RegsInOrder (s : State) : Prop := SMap.sorted s.dev = true

/-- What a package reset leaves (R384): no team or course of the package, its package state as after reset but for the credits (log 23), in bring-up (log 113), RCAUSE naming
the reset, and every byte of other packages as it was. -/
def PkgReset (s u : State) (p cause : Nat) : Prop :=
  (∀ h t, u.team? h = some t → pkgOfCore t.core ≠ p) ∧ (∀ k c, u.course? k = some c → ∃ t, u.team? (k / 16) = some t) ∧
  (RegsInOrder s → u.reg p (pkgBase + 0x14) = cause) ∧ (∀ a, a / 2 ^ 48 ≠ p → u.mem.byte a = s.mem.byte a) ∧
  (∀ q, q ≠ p → u.pkg q = s.pkg q) ∧ (∀ d, d / 8 ≠ p → u.die d = s.die d) ∧
  (u.pkg p).booting = true ∧ (u.pkg p).credTotal = s.reg p (wallBase + 4)

/-- Port n of package p is left in a state, with LAST and its count of locked channels; no other port of the package changes. -/
def PortIs (s u : State) (p n : Nat) (st : PortState) (last live : Nat) : Prop :=
  let z := (u.pkg p).port n
  z.state = st ∧ z.last = last ∧ z.live = live ∧ (∀ m, m ≠ n → (u.pkg p).port m = (s.pkg p).port m) ∧ u.courses = s.courses ∧ u.teams = s.teams

/-- Packet n has come past any relay, well-formed, of this type. -/
abbrev Arrives (s : State) (n type : Nat) (k : Packet) : Prop :=
  SMap.find? s.packets n = some k ∧ k.det = false ∧ k.bad = false ∧ k.type = type

/-- A modifying packet that its destination performs on arrival: plain memory, no copy elsewhere, no snapshot there, nothing that one has let go before it, and its lane's turn (R263, R325, R392). -/
abbrev Performs (s : State) (n type : Nat) (k : Packet) : Prop :=
  Arrives s n type k ∧ k.circuit = none ∧ isDevice k.addr = false ∧ (s.pkg k.dst).snap.state = .idle ∧ s.freedFirst n k = false ∧
    (∀ path key w, s.pathOfPacket k = some (path, key, w) → s.scTurn w.owner w.issue k.lanes = true) ∧
    ∀ q ∈ k.parts, isDevice q.addr = false ∧ s.unshared q.addr = true

/-- An answer of a type to packet k is among the packets. -/
def Answered (u : State) (k : Packet) (type : Nat) : Prop :=
  ∃ m r, SMap.find? u.packets m = some r ∧ r.type = type ∧ r.dst = k.src ∧ r.src = k.dst ∧ r.tag = k.tag

/-- Packet n answers a transaction of its destination (R406). -/
abbrev Answers (s : State) (n type : Nat) (r : Packet) (t : WallTx) : Prop :=
  Arrives s n type r ∧ SMap.find? (s.pkg r.dst).txs (txKey r.src r.tag) = some t

/-- A barrier in a state, lent or not as before, of the same number. -/
abbrev BarIs (u : State) (p b state : Nat) : Prop := ((u.pkg p).bar b).state = state

/-- A message of the switch service of kind `kind` for barrier b stands first on endpoint 12, under its current number, the barrier requesting (R425). -/
def ServiceSays (s : State) (p kind b : Nat) : Prop :=
  ∃ src bytes rest, SMap.getD (s.pkg p).endpoints [] 12 = (src, bytes) :: rest ∧ ofBytes (bytes.take 1) = kind ∧ ofBytes ((bytes.drop 1).take 1) = b ∧
    ofBytes ((bytes.drop 2).take 2) = ((s.pkg p).bar b).seq ∧ b < 64 ∧ ((s.pkg p).bar b).state = 1

/-- An operand of MJOIN as it stands at its router, in its own package, with no one held before it and none of its course still to come there. -/
abbrev AtRouter (s : State) (m : Nat) (o : MortarOp) : Prop :=
  SMap.find? s.mortar m = some { op := o, place := .travelling, since := 0, order := 0 } ∧ o.router / 384 = o.src ∧
    ∀ n y, (n, y) ∈ s.mortar → y.op.router = o.router → y.place ≠ .heldInput ∧ (y.place = .travelling → y.op.key = o.key → m ≤ n)

/-- Every line of memory is where its address says: no frame is moving (R337). -/
abbrev NoneMoves (s : State) : Prop := ∀ a, s.forward a = a

/-- The four bytes at an agent's program counter, as its translation finds them: plain memory that is not poisoned (R48, R49). -/
def AtPc (s : State) (a : Agent) (w : Word) : Prop :=
  ∃ x pa leaf b0 b1 b2 b3, s.xlatOf a = some x ∧ s.translate x (s.fetchAddr a) .fetch (match a with | .course .. | .seq _ => true | _ => false) = .ok pa leaf ∧
    isDevice pa = false ∧ s.poisoned pa = false ∧ s.bytesUnder pa 4 (leafKey leaf) = [b0, b1, b2, b3] ∧ w = wordOfBytes b0 b1 b2 b3

/-- The agent's turn has come and it issues: no cause stands before its word (R42, R184, R348, R443). -/
abbrev Issues (s : State) (a : Agent) : Prop :=
  s.cur = a ∧ s.mayIssue a = true ∧ s.causeDue a = none ∧ s.entryDue a = false ∧ s.deadlockDue a = false ∧ s.curRuns = true

end Sys2Proof.Spec

open Sys2Proof Sys2Proof.Machine Sys2Proof.Spec

/-! # Encoding -/

/-- Every well-formed instruction decodes from its own word. -/
def Obligations.DecodeEncodeAgree : Prop :=
  ∀ (i : Instr) (w : Word), i.wf = true → encode i = some w → decode w = .ok i

/-- R29, R43, R44: a word that decodes is the word its instruction encodes to, and that instruction is well-formed; so no two
instructions share a word. -/
def Obligations.DecodedWordIsTheInstructionsWord : Prop :=
  ∀ (w : Word) (i : Instr), decode w = .ok i → i.wf = true ∧ encode i = some w

/-- Words written out by hand in the spec's worked examples and rules: CMP.LT p1, q0, n4; CVTN.E4M3 n6, n0, n1;
SHFL.DOWN n1, n0, k1; ERET; XSR g4, #0x05; XSW #0x06, n3; PEND.BIND [g10]; PEND.IMP [g10]; NOP. -/
def Obligations.SpecsOwnWordsDecode : Prop :=
  decode 0x28200502#32 = .ok (.cmp 1#3 0#3 0#6 20#6 2#6) ∧ decode 0x55590442#32 = .ok (.cvtn 22#6 16#6 17#6 2#4) ∧
  decode 0x60450E83#32 = .ok (.shfl 17#6 16#6 58#6 3#2) ∧ decode 0x0B000000#32 = .ok .eret ∧
  decode 0x09100005#32 = .ok (.xsr 4#6 5#5) ∧ decode 0x0A013006#32 = .ok (.xsw 19#6 6#5) ∧
  decode 0xEA00A000#32 = .ok (.pendBind 10#6) ∧ decode 0xEA00A001#32 = .ok (.pendImp 10#6) ∧ decode 0#32 = .ok .nop

/-- R39, R40, R43: a word whose opcode is unassigned decodes to nothing. -/
def Sys2Proof.Spec.UnassignedOpcodesDecodeToNothing : Prop :=
  ∀ w : Word, assignedOpcode (w.extractLsb' 24 8).toNat = false → decode w = .error .unassignedOpcode

/-- R39, R40: a word that fails the decoding checks takes the trap of its first failure; a course's state but for that trap is
untouched. -/
def Sys2Proof.Spec.IllegalWordTraps : Prop :=
  ∀ (s : State) (w : Word) (ca : Cause) (ti : Word), Present s → r39 (s.env s.cur) w = some (ca, ti) →
    exec (.illegalInstructionWord w) s = .next (s.takeTrap ca 0 0 ti.toNat)

/-! # Vector instructions -/

/-- R82-R109: each value-producing vector instruction whose operands are ready completes, and delivers its values.
The elementary functions are as the model evaluates them (log 10). -/
def Obligations.VectorInstructionsComplete : Prop :=
  ∀ (s : State) k str c t i w r, VecReady s k str c t i w r →
    exec i s = .next (finished s (vecDone s k str c r) w)

/-- R14, R15, R82: after a value-producing vector instruction, a lane outside M is as it was; in a lane of M the queue has
shifted by one word, or by two for a 64-bit result, with the value, or 0 where the guard is false; a named destination is
written and set full only where the guard is true; destination 0 changes nothing. -/
def Obligations.DeliverPushesInTheMaskAndWritesUnderTheGuard : Prop :=
  ∀ (s : State) k str c t i w r, VecReady s k str c t i w r → ∃ u c', exec i s = .next u ∧ u.course? k = some c' ∧
    ∀ l, l < 32 →
      let x := c.lane l
      let y := c'.lane l
      let v := if (c.active str).getLsbD l then (r.value l).bits else 0
      ((r.dest = 0 ∨ (c.mask str).getLsbD l = false) → y = x) ∧
      ((r.dest ≠ 0 ∧ (c.mask str).getLsbD l = true) →
        (r.wide = false → y.age 0 = BitVec.ofNat 32 v ∧ ∀ a, a < 15 → y.age (a + 1) = x.age a) ∧
        (r.wide = true → y.age 0 = BitVec.ofNat 32 v ∧ y.age 1 = BitVec.ofNat 32 (v / 2 ^ 32) ∧
          ∀ a, a < 14 → y.age (a + 2) = x.age a) ∧
        (∀ n, n < 32 →
          (((c.active str).getLsbD l = true ∧ r.dest = 16 + n) → y.named n = BitVec.ofNat 32 v ∧ y.fe.getLsbD n = true) ∧
          (((c.active str).getLsbD l = true ∧ r.wide = true ∧ 16 ≤ r.dest ∧ r.dest + 1 = 16 + n) →
            y.named n = BitVec.ofNat 32 (v / 2 ^ 32) ∧ y.fe.getLsbD n = true) ∧
          (((c.active str).getLsbD l = false ∨ (r.dest ≠ 16 + n ∧ ¬ (r.wide = true ∧ 16 ≤ r.dest ∧ r.dest + 1 = 16 + n))) →
            y.named n = x.named n ∧ y.fe.getLsbD n = x.fe.getLsbD n)) ∧
        y.p = x.p)

/-- The frame of the value-producing vector instructions: no memory, no other course or team, no device register; of the
course itself, no lane predicate, group register, reduction register, MODE, other slot, split stack, store buffer, counter,
trap register or extended word; FPFLAGS only gains bits; SRSEEDO is kept, and SRSEEDV too unless a conversion rounds
stochastically. -/
def Obligations.VectorInstructionsFrame : Prop :=
  ∀ (s : State) k str c t i w r u, VecReady s k str c t i w r → exec i s = .next u →
    Elsewhere s u k ∧ ∃ c', u.course? k = some c' ∧ c'.sc = c.sc ∧ c'.mode = c.mode ∧ c'.slot (!str) = c.slot (!str) ∧
      (c'.slot str).mask = (c.slot str).mask ∧ (c'.slot str).id = (c.slot str).id ∧
      (∀ l, l < 32 → (c'.lane l).p = (c.lane l).p) ∧
      (c'.slot str).pc = (c.slot str).pc + 4#32 ∧ c'.depth = c.depth ∧ c'.sb = c.sb ∧ c'.unack = c.unack ∧
      c'.splitSp = c.splitSp ∧ c'.alwLow = c.alwLow ∧ c'.hbase = c.hbase ∧ c'.handler = c.handler ∧ c'.tcause = c.tcause ∧
      c'.tpc = c.tpc ∧ c'.taddr = c.taddr ∧ c'.tmask = c.tmask ∧ c'.tinfo = c.tinfo ∧ c'.xHeader = c.xHeader ∧
      c'.xStretcher = c.xStretcher ∧ c'.xMode = c.xMode ∧ c'.replayMask = c.replayMask ∧ c'.faultPend = c.faultPend ∧
      c'.fpflags = c.fpflags ||| rowFlags (c.active str) r ∧ c'.srSeedO = c.srSeedO ∧
      c'.srSeedV = r.seed.getD c.srSeedV

/-- R83: an instruction whose ET is not accepted traps ILLEGAL with FLD 0 and SUB 0x03, before any operand is read. CVT's
mismatch of element counts has FLD 4 (R107). -/
def Sys2Proof.Spec.UnacceptedElementTypeTrapsIllegal : Prop :=
  ∀ (s : State) k str c t i w r, Runs s k str c t → Passes s i w → vecRow c i = some r → r.types = false →
    exec i s = .next (s.takeTrap .illegal 0 0
      (opOf w * 2 ^ 24 + typeField i * 2 ^ 20 + 3))

/-- R18: where some policy-1 source is empty in a checked lane, a value-producing vector instruction traps EMPTYREAD with those
lanes in TMASK; where sources are empty only under policy 0, or the destination is, it has not issued: nothing changes. LIH
and CVTN, whose destination is also read, wait as the destination does and are left to the other statements. -/
def Sys2Proof.Spec.EmptyRegistersTrapOrWait : Prop :=
  ∀ (s : State) k str c t i w r, Runs s k str c t → Passes s i w → vecRow c i = some r → r.types = true →
    readsOldValue i = false →
    let emptyUnder (pol : Bool) (l : Nat) : Bool := r.reads.any fun u => (c.mode.getLsbD u.slot == pol) && c.isEmpty u.type.wide u.code l
    let trapping := maskOf fun l => (c.active str).getLsbD l && emptyUnder true l
    (trapping ≠ 0#32 → exec i s = .next (s.takeTrap .emptyRead 0 trapping.toNat 0)) ∧
    (trapping = 0#32 → (∃ l, l < 32 ∧ (c.active str).getLsbD l = true ∧ (emptyUnder false l = true ∨ c.isEmpty r.wide r.dest l = true)) →
      exec i s = .next s)

/-- R89, R69: a lane of IADD, ISUB and IMUL under S32 holds the exact result modulo 2^32 when SAT is 0, and the result clamped to
the range of S32 when SAT is 1. -/
def Obligations.IntegerArithmeticWrapsOrSaturates : Prop :=
  ∀ (x y : Word) (m : AluMode), m.et = .s32 →
    let exact (f : Int → Int → Int) : Int := f x.toInt y.toInt
    let want (e : Int) : Word := if m.sat then BitVec.ofInt 32 (max (-2147483648) (min 2147483647 e)) else BitVec.ofInt 32 e
    iadd m x.toNat y.toNat = (want (exact (· + ·))).toNat ∧ isub m x.toNat y.toNat = (want (exact (· - ·))).toNat ∧
      imul m x.toNat y.toNat = (want (exact (· * ·))).toNat

/-- R86: CMP, CMPI, FCMP, PMOV and PLOP complete, write their predicate in the guard-true lanes of M by the combine table, and
push nothing; other lanes keep it, p7 stays true, and no word holds a reserved combine code. -/
def Obligations.PredicateInstructionsComplete : Prop :=
  (∀ (s : State) k str c t i w r, Runs s k str c t → Passes s i w → predRow c i = some r → r.types = true →
    Ready c (c.active str) r.reads [] → exec i s = .next (finished s (s.setCourse k (predDone c str r)) w)) ∧
  (∀ (c : Course) str (r : PredRow) l, l < 32 → let x := c.lane l
    let y := (predDone c str r).lane l
    y.q = x.q ∧ y.n = x.n ∧ y.fe = x.fe ∧ y.pred 7 = true ∧ ∀ n, n < 7 →
      y.pred n = if (c.active str).getLsbD l = true ∧ n = r.field / 8 then combined (r.field % 8) (x.pred n) (r.cond l) else x.pred n) ∧
  (∀ (p m : BitVec 3), 6 ≤ m.toNat → (∀ a b k, (Instr.cmp p m a b k).wf = false ∧ (Instr.fcmp p m a b k).wf = false) ∧
    (∀ a k v, (Instr.cmpi p m a k v).wf = false) ∧ (∀ a x n, (Instr.pmov p m a x n).wf = false) ∧ ∀ u v z, (Instr.plop p m u v z).wf = false)

/-- R111-R116: the lane instructions complete. SHFL delivers the A value of its source lane; VOTE and BCST write a group register;
RDX writes the reduction register and adds 1 to its sequence number; SCAN delivers the scan; the RDXW forms act as their
modes say. A stretcher slot's BCST of a lane of the header slot reads that lane as it was before the header slot's word of the
same cycle (R113). -/
def Obligations.LaneInstructionsComplete : Prop :=
  ∀ (s : State) k str c t w, Runs s k str c t →
    (∀ d a b m, Passes s (.shfl d a b m) w → Ready c (c.mask str) [⟨a.toNat, c.et, 13⟩] [] →
      Ready c (c.active str) [⟨b.toNat, .n32, 14⟩] [(d.toNat, c.et.wide)] →
      exec (.shfl d a b m) s = .next (finished s (s.setCourse k (c.deliver (c.mask str) (c.active str) d.toNat c.et.wide fun l =>
        c.src c.et a.toNat (shflSource m.toNat l (c.src .n32 b.toNat l) (c.mask str)))) w)) ∧
    (∀ d n p m, Passes s (.vote d n p m) w → exec (.vote d n p m) s =
      .next (finished s (s.gdst false d.toNat (voteWord m.toNat (c.active str) (voters c str (n == 1#1) p.toNat))) w)) ∧
    (∀ d a b, Passes s (.bcst d a b) w → s.before = none → Ready c (maskOf fun l => decide (l = b.toNat)) [⟨a.toNat, c.et, 13⟩] [] →
      exec (.bcst d a b) s = .next (finished s (s.gdst c.et.wide d.toNat (c.src c.et a.toNat b.toNat)) w)) ∧
    (∀ d a b y, Passes s (.bcst d a b) w → s.before = some y → y.key = k → y.course.header.mask.getLsbD b.toNat = true →
      let old : Course := { c with lanes := y.course.lanes }
      Ready old (maskOf fun l => decide (l = b.toNat)) [⟨a.toNat, c.et, 13⟩] [] →
      exec (.bcst d a b) s = .next (finished s (s.gdst c.et.wide d.toNat (old.src c.et a.toNat b.toNat)) w)) ∧
    (∀ a p op, Passes s (.rdx a p) w → c.et.count = 1 → RedOp.ofCode p.toNat = some op →
      Ready c (c.active str) [⟨a.toNat, c.et, 13⟩] [] →
      let r := reduce c.alu op (redLanes c (c.active str) op a.toNat)
      exec (.rdx a p) s = .next (finished s (s.setCourse k { c with
        sc := { c.sc with red := BitVec.ofNat 64 r.1, redSeq := c.sc.redSeq + 1#16 },
        fpflags := c.fpflags ||| (if c.active str = 0#32 then 0#5 else r.2) }) w)) ∧
    (∀ d a p op, Passes s (.scan d a p) w → c.et.count = 1 → RedOp.ofCode p.toNat = some op →
      Ready c (c.active str) [⟨a.toNat, c.et, 13⟩] [(d.toNat, c.et.wide)] →
      let r := scan c.alu op (redLanes c (c.active str) op a.toNat)
      let c' := c.deliver (c.mask str) (c.active str) d.toNat c.et.wide fun l => r.1.getD l 0
      exec (.scan d a p) s = .next (finished s (s.setCourse k { c' with
        fpflags := c'.fpflags ||| (if c.active str = 0#32 then 0#5 else r.2) }) w)) ∧
    (∀ d a, Passes s (.rdxwWait d a) w → Clean s [(a.toNat, false)] →
      (c.sc.redSeq - BitVec.ofNat 16 (c.sc.src false a.toNat)).toNat < 32768 →
      exec (.rdxwWait d a) s = .next (finished s (s.gdst c.gt.wide d.toNat c.sc.red.toNat) w)) ∧
    (∀ d a, Passes s (.rdxwWait d a) w → Clean s [(a.toNat, false)] →
      32768 ≤ (c.sc.redSeq - BitVec.ofNat 16 (c.sc.src false a.toNat)).toNat → exec (.rdxwWait d a) s = .next s) ∧
    (∀ d, Passes s (.rdxwSeq d) w → exec (.rdxwSeq d) s = .next (finished s (s.gdst false d.toNat c.sc.redSeq.toNat) w)) ∧
    (∀ a b, Passes s (.rdxwSet a b) w → Clean s [(a.toNat, c.gt.wide), (b.toNat, false)] →
      exec (.rdxwSet a b) s = .next (finished s (s.setScalar s.cur { c.sc with
        red := BitVec.ofNat 64 (c.sc.src c.gt.wide a.toNat), redSeq := BitVec.ofNat 16 (c.sc.src false b.toNat) }) w))

/-! # MODE, special registers, traps and control flow -/

/-- R45, R117, R119, R120, R124, R125: NOP and YIELD change only the counts and the PC (YIELD marks its slot); SETM places its
value in MODE; GETM reads MODE; GSR reads, and GSW writes, each special register it may reach. -/
def Sys2Proof.Spec.ModeAndSpecialRegisterInstructionsComplete : Prop :=
  (∀ (s : State) w, Present s → Passes s .nop w → exec .nop s = .next (finished s s w)) ∧
  (∀ (s : State) w, Present s → Passes s .yield w → exec .yield s = .next (finished s s w)) ∧
  ∀ (s : State) k str c t w, Runs s k str c t →
    (∀ f v, Passes s (.setm f v) w → (f = 8#4 → Clean s [(v.toNat % 32, false)]) → modeOk (setModeField c f.toNat v.toNat) = true →
      exec (.setm f v) s = .next (finished s (s.setCourse k { c with mode := BitVec.ofNat 32 (setModeField c f.toNat v.toNat) }) w)) ∧
    (∀ d, Passes s (.getm d) w → exec (.getm d) s = .next (finished s (s.gdst false d.toNat c.mode.toNat) w)) ∧
    (∀ d n, Passes s (.gsr d n) w → MayAccess c n.toNat false c.gt.wide → exec (.gsr d n) s =
      .next (finished s (s.tick.gdst c.gt.wide d.toNat
        (s.special t c n.toNat + if c.gt.wide then 2 ^ 32 * s.special t c (n.toNat + 1) else 0)) w)) ∧
    (∀ a n u, Passes s (.gsw a n) w → MayAccess c n.toNat true c.gt.wide → Clean s [(a.toNat, c.gt.wide)] →
      s.setSpecial k n.toNat (c.sc.src c.gt.wide a.toNat) c.gt.wide = .done u → exec (.gsw a n) s = .next (finished s u w))

/-- R25, R124: what GSW leaves in FPFLAGS, SRSEEDV, ALWLOW, SPLITSP and the halves of HBASE; a misaligned SPLITSP or HBASE traps ALIGN, with TADDR 0 (the
model's choice: log 105). -/
def Sys2Proof.Spec.GswWritesTheNamedRegister : Prop :=
  ∀ (s : State) k str c t w a n, Runs s k str c t → Passes s (.gsw a n) w → MayAccess c n.toNat true c.gt.wide →
    Clean s [(a.toNat, c.gt.wide)] → c.gt.wide = false →
    let v : Word := c.sc.reg a.toNat
    a.toNat < 32 →
    (n = 0x010#12 → exec (.gsw a n) s = .next (finished s (s.modCourse k fun c => { c with fpflags := v.setWidth 5 }) w)) ∧
    (n = 0x011#12 → exec (.gsw a n) s = .next (finished s (s.modCourse k fun c =>
      { c with srSeedV := if v = 0#32 then 1#32 else v }) w)) ∧
    (n = 0x040#12 → exec (.gsw a n) s = .next (finished s (s.modCourse k fun c => { c with alwLow := v }) w)) ∧
    (n = 0x080#12 → v.toNat % 16 = 0 →
      exec (.gsw a n) s = .next (finished s (s.modCourse k fun c => { c with splitSp := v }) w)) ∧
    (n = 0x080#12 → v.toNat % 16 ≠ 0 → exec (.gsw a n) s = .next (s.takeTrap .align 0 0 16)) ∧
    (n = 0x070#12 → v.toNat % 4 = 0 → exec (.gsw a n) s = .next (finished s (s.modCourse k fun c =>
      { c with hbase := BitVec.ofNat 64 (c.hbase.toNat / 2 ^ 32 * 2 ^ 32 + v.toNat) }) w)) ∧
    (n = 0x071#12 → exec (.gsw a n) s = .next (finished s (s.modCourse k fun c =>
      { c with hbase := BitVec.ofNat 64 (c.hbase.toNat % 2 ^ 32 + v.toNat * 2 ^ 32) }) w)) ∧
    (n = 0x070#12 → v.toNat % 4 ≠ 0 → exec (.gsw a n) s = .next (s.takeTrap .align 0 0 4))

/-- R24: SETM that would place a reserved value in a field of MODE traps ILLMODE, and MODE is left unchanged: the trap saves
the old MODE in the extended state. -/
def Sys2Proof.Spec.ReservedModeTrapsIllmode : Prop :=
  ∀ (s : State) k str c t w f v, Runs s k str c t → Passes s (.setm f v) w → (f = 8#4 → Clean s [(v.toNat % 32, false)]) →
    modeOk (setModeField c f.toNat v.toNat) = false → CanTrap c t →
    ∃ u c', exec (.setm f v) s = .next u ∧ u.course? k = some c' ∧ c'.xMode = c.mode ∧ c'.tcause = 0x02#32

/-- R25: access to a register marked handler-only outside handler mode traps PRIV. -/
def Sys2Proof.Spec.HandlerOnlyRegistersTrapPriv : Prop :=
  ∀ (s : State) k str c t w, Runs s k str c t → c.handler = false → c.gt.wide = false → CanTrap c t →
    (∀ d (n : BitVec 12), Passes s (.gsr d n) w → (0x060 ≤ n.toNat ∧ n.toNat ≤ 0x065) →
      ∃ u, exec (.gsr d n) s = .next u ∧ TrapsWith s u k str c 0x0E 0 0 (0x07500011)) ∧
    (∀ a (n : BitVec 12), Passes s (.gsw a n) w → (n = 0x070#12 ∨ n = 0x071#12 ∨ (0x100 ≤ n.toNat ∧ n.toNat ≤ 0x13F)) →
      ∃ u, exec (.gsw a n) s = .next u ∧ TrapsWith s u k str c 0x0E 0 0 (0x08500011))

/-- R123, R271: TRAP and BKPT of a course outside handler mode enter its handler with their cause and immediate: the slots and MODE
are saved, the cause registers written, MODE is 0x00000007, the handler's slot starts at PC 0 from HBASE, and everything else R271
names is untouched; no other state changes. -/
def Sys2Proof.Spec.SoftwareTrapsEnterTheHandler : Prop :=
  ∀ (s : State) k str c t w imm, Runs s k str c t → CanTrap c t →
    (Passes s (.trap imm) w → ∃ u, exec (.trap imm) s = .next u ∧ TrapsWith s u k str c 0x0C 0 0 imm.toNat) ∧
    (Passes s (.bkpt imm) w → ∃ u, exec (.bkpt imm) s = .next u ∧ TrapsWith s u k str c 0x0B 0 0 imm.toNat)

/-- R274: a trap that a handler's instruction raises, or one of a team whose HBASE is 0, ends the team: no course of it is
live, but for one whose store has begun to enter its buffer, which keeps that slot alone; its sequencer is idle, and a record of
type 4 with the cause, TID, CID and TPC follows those in its die's list, before those of causes its courses held (R443): none when they held none. -/
def Sys2Proof.Spec.DoubleTrapEndsTheTeam : Prop :=
  ∀ (s : State) k str c t w imm, Runs s k str c t → t.version = none → t.abnormal = false → (c.handler = true ∨ c.hbase = 0#64) →
    Passes s (.trap imm) w →
    ∃ u, exec (.trap imm) s = .next u ∧ (∀ j x, u.course? j = some x → j / 16 = k / 16 → x.life = .live →
        (Entering x.header ∨ Entering x.stretcher) ∧ (x.header.mask = 0#32 ∨ Entering x.header) ∧ (x.stretcher.mask = 0#32 ∨ Entering x.stretcher)) ∧
      (∀ x, u.team? (k / 16) = some x → x.seq.run = .idle ∧ x.abnormal = true) ∧
      ∃ r rs, (u.die (t.core / 96)).faults = (s.die (t.core / 96)).faults ++ r :: rs ∧ ((∀ kc ∈ s.coursesOf (k / 16), kc.2.held = []) → rs = []) ∧ r.type = 4 ∧ r.kind = 0x0C ∧
        r.tid = t.tid.toNat ∧ r.cidSlot = c.cid + 16 * boolNat str ∧ r.addr = (c.slot str).pc.toNat

/-- R276, R277: XSR delivers a per-lane word or writes a group register; XSW writes the full/empty words, a store-buffer image, or a
course-wide word whose check passes. What an entry keeps that its image has no place for is the model's reading (log 45, log 106). -/
def Obligations.ExtendedStateAccessesComplete : Prop :=
  ∀ (s : State) k str c t w, Runs s k str c t →
    (∀ d (x : BitVec 5), Passes s (.xsr d x) w → xPerLane x.toNat = true → Ready c (c.active str) [] [(d.toNat, false)] →
      exec (.xsr d x) s = .next (finished s (s.setCourse k
        (c.deliver (c.mask str) (c.active str) d.toNat false fun l => c.xLane x.toNat l)) w)) ∧
    (∀ d (x : BitVec 5), Passes s (.xsr d x) w → xPerLane x.toNat = false →
      exec (.xsr d x) s = .next (finished s (s.gdst false d.toNat (c.xWord x.toNat)) w)) ∧
    (∀ a, Passes s (.xsw a 6#5) w → Ready c (c.active str) [⟨a.toNat, .n32, 13⟩] [] →
      exec (.xsw a 6#5) s = .next (finished s (s.setCourse k (c.mapFrom (c.active str) fun l y =>
        { y with fe := BitVec.ofNat 32 (c.src .n32 a.toNat l) })) w)) ∧
    (∀ a (x : BitVec 5), Passes s (.xsw a x) w → 8 ≤ x.toNat → x.toNat ≤ 0x17 → Ready c (c.active str) [⟨a.toNat, .n32, 13⟩] [] →
      let img (l : Nat) : Nat := if (c.active str).getLsbD l then c.src .n32 a.toNat l else (c.sbAt (x.toNat - 8)).image l
      imageOk img = true → exec (.xsw a x) s = .next (finished s (s.setCourse k
        (c.setEntry (x.toNat - 8) ((c.sbAt (x.toNat - 8)).ofImage s.fresh (s.stepOf t.core) img))).tick w)) ∧
    (∀ a (x : BitVec 5) c', Passes s (.xsw a x) w → xPerLane x.toNat = false → Clean s [(a.toNat, false)] →
      c.xWrite x.toNat (c.sc.src false a.toNat) = some c' → exec (.xsw a x) s = .next (finished s (s.setCourse k c') w))

/-- R278: ERET with no cause held leaves handler mode: MODE and the slots come back from the extended state and the store buffer
is unfrozen; with no miss pending, extended state is kept. With slots still free at depth 0 nothing more happens. -/
def Sys2Proof.Spec.EretRestoresTheTrappedState : Prop :=
  ∀ (s : State) k str c t w, Runs s k str c t → Passes s .eret w → c.handler = true → c.held = [] → c.preempt = none →
    c.faultPend.getLsbD 31 = false → c.xHeader.mask ≠ 0#32 → (c.xStretcher.mask ≠ 0#32 ∨ c.depth = 0) →
    ∃ u c', exec .eret s = .next (counted s u w) ∧ u = s.setCourse k c' ∧ c'.mode = c.xMode ∧ c'.handler = false ∧
      c'.header = { c.xHeader with parked := none } ∧ c'.stretcher = { c.xStretcher with parked := none } ∧
      (∀ i : Fin 16, c'.sb[i].frozen = false ∧ c'.sb[i].data = c.sb[i].data ∧ c'.sb[i].valid = c.sb[i].valid) ∧
      c'.replayMask = c.replayMask ∧ c'.faultPend = c.faultPend ∧ c'.lanes = c.lanes ∧ c'.sc = c.sc ∧ c'.depth = c.depth

/-- R278, R275: ERET with a cause held stays in the handler: the oldest cause other than PREEMPT, else PREEMPT, takes the cause
registers, MODE is 0x00000007 and the handler starts again at PC 0; PREEMPT's entry freezes the store-buffer entries present (R268). -/
def Sys2Proof.Spec.EretTakesAHeldCause : Prop :=
  ∀ (s : State) k str c t w, Runs s k str c t → Passes s .eret w → c.handler = true →
    (∀ h rest, c.held = h :: rest → ∃ c', exec .eret s = .next (counted s (s.setCourse k c') w) ∧ c'.held = rest ∧
      c'.tcause = BitVec.ofNat 32 h.cause.code ∧ c'.taddr = h.taddr ∧ c'.tmask = h.tmask ∧ c'.tinfo = h.tinfo ∧
      c'.tpc = (if c.xHeader.mask = 0#32 then c.xStretcher.pc else c.xHeader.pc) ∧ c'.mode = 0x00000007#32 ∧ c'.handler = true ∧
      c'.header.pc = 0#32 ∧ c'.header.mask = 0xFFFFFFFF#32 ∧ c'.stretcher.mask = 0#32 ∧ c'.xHeader = c.xHeader ∧ c'.xMode = c.xMode) ∧
    (∀ ti, c.held = [] → c.preempt = some ti → ∃ c', exec .eret s = .next (counted s (s.setCourse k c') w) ∧ c'.preempt = none ∧
      c'.tcause = 0x16#32 ∧ c'.taddr = 0#64 ∧ c'.tmask = 0#32 ∧ c'.tinfo = ti ∧ c'.handler = true ∧ c'.header.pc = 0#32 ∧
      ∀ i : Fin 16, c.sb[i].valid = true → c'.sb[i].frozen = true)

/-- R127, R128, R133, R134: BRA, CALL, RET, JMPI and LOOP of any agent move its PC, link and count as their rules say; a computed target that
is not a multiple of 4 traps ALIGN with TADDR the target: the 32-bit register's value in a processor too (the model's choice: log 105). -/
def Sys2Proof.Spec.BranchesComplete : Prop :=
  ∀ (s : State) w, Present s →
    (∀ n p o, Passes s (.bra n p o) w → exec (.bra n p o) s =
      .next (counted s (s.goto (branchTo s (s.sc.pred p.toNat != (n == 1#1)) o)) w)) ∧
    (∀ o, Passes s (.call o) w → exec (.call o) s =
      .next (counted s ((s.gdst false 31 (s.pc + 4)).goto (branchTo s true o)) w)) ∧
    (Passes s .ret w → Clean s [(31, false)] →
      let g := (s.sc.reg 31).toNat
      (g % 4 = 0 → exec .ret s = .next (counted s (s.goto g) w)) ∧
      (g % 4 ≠ 0 → exec .ret s = .next (s.takeTrap .align g 0 4))) ∧
    (∀ a l, Passes s (.jmpi a l) w → Clean s [(a.toNat, false)] →
      let g := s.gsrc false a.toNat
      (g % 4 = 0 → exec (.jmpi a l) s =
        .next (counted s ((if l = 1#1 then s.gdst false 31 (s.pc + 4) else s).goto g) w)) ∧
      (g % 4 ≠ 0 → exec (.jmpi a l) s = .next (s.takeTrap .align g 0 4))) ∧
    (∀ k o, Passes s (.loop k o) w → Clean s [(k.toNat, false)] →
      let v : Word := s.sc.reg k.toNat - 1#32
      let s' := s.gdst false k.toNat v.toNat
      exec (.loop k o) s = .next (counted s (s'.goto (branchTo s (v ≠ 0#32) o)) w))

/-- R129, R132, R12: BRC moves the whole slot, splits into the free slot, or pushes the taken lanes; at depth 32, or in a handler with
both slots taken, it traps SPLITOVF, and beyond SPSIZE SPBOUND. -/
def Sys2Proof.Spec.BrcSplitsTheSlot : Prop :=
  ∀ (s : State) k str c t w n p o, Runs s k str c t → Passes s (.brc n p o) w →
    let x := c.slot str
    let tk := takers c str (n == 1#1) p.toNat
    let target := branchTarget x.pc o
    (tk = 0#32 → exec (.brc n p o) s = .next (counted s (s.setCourse k (c.setSlot str (Slot.moved x (x.pc + 4#32)))) w)) ∧
    (tk ≠ 0#32 → tk = x.mask → exec (.brc n p o) s = .next (counted s (s.setCourse k (c.setSlot str (Slot.moved x target))) w)) ∧
    (tk ≠ 0#32 → tk ≠ x.mask → (c.slot (!str)).mask = 0#32 →
      exec (.brc n p o) s = .next (counted s (s.setCourse k (splitFree c str tk target)) w)) ∧
    (tk ≠ 0#32 → tk ≠ x.mask → (c.slot (!str)).mask ≠ 0#32 →
      ((c.handler = true ∨ 32 ≤ c.depth) → exec (.brc n p o) s = .next (s.takeTrap .splitOvf 0 0 0)) ∧
      ((c.handler = false ∧ c.depth < 32) → t.spSize < c.splitSp.toNat + 16 * c.depth + 16 →
        exec (.brc n p o) s = .next (s.takeTrap .spBound 0 0 0)) ∧
      ((c.handler = false ∧ c.depth < 32) → c.splitSp.toNat + 16 * c.depth + 16 ≤ t.spSize →
        exec (.brc n p o) s = .next (counted s ((s.setTeam (k / 16) (t.spWrite (c.splitSp.toNat + 16 * c.depth)
          (entryBytes target tk (x.id + 1#16)))).setCourse k (splitPush c str tk)) w)))

/-- R130, R131: JOIN's cases 1 to 5 at slot X, in order; a freed stretcher is refilled from the stack after case 2. In case 6, unless the other
slot stands there too, nothing changes. A JOIN that merges lanes puts the accesses before it in order with both slots' later ones (R11; how is the model's
reading, log 104). -/
def Sys2Proof.Spec.JoinResolvesItsCases : Prop :=
  ∀ (s : State) k str c t w, Runs s k str c t → Passes s .join w →
    let x := c.slot str
    let y := c.slot (!str)
    let on (m : Word) (id : BitVec 16) : Slot := { Slot.free with pc := x.pc + 4#32, mask := m, id := id }
    let put (c' : Course) : Out := .next (counted s (s.setCourse k c') w)
    let merges (c' : Course) : Out := .next (counted s ((s.setCourse k c').joinLanes k) w)
    (x.id = 0#16 → exec .join s = put (c.setSlot str (Slot.moved x (x.pc + 4#32)))) ∧
    (x.id ≠ 0#16 → (y.mask ≠ 0#32 ∧ y.pc = x.pc ∧ y.id = x.id) → c.effDepth = 0 →
      exec .join s = merges { c with header := on (x.mask ||| y.mask) (x.id - 1#16), stretcher := Slot.free }) ∧
    (x.id ≠ 0#16 → (y.mask ≠ 0#32 ∧ y.pc = x.pc ∧ y.id = x.id) → c.handler = false → 0 < c.depth →
      let o := c.splitSp.toNat + 16 * (c.depth - 1)
      o + 16 ≤ t.spSize → t.spPoisoned o 16 = false →
      let e := stackEntry t c (c.depth - 1)
      exec .join s = merges { c with header := on (x.mask ||| y.mask) (x.id - 1#16), stretcher := { e with pc := e.pc &&& 0xFFFFFFFC#32 }, depth := c.depth - 1 }) ∧
    (x.id ≠ 0#16 → ¬ (y.mask ≠ 0#32 ∧ y.pc = x.pc ∧ y.id = x.id) → c.handler = false → 0 < c.depth →
      let o := c.splitSp.toNat + 16 * (c.depth - 1)
      o + 16 ≤ t.spSize → t.spPoisoned o 16 = false →
      let e := stackEntry t c (c.depth - 1)
      (e.id = x.id → e.pc = x.pc →
        let c' := ({ c with depth := c.depth - 1 }).setSlot str (on (x.mask ||| e.mask) (x.id - 1#16))
        exec .join s = if x.mask ||| e.mask = x.mask then put c' else merges c') ∧
      (e.id = x.id → e.pc ≠ x.pc →
        exec .join s = .next (counted s ((s.setTeam (k / 16) (t.spWrite o (entryBytes x.pc x.mask x.id))).setCourse k
          (c.setSlot str { e with pc := e.pc &&& 0xFFFFFFFC#32 })) w)) ∧
      (e.id ≠ x.id → (y.mask = 0#32 ∨ y.id < x.id) → (∀ n, n < c.depth → (stackEntry t c n).id < x.id) →
        exec .join s = put (c.setSlot str (on x.mask (x.id - 1#16))))) ∧
    (x.id ≠ 0#16 → c.effDepth = 0 → ¬ (y.mask ≠ 0#32 ∧ y.pc = x.pc ∧ y.id = x.id) → (y.mask = 0#32 ∨ y.id < x.id) →
      exec .join s = put (c.setSlot str (on x.mask (x.id - 1#16)))) ∧
    (x.id ≠ 0#16 → c.effDepth = 0 → (y.mask ≠ 0#32 ∧ y.pc ≠ x.pc ∧ x.id ≤ y.id) → s.peekWord t c y.pc ≠ some 0x72000000#32 →
      exec .join s = .next s)

/-- R135: BALW compares the sampled allowance with ALWLOW, unsigned. -/
def Sys2Proof.Spec.BalwBranchesOnTheAllowance : Prop :=
  ∀ (s : State) k str c t w g o, Runs s k str c t → Passes s (.balw g o) w → Clean s [(g.toNat, false)] →
    exec (.balw g o) s = .next (counted s (s.goto (branchTo s
      (decide (s.allowance (s.pkgOf s.cur) ((c.sc.reg g.toNat).toNat % 32) < c.alwLow.toNat)) o)) w)

/-! # Group-wide instructions -/

/-- R137, R138: the group-wide arithmetic of a course, a control core and a Lintel completes with R138's result modulo 2^w. -/
def Sys2Proof.Spec.GroupArithmeticCompletes : Prop :=
  ∀ (s : State) i w d a b v, Present s → Passes s i w → GtLegal s → groupFields i = some (d, a, b) →
    Clean s [(a.toNat, s.gwide), (b.toNat, s.gwide)] →
    groupResult i (gtWidth s) (gtSigned s) (s.gsrc s.gwide a.toNat) (s.gsrc s.gwide b.toNat) = some v →
    exec i s = .next (finished s (s.gdst s.gwide d.toNat v) w)

/-- R138-R140: GADDI, GLI and GLI.H write their register, GCMP its group predicate; gp7 never changes. A processor's GT is S32 (the model's reading: log 12). -/
def Sys2Proof.Spec.GroupImmediatesAndComparesComplete : Prop :=
  ∀ (s : State) w, Present s →
    (∀ d a v, Passes s (.gaddi d a v) w → Clean s [(a.toNat, s.gwide)] → exec (.gaddi d a v) s =
      .next (finished s (s.gdst s.gwide d.toNat (((s.gsrc s.gwide a.toNat : Int) + v.toInt) % 2 ^ gtWidth s).toNat) w)) ∧
    (∀ d (v : BitVec 17), Passes s (.gli d v) w →
      exec (.gli d v) s = .next (finished s (s.gdst false d.toNat (v.signExtend 32).toNat) w)) ∧
    (∀ d (v : BitVec 15), Passes s (.gliH d v) w → Clean s [(d.toNat, false)] → exec (.gliH d v) s =
      .next (finished s (s.gdst false d.toNat (v.toNat * 2 ^ 17 + s.gsrc false d.toNat % 2 ^ 17)) w)) ∧
    (∀ p m a b k, Passes s (.gcmp p m a b k) w → GtLegal s → Clean s [(a.toNat, s.gwide), (b.toNat, s.gwide)] →
      let x := s.gsrc s.gwide a.toNat
      let y := s.gsrc s.gwide b.toNat
      let less := if gtSigned s then decide (signedVal (gtWidth s) x < signedVal (gtWidth s) y) else decide (x < y)
      exec (.gcmp p m a b k) s = .next (finished s (s.setScalar s.cur (s.sc.setPred p.toNat
        (combined m.toNat (s.sc.pred p.toNat) (condHolds k.toNat less (decide (x = y)))))) w)) ∧
    (∀ (x : Scalar) b, x.setPred 7 b = x)

/-- The frame of the group-wide arithmetic of a course: of its registers only gd (and its pair partner, for a 64-bit width) changes, gp
not at all; no lane, no MODE, no other slot, no memory, nothing elsewhere. -/
def Obligations.GroupArithmeticFrame : Prop :=
  ∀ (s : State) k str c t i w d a b v u, Runs s k str c t → Passes s i w → GtLegal s → groupFields i = some (d, a, b) →
    Clean s [(a.toNat, s.gwide), (b.toNat, s.gwide)] →
    groupResult i (gtWidth s) (gtSigned s) (s.gsrc s.gwide a.toNat) (s.gsrc s.gwide b.toNat) = some v → exec i s = .next u →
    Elsewhere s u k ∧ ∃ c', u.course? k = some c' ∧ c'.lanes = c.lanes ∧ c'.mode = c.mode ∧ c'.fpflags = c.fpflags ∧
      c'.slot (!str) = c.slot (!str) ∧ (c'.slot str).pc = (c.slot str).pc + 4#32 ∧ (c'.slot str).mask = (c.slot str).mask ∧
      c'.sb = c.sb ∧ c'.unack = c.unack ∧ c'.handler = c.handler ∧ c'.tcause = c.tcause ∧ c'.tpc = c.tpc ∧ c'.taddr = c.taddr ∧
      c'.tinfo = c.tinfo ∧ c'.xMode = c.xMode ∧ c'.srSeedV = c.srSeedV ∧ c'.splitSp = c.splitSp ∧ c'.depth = c.depth ∧
      c'.sc.gp = c.sc.gp ∧ c'.sc.red = c.sc.red ∧ c'.sc.redSeq = c.sc.redSeq ∧
      (∀ n, n < 32 → n ≠ d.toNat → ¬ (s.gwide = true ∧ n = d.toNat + 1) → c'.sc.reg n = c.sc.reg n) ∧
      (d.toNat < 32 → c'.sc.reg d.toNat = BitVec.ofNat 32 v) ∧
      (d.toNat < 31 → s.gwide = true → c'.sc.reg (d.toNat + 1) = BitVec.ofNat 32 (v / 2 ^ 32)) ∧
      (d = 63#6 → c'.sc.g = c.sc.g)

/-- R141: GLD of a course sends its request and holds the slot at its PC until the reply; GST of a course puts its store in the store buffer. -/
def Sys2Proof.Spec.CourseGldAndGstComplete : Prop :=
  ∀ (s : State) k str c t w pa leaf, Runs s k str c t → c.alwLow = 0#32 →
    (∀ d a v, Passes s (.gld d a v) w → Clean s [(a.toNat, true)] →
      let va := addImm (s.gsrc true a.toNat) v
      let size := if s.gwide then 8 else 4
      va % size = 0 → s.translate t.xlat va .load true = .ok pa leaf →
      exec (.gld d a v) s = .next (((s.noteTlb t.xlat va).send (.group
        { agent := s.cur, reg := if d.toNat < 32 then some d.toNat else none, wide := s.gwide,
          op := .load pa va size (c.slotLanes str) (List.replicate size none) (t.versionOf (k / 16)) false (leafKey leaf),
          pc := (c.slot str).pc })).awaitReply 0xDE (s.noteTlb t.xlat va).fresh)) ∧
    (∀ d a v u, Passes s (.gst d a v) w → Clean s [(a.toNat, true), (d.toNat, s.gwide)] → (c.slot str).hold = .free →
      let va := addImm (s.gsrc true a.toNat) v
      let size := if s.gwide then 8 else 4
      va % size = 0 → s.translate t.xlat va .store true = .ok pa leaf → versionBans t pa = false →
      (s.noteTlb t.xlat va).enterStores k str [{ addr := va, bytes := bytesOf size (s.gsrc s.gwide d.toNat), key := leafKey leaf, kind := 0#4, scope := 0#3, lane := 0, flag := none }] [pa] = .inl u → c.entries.length < 16 →
      exec (.gst d a v) s = .next (finished s u w))

/-- A line's bytes read the same under a key as they lie there: it is no HBM, or the key's material is the line's (R342, R343). -/
def Sys2Proof.Spec.SameKey (s : State) (pa key : Nat) : Prop := isHbm pa = false ∨ (s.line pa).mat = s.keyMat pa key

/-- R141, R346, R417: GST of a control core or Lintel stores its 4 or 8 bytes at the address's home once no other package holds the line (R325), or in a device register, or,
in another package, by its write path; a register store waits for the agent's earlier ones (R323), and one to RESUME for all its writes to other packages (R335); every byte of memory outside the stored ones and the snapshot's records is as before while the line's key is the access's. (That a
processor's store in its package is performed as it issues is the model's choice: log 14.) -/
def Sys2Proof.Spec.ProcessorGstStoresItsWord : Prop :=
  ∀ (s : State) w x d a v pa leaf, Present s → s.self = none → s.xlatOf s.cur = some x → Passes s (.gst d a v) w →
    Clean s [(a.toNat, true), (d.toNat, s.gwide)] →
    let va := addImm (s.gsrc true a.toNat) v
    let size := if s.gwide then 8 else 4
    va % size = 0 → s.translate x va .store false = .ok pa leaf →
    (isDevice pa = true → s.pathDevices s.myPath = false ∧ (isResume pa size = false ∨ s.procClear = true)) →
    (pa / 2 ^ 48 ≠ s.pkgOf s.cur → ∃ u y, exec (.gst d a v) s = .next (finished s u w) ∧ u.mem = s.mem ∧ u.dev = s.dev ∧
      SMap.find? (u.core s.myPath).path s.fresh = some (.write y) ∧ y.owner = s.cur ∧ y.pa = pa ∧ y.bytes = (bytesOf size (s.gsrc s.gwide d.toNat)).map some ∧
      y.keyId = leafKey leaf ∧ y.sent = false) ∧
    (pa / 2 ^ 48 = s.pkgOf s.cur → isDevice pa = true → exec (.gst d a v) s =
      .next (finished s ((s.noteTlb x va).devWrite pa size (s.gsrc s.gwide d.toNat) (.agent s.cur)) w)) ∧
    (pa / 2 ^ 48 = s.pkgOf s.cur → isDevice pa = false → s.unshared pa = true → ∃ u, exec (.gst d a v) s = .next u ∧
      (s.memWf → snapMark leaf = none → s.forward pa = pa → SameKey s pa (leafKey leaf) →
        u.mem.bytes pa size = bytesOf size (s.gsrc s.gwide d.toNat) ∧
        ∀ b, (b < pa ∨ pa + size ≤ b) → u.mem.byte b = s.mem.byte b))

/-! # Memory instructions of a course -/

/-- R149, R150, R152-R154: a global load whose active lanes all hit sets the destination's bits empty in them, sends one load lane for each,
and completes; its values arrive later. -/
def Sys2Proof.Spec.GlobalLoadsComplete : Prop :=
  ∀ (s : State) k str c t i w r at', Runs s k str c t → Passes s i w → loadRow c i = some r → r.types = true →
    Ready c (c.active str) r.reads [(r.d, r.wide)] → c.alwLow = 0#32 → (c.slot str).hold = .free →
    AllHit s t (c.active str) r.addr r.size r.size .load (fun _ => false) r.op at' →
    let hs := hitsOf (c.active str) r.addr at'
    exec i s = .next (finished s
      (((kept s t hs).modCourse k fun c => c.emptyDest (c.active str) r.d r.wide).sendLoads k str c (r.d - 16) r.size r.sext r.wide
        r.acquire r.sc hs) w)

/-- What a load sends (R150, R256, R262): one load in flight for each hit, under rising stamps, with its lane, register, size,
address and key id, the lanes of its slot, and no byte read yet. -/
def Sys2Proof.Spec.LoadLanesGoInFlight : Prop :=
  ∀ (s : State) k str (c : Course) reg size sext wide acquire sc hits n h, hits[n]? = some h →
    ∃ x, (s.sendLoads k str c reg size sext wide acquire sc hits).flight? (s.fresh + n) = some (.load x) ∧ x.key = k ∧ x.str = str ∧
      x.lane = h.1 ∧ x.reg = reg ∧ x.size = size ∧ x.sext = sext ∧ x.wide = wide ∧ x.va = h.2.1 ∧ x.pa = h.2.2.1 ∧
      x.acquire = acquire ∧ x.sc.isSome = sc ∧ x.keyId = leafKey h.2.2.2 ∧ x.mask = c.slotLanes str ∧ x.got = none ∧ x.asked = false ∧
      ∀ b ∈ x.fwd, b = none

/-- R22, R151-R154, R158: a global store whose active lanes all hit enters its lanes in the store buffer in lane order, with its kind, scope and
flag; it completes once all have entered, and otherwise holds its slot with the lanes left. -/
def Sys2Proof.Spec.GlobalStoresComplete : Prop :=
  ∀ (s : State) k str c t i w r at', Runs s k str c t → Passes s i w → storeRow c i = some r → r.types = true →
    Ready c (c.active str) r.reads [] → c.alwLow = 0#32 → (c.slot str).hold = .free → t.version = none →
    AllHit s t (c.active str) r.addr r.size r.size .store (fun _ => false) r.op at' →
    let hs := hitsOf (c.active str) r.addr at'
    let s' := kept s t hs
    let e := c.enterLanes s'.fresh str (c.slotLanes str) (s'.core t.core).clock (s'.stepOf t.core) (hs.map (storeLane c t r))
    (e.2 = [] → exec i s = .next (finished s (s'.setCourse k e.1).tick w)) ∧
    (e.2 ≠ [] →
      let held (c : Course) : Course := c.setSlot str { c.slot str with hold := .entering s'.fresh e.2 0#32 }
      exec i s = .next ((s'.setCourse k (held e.1)).tick.modCourse k held))

/-- The frame of the global loads and stores of a course, however they end (complete, wait, park, trap): no byte of memory changes (a store's
bytes leave its buffer later), no device register, nothing of a core but its TLB, no other course, no other team; of the course no group register, flag, queue
age, named value or predicate; the other slot too, unless the handler is entered. -/
def Obligations.GlobalAccessFrame : Prop :=
  ∀ (s : State) k str c t i w u, Runs s k str c t → Passes s i w → ((loadRow c i).isSome = true ∨ (storeRow c i).isSome = true) →
    t.version = none → c.handler = false → c.hbase ≠ 0#64 → exec i s = .next u →
    (∀ a, u.mem.byte a = s.mem.byte a) ∧ u.dev = s.dev ∧ u.dir = s.dir ∧ (∀ n, { u.core n with tlb := [] } = { s.core n with tlb := [] }) ∧ u.copies = s.copies ∧
      (∀ j, j ≠ k → u.course? j = s.course? j) ∧ (∀ j, j ≠ k / 16 → u.team? j = s.team? j) ∧
      ∃ c', u.course? k = some c' ∧ c'.sc = c.sc ∧ c'.fpflags = c.fpflags ∧
        (∀ l, l < 32 → (c'.lane l).q = (c.lane l).q ∧ (c'.lane l).n = (c.lane l).n ∧ (c'.lane l).p = (c.lane l).p) ∧
        (c'.handler = false → c'.slot (!str) = c.slot (!str) ∧ c'.mode = c.mode)

/-- R149: a lane whose address is not a multiple of the access size traps ALIGN before any other check, in an instruction that the allowance rule does not hold
back (R185): with just one lane active, TADDR is its
address, TMASK names it, and TINFO is the size. -/
def Obligations.MisalignedAccessTrapsAlign : Prop :=
  ∀ (s : State) k str c t i w r l, Runs s k str c t → c.alwLow = 0#32 → Passes s i w → loadRow c i = some r → r.types = true →
    Ready c (c.active str) r.reads [(r.d, r.wide)] → l < 32 → c.active str = BitVec.ofNat 32 (2 ^ l) → r.addr l % r.size ≠ 0 →
    exec i s = .next (s.takeTrap .align (r.addr l) (2 ^ l) r.size)

/-- R146, R153, R155, R178: LDS, STS and ATOMS whose active lanes are aligned and in bounds queue one scratchpad access each (LDS and ATOMS one for
each word, under its lowest lane and for all the lanes that name it) and complete; LDS and a returning ATOMS set the destination's bits empty. -/
def Obligations.ScratchpadAccessesComplete : Prop :=
  ∀ (s : State) k str c t w, Runs s k str c t →
    (∀ d a (v : BitVec 12), Passes s (.lds d a v) w → Ready c (c.active str) [⟨a.toNat, .n32, 13⟩] [(d.toNat, c.et.wide)] →
      let o (l : Nat) : Nat := spAddr (c.src .n32 a.toNat l) v
      InSpad s k t (c.active str) o c.et.bytes →
      exec (.lds d a v) s = .next (finished s (queueSpad (s.modCourse k fun c => c.emptyDest (c.active str) d.toNat c.et.wide) s k str c t
        (lowestLanes s k t (c.active str) o c.et.bytes) o c.et.bytes fun l => .load (d.toNat - 16) c.et.wide (lanesAt s k t (c.active str) o c.et.bytes l)) w)) ∧
    (∀ d a (v : BitVec 12), Passes s (.sts d a v) w → Ready c (c.active str) [⟨a.toNat, .n32, 13⟩, ⟨d.toNat, c.et, 15⟩] [] →
      let o (l : Nat) : Nat := spAddr (c.src .n32 a.toNat l) v
      InSpad s k t (c.active str) o c.et.bytes →
      exec (.sts d a v) s = .next (finished s (queueSpad s s k str c t (c.active str) o c.et.bytes fun l =>
        .store (bytesOf c.et.bytes (c.src c.et d.toNat l))) w)) ∧
    (∀ d a b p, Passes s (.atoms d a b p) w → atomEt p.toNat c.et = true →
      Ready c (c.active str) ([⟨a.toNat, .n32, 13⟩, ⟨b.toNat, c.et, 14⟩] ++ (if d ≠ 0#6 ∧ p = 7#3 then [⟨d.toNat, c.et, 16⟩] else []))
        (if d = 0#6 then [] else [(d.toNat, c.et.wide)]) →
      let o (l : Nat) : Nat := c.src .n32 a.toNat l
      InSpad s k t (c.active str) o c.et.bytes →
      ∃ u, exec (.atoms d a b p) s = .next (finished s u w) ∧ u = queueSpad
        (if d = 0#6 then s else s.modCourse k fun c => c.emptyDest (c.active str) d.toNat c.et.wide) s k str c t
        (lowestLanes s k t (c.active str) o c.et.bytes) o c.et.bytes fun l => .atom p.toNat c.et (c.mode.getLsbD 12) none
          ((lanesAt s k t (c.active str) o c.et.bytes l).map fun j =>
            { lane := j, reg := if d = 0#6 then none else some (d.toNat - 16), x := c.src c.et b.toNat j,
              cmp := if d = 0#6 then 0 else c.src c.et d.toNat j }))

/-- R152, R155, R156, R23: ATOM, ATOMAR, ATOMSC and RED whose active lanes all hit send one group for each address, in lane order, and count the groups in
the counter of their scope. -/
def Sys2Proof.Spec.GlobalAtomicsComplete : Prop :=
  ∀ (s : State) k str c t i w r at', Runs s k str c t → Passes s i w → atomRow c i = some r → atomEt r.p c.et = true →
    Ready c (c.active str) r.reads (if r.ret then [(r.d, c.et.wide)] else []) → c.alwLow = 0#32 → (c.slot str).hold = .free →
    AllHit s t (c.active str) r.addr c.et.bytes c.et.bytes .atomic (versionBans t) r.op at' →
    let gs := groupByAddr (hitsOf (c.active str) r.addr at')
    c.counter r.scope + gs.length ≤ 4095 →
    (kept s t (hitsOf (c.active str) r.addr at')).versionFull t ((hitsOf (c.active str) r.addr at').map fun h => h.2.2.1) = false →
    exec i s = .next (finished s ((sendGroups (if r.ret then (kept s t (hitsOf (c.active str) r.addr at')).modCourse k fun c =>
        c.emptyDest (c.active str) r.d c.et.wide else kept s t (hitsOf (c.active str) r.addr at')) s k str c t r gs).modCourse k fun c =>
      c.count r.scope fun n => n + BitVec.ofNat 12 gs.length) w)

/-! # Fences, waits and barriers -/

/-- R159, R160: PREF whose address registers are ready completes, whatever its lanes name, and changes no value; CCTL.INV1 completes so too, and drops lines of the
L1; FLUSH and EVICT of lanes that all hit complete and change no byte, EVICT once no other package holds a copy of a line homed here (R325); ZERO of lanes that all hit completes when its buffer has room for all of them, each with 128
bytes of zero. -/
def Sys2Proof.Spec.PrefetchAndCacheControlComplete : Prop :=
  ∀ (s : State) k str c t w a (v : BitVec 12), Runs s k str c t → Ready c (c.active str) [⟨a.toNat, .n64, 13⟩] [] →
    let va (l : Nat) : Nat := addImm (c.src .n64 a.toNat l) v
    (∀ f, Passes s (.pref f a v) w → ∃ u, exec (.pref f a v) s = .next (finished s u w) ∧ u.mem = s.mem ∧ u.courses = s.courses ∧
      u.teams = s.teams ∧ u.dev = s.dev ∧ u.flights = s.flights) ∧
    ((c.slot str).hold = .free →
      (Passes s (.cctl 0#2 a v) w → exec (.cctl 0#2 a v) s =
        .next (finished s (s.cctlInv t ((lanesOf (c.active str)).map va)) w)) ∧
      (∀ p at', (p = 1#2 ∨ p = 2#2) → Passes s (.cctl p a v) w → c.alwLow = 0#32 →
        AllHit s t (c.active str) va 1 1 .load (fun _ => false) 0x93 at' →
        (p = 2#2 → ∀ l, l < 32 → (c.active str).getLsbD l = true → s.forward (at' l).1 / 2 ^ 48 = pkgOfCore t.core → s.unshared (at' l).1 = true) →
        ∃ u, exec (.cctl p a v) s = .next (finished s u w) ∧ u.mem = s.mem ∧ u.courses = s.courses ∧ u.dev = s.dev) ∧
      (∀ at', Passes s (.cctl 3#2 a v) w → c.alwLow = 0#32 → t.version = none →
        AllHit s t (c.active str) va 128 128 .store (fun _ => false) 0x93 at' →
        let hs := hitsOf (c.active str) va at'
        let s' := kept s t hs
        let e := c.enterLanes s'.fresh str (c.slotLanes str) (s'.core t.core).clock (s'.stepOf t.core) (hs.map fun h =>
          { addr := h.2.1, bytes := List.replicate 128 0#8, key := leafKey h.2.2.2, kind := 0#4, scope := 0#3, lane := h.1, flag := none })
        e.2 = [] → exec (.cctl 3#2 a v) s = .next (finished s (s'.setCourse k e.1).tick w)))

/-- R161, R179, R257, R268: FENCE of a course whose slot has no scratchpad access outstanding completes once its conditions hold, a release's counted from its own
beginning; until then it holds its slot. A release wider than .core leaves its mark in the write path (R255), and a handler's lets frozen entries leave. FENCE of a
processor completes once its writes to other packages are performed (log 14) and, with an acquire, the releases it has read are promoted (R257). -/
def Sys2Proof.Spec.FencesComplete : Prop :=
  (∀ (s : State) k str c t w (r q : BitVec 1) sc, Runs s k str c t → Passes s (.fence r q sc) w → s.spOutstanding k str = false →
    let s' := thawed s k c
    let promoted : Bool := q != 1#1 || s.seenClear k str sc.toNat
    (r = 1#1 → NotBegun c str → s'.released k str s.fresh sc.toNat = true → promoted = true →
      exec (.fence r q sc) s = .next (finished s (fenceEnd (marked s' k sc.toNat) k q sc) w)) ∧
    (r = 1#1 → NotBegun c str → (s'.released k str s.fresh sc.toNat && promoted) = false → exec (.fence r q sc) s = .next (fenceBegun s' k str)) ∧
    (∀ n, r = 1#1 → Begun c str n → s'.released k str n sc.toNat = true → promoted = true →
      exec (.fence r q sc) s = .next (finished s (fenceEnd (marked (unheld s' k str) k sc.toNat) k q sc) w)) ∧
    (∀ n, r = 1#1 → Begun c str n → (s'.released k str n sc.toNat && promoted) = false → exec (.fence r q sc) s = .next s) ∧
    (r = 0#1 → q = 1#1 → s.acquired k str sc.toNat = true → exec (.fence r q sc) s = .next (finished s (fenceEnd s k q sc) w)) ∧
    (r = 0#1 → s.acquired k str sc.toNat = false → exec (.fence r q sc) s = .next s)) ∧
  (∀ (s : State) w (r q : BitVec 1) sc, Present s → s.self = none → s.procClear = true → (q = 1#1 → s.procSeenClear sc.toNat = true) → Passes s (.fence r q sc) w →
    exec (.fence r q sc) s = .next (finished s (if q = 1#1 then s.forgetSelf else s) w))

/-- R162: XFENCE without V in its first mask completes at once; with it, once FENCE.AR.core's wait is over and, for a path other than V in its second mask, what the
course may have seen in its core's write path is performed (R265); until then it holds its slot; with V in its second mask its core's L1 is dropped. XFENCE of a processor completes once its
writes to other packages are performed (log 14). -/
def Sys2Proof.Spec.CrossFencesComplete : Prop :=
  (∀ (s : State) w (q p : BitVec 6), Present s → s.self = none → (p.getLsbD 0 = true → s.procClear = true) → Passes s (.xfence q p) w →
    exec (.xfence q p) s = .next (finished s s w)) ∧
  ∀ (s : State) k str c t w (q p : BitVec 6), Runs s k str c t → Passes s (.xfence q p) w →
    let drops (u : State) : State := if q.getLsbD 0 then u.dropL1 t.core else u
    let s' := thawed s k c
    let clear (n : Nat) : Bool := !s.spOutstanding k str && (decide (q.toNat / 2 = 0) || s.seenPerformed t.core k n)
    (p.getLsbD 0 = false → exec (.xfence q p) s = .next (finished s (drops s) w)) ∧
    (p.getLsbD 0 = true → NotBegun c str → s'.released k str s.fresh 0 = true → clear s.fresh = true → exec (.xfence q p) s = .next (finished s (drops s') w)) ∧
    (p.getLsbD 0 = true → NotBegun c str → (s'.released k str s.fresh 0 && clear s.fresh) = false → exec (.xfence q p) s = .next (fenceBegun s' k str)) ∧
    (∀ n, p.getLsbD 0 = true → Begun c str n → s'.released k str n 0 = true → clear n = true →
      exec (.xfence q p) s = .next (finished s (drops (unheld s' k str)) w)) ∧
    (∀ n, p.getLsbD 0 = true → Begun c str n → (s'.released k str n 0 && clear n) = false → exec (.xfence q p) s = .next s)

/-- A wait's word of memory is at hand at its home: a route reaches it (R398), the slot's earlier accesses to it are performed, its bytes are on no path there, no poison
covers it, and the promotion its acquire calls for is over (R163, R164, R256, R260). -/
abbrev Sys2Proof.Spec.Awaits (s : State) (k : Nat) (str : Bool) (c : Course) (t : Team) (va pa size scope : Nat) : Prop :=
  s.reaches (pkgOfCore t.core) (pa / 2 ^ 48) = true ∧ isDevice pa = false ∧ t.version = none ∧ s.acquireOlder k str (c.slotLanes str) s.fresh = false ∧
  s.homeClear k str (c.slotLanes str) s.fresh va pa size = true ∧ s.poisoned pa = false ∧ s.promotionClear t.core pa scope = true

/-- R163-R165: WAITA on a global word or on the scratchpad, without a then-fence, completes with the value once a route reaches a global word's home, the slot's older accesses to it are performed, its condition holds and any
promotion the acquire needs is over, and dropping the L1 for a global one; until then nothing changes. -/
def Sys2Proof.Spec.WaitaCompletesWhenItsConditionHolds : Prop :=
  ∀ (s : State) k str c t w d a b x cond pa leaf, Runs s k str c t → Passes s (.waita d a b 0#3 x cond) w → NotBegun c str →
    Clean s [(a.toNat, x == 0#1), (b.toNat, s.gwide)] → cond ≠ 3#2 →
    let size := if s.gwide then 8 else 4
    let target := s.gsrc s.gwide b.toNat
    (x = 0#1 →
      let va := s.gsrc true a.toNat
      va % size = 0 → s.translate t.xlat va .load true = .ok pa leaf → Awaits s k str c t va pa size 4 →
      let v := s.natUnder pa size (leafKey leaf)
      (waits cond.toNat v target → exec (.waita d a b 0#3 x cond) s =
        .next (finished s (((s.noteTlb t.xlat va).dropL1 t.core).gdst s.gwide d.toNat v) w)) ∧
      (¬ waits cond.toNat v target → exec (.waita d a b 0#3 x cond) s = .next s)) ∧
    (x = 1#1 →
      let o := s.gsrc false a.toNat
      o % size = 0 → o < 2 ^ 31 → o + size ≤ t.spSize → s.spadOlder k str (k / 16) o size = false → t.spPoisoned o size = false →
      let v := ofBytes (t.spBytes o size)
      (waits cond.toNat v target → exec (.waita d a b 0#3 x cond) s = .next (finished s (s.gdst s.gwide d.toNat v) w)) ∧
      (¬ waits cond.toNat v target → exec (.waita d a b 0#3 x cond) s = .next s))

/-- R164: WAITC, without a then-fence, completes with the counter's value once a route reaches its home, as for WAITA, and it has reached the target; a slot marked failed then traps COPYERR with TINFO
the slot, and the mark is cleared. -/
def Sys2Proof.Spec.WaitcCompletesAtItsCount : Prop :=
  ∀ (s : State) k str c t w d a b pa leaf, Runs s k str c t → Passes s (.waitc d a b 0#3) w → NotBegun c str → Clean s [(a.toNat, false), (b.toNat, true)] →
    let slot := s.gsrc false a.toNat % 4096
    let va := t.launch.cntBase.toNat + 8 * slot
    va % 8 = 0 → s.translate t.xlat va .load true = .ok pa leaf → Awaits s k str c t va pa 8 3 →
    let v := s.natUnder pa 8 (leafKey leaf)
    let s' := s.noteTlb t.xlat va
    (s.gsrc true b.toNat ≤ v → t.failedSlots.contains slot = false →
      exec (.waitc d a b 0#3) s = .next (finished s ((s'.dropL1 t.core).gdst true d.toNat v) w)) ∧
    (s.gsrc true b.toNat ≤ v → t.failedSlots.contains slot = true → exec (.waitc d a b 0#3) s =
      .next ((s'.modTeam (k / 16) fun t => { t with failedSlots := t.failedSlots.filter fun x => decide (x ≠ slot) }).takeTrap .copyErr 0 0 slot)) ∧
    (v < s.gsrc true b.toNat → exec (.waitc d a b 0#3) s = .next s)

/-- R188: BAR.ARR and MBAR.ARR of a party that has not arrived, the first of the generation or one that does not complete it, add it and move on; an arrival that
completes the generation starts the next one: GEN + 1, no arrivals. -/
def Sys2Proof.Spec.BarrierArrivalsCount : Prop :=
  (∀ (s : State) k str c t w n m, Runs s k str c t → Passes s (.bar n 1#2 m) w → CoreReleased s k str c →
    let b := (t.bar m.toNat).pass (k, str)
    b.pending.contains k = false →
    let b' := arrived b k n.toNat
    let live := s.parties fun j => decide (j = k / 16)
    (b'.arrivals < (if b'.need = 0 then live else b'.need) →
      exec (.bar n 1#2 m) s = .next (finished s (State.putBar (k / 16) m.toNat (thawed s k c) b') w)) ∧
    ((if b'.need = 0 then live else b'.need) ≤ b'.arrivals → ∃ b'', exec (.bar n 1#2 m) s =
      .next (finished s (State.putBar (k / 16) m.toNat (thawed s k c) b'') w) ∧ b''.gen = b.gen + 1#16 ∧ b''.arrivals = 0 ∧ b''.pending = [] ∧ b''.standing = [])) ∧
  (∀ (s : State) h x w n m, s.cur = .seq h → s.team? h = some x → x.seq.run = .running → x.seq.pending = none → Passes s (.mbar n 1#2 m) w →
    let b := (x.bar m.toNat).pass (seqParty h, false)
    b.pending.contains (seqParty h) = false →
    let b' := arrived b (seqParty h) n.toNat
    b'.arrivals < (if b'.need = 0 then s.parties (fun j => decide (j = h)) else b'.need) →
    exec (.mbar n 1#2 m) s = .next (finished s (State.putBar h m.toNat s b') w))

/-- R161, R188, R189, R314: a slot that waits at a barrier whose generation its party is not part of, or that has been passed and released, completes once its
earlier loads have delivered. -/
def Sys2Proof.Spec.BarrierWaitersPass : Prop :=
  (∀ (s : State) k str c t w n m, Runs s k str c t → Passes s (.bar n 2#2 m) w → (t.bar m.toNat).passed.contains (k, str) = false →
    (t.bar m.toNat).pending.contains k = false → s.acquired k str 0 = true →
    exec (.bar n 2#2 m) s = .next (finished s ((State.putBar (k / 16) m.toNat s
      (((t.bar m.toNat).pass (k, str)).pass (k, str))).forgetSeen k) w)) ∧
  (∀ (s : State) k str c t w n m kind, Runs s k str c t → kind ≠ 1#2 → Passes s (.bar n kind m) w →
    (t.bar m.toNat).passed.contains (k, str) = true → (t.bar m.toNat).unreleased.contains (k, str) = false →
    (s.acquired k str 0 = true →
      exec (.bar n kind m) s = .next (finished s ((State.putBar (k / 16) m.toNat s ((t.bar m.toNat).pass (k, str))).forgetSeen k) w)) ∧
    (s.acquired k str 0 = false → exec (.bar n kind m) s = .next s)) ∧
  (∀ (s : State) k str c t w n m kind, Runs s k str c t → kind ≠ 1#2 → Passes s (.bar n kind m) w →
    (t.bar m.toNat).passed.contains (k, str) = true → (t.bar m.toNat).unreleased.contains (k, str) = true →
    exec (.bar n kind m) s = .next s)

/-- R255, R314, R315, R359, R437: BARX.ARR of a team that may use the level counts an arrival at the level's own barrier, from the scope's release on, marked in its core's
write path; at a wall or pod barrier the last arrival of its package's own parties sends the package's part to the coordinator; a level the team may not use traps ILLEGAL.
The message's layout is the model's own (log 82). -/
def Sys2Proof.Spec.BarxArrivesAtTheLevelsBarrier : Prop :=
  ∀ (s : State) k str c t w a l m, Runs s k str c t → Passes s (.barx a 1#2 l m) w → Clean s [(a.toNat, false)] →
    let v := s.gsrc false a.toNat
    (∀ fld, barxCheck t l.toNat v = some fld → exec (.barx a 1#2 l m) s =
      .next (s.takeTrap .illegal 0 0 (0x79 * 2 ^ 24 + fld * 2 ^ 20 + 3))) ∧
    (barxCheck t l.toNat v = none → NotBegun c str → (thawed s k c).released k str s.fresh (min 4 (l.toNat + 1)) = true → s.spOutstanding k str = false →
      let key := barKey l.toNat (barOwner t l.toNat) m.toNat
      let b := (s.wideBar key).pass (k, str)
      b.pending.contains k = false →
      let b' := arrived b k (if l.toNat = 0 then v % 128 else v % 65536)
      let live := s.parties (s.barTeams t l.toNat)
      let u := marked (thawed s k c) k (min 4 (l.toNat + 1))
      (b'.arrivals < (if b'.need = 0 then live else b'.need) → exec (.barx a 1#2 l m) s = .next (finished s (State.putWide key u b') w)) ∧
      (3 ≤ l.toNat → l.toNat ≤ 4 → b'.need = 0 → live ≤ b'.arrivals →
        exec (.barx a 1#2 l m) s = .next (finished s ((u.putWide key { b' with need := b'.arrivals }).tellPeer (pkgOfCore t.core)
          (16 * (s.coordinator l.toNat (pkgOfCore t.core)).1 + (s.coordinator l.toNat (pkgOfCore t.core)).2) 14
          (partBytes 1 l.toNat m.toNat t.launch.pbg b'.gen.toNat)) w)))

/-- R194-R197: GBARA sends its update to its own scratchpad's bank or a quad-mate's, after its release of that scope (R255), and holds the slot; GBARW of a generation that has passed completes with GEN; one that has not passed waits; a misaligned offset
traps ALIGN with TINFO 16. -/
def Sys2Proof.Spec.GenerationBarrierInstructionsComplete : Prop :=
  ∀ (s : State) k str c t w d a b, Runs s k str c t → Clean s [(a.toNat, false), (b.toNat, false)] →
    let o := s.gsrc false a.toNat
    (∀ m h o' mem win, Passes s (.gbara d a b m) w → o % 16 = 0 → s.spTarget (k / 16) t o 16 = .inl (h, o', mem, win) → NotBegun c str →
      (thawed s k c).released k str s.fresh (boolNat win) = true → s.spOutstanding k str = false →
      let n := if m = 0#2 then 1 else if m = 1#2 then (lanesOf (c.active str)).length else 0
      let u := marked (thawed s k c) k (boolNat win)
      exec (.gbara d a b m) s = .next ((u.send (.group { agent := s.cur, reg := if d.toNat < 32 then some d.toNat else none, wide := false, op := .barrier h o' (s.gsrc false b.toNat) n mem, pc := (c.slot str).pc })).awaitReply 0x7A u.fresh)) ∧
    (∀ h o' mem win x, Passes s (.gbarw d a b 0#3) w → NotBegun c str → o % 16 = 0 → s.spTarget (k / 16) t o 16 = .inl (h, o', mem, win) → s.team? h = some x →
      (win = true → s.refuses h = false) → s.spadOlder k str h o' 16 = false → x.spPoisoned o' 4 = false →
      let gen := ofBytes (x.spBytes o' 4)
      let past := (gen + 2 ^ 33 - s.gsrc false b.toNat - 1) % 2 ^ 32
      (past < 2 ^ 31 → exec (.gbarw d a b 0#3) s = .next (finished s ((if win then s.dropL1 t.core else s).gdst false d.toNat gen) w)) ∧
      (2 ^ 31 ≤ past → exec (.gbarw d a b 0#3) s = .next s)) ∧
    (o % 16 = 0 → o < 2 ^ 31 → o + 16 ≤ t.spSize → s.spTarget (k / 16) t o 16 = .inl (k / 16, o, t.core % 4, false)) ∧
    (∀ m, Passes s (.gbara d a b m) w → o % 16 ≠ 0 → exec (.gbara d a b m) s = .next (s.takeTrap .align o 0 16))

/-- R191-R193: MBW fills an empty mailbox with its word (the lowest guard-true lane's, or a group register's) after its release, and MBR empties a full one into its destination once the slot's earlier loads have delivered, a peek
leaving it full; a full, or empty, mailbox makes them wait. The stream's forms move an m register. -/
def Obligations.MailboxInstructionsComplete : Prop :=
  (∀ (s : State) k str c t w (m : BitVec 4), Runs s k str c t → CoreReleased s k str c → s.acquired k str 0 = true →
    (∀ d, Passes s (.mbwGroup d m) w → Clean s [(d.toNat, false)] →
      ((t.box m.toNat).full = false → exec (.mbwGroup d m) s = .next (finished s
        ((thawed s k c).setTeam (k / 16) (t.setBox m.toNat { full := true, value := BitVec.ofNat 32 (s.gsrc false d.toNat) })) w)) ∧
      ((t.box m.toNat).full = true → exec (.mbwGroup d m) s = .next s)) ∧
    (∀ d l rest, Passes s (.mbwVector d m) w → lanesOf (c.active str) = l :: rest → Ready c (c.active str) [⟨d.toNat, .n32, 15⟩] [] →
      (t.box m.toNat).full = false → exec (.mbwVector d m) s = .next (finished s
        ((thawed s k c).setTeam (k / 16) (t.setBox m.toNat { full := true, value := BitVec.ofNat 32 (c.src .n32 d.toNat l) })) w)) ∧
    (∀ d p, Passes s (.mbrGroup d p m) w →
      ((t.box m.toNat).full = true → exec (.mbrGroup d p m) s = .next (finished s ((if p = 1#1 then s else
        s.setTeam (k / 16) (t.setBox m.toNat { full := false, value := (t.box m.toNat).value })).gdst false d.toNat (t.box m.toNat).value.toNat) w)) ∧
      ((t.box m.toNat).full = false → exec (.mbrGroup d p m) s = .next s)) ∧
    (∀ d p, Passes s (.mbrVector d p m) w → d.toNat ≥ 16 → c.active str ≠ 0#32 → Ready c (c.active str) [] [(d.toNat, false)] →
      (t.box m.toNat).full = true → ∃ u, exec (.mbrVector d p m) s = .next (finished s u w) ∧
        u.team? (k / 16) = some (if p = 1#1 then t else t.setBox m.toNat { full := false, value := (t.box m.toNat).value }) ∧
        ∃ n x, u.flight? n = some (.value x) ∧ x.key = k ∧ x.reg = d.toNat - 16 ∧ x.value = (t.box m.toNat).value.toNat)) ∧
  (∀ (s : State) h x w (m : BitVec 4), s.cur = .seq h → s.team? h = some x → x.seq.run = .running → x.seq.pending = none →
    (∀ d, Passes s (.mbwVector d m) w → (x.box m.toNat).full = false → exec (.mbwVector d m) s = .next (finished s
      (s.setTeam h (x.setBox m.toNat { full := true, value := BitVec.ofNat 32 (x.seq.reg d.toNat) })) w)) ∧
    (∀ d p, Passes s (.mbrVector d p m) w → (x.box m.toNat).full = true → exec (.mbrVector d p m) s = .next (finished s
      ((if p = 1#1 then s else s.setTeam h (x.setBox m.toNat { full := false, value := (x.box m.toNat).value })).modTeam h fun y =>
        { y with seq := y.seq.setReg d.toNat (x.box m.toNat).value.toNat }) w)))


/-! # Ends of courses, partitions, steps -/

/-- R121, R122, R131, R268: EXIT frees its slot, which the stack refills, and ends the course when nothing is left; EXIT.SAVED does so once no store of the course is
left anywhere, and traps ILLMODE SUB 3 while its buffer holds one; EXIT of a control core or Lintel whose handler is not active idles it.
That entries frozen at a handler's entry may leave once the course has ended there is the model's choice (log 105). -/
def Sys2Proof.Spec.ExitsComplete : Prop :=
  (∀ (s : State) k str c t w, Runs s k str c t → s.spOutstanding k str = false → refillFails t c = none →
    (Passes s .exit w →
      let c' := c.exitSlot t str false
      (c'.life = .live → exec .exit s = .next (counted s (s.setCourse k c') w)) ∧
      (c'.life ≠ .live → exec .exit s = .next (counted s ((s.setCourse k c'.unfreeze).courseEnded k) w)) ∧
      ((c.slot (!str)).mask = 0#32 → c.handler = false → c.depth = 0 → c'.life = .ended)) ∧
    (Passes s .exitSaved w → c.entries.isEmpty = true → s.writesLeft k = false → (c.bound.isSome = true ∨ c.countersClear 5 = true) →
      exec .exitSaved s = .next (counted s (s.setCourse k (c.exitSlot t str true)) w)) ∧
    (Passes s .exitSaved w → c.entries.isEmpty = false → exec .exitSaved s =
      .next ((s.modCourse k fun c => { c with sb := c.sb.map fun e => { e with frozen := e.frozen || e.valid } }).takeTrap .illMode 0 0 3))) ∧
  (∀ (s : State) p w, Present s → s.proc? s.cur = some p → Passes s .exit w → (s.reg (procBase s.cur).1 ((procBase s.cur).2 + 0x14)).testBit 0 = false →
    exec .exit s = .next (counted s (s.setProc s.cur { p with running := false, hold := .free }) w))

/-- R176, R177: CARVE of the only live course of its team, with no copy, MOUT or sequencer in the way, changes the team's granules if the new ones fit on the
core and says in its predicate whether they did; what is kept of the scratchpad keeps its bytes. -/
def Sys2Proof.Spec.CarveMovesTheTeamsGranules : Prop :=
  ∀ (s : State) k str c t w (p : BitVec 3) (n : BitVec 5) (m : BitVec 6), Runs s k str c t → Passes s (.carve p n m) w → c.handler = false →
    (c.slot (!str)).mask = 0#32 → CoreReleased s k str c → t.carve = [] → t.carved = [] →
    (s.coursesOf (k / 16)).filter (fun kc => kc.2.party) = [(k, c)] → p.toNat ≠ 7 → s.carveReason (k / 16) t m.toNat n.toNat = none →
    let fits := carveFits s (k / 16) t m.toNat n.toNat
    ∃ u c' t', exec (.carve p n m) s = .next u ∧ u.course? k = some c' ∧ u.team? (k / 16) = some t' ∧ c'.sc.pred p.toNat = fits ∧
      (fits = true → t'.sp = m.toNat ∧ t'.acc = n.toNat) ∧ (fits = false → t'.sp = t.sp ∧ t'.acc = t.acc ∧ t'.scratch = t.scratch) ∧
      (∀ o, o < 16384 * min m.toNat t.sp → t'.spByte o = t.spByte o) ∧ (c'.slot str).pc = (c.slot str).pc + 4#32 ∧ c'.lanes = c.lanes

/-- R310, R311: STEP and STEPE of a course declare its team's step and end it, the slack going to gd; of a processor they open a step of a later id, and close
it; another id traps ILLEGAL. -/
def Sys2Proof.Spec.StepsComplete : Prop :=
  (∀ (s : State) k str c t w d a, Runs s k str c t → Clean s [(a.toNat, false)] →
    (∀ x, Passes s (.step d a x) w → Clean s [(d.toNat, false), (a.toNat, false)] →
      let id := s.gsrc false d.toNat
      let dl := s.gsrc false a.toNat
      exec (.step d a x) s = .next (finished s (s.modTeam (k / 16) fun t =>
        { t with deadline := if dl = 0 then none else some (s.now + dl), optIn := x == 1#1, tag := BitVec.ofNat 32 id,
                 risked := t.risked && decide (t.tag.toNat = id) }) w)) ∧
    (Passes s (.stepe d a) w →
      (t.tag.toNat = s.gsrc false a.toNat → exec (.stepe d a) s = .next (finished s ((s.modTeam (k / 16) fun t =>
        { t with deadline := none, optIn := false }).gdst false d.toNat (slackOf (t.deadline.getD 0) s.now)) w)) ∧
      (t.tag.toNat ≠ s.gsrc false a.toNat → exec (.stepe d a) s = .next (s.takeTrap .illegal 0 0 (0x7D * 2 ^ 24 + 2 ^ 20 + 3))))) ∧
  (∀ (s : State) p w d a x, Present s → s.proc? s.cur = some p → Clean s [(a.toNat, false)] →
    (Passes s (.step d a x) w → Clean s [(d.toNat, false), (a.toNat, false)] →
      (s.stepWaits (s.gsrc false d.toNat) p = true → exec (.step d a x) s = .next s) ∧
      (s.stepWaits (s.gsrc false d.toNat) p = false →
        (∀ p', p.openStep (s.gsrc false d.toNat) (s.gsrc false a.toNat) s.now = some p' → ∃ u, exec (.step d a x) s = .next u ∧
          u.proc? s.cur = some { p' with pc := nextPc p'.pc, hold := .free } ∧ p'.stepOpen = true ∧ p'.stepId.toNat = s.gsrc false d.toNat % 2 ^ 32 ∧ u.mem = s.mem) ∧
        (p.openStep (s.gsrc false d.toNat) (s.gsrc false a.toNat) s.now = none →
          exec (.step d a x) s = .next (s.takeTrap .illegal 0 0 (0x7C * 2 ^ 24 + 2 ^ 20 + 3))))) ∧
    (Passes s (.stepe d a) w →
      (p.stepOpen = true → p.stepId.toNat = s.gsrc false a.toNat → (∀ e, s.cur = .kcore e → (s.pkg (e / 8)).snap.state = .idle) →
        ∃ u p', exec (.stepe d a) s = .next u ∧ u.proc? s.cur = some p' ∧ p'.stepOpen = false ∧ p'.stepLast = p.stepId ∧
          p'.stepDl = 0 ∧ (d.toNat < 32 → p'.sc.reg d.toNat = BitVec.ofNat 32 (slackOf p.stepDl s.now)) ∧ u.mem = s.mem) ∧
      (p.stepOpen = false ∨ p.stepId.toNat ≠ s.gsrc false a.toNat →
        exec (.stepe d a) s = .next (s.takeTrap .illegal 0 0 (0x7D * 2 ^ 24 + 2 ^ 20 + 3)))))

/-! # Copies -/

/-- R201, R203, R204: each of the seven copies whose descriptor passes R203's checks enters its core's queue with what its rule fixes at issue, and its course goes on:
the descriptor, the arrival value, the rounding modes and seed, in the phase its op begins in. -/
def Sys2Proof.Spec.CopiesEnterTheQueue : Prop :=
  ∀ (s : State) k str c t i w op a b f, Runs s k str c t → Passes s i w → copyRow i = some (op, a, b, f) →
    Clean s (((List.range 8).map fun n => (a + n, false)) ++ [(b, false)]) → s.copyReason (k / 16) t op f (descriptor c a) = none →
    s.copyCount t.core < 32 → c.alwLow = 0#32 → t.version = none →
    ∃ u x c', exec i s = .next u ∧ SMap.find? u.copies s.fresh = some x ∧ u.fresh = s.fresh + 1 ∧ x.op = op ∧ x.flags = f ∧ x.team = k / 16 ∧ x.core = t.core ∧
      x.desc = descriptor c a ∧ x.arrival = BitVec.ofNat 32 (s.gsrc false b) ∧ x.rm = bitsOf c.mode.toNat 10 8 ∧ x.sat = c.mode.getLsbD 11 ∧
      x.seed = c.srSeedO ∧ x.done = [] ∧ x.cache = [] ∧ x.into = CopyInto.memory ∧ x.acked = 0 ∧ (op ≠ 0xA5 → x.failed = none) ∧
      x.phase = (if op = 0xA2 ∨ op = 0xA5 then CopyPhase.waiting else CopyPhase.moving) ∧ x.bar = (if op = 0xA5 then some (dFmt x.desc) else none) ∧
      (∀ n, n ≠ s.fresh → SMap.find? u.copies n = SMap.find? s.copies n) ∧ u.mem = s.mem ∧ u.dev = s.dev ∧ u.course? k = some c' ∧ c'.sc = c.sc ∧
      (c'.slot str).pc = (c.slot str).pc + 4#32 ∧
      (op ≠ 0xA4 → c'.lanes = c.lanes) ∧
      (op = 0xA4 → ∀ j x', s.course? j = some x' → j / 16 = k / 16 → x'.life = .live → (descriptor c a)[2].getLsbD (j % 16) = true →
        ∃ y, u.course? j = some y ∧ ∀ l, l < 32 → ∀ n, bitsOf (descriptor c a)[2].toNat 20 16 ≤ n →
          n < bitsOf (descriptor c a)[2].toNat 20 16 + dRows (descriptor c a) → n < 32 → (y.lane l).fe.getLsbD n = false)

/-- R203: a copy whose descriptor fails a check traps COPYERR, with the first failing check's reason in TADDR and the descriptor's slot in TINFO, and nothing is
queued. A copy issued while 32 are outstanding on its core waits (R204). -/
def Sys2Proof.Spec.RefusedCopiesTrapCopyerr : Prop :=
  ∀ (s : State) k str c t i w op a b f, Runs s k str c t → Passes s i w → copyRow i = some (op, a, b, f) →
    Clean s (((List.range 8).map fun n => (a + n, false)) ++ [(b, false)]) →
    (∀ r, s.copyReason (k / 16) t op f (descriptor c a) = some r → exec i s = .next (s.takeTrap .copyErr r 0 (dSlot (descriptor c a)))) ∧
    (((descriptor c a)[0].toNat % 16 ≠ 0 ∨ dRows (descriptor c a) = 0 ∨ dRb (descriptor c a) % 16 ≠ 0) → s.copyReason (k / 16) t op f (descriptor c a) = some 1) ∧
    (s.copyReason (k / 16) t op f (descriptor c a) = none → t.version = none → 32 ≤ s.copyCount t.core → exec i s = .next s)

/-! # The matrix sequencer -/

/-- R226, R227: MGO of a team whose sequencer does not run starts it at its entry with the argument in m0; a misaligned entry traps ALIGN, and a running sequencer makes it wait.
MWAIT, without a then-fence, completes with RETIRED once the batch has retired; a fault record, or an idle sequencer that never closed the batch, traps MXFAULT. -/
def Sys2Proof.Spec.SequencerControlCompletes : Prop :=
  ∀ (s : State) k str c t w d a, Runs s k str c t →
    (Passes s (.mgo d a) w → Clean s [(d.toNat, false), (a.toNat, false)] →
      let entry := s.gsrc false a.toNat
      (entry % 4 = 0 → t.seq.run ≠ .running → ∃ u t', exec (.mgo d a) s = .next (finished s u w) ∧ u = s.setTeam (k / 16) t' ∧
        t'.seq.run = .running ∧ t'.seq.pc.toNat = entry ∧ (∀ n, n < 16 → t'.seq.reg n = if n = 0 then s.gsrc false d.toNat else 0) ∧
        t'.seq.closed = 0#32 ∧ t'.seq.retired = 0#32 ∧ t'.seq.faultValid = false ∧ t'.mgoCid = c.cid) ∧
      (entry % 4 = 0 → t.seq.run = .running → exec (.mgo d a) s = .next s) ∧
      (entry % 4 ≠ 0 → exec (.mgo d a) s = .next (s.takeTrap .align entry 0 4))) ∧
    (Passes s (.mwait d a 0#3) w → NotBegun c str → Clean s [(a.toNat, false)] →
      let past (x : Word) : Prop := (x - BitVec.ofNat 32 (s.gsrc false a.toNat)).toNat < 2 ^ 31
      (t.seq.faultValid = true → exec (.mwait d a 0#3) s = .next (s.takeTrap .mxFault t.seq.faultAddr.toNat 0 t.seq.faultInfo.toNat)) ∧
      (t.seq.faultValid = false → past t.seq.retired → exec (.mwait d a 0#3) s = .next (finished s (s.gdst false d.toNat t.seq.retired.toNat) w)) ∧
      (t.seq.faultValid = false → t.seq.abandoned = true → ¬ past t.seq.retired → exec (.mwait d a 0#3) s = .next (s.takeTrap .mxFault 0 0 8)) ∧
      (t.seq.faultValid = false → t.seq.abandoned = false → ¬ past t.seq.retired → t.seq.run = .idle → ¬ past t.seq.closed →
        exec (.mwait d a 0#3) s = .next (s.takeTrap .mxFault 0 0 9)) ∧
      (t.seq.faultValid = false → t.seq.abandoned = false → ¬ past t.seq.retired → (t.seq.run ≠ .idle ∨ past t.seq.closed) →
        exec (.mwait d a 0#3) s = .next (if (c.slot str).hold = .batch then s else s.setCourse k (c.setSlot str { c.slot str with hold := .batch }))))

/-- R235, R241-R243, R245: the control words of a stream: MZERO, MLI, MLI.H, MADD, MLOOP, MJMP, MFENCE and MEND. -/
def Sys2Proof.Spec.StreamControlWordsComplete : Prop :=
  ∀ (s : State) h x w, Streams s h x →
    let put (q : Seq) : State := s.setTeam h { x with seq := q }
    (∀ d : BitVec 6, Passes s (.mzero d) w → d.toNat < 32 → d.toNat - 16 < x.acc →
      exec (.mzero d) s = .next (finished s (s.setTeam h (x.setTile (d.toNat - 16) fun _ _ => 0)) w)) ∧
    (∀ d : BitVec 6, Passes s (.mzero d) w → 32 ≤ d.toNat → d.toNat - 32 < x.ws →
      exec (.mzero d) s = .next (finished s (s.setTeam h (x.setSlot (d.toNat - 32) WSlot.empty)) w)) ∧
    (∀ d (v : BitVec 17), Passes s (.mli d v) w → exec (.mli d v) s = .next (finished s (put (x.seq.setReg d.toNat (v.signExtend 32).toNat)) w)) ∧
    (∀ d (v : BitVec 15), Passes s (.mliH d v) w →
      exec (.mliH d v) s = .next (finished s (put (x.seq.setReg d.toNat (v.toNat * 2 ^ 17 + x.seq.reg d.toNat % 2 ^ 17))) w)) ∧
    (∀ d a (v : BitVec 12), Passes s (.madd d a v) w →
      exec (.madd d a v) s = .next (finished s (put (x.seq.setReg d.toNat (BitVec.ofInt 32 ((x.seq.reg a.toNat : Int) + v.toInt)).toNat)) w)) ∧
    (∀ (k : BitVec 4) o, Passes s (.mloop k o) w →
      let v := (x.seq.reg k.toNat + 2 ^ 32 - 1) % 2 ^ 32
      exec (.mloop k o) s = .next (counted s ((put (x.seq.setReg k.toNat v)).goto (branchTo s (decide (v ≠ 0)) o)) w)) ∧
    (∀ o, Passes s (.mjmp o) w → exec (.mjmp o) s = .next (counted s (s.goto (branchTo s true o)) w)) ∧
    (x.seq.holdBatch = none →
      (Passes s (.mfence 0#1) w → exec (.mfence 0#1) s = .next (finished s (put { x.seq with closed := x.seq.closed + 1#32, openBatch := false }) w)) ∧
      (Passes s (.mfence 1#1) w → exec (.mfence 1#1) s =
        .next (put { x.seq with closed := x.seq.closed + 1#32, openBatch := false, holdBatch := some (x.seq.closed + 1#32) }))) ∧
    (∀ n, x.seq.holdBatch = some n → (x.seq.retired - n).toNat < 2 ^ 31 → Passes s (.mfence 1#1) w →
      exec (.mfence 1#1) s = .next (finished s (put { x.seq with holdBatch := none }) w)) ∧
    (Passes s .mend w → exec .mend s = .next (finished s (put { x.seq with
      closed := if x.seq.openBatch then x.seq.closed + 1#32 else x.seq.closed, openBatch := false, run := .idle }) w))

/-- R229, R231-R240, R244: the words that take time. MMA and MFILL that pass their checks are held for the array, and MOUT, MLOAD and MSCL held, until they are performed;
MAMAX sends its atomic. Performed, an MMA writes its tile and moves its weight cursor, and the others have their effect; then the stream goes on.
That they issue in one step and are performed in another is the model's choice (log 19). -/
def Obligations.MatrixWordsCompleteInTwoSteps : Prop :=
  ∀ (s : State) h x w, Streams s h x → (s.core x.core).arrayHolder = none → s.arrayWants x.core = [] → x.residency = .resident →
    let holds (u : State) (p : MPending) (arr : Bool) : Prop := ∃ y, u.team? h = some y ∧ y = { x with seq := { x.seq with pending := some p } } ∧
      (arr = true → (u.core x.core).arrayHolder = some h) ∧ u.mem = s.mem
    (∀ d a b t u f, Passes s (.mma d a b t u f) w → x.mmaCheck w = .ok →
      ∃ v, exec (.mma d a b t u f) s = .next v ∧ holds v (.mma w) true ∧
        (4 ≤ ((v.quad (x.core / 4)).sectors[x.core % 4]?).getD 0 → ∀ y z, v.team? h = some y → y.mmaEffect w = some z →
          exec (.mmaComplete h) v = .next ((v.setTeam h z).performed h 0xC0))) ∧
    (∀ c n, Passes s (.mfill c n) w → ∃ v, exec (.mfill c n) s = .next v ∧ holds v (.fill w) true ∧
      (v.arrayReady h { x with seq := { x.seq with pending := some (.fill w) } } (.fill w) = true →
        exec (.mfillComplete h) v = .next (v.performed h 0xCC))) ∧
    (∀ i, ((∃ d a b r f, i = .mout d a b r f ∧ x.hasTile (a.toNat - 16) (f == 5#3) = true ∧ x.tilePoisoned (a.toNat - 16) (f == 5#3) = false ∧
          streamRange x (x.seq.reg b.toNat) (4096 * outWidth f.toNat) = true ∧ x.seq.regOrZero d.toNat < 2 ^ 9) ∨
        (∃ d a f, i = .mload d a f ∧ x.hasTile (d.toNat - 16) (f == 5#3) = true ∧ streamRange x (x.seq.reg a.toNat) (4096 * loadWidth f.toNat) = true) ∨
        (∃ d a b f, i = .mscl d a b f ∧ x.hasTile (d.toNat - 16) (f == 1#1) = true ∧ x.hasTile (a.toNat - 16) (f == 1#1) = true ∧
          x.tilePoisoned (a.toNat - 16) (f == 1#1) = false)) → Passes s i w →
      ∃ v, exec i s = .next v ∧ holds v (.move w) false ∧
        ∀ y z, v.team? h = some y → y.moveEffect w = some z → exec (.moutMloadPerformed h) v = .next ((v.setTeam h z).performed h (opOf w))) ∧
    (∀ a b pa leaf, Passes s (.mamax a b) w → x.seq.token = none → b.toNat - 16 < x.acc → x.tilePoisoned (b.toNat - 16) false = false →
      let va := x.seq.reg a.toNat + 2 ^ 32 * x.seq.reg (a.toNat + 1)
      va % 4 = 0 → s.translate x.xlat va .atomic true = .ok pa leaf → versionBans x pa = false →
      ∃ v n y, exec (.mamax a b) s = .next v ∧ v.flight? n = some (.atom y) ∧ y.pa = pa ∧ y.op = 2 ∧ y.et = .f32 ∧ y.owner = .seq h ∧
        y.lanes.map (fun l => l.x) = [x.tileMax (b.toNat - 16)] ∧ holds v (.amax w pa) false)

/-! # Mortar -/

/-- R141, R361: MTAGA and MTAGF of a course wait for the reply of the allocator their scope names; once it has answered and the answer has come, gd holds the first tag, or the
status, the allocator holds or has released the blocks, and the slot goes on. A count outside 1 to 65536 traps ILLEGAL. -/
def Sys2Proof.Spec.TagInstructionsComplete : Prop :=
  ∀ (s : State) k str c t w d a b, Runs s k str c t → c.bound = none → c.earlier = [] →
    (∀ sc, Passes s (.mtaga d a sc) w → Clean s [(a.toNat, false)] →
      let n := s.gsrc false a.toNat
      ((1 ≤ n ∧ n ≤ 65536) → ∃ u v x c', exec (.mtaga d a sc) s = .next u ∧ exec (.groupReply s.fresh) u = .next v ∧
        exec (.groupReply s.fresh) v = .next x ∧ x.course? k = some c' ∧ (c'.slot str).pc = (c.slot str).pc + 4#32 ∧ (c'.slot str).hold = .free ∧
        (d.toNat < 32 → c'.sc.reg d.toNat = BitVec.ofNat 32 (s.tagAlloc sc.toNat (domOf sc.toNat (dieOfCore t.core)) n).1) ∧
        (∀ e, (x.die e).tagBlocks = ((s.tagAlloc sc.toNat (domOf sc.toNat (dieOfCore t.core)) n).2.die e).tagBlocks)) ∧
      ((n = 0 ∨ 65536 < n) → exec (.mtaga d a sc) s = .next (s.takeTrap .illegal 0 0 (0xE0 * 2 ^ 24 + 2 * 2 ^ 20 + 3)))) ∧
    (Passes s (.mtagf d a b) w → Clean s [(a.toNat, false), (b.toNat, false)] →
      let first := s.gsrc false a.toNat
      let n := s.gsrc false b.toNat
      ((1 ≤ n ∧ n ≤ 65536) → domOk first = true → tagIdx first + n ≤ 2 ^ 20 → ∃ u v x c', exec (.mtagf d a b) s = .next u ∧
        exec (.groupReply s.fresh) u = .next v ∧ exec (.groupReply s.fresh) v = .next x ∧ x.course? k = some c' ∧
        (c'.slot str).pc = (c.slot str).pc + 4#32 ∧ (d.toNat < 32 → c'.sc.reg d.toNat = BitVec.ofNat 32 (s.tagFree first n).1) ∧
        (∀ e, (x.die e).tagBlocks = ((s.tagFree first n).2.die e).tagBlocks)))

/-- R362-R364: MJOIN whose descriptor and tag pass its checks sends its operand (the guard-true lanes' words, or the scratchpad's tile) toward the meeting router its tag
names and completes; without a guard-true lane the vector form only completes. -/
def Sys2Proof.Spec.MjoinSendsItsOperand : Prop :=
  ∀ (s : State) k str c t w d a b p, Runs s k str c t → t.version = none → Clean s ((List.range 8).map fun n => (a.toNat + n, false)) →
    let x := joinDescriptor c a.toNat
    (∀ l rest pa leaf cpa cleaf u, Passes s (.mjoinVector d a b p) w → joinDescriptorOk c a.toNat true = true → lanesOf (guarded c str) = l :: rest →
      Ready c (guarded c str) [⟨d.toNat, jointType p.toNat, 15⟩, ⟨b.toNat, .n32, 14⟩] [] →
      JoinLeaves s k str c t true x p.toNat (c.src .n32 b.toNat l) (joinWords t c true (guarded c str) d.toNat p.toNat x) pa leaf cpa cleaf u →
      exec (.mjoinVector d a b p) s = .next (finished s u w)) ∧
    (Passes s (.mjoinVector d a b p) w → NotJoining c str → joinDescriptorOk c a.toNat true = true → guarded c str = 0#32 →
      exec (.mjoinVector d a b p) s = .next (finished s s w)) ∧
    (∀ pa leaf cpa cleaf u, Passes s (.mjoinGroup a b p) w → joinDescriptorOk c a.toNat false = true → Clean s [(b.toNat, false)] →
      x.src + 16 * x.len ≤ t.spSize →
      JoinLeaves s k str c t false x p.toNat (s.gsrc false b.toNat) (joinWords t c false 0#32 0 p.toNat x) pa leaf cpa cleaf u →
      exec (.mjoinGroup a b p) s = .next (finished s u w)) ∧
    (Passes s (.mjoinGroup a b p) w → NotJoining c str → joinDescriptorOk c a.toNat false = false →
      exec (.mjoinGroup a b p) s = .next (s.takeTrap .illegal 0 0 (0xE2 * 2 ^ 24 + 2 * 2 ^ 20 + 3)))

/-! # Launches, slots, invalidation -/

/-- R349-R351: LAUNCH, once the control core's writes to other packages are performed, reads its record, and with one that passes R350's checks appends the launch to its queue,
gives it the die's next number and returns that number; a full or disabled queue returns a status; a record that fails traps LAUNCHERR with the reason, a misaligned or unreadable one
with reason 1. LQCFG returns the old configuration and sets the new; a set reserved bit traps ILLEGAL, and SEC asked for by a control core that is not secure SECVIOL.
That a processor's own accesses are otherwise performed as it issues them, and that SECVIOL's TINFO is 24 with kind 0, are the model's readings (log 14, log 52). -/
def Sys2Proof.Spec.LaunchAndQueueSetupComplete : Prop :=
  ∀ (s : State) die w (d a b q : BitVec 6), OnKcore s die →
    let r (n : Nat) : Nat := s.gsrc true (a.toNat + n)
    let x := s.queue die q.toNat
    let traps (u : State) (n : Nat) : Prop := exec (.launch d a q) s = .next (u.takeTrap .launchErr (r 0) 0 (q.toNat * 256 + n))
    (Passes s (.launch d a q) w → Clean s [(a.toNat, true), (a.toNat + 2, true), (a.toNat + 4, true), (a.toNat + 6, true)] →
      (s.procClear = false → exec (.launch d a q) s = .next s) ∧
      (s.procClear = true → r 0 % 64 ≠ 0 → traps s 1) ∧
      (s.procClear = true → r 0 % 64 = 0 → s.recordWords die (r 0) x = none → traps (s.recordLogged die (r 0) x) 1) ∧
      (∀ rec, s.procClear = true → LaunchRecord s die (r 0) x rec →
        (∀ n, recordReason rec (r 4) (r 6) = some n → traps s n) ∧
        (recordReason rec (r 4) (r 6) = none →
          (x.en = false → exec (.launch d a q) s = .next (finished s (s.gdst false d.toNat 2) w)) ∧
          (x.en = true → 16 ≤ x.entries.length → exec (.launch d a q) s = .next (finished s (s.gdst false d.toNat 1) w)) ∧
          (x.en = true → x.entries.length < 16 → ∃ u, exec (.launch d a q) s = .next u ∧
            (u.queue die q.toNat).entries = x.entries ++ [(launchOf rec (r 0) (r 2) (r 4) (r 6) x (s.die die).nextLaunch q.toNat die, 0)] ∧
            (u.die die).nextLaunch = (if (s.die die).nextLaunch + 1 = 2 ^ 45 then 1 else (s.die die).nextLaunch + 1) ∧
            (d.toNat < 32 → (u.die die).kcore.sc.reg d.toNat = BitVec.ofNat 32 ((s.die die).nextLaunch % 2 ^ 24 * 256)) ∧
            (u.die die).kcore.pc = nextPc (s.die die).kcore.pc ∧ u.mem = s.mem ∧ u.dev = s.dev ∧ u.courses = s.courses ∧
            ∀ m, m ≠ q.toNat → u.queue die m = s.queue die m)))) ∧
    (Passes s (.lqcfg d a b q) w → Clean s [(a.toNat, false), (b.toNat, true)] →
      let v := s.gsrc false a.toNat
      (bitsOf v 15 6 = 0 → v.testBit 3 = false → (v.testBit 5 = false ∨ (s.kcoreXlat die).secure = true) → ∃ u, exec (.lqcfg d a b q) s = .next u ∧
        u.queue die q.toNat = { x with asid := bitsOf v 31 16, sec := v.testBit 5, en := v.testBit 4, prio := bitsOf v 2 0,
                                       root := if b.toNat < 32 then s.gsrc true b.toNat else x.root } ∧
        (d.toNat < 32 → (u.die die).kcore.sc.reg d.toNat = BitVec.ofNat 32 (x.asid * 2 ^ 16 + boolNat x.sec * 2 ^ 5 + boolNat x.en * 2 ^ 4 + x.prio)) ∧
        (u.die die).kcore.pc = nextPc (s.die die).kcore.pc ∧ u.mem = s.mem ∧ ∀ m, m ≠ q.toNat → u.queue die m = s.queue die m) ∧
      ((bitsOf v 15 6 ≠ 0 ∨ v.testBit 3 = true) → exec (.lqcfg d a b q) s = .next (s.takeTrap .illegal 0 0 (0xE4 * 2 ^ 24 + 2 * 2 ^ 20 + 3))) ∧
      (bitsOf v 15 6 = 0 → v.testBit 3 = false → v.testBit 5 = true → (s.kcoreXlat die).secure = false →
        exec (.lqcfg d a b q) s = .next (s.takeTrap .secViol 0 0 24)))

/-- R358: TSLOT of a course or a control core reads the full mask of a run of slots and, with FULL or EMPTY, sets them at once, after its release at .pkg, marked in the
core's write path (R255); a course may name only the slots of its launch, and a run that leaves the map, or has no slot or more than 32, traps ILLEGAL. R332: TLBI completes,
its entries gone from the TLBs of the dies of its scope, once its own release is over and no access translated through them is left; until then it waits. -/
def Sys2Proof.Spec.TileSlotAndTlbInstructionsComplete : Prop :=
  (∀ full xs b x, (setSlots full xs b).contains x = if x ∈ xs then b else full.contains x) ∧
  (∀ (s : State) w d a b (p : BitVec 2), Present s → Passes s (.tslot d a b p) w → Clean s [(a.toNat, false), (b.toNat, false)] →
    let first := s.gsrc false a.toNat % 4096
    let n := s.gsrc false b.toNat % 64
    let xs := (List.range n).map fun i => first + i
    let gives (u : State) (die : Nat) : Prop := exec (.tslot d a b p) s = .next (finished s
      ((u.gdst false d.toNat (fullMask (s.die die).full first n)).modDie die fun y => { y with full := setSlots y.full xs (p == 1#2) }) w)
    ((n = 0 ∨ 32 < n) → exec (.tslot d a b p) s = .next (s.takeTrap .illegal 0 0 (0xE8 * 2 ^ 24 + 3 * 2 ^ 20 + 3))) ∧
    (1 ≤ n → n ≤ 32 → 4096 < first + n → exec (.tslot d a b p) s = .next (s.takeTrap .illegal 0 0 (0xE8 * 2 ^ 24 + 2 * 2 ^ 20 + 3))) ∧
    (1 ≤ n → n ≤ 32 → first + n ≤ 4096 →
      (∀ k str c t, Runs s k str c t →
        ((∃ x ∈ xs, inRanges t.launch x = false) → exec (.tslot d a b p) s = .next (s.takeTrap .access 0 0 1)) ∧
        ((∀ x ∈ xs, inRanges t.launch x = true) → NotBegun c str →
          (p = 0#2 → exec (.tslot d a b p) s = .next (finished s ((s.dropL1 t.core).gdst false d.toNat (fullMask (s.die (dieOfCore t.core)).full first n)) w)) ∧
          (p ≠ 0#2 → t.version = none → (thawed s k c).released k str s.fresh 3 = true → gives (marked (thawed s k c) k 3) (dieOfCore t.core)) ∧
          (p ≠ 0#2 → t.version = none → (thawed s k c).released k str s.fresh 3 = false → exec (.tslot d a b p) s = .next (fenceBegun (thawed s k c) k str)))) ∧
      (∀ die, s.cur = .kcore die →
        (p = 0#2 → exec (.tslot d a b p) s = .next (finished s (s.gdst false d.toNat (fullMask (s.die die).full first n)) w)) ∧
        (p ≠ 0#2 → s.procClear = true → gives s die) ∧
        (p ≠ 0#2 → s.procClear = false → exec (.tslot d a b p) s = .next s)))) ∧
  (∀ (s : State) die w a b (sc : BitVec 1) (f : BitVec 2), OnKcore s die → Passes s (.tlbi a b sc f) w → Clean s (tlbiUses a b f) →
    let hit (x : Nat) : Bool := decide (f = 0#2) || decide (x = s.gsrc false a.toNat % 65536)
    let dies := if sc = 0#1 then [die] else (List.range 8).map fun i => die / 8 * 8 + i
    let keep (x : TlbEntry) : Bool := !(hit x.asid && (decide (f ≠ 2#2) || decide (x.va = s.gsrc true b.toNat / 2 ^ x.size)))
    (s.procClear = true → s.translatedLeft dies.contains hit = false → ∃ u, exec (.tlbi a b sc f) s = .next u ∧ u.mem = s.mem ∧
      (u.die die).kcore.pc = nextPc (s.die die).kcore.pc ∧ (∀ e ∈ dies, (u.die e).tlb = (s.die e).tlb.filter keep) ∧ (∀ e, e ∉ dies → u.die e = s.die e) ∧
      (∀ n, (u.core n).tlb = if dieOfCore n ∈ dies then (s.core n).tlb.filter keep else (s.core n).tlb) ∧
      (∀ n, (u.quad n).tlb = if n / 24 ∈ dies then (s.quad n).tlb.filter keep else (s.quad n).tlb)) ∧
    ((s.procClear = false ∨ s.translatedLeft dies.contains hit = true) → exec (.tlbi a b sc f) s = .next s)) ∧
  (∀ (s : State) k str c t w a b (sc : BitVec 1) (f : BitVec 2), Runs s k str c t → Passes s (.tlbi a b sc f) w → Clean s (tlbiUses a b f) → NotBegun c str →
    let hit (x : Nat) : Bool := decide (x = t.launch.asid)
    let die := dieOfCore t.core
    let dies := if sc = 0#1 then [die] else (List.range 8).map fun i => die / 8 * 8 + i
    ((thawed s k c).released k str s.fresh 3 = true → s.translatedLeft dies.contains hit = false →
      exec (.tlbi a b sc f) s = .next (finished s ((marked (thawed s k c) k 3).dropTlb dies hit (if f = 2#2 then some (s.gsrc true b.toNat) else none)) w)) ∧
    (((thawed s k c).released k str s.fresh 3 = false ∨ s.translatedLeft dies.contains hit = true) →
      exec (.tlbi a b sc f) s = .next (fenceBegun (thawed s k c) k str)))

/-! # Snapshots, keys, migration, pending records -/

/-- R387-R389, R394: SNAP.ARM of an idle engine with an allowed descriptor whose step no die has passed clears the map, loads the descriptor and arms it, STATUS and gd 0; SNAP.CANCEL
of an engine that is not idle fails it with reason 5; SNAP.LOAD begins a load; each answers its status otherwise. -/
def Sys2Proof.Spec.SnapshotInstructionsComplete : Prop :=
  ∀ (s : State) die w d a b, OnKcore s die → Clean s [(a.toNat, false), (b.toNat, true)] →
    let p := die / 8
    let sn := (s.pkg p).snap
    let gives (i : Instr) (n : Nat) : Prop := exec i s = .next (finished s (s.gdst false d.toNat n) w)
    (Passes s (.snapArm d a b) w →
      (sn.state ≠ .idle → gives (.snapArm d a b) 1) ∧
      (sn.state = .idle → s.snapDesc die (s.gsrc true b.toNat) = none → gives (.snapArm d a b) 2) ∧
      (∀ x pa, sn.state = .idle → s.snapDesc die (s.gsrc true b.toNat) = some (x, pa) →
        ((∃ i, i < 8 ∧ x.dmask.testBit i = true ∧ after32 (s.gsrc false a.toNat) (s.die (8 * p + i)).kcore.stepLast.toNat = false) → gives (.snapArm d a b) 3) ∧
        ((∀ i, i < 8 → x.dmask.testBit i = true → after32 (s.gsrc false a.toNat) (s.die (8 * p + i)).kcore.stepLast.toNat = true) →
          ∃ u, exec (.snapArm d a b) s = .next u ∧ (u.pkg p).snap = sn.load x (s.gsrc false a.toNat) pa .armed ∧ (s.memWf → SMap.sorted s.dir = true → NoneMoves s → u.mem.bytes pa 4 = bytesOf 4 0 ∧
            ∀ i, i < rangeLines x.ranges → (x.mapBase + i < pa ∨ pa + 4 ≤ x.mapBase + i) → u.mem.byte (x.mapBase + i) = 0#8) ∧
            (d.toNat < 32 → (u.die die).kcore.sc.reg d.toNat = 0#32) ∧ u.courses = s.courses))) ∧
    (Passes s (.snapCancel d a) w →
      (sn.state = .idle → gives (.snapCancel d a) 1) ∧
      (sn.state ≠ .idle → exec (.snapCancel d a) s = .next (finished s (((s.snapFail p 5).releaseHeld p).gdst false d.toNat 0) w)) ∧
      (sn.state ≠ .idle → sn.held = [] → ∃ u, exec (.snapCancel d a) s = .next u ∧ (u.pkg p).snap.state = .idle ∧
        (s.memWf → NoneMoves s → sn.statusPa % 4 = 0 → u.mem.bytes sn.statusPa 4 = bytesOf 4 (3 + 256 * 5)) ∧
        (d.toNat < 32 → (u.die die).kcore.sc.reg d.toNat = 0#32))) ∧
    (Passes s (.snapLoad d a b) w →
      (sn.state ≠ .idle → gives (.snapLoad d a b) 1) ∧
      (sn.state = .idle → s.snapDesc die (s.gsrc true b.toNat) = none → gives (.snapLoad d a b) 2) ∧
      (∀ x pa, sn.state = .idle → s.snapDesc die (s.gsrc true b.toNat) = some (x, pa) → ∃ u, exec (.snapLoad d a b) s = .next u ∧
        (u.pkg p).snap = sn.load x sn.step pa .loading ∧ u.mem = s.mem ∧ (d.toNat < 32 → (u.die die).kcore.sc.reg d.toNat = 0#32)))

/-- R325, R342, R343: KEYLD of a secure control core gives a key id a key from 64 bytes of secure frames, or a fresh one, or none, once no other package holds a line that the id
tags, and answers its status; a control core that is not secure traps SECVIOL with TINFO 24 (log 52).
The numbers that name key material are the model's own (log 21). -/
def Sys2Proof.Spec.KeyldSetsAKey : Prop :=
  ∀ (s : State) die w d a b x p, OnKcore s die → Passes s (.keyld d a b x p) w → Clean s [(a.toNat, false)] → (p = 0#2 → Clean s [(a.toNat, false), (b.toNat, true)]) →
    let id := s.gsrc false a.toNat
    let key (m : Nat) : KeyState := { valid := true, secure := x == 1#1, mat := m }
    let gives (u : State) (n : Nat) : Prop := exec (.keyld d a b x p) s = .next (finished s (u.gdst false d.toNat n) w)
    ((s.kcoreXlat die).secure = false → exec (.keyld d a b x p) s = .next (s.takeTrap .secViol 0 0 24)) ∧
    let home : Prop := ∀ l ∈ s.taggedLines (die / 8) id, s.unshared (128 * l) = true
    ((s.kcoreXlat die).secure = true →
      (4096 ≤ id → gives s 2) ∧
      (id < 4096 → p = 1#2 → home → gives (s.tick.setKey (die / 8) id (some (key (2 * s.fresh + 1)))) 0) ∧
      (id < 4096 → p ≠ 0#2 → p ≠ 1#2 → home → gives (s.setKey (die / 8) id none) 0) ∧
      (∀ l, id < 4096 → p ≠ 0#2 → p ≠ 1#2 → (s.taggedLines (die / 8) id).find? (fun l => !s.unshared (128 * l)) = some l →
        exec (.keyld d a b x p) s = .next (s.invalidate (128 * l))) ∧
      (∀ bs sec, id < 4096 → p = 0#2 → s.keyBytes (s.gsrc true b.toNat) = .inl (bs, sec) →
        (sec = false → gives s 3) ∧ (sec = true → bs.take 32 = bs.drop 32 → gives s 1) ∧
        (sec = true → bs.take 32 ≠ bs.drop 32 → home → gives (s.setKey (die / 8) id (some (key (2 * ofBytes bs + 2)))) 0)))

/-- R336-R338: MIGR.CPY begins a migration and holds its control core until its lines have been copied, then answers 0 or, with poison, 3; a fifth migration answers 1, frames that may not move
2. MIGR.END of a finished one ends its forwarding. -/
def Sys2Proof.Spec.MigrationInstructionsComplete : Prop :=
  ∀ (s : State) die w d a b (z : BitVec 2), OnKcore s die → Clean s [(a.toNat, true), (b.toNat, true)] →
    let old := s.gsrc true a.toNat
    let new := s.gsrc true b.toNat
    let n := if z = 0#2 then 2 ^ 16 else if z = 1#2 then 2 ^ 21 else 2 ^ 30
    let ms := (s.die die).migrations
    let gives (i : Instr) (v : Nat) : Prop := exec i s = .next (finished s (s.gdst false d.toNat v) w)
    let is (m : Migration) (done : Bool) : Bool := decide (m.old = old) && decide (m.new = new) && decide (m.size = n) && (m.done == done)
    (Passes s (.migrCpy d a b z) w →
      ((∀ m ∈ ms, is m false = false) →
        (4 ≤ ms.length → gives (.migrCpy d a b z) 1) ∧
        (ms.length < 4 → s.migrRefused old new n = true → gives (.migrCpy d a b z) 2) ∧
        (ms.length < 4 → s.migrRefused old new n = false → ∃ u, exec (.migrCpy d a b z) s = .next u ∧
          (u.die die).migrations = ms ++ [{ old := old, new := new, size := n, moved := 0, poisoned := false, done := false }] ∧
          (u.die die).kcore.pc = (s.die die).kcore.pc ∧ u.mem = s.mem)) ∧
      (∀ m, ms.find? (fun m => is m false) = some m →
        (128 * m.moved < n → exec (.migrCpy d a b z) s = .next s) ∧
        (n ≤ 128 * m.moved → ∃ u, exec (.migrCpy d a b z) s = .next u ∧ (u.die die).kcore.pc = nextPc (s.die die).kcore.pc ∧
          (∀ m' ∈ (u.die die).migrations, is m' false = false) ∧ u.mem = s.mem ∧
          (d.toNat < 32 → (u.die die).kcore.sc.reg d.toNat = if m.poisoned then 3#32 else 0#32)))) ∧
    (Passes s (.migrEnd d a b z) w →
      ((∃ m ∈ ms, is m true = true) → ∃ u, exec (.migrEnd d a b z) s = .next u ∧ (u.die die).migrations = ms.filter (fun m => !is m true) ∧ u.mem = s.mem ∧
        (d.toNat < 32 → (u.die die).kcore.sc.reg d.toNat = 0#32)) ∧
      ((∀ m ∈ ms, is m true = false) → gives (.migrEnd d a b z) 2))

/-- R289-R292, R325: PEND.BIND of a course with nothing outstanding in its handler writes the whole record, its head and empty entries, and binds the course, once no other package
holds a line of it; PEND.IMP asks the old core for the redirect, and once it has been answered imports the record. A bound course traps ILLMODE SUB 1, a record of another team, invalid, or imported already SUB 2, a misaligned address ALIGN.
TADDR and TINFO of a failed import are free values (log 20); that the record is written in one step is the model's choice (log 35). -/
def Obligations.PendingRecordInstructionsComplete : Prop :=
  ∀ (s : State) k str c t w a s' b, Runs s k str c t → Clean s [(a.toNat, true)] →
    let va := s.gsrc true a.toNat
    let lo := va / 65536
    let hi := (va + 16511) / 65536
    (va % 128 ≠ 0 → (Passes s (.pendBind a) w → exec (.pendBind a) s = .next (s.takeTrap .align va 0 128)) ∧
      (Passes s (.pendImp a) w → exec (.pendImp a) s = .next (s.takeTrap .align va 0 128))) ∧
    (va % 128 = 0 → s.pendPages va (if lo = hi then [lo] else [lo, hi]) [] = .ok s' b →
      (Passes s (.pendBind a) w → c.bound = none → s'.spOutstanding k false = false → s'.spOutstanding k true = false → s'.gbaraOut k = false →
        let head := pendHead t.tid.toNat c.cid t.core (s'.core t.core).clock
        (s'.recordLines b ≠ [] → exec (.pendBind a) s = .next ((s'.recordLines b).foldl State.invalidate s')) ∧
        (s'.recordLines b = [] → ∃ u c', exec (.pendBind a) s = .next u ∧ u.course? k = some c' ∧ c'.bound = some { b with core := t.core } ∧
          (c'.slot str).pc = (c.slot str).pc + 4#32 ∧ c'.lanes = c.lanes ∧
          u.mem = ((List.range 257).foldl (fun s i => s.recordWrite b (64 + 64 * i) (List.replicate 64 0#8)) (s'.recordWrite b 0 head)).mem ∧
          (∀ p leaf, b.pages = [(lo, p, leaf)] → snapMark leaf = none →
            (∀ i, i < 258 → s'.forward (p + va % 65536 + 64 * i) = p + va % 65536 + 64 * i) → s'.memWf → SMap.sorted s'.dir = true →
            u.mem.bytes (p + va % 65536) 16512 = head ++ List.replicate 16448 0#8))) ∧
      (Passes s (.pendBind a) w → c.bound.isSome = true → exec (.pendBind a) s = .next (s.takeTrap .illMode 0 0 1)) ∧
      (let state := s'.recordRead b 8 4
       let fits := s'.recordRead b 0 8 = t.tid.toNat ∧ state.testBit 0 = true ∧ state.testBit 1 = false
       Passes s (.pendImp a) w →
        (¬ fits → exec (.pendImp a) s = .next (s.takeTrap .illMode 0 0 2)) ∧
        (fits → NotBegun c str → ∃ u x c', exec (.pendImp a) s = .next u ∧ u.flight? s'.fresh = some (.group x) ∧ x.op = .redirect { b with core := bitsOf state 31 16 } ∧
          u.course? k = some c' ∧ (c'.slot str).hold = .reply s'.fresh ∧ (c'.slot str).pc = (c.slot str).pc) ∧
        (∀ n, fits → Begun c str n → s'.recordShared b 0 = none → exec (.pendImp a) s = .next (finished s (s'.pendFinish k c t.core b) w)) ∧
        (∀ n pa, fits → Begun c str n → s'.recordShared b 0 = some pa → exec (.pendImp a) s = .next (s'.invalidate pa))))

/-! # Processors and the Lintel -/

/-- R260, R325, R348, R420: a trap of a control core or Lintel whose handler is not active stores the 256-byte frame at its frame address, each line as a .pkg release, and continues at
its vector, TACT bit 0 set, once its own earlier writes are performed and no other package holds a line of the frame; until then the trap stands; when the frame cannot be
written, or the handler is active, it halts. The frame's layout is R348's.
That the frame is stored in one step is the model's choice (log 114). -/
def Obligations.ProcessorTrapsStoreAFrame : Prop :=
  (∀ (s : State) a p w imm, s.cur = a → Present s → s.proc? a = some p → Passes s (.trap imm) w →
    let k := (procBase a).1
    let base := (procBase a).2
    let frame := s.reg k (base + 4) + 2 ^ 32 * s.reg k (base + 8)
    let f := frameBytes p p.pc.toNat .swTrap imm.toNat 0
    ((s.reg k (base + 0x14)).testBit 0 = true → exec (.trap imm) s = .next (s.haltProc a)) ∧
    ((s.reg k (base + 0x14)).testBit 0 = false →
      let s0 := s.setProc a { p with hold := .free, entry := some (.swTrap, 0, imm.toNat) }
      let halts (va : Nat) (r : TRes) : Prop := exec (.trap imm) s = .next (((s0.logRefused a va r).setProc a { p with hold := .free, entry := none }).haltProc a)
      (∀ r, s.frameLine a frame = r → (∀ pa leaf, r ≠ .ok pa leaf) → halts frame r) ∧
      (∀ p0 l0 r, s.frameLine a frame = .ok p0 l0 → s.frameLine a (frame + 128) = r → (∀ pa leaf, r ≠ .ok pa leaf) → halts (frame + 128) r) ∧
      (∀ p0 l0 p1 l1, s.frameLine a frame = .ok p0 l0 → s.frameLine a (frame + 128) = .ok p1 l1 →
        (s.pathIdle a = true → s.unshared p0 = true → s.unshared p1 = true →
          exec (.trap imm) s = .next ((((s0.frameStore a p0 l0 (f.take 128)).frameStore a p1 l1 (f.drop 128)).orReg k (base + 0x14) 1).setProc a { p with
            pc := BitVec.ofNat 64 (s.reg k (base + 0x0C) + 2 ^ 32 * s.reg k (base + 0x10)), frame := BitVec.ofNat 64 frame, hold := .free, entry := none })) ∧
        (s.pathIdle a = false ∨ s.unshared p0 = false ∨ s.unshared p1 = false → exec (.trap imm) s = .next s0)))) ∧
  (∀ (s : State) a pa leaf bytes, s.memWf → SMap.sorted s.dir = true → snapMark leaf = none → s.forward pa = pa → bytes.length = 128 →
    let u := s.frameStore a pa leaf bytes
    u.mem.bytes pa 128 = bytes ∧ (u.line pa).relCore = s.pathOf a ∧ (u.line pa).relScope = 3 ∧ (u.line pa).relValid = true) ∧
  (∀ (p : Proc) pc cause ti ta, pc < 2 ^ 64 → ti < 2 ^ 32 → ta < 2 ^ 64 →
    let f := frameBytes p pc cause ti ta
    let at' (o n : Nat) : Nat := ofBytes ((f.drop o).take n)
    f.length = 256 ∧ (∀ n, n < 32 → at' (4 * n) 4 = (p.sc.reg n).toNat) ∧ at' 0x80 4 = p.sc.gp.toNat ∧ at' 0x84 4 = pc % 2 ^ 32 ∧ at' 0x88 4 = cause.code ∧
      at' 0x8C 4 = ti ∧ at' 0x90 8 = ta ∧ at' 0x98 8 = p.sc.red.toNat ∧ at' 0xA0 4 = p.sc.redSeq.toNat ∧ at' 0xA4 4 = 1 ∧ at' 0xA8 4 = pc / 2 ^ 32)

/-- R424, R426, R427, R429, R430: the circuit instructions of a Lintel: CREQ answers its status or sets the barrier requesting; CAWT answers once the barrier's state decides, or waits; CUSE lends a barrier; CREL
begins a release, frees a barrier that is not live, or answers 1; CSTAT reads a barrier. -/
def Sys2Proof.Spec.CircuitInstructionsComplete : Prop :=
  ∀ (s : State) p w d a b, OnLintel s p → Clean s [(a.toNat, false)] → Clean s [(a.toNat, false), (b.toNat, false)] → Clean s [(a.toNat, false), (b.toNat, true)] →
    let va := s.gsrc false a.toNat
    let vb := s.gsrc false b.toNat
    let k := va % 64
    let y := (s.pkg p).bar k
    let gives (i : Instr) (u : State) (n : Nat) : Prop := exec i s = .next (finished s (u.gdst false d.toNat n) w)
    (Passes s (.creq d a b) w → bitsOf va 31 13 = 0 → bitsOf va 7 6 = 0 → bitsOf vb 31 19 = 0 → (bitsOf vb 13 10 ≠ p ∨ bitsOf vb 9 0 ≠ Config.wallId.toNat) →
      let st := s.creqStatus p k (bitsOf va 12 8)
      (st ≠ 0 → gives (.creq d a b) s st) ∧
      (st = 0 → ∃ u z, exec (.creq d a b) s = .next u ∧ (u.pkg p).bar k = z ∧ z.state = 1 ∧ z.port = bitsOf va 12 8 ∧ z.peerWall = bitsOf vb 9 0 ∧
        z.peerPkg = bitsOf vb 13 10 ∧ z.peerPort = bitsOf vb 18 14 ∧ z.lent = false ∧ z.seq = (y.seq + 1) % 2 ^ 16 ∧
        (d.toNat < 32 → (u.pkg p).lintel.sc.reg d.toNat = 0#32) ∧ ∀ j, j ≠ k → (u.pkg p).bar j = (s.pkg p).bar j)) ∧
    (∀ m, Passes s (.cawt d a b m) w → (s.pkg p).lintel.hold = .free →
      (∀ code, cawtCode y (decide (m = 1#1)) = some code → gives (.cawt d a b m) s code) ∧
      (cawtCode y (decide (m = 1#1)) = none → vb = 0 → gives (.cawt d a b m) s 1) ∧
      (cawtCode y (decide (m = 1#1)) = none → vb ≠ 0 →
        exec (.cawt d a b m) s = .next (s.setLintelHold p (.timed 0xF1 ((s.pkg p).time + 1000 * vb) false)))) ∧
    (Passes s (.cuse d a b) w →
      let at' := s.gsrc true b.toNat
      ((y.state = 0 ∨ 4 ≤ y.state) → gives (.cuse d a b) s 1) ∧
      ((1 ≤ y.state ∧ y.state ≤ 3) →
        (at' % 32 ≠ 0 → gives (.cuse d a b) s 2) ∧
        (∀ bs, at' % 32 = 0 → s.lintelRead p at' 32 = .inl bs →
          (lendOk bs (lendOf bs y) p = false → gives (.cuse d a b) s 2) ∧
          (lendOk bs (lendOf bs y) p = true → (y.lent = false ∨ sameBorrower y (lendOf bs y) = true ∨ s.borrowerBusy p k y = false) →
            gives (.cuse d a b) (s.setBar p k (lendOf bs y)) 0) ∧
          (lendOk bs (lendOf bs y) p = true → y.lent = true → sameBorrower y (lendOf bs y) = false → s.borrowerBusy p k y = true →
            exec (.cuse d a b) s = .next s)))) ∧
    (∀ m, Passes s (.crel d a m) w →
      ((y.state = 0 ∨ y.state = 4) → gives (.crel d a m) s 1) ∧
      (y.state = 3 → ∃ u, exec (.crel d a m) s = .next u ∧ (u.pkg p).bar k = { y with state := 4, abort := decide (m = 1#1) } ∧
        ((u.pkg p).port y.port).releasing = true ∧ (d.toNat < 32 → (u.pkg p).lintel.sc.reg d.toNat = 0#32)) ∧
      ((y.state = 1 ∨ y.state = 2) → ∃ u, exec (.crel d a m) s = .next u ∧ ((u.pkg p).bar k).state = 0 ∧ ((u.pkg p).bar k).seq = y.seq ∧
        ((u.pkg p).port y.port).state = .dark ∧ (d.toNat < 32 → (u.pkg p).lintel.sc.reg d.toNat = 0#32))) ∧
    (Passes s (.cstat d a) w → gives (.cstat d a) s (y.state * 2 ^ 28 + y.reason * 2 ^ 24 + y.borrower * 2 ^ 22 + boolNat y.lent * 2 ^ 21 +
      (if y.state = 0 then 0 else y.port) * 2 ^ 16 + min 255 (s.barQueued p k)))

/-- R434, R435: EPSND sends its message once and waits for its acceptance; EPRCV stores the oldest message at its endpoint and answers the header, or, with none, 0 at once or after its time; TIME reads the package time;
HTUNE reads a heater margin. -/
def Sys2Proof.Spec.PlaneAndTimeInstructionsComplete : Prop :=
  ∀ (s : State) p w d a b, OnLintel s p → Clean s [(a.toNat, false)] → Clean s [(a.toNat, false), (b.toNat, true)] →
    let v := s.gsrc false a.toNat
    let hold := (s.pkg p).lintel.hold
    let gives (i : Instr) (u : State) (n : Nat) : Prop := exec i s = .next (finished s (u.gdst false d.toNat n) w)
    (Passes s (.epsnd d a b) w → bitsOf v 31 26 = 0 → bitsOf v 17 14 < 12 →
      let dst := bitsOf v 9 0 * 16 + bitsOf v 13 10
      let key := sendKey dst (bitsOf v 17 14) (bitsOf v 17 14)
      (∀ bytes, hold = .free → s.lintelRead p (s.gsrc true b.toNat) (bitsOf v 25 18 + 1) = .inl bytes → ∃ u, exec (.epsnd d a b) s = .next u ∧
        ((u.pkg p).stream key).next = (((s.pkg p).stream key).next + 1) % 2 ^ 16 ∧ (u.pkg p).lintel.hold = .timed 0xF5 ((s.pkg p).stream key).next false ∧
        (u.pkg p).lintel.pc = (s.pkg p).lintel.pc) ∧
      (∀ n, hold = .timed 0xF5 n false → ((s.pkg p).stream key).acked = (n + 1) % 2 ^ 16 → gives (.epsnd d a b) s 0) ∧
      (∀ n, hold = .timed 0xF5 n true → gives (.epsnd d a b) s 1)) ∧
    (Passes s (.eprcv d a b) w → bitsOf v 3 0 < 12 →
      let ep := bitsOf v 3 0
      (∀ m rest places, hold = .free → SMap.getD (s.pkg p).endpoints [] ep = m :: rest →
        s.lintelPlaces p (s.gsrc true b.toNat) m.2.length = .inl places →
        exec (.eprcv d a b) s = .next (finished s (((s.modPkg p fun x => { x with endpoints := SMap.put x.endpoints ep rest }).storeMessage p places m.2).gdst
          false d.toNat (2 ^ 31 + m.1 / 16 * 2 ^ 21 + m.1 % 16 * 2 ^ 17 + m.2.length)) w)) ∧
      (hold = .free → SMap.getD (s.pkg p).endpoints [] ep = [] → bitsOf v 31 4 = 0 → gives (.eprcv d a b) s 0) ∧
      (hold = .free → SMap.getD (s.pkg p).endpoints [] ep = [] → bitsOf v 31 4 ≠ 0 →
        exec (.eprcv d a b) s = .next (s.setLintelHold p (.timed 0xF6 ((s.pkg p).time + 1000 * bitsOf v 31 4) false)))) ∧
    (Passes s (.time d) w → exec (.time d) s = .next (finished s (s.gdst true d.toNat ((s.pkg p).time % 2 ^ 64)) w)) ∧
    (∀ m, Passes s (.htune d a m) w → bitsOf v 31 10 = 0 →
      let e := (s.pkg p).engine (bitsOf v 3 0)
      let ch := SMap.getD e.margins (50, 50) (16 * bitsOf v 5 4 + bitsOf v 9 6)
      gives (.htune d a m) s (if m = 1#1 then e.minMargin else ch.1 * 2 ^ 8 + ch.2))

/-! # Events of the memory system -/

/-- R150, R153, R178: values reach their lanes: a value in flight, a load read below its course's store buffer in the L1, under its core's write path, in the copy its package's slice holds (R406), or at its home, and a scratchpad access
served at its bank, of all the lanes that share it, write their register, which is full from then on, and change no byte of global memory. -/
def Obligations.ValuesArriveInTheirLanes : Prop :=
  (∀ (s : State) f x c, s.flight? f = some (.value x) → Reached s x.key c → x.fail = none → x.acquire = none →
    exec (.laneValueDelivery f) s = .next ((s.drop f).setCourse x.key (c.arrive x.lane x.reg x.wide x.value))) ∧
  (∀ (s : State) f x c, s.flight? f = some (.load x) → Reached s x.key c → x.got = none → x.asked = false → x.acquire = none → x.sc = none → x.atHome = false →
    let core := s.pathOf (.course x.key x.str)
    let own := c.forward f x.str x.mask x.va x.size
    isDevice x.pa = false → s.mayRead f x.key x.str x.mask x.va x.pa x.size false false = true → s.readsAway core x.pa own false false = false →
    s.readsPoison core x.pa own x.version false = false → ∃ u c', exec (.laneValueDelivery f) s = .next u ∧ u.mem = s.mem ∧ u.dev = s.dev ∧
      u.course? x.key = some c' ∧
      { c' with seen := c.seen } = c.arrive x.lane x.reg x.wide (x.value (ofBytes (s.loadBytes core x.pa x.size own x.version false x.keyId)))) ∧
  (∀ (s : State) core pa size own key i, i < size → (s.loadBytes core pa size own none false key)[i]? = some (match (own[i]?).getD none with
    | some b => b
    | none => match SMap.find? (s.core core).l1 (lineOf (pa + i)) with
      | some line => line.getD ((pa + i) % 128) (s.byteAt (pa + i))
      | none => overlayPath (s.core core).path (pa + i) (s.sliceByte core (pa + i) key))) ∧
  (∀ (s : State) f x c t, s.flight? f = some (.spad x) → Reached s x.key c → s.bankBusy f x = false → s.team? x.target = some t →
    (x.window = true → s.refuses x.target = false) →
    let i := if x.window then Instr.windowAccess f else Instr.scratchpadLaneComplete f
    (∀ reg wide lanes, x.op = .load reg wide lanes → t.spPoisoned x.offset x.size = false → ∃ u, exec i s = .next u ∧
      u.course? x.key = some (lanes.foldl (fun c l => c.arrive l reg wide (ofBytes (t.spBytes x.offset x.size))) c) ∧
      u.flights = SMap.del s.flights f ∧ u.teams = s.teams ∧ u.mem = s.mem ∧ u.dev = s.dev) ∧
    (∀ bytes, x.op = .store bytes → exec i s = .next ((s.setTeam x.target (t.spWrite x.offset bytes)).drop f))) ∧
  (∀ (c : Course) l k wide v, l < 32 → k < 31 → let y := (c.arrive l k wide v).lane l
    y.named k = BitVec.ofNat 32 v ∧ y.fe.getLsbD k = true ∧ (wide = true → y.named (k + 1) = BitVec.ofNat 32 (v / 2 ^ 32) ∧ y.fe.getLsbD (k + 1) = true) ∧
      y.q = (c.lane l).q ∧ y.p = (c.lane l).p ∧ (∀ n, n < 32 → n ≠ k → (wide = false ∨ n ≠ k + 1) → y.named n = (c.lane l).named n) ∧
      ∀ m, m < 32 → m ≠ l → (c.arrive l k wide v).lane m = c.lane m)

/-- R22, R23, R255, R262, R267: an entry that may leave goes to its core's write path, an SC one with its core's clock; a write that may be performed changes exactly its bytes and is
acknowledged, one of several SC lanes changes those of its next lane and stays for the others; an acknowledgement lowers its scope's counter; an L1 line expires.
Marks of releases, what a vanished translation does, and that an entry's SC lanes are performed one after another, in lane order, are the model's reading (log 16, log 43,
log 107). -/
def Obligations.StoresReachMemory : Prop :=
  (∀ (s : State) k e x t en pa leaf, s.course? k = some x → s.team? (k / 16) = some t → x.entries[e]? = some en → t.residency = .resident →
    s.mayLeave k x en pa (x.entries.take e) = true → x.counter en.counter < 4095 → (en.kind = 3#4 → s.scHalted t.core = false) →
    s.translate t.xlat en.va.toNat .store false = .ok pa leaf → s.versionFull t [pa] = false →
    exec (.storeBufferDrain k e) s = .next (s.entryLeaves k t e en pa leaf) ∧
    (en.kind ≠ 3#4 → s.entryLeaves k t e en pa leaf = (s.modCourse k fun x => x.dropEntry e).passOn k t en pa leaf) ∧
    (en.kind = 3#4 → s.entryLeaves k t e en pa leaf = (s.modCourse k fun x => x.dropEntry e).passOn k t
      { en with stamp := BitVec.ofNat 64 (max en.stamp.toNat ((s.core t.core).clock + 1)) } pa leaf)) ∧
  (∀ (s : State) k c t en pa leaf, s.course? k = some c → t.version = none → (isDevice pa = false ∨ pa / 2 ^ 48 ≠ pkgOfCore t.core) →
    let u := s.passOn k t en pa leaf
    (∃ n w, SMap.find? (u.core t.core).path n = some (.write w) ∧ w.owner = .course k en.slot ∧ w.pa = pa ∧ w.bytes = en.bytes ∧ w.kind = en.kind ∧
      w.scope = en.counter ∧ w.issue = en.issue ∧ w.parts = en.parts ∧ w.sent = false ∧ w.landed = false) ∧
    u.course? k = some (c.count en.counter (· + 1#12)) ∧ u.mem = s.mem ∧ u.dev = s.dev) ∧
  (∀ (s : State) p w x, MayPerform s p w x →
    let z := laneOr x.parts x.pa x.bytes
    InPlace s x.pa x.snap → s.forward z.1 = z.1 → SameKey s x.pa x.keyId → (x.kind = 3#4 → s.scTime x.pa (s.scStart p x.ts) false < 2 ^ 50) →
    ∃ u, exec (.homeWritePerform p w) s = .next u ∧ u.mem = s.mem.setMasked z.1 z.2 ∧ (∀ a, (a < z.1 ∨ z.1 + z.2.length ≤ a) → u.mem.byte a = s.mem.byte a) ∧
      (x.parts.length < 2 → ∃ n tm, u.flight? n = some (.ack x.owner x.scope tm w)) ∧
      (2 ≤ x.parts.length → SMap.find? (u.core p).path w = some (.write x.laneDone)) ∧ u.courses = s.courses ∧ u.dev = s.dev ∧ u.teams = s.teams) ∧
  (∀ (x : PathWrite) q rest, x.parts = q :: rest → laneOr x.parts x.pa x.bytes = (x.pa + q.off, q.bytes.map some) ∧ x.laneDone.parts = rest) ∧
  (∀ (s : State) f k str scope o c, s.flight? f = some (.ack (.course k str) scope 0 o) → s.course? k = some c → c.recordOf o = none →
    exec (.storeAck f) s = .next ((s.drop f).modCourse k fun c => c.count scope fun n => if n = 0#12 then n else n - 1#12)) ∧
  (∀ (s : State) c l, exec (.l1LineExpiry c l) s = .next (s.modCore c fun x => { x with l1 := SMap.del x.l1 l, l1Rel := SMap.del x.l1Rel l }))

/-- R155, R156, R255, R260: a course's atomic group goes to its core's write path once its slot's older accesses allow it; one that may be performed at its home in its package, with no promotion to wait for, changes its word to what its lanes make of it, in one event, and each returning lane's value, the memory value or as its
predecessors left it, is on its way. A BF16x2 addition performs one half in this event, and the other in a later one (R155: the two halves are not atomic as a pair). -/
def Obligations.AtomicsArePerformedAsOneEvent : Prop :=
  (∀ (s : State) f g k str, s.flight? f = some (.atom g) → g.owner = .course k str → g.sent = false → g.mark = none → g.version = none → g.copy = none →
    exec (.atomicPerform f) s = .next (if s.mayPlace f k str g then s.placeAtom f g else s)) ∧
  (∀ (s : State) f g k str m, s.flight? f = some (.atom g) → g.owner = .course k str → g.sent = false → g.mark = some m →
    mayPerform (s.core (s.pathOf g.owner)).path m g.owner g.pa g.size = true → g.order ≠ .sc →
    (g.order = .relaxed ∨ (s.promoting f = false ∧ s.promotionClear (s.pathOf g.owner) g.pa g.scope = true)) → g.pa / 2 ^ 48 = s.pkgOf g.owner → g.version = none → g.copy = none → g.half = none → s.unshared g.pa = true → s.poisoned g.pa = false → InPlace s g.pa g.snap →
    SameKey s g.pa g.keyId →
    let old := ofBytes (s.bytesUnder g.pa g.size g.keyId)
    let r := atomGroup g.op g.et g.ftz old g.lanes
    (atomSplits g.op g.et = true → ∃ u up g' vs, exec (.atomicPerform f) s = .next u ∧ u.flight? f = some (.atom g') ∧ g'.half = some (up, vs) ∧
      u.mem = s.mem.setMasked g.pa ((bytesOf g.size (withHalf up (halfOf up r.1) old)).map some) ∧ u.courses = s.courses ∧ u.dev = s.dev) ∧
    (atomSplits g.op g.et = false → ∃ u, exec (.atomicPerform f) s = .next u ∧ u.mem = s.mem.setMasked g.pa ((bytesOf g.size r.1).map some) ∧
      (∀ lv ∈ r.2, ∀ reg, lv.1.reg = some reg → ∃ n y, u.flight? n = some (.value y) ∧ y.key = k ∧ y.lane = lv.1.lane ∧ y.reg = reg ∧ y.value = lv.2 ∧ y.fail = none) ∧
      (∀ c, g.counter = some c → ∃ n, u.flight? n = some (.ack g.owner c 0 f)) ∧ u.courses = s.courses ∧ u.dev = s.dev)) ∧
  (∀ et ftz old (ls : List AtomLane), (atomGroup 6 et ftz old ls).1 = ((ls.getLast?).map AtomLane.x).getD old) ∧
  (∀ et ftz old (l : AtomLane), atomGroup 7 et ftz old [l] = (if old = l.cmp then l.x else old, [(l, old)])) ∧
  (∀ ftz (x y : Word) (l : AtomLane), l.x = y.toNat → atomGroup 0 .n32 ftz x.toNat [l] = ((x + y).toNat, [(l, x.toNat)]))

/-- R260, R261: a promotion request is answered once the writer's core has performed what it passed on before the release, and the answer lets the acquire go on. -/
def Sys2Proof.Spec.PromotionsAreAnswered : Prop :=
  (∀ (s : State) n load core up x, s.flight? n = some (.promote load core up false) → s.flight? load = some (.load x) → x.pa / 2 ^ 48 = pathPkg core →
    (s.pathClear core up = true → exec (.promoteRequest false n) s = .next (s.setFlight n (.promoted load))) ∧
    (s.pathClear core up = false → exec (.promoteRequest false n) s = .next s)) ∧
  (∀ (s : State) n load x, s.flight? n = some (.promoted load) → load ≠ n → s.flight? load = some (.load x) →
    exec (.promoteAnswer false n) s = .next ((s.drop n).setFlight load (.load { x with promoted := true })))

/-- R199, R333-R335, R340, R344, R345: a waiting fault record is written to its ring, or OVF set; a RESUME releases what waits for its token; errors poison or drop what they strike, are counted and reported; the scrubber counts corrections; the
region table takes a word. -/
def Obligations.FaultAndErrorEventsComplete : Prop :=
  (∀ (s : State) d r rest, (s.die d).faults = r :: rest →
    let pkg := d / 8
    let base := memBase (d % 8)
    let ctl := s.reg pkg (base + 0x14)
    let size := 2 ^ (s.reg pkg (base + 8))
    let ring := s.reg pkg base + 2 ^ 32 * s.reg pkg (base + 4)
    let head := s.reg pkg (base + 0xC) % size
    let room := (s.reg pkg (base + 0x10) + 2 * size - head - 1) % size
    let n := r.bytes.length / 32
    (ctl.testBit 0 = true → n ≤ size - head → n ≤ room → s.ringShared ring size head n = none → ctl.testBit 1 = false → ctl.testBit 3 = false → ctl.testBit 4 = false →
      exec (.faultRecordWrite d) s = .next (((ringPut s ring size head r.bytes).setReg pkg (base + 0xC) ((head + n) % size)).modDie d fun x => { x with faults := rest })) ∧
    (ctl.testBit 0 = true → n ≤ size - head → room < n → exec (.faultRecordWrite d) s = .next (s.orReg pkg (base + 0x14) (2 ^ 31))) ∧
    (ctl.testBit 0 = false → exec (.faultRecordWrite d) s = .next s)) ∧
  (∀ (s : State) d tok k c t, s.course? k = some c → s.team? (k / 16) = some t → dieOfCore t.core = d → c.header.parked = some tok →
    ∃ u c', exec (.faultQueueResume d tok) s = .next u ∧ u.course? k = some c' ∧ c'.header.parked = none ∧ c'.header.pc = c.header.pc ∧ c'.lanes = c.lanes ∧ u.mem = s.mem) ∧
  (∀ (s : State) x, isHbm x = true → exec (.uncorrectableError 0 0 x 0) s = .next ((s.poisonLine x false).reportError (homeDie x) 0 (x % 2 ^ 52))) ∧
  (∀ (s : State) k l r c, s.course? k = some c → l < 32 → r < 32 → ∃ u c', exec (.uncorrectableError 5 k l r) s = .next u ∧ u.course? k = some c' ∧
    c'.isPoisoned false (16 + r) l = true ∧ c'.sc = c.sc ∧ (∀ m, m < 32 → m ≠ l → c'.lane m = c.lane m)) ∧
  (∀ (s : State) k r c, s.course? k = some c → r < 32 → ∃ u c', exec (.uncorrectableError 7 k r 0) s = .next u ∧ u.course? k = some c' ∧ c'.sc.gPoison.getLsbD r = true ∧ c'.sc.g = c.sc.g) ∧
  (∀ (s : State) h x t, s.team? h = some t → 4 * x < t.spSize → ∃ u t', exec (.uncorrectableError 8 h x 0) s = .next u ∧ u.team? h = some t' ∧ t'.spPoisoned (4 * x) 4 = true) ∧
  (∀ (s : State) pa, exec (.patrolScrub pa true) s = .next (s.countReg (homeDie pa / 8) (memBase (homeDie pa % 8) + 0x100) 1) ∧ exec (.patrolScrub pa false) s = .next s) ∧
  (∀ (s : State) d, exec (.eccCounterClr d) s = .next ((s.setReg (d / 8) (memBase (d % 8) + 0x100) 0).setReg (d / 8) (memBase (d % 8) + 0x104) 0)) ∧
  (∀ (s : State) d n w v, n < 256 → w < 4 → exec (.regionEntryWrite d n w v) s = .next (if Config.secMode (d / 8) then s.regionWrite (d / 8) (d % 8) n w v else s)) ∧
  (∀ (s : State) d i m, (s.die d).migrations[i]? = some m → m.done = false → 128 * m.moved < m.size → s.memWf →
    let a := m.old + 128 * m.moved
    let b := m.new + 128 * m.moved
    s.versionHolds (lineOf a) = false → s.unshared a = true →
    ∃ u, exec (.migrationLineCopy d i) s = .next u ∧ u.mem.bytes b 128 = s.ownBytesAt a 128 ∧ (∀ x, (x < b ∨ b + 128 ≤ x) → u.mem.byte x = s.mem.byte x) ∧
      ∃ m', (u.die d).migrations[i]? = some m' ∧ m'.moved = m.moved + 1 ∧ m'.poisoned = (m.poisoned || (SMap.getD s.dir DirLine.init (lineOf a)).poi))

/-! # Events of courses and teams -/

/-- R121, R287, R291, R292, R443: a held cause is taken before the next issue; a course whose buffer and counters are empty finishes; a stalled oldest version commits once no other package holds a line of it (R325); what
arrives for a bound course is filed once no other package holds its entry's line, and a redirect is answered. -/
def Obligations.CourseEventsComplete : Prop :=
  (∀ (s : State) k c t h rest, s.course? k = some c → s.team? (k / 16) = some t → c.held = h :: rest → c.life = .live → CanTrap c t →
    let str := h.slot.getD (decide (c.header.mask = 0#32))
    ∃ c', exec (.deferredCauseTaken k) s = .next ((s.setCourse k { c with held := rest }).setCourse k c') ∧ c'.held = rest ∧ c'.handler = true ∧
      c'.tcause = BitVec.ofNat 32 h.cause.code ∧ c'.tpc = h.tpc.getD (c.slot str).pc ∧ c'.taddr = h.taddr ∧ c'.tmask = h.tmask ∧ c'.tinfo = h.tinfo) ∧
  (∀ (s : State) k c, s.course? k = some c → c.life = .ended → c.entries.isEmpty = true → (c.bound.isSome = true ∨ c.countersClear 5 = true) →
    (s.team? (k / 16) = none → exec (.courseFinish k) s = .next ((s.setCourse k { c with life := .finished }).tryEndTeam (k / 16))) ∧
    (∀ t, s.team? (k / 16) = some t → exec (.courseFinish k) s = .next (((s.setCourse k { c with life := .finished }).retestWide t).tryEndTeam (k / 16)))) ∧
  (∀ (s : State) h t, s.team? h = some t → t.verStall ≠ [] → t.version.isSome = true → (∀ d ∈ t.verStall, s.oldestOn h d = true) →
    (s.sharedLine h = none → exec (.versionOverflowCommit h) s = .next (((s.commit h).copiesInto h .memory).atomsInto h)) ∧
    (∀ l, s.sharedLine h = some l → exec (.versionOverflowCommit h) s = .next (s.invalidate l))) ∧
  (∀ (s : State) f k str scope tm o c b, s.flight? f = some (.ack (.course k str) scope tm o) → s.course? k = some c → c.recordOf o = some b → tm = 0 → s.recordShared b 0 = none →
    exec (.pendingDivert f) s = .next ((s.recordWrite b (16 + 4 * scope) (bytesOf 4 (s.recordRead b (16 + 4 * scope) 4 + 1))).drop f)) ∧
  (∀ (s : State) f x c b, s.flight? f = some (.value x) → s.course? x.key = some c → c.recordOf x.origin = some b → x.fail = none → x.acquire = none →
    (s.recordShared b (pendEntry x.reg x.lane) = none → exec (.pendingDivert f) s =
      .next ((s.drop f).fileEntry b (pendEntry x.reg x.lane) x.value (1 + if x.wide then 8 else 0))) ∧
    (∀ pa, s.recordShared b (pendEntry x.reg x.lane) = some pa → exec (.pendingDivert f) s = .next (s.invalidate pa))) ∧
  (∀ (s : State) f x k str c r, s.flight? f = some (.group x) → x.agent = .course k str → x.op = .redirect r → s.course? k = some c → ∃ u c',
    exec (.pendingRedirect f) s = .next u ∧ u.course? k = some c' ∧ c'.bound = (match c.bound with | some b => if b.same r then none else some b | none => none) ∧
    c'.earlier = c.earlier.filter (fun b => !b.same r) ∧ (c'.slot str).hold = .fence s.fresh ∧ c'.lanes = c.lanes ∧ u.mem = s.mem)

/-- R188, R194, R198, R294, R295, R315, R359: completed barriers release their waiters; a generation barrier takes its update in one event, or, its team gone, refuses it (R316); a waiting party's probe starts, travels, and is absorbed where a party does not wait. -/
def Sys2Proof.Spec.BarrierAndProbeEventsComplete : Prop :=
  (∀ (s : State) key b, exec (.barrierWaiterRelease true key b) s = .next (s.putWide key { s.wideBar key with unreleased := [] })) ∧
  (∀ (s : State) h b t, s.team? h = some t → exec (.barrierWaiterRelease false h b) s = .next (s.putBar h b { t.bar b with unreleased := [] })) ∧
  (∀ (s : State) f x h o bytes n m t, s.flight? f = some (.group x) → x.op = .barrier h o bytes n m → s.team? h = some t → s.refuses h = false →
    t.spPoisoned o 16 = false → exec (.genBarrierUpdate f) s =
    .next ((s.setTeam h (t.genUpdate o n (signedOf 32 bytes)).2).groupDone f (t.genUpdate o n (signedOf 32 bytes)).1 none)) ∧
  (∀ (s : State) f x h o bytes n m t, s.flight? f = some (.group x) → x.op = .barrier h o bytes n m → s.team? h = some t → s.refuses h = true →
    exec (.genBarrierUpdate f) s = .next (s.groupDone f 0 (some (.spGone, o, BitVec.ofNat 32 (t.core % 4))))) ∧
  (∀ (t : Team) o n (add : Int), SMap.sorted t.scratch = true →
    let w (i m : Nat) : Nat := ofBytes (t.spBytes (o + i) m)
    let r := t.genUpdate o n add
    let w' (i m : Nat) : Nat := ofBytes (r.2.spBytes (o + i) m)
    let arr := w 8 2 - n
    let bytes := ((w 4 4 + add) % 2 ^ 32).toNat
    r.1 = w 0 4 ∧ w' 4 4 = bytes ∧ w' 10 2 = w 10 2 ∧
      (arr = 0 ∧ bytes = 0 → w' 0 4 = (w 0 4 + 1) % 2 ^ 32 ∧ w' 8 2 = w 10 2) ∧ (¬ (arr = 0 ∧ bytes = 0) → w' 0 4 = w 0 4 ∧ w' 8 2 = arr)) ∧
  (∀ (s : State) k n es,
    let w := waiterOf k n
    let die := s.dieOfWaiter w
    let held := es.map fun e => (e.1, e.2.row, e.2.object)
    let now := (s.pkg (die / 8)).time
    let noted (x : Waiter × List (Nat × Nat × Nat) × (Nat × Nat) × Nat) : Bool := decide (x.1 = w) && decide (x.2.1 = held) && decide (x.2.2.1 = s.standing w)
    s.edgesOf w = some es →
    ((s.die die).edgeSince.find? noted = none → ∃ u, exec (.probeTimer k n) s = .next u ∧ (w, held, s.standing w, now) ∈ (u.die die).edgeSince ∧
      (u.die die).probes = (s.die die).probes ∧ u.mem = s.mem ∧ u.courses = s.courses) ∧
    (∀ x, (s.die die).edgeSince.find? noted = some x →
      let due := x.2.2.2 + 1000 * bitsOf (s.reg (die / 8) (distBase (die % 8) + 0x104)) 19 10
      (now < due → exec (.probeTimer k n) s = .next s) ∧
      (∀ ws, due ≤ now → endersOf es = some ws → exec (.probeTimer k n) s =
        .next (s.modDie die fun d => { d with probes := d.probes ++ [{ origin := w, seen := [w], front := ws }] })))) ∧
  (∀ (s : State) d i p x rest, (s.die d).probes[i]? = some p → p.front = x :: rest → p.seen.contains x = false →
    (∀ ws, (s.edgesOf x).bind endersOf = some ws → exec (.probe d i) s =
      .next (s.modDie d fun y => { y with probes := y.probes.set i { p with seen := p.seen ++ [x], front := rest ++ ws } })) ∧
    ((s.edgesOf x).bind endersOf = none → exec (.probe d i) s = .next (s.modDie d fun y => { y with probes := y.probes.eraseIdx i }))) ∧
  (∀ (s : State) d i p, (s.die d).probes[i]? = some p → p.front = [] → (∀ x ∈ p.seen, (s.edgesOf x).isSome = true) →
    exec (.probe d i) s = .next ((s.modDie d fun y => { y with probes := y.probes.eraseIdx i }).reportCycle d p))

/-- R245, R269, R281, R282, R352: a distributor with one ready queue places its head; a save, or a flush, completes once its team has stopped; a withheld flag whose count has come is applied; a closed batch retires.
That a flushed team's issued stores drain first is the model's reading (log 61). -/
def Obligations.TeamEventsComplete : Prop :=
  (∀ (s : State) d q x h s', (∀ kt ∈ s.teams, dieOfCore kt.2.core ≠ d) → (s.die d).queues = [(q, x)] → x.en = true → x.prio < 8 → s.headOf d q = some h → s.headReady d h = true →
    s.placeHead d h = some s' → ∃ u, exec (.admissionDecision d) s = .next u ∧ u.teams = s'.teams ∧ u.courses = s'.courses ∧ u.mem = s'.mem ∧ u.cores = s'.cores) ∧
  (∀ (s : State) h x, s.team? h = some x → s.protected h x = false → x.seq.pending = none → x.residency = .saving → x.flush = false →
    (∀ kc ∈ s.coursesOf h, kc.2.life = .endedSaved ∨ kc.2.life = .finished) → (∃ kc ∈ s.coursesOf h, kc.2.life = .endedSaved) →
    ∃ u t', exec (.saveComplete h) s = .next u ∧ u.team? h = some t' ∧ t'.residency = .saved ∧ t'.savedCore = x.core ∧ t'.scratch = [] ∧ u.mem = s.mem ∧
      ∀ k c, s.course? k = some c → k / 16 = h → c.life = .endedSaved → ∃ c', u.course? k = some c' ∧ c'.life = .saved) ∧
  (∀ (s : State) h x, s.team? h = some x → s.protected h x = false → x.seq.pending = none → x.residency = .resident → x.flush = true →
    (∀ kc ∈ s.coursesOf h, kc.2.entries.isEmpty = true) → ∃ u t', exec (.saveComplete h) s = .next u ∧ u.team? h = some t' ∧ t'.residency = .flushed ∧ u.mem = s.mem ∧
      ∀ k, k / 16 = h → u.course? k = none) ∧
  (∀ (s : State) p i k x count, (s.pkg p).flags[i]? = some k → k.dst = p →
    (k.lanes = [] ∧ x = k ∧ count = k.key ∨ ∃ q f, k.lanes.head? = some q ∧ q.flag = some f ∧ x = k.lane q ∧ count = f.count) →
    count ≤ SMap.getD (s.pkg p).uCount 0 (uKey k.src k.og) →
    (∀ j f, j < i → (s.pkg p).flags[j]? = some f → ¬ (f.src = k.src ∧ f.og = k.og ∧ f.dst = p)) →
    (s.unshared x.addr = false → exec (.flagApply p i) s = .next (s.invalidate x.addr)) ∧
    (s.unshared x.addr = true →
      let s1 := s.modPkg p fun y => { y with uCount := SMap.setD y.uCount 0 (uKey k.src k.og) (SMap.getD (s.pkg p).uCount 0 (uKey k.src k.og) - count) }
      let s2 := s1.logWrite x
      let s3 := (s2.performWrite x.addr x.bytes (s2.packetMark x) 2 k.core k.scope (s2.stampOf k) 0).2
      (k.lanes.length < 2 → exec (.flagApply p i) s = .next ((((s3.modPkg p fun y => { y with flags := y.flags.eraseIdx i }).itemDone k).returnCredits k.src k.dst k.credits).answer k
        { Packet.blank 0x06 k.src k.dst with addr := k.addr })) ∧
      (2 ≤ k.lanes.length → exec (.flagApply p i) s = .next ((match s3.pathOfPacket k with | some (path, key, _) => s3.itemLane path key | none => s3).modPkg p fun y =>
        { y with flags := y.flags.set i { k with lanes := k.lanes.drop 1 } })))) ∧
  (∀ (s : State) h x, s.team? h = some x → x.seq.retired ≠ x.seq.closed → x.seq.abandoned = false → ∃ u x', exec (.batchRetire h) s = .next u ∧ u.team? h = some x' ∧
    x'.seq.retired = x.seq.retired + 1#32 ∧ x'.seq.closed = x.seq.closed ∧ u.mem = s.mem ∧ u.courses = s.courses)

/-! # Events of the copy engine -/

/-- R205-R222: a copy writes one unit of its destination whole, with source chunks that it reads once (R217); a CPYW begins when its slot is empty; a copy whose data are written updates its
counter and then its target, and leaves the queue; a failed one updates and leaves too. R345: a counter in a poisoned line is left, and recorded.
How remote sources are read, and that a counter in another package is added to by an atomic, is the model's choice (log 34, log 39, log 109). -/
def Obligations.CopyEventsComplete : Prop :=
  (∀ (s : State) n u c, SMap.find? s.copies n = some c → c.phase = .moving → c.failed = none → c.token = none → c.done.contains u = false → c.units.contains u = true →
    (c.op = 0xA2 → exec (.copyChunkWrite n u) s = .next (s.weightPiece n u c)) ∧ (c.op = 0xA4 → exec (.copyChunkWrite n u) s = .next (s.registerRow n u c)) ∧
    (c.op ≠ 0xA2 → c.op ≠ 0xA4 →
      (let c' := s.readChunk c (c.chunk u)
       ∀ bs poi h o m win t, dstSp c.op c.flags = true → c.op ≠ 0xA6 → s.chunkValue c' (c'.chunk u) = .inl (bs, poi) → u < 2 ^ 40 → s.team? c'.team = some t →
        s.spTarget c'.team t u 0 = .inl (h, o, m, win) → exec (.copyChunkWrite n u) s =
          .next ((s.modTeam h fun t => t.writeChunk o bs poi).setCopy n (c'.mark u))) ∧
      (dstSp c.op c.flags = false → exec (.copyChunkWrite n u) s = .next (s.globalChunk n u c)))) ∧
  (∀ (s : State) c sp as, let c' := s.readSource c sp as
    { c' with cache := c.cache } = c ∧ ∀ k bs, SMap.find? c.cache k = some bs → SMap.find? c'.cache k = some bs) ∧
  (∀ (t : Team) o (bs : List (Option Byte)) i b, SMap.sorted t.scratch = true → bs[i]? = some (some b) → (t.writeChunk o bs false).spByte (o + i) = b) ∧
  (∀ (s : State) n c t, SMap.find? s.copies n = some c → c.op = 0xA2 → c.phase = .waiting → s.team? c.team = some t → fSlot c.flags < 8 → (t.slot (fSlot c.flags)).full = false →
    (∀ m x, (m, x) ∈ s.copies → m < n → x.team = c.team → x.op = 0xA2 → fSlot x.flags = fSlot c.flags → x.phase ≠ .waiting ∧ x.phase ≠ .moving) →
    exec (.cpywFillStart n) s = .next (s.setCopy n { c with phase := .moving })) ∧
  (∀ (s : State) n c, SMap.find? s.copies n = some c → c.token = none →
    (c.phase = .updating 0 → exec (.copyComplete n) s = .next (s.copyCounter n c)) ∧
    (c.phase = .updating 0 → fCE c.flags = false → exec (.copyComplete n) s = .next (s.setCopy n { c with phase := .updating 1 })) ∧
    (∀ t, c.phase = .updating 1 → s.team? c.team = some t → t.residency = .resident → ∃ u, exec (.copyComplete n) s = .next u ∧
      u.copies = SMap.del s.copies n ∧ u.mem = s.mem ∧ u.courses = s.courses ∧
      (fTE c.flags = false → u.teams = s.teams) ∧
      (fTE c.flags = true → dGen c.desc = false → u.teams = SMap.put s.teams c.team (t.spWrite (dTgt c.desc) (bytesOf 4 c.arrival.toNat))) ∧
      (fTE c.flags = true → dGen c.desc = true → u.teams = SMap.put s.teams c.team (t.genUpdate (dTgt c.desc) 0 (-(c.count : Int))).2))) ∧
  (∀ (s : State) n c pa leaf, SMap.find? s.copies n = some c → c.token = none → c.phase = .updating 0 → fCE c.flags = true → s.counterSent n = false →
    s.translate c.xlat (c.cntBase.toNat + 8 * dSlot c.desc) .atomic true = .ok pa leaf →
    let add := if fCU c.flags then 1 else c.count
    (pa / 2 ^ 48 = pkgOfCore c.core → s.poisoned pa = false → s.unshared pa = true → InPlace s pa (snapMark leaf) → SameKey s pa (leafKey leaf) →
      ∃ u, exec (.copyComplete n) s = .next u ∧ u.mem = s.mem.setMasked pa ((bytesOf 8 ((s.natAt pa 8 + add) % 2 ^ 64)).map some) ∧
        SMap.find? u.copies n = some { c with phase := .updating 1 }) ∧
    (pa / 2 ^ 48 = pkgOfCore c.core → s.poisoned pa = true →
      exec (.copyComplete n) s = .next ((s.counterRecord c .softErr).setCopy n { c with phase := .updating 1 })) ∧
    (pa / 2 ^ 48 ≠ pkgOfCore c.core → ∃ u g, exec (.copyComplete n) s = .next u ∧ u.flight? s.fresh = some (.atom g) ∧ g.copy = some n ∧ g.pa = pa ∧ g.op = 0 ∧
      g.et = .n64 ∧ g.size = 8 ∧ g.scope = 3 ∧ g.lanes.map AtomLane.x = [add] ∧ u.mem = s.mem ∧ u.copies = s.copies))

/-! # Power, clocks and monitors -/

/-- R303-R308: a slew step restarts the limiter's interval and never enables more than four sectors of a core; an estimate closes the quad's charge and moves its regulator by at most 10 mV; the kiln's interval ends. -/
def Sys2Proof.Spec.PowerLoopEventsComplete : Prop :=
  (∀ (s : State) q, ∃ u, exec (.slewStep q) s = .next u ∧ (u.quad q).excess = 0 ∧
    (u.quad q).level = s.weight (q / 192) (q / 24 % 8) (q % 24) 12 * (s.quad q).sectors.toList.foldl (· + ·) 0 + (s.quad q).excess / 4 ∧
    ((∀ i : Fin 4, (s.quad q).sectors[i] ≤ 4) → ∀ i : Fin 4, (u.quad q).sectors[i] ≤ 4) ∧ u.mem = s.mem ∧ u.dev = s.dev ∧ u.courses = s.courses ∧
    ∀ r, r ≠ q → u.quad r = s.quad r) ∧
  (∀ (s : State) q temp, ∃ u, exec (.powerEstimate q temp) s = .next u ∧ (u.quad q).charge = 0 ∧ (u.quad q).lastCharge = (s.quad q).charge ∧ u.mem = s.mem ∧ u.courses = s.courses) ∧
  (∀ v t, let x := slewMv v t
    x ≤ v + 10 ∧ v ≤ x + 10 ∧ (v ≤ t → v ≤ x ∧ x ≤ t) ∧ (t ≤ v → t ≤ x ∧ x ≤ v)) ∧
  (∀ (s : State) d, ∃ u, exec (.kilnUpdate d) s = .next u ∧ (∀ q, q < 24 → (u.quad (24 * d + q)).issues = 0 ∧ (u.quad (24 * d + q)).cycles = 0) ∧ u.mem = s.mem ∧
    ((s.reg (d / 8) (pwrBase (d % 8))).testBit 0 = false → u.dev = s.dev ∧ u.teams = s.teams ∧ u.courses = s.courses)) ∧
  (∀ (i e kp ki vref : Int) (vtgt vmin vmax : Nat), vmin ≤ vmax → vmin % 5 = 0 → - (2 ^ 24) ≤ i → i ≤ 2 ^ 24 - 1 →
    let r := piStep i e kp ki vref vtgt vmin vmax
    vmin ≤ r.2 ∧ r.2 ≤ vmax ∧ r.2 % 5 = 0 ∧ - (2 ^ 24) ≤ r.1 ∧ r.1 ≤ 2 ^ 24 - 1)

/-- R318-R320, R386: SAFE follows the power microcontroller's heartbeats; the comparators bound each quad, and temperature does, from 105 °C until it is below 100 °C; monitors sample and clear; a stack of HBM is throttled from
95 °C until it is below 90 °C. -/
def Sys2Proof.Spec.LimitAndMonitorEventsComplete : Prop :=
  (∀ (s : State) p, RegsInOrder s → ∃ a b, exec (.heartbeatMiss p) s = .next a ∧ exec (.imageUpdateAnnounce p) s = .next b ∧
    (∀ d, d < 8 → (a.reg p (pwrBase d + 4)).testBit 29 = true ∧ (b.reg p (pwrBase d + 4)).testBit 29 = true) ∧
    exec (.pmcHeartbeat p false) s = .next s ∧ ((s.pkg p).held = true → exec (.pmcHeartbeat p true) s = .next s) ∧
    ((s.pkg p).held = false → ∃ c, exec (.pmcHeartbeat p true) s = .next c ∧ (c.pkg p).booting = false ∧ c.mem = s.mem ∧
      ∀ d, d < 8 → (c.reg p (pwrBase d + 4)).testBit 29 = false)) ∧
  (∀ (s : State) p, RegsInOrder s → ∃ a b, exec (.comparatorTrip p) s = .next a ∧ exec (.comparatorRelease p) s = .next b ∧ ∀ d q, d < 8 → q < 24 →
    (a.reg p (quadBase d q + 4)).testBit 30 = true ∧ bitsOf (a.reg p (quadBase d q + 4)) 9 0 = 550 ∧ (a.quad (192 * p + 24 * d + q)).integral = 0 ∧
    (b.reg p (quadBase d q + 4)).testBit 30 = false) ∧
  (∀ (s : State) q, let base := quadBase (q / 24 % 8) (q % 24)
    let after := fun b temp => (s.setReg (q / 192) (base + 4) (setBits (s.reg (q / 192) (base + 4)) 29 29 b)).modQuad q fun x => { x with temp := temp }
    (∃ temp, 105 ≤ temp ∧ exec (.thermalThrottle q) s = .next (after 1 temp)) ∧ ∃ temp, temp < 100 ∧ exec (.thermalThrottleRelease q) s = .next (after 0 temp)) ∧
  (∀ (s : State) q (ch : Fin 8) v, (s.quad q).monitors[ch].en = true → ∃ u, exec (.monitorSample false q ch v) s = .next u ∧
    let m := (s.quad q).monitors[ch]
    let m' := (u.quad q).monitors[ch]
    (∀ x, s.sampleOf false q v m = some x → x < 2 ^ 32 →
      m'.min.toNat ≤ m.min.toNat ∧ m.max.toNat ≤ m'.max.toNat ∧ m'.count = (if m.count = 0xFFFFFFFF#32 then m.count else m.count + 1#32)) ∧
    (s.sampleOf false q v m = none → m' = m) ∧ u.mem = s.mem) ∧
  (∀ (s : State) q (ch : Fin 8), ∃ u, exec (.monitorClr false q ch) s = .next u ∧ (u.quad q).monitors[ch] = (s.quad q).monitors[ch].write 6 1 ∧ u.mem = s.mem) ∧
  (∀ (s : State) p stack, ∃ a b x y, exec (.hbmThermalThrottle p stack) s = .next a ∧ exec (.hbmThermalRelease p stack) s = .next b ∧
    stack ∈ (a.pkg p).hbmHot ∧ SMap.find? (a.pkg p).hbmTemp stack = some x ∧ 95 ≤ x ∧ a.mem = s.mem ∧ stack ∉ (b.pkg p).hbmHot ∧ SMap.find? (b.pkg p).hbmTemp stack = some y ∧
    y < 90 ∧ b.mem = s.mem)

/-- R316, R317: ingress closes on a core without teams; an idle quad is gated, its L1s and rail going, and a gated quad with a placement powers up at VMIN. -/
def Sys2Proof.Spec.GatingEventsComplete : Prop :=
  (∀ (s : State) c, s.teamsOn c = [] → exec (.scratchpadIngressClose c) s = .next (s.modCore c fun x => { x with ingressClosed := true })) ∧
  (∀ (s : State) q, (∀ i, i < 4 → (s.core (4 * q + i)).ingressClosed = true ∧ (s.core (4 * q + i)).path = [] ∧ s.teamsOn (4 * q + i) = []) → s.gated q = false →
    (s.quad q).idleSince + 100000 ≤ (s.pkg (q / 192)).time → RegsInOrder s → ∃ u, exec (.quadGate q) s = .next u ∧
      (∀ i, i < 4 → (u.core (4 * q + i)).l1 = []) ∧ u.gated q = true ∧ bitsOf (u.reg (q / 192) (quadBase (q / 24 % 8) (q % 24) + 4)) 19 10 = 0) ∧
  (∀ (s : State) q i, i < 4 → s.teamsOn (4 * q + i) ≠ [] → s.gated q = true → RegsInOrder s → ∃ u, exec (.quadPowerUp q) s = .next u ∧ u.gated q = false ∧
    bitsOf (u.reg (q / 192) (quadBase (q / 24 % 8) (q % 24) + 4)) 19 10 = bitsOf (s.reg (q / 192) (quadBase (q / 24 % 8) (q % 24) + 0x10)) 9 0)

/-! # Hosts and resets -/

/-- R378-R383: a kick takes a free slot and reads it; a checked packet joins the lists of its dies when each has room, whatever other kicks wait for full ones; an idle control core starts its oldest packet,
from the packet's registers; the keystone goes to one port at a time, which is answered, and lapses; a host reads and writes memory, a write waiting behind its port's earlier ones and for other packages' copies to
go, and reads registers; register writes come from hosts and the microcontroller; what a port receives while its writes wait is behind them.
A host's read of poisoned data, and how long its writes wait, is the model's reading (log 66, log 113). -/
def Obligations.HostEventsComplete : Prop :=
  (∀ (s : State) p port v, s.hostAnswers p = true → port < 2 → v < 2 ^ 64 → bitsOf v 31 5 = 0 → (s.reg p (portBase port + 0x0C)).testBit (v % 32) = false →
    let k : Kick := { port := port, slot := v % 32, seq := v / 2 ^ 32, reads := 0, checked := none }
    let w : HostWrite := { port := port, pa := regPa p (portBase port), key := 0, bytes := bytesOf 8 v }
    let s1 := s.modPkg p fun x => { x with hostWrites := x.hostWrites ++ [w] }
    (s.portWaits p port = true → exec (.kick p port v) s = .next s1) ∧
    (s.portWaits p port = false → exec (.kick p port v) s =
      .next ((((s1.setReg p (portBase port + 0x0C) (setBits (s1.reg p (portBase port + 0x0C)) (v % 32) (v % 32) 1)).modPkg p fun x => { x with kicks := x.kicks ++ [k] }).kickRead p k).modPkg p fun x =>
        { x with hostWrites := x.hostWrites.erase w }))) ∧
  (∀ (s : State) p i k, (s.pkg p).kicks[i]? = some k → k.checked = none →
    let b := s.slotBytes p k.port k.slot
    packetField b 0x38 4 = k.seq → packetField b 0x3C 2 = crc16 (b.take 0x3C) → packetField b 0x10 1 ≠ 0 → packetField b 0x11 3 = 0 → packetField b 0x3E 2 = 0 → packetField b 0 8 % 4 = 0 →
    ∃ u k', exec (.kickSlotRead p i) s = .next u ∧ (u.pkg p).kicks[i]? = some k' ∧ k'.checked = some b ∧ u.mem = s.mem) ∧
  (∀ (s : State) p i k b, (s.pkg p).kicks[i]? = some k → k.checked = some b → (∀ d ∈ packetDies p b, (s.die d).pending.length < 64) →
    (∀ j y b', j < i → (s.pkg p).kicks[j]? = some y → y.checked = some b' →
      (∀ d ∈ packetDies p b', d ∉ packetDies p b) ∨ ∃ d ∈ packetDies p b', 64 ≤ (s.die d).pending.length) →
    exec (.kickAppend p i) s = .next ((((packetDies p b).foldl (fun s d => s.modDie d fun y => { y with pending := y.pending ++ [b] }) s).setReg p (portBase k.port + 0x10) k.seq).kickOver p k)) ∧
  (∀ (s : State) d b rest, (s.die d).pending = b :: rest → (s.die d).kcore.running = false → (s.reg (d / 8) (pkgBase + 0x10)).testBit (d % 8) = true →
    (s.reg (d / 8) (distBase (d % 8) + 0x14)).testBit 1 = false → ∃ u, exec (.packetStart d) s = .next u ∧ (u.die d).pending = rest ∧ (u.die d).kcore.running = true ∧
      (u.die d).kcore.pc = BitVec.ofNat 64 (packetField b 0 8) ∧ (u.die d).kcore.sc.reg 0 = BitVec.ofNat 32 (packetField b 8 4) ∧ (u.die d).kcore.sc.reg 1 = BitVec.ofNat 32 (packetField b 0xC 4) ∧
      (∀ i, 2 ≤ i → i ≤ 10 → (u.die d).kcore.sc.reg i = BitVec.ofNat 32 (packetField b (0x14 + 4 * (i - 2)) 4)) ∧ (∀ i, 11 ≤ i → i < 32 → (u.die d).kcore.sc.reg i = 0#32) ∧ u.mem = s.mem) ∧
  (∀ (s : State) p port, s.portWaits p port = true → exec (.keystoneRead p port) s = .next s) ∧
  (∀ (s : State) p port, port < 2 → s.hostAnswers p = true → s.portWaits p port = false → ∃ a b m, exec (.keystoneRead p port) s = .next a ∧ exec (.keystoneRelease p port) s = .next b ∧
    a.outbox = s.outbox ++ [m] ∧ m.kind = 3 ∧ m.info = [port, 0] ∧ m.bytes.length = 4 ∧
    ((s.pkg p).owner = none → (a.pkg p).keyOwner = some port ∧ (a.pkg p).keyLease = (s.pkg p).time + 100000000) ∧
    (∀ q, (s.pkg p).owner = some q → q ≠ port → a.pkg p = s.pkg p ∧ b.pkg p = s.pkg p) ∧ ((s.pkg p).owner = some port → (b.pkg p).keyOwner = none)) ∧
  (∀ (s : State) p, (s.pkg p).keyLease ≤ (s.pkg p).time → exec (.keystoneLeaseExpiry p) s = .next (s.modPkg p fun x => if x.time < x.keyLease then x else { x with keyOwner := none })) ∧
  (∀ (s : State) p port o n (data : List Byte), port < 2 → o < 2 ^ 36 → s.hostAnswers p = true →
    let win := s.reg p (portBase port + 0x18)
    let key := bitsOf win 11 0
    let pa := (bitsOf win 31 16 * 2 ^ 36 + o) % 2 ^ 52
    let y : HostWrite := { port := port, pa := pa, key := key, bytes := data }
    let waits := s.portWaits p port
    s.hostBarred pa key = false → isDevice pa = false →
    (data ≠ [] → pa % 128 + data.length ≤ 128 →
      (waits = true → exec (.hostMemoryAccess p port o n true data) s = .next (s.modPkg p fun x => { x with hostWrites := x.hostWrites ++ [y] })) ∧
      (waits = false → s.unshared pa = true → s.forward pa = pa → SameKey s pa key → ∃ u, exec (.hostMemoryAccess p port o n true data) s = .next u ∧
        u.mem = s.mem.setMasked pa (data.map some) ∧ (u.pkg p).hostWrites = (s.pkg p).hostWrites ∧ u.courses = s.courses ∧ u.dev = s.dev) ∧
      (waits = false → s.unshared pa = false → ∃ u, exec (.hostMemoryAccess p port o n true data) s = .next u ∧
        (u.pkg p).hostWrites = (s.pkg p).hostWrites ++ [y] ∧ u.mem = s.mem)) ∧
    (waits = true → exec (.hostMemoryAccess p port o n false data) s = .next s) ∧
    (waits = false → 1 ≤ n → pa % 128 + n ≤ 128 → s.poisoned pa = false → exec (.hostMemoryAccess p port o n false data) s = .next (s.hostAnswer p port (s.bytesUnder pa n key) false))) ∧
  (∀ (s : State) p port o n, port < 2 → o < 2 ^ 32 → s.hostAnswers p = true → s.portWaits p port = false → 1 ≤ n → regPa p o % 128 + n ≤ 128 → isDevice (regPa p o) = true →
    s.hostBarred (regPa p o) (bitsOf (s.reg p (portBase port + 0x18)) 11 0) = false →
    exec (.hostMemoryAccess p (port + 2) o n false []) s = .next (s.hostRead p port (regPa p o) n)) ∧
  (∀ (s : State) p src off size v, src ≤ 2 → (src ≠ 2 → s.hostAnswers p = true) → off < 2 ^ 32 → (size = 4 ∨ size = 8) → off % size = 0 → secureOnly (regPa p off) = false → v < 2 ^ (8 * size) →
    let w : HostWrite := { port := src, pa := regPa p off, key := 0, bytes := bytesOf size v }
    let s1 := s.modPkg p fun x => { x with hostWrites := x.hostWrites ++ [w] }
    (src = 2 → exec (.registerWrite p src off size v) s = .next (s.devWrite (regPa p off) size v .micro)) ∧
    (src ≠ 2 → s.portWaits p src = true → exec (.registerWrite p src off size v) s = .next s1) ∧
    (src ≠ 2 → s.portWaits p src = false → exec (.registerWrite p src off size v) s =
      .next ((s1.devWrite (regPa p off) size v (.host src)).modPkg p fun x => { x with hostWrites := x.hostWrites.erase w })))

/-- R384-R386: power-on, PKGRST, the microcontroller's watchdog and a thermal trip reset the package, naming the cause, the last holding it, and its bring-up begins; a port reset clears that port's block.
The credits kept over a reset, and that bring-up lasts to the first heartbeat, are the model's reading (log 23, log 113). -/
def Obligations.ResetEventsComplete : Prop :=
  (∀ (s : State) p, ∃ a b c d, exec (.powerOn p) s = .next a ∧ exec (.pkgrstWrite p) s = .next b ∧ exec (.pmcWatchdogReset p) s = .next c ∧ exec (.thermalTrip p) s = .next d ∧
    PkgReset s a p 1 ∧ PkgReset s b p 4 ∧ PkgReset s c p 8 ∧ PkgReset s d p 2 ∧ (d.pkg p).held = true) ∧
  (∀ (s : State) p port, port < 2 → ∃ u, exec (.portReset p port) s = .next u ∧ (∀ k ∈ (u.pkg p).kicks, k.port ≠ port) ∧ (u.pkg p).keyOwner ≠ some port ∧
    (∀ o, o < 0x1000 → u.reg p (portBase port + o) = (regInfo (portBase port + o)).reset) ∧ u.mem = s.mem ∧ u.courses = s.courses)

/-- R388-R394: the drain reads each line of the map once, as its shadow has it; with every line drained STATUS is 2 and the engine idle, the image on its way; a load that succeeds writes its lines, and one that fails sets STATUS. -/
def Sys2Proof.Spec.SnapshotEventsComplete : Prop :=
  ∀ (s : State) p, let sn := (s.pkg p).snap
    (∀ i l, rangeLine sn.ranges i = some l → sn.state = .draining → SMap.find? sn.drained i = none → (s.pkg p).snapRoute = true → s.poisoned (sn.mapBase + i) = false → s.memWf →
      (∀ n bs, (s.ownByte (sn.mapBase + i)).toNat = sn.pgen → s.shadowOf sn l = some (n, bs) → s.recordLost (sn.shadow + 160 * n) = false →
        ∃ u, exec (.snapshotDrainLine p i) s = .next u ∧ SMap.find? (u.pkg p).snap.drained i = some bs ∧ u.mem = s.mem ∧ u.courses = s.courses ∧
          (u.pkg p).snap.drainPoison = if sn.shPoison.contains n then sn.drainPoison ++ [i] else sn.drainPoison) ∧
      ((s.ownByte (sn.mapBase + i)).toNat ≠ sn.pgen ∨ s.shadowOf sn l = none →
        ∃ u, exec (.snapshotDrainLine p i) s = .next u ∧ SMap.find? (u.pkg p).snap.drained i = some (s.ownBytesAt l 128) ∧ u.courses = s.courses ∧
          (NoneMoves s → SameKey s (sn.mapBase + i) (s.line (sn.mapBase + i)).key →
            (sn.pgen < 256 → (u.mem.byte (sn.mapBase + i)).toNat = sn.pgen) ∧ ∀ a, a ≠ sn.mapBase + i → u.mem.byte a = s.mem.byte a) ∧
          (u.pkg p).snap.drainPoison = if s.poisoned l then sn.drainPoison ++ [i] else sn.drainPoison)) ∧
    (sn.state = .draining → sn.drained.length = rangeLines sn.ranges → (∀ i, i < sn.logRecs → s.recordLost (sn.log + 160 * i) = false) → s.memWf → NoneMoves s → sn.statusPa % 4 = 0 → ∃ u m, exec (.snapshotDone p) s = .next u ∧ (u.pkg p).snap.state = .idle ∧
      u.mem.bytes sn.statusPa 4 = bytesOf 4 2 ∧ u.outbox = s.outbox ++ [m] ∧ m.bytes = s.snapImage p) ∧
    (sn.state = .loading → s.memWf → NoneMoves s → sn.statusPa % 4 = 0 → SameKey s sn.statusPa (s.line sn.statusPa).key → ∃ u, exec (.snapshotLoadComplete p false [] []) s = .next u ∧ (u.pkg p).snap.state = .idle ∧ u.mem.bytes sn.statusPa 4 = bytesOf 4 (3 * 256 + 3) ∧
      ∀ a, (a < sn.statusPa ∨ sn.statusPa + 4 ≤ a) → u.mem.byte a = s.mem.byte a) ∧
    (∀ b n image j, sn.state = .loading → sn.ranges = [(b, 128 * n)] → j < n → s.unshared (b + 128 * j) = false →
      ∃ l', exec (.snapshotLoadComplete p true image []) s = .next (s.invalidate l') ∧ s.unshared l' = false ∧ ∃ i, i < n ∧ l' = b + 128 * i) ∧
    (∀ b n image, sn.state = .loading → s.memWf → sn.ranges = [(b, 128 * n)] → b % 128 = 0 → NoneMoves s → SMap.sorted s.dir = true → (∀ i, i < n → s.unshared (b + 128 * i) = true) →
      image.length = 128 * n → sn.statusPa % 4 = 0 → (sn.statusPa + 4 ≤ b ∨ b + 128 * n ≤ sn.statusPa) → ∃ u, exec (.snapshotLoadComplete p true image []) s = .next u ∧ (u.pkg p).snap.state = .idle ∧
      u.mem.bytes sn.statusPa 4 = bytesOf 4 2 ∧ u.mem.bytes b (128 * n) = image)

/-! # Optical ports -/

/-- R398, R399, R402: the state machine of a port: lock and deskew with the peer's light, authentication, their time-outs, loss of channels and errors, each with the next state, LAST and the channels. That a
peer of this wall has no light while it is dark or in quarantine, and goes live with its own end, is the model's reading (log 70). -/
def Sys2Proof.Spec.PortEventsComplete : Prop :=
  ∀ (s : State) p n, p < 16 → n < 48 →
    let x := s.pkg p
    let y := x.port n
    let goes (i : Instr) (st : PortState) (last live : Nat) : Prop := ∃ u, exec i s = .next u ∧ PortIs s u p n st last live
    let late : Prop := ∃ e ∈ portEngines n, (x.engine e).mcRun = false ∧ (x.engine e).downSince + 50000000 ≤ x.time
    let expired : Prop := (y.state = .hold ∨ (y.state = .locking ∧ y.awaitMc = true)) ∧ late
    (y.state = .locking → y.awaitMc = false →
      (∀ ch, portNeeds n ≤ ch → s.lit p n = true → x.time ≤ y.since + 1500000 → goes (.lockAchieved p n ch) .trained y.last (min (portChannels n) ch)) ∧
      (∀ ch, s.lit p n = false → exec (.lockAchieved p n ch) s = .next s) ∧
      (y.since + 1500000 ≤ x.time → goes (.lockTimeout p n) .dark 1 0)) ∧
    (y.state = .trained → (s.lit p n = true → x.time ≤ y.since + 120000 → goes (.deskewDone p n) (if n = 32 then .live else .authenticating) y.last y.live) ∧
      (y.since + 120000 ≤ x.time → goes (.trainTimeout p n) .dark 2 0)) ∧
    (y.state = .authenticating → (x.time < y.since + 80000 →
        ((∀ q m, s.peerPort p n = some (q, m) → ((s.pkg q).port m).state = .live) → goes (.authSuccess p n) .live y.last y.live) ∧
        (∀ q m, s.peerPort p n = some (q, m) → ((s.pkg q).port m).state = .authenticating → (s.pkg q).time < ((s.pkg q).port m).since + 80000 →
          ∃ u, exec (.authSuccess p n) s = .next u ∧ ((u.pkg p).port n).state = .live ∧ ((u.pkg q).port m).state = .live ∧ u.courses = s.courses ∧ u.teams = s.teams)) ∧
      goes (.authFailure p n) .quarantine 3 0 ∧ (y.since + 80000 ≤ x.time → goes (.authTimeout p n) .quarantine 3 0)) ∧
    (∀ w, y.state = .live ∨ y.state = .hold → ¬ expired → bitsOf (s.reg p optBase) 31 24 < w → goes (.errorWindowExceeded p n w) .locking 4 y.live) ∧
    (0 < y.live → ¬ expired → (portNeeds n < y.live → goes (.channelLockLoss p n) y.state y.last (y.live - 1)) ∧
      (y.live ≤ portNeeds n → (y.state = .live → goes (.channelLockLoss p n) .locking y.last (y.live - 1)) ∧
        (y.state = .trained ∨ y.state = .authenticating → goes (.channelLockLoss p n) .dark 2 0))) ∧
    (y.state ≠ .dark → y.state ≠ .quarantine → ¬ expired → goes (.channelRelock p n) y.state y.last (min (portChannels n) (y.live + 1))) ∧
    (32 ≤ n → y.state = .dark → x.mcRuns n = true → x.linksUp n = true → y.since + 10000000 ≤ x.time → goes (.wallLinkRestart p n) .locking y.last y.live) ∧
    (expired → goes (.holdExpiry p n) .dark 5 0) ∧
    (y.state = .quarantine → y.since + 1000000 * bitsOf (s.reg p (optBase + 4)) 15 0 ≤ x.time →
      (∀ b z, x.barOf n = some (b, z) → ∀ kc ∈ s.copies, kc.2.bar = some b → pkgOfCore kc.2.core = p → kc.2.failed = none) →
      goes (.quarantineExit p n) .dark y.last 0) ∧
    (∀ q, ¬ expired → ∃ u, exec (.flitAck p n q) s = .next u ∧ PortIs s u p n y.state y.last y.live ∧ ∀ f, f ∈ ((u.pkg p).port n).unacked ↔ f ∈ y.unacked ∧ q < f.1)

/-- R396, R399, R403: a UCIe link down takes its ports dark with LAST 5; a microcontroller's reset holds live ports and takes those before live dark with LAST 6, and its return within 50 ms frees them; a heater's margins are latched
while its port is in hold. -/
def Sys2Proof.Spec.EngineEventsComplete : Prop :=
  ∀ (s : State) p e, p < 16 → e < 16 →
    let was (n : Nat) := (s.pkg p).port n
    (∃ u, exec (.ucieLinkUp p e) s = .next u ∧ ((u.pkg p).engine e).ucUp = true ∧ ∀ n, (u.pkg p).port n = was n) ∧
    (∃ u, exec (.ucieLinkDown p e) s = .next u ∧ ((u.pkg p).engine e).ucUp = false ∧ ∀ n,
      (n ∈ enginePorts e → ((u.pkg p).port n).state = .dark ∧ ((was n).state ≠ .dark → ((u.pkg p).port n).last = 5)) ∧ (n ∉ enginePorts e → (u.pkg p).port n = was n)) ∧
    (∃ u, exec (.mcWatchdogReset p e) s = .next u ∧ ((u.pkg p).engine e).mcRun = false ∧ ((u.pkg p).engine e).wdog = min 255 (((s.pkg p).engine e).wdog + 1) ∧ ∀ n,
      (n ∈ enginePorts e → ((was n).state = .live → ((u.pkg p).port n).state = .hold) ∧
        ((was n).state = .locking ∨ (was n).state = .trained ∨ (was n).state = .authenticating → ((u.pkg p).port n).state = .dark ∧ ((u.pkg p).port n).last = 6) ∧
        ((was n).state = .dark ∨ (was n).state = .quarantine ∨ (was n).state = .hold → (u.pkg p).port n = was n)) ∧ (n ∉ enginePorts e → (u.pkg p).port n = was n)) ∧
    (∃ u, exec (.mcReturn p e) s = .next u ∧ ((u.pkg p).engine e).mcRun = true ∧ ∀ n,
      (n ∈ enginePorts e → (was n).state = .hold →
        ((∃ f ∈ portEngines n, ((s.pkg p).engine f).mcRun = false ∧ ((s.pkg p).engine f).downSince + 50000000 ≤ (s.pkg p).time) →
          ((u.pkg p).port n).state = .dark ∧ ((u.pkg p).port n).last = 5) ∧
        ((∀ f ∈ portEngines n, ((s.pkg p).engine f).mcRun = false → (s.pkg p).time < ((s.pkg p).engine f).downSince + 50000000) → (u.pkg p).mcRuns n = true →
          ((u.pkg p).port n).state = (if (was n).live < portNeeds n then .locking else .live))) ∧
      (n ∉ enginePorts e → (u.pkg p).port n = was n)) ∧
    (∀ ch tx rx, ch < 64 → ∃ u, exec (.heaterMarginChange p e ch tx rx) s = .next u ∧
      ((was (sendPort e ch)).state = .hold → (was (receivePort e ch)).state = .hold → u = s) ∧
      (¬ ((was (sendPort e ch)).state = .hold ∧ (was (receivePort e ch)).state = .hold) → SMap.sorted ((s.pkg p).engine e).margins = true →
        let old := SMap.getD ((s.pkg p).engine e).margins (50, 50) ch
        SMap.getD ((u.pkg p).engine e).margins (50, 50) ch =
          (if (was (sendPort e ch)).state = .hold then old.1 else min 50 tx, if (was (receivePort e ch)).state = .hold then old.2 else min 50 rx)))

/-! # The wall fabric -/

/-- R325, R345, R408: a read arriving at its home is answered with its line, poison with it, and the reader's package is noted as holding it; the answer gives the waiting load its value and frees the tag; an acknowledgement lowers the entry's
counter, an invalidation drops the copy and its answer clears it at the home. -/
def Sys2Proof.Spec.ReadsAndAnswersCrossTheWall : Prop :=
  (∀ (s : State) n k, Arrives s n 0x01 k → isDevice k.addr = false → k.src < 16 → (k.stamp ≠ 0 → s.scTime k.addr k.stamp true < 2 ^ 50) →
    ∃ u, exec (.readRequest n) s = .next u ∧ u.mem = s.mem ∧ u.teams = s.teams ∧ u.dev = s.dev ∧
    (u.line k.addr).psh.getLsbD k.src = true ∧ ∃ m r, SMap.find? u.packets m = some r ∧ r.type = 0x02 ∧ r.dst = k.src ∧ r.src = k.dst ∧ r.tag = k.tag ∧
      r.poi = s.poisoned k.addr ∧ r.payload = s.bytesUnder (128 * lineOf k.addr) 128 k.key) ∧
  (∀ (s : State) n r t m x, Answers s n 0x02 r t → t.serves = .flight m → s.flight? m = some (.load x) → x.sc = none → r.poi = false → r.payload.length = 128 →
    x.pa % 128 + x.size ≤ 128 → (∀ f ∈ x.fwd, f = none) →
    ∃ u, exec (.readReply n) s = .next u ∧ u.flight? m = some (.load { x with got := some (ofBytes ((r.payload.drop (x.pa % 128)).take x.size)) }) ∧ u.mem = s.mem ∧
      u.courses = s.courses) ∧
  (∀ (s : State) n r t path key owner scope, Answers s n 0x06 r t → t.serves = .write path key owner scope →
    ∃ u m, exec (.acknowledgement n) s = .next u ∧ u.flight? m = some (.ack owner scope r.stamp key) ∧ u.mem = s.mem ∧ u.courses = s.courses) ∧
  (∀ (s : State) n r t m g k str lv reg, Answers s n 0x08 r t → t.serves = .flight m → s.flight? m = some (.atom g) → g.owner = .course k str → r.poi = false →
    lv ∈ replyValues g.lanes r.payload → lv.1.reg = some reg → g.copy = none →
    ∃ u a y, exec (.atomicReply n) s = .next u ∧ u.flight? a = some (.value y) ∧ y.key = k ∧ y.lane = lv.1.lane ∧ y.reg = reg ∧ y.value = lv.2 ∧ u.mem = s.mem) ∧
  (∀ (s : State) n k, Arrives s n 0x0B k → ∃ u, exec (.invalidate n) s = .next u ∧ Answered u k 0x0C ∧ u.mem = s.mem ∧ u.dir = s.dir) ∧
  (∀ (s : State) n r t line d, Answers s n 0x0C r t → t.serves = .inval line → SMap.find? s.dir line = some d → ∃ u, exec (.invalidateAck n) s = .next u ∧ u.mem = s.mem ∧
    SMap.find? u.dir line = some { d with psh := d.psh &&& ~~~(BitVec.ofNat 16 (2 ^ t.pkt.dst)) }) ∧
  (∀ (s : State) n k, Arrives s n 0x0D k → s.pathClear k.core k.stamp = true → ∃ u, exec (.promoteRequest true n) s = .next u ∧ Answered u k 0x0E ∧ u.mem = s.mem) ∧
  (∀ (s : State) n r t m load core up b, Answers s n 0x0E r t → t.serves = .promote m → s.flight? m = some (.promote load core up b) →
    ∃ u, exec (.promoteAnswer true n) s = .next u ∧ u.flight? m = some (.promoted load) ∧ u.mem = s.mem)

/-- R263, R269, R390, R408, R409: a write, chunk, joint or atomic arriving at its home is performed whole on its bytes and answered, and U counts it where it is counted; an SC store of several lanes is
performed one lane after another, and counted once (log 107); a flag is withheld; an armed engine holds a write of a greater step (R392). -/
def Sys2Proof.Spec.WritesCrossTheWall : Prop :=
  (∀ (s : State) n k i type, (i, type) ∈ [(Instr.writePlain n, 0x03), (.writeRelease n, 0x04), (.writeSc n, 0x05)] → Performs s n type k →
    InPlace s k.addr (s.packetMark k) → SameKey s k.addr k.key → s.atomOf k = none → (type = 0x05 → s.scTime k.addr (s.scStart k.core k.stamp) false < 2 ^ 50) → k.lanes = [] →
    SMap.sorted (s.pkg k.dst).uCount = true → ∃ u, exec i s = .next u ∧ u.mem = s.mem.setMasked k.addr k.bytes ∧ Answered u k 0x06 ∧
      SMap.getD (u.pkg k.dst).uCount 0 (uKey k.src k.og) = (SMap.getD (s.pkg k.dst).uCount 0 (uKey k.src k.og) + 1) % 2 ^ 32 ∧
      u.courses = s.courses ∧ (type ≠ 0x05 → u.dev = s.dev)) ∧
  (∀ (s : State) n k p rest, Performs s n 0x05 k → k.lanes = p :: rest → InPlace s (k.addr + p.off) (s.packetMark k) → SameKey s (k.addr + p.off) k.key → s.atomOf k = none →
    s.scTime k.addr (s.scStart k.core k.stamp) false < 2 ^ 50 → ∃ u, exec (.writeSc n) s = .next u ∧ u.mem = s.mem.setMasked (k.addr + p.off) (p.bytes.map some) ∧
      (rest = [] → Answered u k 0x06) ∧ (rest ≠ [] → SMap.find? u.packets n = some { k with lanes := rest } ∧ (u.pkg k.dst).uCount = (s.pkg k.dst).uCount) ∧ u.courses = s.courses) ∧
  (∀ (s : State) n k i type, (i, type) ∈ [(Instr.copyChunk n, 0x0F), (.jointWrite n, 0x11)] → Performs s n type k → (∀ q ∈ k.parts, InPlace s q.addr (s.packetMark q) ∧ SameKey s q.addr q.key) → s.atomOf k = none →
    (type = 0x0F → ∀ m c lo, s.copyOfPacket k = some (m, c, lo) → (∀ r ∈ s.runsThere m k.dst, r.1 = n) ∧ (k.within lo (c.ready (s.runsThere m k.dst) k lo) false).mask.any id = false) →
    ∃ u, exec i s = .next u ∧ u.mem = k.parts.foldl (fun m q => m.setMasked q.addr q.bytes) s.mem ∧ Answered u k 0x06 ∧ u.courses = s.courses ∧ u.dev = s.dev) ∧
  (∀ (s : State) n k t m g i type reply, (i, type, reply) ∈ [(Instr.atomicRequest n, 0x07, 0x08), (.redPacket n, 0x09, 0x06)] → Performs s n type k → s.txOf k = some t →
    t.serves = .flight m → s.flight? m = some (.atom g) → g.version = none → s.poisoned k.addr = false → InPlace s k.addr (s.packetMark k) →
    SameKey s k.addr g.keyId → atomSplits g.op g.et = false → g.half = none → (g.order = .sc → s.scTime k.addr g.stamp false < 2 ^ 50) →
    (g.order ≠ .relaxed → s.promoting m = false ∧ s.promotionClear k.core k.addr g.scope = true) →
    let r := atomGroup g.op g.et g.ftz (ofBytes (s.bytesUnder k.addr g.size g.keyId)) g.lanes
    ∃ u, exec i s = .next u ∧ u.mem = s.mem.setMasked k.addr ((bytesOf g.size r.1).map some) ∧ Answered u k reply ∧ u.courses = s.courses) ∧
  (∀ (s : State) n k, Performs s n 0x0A k → s.atomOf k = none →
    ((s.pkg k.dst).flags.filter fun f => decide (f.dst = k.dst)).foldl (fun n f => n + max 1 f.lanes.length) 0 + max 1 k.lanes.length ≤ 256 →
    ∃ u, exec (.flagwPacket n) s = .next u ∧ k ∈ (u.pkg k.dst).flags ∧ u.mem = s.mem ∧ u.courses = s.courses) ∧
  (∀ (s : State) n k, Arrives s n 0x03 k → (s.pkg k.dst).snap.state = .armed → s.stepGreater k = true → k.freed = false → s.freedFirst n k = false →
    (heldBytes ((s.pkg k.dst).snap.held ++ [k]) ≤ 2 ^ 21 →
      ∃ u, exec (.writePlain n) s = .next u ∧ (u.pkg k.dst).snap.held = (s.pkg k.dst).snap.held ++ [k] ∧ u.mem = s.mem) ∧
    (2 ^ 21 < heldBytes ((s.pkg k.dst).snap.held ++ [k]) → exec (.writePlain n) s = .next s)) ∧
  (∀ (s : State) n k, Arrives s n 0x12 k → exec (.snapshotHeldNotice n) s = .next (s.leave n k)) ∧
  (∀ (s : State) n k, SMap.find? s.packets n = some k → k.det = false → k.bad = true → exec (.writePlain n) s = .next ((s.leave n k).countReg k.dst (wallBase + 0xC) 1))

/-- R410-R412, R415, R416: compressed headers, routes, and relays, which drop a packet when the second link is not live; a transaction unanswered for WTO, or whose route is gone, is asked about over the plane, found
performed or dead, and completed or reported as FABRIC; the SC clocks are cleared together.
That a transaction given up is never performed, and that an answer without a route waits, is the model's reading (log 17); so is the form of the messages on endpoint 13 (log 82). -/
def Obligations.FabricEventsComplete : Prop :=
  (∀ (s : State) p l (header : BitVec 128), let k := Packet.ofHeader header
    exec (.streamOpen p l (header.extractLsb' 0 16) (header.extractLsb' 16 16) (header.extractLsb' 32 32) (header.extractLsb' 64 52) (header.extractLsb' 116 12)) s = .next (s.modPkg p fun x => { x with ctxs := SMap.put x.ctxs (ctxKey l (k.key % 8)) k })) ∧
  (∀ (s : State) p l (header : DWord), let c := bitsOf header.toNat 15 8
    let i := Instr.compressedPacket p l (header.extractLsb' 0 16) (header.extractLsb' 16 16) (header.extractLsb' 32 32)
    (∀ k, c < 8 → SMap.find? (s.pkg p).ctxs (ctxKey l c) = some k → ∃ u m, exec i s = .next u ∧ u.mem = s.mem ∧
      SMap.find? u.packets m = some { k with tag := bitsOf header.toNat 27 16, addr := wrapTo 52 ((k.addr : Int) + 32 * (header.extractLsb' 32 32).toInt) }) ∧
    (8 ≤ c ∨ SMap.find? (s.pkg p).ctxs (ctxKey l c) = none → exec i s = .next (s.countReg p (wallBase + 0xC) 1))) ∧
  (∀ (s : State) n k, SMap.find? s.packets n = some k → k.det = true →
    (k.relay < 16 → s.linkLive k.relay k.dst = true → exec (.relayForward n) s = .next { s.keepRelay k with packets := SMap.put s.packets n { k with det := false } }) ∧
    (k.relay < 16 → s.linkLive k.relay k.dst = false → ∃ u, exec (.relayForward n) s = .next u ∧ u.packets = SMap.del s.packets n ∧ u.mem = s.mem ∧ u.courses = s.courses) ∧
    (k.relay = 16 → (s.bestRoute k.src k.dst).1 = 2 → ∃ u m, exec (.relayForward n) s = .next u ∧
      SMap.find? u.packets m = some k ∧ u.mem = s.mem ∧ u.courses = s.courses) ∧
    (k.relay = 16 → (s.bestRoute k.src k.dst).1 = 0 → k.credits ≤ s.creditsLeft k.src k.dst → ∃ u m, exec (.relayForward n) s = .next u ∧
      SMap.find? u.packets m = some { k with det := false, relay := 0 } ∧ u.mem = s.mem ∧ u.courses = s.courses)) ∧
  (∀ (s : State) p j, p < 16 → j < 16 → j ≠ p → (∀ kt ∈ (s.pkg p).txs, kt.2.pkt.dst ≠ j) → RegsInOrder s → ∃ u, exec (.routeChange p j) s = .next u ∧ u.route p j = s.bestRoute p j ∧
    (s.linkLive p j = true → u.route p j = (0, 0)) ∧ u.mem = s.mem) ∧
  (∀ (s : State) p n t, SMap.find? (s.pkg p).txs n = some t → t.query = 0 → let overdue := (s.pkg p).past t.since (s.wallTimeoutNs p)
    (s.reaches p t.pkt.dst = false ∨ overdue = true → ∃ u, exec (.wallTimeout 0 p n) s = .next u ∧
      SMap.find? (u.pkg p).txs n = some { t with query := 1, since := (s.pkg p).time } ∧ u.mem = s.mem ∧ u.packets = s.packets) ∧
    (s.reaches p t.pkt.dst = true → overdue = false → exec (.wallTimeout 0 p n) s = .next s)) ∧
  (∀ (s : State) p q tag t, s.fateHead q = some (p, 1, tag) → SMap.find? (s.pkg p).txs (txKey q tag) = some t → t.query = 1 → s.partly t = false → ∃ u, exec (.fateQuery q tag) s = .next u ∧
    SMap.find? (u.pkg p).txs (txKey q tag) = some { t with query := if t.reply.isSome then 2 else 3 } ∧ (t.reply = none → ∀ m k, SMap.find? u.packets m = some k → t.holds k = false) ∧
    u.mem = s.mem ∧ u.courses = s.courses) ∧
  (∀ (s : State) p q kind tag n t path key owner scope, n = txKey q tag → SMap.find? (s.pkg p).txs n = some t → t.serves = .write path key owner scope →
    (∀ r, s.fateHead p = some (q, kind, tag) → kind ≠ 1 → t.query = 2 → t.reply = some r → ∃ u m, exec (.fateAnswer p tag) s = .next u ∧ u.flight? m = some (.ack owner scope r.stamp key)) ∧
    (s.fateHead p = some (q, kind, tag) → kind ≠ 1 → t.query = 3 → ∃ u m, exec (.fateAnswer p tag) s = .next u ∧ u.flight? m = some (.ack owner scope 0 key) ∧
      (∀ k str c, owner = .course k str → s.course? k = some c → c.life = .live → ∃ c', u.course? k = some c' ∧ c'.held = c.held ++
        [{ cause := .fabric, tpc := none, slot := none, taddr := 0#64, tmask := 0#32, tinfo := fabricInfo t.pkt.type 2 t.pkt.dst }])) ∧
    (t.query ≠ 0 → s.partly t = false → (s.pkg p).past t.since (s.wallTimeoutNs p) = true → ∃ u m, exec (.fateNoAnswer p n) s = .next u ∧ u.flight? m = some (.ack owner scope 0 key))) ∧
  (∀ (s : State) c, 2 ^ 49 ≤ (s.core c).clock → ∃ u, exec (.scClockResetRequest c) s = .next u ∧ (∀ p, p < 16 → (u.pkg p).scStop = true) ∧ u.mem = s.mem ∧ u.cores = s.cores) ∧
  (∀ (s : State) p, p < 16 → (s.pkg p).scStop = true → s.scBusy p = false → ∃ u, exec (.scQuiescentReport p) s = .next u ∧ u.mem = s.mem ∧
    ((∃ q, q < 16 ∧ q ≠ p ∧ (s.pkg q).scReported = false) → (u.pkg p).scReported = true ∧ u.cores = s.cores) ∧
    ((∀ q, q < 16 → q ≠ p → (s.pkg q).scReported = true) → (∀ c x, SMap.find? u.cores c = some x → x.clock = 0) ∧
      (∀ l x, SMap.find? u.dir l = some x → x.lw = 0 ∧ x.lr = 0) ∧ u.floors = [] ∧ ∀ q, q < 16 → (u.pkg q).scStop = false))

/-! # Mortar -/

/-- R365-R368: an operand at its router is stored, or meets the stored one of the other party and their joint is on its way with CTR's add of 2; halves meet at the slice; an orphan is delivered alone with an add of 1; a
joint's blocks and then CTR are written, CTR in another package by an atomic (log 109). -/
def Sys2Proof.Spec.MortarEventsComplete : Prop :=
  (∀ (s : State) m o, AtRouter s m o →
    (∀ h ∈ (s.die (o.router / 48)).halves, h.router ≠ o.router) →
    ((∀ n y, (n, y) ∈ s.mortar → y.op.router = o.router → y.place = .stored → y.op.tag ≠ o.tag) → (s.mortarAt o.router .stored).length < 64 →
      exec (.mortarOperand m) s = .next (s.setMortar m { op := o, place := .stored, since := (s.pkg (o.router / 384)).time, order := 0 })) ∧
    (∀ n y, s.mortarAt o.router .stored = [(n, y)] → y.op.meets o = true → SMap.sorted s.mortar = true → ∃ u j, exec (.mortarOperand m) s = .next u ∧ SMap.find? u.mortar m = none ∧
      SMap.find? u.mortar n = none ∧ SMap.find? u.joints s.fresh = some j ∧ j.add = 2 ∧ j.dst = o.dst ∧ j.ctr = o.ctr ∧
      (o.party = 0 → j.bytes = ((o.words.zip y.op.words).map fun e => BitVec.ofNat 32 (jointOf o.op e.1.toNat e.2.toNat)).flatMap fun w => bytesOf 4 w.toNat) ∧ u.mem = s.mem)) ∧
  (∀ (s : State) m e, SMap.find? s.mortar m = some e → e.place = .half → e.op.dst / 2 ^ 48 = e.op.router / 384 →
    (s.halfStore e.op.dst = [] → exec (.halfArrival m) s = .next (s.setMortar m { e with place := .halfStored, since := (s.pkg (homeDie e.op.dst / 8)).time })) ∧
    (∀ n y, s.halfStore e.op.dst = [(n, y)] → y.op.meets e.op = true → ∃ u j, exec (.halfArrival m) s = .next u ∧ SMap.find? u.joints s.fresh = some j ∧ j.add = 2 ∧ j.dst = e.op.dst)) ∧
  (∀ (s : State) m e, SMap.find? s.mortar m = some e → e.place = .stored →
    e.since + 1000 * s.reg (e.op.router / 48 / 8) (distBase (e.op.router / 48 % 8) + 0x300) ≤ (s.pkg (e.op.router / 48 / 8)).time →
    ∃ u j, exec (.orphanTimeout m) s = .next u ∧ SMap.find? u.joints s.fresh = some j ∧ j.add = 1 ∧ j.dst = e.op.dst ∧ j.bytes = e.op.words.flatMap (fun w => bytesOf 4 w.toNat) ∧ u.mem = s.mem) ∧
  (∀ (s : State) j x, SMap.find? s.joints j = some x → x.left = [] → x.adding = false → (x.ctr = 0 ∨ (x.ctr / 2 ^ 48 = x.die / 8 ∧ s.unshared x.ctr = true)) →
    InPlace s x.ctr x.ctrSnap → SameKey s x.ctr x.ctrKey → isDevice x.ctr = false → s.poisoned x.ctr = false →
    SMap.sorted s.joints = true → ∃ u, exec (.jointCounterAdd j 0) s = .next u ∧ SMap.find? u.joints j = none ∧
      (x.ctr = 0 → u.mem = s.mem) ∧ (x.ctr ≠ 0 → u.mem = s.mem.setMasked x.ctr ((bytesOf 8 ((s.natAt x.ctr 8 + x.add) % 2 ^ 64)).map some))) ∧
  (∀ (s : State) j x, SMap.find? s.joints j = some x → x.left = [] → x.adding = false → x.ctr ≠ 0 → x.ctr / 2 ^ 48 ≠ x.die / 8 → ∃ u g,
    exec (.jointCounterAdd j 0) s = .next u ∧ u.flight? s.fresh = some (.atom g) ∧ g.copy = some j ∧ g.pa = x.ctr ∧ g.op = 0 ∧ g.et = .n64 ∧ g.scope = 4 ∧
      g.lanes.map AtomLane.x = [x.add] ∧ SMap.find? u.joints j = some { x with adding := true } ∧ u.mem = s.mem) ∧
  (∀ (s : State) j x c, SMap.find? s.joints j = some x → c ∈ x.left → x.dst / 2 ^ 48 = x.die / 8 → s.unshared (x.dst / 32 * 32 + 32 * c) = true →
    exec (.jointCounterAdd j c) s = .next { s.jointChunk x c with joints := SMap.put (s.jointChunk x c).joints j { x with left := x.left.filter fun y => decide (y ≠ c) } }) ∧
  (∀ (s : State) (x : Joint) c,
    let lo := max x.dst (x.dst / 32 * 32 + 32 * c)
    let n := min (x.dst + x.bytes.length) (x.dst / 32 * 32 + 32 * c + 32) - lo
    isDevice lo = false → InPlace s lo x.snap → SameKey s lo x.keyId → (s.jointChunk x c).mem = s.mem.setMasked lo (((x.bytes.drop (lo - x.dst)).take n).map some))

/-! # The plane, circuits and scripts -/

/-- R431-R437: frames, opens of streams that are not open, acknowledgements, resends, streams given up, ports, time. That a message which its destination has accepted counts as delivered whatever becomes of its
acknowledgement is the model's reading (log 82). -/
def Sys2Proof.Spec.PlaneEventsComplete : Prop :=
  (∀ (s : State) p port n frame f s', s.frameIn p n 1 frame = some (f, port, s') → f.dep < 15 →
    let y := (s'.pkg p).stream (recvKey f.src f.sep f.dep)
    let q := SMap.getD (s'.pkg p).endpoints [] f.dep
    y.opened = true → y.out = [] → y.next = f.seq → q.length < 16 → f.seq < 2 ^ 16 → ∃ u, exec (.planeDataFrame p port n frame) s = .next u ∧
      SMap.getD (u.pkg p).endpoints [] f.dep = q ++ [(f.src, f.payload)] ∧ ((u.pkg p).stream (recvKey f.src f.sep f.dep)).next = (f.seq + 1) % 2 ^ 16 ∧ u.mem = s.mem) ∧
  (∀ (s : State) p port n frame f s', s.frameIn p n 3 frame = some (f, port, s') → let y := (s'.pkg p).stream (recvKey f.src f.sep f.dep)
    ∃ u, exec (.planeOpenFrame p port n frame) s = .next u ∧ u.mem = s.mem ∧
      (u.pkg p).stream (recvKey f.src f.sep f.dep) = if y.opened then y else { Stream.init with opened := true, next := f.seq }) ∧
  (∀ (s : State) p port n frame f s', s.frameIn p n 2 frame = some (f, port, s') → f.win ≤ 16 →
    let y := (s'.pkg p).stream (sendKey f.src f.dep f.sep)
    let gone := (f.ack + 2 ^ 16 - y.acked) % 2 ^ 16
    gone ≤ y.out.length → y.opened = true → ∃ u, exec (.planeAckFrame p n frame) s = .next u ∧ ((u.pkg p).stream (sendKey f.src f.dep f.sep)).acked = f.ack ∧
      ((u.pkg p).stream (sendKey f.src f.dep f.sep)).out = y.out.drop gone ∧ ((u.pkg p).stream (sendKey f.src f.dep f.sep)).win = f.win ∧ u.mem = s.mem) ∧
  (∀ (s : State) p k, k % 2 = 0 → ((s.pkg p).stream k).opened = true → ((s.pkg p).stream k).last + 10000 ≤ (s.pkg p).time → ∃ u, exec (.planeResendTimer p k) s = .next u ∧
    ((u.pkg p).stream k).port = 1 - ((s.pkg p).stream k).port ∧ ((u.pkg p).stream k).out = ((s.pkg p).stream k).out ∧ u.mem = s.mem) ∧
  (∀ (s : State) p k, k % 2 = 0 → k / 2 % 16 ≠ 15 → k / 32 % 16 < 12 → ((s.pkg p).stream k).out ≠ [] → ((s.pkg p).stream k).heard + 100000 ≤ (s.pkg p).time →
    let there := s.delivered p k
    ((there + 2 ^ 16 - ((s.pkg p).stream k).acked) % 2 ^ 16 < ((s.pkg p).stream k).out.length →
      ∃ u, exec (.planeUnreachable p k) s = .next u ∧ ((u.pkg p).stream k).out = [] ∧ ((u.pkg p).stream k).opened = false ∧ u.mem = s.mem ∧
        ∀ t, (s.pkg p).lintel.hold = .timed 0xF5 t false →
          (u.pkg p).lintel.hold = .timed 0xF5 t (decide (2 ^ 15 ≤ (there + 2 ^ 16 - (t + 1) % 2 ^ 16) % 2 ^ 16))) ∧
    (((s.pkg p).stream k).out.length ≤ (there + 2 ^ 16 - ((s.pkg p).stream k).acked) % 2 ^ 16 → exec (.planeUnreachable p k) s = .next s)) ∧
  (∀ (s : State) p w, p < 16 → w < 2 → RegsInOrder s → ∃ a b, exec (.weazonPortDown p w) s = .next a ∧ exec (.weazonPortUp p w) s = .next b ∧
    (a.reg p (lintBase + 0x64)).testBit w = false ∧ (b.reg p (lintBase + 0x64)).testBit w = true ∧ a.mem = s.mem ∧ b.mem = s.mem) ∧
  (∀ (s : State) p op t, (op = 0xF6 ∨ op = 0xF1) → (s.pkg p).lintel.hold = .timed op t false → t ≤ (s.pkg p).time →
    exec (if op = 0xF6 then .eprcvTimeout p else .cawtTimeout p) s = .next (s.setLintelHold p (.timed op t true))) ∧
  (∀ (s : State) p (off : Int), let t : Int := (s.pkg p).time + off
    let near : Prop := (s.weazonUp p 0 = true ∨ s.weazonUp p 1 = true) ∧ t ≤ s.refTime + 50 ∧ (s.refTime : Int) ≤ t + 50
    (near → exec (.timeSync p off) s = .next (s.modPkg p fun x => { x with slew := off })) ∧ (¬ near → exec (.timeSync p off) s = .next s)) ∧
  (∀ (x : Pkg), x.slew = 0 → x.tickTime.time = x.time + 1) ∧
  (∀ (x : Pkg), x.time ≤ x.tickTime.time ∧ x.tickTime.time ≤ x.time + 2)

/-- R437: the coordinator takes the parts of a wall or pod barrier from its endpoint 14, counts those of its parties, and with the last sends each of them the release, which lets
a package's waiters pass; other messages there are dropped. The messages' layout is the model's own (log 82). -/
def Sys2Proof.Spec.BarrierMessagesComplete : Prop :=
  (∀ (s : State) p src kind l k pbg gen, s.partHead p = some (src, kind, l, k, pbg, gen) → kind ≠ 2 → gen < 65536 →
    let taken := s.planeTake p 14
    let key := barKey (l + 2) (pbgKey p pbg) k
    let b := s.wideBar key
    let b' := arrived { b with gen := BitVec.ofNat 16 gen } src (s.partsNeeded l p)
    let mine := kind = 1 ∧ s.partOf l p src = true ∧ s.coordinator l p = (Config.wallId.toNat, p) ∧ (b.arrivals = 0 ∨ b.gen.toNat = gen)
    (¬ mine → exec (.barrierPartArrival l p pbg k src) s = .next taken) ∧
    (mine → src ∉ b.pending → b'.arrivals < b'.need → exec (.barrierPartArrival l p pbg k src) s = .next (taken.putWide key b')) ∧
    (mine → src ∉ b.pending → b'.need ≤ b'.arrivals → exec (.barrierPartArrival l p pbg k src) s = .next
      (b'.pending.foldl (fun s q => s.tellPeer p q 14 (partBytes 2 l k pbg gen))
        (taken.putWide key { b' with gen := b'.gen + 1#16, need := 0, arrivals := 0, pending := [], standing := [] })))) ∧
  (∀ (s : State) p src l k pbg gen, s.partHead p = some (src, 2, l, k, pbg, gen) →
    let taken := s.planeTake p 14
    let key := barKey l (pbgKey p pbg) k
    let b := s.wideBar key
    let co := s.coordinator l p
    let due := (l = 3 ∨ l = 4) ∧ src = 16 * co.1 + co.2 ∧ b.gen.toNat = gen ∧ b.need ≠ 0 ∧ b.arrivals ≠ 0
    (due → exec (.barrierReleaseMessage l p pbg k) s = .next (taken.putWide key { b.complete s.stands with unreleased := [] })) ∧
    (¬ due → exec (.barrierReleaseMessage l p pbg k) s = .next taken))

/-- R399, R418, R421, R422, R425, R428, R429: a grant connects a barrier and its dark port locks, a deny fails it with reason 4; a CPYX sends chunks under credits, whose answer returns them; a drained release frees the barrier and takes its port dark; a
halted Lintel takes no answer of the service; script records are appended and started. -/
def Sys2Proof.Spec.CircuitEventsComplete : Prop :=
  (∀ (s : State) p, s.lintelHalted p = true → exec (.switchGrant p) s = .next s ∧ exec (.switchDeny p) s = .next s ∧ ∀ b, exec (.circuitReleaseComplete p b) s = .next s) ∧
  (∀ (s : State) p b, s.lintelHalted p = false → ServiceSays s p 4 b → ((s.pkg p).port ((s.pkg p).bar b).port).state ≠ .dark → ∃ u, exec (.switchGrant p) s = .next u ∧ BarIs u p b 2 ∧ u.mem = s.mem) ∧
  (∀ (s : State) p b, s.lintelHalted p = false → ServiceSays s p 4 b → ((s.pkg p).port ((s.pkg p).bar b).port).state = .dark → (s.pkg p).linksUp ((s.pkg p).bar b).port = true →
    ∃ u, exec (.switchGrant p) s = .next u ∧ BarIs u p b 2 ∧ ((u.pkg p).port ((s.pkg p).bar b).port).state = .locking ∧ u.mem = s.mem) ∧
  (∀ (s : State) p b, s.lintelHalted p = false → ServiceSays s p 5 b → ∃ u, exec (.switchDeny p) s = .next u ∧ BarIs u p b 5 ∧ ((u.pkg p).bar b).reason = 4 ∧ u.courses = s.courses) ∧
  (∀ (s : State) n c bs poi, SMap.find? s.copies n = some c → c.op = opCpyx → (c.phase = .waiting ∨ c.phase = .moving) → c.failed = none → c.token = none → c.sent < c.count →
    let p := pkgOfCore c.core
    let b := dFmt c.desc
    let y := (s.pkg p).bar b
    let sides := if y.peerWall = Config.wallId.toNat then c.margins c.nextChunk.1 c.nextChunk.2 else (0, 0)
    let len := sides.1 + c.nextChunk.2 + sides.2
    y.state = 3 → ((s.pkg p).port y.port).state = .live → chunkCredits len ≤ y.credits - y.used →
    let as := (List.range len).map fun i => dSrc c.desc + (c.sent - sides.1 + i) / dRb c.desc * dStride c.desc + (c.sent - sides.1 + i) % dRb c.desc
    s.copyBytes (s.readSource c false as) false as = .ok bs poi →
    ∃ u m k c', exec (.cpyxSendStart n) s = .next u ∧ SMap.find? u.circuitChunks m = some k ∧ k.pkt.payload = bs ∧ k.pkt.poi = poi ∧ k.pkt.addr = c.desc[2].toNat + c.sent - sides.1 ∧
      k.len = c.nextChunk.2 ∧ SMap.find? u.copies n = some c' ∧ c'.sent = c.sent + c.nextChunk.2 ∧ ((u.pkg p).bar b).used = y.used + chunkCredits len ∧ u.mem = s.mem) ∧
  (∀ (s : State) n k port m y b, SMap.find? s.circuitChunks n = some k → k.pkt.circuit = some (port, m + 1) → k.taken = false → k.reply = none → m = n →
    (s.pkg k.pkt.dst).barOf port = some (b, y) → ((s.pkg k.pkt.dst).port port).state = .live → (y.lent = false ∨ y.rxLen < k.pkt.addr + k.pkt.payload.length) →
    ∃ u, exec (.circuitChunk n 0 0 0 0 false []) s = .next u ∧ SMap.find? u.circuitChunks n = some { k with reply := some false } ∧ u.mem = s.mem) ∧
  (∀ (s : State) n k port m y b, SMap.find? s.circuitChunks n = some k → k.pkt.circuit = some (port, m + 1) → k.taken = false → k.reply = none → m = n →
    (s.pkg k.pkt.dst).barOf port = some (b, y) → ((s.pkg k.pkt.dst).port port).state ≠ .live → exec (.circuitChunk n 0 0 0 0 false []) s = .next s) ∧
  (∀ (s : State) n k port m y b, SMap.find? s.circuitChunks n = some k → k.pkt.circuit = some (port, m + 1) → k.taken = false → k.reply = none → m = n →
    (s.pkg k.pkt.dst).barOf port = some (b, y) → ((s.pkg k.pkt.dst).port port).state = .live → y.lent = true → k.pkt.addr + k.pkt.payload.length ≤ y.rxLen →
    let k' := { k.pkt with addr := y.rxBase + k.pkt.addr, key := y.rxKey, stamp := y.rxCtr }
    (∀ q ∈ k'.parts, s.hostRefused q.addr q.key = false ∧ s.unshared q.addr = true ∧ InPlace s q.addr (s.packetMark q) ∧ SameKey s q.addr q.key) →
    (s.pkg k.pkt.dst).snap.state = .idle → (∀ i, i < 8 → s.forward (y.rxCtr + i) = y.rxCtr + i) →
    s.packetMark { k' with addr := y.rxCtr } = none → SameKey s y.rxCtr y.rxKey →
    let written := k'.parts.foldl (fun m q => m.setMasked q.addr q.bytes) s.mem
    ∃ u, exec (.circuitChunk n 0 0 0 0 false []) s = .next u ∧ SMap.find? u.circuitChunks n = some { k with reply := some true } ∧ u.courses = s.courses ∧
      u.mem = (if y.rxCtr = 0 then written else
        written.setMasked y.rxCtr ((bytesOf 8 ((ofBytes (written.bytes y.rxCtr 8) + k.len) % 2 ^ 64)).map some))) ∧
  (∀ (s : State) n k port m c ok, SMap.find? s.circuitChunks n = some k → (k.pkt.circuit = some (port, m + 1) ∧ k.reply = some ok ∨ k.pkt.circuit = some (port, 0)) → ((s.pkg k.pkg).port k.port).state = .live →
    SMap.find? s.copies k.copy = some c → ∃ u c', exec (.circuitChunkAck n ok) s = .next u ∧
      ((u.pkg k.pkg).bar k.bar).used = ((s.pkg k.pkg).bar k.bar).used - chunkCredits k.pkt.payload.length ∧ SMap.find? u.copies k.copy = some c' ∧
      (ok = true → c'.acked = c.acked + k.len ∧ c'.failed = c.failed) ∧ (ok = false → c'.failed.isSome = true ∧ c'.acked = c.acked) ∧ u.mem = s.mem) ∧
  (∀ (s : State) p b, s.lintelHalted p = false → ((s.pkg p).bar b).state = 4 → ((s.pkg p).port ((s.pkg p).bar b).port).state = .live →
    (∀ kc ∈ s.copies, kc.2.bar = some b → pkgOfCore kc.2.core = p → kc.2.failed = none → kc.2.count ≤ kc.2.acked) → (∀ kc ∈ s.circuitChunks, kc.2.pkg = p → kc.2.bar ≠ b) →
    ∃ u, exec (.circuitReleaseComplete p b) s = .next u ∧ BarIs u p b 0 ∧ ((u.pkg p).bar b).lent = false ∧ ((u.pkg p).port ((s.pkg p).bar b).port).state = .dark ∧ u.mem = s.mem) ∧
  (∀ (s : State) p port v, p < 16 → port < 2 → v < 2 ^ 32 → s.hostAnswers p = true →
    let w : HostWrite := { port := port, pa := regPa p (lintBase + 0x44), key := 0, bytes := bytesOf 4 v }
    let s1 := s.modPkg p fun x => { x with hostWrites := x.hostWrites ++ [w] }
    (s.portWaits p port = true → exec (.scriptRecordAppend p port v) s = .next s1) ∧
    (s.portWaits p port = false → exec (.scriptRecordAppend p port v) s =
      .next ((s1.devWrite (regPa p (lintBase + 0x44)) 4 v (.host port)).modPkg p fun x => { x with hostWrites := x.hostWrites.erase w }))) ∧
  (∀ (s : State) p va rest bs, (s.pkg p).script = va :: rest → (s.pkg p).lintel.running = false → (s.reg p (pkgBase + 0x10)).testBit 8 = true → (s.reg p (lintBase + 0x14)).testBit 1 = false →
    s.lintelRead p va 16 = .inl bs → ofBytes (bs.take 8) % 4 = 0 → ∃ u, exec (.scriptStart p) s = .next u ∧ (u.pkg p).script = rest ∧ (u.pkg p).lintel.running = true ∧
      (u.pkg p).lintel.pc = BitVec.ofNat 64 (ofBytes (bs.take 8)) ∧ (u.pkg p).lintel.sc.reg 0 = BitVec.ofNat 32 (ofBytes ((bs.drop 8).take 4)) ∧
      (u.pkg p).lintel.sc.reg 1 = BitVec.ofNat 32 (ofBytes ((bs.drop 12).take 4)) ∧ (∀ i, 2 ≤ i → i < 32 → (u.pkg p).lintel.sc.reg i = 0#32) ∧ u.mem = s.mem)

/-! # The machine as a whole -/

/-- What a turn leaves of an agent's word that has run (R118, R274): MODE as its slot keeps it and what a word of the same cycle wrote put back, a course
of a team that a trap has ended stopped. -/
def Sys2Proof.Spec.afterWord (s : State) (a : Agent) (t : State) : State := { (s.settled a t).haltAborted a with before := none }

/-- R39, R48: when an agent's turn comes and the four bytes at its PC, least significant first, decode to an instruction, the step is that instruction's
effect on what the agent sees; when they decode to nothing, it is the table's last row. R42, R118, R124: when both slots of a course issue, the header slot's word
runs, and the stretcher slot's turn comes next, with what it may not see of it noted. A slot whose word has not begun earlier, and that no such word precedes, sees the state
as it is, and its completed word leaves its own effect.
That a fetch reads memory as it is then is the model's choice (log 29). -/
def Obligations.StepRunsTheDecodedWord : Prop :=
  (∀ (s : State) a ts w, s.agenda = .issue a :: ts → let s0 : State := { s with agenda := ts, cur := a }
    Issues s0 a → AtPc s0 a w →
    let turn (o : Out) : Out := match o with | .next t => .next (afterWord s0 a t) | o => o
    (∀ i, decode w = .ok i → step s = turn (exec i (s0.seenBy a))) ∧
    (∀ e, decode w = .error e → step s = turn (exec (.illegalInstructionWord w) (s0.seenBy a)))) ∧
  (∀ (s : State) k ts w c i t, s.agenda = .pair k :: ts → let a := Agent.course k false
    let s0 : State := { s with agenda := ts, cur := a }
    Issues s0 a → AtPc s0 a w → s0.course? k = some c → decode w = .ok i → exec i (s0.seenBy a) = .next t →
    let u := afterWord s0 a t
    step s = .next { u with before := some { key := k, course := c, word := w }, agenda := .issue (.course k true) :: u.agenda }) ∧
  (∀ (s : State) k str c, s.course? k = some c → (c.slot str).kept = none → s.beforeFor k str = none →
    s.seenBy (.course k str) = s ∧ ∀ t d, t.course? k = some d → (d.slot str).begun = false → s.settled (.course k str) t = t) ∧
  (∀ (s t : State) a, (∀ k str, a ≠ .course k str) → s.seenBy a = s ∧ afterWord s a t = { t with before := none }) ∧
  (∀ (s t : State) k str x, t.team? (k / 16) = some x → x.abnormal = false → s.settled (.course k str) t = t →
    afterWord s (.course k str) t = { t with before := none })

/-- The order of turns is the model's choice (log 1): the head of the agenda, else the event that the outside world brings, else a cycle, in which package time goes on, by 0 to 2 ns (R436; that a cycle takes a
nanosecond is the model's choice, log 2), and no memory changes. -/
def Obligations.StepTakesEventsAndCycles : Prop :=
  (∀ (s : State) i, s.agenda = [] → Config.nextEvent s.fresh = some i → encode i = none → (∀ w, i ≠ .illegalInstructionWord w) → step s = exec i s.tick) ∧
  (∀ (s : State), s.agenda = [] → Config.nextEvent s.fresh = none → step s = .next s.tick.cycle) ∧
  (∀ (s : State), s.cycle.mem = s.mem ∧ s.cycle.flights = s.flights ∧ s.cycle.packets = s.packets ∧ s.cycle.copies = s.copies ∧
    (let plain (kc : Nat × Course) : Nat × Course :=
      (kc.1, { kc.2 with header := { kc.2.header with yielded := false }, stretcher := { kc.2.stretcher with yielded := false } })
     s.cycle.courses.map plain = s.courses.map plain) ∧
    s.cycle.teams = s.teams ∧ ∀ p, p < 16 → (s.cycle.pkg p).time ≤ (s.pkg p).time + 2 ∧ (s.pkg p).time ≤ (s.cycle.pkg p).time)

/-- Memory keeps the model's canonical form (log 6) over every step: addresses strictly rising, no entry equal to what an unlisted byte reads as. -/
def Obligations.StepKeepsMemoryCanonical : Prop :=
  ∀ (s t : State), s.memWf → step s = .next t → t.memWf

/-- R376, R384: after power-on memory is in its canonical form, no agent runs, no team is resident, nothing is in flight, no keystone has an owner, and every device register reads its reset value.
That no byte is listed and time is 0 is the model's choice (log 6, log 7). -/
def Obligations.ResetLeavesTheMachineIdle : Prop :=
  State.reset.memWf ∧ State.reset.mem = [] ∧ State.reset.teams = [] ∧ State.reset.courses = [] ∧ State.reset.flights = [] ∧ State.reset.packets = [] ∧ State.reset.copies = [] ∧ State.reset.dirty = [] ∧
    (∀ a, State.reset.mayIssue a = false) ∧ (∀ p, (State.reset.pkg p).keyOwner = none ∧ (State.reset.pkg p).time = 0) ∧
    (∀ p off, State.reset.reg p off = (regInfo off).reset) ∧ (∀ p n, (State.reset.pkg p).port n = Port.init) ∧ RegsInOrder State.reset

/-- R28: the state of every course of a team when the team starts. -/
def Obligations.CoursesStartAsR28Says : Prop :=
  ∀ (t : Team) h cid, let c := t.newCourse h cid
    c.header.pc = 0#32 ∧ c.header.mask = t.launch.lanes ∧ c.header.id = 0#16 ∧ c.stretcher.mask = 0#32 ∧ c.stretcher.id = 0#16 ∧ c.depth = 0 ∧
    (∀ l, l < 32 → (∀ k, k < 16 → (c.lane l).q[k]! = 0#32) ∧ (∀ k, k < 32 → (c.lane l).named k = 0#32 ∧ (c.lane l).fe.getLsbD k = true) ∧
      (∀ k, k < 7 → (c.lane l).pred k = false) ∧ (c.lane l).pred 7 = true) ∧
    (∀ k, k < 7 → c.sc.gp.getLsbD k = false) ∧ (∀ k, k < 32 → c.sc.reg k = 0#32) ∧ c.sc.red = 0#64 ∧ c.sc.redSeq = 0#16 ∧ c.mode = 0x00000007#32 ∧ c.fpflags = 0#5 ∧
    (∀ e ∈ c.sb.toList, e.valid = false) ∧ (∀ k : Fin 6, c.unack[k] = 0#12) ∧ c.replayMask = 0#32 ∧ c.faultPend = 0#32 ∧
    c.splitSp = BitVec.ofNat 32 (if 512 ≤ t.spSize then t.spSize - 512 else 0) ∧ c.alwLow = 0#32 ∧
    (cid < 16 → c.srSeedV.toNat = bitsOf t.tid.toNat 15 0 * 2 ^ 16 + cid * 2 ^ 8 + 1 ∧ c.srSeedO.toNat = bitsOf t.tid.toNat 15 0 * 2 ^ 16 + cid * 2 ^ 8 + 3) ∧
    (∀ l index core gang head now, (Team.start l index core gang head now).srSeedM.toNat = bitsOf index 15 0 * 2 ^ 16 + 5) ∧
    c.charge = 0#32 ∧ c.tcause = 0#32 ∧ c.tpc = 0#32 ∧ c.taddr = 0#64 ∧ c.tmask = 0#32 ∧ c.tinfo = 0#32 ∧ c.hbase = t.launch.hbase ∧ c.cid = cid ∧ c.handler = false

/-! # The statements made of several of these -/

/-- R39, R40, R43: a word whose opcode is unassigned decodes to nothing. R39, R40: a word that fails the decoding checks takes the trap of its first failure; a course's state
but for that trap is untouched. -/
def Obligations.UnassignedAndIllegalWordsTrap : Prop :=
  Spec.UnassignedOpcodesDecodeToNothing ∧ Spec.IllegalWordTraps

/-- R83: an instruction whose ET is not accepted traps ILLEGAL with FLD 0 and SUB 0x03, before any operand is read. CVT's mismatch of element counts has FLD 4 (R107). R18:
where some policy-1 source is empty in a checked lane, a value-producing vector instruction traps EMPTYREAD with those lanes in TMASK; where sources are empty only under
policy 0, or the destination is, it has not issued: nothing changes. LIH and CVTN, whose destination is also read, wait as the destination does and are left to the other
statements. -/
def Obligations.VectorInstructionsTrapOrWait : Prop :=
  Spec.UnacceptedElementTypeTrapsIllegal ∧ Spec.EmptyRegistersTrapOrWait

/-- R45, R117, R119, R120, R124, R125: NOP and YIELD change only the counts and the PC (YIELD marks its slot); SETM places its value in MODE; GETM reads MODE; GSR reads, and
GSW writes, each special register it may reach. R25, R124: what GSW leaves in FPFLAGS, SRSEEDV, ALWLOW, SPLITSP and the halves of HBASE; a misaligned SPLITSP or HBASE
traps ALIGN, with TADDR 0 (the model's choice: log 105). -/
def Obligations.ModeAndSpecialRegistersComplete : Prop :=
  Spec.ModeAndSpecialRegisterInstructionsComplete ∧ Spec.GswWritesTheNamedRegister

/-- R24: SETM that would place a reserved value in a field of MODE traps ILLMODE, and MODE is left unchanged: the trap saves the old MODE in the extended state. R25: access
to a register marked handler-only outside handler mode traps PRIV. -/
def Obligations.PrivilegeAndReservedModesTrap : Prop :=
  Spec.ReservedModeTrapsIllmode ∧ Spec.HandlerOnlyRegistersTrapPriv

/-- R123, R271: TRAP and BKPT of a course outside handler mode enter its handler with their cause and immediate: the slots and MODE are saved, the cause registers written,
MODE is 0x00000007, the handler's slot starts at PC 0 from HBASE, and everything else R271 names is untouched; no other state changes. R274: a trap that a handler's
instruction raises, or one of a team whose HBASE is 0, ends the team: no course of it is live, but for one whose store has begun to enter its buffer, which keeps that
slot alone; its sequencer is idle, and a record of type 4 with the cause, TID, CID and TPC follows those in its die's list, before those of causes its courses held
(R443): none when they held none. -/
def Obligations.SoftwareTrapsEnterTheHandlerOnce : Prop :=
  Spec.SoftwareTrapsEnterTheHandler ∧ Spec.DoubleTrapEndsTheTeam

/-- R278: ERET with no cause held leaves handler mode: MODE and the slots come back from the extended state and the store buffer is unfrozen; with no miss pending, extended
state is kept. With slots still free at depth 0 nothing more happens. R278, R275: ERET with a cause held stays in the handler: the oldest cause other than PREEMPT, else
PREEMPT, takes the cause registers, MODE is 0x00000007 and the handler starts again at PC 0; PREEMPT's entry freezes the store-buffer entries present (R268). -/
def Obligations.EretReturnsFromTheHandler : Prop :=
  Spec.EretRestoresTheTrappedState ∧ Spec.EretTakesAHeldCause

/-- R127, R128, R133, R134: BRA, CALL, RET, JMPI and LOOP of any agent move its PC, link and count as their rules say; a computed target that is not a multiple of 4 traps
ALIGN with TADDR the target: the 32-bit register's value in a processor too (the model's choice: log 105). R135: BALW compares the sampled allowance with ALWLOW,
unsigned. -/
def Obligations.BranchesAndBalwComplete : Prop :=
  Spec.BranchesComplete ∧ Spec.BalwBranchesOnTheAllowance

/-- R129, R132, R12: BRC moves the whole slot, splits into the free slot, or pushes the taken lanes; at depth 32, or in a handler with both slots taken, it traps SPLITOVF,
and beyond SPSIZE SPBOUND. R130, R131: JOIN's cases 1 to 5 at slot X, in order; a freed stretcher is refilled from the stack after case 2. In case 6, unless the other
slot stands there too, nothing changes. A JOIN that merges lanes puts the accesses before it in order with both slots' later ones (R11; how is the model's reading, log
104). -/
def Obligations.SplitAndJoinComplete : Prop :=
  Spec.BrcSplitsTheSlot ∧ Spec.JoinResolvesItsCases

/-- R137, R138: the group-wide arithmetic of a course, a control core and a Lintel completes with R138's result modulo 2^w. R138-R140: GADDI, GLI and GLI.H write their
register, GCMP its group predicate; gp7 never changes. A processor's GT is S32 (the model's reading: log 12). -/
def Obligations.GroupInstructionsComplete : Prop :=
  Spec.GroupArithmeticCompletes ∧ Spec.GroupImmediatesAndComparesComplete

/-- R141: GLD of a course sends its request and holds the slot at its PC until the reply; GST of a course puts its store in the store buffer. R141, R346, R417: GST of a
control core or Lintel stores its 4 or 8 bytes at the address's home once no other package holds the line (R325), or in a device register, or, in another package, by its
write path; a register store waits for the agent's earlier ones (R323), and one to RESUME for all its writes to other packages (R335); every byte of memory outside the
stored ones and the snapshot's records is as before while the line's key is the access's. (That a processor's store in its package is performed as it issues is the
model's choice: log 14.) -/
def Obligations.GroupMemoryAccessesComplete : Prop :=
  Spec.CourseGldAndGstComplete ∧ Spec.ProcessorGstStoresItsWord

/-- R149, R150, R152-R154: a global load whose active lanes all hit sets the destination's bits empty in them, sends one load lane for each, and completes; its values arrive
later. What a load sends (R150, R256, R262): one load in flight for each hit, under rising stamps, with its lane, register, size, address and key id, the lanes of its
slot, and no byte read yet.
Stamps are the model's own (log 5). -/
def Obligations.GlobalLoadsLeaveAndArrive : Prop :=
  Spec.GlobalLoadsComplete ∧ Spec.LoadLanesGoInFlight

/-- R22, R151-R154, R158: a global store whose active lanes all hit enters its lanes in the store buffer in lane order, with its kind, scope and flag; it completes once all
have entered, and otherwise holds its slot with the lanes left. R152, R155, R156, R23: ATOM, ATOMAR, ATOMSC and RED whose active lanes all hit send one group for each
address, in lane order, and count the groups in the counter of their scope. -/
def Obligations.GlobalStoresAndAtomicsComplete : Prop :=
  Spec.GlobalStoresComplete ∧ Spec.GlobalAtomicsComplete

/-- R159, R160: PREF whose address registers are ready completes, whatever its lanes name, and changes no value; CCTL.INV1 completes so too, and drops lines of the L1; FLUSH
and EVICT of lanes that all hit complete and change no byte, EVICT once no other package holds a copy of a line homed here (R325); ZERO of lanes that all hit completes
when its buffer has room for all of them, each with 128 bytes of zero. R161, R179, R257, R268: FENCE of a course whose slot has no scratchpad access outstanding completes
once its conditions hold, a release's counted from its own beginning; until then it holds its slot. A release wider than .core leaves its mark in the write path (R255),
and a handler's lets frozen entries leave. FENCE of a processor completes once its writes to other packages are performed (log 14) and, with an acquire, the releases it
has read are promoted (R257). R162: XFENCE without V in its first mask completes at once; with it, once FENCE.AR.core's wait is over and, for a path other than V in its
second mask, what the course may have seen in its core's write path is performed (R265); until then it holds its slot; with V in its second mask its core's L1 is dropped.
XFENCE of a processor completes once its writes to other packages are performed (log 14). -/
def Obligations.CacheControlAndFencesComplete : Prop :=
  Spec.PrefetchAndCacheControlComplete ∧ Spec.FencesComplete ∧ Spec.CrossFencesComplete

/-- R163-R165: WAITA on a global word or on the scratchpad, without a then-fence, completes with the value once a route reaches a global word's home, the slot's older accesses to it are performed, its condition
holds and any promotion the acquire needs is over, and dropping the L1 for a global one; until then nothing changes. R164: WAITC, without a then-fence, completes with the
counter's value once a route reaches its home, as for WAITA, and it has reached the target; a slot marked failed then traps COPYERR with TINFO the slot, and the mark is cleared.
That the awaited value is read at its home in one step is the model's choice (log 34). -/
def Obligations.WaitsComplete : Prop :=
  Spec.WaitaCompletesWhenItsConditionHolds ∧ Spec.WaitcCompletesAtItsCount

/-- R188: BAR.ARR and MBAR.ARR of a party that has not arrived, the first of the generation or one that does not complete it, add it and move on; an arrival that completes
the generation starts the next one: GEN + 1, no arrivals. R161, R188, R189, R314: a slot that waits at a barrier whose generation its party is not part of, or that has
been passed and released, completes once its earlier loads have delivered. R255, R314, R315, R359, R437: BARX.ARR of a team that may use the level counts an arrival at
the level's own barrier, from the scope's release on, marked in its core's write path; at a wall or pod barrier the last arrival of its package's own parties sends the
package's part to the coordinator; a level the team may not use traps ILLEGAL. The message's layout is the model's own (log 82). R194-R197: GBARA sends its update to its
own scratchpad's bank or a quad-mate's, after its release of that scope (R255), and holds the slot; GBARW of a generation that has passed completes with GEN; one that has
not passed waits; a misaligned offset traps ALIGN with TINFO 16. -/
def Obligations.BarrierInstructionsComplete : Prop :=
  Spec.BarrierArrivalsCount ∧ Spec.BarrierWaitersPass ∧ Spec.BarxArrivesAtTheLevelsBarrier ∧ Spec.GenerationBarrierInstructionsComplete

/-- R121, R122, R131, R268: EXIT frees its slot, which the stack refills, and ends the course when nothing is left; EXIT.SAVED does so once no store of the course is left
anywhere, and traps ILLMODE SUB 3 while its buffer holds one; EXIT of a control core or Lintel whose handler is not active idles it. That entries frozen at a handler's
entry may leave once the course has ended there is the model's choice (log 105). R176, R177: CARVE of the only live course of its team, with no copy, MOUT or sequencer in
the way, changes the team's granules if the new ones fit on the core and says in its predicate whether they did; what is kept of the scratchpad keeps its bytes. R310,
R311: STEP and STEPE of a course declare its team's step and end it, the slack going to gd; of a processor they open a step of a later id, and close it; another id traps
ILLEGAL. -/
def Obligations.ExitsCarvesAndStepsComplete : Prop :=
  Spec.ExitsComplete ∧ Spec.CarveMovesTheTeamsGranules ∧ Spec.StepsComplete

/-- R201, R203, R204: each of the seven copies whose descriptor passes R203's checks enters its core's queue with what its rule fixes at issue, and its course goes on: the
descriptor, the arrival value, the rounding modes and seed, in the phase its op begins in. R203: a copy whose descriptor fails a check traps COPYERR, with the first
failing check's reason in TADDR and the descriptor's slot in TINFO, and nothing is queued. A copy issued while 32 are outstanding on its core waits (R204). -/
def Obligations.CopyInstructionsComplete : Prop :=
  Spec.CopiesEnterTheQueue ∧ Spec.RefusedCopiesTrapCopyerr

/-- R226, R227: MGO of a team whose sequencer does not run starts it at its entry with the argument in m0; a misaligned entry traps ALIGN, and a running sequencer makes it
wait. MWAIT, without a then-fence, completes with RETIRED once the batch has retired; a fault record, or an idle sequencer that never closed the batch, traps MXFAULT.
R235, R241-R243, R245: the control words of a stream: MZERO, MLI, MLI.H, MADD, MLOOP, MJMP, MFENCE and MEND.
TADDR of MGO's ALIGN is the model's reading (log 47). -/
def Obligations.StreamInstructionsComplete : Prop :=
  Spec.SequencerControlCompletes ∧ Spec.StreamControlWordsComplete

/-- R141, R361: MTAGA and MTAGF of a course wait for the reply of the allocator their scope names; once it has answered and the answer has come, gd holds the first tag, or
the status, the allocator holds or has released the blocks, and the slot goes on. A count outside 1 to 65536 traps ILLEGAL. R362-R364: MJOIN whose descriptor and tag pass
its checks sends its operand (the guard-true lanes' words, or the scratchpad's tile) toward the meeting router its tag names and completes; without a guard-true lane the
vector form only completes. -/
def Obligations.MortarInstructionsComplete : Prop :=
  Spec.TagInstructionsComplete ∧ Spec.MjoinSendsItsOperand

/-- R349-R351: LAUNCH, once the control core's writes to other packages are performed, reads its record, and with one that passes R350's checks appends the launch to its
queue, gives it the die's next number and returns that number; a full or disabled queue returns a status; a record that fails traps LAUNCHERR with the reason, a
misaligned or unreadable one with reason 1. LQCFG returns the old configuration and sets the new; a set reserved bit traps ILLEGAL, and SEC asked for by a control core
that is not secure SECVIOL. That a processor's own accesses are otherwise performed as it issues them, and that SECVIOL's TINFO is 24 with kind 0, are the model's
readings (log 14, log 52). R358: TSLOT of a course or a control core reads the full mask of a run of slots and, with FULL or EMPTY, sets them at once, after its release
at .pkg, marked in the core's write path (R255); a course may name only the slots of its launch, and a run that leaves the map, or has no slot or more than 32, traps
ILLEGAL. R332: TLBI completes, its entries gone from the TLBs of the dies of its scope, once its own release is over and no access translated through them is left; until
then it waits. R325, R342, R343: KEYLD of a secure control core gives a key id a key from 64 bytes of secure frames, or a fresh one, or none, once no other package holds
a line that the id tags, and answers its status; a control core that is not secure traps SECVIOL with TINFO 24 (log 52). The numbers that name key material are the
model's own (log 21). R336-R338: MIGR.CPY begins a migration and holds its control core until its lines have been copied, then answers 0 or, with poison, 3; a fifth
migration answers 1, frames that may not move 2. MIGR.END of a finished one ends its forwarding.
The order of checks is the model's reading (log 50, log 51, log 96), as is how long TLBI waits (log 62). -/
def Obligations.ControlCoreInstructionsComplete : Prop :=
  Spec.LaunchAndQueueSetupComplete ∧ Spec.TileSlotAndTlbInstructionsComplete ∧ Spec.KeyldSetsAKey ∧ Spec.MigrationInstructionsComplete

/-- R424, R426, R427, R429, R430: the circuit instructions of a Lintel: CREQ answers its status or sets the barrier requesting; CAWT answers once the barrier's state decides,
or waits; CUSE lends a barrier; CREL begins a release, frees a barrier that is not live, or answers 1; CSTAT reads a barrier. R434, R435: EPSND sends its message once and
waits for its acceptance; EPRCV stores the oldest message at its endpoint and answers the header, or, with none, 0 at once or after its time; TIME reads the package time;
HTUNE reads a heater margin.
The order of the status checks, SEQ and time-outs are the model's reading (log 73, log 74, log 79, log 84). -/
def Obligations.LintelInstructionsComplete : Prop :=
  Spec.CircuitInstructionsComplete ∧ Spec.PlaneAndTimeInstructionsComplete

/-- R387-R389, R394: SNAP.ARM of an idle engine with an allowed descriptor whose step no die has passed clears the map, loads the descriptor and arms it, STATUS and gd 0;
SNAP.CANCEL of an engine that is not idle fails it with reason 5; SNAP.LOAD begins a load; each answers its status otherwise. R388-R394: the drain reads each line of the
map once, as its shadow has it; with every line drained STATUS is 2 and the engine idle, the image on its way; a load that succeeds writes its lines, and one that fails
sets STATUS.
That the image leaves as one message, and that a load's lines are written in one step, is the model's reading (log 97, log 35). -/
def Obligations.SnapshotsComplete : Prop :=
  Spec.SnapshotInstructionsComplete ∧ Spec.SnapshotEventsComplete

/-- R188, R194, R198, R294, R295, R315, R359: completed barriers release their waiters; a generation barrier takes its update in one event, or, its team gone, refuses it
(R316); a waiting party's probe starts, travels, and is absorbed where a party does not wait. R437: the coordinator takes the parts of a wall or pod barrier from its
endpoint 14, counts those of its parties, and with the last sends each of them the release, which lets a package's waiters pass; other messages there are dropped. The
messages' layout is the model's own (log 82). -/
def Obligations.BarrierEventsComplete : Prop :=
  Spec.BarrierAndProbeEventsComplete ∧ Spec.BarrierMessagesComplete

/-- R303-R308: a slew step restarts the limiter's interval and never enables more than four sectors of a core; an estimate closes the quad's charge and moves its regulator by
at most 10 mV; the kiln's interval ends. R318-R320, R386: SAFE follows the power microcontroller's heartbeats; the comparators bound each quad, and temperature does, from
105 °C until it is below 100 °C; monitors sample and clear; a stack of HBM is throttled from 95 °C until it is below 90 °C. R316, R317: ingress closes on a core without
teams; an idle quad is gated, its L1s and rail going, and a gated quad with a placement powers up at VMIN.
Measured frequency and temperature are free values (log 22). -/
def Obligations.PowerEventsComplete : Prop :=
  Spec.PowerLoopEventsComplete ∧ Spec.LimitAndMonitorEventsComplete ∧ Spec.GatingEventsComplete

/-- R398, R399, R402: the state machine of a port: lock and deskew with the peer's light, authentication, their time-outs, loss of channels and errors, each with the next
state, LAST and the channels. That a peer of this wall has no light while it is dark or in quarantine, and goes live with its own end, is the model's reading (log 70).
R396, R399, R403: a UCIe link down takes its ports dark with LAST 5; a microcontroller's reset holds live ports and takes those before live dark with LAST 6, and its
return within 50 ms frees them; a heater's margins are latched while its port is in hold.
A wall link as a port of all eight wall engines and the corners of the table are the model's reading (log 69, log 70, log 71). -/
def Obligations.OpticalEventsComplete : Prop :=
  Spec.PortEventsComplete ∧ Spec.EngineEventsComplete

/-- R325, R345, R408: a read arriving at its home is answered with its line, poison with it, and the reader's package is noted as holding it; the answer gives the waiting
load its value and frees the tag; an acknowledgement lowers the entry's counter, an invalidation drops the copy and its answer clears it at the home. R263, R269, R390,
R408, R409: a write, chunk, joint or atomic arriving at its home is performed whole on its bytes and answered, and U counts it where it is counted; an SC store of several
lanes is performed one lane after another, and counted once (log 107); a flag is withheld; an armed engine holds a write of a greater step (R392). R260, R261: a promotion
request is answered once the writer's core has performed what it passed on before the release, and the answer lets the acquire go on.
An answer's payload layout, and that a read takes what it needs at its home in one event, is the model's reading (log 38, log 104). -/
def Obligations.WallPacketsComplete : Prop :=
  Spec.ReadsAndAnswersCrossTheWall ∧ Spec.WritesCrossTheWall ∧ Spec.PromotionsAreAnswered

/-- R365-R368: an operand at its router is stored, or meets the stored one of the other party and their joint is on its way with CTR's add of 2; halves meet at the slice; an
orphan is delivered alone with an add of 1; a joint's blocks and then CTR are written, CTR in another package by an atomic (log 109). R431-R437: frames, opens of streams
that are not open, acknowledgements, resends, streams given up, ports, time. That a message which its destination has accepted counts as delivered whatever becomes of its
acknowledgement is the model's reading (log 82). R399, R418, R421, R422, R425, R428, R429: a grant connects a barrier and its dark port locks, a deny fails it with reason
4; a CPYX sends chunks under credits, whose answer returns them; a drained release frees the barrier and takes its port dark; a halted Lintel takes no answer of the
service; script records are appended and started.
Corners of the barriers' states and the bytes of frames are the model's reading (log 72, log 80, log 81). -/
def Obligations.MortarPlaneAndCircuitEventsComplete : Prop :=
  Spec.MortarEventsComplete ∧ Spec.PlaneEventsComplete ∧ Spec.CircuitEventsComplete
end

