-- ==== Sys2Proof/Laws/Map.lean ====
section
/-! SUPPORT. Laws of sparse maps and of memory: reading after writing, the canonical form kept. -/

namespace Sys2Proof.Machine

open Sys2Proof

variable {α : Type}

/-! ## Reading after writing -/

@[simp] theorem find_put_same (m : SMap α) (x : Nat) (v : α) : SMap.find? (SMap.put m x v) x = some v := by
  induction m with
  | nil => simp [SMap.put, SMap.find?]
  | cons a m ih =>
    obtain ⟨k, w⟩ := a
    simp only [SMap.put]
    split
    · simp [SMap.find?]
    · split
      · next h => simp [SMap.find?, h]
      · next h => simp [SMap.find?, h, ih]

theorem find_put_other (m : SMap α) {x y : Nat} (v : α) (h : y ≠ x) : SMap.find? (SMap.put m x v) y = SMap.find? m y := by
  induction m with
  | nil => simp [SMap.put, SMap.find?, h]
  | cons a m ih =>
    obtain ⟨k, w⟩ := a
    simp only [SMap.put]
    split
    · simp [SMap.find?, h]
    · split
      · next hk => subst hk; simp [SMap.find?, h]
      · simp [SMap.find?, ih]

theorem find_above {m : SMap α} {b : Nat} (h : SMap.above b m = true) {y : Nat} (hy : y ≤ b) : SMap.find? m y = none := by
  induction m generalizing b with
  | nil => rfl
  | cons a m ih =>
    obtain ⟨k, w⟩ := a
    simp only [SMap.above, Bool.and_eq_true, decide_eq_true_eq] at h
    have hk : y ≠ k := by omega
    simp [SMap.find?, hk, ih h.2 (by omega)]

theorem find_del_same {m : SMap α} (h : SMap.sorted m = true) (x : Nat) : SMap.find? (SMap.del m x) x = none := by
  suffices H : ∀ (m : SMap α), SMap.sorted m = true → SMap.find? (SMap.del m x) x = none from H m h
  intro m
  induction m with
  | nil => intro _; rfl
  | cons a m ih =>
    obtain ⟨k, w⟩ := a
    intro h
    simp only [SMap.sorted] at h
    simp only [SMap.del]
    split
    · next hk => subst hk; exact find_above h (le_refl _)
    · next hk =>
      split
      · next hl => simp [SMap.find?, hk, find_above h (Nat.le_of_lt hl)]
      · have hm : SMap.sorted m = true := by
          cases m with
          | nil => rfl
          | cons b m => simp only [SMap.above, Bool.and_eq_true] at h; exact h.2
        simp [SMap.find?, hk, ih hm]

theorem find_del_other (m : SMap α) {x y : Nat} (h : y ≠ x) : SMap.find? (SMap.del m x) y = SMap.find? m y := by
  induction m with
  | nil => rfl
  | cons a m ih =>
    obtain ⟨k, w⟩ := a
    simp only [SMap.del]
    split
    · next hk => subst hk; simp [SMap.find?, h]
    · split
      · rfl
      · simp [SMap.find?, ih]

@[simp] theorem find_modify_same (m : SMap α) (x : Nat) (f : α → α) :
    SMap.find? (SMap.modify m x f) x = (SMap.find? m x).map f := by
  induction m with
  | nil => rfl
  | cons a m ih =>
    obtain ⟨k, w⟩ := a
    by_cases h : k = x
    · subst h; simp [SMap.modify, SMap.find?]
    · simp only [SMap.modify] at ih
      simp [SMap.modify, SMap.find?, h, Ne.symm h, ih]

theorem find_modify_other (m : SMap α) {x y : Nat} (f : α → α) (h : y ≠ x) :
    SMap.find? (SMap.modify m x f) y = SMap.find? m y := by
  induction m with
  | nil => rfl
  | cons a m ih =>
    obtain ⟨k, w⟩ := a
    simp only [SMap.modify] at ih
    by_cases hk : k = x
    · subst hk; simp [SMap.modify, SMap.find?, h, ih]
    · simp [SMap.modify, SMap.find?, hk, ih]

@[simp] theorem getD_put_same (m : SMap α) (d : α) (x : Nat) (v : α) : SMap.getD (SMap.put m x v) d x = v := by
  simp [SMap.getD]

theorem getD_put_other (m : SMap α) (d : α) {x y : Nat} (v : α) (h : y ≠ x) :
    SMap.getD (SMap.put m x v) d y = SMap.getD m d y := by
  simp [SMap.getD, find_put_other m v h]

theorem getD_setD_other [DecidableEq α] (m : SMap α) (d : α) {x y : Nat} (v : α) (h : y ≠ x) :
    SMap.getD (SMap.setD m d x v) d y = SMap.getD m d y := by
  unfold SMap.setD SMap.getD
  split
  · rw [find_del_other m h]
  · rw [find_put_other m v h]

theorem getD_setD_same [DecidableEq α] {m : SMap α} (hm : SMap.sorted m = true) (d : α) (x : Nat) (v : α) :
    SMap.getD (SMap.setD m d x v) d x = v := by
  unfold SMap.setD SMap.getD
  split
  · next h => simp [find_del_same hm, h]
  · simp

/-! ## The canonical form -/

theorem above_put {m : SMap α} {b x : Nat} (v : α) (h : SMap.above b m = true) (hx : b < x) :
    SMap.above b (SMap.put m x v) = true := by
  induction m generalizing b with
  | nil => simp [SMap.put, SMap.above, hx]
  | cons a m ih =>
    obtain ⟨k, w⟩ := a
    simp only [SMap.above, Bool.and_eq_true, decide_eq_true_eq] at h
    simp only [SMap.put]
    split
    · simp [SMap.above, h.2, *]
    · split
      · simp [SMap.above, h.1, h.2]
      · simp [SMap.above, h.1, ih h.2 (by omega)]

theorem above_weaken {m : SMap α} {b c : Nat} (h : SMap.above b m = true) (hc : c ≤ b) : SMap.above c m = true := by
  cases m with
  | nil => rfl
  | cons a m =>
    simp only [SMap.above, Bool.and_eq_true, decide_eq_true_eq] at h ⊢
    exact ⟨by omega, h.2⟩

theorem above_del {m : SMap α} {b : Nat} (x : Nat) (h : SMap.above b m = true) : SMap.above b (SMap.del m x) = true := by
  induction m generalizing b with
  | nil => rfl
  | cons a m ih =>
    obtain ⟨k, w⟩ := a
    simp only [SMap.del]
    have h' := h
    simp only [SMap.above, Bool.and_eq_true, decide_eq_true_eq] at h'
    split
    · exact above_weaken h'.2 (Nat.le_of_lt h'.1)
    · split
      · exact h
      · simp [SMap.above, h'.1, ih h'.2]

theorem sorted_put {m : SMap α} (x : Nat) (v : α) (h : SMap.sorted m = true) : SMap.sorted (SMap.put m x v) = true := by
  cases m with
  | nil => rfl
  | cons a m =>
    obtain ⟨k, w⟩ := a
    simp only [SMap.sorted] at h
    simp only [SMap.put]
    split
    · next hk => simp [SMap.sorted, SMap.above, hk, h]
    · split
      · exact h
      · next h1 h2 => exact above_put v h (by omega)

theorem sorted_del {m : SMap α} (x : Nat) (h : SMap.sorted m = true) : SMap.sorted (SMap.del m x) = true := by
  cases m with
  | nil => rfl
  | cons a m =>
    obtain ⟨k, w⟩ := a
    simp only [SMap.sorted] at h
    simp only [SMap.del]
    split
    · cases m with
      | nil => rfl
      | cons b m => simp only [SMap.above, Bool.and_eq_true] at h; exact h.2
    · split
      · exact h
      · exact above_del x h

theorem mem_put {m : SMap α} {x : Nat} {v : α} {kv : Nat × α} (h : kv ∈ SMap.put m x v) : kv = (x, v) ∨ kv ∈ m := by
  induction m with
  | nil => exact .inl (by simpa [SMap.put] using h)
  | cons a m ih =>
    obtain ⟨k, w⟩ := a
    simp only [SMap.put] at h
    split at h
    · simpa using h
    · split at h
      · next hk => subst hk; rcases List.mem_cons.1 h with h | h <;> simp [h]
      · rcases List.mem_cons.1 h with h | h
        · simp [h]
        · rcases ih h with h | h <;> simp [h]

theorem mem_del {m : SMap α} {x : Nat} {kv : Nat × α} (h : kv ∈ SMap.del m x) : kv ∈ m := by
  induction m with
  | nil => exact h
  | cons a m ih =>
    obtain ⟨k, w⟩ := a
    simp only [SMap.del] at h
    split at h
    · exact List.mem_cons_of_mem _ h
    · split at h
      · exact h
      · rcases List.mem_cons.1 h with h | h
        · simp [h]
        · exact List.mem_cons_of_mem _ (ih h)

theorem canon_setD [DecidableEq α] {d : α} {m : SMap α} (x : Nat) (v : α) (h : SMap.canon d m = true) :
    SMap.canon d (SMap.setD m d x v) = true := by
  simp only [SMap.canon, Bool.and_eq_true, List.all_eq_true, decide_eq_true_eq] at h ⊢
  unfold SMap.setD
  split
  · exact ⟨sorted_del x h.1, fun kv hk => h.2 kv (mem_del hk)⟩
  · next hv =>
    refine ⟨sorted_put x v h.1, fun kv hk => ?_⟩
    rcases mem_put hk with rfl | hk
    · exact hv
    · exact h.2 kv hk

/-! ## Memory -/

@[simp] theorem wf_nil : Memory.wf [] = true := rfl

theorem wf_setByte {m : Memory} (a : Nat) (b : BitVec 8) (h : Memory.wf m = true) : Memory.wf (m.setByte a b) = true :=
  canon_setD a b h

theorem wf_setBytes {m : Memory} (a : Nat) (bs : List (BitVec 8)) (h : Memory.wf m = true) :
    Memory.wf (m.setBytes a bs) = true := by
  induction bs generalizing m a with
  | nil => exact h
  | cons b bs ih => exact ih (a + 1) (wf_setByte a b h)

theorem byte_setByte_other (m : Memory) {a x : Nat} (b : BitVec 8) (h : x ≠ a) : (m.setByte a b).byte x = m.byte x :=
  getD_setD_other m Memory.blank b h

theorem byte_setByte_same {m : Memory} (hm : Memory.wf m = true) (a : Nat) (b : BitVec 8) : (m.setByte a b).byte a = b := by
  simp only [Memory.wf, SMap.canon, Bool.and_eq_true] at hm
  exact getD_setD_same hm.1 Memory.blank a b

/-- Storing bytes leaves every other address alone. -/
theorem byte_setBytes_other (m : Memory) {a x : Nat} (bs : List (BitVec 8)) (h : x < a ∨ a + bs.length ≤ x) :
    (m.setBytes a bs).byte x = m.byte x := by
  induction bs generalizing m a with
  | nil => rfl
  | cons b bs ih =>
    simp only [List.length_cons] at h
    rw [Memory.setBytes, ih (m.setByte a b) (by omega), byte_setByte_other m b (by omega)]

/-- A stored byte reads back. -/
theorem byte_setBytes_same {m : Memory} (hm : Memory.wf m = true) (a i : Nat) (bs : List (BitVec 8)) (h : i < bs.length) :
    (m.setBytes a bs).byte (a + i) = bs[i] := by
  induction bs generalizing m a i with
  | nil => simp at h
  | cons b bs ih =>
    cases i with
    | zero => rw [Memory.setBytes, byte_setBytes_other _ _ (by omega)]; simpa using byte_setByte_same hm a b
    | succ i =>
      have := ih (wf_setByte a b hm) (a + 1) i (by simpa using h)
      rw [Memory.setBytes, show a + (i + 1) = a + 1 + i by omega, this]; rfl

end Sys2Proof.Machine
end

