-- ==== Sys2Proof/Laws/State.lean ====
section
/-! SUPPORT. What each update of the state leaves in each field. -/

namespace Sys2Proof.Machine

open Sys2Proof

/-! ## setTeam -/

@[simp] theorem setTeam_mem (s : State) (t : Nat) (x : Team) : (s.setTeam t x).mem = s.mem := rfl
@[simp] theorem setTeam_dir (s : State) (t : Nat) (x : Team) : (s.setTeam t x).dir = s.dir := rfl
@[simp] theorem setTeam_dev (s : State) (t : Nat) (x : Team) : (s.setTeam t x).dev = s.dev := rfl
@[simp] theorem setTeam_teams (s : State) (t : Nat) (x : Team) : (s.setTeam t x).teams = SMap.put s.teams t x := rfl
@[simp] theorem setTeam_courses (s : State) (t : Nat) (x : Team) : (s.setTeam t x).courses = s.courses := rfl
@[simp] theorem setTeam_cores (s : State) (t : Nat) (x : Team) : (s.setTeam t x).cores = s.cores := rfl
@[simp] theorem setTeam_quads (s : State) (t : Nat) (x : Team) : (s.setTeam t x).quads = s.quads := rfl
@[simp] theorem setTeam_dies (s : State) (t : Nat) (x : Team) : (s.setTeam t x).dies = s.dies := rfl
@[simp] theorem setTeam_pkgs (s : State) (t : Nat) (x : Team) : (s.setTeam t x).pkgs = s.pkgs := rfl
@[simp] theorem setTeam_flights (s : State) (t : Nat) (x : Team) : (s.setTeam t x).flights = s.flights := rfl
@[simp] theorem setTeam_copies (s : State) (t : Nat) (x : Team) : (s.setTeam t x).copies = s.copies := rfl
@[simp] theorem setTeam_mortar (s : State) (t : Nat) (x : Team) : (s.setTeam t x).mortar = s.mortar := rfl
@[simp] theorem setTeam_joints (s : State) (t : Nat) (x : Team) : (s.setTeam t x).joints = s.joints := rfl
@[simp] theorem setTeam_wideBars (s : State) (t : Nat) (x : Team) : (s.setTeam t x).wideBars = s.wideBars := rfl
@[simp] theorem setTeam_packets (s : State) (t : Nat) (x : Team) : (s.setTeam t x).packets = s.packets := rfl
@[simp] theorem setTeam_circuitChunks (s : State) (t : Nat) (x : Team) : (s.setTeam t x).circuitChunks = s.circuitChunks := rfl
@[simp] theorem setTeam_frames (s : State) (t : Nat) (x : Team) : (s.setTeam t x).frames = s.frames := rfl
@[simp] theorem setTeam_outbox (s : State) (t : Nat) (x : Team) : (s.setTeam t x).outbox = s.outbox := rfl
@[simp] theorem setTeam_agenda (s : State) (t : Nat) (x : Team) : (s.setTeam t x).agenda = s.agenda := rfl
@[simp] theorem setTeam_floors (s : State) (t : Nat) (x : Team) : (s.setTeam t x).floors = s.floors := rfl
@[simp] theorem setTeam_dirty (s : State) (t : Nat) (x : Team) : (s.setTeam t x).dirty = s.dirty := rfl
@[simp] theorem setTeam_refTime (s : State) (t : Nat) (x : Team) : (s.setTeam t x).refTime = s.refTime := rfl
@[simp] theorem setTeam_before (s : State) (t : Nat) (x : Team) : (s.setTeam t x).before = s.before := rfl
@[simp] theorem setTeam_cur (s : State) (t : Nat) (x : Team) : (s.setTeam t x).cur = s.cur := rfl
@[simp] theorem setTeam_fresh (s : State) (t : Nat) (x : Team) : (s.setTeam t x).fresh = s.fresh := rfl

/-! ## setCourse -/

@[simp] theorem setCourse_mem (s : State) (k : Nat) (x : Course) : (s.setCourse k x).mem = s.mem := rfl
@[simp] theorem setCourse_dir (s : State) (k : Nat) (x : Course) : (s.setCourse k x).dir = s.dir := rfl
@[simp] theorem setCourse_dev (s : State) (k : Nat) (x : Course) : (s.setCourse k x).dev = s.dev := rfl
@[simp] theorem setCourse_teams (s : State) (k : Nat) (x : Course) : (s.setCourse k x).teams = s.teams := rfl
@[simp] theorem setCourse_courses (s : State) (k : Nat) (x : Course) : (s.setCourse k x).courses = SMap.put s.courses k x := rfl
@[simp] theorem setCourse_cores (s : State) (k : Nat) (x : Course) : (s.setCourse k x).cores = s.cores := rfl
@[simp] theorem setCourse_quads (s : State) (k : Nat) (x : Course) : (s.setCourse k x).quads = s.quads := rfl
@[simp] theorem setCourse_dies (s : State) (k : Nat) (x : Course) : (s.setCourse k x).dies = s.dies := rfl
@[simp] theorem setCourse_pkgs (s : State) (k : Nat) (x : Course) : (s.setCourse k x).pkgs = s.pkgs := rfl
@[simp] theorem setCourse_flights (s : State) (k : Nat) (x : Course) : (s.setCourse k x).flights = s.flights := rfl
@[simp] theorem setCourse_copies (s : State) (k : Nat) (x : Course) : (s.setCourse k x).copies = s.copies := rfl
@[simp] theorem setCourse_mortar (s : State) (k : Nat) (x : Course) : (s.setCourse k x).mortar = s.mortar := rfl
@[simp] theorem setCourse_joints (s : State) (k : Nat) (x : Course) : (s.setCourse k x).joints = s.joints := rfl
@[simp] theorem setCourse_wideBars (s : State) (k : Nat) (x : Course) : (s.setCourse k x).wideBars = s.wideBars := rfl
@[simp] theorem setCourse_packets (s : State) (k : Nat) (x : Course) : (s.setCourse k x).packets = s.packets := rfl
@[simp] theorem setCourse_circuitChunks (s : State) (k : Nat) (x : Course) : (s.setCourse k x).circuitChunks = s.circuitChunks := rfl
@[simp] theorem setCourse_frames (s : State) (k : Nat) (x : Course) : (s.setCourse k x).frames = s.frames := rfl
@[simp] theorem setCourse_outbox (s : State) (k : Nat) (x : Course) : (s.setCourse k x).outbox = s.outbox := rfl
@[simp] theorem setCourse_agenda (s : State) (k : Nat) (x : Course) : (s.setCourse k x).agenda = s.agenda := rfl
@[simp] theorem setCourse_floors (s : State) (k : Nat) (x : Course) : (s.setCourse k x).floors = s.floors := rfl
@[simp] theorem setCourse_dirty (s : State) (k : Nat) (x : Course) : (s.setCourse k x).dirty = s.dirty := rfl
@[simp] theorem setCourse_refTime (s : State) (k : Nat) (x : Course) : (s.setCourse k x).refTime = s.refTime := rfl
@[simp] theorem setCourse_before (s : State) (k : Nat) (x : Course) : (s.setCourse k x).before = s.before := rfl
@[simp] theorem setCourse_cur (s : State) (k : Nat) (x : Course) : (s.setCourse k x).cur = s.cur := rfl
@[simp] theorem setCourse_fresh (s : State) (k : Nat) (x : Course) : (s.setCourse k x).fresh = s.fresh := rfl

/-! ## modTeam -/

@[simp] theorem modTeam_mem (s : State) (t : Nat) (f : Team → Team) : (s.modTeam t f).mem = s.mem := rfl
@[simp] theorem modTeam_dir (s : State) (t : Nat) (f : Team → Team) : (s.modTeam t f).dir = s.dir := rfl
@[simp] theorem modTeam_dev (s : State) (t : Nat) (f : Team → Team) : (s.modTeam t f).dev = s.dev := rfl
@[simp] theorem modTeam_teams (s : State) (t : Nat) (f : Team → Team) : (s.modTeam t f).teams = SMap.modify s.teams t f := rfl
@[simp] theorem modTeam_courses (s : State) (t : Nat) (f : Team → Team) : (s.modTeam t f).courses = s.courses := rfl
@[simp] theorem modTeam_cores (s : State) (t : Nat) (f : Team → Team) : (s.modTeam t f).cores = s.cores := rfl
@[simp] theorem modTeam_quads (s : State) (t : Nat) (f : Team → Team) : (s.modTeam t f).quads = s.quads := rfl
@[simp] theorem modTeam_dies (s : State) (t : Nat) (f : Team → Team) : (s.modTeam t f).dies = s.dies := rfl
@[simp] theorem modTeam_pkgs (s : State) (t : Nat) (f : Team → Team) : (s.modTeam t f).pkgs = s.pkgs := rfl
@[simp] theorem modTeam_flights (s : State) (t : Nat) (f : Team → Team) : (s.modTeam t f).flights = s.flights := rfl
@[simp] theorem modTeam_copies (s : State) (t : Nat) (f : Team → Team) : (s.modTeam t f).copies = s.copies := rfl
@[simp] theorem modTeam_mortar (s : State) (t : Nat) (f : Team → Team) : (s.modTeam t f).mortar = s.mortar := rfl
@[simp] theorem modTeam_joints (s : State) (t : Nat) (f : Team → Team) : (s.modTeam t f).joints = s.joints := rfl
@[simp] theorem modTeam_wideBars (s : State) (t : Nat) (f : Team → Team) : (s.modTeam t f).wideBars = s.wideBars := rfl
@[simp] theorem modTeam_packets (s : State) (t : Nat) (f : Team → Team) : (s.modTeam t f).packets = s.packets := rfl
@[simp] theorem modTeam_circuitChunks (s : State) (t : Nat) (f : Team → Team) : (s.modTeam t f).circuitChunks = s.circuitChunks := rfl
@[simp] theorem modTeam_frames (s : State) (t : Nat) (f : Team → Team) : (s.modTeam t f).frames = s.frames := rfl
@[simp] theorem modTeam_outbox (s : State) (t : Nat) (f : Team → Team) : (s.modTeam t f).outbox = s.outbox := rfl
@[simp] theorem modTeam_agenda (s : State) (t : Nat) (f : Team → Team) : (s.modTeam t f).agenda = s.agenda := rfl
@[simp] theorem modTeam_floors (s : State) (t : Nat) (f : Team → Team) : (s.modTeam t f).floors = s.floors := rfl
@[simp] theorem modTeam_dirty (s : State) (t : Nat) (f : Team → Team) : (s.modTeam t f).dirty = s.dirty := rfl
@[simp] theorem modTeam_refTime (s : State) (t : Nat) (f : Team → Team) : (s.modTeam t f).refTime = s.refTime := rfl
@[simp] theorem modTeam_before (s : State) (t : Nat) (f : Team → Team) : (s.modTeam t f).before = s.before := rfl
@[simp] theorem modTeam_cur (s : State) (t : Nat) (f : Team → Team) : (s.modTeam t f).cur = s.cur := rfl
@[simp] theorem modTeam_fresh (s : State) (t : Nat) (f : Team → Team) : (s.modTeam t f).fresh = s.fresh := rfl

/-! ## modCourse -/

@[simp] theorem modCourse_mem (s : State) (k : Nat) (f : Course → Course) : (s.modCourse k f).mem = s.mem := rfl
@[simp] theorem modCourse_dir (s : State) (k : Nat) (f : Course → Course) : (s.modCourse k f).dir = s.dir := rfl
@[simp] theorem modCourse_dev (s : State) (k : Nat) (f : Course → Course) : (s.modCourse k f).dev = s.dev := rfl
@[simp] theorem modCourse_teams (s : State) (k : Nat) (f : Course → Course) : (s.modCourse k f).teams = s.teams := rfl
@[simp] theorem modCourse_courses (s : State) (k : Nat) (f : Course → Course) : (s.modCourse k f).courses = SMap.modify s.courses k f := rfl
@[simp] theorem modCourse_cores (s : State) (k : Nat) (f : Course → Course) : (s.modCourse k f).cores = s.cores := rfl
@[simp] theorem modCourse_quads (s : State) (k : Nat) (f : Course → Course) : (s.modCourse k f).quads = s.quads := rfl
@[simp] theorem modCourse_dies (s : State) (k : Nat) (f : Course → Course) : (s.modCourse k f).dies = s.dies := rfl
@[simp] theorem modCourse_pkgs (s : State) (k : Nat) (f : Course → Course) : (s.modCourse k f).pkgs = s.pkgs := rfl
@[simp] theorem modCourse_flights (s : State) (k : Nat) (f : Course → Course) : (s.modCourse k f).flights = s.flights := rfl
@[simp] theorem modCourse_copies (s : State) (k : Nat) (f : Course → Course) : (s.modCourse k f).copies = s.copies := rfl
@[simp] theorem modCourse_mortar (s : State) (k : Nat) (f : Course → Course) : (s.modCourse k f).mortar = s.mortar := rfl
@[simp] theorem modCourse_joints (s : State) (k : Nat) (f : Course → Course) : (s.modCourse k f).joints = s.joints := rfl
@[simp] theorem modCourse_wideBars (s : State) (k : Nat) (f : Course → Course) : (s.modCourse k f).wideBars = s.wideBars := rfl
@[simp] theorem modCourse_packets (s : State) (k : Nat) (f : Course → Course) : (s.modCourse k f).packets = s.packets := rfl
@[simp] theorem modCourse_circuitChunks (s : State) (k : Nat) (f : Course → Course) : (s.modCourse k f).circuitChunks = s.circuitChunks := rfl
@[simp] theorem modCourse_frames (s : State) (k : Nat) (f : Course → Course) : (s.modCourse k f).frames = s.frames := rfl
@[simp] theorem modCourse_outbox (s : State) (k : Nat) (f : Course → Course) : (s.modCourse k f).outbox = s.outbox := rfl
@[simp] theorem modCourse_agenda (s : State) (k : Nat) (f : Course → Course) : (s.modCourse k f).agenda = s.agenda := rfl
@[simp] theorem modCourse_floors (s : State) (k : Nat) (f : Course → Course) : (s.modCourse k f).floors = s.floors := rfl
@[simp] theorem modCourse_dirty (s : State) (k : Nat) (f : Course → Course) : (s.modCourse k f).dirty = s.dirty := rfl
@[simp] theorem modCourse_refTime (s : State) (k : Nat) (f : Course → Course) : (s.modCourse k f).refTime = s.refTime := rfl
@[simp] theorem modCourse_before (s : State) (k : Nat) (f : Course → Course) : (s.modCourse k f).before = s.before := rfl
@[simp] theorem modCourse_cur (s : State) (k : Nat) (f : Course → Course) : (s.modCourse k f).cur = s.cur := rfl
@[simp] theorem modCourse_fresh (s : State) (k : Nat) (f : Course → Course) : (s.modCourse k f).fresh = s.fresh := rfl

/-! ## setCore -/

@[simp] theorem setCore_mem (s : State) (n : Nat) (x : Core) : (s.setCore n x).mem = s.mem := rfl
@[simp] theorem setCore_dir (s : State) (n : Nat) (x : Core) : (s.setCore n x).dir = s.dir := rfl
@[simp] theorem setCore_dev (s : State) (n : Nat) (x : Core) : (s.setCore n x).dev = s.dev := rfl
@[simp] theorem setCore_teams (s : State) (n : Nat) (x : Core) : (s.setCore n x).teams = s.teams := rfl
@[simp] theorem setCore_courses (s : State) (n : Nat) (x : Core) : (s.setCore n x).courses = s.courses := rfl
@[simp] theorem setCore_cores (s : State) (n : Nat) (x : Core) : (s.setCore n x).cores = SMap.put s.cores n x := rfl
@[simp] theorem setCore_quads (s : State) (n : Nat) (x : Core) : (s.setCore n x).quads = s.quads := rfl
@[simp] theorem setCore_dies (s : State) (n : Nat) (x : Core) : (s.setCore n x).dies = s.dies := rfl
@[simp] theorem setCore_pkgs (s : State) (n : Nat) (x : Core) : (s.setCore n x).pkgs = s.pkgs := rfl
@[simp] theorem setCore_flights (s : State) (n : Nat) (x : Core) : (s.setCore n x).flights = s.flights := rfl
@[simp] theorem setCore_copies (s : State) (n : Nat) (x : Core) : (s.setCore n x).copies = s.copies := rfl
@[simp] theorem setCore_mortar (s : State) (n : Nat) (x : Core) : (s.setCore n x).mortar = s.mortar := rfl
@[simp] theorem setCore_joints (s : State) (n : Nat) (x : Core) : (s.setCore n x).joints = s.joints := rfl
@[simp] theorem setCore_wideBars (s : State) (n : Nat) (x : Core) : (s.setCore n x).wideBars = s.wideBars := rfl
@[simp] theorem setCore_packets (s : State) (n : Nat) (x : Core) : (s.setCore n x).packets = s.packets := rfl
@[simp] theorem setCore_circuitChunks (s : State) (n : Nat) (x : Core) : (s.setCore n x).circuitChunks = s.circuitChunks := rfl
@[simp] theorem setCore_frames (s : State) (n : Nat) (x : Core) : (s.setCore n x).frames = s.frames := rfl
@[simp] theorem setCore_outbox (s : State) (n : Nat) (x : Core) : (s.setCore n x).outbox = s.outbox := rfl
@[simp] theorem setCore_agenda (s : State) (n : Nat) (x : Core) : (s.setCore n x).agenda = s.agenda := rfl
@[simp] theorem setCore_floors (s : State) (n : Nat) (x : Core) : (s.setCore n x).floors = s.floors := rfl
@[simp] theorem setCore_dirty (s : State) (n : Nat) (x : Core) : (s.setCore n x).dirty = s.dirty := rfl
@[simp] theorem setCore_refTime (s : State) (n : Nat) (x : Core) : (s.setCore n x).refTime = s.refTime := rfl
@[simp] theorem setCore_before (s : State) (n : Nat) (x : Core) : (s.setCore n x).before = s.before := rfl
@[simp] theorem setCore_cur (s : State) (n : Nat) (x : Core) : (s.setCore n x).cur = s.cur := rfl
@[simp] theorem setCore_fresh (s : State) (n : Nat) (x : Core) : (s.setCore n x).fresh = s.fresh := rfl

/-! ## setQuad -/

@[simp] theorem setQuad_mem (s : State) (n : Nat) (x : Quad) : (s.setQuad n x).mem = s.mem := rfl
@[simp] theorem setQuad_dir (s : State) (n : Nat) (x : Quad) : (s.setQuad n x).dir = s.dir := rfl
@[simp] theorem setQuad_dev (s : State) (n : Nat) (x : Quad) : (s.setQuad n x).dev = s.dev := rfl
@[simp] theorem setQuad_teams (s : State) (n : Nat) (x : Quad) : (s.setQuad n x).teams = s.teams := rfl
@[simp] theorem setQuad_courses (s : State) (n : Nat) (x : Quad) : (s.setQuad n x).courses = s.courses := rfl
@[simp] theorem setQuad_cores (s : State) (n : Nat) (x : Quad) : (s.setQuad n x).cores = s.cores := rfl
@[simp] theorem setQuad_quads (s : State) (n : Nat) (x : Quad) : (s.setQuad n x).quads = SMap.put s.quads n x := rfl
@[simp] theorem setQuad_dies (s : State) (n : Nat) (x : Quad) : (s.setQuad n x).dies = s.dies := rfl
@[simp] theorem setQuad_pkgs (s : State) (n : Nat) (x : Quad) : (s.setQuad n x).pkgs = s.pkgs := rfl
@[simp] theorem setQuad_flights (s : State) (n : Nat) (x : Quad) : (s.setQuad n x).flights = s.flights := rfl
@[simp] theorem setQuad_copies (s : State) (n : Nat) (x : Quad) : (s.setQuad n x).copies = s.copies := rfl
@[simp] theorem setQuad_mortar (s : State) (n : Nat) (x : Quad) : (s.setQuad n x).mortar = s.mortar := rfl
@[simp] theorem setQuad_joints (s : State) (n : Nat) (x : Quad) : (s.setQuad n x).joints = s.joints := rfl
@[simp] theorem setQuad_wideBars (s : State) (n : Nat) (x : Quad) : (s.setQuad n x).wideBars = s.wideBars := rfl
@[simp] theorem setQuad_packets (s : State) (n : Nat) (x : Quad) : (s.setQuad n x).packets = s.packets := rfl
@[simp] theorem setQuad_circuitChunks (s : State) (n : Nat) (x : Quad) : (s.setQuad n x).circuitChunks = s.circuitChunks := rfl
@[simp] theorem setQuad_frames (s : State) (n : Nat) (x : Quad) : (s.setQuad n x).frames = s.frames := rfl
@[simp] theorem setQuad_outbox (s : State) (n : Nat) (x : Quad) : (s.setQuad n x).outbox = s.outbox := rfl
@[simp] theorem setQuad_agenda (s : State) (n : Nat) (x : Quad) : (s.setQuad n x).agenda = s.agenda := rfl
@[simp] theorem setQuad_floors (s : State) (n : Nat) (x : Quad) : (s.setQuad n x).floors = s.floors := rfl
@[simp] theorem setQuad_dirty (s : State) (n : Nat) (x : Quad) : (s.setQuad n x).dirty = s.dirty := rfl
@[simp] theorem setQuad_refTime (s : State) (n : Nat) (x : Quad) : (s.setQuad n x).refTime = s.refTime := rfl
@[simp] theorem setQuad_before (s : State) (n : Nat) (x : Quad) : (s.setQuad n x).before = s.before := rfl
@[simp] theorem setQuad_cur (s : State) (n : Nat) (x : Quad) : (s.setQuad n x).cur = s.cur := rfl
@[simp] theorem setQuad_fresh (s : State) (n : Nat) (x : Quad) : (s.setQuad n x).fresh = s.fresh := rfl

/-! ## setDie -/

@[simp] theorem setDie_mem (s : State) (n : Nat) (x : Die) : (s.setDie n x).mem = s.mem := rfl
@[simp] theorem setDie_dir (s : State) (n : Nat) (x : Die) : (s.setDie n x).dir = s.dir := rfl
@[simp] theorem setDie_dev (s : State) (n : Nat) (x : Die) : (s.setDie n x).dev = s.dev := rfl
@[simp] theorem setDie_teams (s : State) (n : Nat) (x : Die) : (s.setDie n x).teams = s.teams := rfl
@[simp] theorem setDie_courses (s : State) (n : Nat) (x : Die) : (s.setDie n x).courses = s.courses := rfl
@[simp] theorem setDie_cores (s : State) (n : Nat) (x : Die) : (s.setDie n x).cores = s.cores := rfl
@[simp] theorem setDie_quads (s : State) (n : Nat) (x : Die) : (s.setDie n x).quads = s.quads := rfl
@[simp] theorem setDie_dies (s : State) (n : Nat) (x : Die) : (s.setDie n x).dies = SMap.put s.dies n x := rfl
@[simp] theorem setDie_pkgs (s : State) (n : Nat) (x : Die) : (s.setDie n x).pkgs = s.pkgs := rfl
@[simp] theorem setDie_flights (s : State) (n : Nat) (x : Die) : (s.setDie n x).flights = s.flights := rfl
@[simp] theorem setDie_copies (s : State) (n : Nat) (x : Die) : (s.setDie n x).copies = s.copies := rfl
@[simp] theorem setDie_mortar (s : State) (n : Nat) (x : Die) : (s.setDie n x).mortar = s.mortar := rfl
@[simp] theorem setDie_joints (s : State) (n : Nat) (x : Die) : (s.setDie n x).joints = s.joints := rfl
@[simp] theorem setDie_wideBars (s : State) (n : Nat) (x : Die) : (s.setDie n x).wideBars = s.wideBars := rfl
@[simp] theorem setDie_packets (s : State) (n : Nat) (x : Die) : (s.setDie n x).packets = s.packets := rfl
@[simp] theorem setDie_circuitChunks (s : State) (n : Nat) (x : Die) : (s.setDie n x).circuitChunks = s.circuitChunks := rfl
@[simp] theorem setDie_frames (s : State) (n : Nat) (x : Die) : (s.setDie n x).frames = s.frames := rfl
@[simp] theorem setDie_outbox (s : State) (n : Nat) (x : Die) : (s.setDie n x).outbox = s.outbox := rfl
@[simp] theorem setDie_agenda (s : State) (n : Nat) (x : Die) : (s.setDie n x).agenda = s.agenda := rfl
@[simp] theorem setDie_floors (s : State) (n : Nat) (x : Die) : (s.setDie n x).floors = s.floors := rfl
@[simp] theorem setDie_dirty (s : State) (n : Nat) (x : Die) : (s.setDie n x).dirty = s.dirty := rfl
@[simp] theorem setDie_refTime (s : State) (n : Nat) (x : Die) : (s.setDie n x).refTime = s.refTime := rfl
@[simp] theorem setDie_before (s : State) (n : Nat) (x : Die) : (s.setDie n x).before = s.before := rfl
@[simp] theorem setDie_cur (s : State) (n : Nat) (x : Die) : (s.setDie n x).cur = s.cur := rfl
@[simp] theorem setDie_fresh (s : State) (n : Nat) (x : Die) : (s.setDie n x).fresh = s.fresh := rfl

/-! ## setPkg -/

@[simp] theorem setPkg_mem (s : State) (n : Nat) (x : Pkg) : (s.setPkg n x).mem = s.mem := rfl
@[simp] theorem setPkg_dir (s : State) (n : Nat) (x : Pkg) : (s.setPkg n x).dir = s.dir := rfl
@[simp] theorem setPkg_dev (s : State) (n : Nat) (x : Pkg) : (s.setPkg n x).dev = s.dev := rfl
@[simp] theorem setPkg_teams (s : State) (n : Nat) (x : Pkg) : (s.setPkg n x).teams = s.teams := rfl
@[simp] theorem setPkg_courses (s : State) (n : Nat) (x : Pkg) : (s.setPkg n x).courses = s.courses := rfl
@[simp] theorem setPkg_cores (s : State) (n : Nat) (x : Pkg) : (s.setPkg n x).cores = s.cores := rfl
@[simp] theorem setPkg_quads (s : State) (n : Nat) (x : Pkg) : (s.setPkg n x).quads = s.quads := rfl
@[simp] theorem setPkg_dies (s : State) (n : Nat) (x : Pkg) : (s.setPkg n x).dies = s.dies := rfl
@[simp] theorem setPkg_pkgs (s : State) (n : Nat) (x : Pkg) : (s.setPkg n x).pkgs = SMap.put s.pkgs n x := rfl
@[simp] theorem setPkg_flights (s : State) (n : Nat) (x : Pkg) : (s.setPkg n x).flights = s.flights := rfl
@[simp] theorem setPkg_copies (s : State) (n : Nat) (x : Pkg) : (s.setPkg n x).copies = s.copies := rfl
@[simp] theorem setPkg_mortar (s : State) (n : Nat) (x : Pkg) : (s.setPkg n x).mortar = s.mortar := rfl
@[simp] theorem setPkg_joints (s : State) (n : Nat) (x : Pkg) : (s.setPkg n x).joints = s.joints := rfl
@[simp] theorem setPkg_wideBars (s : State) (n : Nat) (x : Pkg) : (s.setPkg n x).wideBars = s.wideBars := rfl
@[simp] theorem setPkg_packets (s : State) (n : Nat) (x : Pkg) : (s.setPkg n x).packets = s.packets := rfl
@[simp] theorem setPkg_circuitChunks (s : State) (n : Nat) (x : Pkg) : (s.setPkg n x).circuitChunks = s.circuitChunks := rfl
@[simp] theorem setPkg_frames (s : State) (n : Nat) (x : Pkg) : (s.setPkg n x).frames = s.frames := rfl
@[simp] theorem setPkg_outbox (s : State) (n : Nat) (x : Pkg) : (s.setPkg n x).outbox = s.outbox := rfl
@[simp] theorem setPkg_agenda (s : State) (n : Nat) (x : Pkg) : (s.setPkg n x).agenda = s.agenda := rfl
@[simp] theorem setPkg_floors (s : State) (n : Nat) (x : Pkg) : (s.setPkg n x).floors = s.floors := rfl
@[simp] theorem setPkg_dirty (s : State) (n : Nat) (x : Pkg) : (s.setPkg n x).dirty = s.dirty := rfl
@[simp] theorem setPkg_refTime (s : State) (n : Nat) (x : Pkg) : (s.setPkg n x).refTime = s.refTime := rfl
@[simp] theorem setPkg_before (s : State) (n : Nat) (x : Pkg) : (s.setPkg n x).before = s.before := rfl
@[simp] theorem setPkg_cur (s : State) (n : Nat) (x : Pkg) : (s.setPkg n x).cur = s.cur := rfl
@[simp] theorem setPkg_fresh (s : State) (n : Nat) (x : Pkg) : (s.setPkg n x).fresh = s.fresh := rfl

/-! ## modCore -/

@[simp] theorem modCore_mem (s : State) (n : Nat) (f : Core → Core) : (s.modCore n f).mem = s.mem := rfl
@[simp] theorem modCore_dir (s : State) (n : Nat) (f : Core → Core) : (s.modCore n f).dir = s.dir := rfl
@[simp] theorem modCore_dev (s : State) (n : Nat) (f : Core → Core) : (s.modCore n f).dev = s.dev := rfl
@[simp] theorem modCore_teams (s : State) (n : Nat) (f : Core → Core) : (s.modCore n f).teams = s.teams := rfl
@[simp] theorem modCore_courses (s : State) (n : Nat) (f : Core → Core) : (s.modCore n f).courses = s.courses := rfl
@[simp] theorem modCore_cores (s : State) (n : Nat) (f : Core → Core) : (s.modCore n f).cores = SMap.put s.cores n (f (s.core n)) := rfl
@[simp] theorem modCore_quads (s : State) (n : Nat) (f : Core → Core) : (s.modCore n f).quads = s.quads := rfl
@[simp] theorem modCore_dies (s : State) (n : Nat) (f : Core → Core) : (s.modCore n f).dies = s.dies := rfl
@[simp] theorem modCore_pkgs (s : State) (n : Nat) (f : Core → Core) : (s.modCore n f).pkgs = s.pkgs := rfl
@[simp] theorem modCore_flights (s : State) (n : Nat) (f : Core → Core) : (s.modCore n f).flights = s.flights := rfl
@[simp] theorem modCore_copies (s : State) (n : Nat) (f : Core → Core) : (s.modCore n f).copies = s.copies := rfl
@[simp] theorem modCore_mortar (s : State) (n : Nat) (f : Core → Core) : (s.modCore n f).mortar = s.mortar := rfl
@[simp] theorem modCore_joints (s : State) (n : Nat) (f : Core → Core) : (s.modCore n f).joints = s.joints := rfl
@[simp] theorem modCore_wideBars (s : State) (n : Nat) (f : Core → Core) : (s.modCore n f).wideBars = s.wideBars := rfl
@[simp] theorem modCore_packets (s : State) (n : Nat) (f : Core → Core) : (s.modCore n f).packets = s.packets := rfl
@[simp] theorem modCore_circuitChunks (s : State) (n : Nat) (f : Core → Core) : (s.modCore n f).circuitChunks = s.circuitChunks := rfl
@[simp] theorem modCore_frames (s : State) (n : Nat) (f : Core → Core) : (s.modCore n f).frames = s.frames := rfl
@[simp] theorem modCore_outbox (s : State) (n : Nat) (f : Core → Core) : (s.modCore n f).outbox = s.outbox := rfl
@[simp] theorem modCore_agenda (s : State) (n : Nat) (f : Core → Core) : (s.modCore n f).agenda = s.agenda := rfl
@[simp] theorem modCore_floors (s : State) (n : Nat) (f : Core → Core) : (s.modCore n f).floors = s.floors := rfl
@[simp] theorem modCore_dirty (s : State) (n : Nat) (f : Core → Core) : (s.modCore n f).dirty = s.dirty := rfl
@[simp] theorem modCore_refTime (s : State) (n : Nat) (f : Core → Core) : (s.modCore n f).refTime = s.refTime := rfl
@[simp] theorem modCore_before (s : State) (n : Nat) (f : Core → Core) : (s.modCore n f).before = s.before := rfl
@[simp] theorem modCore_cur (s : State) (n : Nat) (f : Core → Core) : (s.modCore n f).cur = s.cur := rfl
@[simp] theorem modCore_fresh (s : State) (n : Nat) (f : Core → Core) : (s.modCore n f).fresh = s.fresh := rfl

/-! ## modQuad -/

@[simp] theorem modQuad_mem (s : State) (n : Nat) (f : Quad → Quad) : (s.modQuad n f).mem = s.mem := rfl
@[simp] theorem modQuad_dir (s : State) (n : Nat) (f : Quad → Quad) : (s.modQuad n f).dir = s.dir := rfl
@[simp] theorem modQuad_dev (s : State) (n : Nat) (f : Quad → Quad) : (s.modQuad n f).dev = s.dev := rfl
@[simp] theorem modQuad_teams (s : State) (n : Nat) (f : Quad → Quad) : (s.modQuad n f).teams = s.teams := rfl
@[simp] theorem modQuad_courses (s : State) (n : Nat) (f : Quad → Quad) : (s.modQuad n f).courses = s.courses := rfl
@[simp] theorem modQuad_cores (s : State) (n : Nat) (f : Quad → Quad) : (s.modQuad n f).cores = s.cores := rfl
@[simp] theorem modQuad_quads (s : State) (n : Nat) (f : Quad → Quad) : (s.modQuad n f).quads = SMap.put s.quads n (f (s.quad n)) := rfl
@[simp] theorem modQuad_dies (s : State) (n : Nat) (f : Quad → Quad) : (s.modQuad n f).dies = s.dies := rfl
@[simp] theorem modQuad_pkgs (s : State) (n : Nat) (f : Quad → Quad) : (s.modQuad n f).pkgs = s.pkgs := rfl
@[simp] theorem modQuad_flights (s : State) (n : Nat) (f : Quad → Quad) : (s.modQuad n f).flights = s.flights := rfl
@[simp] theorem modQuad_copies (s : State) (n : Nat) (f : Quad → Quad) : (s.modQuad n f).copies = s.copies := rfl
@[simp] theorem modQuad_mortar (s : State) (n : Nat) (f : Quad → Quad) : (s.modQuad n f).mortar = s.mortar := rfl
@[simp] theorem modQuad_joints (s : State) (n : Nat) (f : Quad → Quad) : (s.modQuad n f).joints = s.joints := rfl
@[simp] theorem modQuad_wideBars (s : State) (n : Nat) (f : Quad → Quad) : (s.modQuad n f).wideBars = s.wideBars := rfl
@[simp] theorem modQuad_packets (s : State) (n : Nat) (f : Quad → Quad) : (s.modQuad n f).packets = s.packets := rfl
@[simp] theorem modQuad_circuitChunks (s : State) (n : Nat) (f : Quad → Quad) : (s.modQuad n f).circuitChunks = s.circuitChunks := rfl
@[simp] theorem modQuad_frames (s : State) (n : Nat) (f : Quad → Quad) : (s.modQuad n f).frames = s.frames := rfl
@[simp] theorem modQuad_outbox (s : State) (n : Nat) (f : Quad → Quad) : (s.modQuad n f).outbox = s.outbox := rfl
@[simp] theorem modQuad_agenda (s : State) (n : Nat) (f : Quad → Quad) : (s.modQuad n f).agenda = s.agenda := rfl
@[simp] theorem modQuad_floors (s : State) (n : Nat) (f : Quad → Quad) : (s.modQuad n f).floors = s.floors := rfl
@[simp] theorem modQuad_dirty (s : State) (n : Nat) (f : Quad → Quad) : (s.modQuad n f).dirty = s.dirty := rfl
@[simp] theorem modQuad_refTime (s : State) (n : Nat) (f : Quad → Quad) : (s.modQuad n f).refTime = s.refTime := rfl
@[simp] theorem modQuad_before (s : State) (n : Nat) (f : Quad → Quad) : (s.modQuad n f).before = s.before := rfl
@[simp] theorem modQuad_cur (s : State) (n : Nat) (f : Quad → Quad) : (s.modQuad n f).cur = s.cur := rfl
@[simp] theorem modQuad_fresh (s : State) (n : Nat) (f : Quad → Quad) : (s.modQuad n f).fresh = s.fresh := rfl

/-! ## modDie -/

@[simp] theorem modDie_mem (s : State) (n : Nat) (f : Die → Die) : (s.modDie n f).mem = s.mem := rfl
@[simp] theorem modDie_dir (s : State) (n : Nat) (f : Die → Die) : (s.modDie n f).dir = s.dir := rfl
@[simp] theorem modDie_dev (s : State) (n : Nat) (f : Die → Die) : (s.modDie n f).dev = s.dev := rfl
@[simp] theorem modDie_teams (s : State) (n : Nat) (f : Die → Die) : (s.modDie n f).teams = s.teams := rfl
@[simp] theorem modDie_courses (s : State) (n : Nat) (f : Die → Die) : (s.modDie n f).courses = s.courses := rfl
@[simp] theorem modDie_cores (s : State) (n : Nat) (f : Die → Die) : (s.modDie n f).cores = s.cores := rfl
@[simp] theorem modDie_quads (s : State) (n : Nat) (f : Die → Die) : (s.modDie n f).quads = s.quads := rfl
@[simp] theorem modDie_dies (s : State) (n : Nat) (f : Die → Die) : (s.modDie n f).dies = SMap.put s.dies n (f (s.die n)) := rfl
@[simp] theorem modDie_pkgs (s : State) (n : Nat) (f : Die → Die) : (s.modDie n f).pkgs = s.pkgs := rfl
@[simp] theorem modDie_flights (s : State) (n : Nat) (f : Die → Die) : (s.modDie n f).flights = s.flights := rfl
@[simp] theorem modDie_copies (s : State) (n : Nat) (f : Die → Die) : (s.modDie n f).copies = s.copies := rfl
@[simp] theorem modDie_mortar (s : State) (n : Nat) (f : Die → Die) : (s.modDie n f).mortar = s.mortar := rfl
@[simp] theorem modDie_joints (s : State) (n : Nat) (f : Die → Die) : (s.modDie n f).joints = s.joints := rfl
@[simp] theorem modDie_wideBars (s : State) (n : Nat) (f : Die → Die) : (s.modDie n f).wideBars = s.wideBars := rfl
@[simp] theorem modDie_packets (s : State) (n : Nat) (f : Die → Die) : (s.modDie n f).packets = s.packets := rfl
@[simp] theorem modDie_circuitChunks (s : State) (n : Nat) (f : Die → Die) : (s.modDie n f).circuitChunks = s.circuitChunks := rfl
@[simp] theorem modDie_frames (s : State) (n : Nat) (f : Die → Die) : (s.modDie n f).frames = s.frames := rfl
@[simp] theorem modDie_outbox (s : State) (n : Nat) (f : Die → Die) : (s.modDie n f).outbox = s.outbox := rfl
@[simp] theorem modDie_agenda (s : State) (n : Nat) (f : Die → Die) : (s.modDie n f).agenda = s.agenda := rfl
@[simp] theorem modDie_floors (s : State) (n : Nat) (f : Die → Die) : (s.modDie n f).floors = s.floors := rfl
@[simp] theorem modDie_dirty (s : State) (n : Nat) (f : Die → Die) : (s.modDie n f).dirty = s.dirty := rfl
@[simp] theorem modDie_refTime (s : State) (n : Nat) (f : Die → Die) : (s.modDie n f).refTime = s.refTime := rfl
@[simp] theorem modDie_before (s : State) (n : Nat) (f : Die → Die) : (s.modDie n f).before = s.before := rfl
@[simp] theorem modDie_cur (s : State) (n : Nat) (f : Die → Die) : (s.modDie n f).cur = s.cur := rfl
@[simp] theorem modDie_fresh (s : State) (n : Nat) (f : Die → Die) : (s.modDie n f).fresh = s.fresh := rfl

/-! ## modPkg -/

@[simp] theorem modPkg_mem (s : State) (n : Nat) (f : Pkg → Pkg) : (s.modPkg n f).mem = s.mem := rfl
@[simp] theorem modPkg_dir (s : State) (n : Nat) (f : Pkg → Pkg) : (s.modPkg n f).dir = s.dir := rfl
@[simp] theorem modPkg_dev (s : State) (n : Nat) (f : Pkg → Pkg) : (s.modPkg n f).dev = s.dev := rfl
@[simp] theorem modPkg_teams (s : State) (n : Nat) (f : Pkg → Pkg) : (s.modPkg n f).teams = s.teams := rfl
@[simp] theorem modPkg_courses (s : State) (n : Nat) (f : Pkg → Pkg) : (s.modPkg n f).courses = s.courses := rfl
@[simp] theorem modPkg_cores (s : State) (n : Nat) (f : Pkg → Pkg) : (s.modPkg n f).cores = s.cores := rfl
@[simp] theorem modPkg_quads (s : State) (n : Nat) (f : Pkg → Pkg) : (s.modPkg n f).quads = s.quads := rfl
@[simp] theorem modPkg_dies (s : State) (n : Nat) (f : Pkg → Pkg) : (s.modPkg n f).dies = s.dies := rfl
@[simp] theorem modPkg_pkgs (s : State) (n : Nat) (f : Pkg → Pkg) : (s.modPkg n f).pkgs = SMap.put s.pkgs n (f (s.pkg n)) := rfl
@[simp] theorem modPkg_flights (s : State) (n : Nat) (f : Pkg → Pkg) : (s.modPkg n f).flights = s.flights := rfl
@[simp] theorem modPkg_copies (s : State) (n : Nat) (f : Pkg → Pkg) : (s.modPkg n f).copies = s.copies := rfl
@[simp] theorem modPkg_mortar (s : State) (n : Nat) (f : Pkg → Pkg) : (s.modPkg n f).mortar = s.mortar := rfl
@[simp] theorem modPkg_joints (s : State) (n : Nat) (f : Pkg → Pkg) : (s.modPkg n f).joints = s.joints := rfl
@[simp] theorem modPkg_wideBars (s : State) (n : Nat) (f : Pkg → Pkg) : (s.modPkg n f).wideBars = s.wideBars := rfl
@[simp] theorem modPkg_packets (s : State) (n : Nat) (f : Pkg → Pkg) : (s.modPkg n f).packets = s.packets := rfl
@[simp] theorem modPkg_circuitChunks (s : State) (n : Nat) (f : Pkg → Pkg) : (s.modPkg n f).circuitChunks = s.circuitChunks := rfl
@[simp] theorem modPkg_frames (s : State) (n : Nat) (f : Pkg → Pkg) : (s.modPkg n f).frames = s.frames := rfl
@[simp] theorem modPkg_outbox (s : State) (n : Nat) (f : Pkg → Pkg) : (s.modPkg n f).outbox = s.outbox := rfl
@[simp] theorem modPkg_agenda (s : State) (n : Nat) (f : Pkg → Pkg) : (s.modPkg n f).agenda = s.agenda := rfl
@[simp] theorem modPkg_floors (s : State) (n : Nat) (f : Pkg → Pkg) : (s.modPkg n f).floors = s.floors := rfl
@[simp] theorem modPkg_dirty (s : State) (n : Nat) (f : Pkg → Pkg) : (s.modPkg n f).dirty = s.dirty := rfl
@[simp] theorem modPkg_refTime (s : State) (n : Nat) (f : Pkg → Pkg) : (s.modPkg n f).refTime = s.refTime := rfl
@[simp] theorem modPkg_before (s : State) (n : Nat) (f : Pkg → Pkg) : (s.modPkg n f).before = s.before := rfl
@[simp] theorem modPkg_cur (s : State) (n : Nat) (f : Pkg → Pkg) : (s.modPkg n f).cur = s.cur := rfl
@[simp] theorem modPkg_fresh (s : State) (n : Nat) (f : Pkg → Pkg) : (s.modPkg n f).fresh = s.fresh := rfl

/-! ## tick -/

@[simp] theorem tick_mem (s : State) : (s.tick).mem = s.mem := rfl
@[simp] theorem tick_dir (s : State) : (s.tick).dir = s.dir := rfl
@[simp] theorem tick_dev (s : State) : (s.tick).dev = s.dev := rfl
@[simp] theorem tick_teams (s : State) : (s.tick).teams = s.teams := rfl
@[simp] theorem tick_courses (s : State) : (s.tick).courses = s.courses := rfl
@[simp] theorem tick_cores (s : State) : (s.tick).cores = s.cores := rfl
@[simp] theorem tick_quads (s : State) : (s.tick).quads = s.quads := rfl
@[simp] theorem tick_dies (s : State) : (s.tick).dies = s.dies := rfl
@[simp] theorem tick_pkgs (s : State) : (s.tick).pkgs = s.pkgs := rfl
@[simp] theorem tick_flights (s : State) : (s.tick).flights = s.flights := rfl
@[simp] theorem tick_copies (s : State) : (s.tick).copies = s.copies := rfl
@[simp] theorem tick_mortar (s : State) : (s.tick).mortar = s.mortar := rfl
@[simp] theorem tick_joints (s : State) : (s.tick).joints = s.joints := rfl
@[simp] theorem tick_wideBars (s : State) : (s.tick).wideBars = s.wideBars := rfl
@[simp] theorem tick_packets (s : State) : (s.tick).packets = s.packets := rfl
@[simp] theorem tick_circuitChunks (s : State) : (s.tick).circuitChunks = s.circuitChunks := rfl
@[simp] theorem tick_frames (s : State) : (s.tick).frames = s.frames := rfl
@[simp] theorem tick_outbox (s : State) : (s.tick).outbox = s.outbox := rfl
@[simp] theorem tick_agenda (s : State) : (s.tick).agenda = s.agenda := rfl
@[simp] theorem tick_floors (s : State) : (s.tick).floors = s.floors := rfl
@[simp] theorem tick_dirty (s : State) : (s.tick).dirty = s.dirty := rfl
@[simp] theorem tick_refTime (s : State) : (s.tick).refTime = s.refTime := rfl
@[simp] theorem tick_before (s : State) : (s.tick).before = s.before := rfl
@[simp] theorem tick_cur (s : State) : (s.tick).cur = s.cur := rfl
@[simp] theorem tick_fresh (s : State) : (s.tick).fresh = s.fresh + 1 := rfl

/-! ## send -/

@[simp] theorem send_mem (s : State) (f : Flight) : (s.send f).mem = s.mem := rfl
@[simp] theorem send_dir (s : State) (f : Flight) : (s.send f).dir = s.dir := rfl
@[simp] theorem send_dev (s : State) (f : Flight) : (s.send f).dev = s.dev := rfl
@[simp] theorem send_teams (s : State) (f : Flight) : (s.send f).teams = s.teams := rfl
@[simp] theorem send_courses (s : State) (f : Flight) : (s.send f).courses = s.courses := rfl
@[simp] theorem send_cores (s : State) (f : Flight) : (s.send f).cores = s.cores := rfl
@[simp] theorem send_quads (s : State) (f : Flight) : (s.send f).quads = s.quads := rfl
@[simp] theorem send_dies (s : State) (f : Flight) : (s.send f).dies = s.dies := rfl
@[simp] theorem send_pkgs (s : State) (f : Flight) : (s.send f).pkgs = s.pkgs := rfl
@[simp] theorem send_flights (s : State) (f : Flight) : (s.send f).flights = SMap.put s.flights s.fresh f := rfl
@[simp] theorem send_copies (s : State) (f : Flight) : (s.send f).copies = s.copies := rfl
@[simp] theorem send_mortar (s : State) (f : Flight) : (s.send f).mortar = s.mortar := rfl
@[simp] theorem send_joints (s : State) (f : Flight) : (s.send f).joints = s.joints := rfl
@[simp] theorem send_wideBars (s : State) (f : Flight) : (s.send f).wideBars = s.wideBars := rfl
@[simp] theorem send_packets (s : State) (f : Flight) : (s.send f).packets = s.packets := rfl
@[simp] theorem send_circuitChunks (s : State) (f : Flight) : (s.send f).circuitChunks = s.circuitChunks := rfl
@[simp] theorem send_frames (s : State) (f : Flight) : (s.send f).frames = s.frames := rfl
@[simp] theorem send_outbox (s : State) (f : Flight) : (s.send f).outbox = s.outbox := rfl
@[simp] theorem send_agenda (s : State) (f : Flight) : (s.send f).agenda = s.agenda := rfl
@[simp] theorem send_floors (s : State) (f : Flight) : (s.send f).floors = s.floors := rfl
@[simp] theorem send_dirty (s : State) (f : Flight) : (s.send f).dirty = s.dirty := rfl
@[simp] theorem send_refTime (s : State) (f : Flight) : (s.send f).refTime = s.refTime := rfl
@[simp] theorem send_before (s : State) (f : Flight) : (s.send f).before = s.before := rfl
@[simp] theorem send_cur (s : State) (f : Flight) : (s.send f).cur = s.cur := rfl
@[simp] theorem send_fresh (s : State) (f : Flight) : (s.send f).fresh = s.fresh + 1 := rfl

/-! ## drop -/

@[simp] theorem drop_mem (s : State) (n : Nat) : (s.drop n).mem = s.mem := rfl
@[simp] theorem drop_dir (s : State) (n : Nat) : (s.drop n).dir = s.dir := rfl
@[simp] theorem drop_dev (s : State) (n : Nat) : (s.drop n).dev = s.dev := rfl
@[simp] theorem drop_teams (s : State) (n : Nat) : (s.drop n).teams = s.teams := rfl
@[simp] theorem drop_courses (s : State) (n : Nat) : (s.drop n).courses = s.courses := rfl
@[simp] theorem drop_cores (s : State) (n : Nat) : (s.drop n).cores = s.cores := rfl
@[simp] theorem drop_quads (s : State) (n : Nat) : (s.drop n).quads = s.quads := rfl
@[simp] theorem drop_dies (s : State) (n : Nat) : (s.drop n).dies = s.dies := rfl
@[simp] theorem drop_pkgs (s : State) (n : Nat) : (s.drop n).pkgs = s.pkgs := rfl
@[simp] theorem drop_flights (s : State) (n : Nat) : (s.drop n).flights = SMap.del s.flights n := rfl
@[simp] theorem drop_copies (s : State) (n : Nat) : (s.drop n).copies = s.copies := rfl
@[simp] theorem drop_mortar (s : State) (n : Nat) : (s.drop n).mortar = s.mortar := rfl
@[simp] theorem drop_joints (s : State) (n : Nat) : (s.drop n).joints = s.joints := rfl
@[simp] theorem drop_wideBars (s : State) (n : Nat) : (s.drop n).wideBars = s.wideBars := rfl
@[simp] theorem drop_packets (s : State) (n : Nat) : (s.drop n).packets = s.packets := rfl
@[simp] theorem drop_circuitChunks (s : State) (n : Nat) : (s.drop n).circuitChunks = s.circuitChunks := rfl
@[simp] theorem drop_frames (s : State) (n : Nat) : (s.drop n).frames = s.frames := rfl
@[simp] theorem drop_outbox (s : State) (n : Nat) : (s.drop n).outbox = s.outbox := rfl
@[simp] theorem drop_agenda (s : State) (n : Nat) : (s.drop n).agenda = s.agenda := rfl
@[simp] theorem drop_floors (s : State) (n : Nat) : (s.drop n).floors = s.floors := rfl
@[simp] theorem drop_dirty (s : State) (n : Nat) : (s.drop n).dirty = s.dirty := rfl
@[simp] theorem drop_refTime (s : State) (n : Nat) : (s.drop n).refTime = s.refTime := rfl
@[simp] theorem drop_before (s : State) (n : Nat) : (s.drop n).before = s.before := rfl
@[simp] theorem drop_cur (s : State) (n : Nat) : (s.drop n).cur = s.cur := rfl
@[simp] theorem drop_fresh (s : State) (n : Nat) : (s.drop n).fresh = s.fresh := rfl

/-! ## setFlight -/

@[simp] theorem setFlight_mem (s : State) (n : Nat) (f : Flight) : (s.setFlight n f).mem = s.mem := rfl
@[simp] theorem setFlight_dir (s : State) (n : Nat) (f : Flight) : (s.setFlight n f).dir = s.dir := rfl
@[simp] theorem setFlight_dev (s : State) (n : Nat) (f : Flight) : (s.setFlight n f).dev = s.dev := rfl
@[simp] theorem setFlight_teams (s : State) (n : Nat) (f : Flight) : (s.setFlight n f).teams = s.teams := rfl
@[simp] theorem setFlight_courses (s : State) (n : Nat) (f : Flight) : (s.setFlight n f).courses = s.courses := rfl
@[simp] theorem setFlight_cores (s : State) (n : Nat) (f : Flight) : (s.setFlight n f).cores = s.cores := rfl
@[simp] theorem setFlight_quads (s : State) (n : Nat) (f : Flight) : (s.setFlight n f).quads = s.quads := rfl
@[simp] theorem setFlight_dies (s : State) (n : Nat) (f : Flight) : (s.setFlight n f).dies = s.dies := rfl
@[simp] theorem setFlight_pkgs (s : State) (n : Nat) (f : Flight) : (s.setFlight n f).pkgs = s.pkgs := rfl
@[simp] theorem setFlight_flights (s : State) (n : Nat) (f : Flight) : (s.setFlight n f).flights = SMap.put s.flights n f := rfl
@[simp] theorem setFlight_copies (s : State) (n : Nat) (f : Flight) : (s.setFlight n f).copies = s.copies := rfl
@[simp] theorem setFlight_mortar (s : State) (n : Nat) (f : Flight) : (s.setFlight n f).mortar = s.mortar := rfl
@[simp] theorem setFlight_joints (s : State) (n : Nat) (f : Flight) : (s.setFlight n f).joints = s.joints := rfl
@[simp] theorem setFlight_wideBars (s : State) (n : Nat) (f : Flight) : (s.setFlight n f).wideBars = s.wideBars := rfl
@[simp] theorem setFlight_packets (s : State) (n : Nat) (f : Flight) : (s.setFlight n f).packets = s.packets := rfl
@[simp] theorem setFlight_circuitChunks (s : State) (n : Nat) (f : Flight) : (s.setFlight n f).circuitChunks = s.circuitChunks := rfl
@[simp] theorem setFlight_frames (s : State) (n : Nat) (f : Flight) : (s.setFlight n f).frames = s.frames := rfl
@[simp] theorem setFlight_outbox (s : State) (n : Nat) (f : Flight) : (s.setFlight n f).outbox = s.outbox := rfl
@[simp] theorem setFlight_agenda (s : State) (n : Nat) (f : Flight) : (s.setFlight n f).agenda = s.agenda := rfl
@[simp] theorem setFlight_floors (s : State) (n : Nat) (f : Flight) : (s.setFlight n f).floors = s.floors := rfl
@[simp] theorem setFlight_dirty (s : State) (n : Nat) (f : Flight) : (s.setFlight n f).dirty = s.dirty := rfl
@[simp] theorem setFlight_refTime (s : State) (n : Nat) (f : Flight) : (s.setFlight n f).refTime = s.refTime := rfl
@[simp] theorem setFlight_before (s : State) (n : Nat) (f : Flight) : (s.setFlight n f).before = s.before := rfl
@[simp] theorem setFlight_cur (s : State) (n : Nat) (f : Flight) : (s.setFlight n f).cur = s.cur := rfl
@[simp] theorem setFlight_fresh (s : State) (n : Nat) (f : Flight) : (s.setFlight n f).fresh = s.fresh := rfl

/-! ## setReg -/

@[simp] theorem setReg_mem (s : State) (p o v : Nat) : (s.setReg p o v).mem = s.mem := rfl
@[simp] theorem setReg_dir (s : State) (p o v : Nat) : (s.setReg p o v).dir = s.dir := rfl
@[simp] theorem setReg_dev (s : State) (p o v : Nat) : (s.setReg p o v).dev = SMap.setD s.dev (BitVec.ofNat 32 (regInfo o).reset) (regPa p o) (BitVec.ofNat 32 v) := rfl
@[simp] theorem setReg_teams (s : State) (p o v : Nat) : (s.setReg p o v).teams = s.teams := rfl
@[simp] theorem setReg_courses (s : State) (p o v : Nat) : (s.setReg p o v).courses = s.courses := rfl
@[simp] theorem setReg_cores (s : State) (p o v : Nat) : (s.setReg p o v).cores = s.cores := rfl
@[simp] theorem setReg_quads (s : State) (p o v : Nat) : (s.setReg p o v).quads = s.quads := rfl
@[simp] theorem setReg_dies (s : State) (p o v : Nat) : (s.setReg p o v).dies = s.dies := rfl
@[simp] theorem setReg_pkgs (s : State) (p o v : Nat) : (s.setReg p o v).pkgs = s.pkgs := rfl
@[simp] theorem setReg_flights (s : State) (p o v : Nat) : (s.setReg p o v).flights = s.flights := rfl
@[simp] theorem setReg_copies (s : State) (p o v : Nat) : (s.setReg p o v).copies = s.copies := rfl
@[simp] theorem setReg_mortar (s : State) (p o v : Nat) : (s.setReg p o v).mortar = s.mortar := rfl
@[simp] theorem setReg_joints (s : State) (p o v : Nat) : (s.setReg p o v).joints = s.joints := rfl
@[simp] theorem setReg_wideBars (s : State) (p o v : Nat) : (s.setReg p o v).wideBars = s.wideBars := rfl
@[simp] theorem setReg_packets (s : State) (p o v : Nat) : (s.setReg p o v).packets = s.packets := rfl
@[simp] theorem setReg_circuitChunks (s : State) (p o v : Nat) : (s.setReg p o v).circuitChunks = s.circuitChunks := rfl
@[simp] theorem setReg_frames (s : State) (p o v : Nat) : (s.setReg p o v).frames = s.frames := rfl
@[simp] theorem setReg_outbox (s : State) (p o v : Nat) : (s.setReg p o v).outbox = s.outbox := rfl
@[simp] theorem setReg_agenda (s : State) (p o v : Nat) : (s.setReg p o v).agenda = s.agenda := rfl
@[simp] theorem setReg_floors (s : State) (p o v : Nat) : (s.setReg p o v).floors = s.floors := rfl
@[simp] theorem setReg_dirty (s : State) (p o v : Nat) : (s.setReg p o v).dirty = s.dirty := rfl
@[simp] theorem setReg_refTime (s : State) (p o v : Nat) : (s.setReg p o v).refTime = s.refTime := rfl
@[simp] theorem setReg_before (s : State) (p o v : Nat) : (s.setReg p o v).before = s.before := rfl
@[simp] theorem setReg_cur (s : State) (p o v : Nat) : (s.setReg p o v).cur = s.cur := rfl
@[simp] theorem setReg_fresh (s : State) (p o v : Nat) : (s.setReg p o v).fresh = s.fresh := rfl

/-! ## orReg -/

@[simp] theorem orReg_mem (s : State) (p o v : Nat) : (s.orReg p o v).mem = s.mem := rfl
@[simp] theorem orReg_dir (s : State) (p o v : Nat) : (s.orReg p o v).dir = s.dir := rfl
@[simp] theorem orReg_dev (s : State) (p o v : Nat) : (s.orReg p o v).dev = (s.setReg p o (s.reg p o ||| v)).dev := rfl
@[simp] theorem orReg_teams (s : State) (p o v : Nat) : (s.orReg p o v).teams = s.teams := rfl
@[simp] theorem orReg_courses (s : State) (p o v : Nat) : (s.orReg p o v).courses = s.courses := rfl
@[simp] theorem orReg_cores (s : State) (p o v : Nat) : (s.orReg p o v).cores = s.cores := rfl
@[simp] theorem orReg_quads (s : State) (p o v : Nat) : (s.orReg p o v).quads = s.quads := rfl
@[simp] theorem orReg_dies (s : State) (p o v : Nat) : (s.orReg p o v).dies = s.dies := rfl
@[simp] theorem orReg_pkgs (s : State) (p o v : Nat) : (s.orReg p o v).pkgs = s.pkgs := rfl
@[simp] theorem orReg_flights (s : State) (p o v : Nat) : (s.orReg p o v).flights = s.flights := rfl
@[simp] theorem orReg_copies (s : State) (p o v : Nat) : (s.orReg p o v).copies = s.copies := rfl
@[simp] theorem orReg_mortar (s : State) (p o v : Nat) : (s.orReg p o v).mortar = s.mortar := rfl
@[simp] theorem orReg_joints (s : State) (p o v : Nat) : (s.orReg p o v).joints = s.joints := rfl
@[simp] theorem orReg_wideBars (s : State) (p o v : Nat) : (s.orReg p o v).wideBars = s.wideBars := rfl
@[simp] theorem orReg_packets (s : State) (p o v : Nat) : (s.orReg p o v).packets = s.packets := rfl
@[simp] theorem orReg_circuitChunks (s : State) (p o v : Nat) : (s.orReg p o v).circuitChunks = s.circuitChunks := rfl
@[simp] theorem orReg_frames (s : State) (p o v : Nat) : (s.orReg p o v).frames = s.frames := rfl
@[simp] theorem orReg_outbox (s : State) (p o v : Nat) : (s.orReg p o v).outbox = s.outbox := rfl
@[simp] theorem orReg_agenda (s : State) (p o v : Nat) : (s.orReg p o v).agenda = s.agenda := rfl
@[simp] theorem orReg_floors (s : State) (p o v : Nat) : (s.orReg p o v).floors = s.floors := rfl
@[simp] theorem orReg_dirty (s : State) (p o v : Nat) : (s.orReg p o v).dirty = s.dirty := rfl
@[simp] theorem orReg_refTime (s : State) (p o v : Nat) : (s.orReg p o v).refTime = s.refTime := rfl
@[simp] theorem orReg_before (s : State) (p o v : Nat) : (s.orReg p o v).before = s.before := rfl
@[simp] theorem orReg_cur (s : State) (p o v : Nat) : (s.orReg p o v).cur = s.cur := rfl
@[simp] theorem orReg_fresh (s : State) (p o v : Nat) : (s.orReg p o v).fresh = s.fresh := rfl

/-! ## countReg -/

@[simp] theorem countReg_mem (s : State) (p o v : Nat) : (s.countReg p o v).mem = s.mem := rfl
@[simp] theorem countReg_dir (s : State) (p o v : Nat) : (s.countReg p o v).dir = s.dir := rfl
@[simp] theorem countReg_dev (s : State) (p o v : Nat) : (s.countReg p o v).dev = (s.setReg p o (min 0xFFFFFFFF (s.reg p o + v))).dev := rfl
@[simp] theorem countReg_teams (s : State) (p o v : Nat) : (s.countReg p o v).teams = s.teams := rfl
@[simp] theorem countReg_courses (s : State) (p o v : Nat) : (s.countReg p o v).courses = s.courses := rfl
@[simp] theorem countReg_cores (s : State) (p o v : Nat) : (s.countReg p o v).cores = s.cores := rfl
@[simp] theorem countReg_quads (s : State) (p o v : Nat) : (s.countReg p o v).quads = s.quads := rfl
@[simp] theorem countReg_dies (s : State) (p o v : Nat) : (s.countReg p o v).dies = s.dies := rfl
@[simp] theorem countReg_pkgs (s : State) (p o v : Nat) : (s.countReg p o v).pkgs = s.pkgs := rfl
@[simp] theorem countReg_flights (s : State) (p o v : Nat) : (s.countReg p o v).flights = s.flights := rfl
@[simp] theorem countReg_copies (s : State) (p o v : Nat) : (s.countReg p o v).copies = s.copies := rfl
@[simp] theorem countReg_mortar (s : State) (p o v : Nat) : (s.countReg p o v).mortar = s.mortar := rfl
@[simp] theorem countReg_joints (s : State) (p o v : Nat) : (s.countReg p o v).joints = s.joints := rfl
@[simp] theorem countReg_wideBars (s : State) (p o v : Nat) : (s.countReg p o v).wideBars = s.wideBars := rfl
@[simp] theorem countReg_packets (s : State) (p o v : Nat) : (s.countReg p o v).packets = s.packets := rfl
@[simp] theorem countReg_circuitChunks (s : State) (p o v : Nat) : (s.countReg p o v).circuitChunks = s.circuitChunks := rfl
@[simp] theorem countReg_frames (s : State) (p o v : Nat) : (s.countReg p o v).frames = s.frames := rfl
@[simp] theorem countReg_outbox (s : State) (p o v : Nat) : (s.countReg p o v).outbox = s.outbox := rfl
@[simp] theorem countReg_agenda (s : State) (p o v : Nat) : (s.countReg p o v).agenda = s.agenda := rfl
@[simp] theorem countReg_floors (s : State) (p o v : Nat) : (s.countReg p o v).floors = s.floors := rfl
@[simp] theorem countReg_dirty (s : State) (p o v : Nat) : (s.countReg p o v).dirty = s.dirty := rfl
@[simp] theorem countReg_refTime (s : State) (p o v : Nat) : (s.countReg p o v).refTime = s.refTime := rfl
@[simp] theorem countReg_before (s : State) (p o v : Nat) : (s.countReg p o v).before = s.before := rfl
@[simp] theorem countReg_cur (s : State) (p o v : Nat) : (s.countReg p o v).cur = s.cur := rfl
@[simp] theorem countReg_fresh (s : State) (p o v : Nat) : (s.countReg p o v).fresh = s.fresh := rfl

/-! ## setLine -/

@[simp] theorem setLine_mem (s : State) (pa : Nat) (l : DirLine) : (s.setLine pa l).mem = s.mem := rfl
@[simp] theorem setLine_dir (s : State) (pa : Nat) (l : DirLine) : (s.setLine pa l).dir = SMap.setD s.dir DirLine.init (lineOf (s.forward pa)) l := rfl
@[simp] theorem setLine_dev (s : State) (pa : Nat) (l : DirLine) : (s.setLine pa l).dev = s.dev := rfl
@[simp] theorem setLine_teams (s : State) (pa : Nat) (l : DirLine) : (s.setLine pa l).teams = s.teams := rfl
@[simp] theorem setLine_courses (s : State) (pa : Nat) (l : DirLine) : (s.setLine pa l).courses = s.courses := rfl
@[simp] theorem setLine_cores (s : State) (pa : Nat) (l : DirLine) : (s.setLine pa l).cores = s.cores := rfl
@[simp] theorem setLine_quads (s : State) (pa : Nat) (l : DirLine) : (s.setLine pa l).quads = s.quads := rfl
@[simp] theorem setLine_dies (s : State) (pa : Nat) (l : DirLine) : (s.setLine pa l).dies = s.dies := rfl
@[simp] theorem setLine_pkgs (s : State) (pa : Nat) (l : DirLine) : (s.setLine pa l).pkgs = s.pkgs := rfl
@[simp] theorem setLine_flights (s : State) (pa : Nat) (l : DirLine) : (s.setLine pa l).flights = s.flights := rfl
@[simp] theorem setLine_copies (s : State) (pa : Nat) (l : DirLine) : (s.setLine pa l).copies = s.copies := rfl
@[simp] theorem setLine_mortar (s : State) (pa : Nat) (l : DirLine) : (s.setLine pa l).mortar = s.mortar := rfl
@[simp] theorem setLine_joints (s : State) (pa : Nat) (l : DirLine) : (s.setLine pa l).joints = s.joints := rfl
@[simp] theorem setLine_wideBars (s : State) (pa : Nat) (l : DirLine) : (s.setLine pa l).wideBars = s.wideBars := rfl
@[simp] theorem setLine_packets (s : State) (pa : Nat) (l : DirLine) : (s.setLine pa l).packets = s.packets := rfl
@[simp] theorem setLine_circuitChunks (s : State) (pa : Nat) (l : DirLine) : (s.setLine pa l).circuitChunks = s.circuitChunks := rfl
@[simp] theorem setLine_frames (s : State) (pa : Nat) (l : DirLine) : (s.setLine pa l).frames = s.frames := rfl
@[simp] theorem setLine_outbox (s : State) (pa : Nat) (l : DirLine) : (s.setLine pa l).outbox = s.outbox := rfl
@[simp] theorem setLine_agenda (s : State) (pa : Nat) (l : DirLine) : (s.setLine pa l).agenda = s.agenda := rfl
@[simp] theorem setLine_floors (s : State) (pa : Nat) (l : DirLine) : (s.setLine pa l).floors = s.floors := rfl
@[simp] theorem setLine_dirty (s : State) (pa : Nat) (l : DirLine) : (s.setLine pa l).dirty = s.dirty := rfl
@[simp] theorem setLine_refTime (s : State) (pa : Nat) (l : DirLine) : (s.setLine pa l).refTime = s.refTime := rfl
@[simp] theorem setLine_before (s : State) (pa : Nat) (l : DirLine) : (s.setLine pa l).before = s.before := rfl
@[simp] theorem setLine_cur (s : State) (pa : Nat) (l : DirLine) : (s.setLine pa l).cur = s.cur := rfl
@[simp] theorem setLine_fresh (s : State) (pa : Nat) (l : DirLine) : (s.setLine pa l).fresh = s.fresh := rfl

/-! ## postFault -/

@[simp] theorem postFault_mem (s : State) (d : Nat) (r : FaultRec) : (s.postFault d r).mem = s.mem := rfl
@[simp] theorem postFault_dir (s : State) (d : Nat) (r : FaultRec) : (s.postFault d r).dir = s.dir := rfl
@[simp] theorem postFault_dev (s : State) (d : Nat) (r : FaultRec) : (s.postFault d r).dev = s.dev := rfl
@[simp] theorem postFault_teams (s : State) (d : Nat) (r : FaultRec) : (s.postFault d r).teams = s.teams := rfl
@[simp] theorem postFault_courses (s : State) (d : Nat) (r : FaultRec) : (s.postFault d r).courses = s.courses := rfl
@[simp] theorem postFault_cores (s : State) (d : Nat) (r : FaultRec) : (s.postFault d r).cores = s.cores := rfl
@[simp] theorem postFault_quads (s : State) (d : Nat) (r : FaultRec) : (s.postFault d r).quads = s.quads := rfl
@[simp] theorem postFault_dies (s : State) (d : Nat) (r : FaultRec) : (s.postFault d r).dies = SMap.put s.dies d { s.die d with faults := (s.die d).faults ++ [r] } := rfl
@[simp] theorem postFault_pkgs (s : State) (d : Nat) (r : FaultRec) : (s.postFault d r).pkgs = s.pkgs := rfl
@[simp] theorem postFault_flights (s : State) (d : Nat) (r : FaultRec) : (s.postFault d r).flights = s.flights := rfl
@[simp] theorem postFault_copies (s : State) (d : Nat) (r : FaultRec) : (s.postFault d r).copies = s.copies := rfl
@[simp] theorem postFault_mortar (s : State) (d : Nat) (r : FaultRec) : (s.postFault d r).mortar = s.mortar := rfl
@[simp] theorem postFault_joints (s : State) (d : Nat) (r : FaultRec) : (s.postFault d r).joints = s.joints := rfl
@[simp] theorem postFault_wideBars (s : State) (d : Nat) (r : FaultRec) : (s.postFault d r).wideBars = s.wideBars := rfl
@[simp] theorem postFault_packets (s : State) (d : Nat) (r : FaultRec) : (s.postFault d r).packets = s.packets := rfl
@[simp] theorem postFault_circuitChunks (s : State) (d : Nat) (r : FaultRec) : (s.postFault d r).circuitChunks = s.circuitChunks := rfl
@[simp] theorem postFault_frames (s : State) (d : Nat) (r : FaultRec) : (s.postFault d r).frames = s.frames := rfl
@[simp] theorem postFault_outbox (s : State) (d : Nat) (r : FaultRec) : (s.postFault d r).outbox = s.outbox := rfl
@[simp] theorem postFault_agenda (s : State) (d : Nat) (r : FaultRec) : (s.postFault d r).agenda = s.agenda := rfl
@[simp] theorem postFault_floors (s : State) (d : Nat) (r : FaultRec) : (s.postFault d r).floors = s.floors := rfl
@[simp] theorem postFault_dirty (s : State) (d : Nat) (r : FaultRec) : (s.postFault d r).dirty = s.dirty := rfl
@[simp] theorem postFault_refTime (s : State) (d : Nat) (r : FaultRec) : (s.postFault d r).refTime = s.refTime := rfl
@[simp] theorem postFault_before (s : State) (d : Nat) (r : FaultRec) : (s.postFault d r).before = s.before := rfl
@[simp] theorem postFault_cur (s : State) (d : Nat) (r : FaultRec) : (s.postFault d r).cur = s.cur := rfl
@[simp] theorem postFault_fresh (s : State) (d : Nat) (r : FaultRec) : (s.postFault d r).fresh = s.fresh := rfl

/-! ## Finding what an update wrote -/

@[simp] theorem course_setCourse_same (s : State) (k : Nat) (c : Course) : (s.setCourse k c).course? k = some c :=
  find_put_same s.courses k c
theorem course_setCourse_other (s : State) {k j : Nat} (c : Course) (h : j ≠ k) : (s.setCourse k c).course? j = s.course? j :=
  find_put_other s.courses c h
@[simp] theorem course_modCourse_same (s : State) (k : Nat) (f : Course → Course) :
    (s.modCourse k f).course? k = (s.course? k).map f := find_modify_same s.courses k f
theorem course_modCourse_other (s : State) {k j : Nat} (f : Course → Course) (h : j ≠ k) :
    (s.modCourse k f).course? j = s.course? j := find_modify_other s.courses f h
@[simp] theorem team_setTeam_same (s : State) (t : Nat) (x : Team) : (s.setTeam t x).team? t = some x :=
  find_put_same s.teams t x
theorem team_setTeam_other (s : State) {t j : Nat} (x : Team) (h : j ≠ t) : (s.setTeam t x).team? j = s.team? j :=
  find_put_other s.teams x h
@[simp] theorem team_modTeam_same (s : State) (t : Nat) (f : Team → Team) :
    (s.modTeam t f).team? t = (s.team? t).map f := find_modify_same s.teams t f
theorem team_modTeam_other (s : State) {t j : Nat} (f : Team → Team) (h : j ≠ t) :
    (s.modTeam t f).team? j = s.team? j := find_modify_other s.teams f h
@[simp] theorem core_setCore_same (s : State) (n : Nat) (x : Core) : (s.setCore n x).core n = x := getD_put_same s.cores Core.init n x
theorem core_setCore_other (s : State) {n j : Nat} (x : Core) (h : j ≠ n) : (s.setCore n x).core j = s.core j :=
  getD_put_other s.cores Core.init x h
@[simp] theorem quad_setQuad_same (s : State) (n : Nat) (x : Quad) : (s.setQuad n x).quad n = x := getD_put_same s.quads Quad.init n x
theorem quad_setQuad_other (s : State) {n j : Nat} (x : Quad) (h : j ≠ n) : (s.setQuad n x).quad j = s.quad j :=
  getD_put_other s.quads Quad.init x h
@[simp] theorem die_setDie_same (s : State) (n : Nat) (x : Die) : (s.setDie n x).die n = x := getD_put_same s.dies Die.init n x
theorem die_setDie_other (s : State) {n j : Nat} (x : Die) (h : j ≠ n) : (s.setDie n x).die j = s.die j :=
  getD_put_other s.dies Die.init x h
@[simp] theorem pkg_setPkg_same (s : State) (n : Nat) (x : Pkg) : (s.setPkg n x).pkg n = x := getD_put_same s.pkgs Pkg.init n x
theorem pkg_setPkg_other (s : State) {n j : Nat} (x : Pkg) (h : j ≠ n) : (s.setPkg n x).pkg j = s.pkg j :=
  getD_put_other s.pkgs Pkg.init x h
@[simp] theorem flight_send (s : State) (f : Flight) : (s.send f).flight? s.fresh = some f := find_put_same s.flights s.fresh f
theorem flight_send_other (s : State) {n : Nat} (f : Flight) (h : n ≠ s.fresh) : (s.send f).flight? n = s.flight? n :=
  find_put_other s.flights f h
theorem flight_drop_other (s : State) {n j : Nat} (h : j ≠ n) : (s.drop n).flight? j = s.flight? j :=
  find_del_other s.flights h

/-! ## A course's slots -/

@[simp] theorem slot_setSlot_same (c : Course) (b : Bool) (x : Slot) : (c.setSlot b x).slot b = x := by cases b <;> rfl
@[simp] theorem slot_setSlot_other (c : Course) (b : Bool) (x : Slot) : (c.setSlot b x).slot (!b) = c.slot (!b) := by cases b <;> rfl
@[simp] theorem lanes_setSlot (c : Course) (b : Bool) (x : Slot) : (c.setSlot b x).lanes = c.lanes := by cases b <;> rfl
@[simp] theorem sc_setSlot (c : Course) (b : Bool) (x : Slot) : (c.setSlot b x).sc = c.sc := by cases b <;> rfl
@[simp] theorem mode_setSlot (c : Course) (b : Bool) (x : Slot) : (c.setSlot b x).mode = c.mode := by cases b <;> rfl
@[simp] theorem handler_setSlot (c : Course) (b : Bool) (x : Slot) : (c.setSlot b x).handler = c.handler := by cases b <;> rfl
@[simp] theorem fpflags_setSlot (c : Course) (b : Bool) (x : Slot) : (c.setSlot b x).fpflags = c.fpflags := by cases b <;> rfl
@[simp] theorem depth_setSlot (c : Course) (b : Bool) (x : Slot) : (c.setSlot b x).depth = c.depth := by cases b <;> rfl
@[simp] theorem life_setSlot (c : Course) (b : Bool) (x : Slot) : (c.setSlot b x).life = c.life := by cases b <;> rfl
@[simp] theorem sb_setSlot (c : Course) (b : Bool) (x : Slot) : (c.setSlot b x).sb = c.sb := by cases b <;> rfl

end Sys2Proof.Machine
end

