-- ==== Sys2Proof/Laws/Memory.lean ====
section
/-! SUPPORT. The operations that write memory keep its canonical form, and say which bytes they leave alone. -/

namespace Sys2Proof.Machine

open Sys2Proof

theorem wf_setMasked {m : Memory} (a : Nat) (bs : List (Option Byte)) (h : Memory.wf m = true) :
    Memory.wf (m.setMasked a bs) = true := by
  induction bs generalizing m a with
  | nil => exact h
  | cons b bs ih =>
    cases b with
    | none => exact ih (a + 1) h
    | some b => exact ih (a + 1) (wf_setByte a b h)

/-- A masked store leaves every address outside its bytes alone. -/
theorem byte_setMasked_other (m : Memory) {a x : Nat} (bs : List (Option Byte)) (h : x < a ∨ a + bs.length ≤ x) :
    (m.setMasked a bs).byte x = m.byte x := by
  induction bs generalizing m a with
  | nil => rfl
  | cons b bs ih =>
    simp only [List.length_cons] at h
    cases b with
    | none => rw [Memory.setMasked, ih m (by omega)]
    | some b => rw [Memory.setMasked, ih (m.setByte a b) (by omega), byte_setByte_other m b (by omega)]

theorem sorted_filter {α : Type} (p : Nat × α → Bool) {m : SMap α} (h : SMap.sorted m = true) :
    SMap.sorted (m.filter p) = true := by
  have up : ∀ (m : SMap α) (b : Nat), SMap.above b m = true → SMap.above b (m.filter p) = true := by
    intro m
    induction m with
    | nil => intro b _; rfl
    | cons a m ih =>
      intro b hb
      simp only [SMap.above, Bool.and_eq_true, decide_eq_true_eq] at hb
      simp only [List.filter]
      split
      · simp [SMap.above, hb.1, ih a.1 hb.2]
      · exact above_weaken (ih a.1 hb.2) (Nat.le_of_lt hb.1)
  cases m with
  | nil => rfl
  | cons a m =>
    simp only [SMap.sorted] at h
    simp only [List.filter]
    split
    · exact up m a.1 h
    · have := up m a.1 h
      cases hm : m.filter p with
      | nil => rfl
      | cons b r => rw [hm] at this; simp only [SMap.above, Bool.and_eq_true] at this; exact this.2

/-- Unlisting a range (the snapshot's map, R388) keeps the form. -/
theorem wf_delRange {m : Memory} (lo n : Nat) (h : Memory.wf m = true) : Memory.wf (SMap.delRange m lo n) = true := by
  simp only [Memory.wf, SMap.canon, Bool.and_eq_true, List.all_eq_true] at h ⊢
  exact ⟨sorted_filter _ h.1, fun kv hk => h.2 kv (List.mem_filter.1 hk).1⟩

/-! ## What a line's change leaves -/

/-- Marking a line dirty changes no byte that is read (R326). -/
@[simp] theorem mem_touch (s : State) (pa : Nat) : (s.touch pa).mem = s.mem := by
  unfold State.touch; dsimp only; split <;> rfl
@[simp] theorem dir_touch (s : State) (pa : Nat) : (s.touch pa).dir = s.dir := by
  unfold State.touch; dsimp only; split <;> rfl
@[simp] theorem mem_writeBack (s : State) (pa : Nat) : (s.writeBack pa).mem = s.mem := rfl
@[simp] theorem mem_dropHeld (s : State) (pa : Nat) : (s.dropHeld pa).mem = s.mem := rfl

/-! ## Writes keep the form -/

/-- Bytes stored in a line: the memory after it. -/
theorem mem_rawWrite (s : State) (pa : Nat) (bytes : List (Option Byte)) :
    ∃ a, (s.rawWrite pa bytes).mem = s.mem.setMasked a bytes := by
  unfold State.rawWrite
  dsimp only
  rw [setLine_mem]
  split <;> simp only [mem_dropHeld, mem_touch] <;> exact ⟨_, rfl⟩

theorem memWf_rawWrite {s : State} (pa : Nat) (bytes : List (Option Byte)) (h : s.memWf) : (s.rawWrite pa bytes).memWf := by
  obtain ⟨a, e⟩ := mem_rawWrite s pa bytes
  unfold State.memWf
  rw [e]
  exact wf_setMasked a bytes h

/-- A line put under a write's key (R342) keeps the form. -/
theorem memWf_tagLine {s : State} (pa key : Nat) (h : s.memWf) : (s.tagLine pa key).memWf := by
  unfold State.tagLine State.memWf
  dsimp only
  split
  · exact h
  · split
    · rw [setLine_mem]; exact h
    · rw [setLine_mem]
      simp only [mem_touch]
      exact wf_setBytes _ _ h

/-- A line under the key of the write already stays as it is but for its tag. -/
theorem mem_tagLine {s : State} {pa key : Nat} (h : isHbm pa = false ∨ (s.line pa).mat = s.keyMat pa key) :
    (s.tagLine pa key).mem = s.mem := by
  unfold State.tagLine
  dsimp only
  split
  · rfl
  · next n =>
    split
    · rw [setLine_mem]
    · next m =>
      rcases h with h | h
      · exact absurd (by rw [h]; rfl) n
      · exact absurd h m

/-- What an engine stores (R394, log 21) keeps the form. -/
theorem memWf_engineWrite {s : State} (pa : Nat) (bytes : List Byte) (h : s.memWf) : (s.engineWrite pa bytes).memWf := by
  unfold State.engineWrite
  generalize List.range _ = xs
  induction xs generalizing s with
  | nil => exact h
  | cons i xs ih => exact ih (memWf_rawWrite _ _ (memWf_tagLine _ _ h))

/-- The end of a snapshot that fails (R394) keeps the form. -/
theorem memWf_snapFail {s : State} (p reason : Nat) (h : s.memWf) : (s.snapFail p reason).memWf := by
  unfold State.snapFail State.snapStatus State.memWf
  dsimp only
  rw [modPkg_mem, setLine_mem]
  exact memWf_engineWrite _ _ h

/-- Saving a protected line (R390, R391) keeps the form. -/
theorem memWf_shadowLine {s : State} (pa : Nat) (mark : Option Nat) (h : s.memWf) : (s.shadowLine pa mark).memWf := by
  unfold State.shadowLine
  dsimp only
  split
  · split
    · exact h
    · split
      · exact memWf_snapFail _ _ h
      · split
        · exact h
        · split
          · exact memWf_snapFail _ _ h
          · exact memWf_engineWrite _ _ (memWf_engineWrite _ _ h)
  · exact h

theorem memWf_homeWrite {s : State} (pa : Nat) (bytes : List (Option Byte)) (mark : Option Nat) (h : s.memWf) :
    (s.homeWrite pa bytes mark).memWf := memWf_rawWrite _ _ (memWf_shadowLine _ _ h)

theorem memWf_homeWriteNat {s : State} (pa n v : Nat) (mark : Option Nat) (h : s.memWf) :
    (s.homeWriteNat pa n v mark).memWf := memWf_homeWrite _ _ _ h

theorem memWf_homeWriteKey {s : State} (pa : Nat) (bytes : List (Option Byte)) (mark : Option Nat) (key : Nat) (h : s.memWf) :
    (s.homeWriteKey pa bytes mark key).memWf := memWf_homeWrite _ _ _ (memWf_tagLine _ _ (memWf_shadowLine _ _ h))

/-- A line of a trap frame stored (R348) keeps the form. -/
theorem memWf_frameStore {s : State} (a : Agent) (pa leaf : Nat) (bytes : List Byte) (h : s.memWf) :
    (s.frameStore a pa leaf bytes).memWf := by
  unfold State.frameStore State.memWf
  dsimp only
  rw [tick_mem, setLine_mem]
  exact memWf_homeWriteKey _ _ _ _ h

/-- Reset memory lists nothing. -/
theorem memWf_reset : State.reset.memWf := rfl

end Sys2Proof.Machine
end

