-- ==== Sys2Proof/Laws/Words.lean ====
section
/-! SUPPORT. What the shared shape of every instruction word answers, what its counting and its PC's move leave alone, and which lanes a mask
holds. -/

namespace Sys2Proof.Machine

open Sys2Proof

/-! ## The five answers of an instruction word -/

/-- An agent that does not exist issues nothing: the one fault. -/
theorem runWord_absent {s : State} (i : Instr) (rule : Res) (h : s.curRuns = false) : s.runWord i rule = .fault .noSuchAgent := by
  simp [State.runWord, h]

/-- A word that fails R39 takes the trap of its first failure, whatever its own rule. -/
theorem runWord_illegal {s : State} {i : Instr} {w : Word} {c : Cause} {ti : Word} (rule : Res) (h : s.curRuns = true) (hw : encode i = some w)
    (hr : r39 (s.env s.cur) w = some (c, ti)) : s.runWord i rule = .next (s.takeTrap c 0 0 ti.toNat) := by
  simp [State.runWord, h, hw, hr]

theorem runWord_done {s u : State} {i : Instr} {w : Word} (h : s.curRuns = true) (hw : encode i = some w) (hr : r39 (s.env s.cur) w = none) :
    s.runWord i (.done u) = .next (u.countIssue (opOf w) s.chargeMask.1 s.chargeMask.2).advance := by
  simp [State.runWord, h, hw, hr]

theorem runWord_jumped {s u : State} {i : Instr} {w : Word} (h : s.curRuns = true) (hw : encode i = some w) (hr : r39 (s.env s.cur) w = none) :
    s.runWord i (.jumped u) = .next (u.countIssue (opOf w) s.chargeMask.1 s.chargeMask.2) := by
  simp [State.runWord, h, hw, hr]

theorem runWord_stay {s u : State} {i : Instr} {w : Word} (h : s.curRuns = true) (hw : encode i = some w) (hr : r39 (s.env s.cur) w = none) :
    s.runWord i (.stay u) = .next u := by
  simp [State.runWord, h, hw, hr]

theorem runWord_wait {s : State} {i : Instr} {w : Word} (h : s.curRuns = true) (hw : encode i = some w) (hr : r39 (s.env s.cur) w = none) :
    s.runWord i .wait = .next s := by
  simp [State.runWord, h, hw, hr]

theorem runWord_trap {s : State} {i : Instr} {w : Word} {c : Cause} {x m ti : Nat} (h : s.curRuns = true) (hw : encode i = some w)
    (hr : r39 (s.env s.cur) w = none) : s.runWord i (.trap c x m ti) = .next (s.takeTrap c x m ti) := by
  simp [State.runWord, h, hw, hr]

/-- Whatever its rule, a word of an agent that exists answers a next state. -/
theorem runWord_next {s : State} (i : Instr) (rule : Res) (h : s.curRuns = true) : ∃ t, s.runWord i rule = .next t := by
  unfold State.runWord
  simp only [h, Bool.not_true, Bool.false_eq_true, ↓reduceIte]
  split
  · exact ⟨_, rfl⟩
  · split
    · exact ⟨_, rfl⟩
    · split <;> exact ⟨_, rfl⟩

/-! ## The executing course -/

theorem self_course {s : State} {k : Nat} {str : Bool} {c : Course} (h : s.cur = .course k str) (hc : s.course? k = some c) :
    s.self = some (k, str, c) := by
  simp [State.self, h, hc]

theorem asCourse_course {s : State} {k : Nat} {str : Bool} {c : Course} (h : s.cur = .course k str) (hc : s.course? k = some c)
    (f : Nat → Bool → Course → Res) : s.asCourse f = f k str c := by
  simp [State.asCourse, self_course h hc]

theorem curRuns_course {s : State} {k : Nat} {str : Bool} {c : Course} {t : Team} (h : s.cur = .course k str) (hc : s.course? k = some c)
    (ht : s.team? (k / 16) = some t) (hl : c.life = .live) (hm : (c.slot str).mask ≠ 0#32) : s.curRuns = true := by
  simp [State.curRuns, h, hc, ht, hl, hm]

/-! ## Moving the PC and writing group registers change no memory -/

@[simp] theorem advance_mem (s : State) : s.advance.mem = s.mem := by unfold State.advance; split <;> rfl
@[simp] theorem advance_dir (s : State) : s.advance.dir = s.dir := by unfold State.advance; split <;> rfl
@[simp] theorem advance_dev (s : State) : s.advance.dev = s.dev := by unfold State.advance; split <;> rfl
@[simp] theorem advance_flights (s : State) : s.advance.flights = s.flights := by unfold State.advance; split <;> rfl
@[simp] theorem advance_copies (s : State) : s.advance.copies = s.copies := by unfold State.advance; split <;> rfl
@[simp] theorem advance_cores (s : State) : s.advance.cores = s.cores := by unfold State.advance; split <;> rfl
@[simp] theorem advance_cur (s : State) : s.advance.cur = s.cur := by unfold State.advance; split <;> rfl
@[simp] theorem goto_mem (s : State) (pc : Nat) : (s.goto pc).mem = s.mem := by unfold State.goto; split <;> rfl
@[simp] theorem goto_dev (s : State) (pc : Nat) : (s.goto pc).dev = s.dev := by unfold State.goto; split <;> rfl
@[simp] theorem goto_flights (s : State) (pc : Nat) : (s.goto pc).flights = s.flights := by unfold State.goto; split <;> rfl
@[simp] theorem goto_cur (s : State) (pc : Nat) : (s.goto pc).cur = s.cur := by unfold State.goto; split <;> rfl
@[simp] theorem setScalar_mem (s : State) (a : Agent) (x : Scalar) : (s.setScalar a x).mem = s.mem := by unfold State.setScalar; split <;> rfl
@[simp] theorem setScalar_dev (s : State) (a : Agent) (x : Scalar) : (s.setScalar a x).dev = s.dev := by unfold State.setScalar; split <;> rfl
@[simp] theorem setScalar_flights (s : State) (a : Agent) (x : Scalar) : (s.setScalar a x).flights = s.flights := by unfold State.setScalar; split <;> rfl
@[simp] theorem setScalar_cur (s : State) (a : Agent) (x : Scalar) : (s.setScalar a x).cur = s.cur := by unfold State.setScalar; split <;> rfl
@[simp] theorem gdst_mem (s : State) (wide : Bool) (d v : Nat) : (s.gdst wide d v).mem = s.mem := setScalar_mem _ _ _

/-! ## Masks of lanes -/

theorem bits_foldl (f : Nat → Bool) (n : Nat) :
    let x := (List.range n).foldl (fun a l => a + boolNat (f l) * 2 ^ l) 0
    x < 2 ^ n ∧ ∀ l, x.testBit l = (decide (l < n) && f l) := by
  induction n with
  | zero => simp
  | succ n ih =>
    simp only [List.range_succ, List.foldl_append, List.foldl_cons, List.foldl_nil]
    obtain ⟨hlt, hb⟩ := ih
    generalize (List.range n).foldl (fun a l => a + boolNat (f l) * 2 ^ l) 0 = x at hlt hb
    cases hf : f n with
    | false =>
      refine ⟨by simp only [boolNat]; rw [Nat.pow_succ]; simp; omega, fun l => ?_⟩
      simp only [boolNat, Bool.false_eq_true, ↓reduceIte, Nat.zero_mul, Nat.add_zero, hb]
      by_cases h : l = n
      · simp [h, hf]
      · simp [show (l < n + 1) = (l < n) from propext ⟨fun _ => by omega, fun _ => by omega⟩]
    | true =>
      refine ⟨by simp only [boolNat]; rw [Nat.pow_succ]; simp; omega, fun l => ?_⟩
      simp only [boolNat, ↓reduceIte, Nat.one_mul]
      rw [Nat.add_comm]
      have := Nat.testBit_two_pow_mul_add 1 hlt l
      rw [Nat.mul_one] at this
      rw [this]
      by_cases h : l < n
      · simp [h, hb, Nat.lt_succ_of_lt h]
      · by_cases h' : l = n
        · simp [h', hf]
        · obtain ⟨j, hj⟩ : ∃ j, l - n = j + 1 := ⟨l - n - 1, by omega⟩
          simp [h, show ¬ l < n + 1 by omega, hj, Nat.testBit_succ]

/-- A mask holds the lanes its rule names. -/
theorem getLsbD_maskOf (f : Nat → Bool) (l : Nat) : (maskOf f).getLsbD l = (decide (l < 32) && f l) := by
  simp only [maskOf, BitVec.getLsbD_ofNat, (bits_foldl f 32).2]
  cases decide (l < 32) <;> simp

theorem maskOf_eq_zero {f : Nat → Bool} (h : ∀ l, l < 32 → f l = false) : maskOf f = 0#32 := by
  refine BitVec.eq_of_getLsbD_eq fun l hl => ?_
  rw [getLsbD_maskOf, h l hl]
  simp

/-! ## Operands that are full and unpoisoned let an instruction issue -/

theorem destsFull_any {c : Course} {m : Word} (dest : Option (Nat × Bool)) :
    (∀ l, l < 32 → m.getLsbD l = true → ∀ d w, dest = some (d, w) → c.isEmpty w d l = false) →
    ((lanesOf m).any fun l => (match dest with | some (d, w) => c.isEmpty w d l | none => false)) = false := by
  intro hd
  rw [List.any_eq_false]
  intro l hl
  simp only [lanesOf, List.mem_filter, List.mem_range] at hl
  cases dest with
  | none => simp
  | some p => simp [hd l hl.1 hl.2 p.1 p.2 rfl]

theorem checks_none {c : Course} {m : Word} {us : List Use} {dest : Option (Nat × Bool)}
    (hu : ∀ l, l < 32 → m.getLsbD l = true → ∀ u ∈ us, c.isEmpty u.type.wide u.code l = false ∧ c.isPoisoned u.type.wide u.code l = false)
    (hd : ∀ l, l < 32 → m.getLsbD l = true → ∀ d w, dest = some (d, w) → c.isEmpty w d l = false) : c.checks m us dest = none := by
  have e0 : ∀ u ∈ us, (maskOf fun l => m.getLsbD l && c.isEmpty u.type.wide u.code l) = 0#32 := fun u h => maskOf_eq_zero fun l hl => by
    cases hm : m.getLsbD l with
    | false => rfl
    | true => simp [(hu l hl hm u h).1]
  have e1 : us.foldl (fun a u => if c.mode.getLsbD u.slot then a ||| (maskOf fun l => m.getLsbD l && c.isEmpty u.type.wide u.code l) else a) 0#32 = 0#32 := by
    clear hu
    induction us with
    | nil => rfl
    | cons u us ih =>
      have := e0 u (by simp)
      simp only [List.foldl_cons, this]
      rw [BitVec.or_zero, ite_self]
      exact ih fun x hx => e0 x (by simp [hx])
  have e2 : (us.any fun u => decide ((maskOf fun l => m.getLsbD l && c.isEmpty u.type.wide u.code l) ≠ 0#32)) = false := by
    rw [List.any_eq_false]; intro u h; simp [e0 u h]
  have e3 := destsFull_any dest hd
  have e4 : (maskOf fun l => m.getLsbD l && us.any fun u => c.isPoisoned u.type.wide u.code l) = 0#32 := maskOf_eq_zero fun l hl => by
    cases hm : m.getLsbD l with
    | false => rfl
    | true =>
      have : (us.any fun u => c.isPoisoned u.type.wide u.code l) = false := by
        rw [List.any_eq_false]; intro u h; simp [(hu l hl hm u h).2]
      simp [this]
  simp only [Course.checks]
  rw [e1, e2, e4, if_neg (by simp), if_neg (by simp), if_neg (by simp : ¬ ((0#32 : Word) ≠ 0#32))]
  exact if_neg fun h => Bool.false_ne_true (e3.symm.trans h)

end Sys2Proof.Machine
end

