-- ==== Sys2Proof/Tests/Slice0.lean ====
section
/-! SUPPORT. Tests: instruction words written out from the spec's encodings, ill-formed instructions, one-step results worked out by hand
from the spec's rules, and for each statement a state that meets its hypotheses. -/

namespace Sys2Proof.Tests

open Sys2Proof Sys2Proof.Machine Sys2Proof.Spec

set_option Elab.async false

/-! ## States -/

/-- Reset with an instruction's word placed and its agent executing; its course and its team as they start. -/
def wordOf (i : Instr) : Word := (encode i).getD 0#32
def placed (i : Instr) : State := { State.reset.place (wordOf i) with agenda := [], cur := placedAgent (opOf (wordOf i)) }
def courseOf (i : Instr) : Course := placedCourse (opOf (wordOf i))
def teamOf (i : Instr) : Team := placedTeam (opOf (wordOf i))

/-- The same with the course, or the team, changed. -/
def withCourse (i : Instr) (f : Course → Course) : State := (placed i).setCourse 0 (f (courseOf i))
def withTeam (i : Instr) (f : Team → Team) : State := (placed i).setTeam 0 (f (teamOf i))

/-! ## Words (R29, R43, R44 and the opcode table: the opcode in bits 31 to 24, each field at its place) -/

/-- Every word decodes to its instruction, and is the word its instruction encodes to. -/
def reads (xs : List (Word × Instr)) : Bool := xs.all fun x => (match decode x.1 with | .ok i => i == x.2 | .error _ => false) && encode x.2 == some x.1
theorem test_words_0 : reads
  [(0x00000000#32, .nop), (0x0101CB9C#32, .setm 7#4 2972#14), (0x02000000#32, .getm 0#6), (0x03000000#32, .yield), (0x04000000#32, .exit),
    (0x04000001#32, .exitSaved), (0x050033A9#32, .trap 13225#18), (0x0603CBD8#32, .bkpt 248792#18), (0x07780372#32, .gsr 30#6 882#12),
    (0x08016899#32, .gsw 22#6 2201#12), (0x09500009#32, .xsr 20#6 9#5), (0x0A011000#32, .xsw 17#6 0#5), (0x0B000000#32, .eret),
    (0x0C000008#32, .fence 0#1 1#1 0#3), (0x0D000782#32, .xfence 30#6 2#6), (0x0EFD640C#32, .waita 63#6 22#6 16#6 1#3 1#1 0#2),
    (0x0F31E281#32, .waitc 12#6 30#6 10#6 1#3)] = true := by decide
theorem test_words_1 : reads
  [(0x10794440#32, .iadd 30#6 20#6 17#6), (0x11FF0580#32, .isub 63#6 48#6 22#6), (0x12410080#32, .imul 16#6 16#6 2#6), (0x13FE1280#32, .imulh 63#6 33#6 10#6),
    (0x1448884A#32, .imad 18#6 8#6 33#6 10#6), (0x15510300#32, .imin 20#6 16#6 12#6), (0x16888400#32, .imax 34#6 8#6 16#6), (0x1745E000#32, .iabs 17#6 30#6),
    (0x18790100#32, .and 30#6 16#6 4#6), (0x19011000#32, .or 0#6 17#6 0#6), (0x1A421480#32, .xor 16#6 33#6 18#6), (0x1B411440#32, .andn 16#6 17#6 17#6),
    (0x1C794000#32, .shl 30#6 20#6 0#6), (0x1D50C480#32, .shr 20#6 12#6 18#6), (0x1E521580#32, .sar 20#6 33#6 22#6), (0x1F840440#32, .rotl 33#6 0#6 17#6)] = true := by decide
theorem test_words_2 : reads
  [(0x208B0000#32, .popc 34#6 48#6), (0x21516000#32, .clz 20#6 22#6), (0x22008000#32, .brev 0#6 8#6), (0x23FF2C00#32, .bfx 63#6 50#6 48#6),
    (0x24404C1E#32, .bfi 16#6 4#6 48#6 30#6), (0x25FCCC91#32, .perm 63#6 12#6 50#6 17#6), (0x2640C845#32, .sel 16#6 12#6 33#6 0#1 5#3),
    (0x27FF0186#32, .lea 63#6 48#6 6#6 0#1 6#3), (0x2808C002#32, .cmp 0#3 2#3 12#6 0#6 2#6), (0x29088810#32, .cmpi 0#3 2#3 8#6 4#3 16#9),
    (0x2AFCC916#32, .addi 63#6 12#6 2326#12), (0x2BFC232F#32, .andi 63#6 2#6 815#12), (0x2C870069#32, .ori 33#6 48#6 105#12),
    (0x2D852997#32, .xori 33#6 18#6 2455#12), (0x2E451300#32, .shli 17#6 17#6 12#6), (0x2F50A840#32, .shri 20#6 10#6 33#6 0#1)] = true := by decide
theorem test_words_3 : reads
  [(0x3044C5E8#32, .li 17#6 50664#18), (0x31443F4E#32, .lih 17#6 16206#14), (0x32400000#32, .mov 16#6 0#6), (0x3358A086#32, .idot4 22#6 10#6 2#6 6#6),
    (0x34EC4038#32, .pmov 7#3 3#3 4#6 1#1 24#5), (0x35206141#32, .plop 1#3 0#3 6#3 5#3 1#4)] = true := by decide
theorem test_words_4 : reads
  [(0x40FF2480#32, .fadd 63#6 50#6 18#6), (0x41870580#32, .fsub 33#6 48#6 22#6), (0x42416280#32, .fmul 16#6 22#6 10#6),
    (0x43594522#32, .fma 22#6 20#6 20#6 34#6), (0x44032480#32, .fnma 0#6 50#6 18#6 0#6), (0x45788580#32, .fmin 30#6 8#6 22#6),
    (0x46470280#32, .fmax 17#6 48#6 10#6), (0x47788000#32, .fabs 30#6 8#6), (0x485B2000#32, .fneg 22#6 50#6), (0x49AB2880#32, .fcmp 5#3 2#3 50#6 34#6 0#6),
    (0x4A491000#32, .fclass 18#6 17#6), (0x4B422000#32, .frcp 16#6 34#6), (0x4CFE1000#32, .frsq 63#6 33#6), (0x4D791000#32, .fsqrt 30#6 17#6),
    (0x4E78A000#32, .fex2 30#6 10#6), (0x4F448000#32, .flg2 17#6 8#6)] = true := by decide
theorem test_words_5 : reads
  [(0x50FC6000#32, .fsin 63#6 6#6), (0x51FD6000#32, .fcos 63#6 22#6), (0x52446480#32, .fscl 17#6 6#6 18#6), (0x538B2000#32, .frnd 34#6 50#6),
    (0x5458A007#32, .cvt 22#6 10#6 7#4), (0x55400281#32, .cvtn 16#6 0#6 10#6 1#4), (0x56512886#32, .cvtw 20#6 18#6 34#6 6#4),
    (0x57484780#32, .fdot2 18#6 4#6 30#6 0#6)] = true := by decide
theorem test_words_6 : reads
  [(0x60416842#32, .shfl 16#6 22#6 33#6 2#2), (0x61402000#32, .vote 16#6 0#1 2#3 0#6), (0x620B0480#32, .bcst 2#6 48#6 18#6), (0x63004002#32, .rdx 4#6 2#6),
    (0x64416000#32, .rdxwWait 16#6 22#6), (0x64300001#32, .rdxwSeq 12#6), (0x64010182#32, .rdxwSet 16#6 6#6), (0x65882000#32, .scan 34#6 2#6 0#6),
    (0x6618000C#32, .mbwVector 6#6 12#4), (0x66500803#32, .mbwGroup 20#6 3#4), (0x6718001F#32, .mbrVector 6#6 1#1 15#4),
    (0x67780816#32, .mbrGroup 30#6 1#1 6#4)] = true := by decide
theorem test_words_7 : reads
  [(0x70E68F9C#32, .bra 1#1 6#3 429980#20), (0x71D23684#32, .brc 1#1 5#3 145028#20), (0x72000000#32, .join), (0x7304452D#32, .call 279853#20),
    (0x74000000#32, .ret), (0x75006001#32, .jmpi 6#6 1#1), (0x76A6C36F#32, .loop 10#4 443247#20), (0x77F05897#32, .balw 15#4 22679#20),
    (0x780003AE#32, .bar 14#5 2#2 14#4), (0x7900C049#32, .barx 12#6 1#2 1#3 1#3), (0x7A50A002#32, .gbara 20#6 10#6 0#6 2#2),
    (0x7B45E086#32, .gbarw 17#6 30#6 2#6 6#3), (0x7C211000#32, .step 8#6 17#6 0#1), (0x7D41E000#32, .stepe 16#6 30#6), (0x7E400116#32, .carve 2#3 4#5 22#6)] = true := by decide
theorem test_words_8 : reads
  [(0x80470C23#32, .ld 17#6 48#6 3107#12), (0x81482D7C#32, .ldn 18#6 2#6 3452#12), (0x8210C18C#32, .st 4#6 12#6 396#12),
    (0x835026A3#32, .stn 20#6 2#6 1699#12), (0x8441ED76#32, .lds 16#6 30#6 3446#12), (0x8541E3DE#32, .sts 16#6 30#6 990#12),
    (0x8658C207#32, .ldx 22#6 12#6 8#6 1#1 3#2), (0x87780843#32, .stx 30#6 0#6 33#6 0#1 3#2), (0x88432005#32, .ldacq 16#6 50#6 5#3),
    (0x89230005#32, .strel 8#6 48#6 5#3), (0x8A4B2001#32, .ldsc 18#6 50#6 1#3), (0x8B484000#32, .stsc 18#6 4#6 0#3),
    (0x8C85609D#32, .atom 33#6 22#6 2#6 3#3 5#3), (0x8D8A211B#32, .atomar 34#6 34#6 4#6 3#3 3#3), (0x8E4A2121#32, .atomsc 18#6 34#6 4#6 4#3 1#3),
    (0x8F7B2024#32, .red 30#6 50#6 4#3 4#3)] = true := by decide
theorem test_words_9 : reads
  [(0x9040A784#32, .atoms 16#6 10#6 30#6 4#3), (0x91072AF9#32, .pref 1#2 50#6 2809#12), (0x9218A400#32, .flagw 6#6 10#6 16#6 0#4),
    (0x930003F8#32, .cctl 0#2 0#6 1016#12)] = true := by decide
theorem test_words_A : reads
  [(0xA000040B#32, .cpy 0#6 16#6 11#5), (0xA1008786#32, .cpyt 8#6 30#6 6#3), (0xA201059D#32, .cpyw 16#6 22#6 3#3 5#3), (0xA3010000#32, .cpyo 16#6 0#6 0#3),
    (0xA4008481#32, .cpyr 8#6 18#6 1#3), (0xA5008481#32, .cpyx 8#6 18#6 1#3), (0xA6010186#32, .cpyq 16#6 6#6 6#3)] = true := by decide
theorem test_words_B : reads
  [(0xB0291000#32, .mgo 10#6 17#6), (0xB1406003#32, .mwait 16#6 6#6 3#3)] = true := by decide
theorem test_words_C : reads
  [(0xC1840000#32, .mzero 33#6), (0xC20111A4#32, .mout 0#6 17#6 6#6 4#3 4#3), (0xC3484000#32, .mload 18#6 4#6 0#3), (0xC4008400#32, .mamax 8#6 16#6),
    (0xC5000001#32, .mfence 1#1), (0xC6000315#32, .mbar 12#5 1#2 5#4), (0xC720EC76#32, .mli 8#6 60534#17), (0xC70249EC#32, .mliH 0#6 18924#15),
    (0xC8086888#32, .madd 2#6 6#6 2184#12), (0xC98A382E#32, .mloop 8#4 669742#20), (0xCA0BB4AC#32, .mjmp 767148#20), (0xCB000000#32, .mend),
    (0xC0402811#32, .mma 16#6 2#6 32#6 0#1 1#1 1#4), (0xCC000002#32, .mfill 0#2 2#6), (0xCD516281#32, .mscl 20#6 22#6 10#6 1#1)] = true := by decide
theorem test_words_D : reads
  [(0xD0184440#32, .gadd 6#6 4#6 17#6), (0xD1454400#32, .gsub 17#6 20#6 16#6), (0xD2504180#32, .gmul 20#6 4#6 6#6), (0xD3302400#32, .gand 12#6 2#6 16#6),
    (0xD449E300#32, .gor 18#6 30#6 12#6), (0xD5110580#32, .gxor 4#6 16#6 22#6), (0xD620A500#32, .gshl 8#6 10#6 20#6), (0xD7FD0080#32, .gshr 63#6 16#6 2#6),
    (0xD8FDE180#32, .gsar 63#6 30#6 6#6), (0xD9110180#32, .gmin 4#6 16#6 6#6), (0xDA31E500#32, .gmax 12#6 30#6 20#6),
    (0xDB908002#32, .gcmp 4#3 4#3 8#6 0#6 2#6), (0xDC00033B#32, .gli 0#6 827#17), (0xDC52122D#32, .gliH 20#6 4653#15),
    (0xDD18CC4F#32, .gaddi 6#6 12#6 3151#12), (0xDE4004A5#32, .gld 16#6 0#6 1189#12), (0xDF31E7BB#32, .gst 12#6 30#6 1979#12)] = true := by decide
theorem test_words_E : reads
  [(0xE0290001#32, .mtaga 10#6 16#6 1#2), (0xE1306C00#32, .mtagf 12#6 6#6 48#6), (0xE2080200#32, .mjoinVector 2#6 0#6 8#6 0#3),
    (0xE2000124#32, .mjoinGroup 0#6 4#6 4#3), (0xE3588032#32, .launch 22#6 8#6 50#6), (0xE4780102#32, .lqcfg 30#6 0#6 4#6 2#6),
    (0xE5208500#32, .snapArm 8#6 8#6 20#6), (0xE5490C01#32, .snapCancel 18#6 16#6), (0xE5491082#32, .snapLoad 18#6 17#6 2#6),
    (0xE6008184#32, .keyld 0#6 8#6 6#6 1#1 0#2), (0xE7482501#32, .migrCpy 18#6 2#6 20#6 1#2), (0xE7010105#32, .migrEnd 0#6 16#6 4#6 1#2),
    (0xE80B0482#32, .tslot 2#6 48#6 18#6 2#2), (0xE9030102#32, .tlbi 48#6 4#6 0#1 2#2), (0xEA004000#32, .pendBind 4#6), (0xEA010001#32, .pendImp 16#6)] = true := by decide
theorem test_words_F : reads
  [(0xF0286400#32, .creq 10#6 6#6 16#6), (0xF130C401#32, .cawt 12#6 12#6 16#6 1#1), (0xF2430780#32, .cuse 16#6 48#6 30#6), (0xF3FC8001#32, .crel 63#6 8#6 1#1),
    (0xF4014000#32, .cstat 0#6 20#6), (0xF5416780#32, .epsnd 16#6 22#6 30#6), (0xF6FC2300#32, .eprcv 63#6 2#6 12#6), (0xF7200000#32, .time 8#6),
    (0xF879E000#32, .htune 30#6 30#6 0#1)] = true := by decide

/-! ## Ill-formed instructions: one for each operand field a check may refuse, the lowest value it refuses (R31-R36, R39, R47) -/

/-- No check lets one of the instructions through. -/
def refusedAll (is : List Instr) : Bool := is.all fun i => !i.wf
theorem test_ill_formed_1 : refusedAll
  [.setm 0#4 2972#14, .setm 7#4 16383#14, .getm 32#6, .gsr 32#6 882#12, .gsw 32#6 2201#12, .xsr 1#6 9#5, .xsw 32#6 0#5, .fence 0#1 0#1 0#3, .fence 0#1 1#1 6#3,
    .xfence 0#6 2#6, .xfence 30#6 0#6, .waita 32#6 22#6 16#6 1#3 1#1 0#2, .waita 63#6 32#6 16#6 1#3 1#1 0#2, .waita 63#6 22#6 32#6 1#3 1#1 0#2,
    .waita 63#6 22#6 16#6 1#3 1#1 3#2, .waitc 1#6 30#6 10#6 1#3, .waitc 12#6 32#6 10#6 1#3, .waitc 12#6 30#6 1#6 1#3, .iadd 1#6 20#6 17#6,
    .iadd 30#6 61#6 17#6, .iadd 30#6 20#6 61#6, .isub 1#6 48#6 22#6, .isub 63#6 61#6 22#6, .isub 63#6 48#6 61#6, .imul 1#6 16#6 2#6, .imul 16#6 61#6 2#6,
    .imul 16#6 16#6 61#6, .imulh 1#6 33#6 10#6, .imulh 63#6 61#6 10#6, .imulh 63#6 33#6 61#6, .imad 1#6 8#6 33#6 10#6, .imad 18#6 61#6 33#6 10#6,
    .imad 18#6 8#6 61#6 10#6, .imad 18#6 8#6 33#6 61#6, .imin 1#6 16#6 12#6, .imin 20#6 61#6 12#6, .imin 20#6 16#6 61#6, .imax 1#6 8#6 16#6,
    .imax 34#6 61#6 16#6, .imax 34#6 8#6 61#6, .iabs 1#6 30#6, .iabs 17#6 61#6, .and 1#6 16#6 4#6, .and 30#6 61#6 4#6, .and 30#6 16#6 61#6, .or 1#6 17#6 0#6,
    .or 0#6 61#6 0#6, .or 0#6 17#6 61#6, .xor 1#6 33#6 18#6, .xor 16#6 61#6 18#6, .xor 16#6 33#6 61#6, .andn 1#6 17#6 17#6, .andn 16#6 61#6 17#6,
    .andn 16#6 17#6 61#6, .shl 1#6 20#6 0#6, .shl 30#6 61#6 0#6, .shl 30#6 20#6 61#6, .shr 1#6 12#6 18#6, .shr 20#6 61#6 18#6, .shr 20#6 12#6 61#6,
    .sar 1#6 33#6 22#6, .sar 20#6 61#6 22#6, .sar 20#6 33#6 61#6, .rotl 1#6 0#6 17#6, .rotl 33#6 61#6 17#6, .rotl 33#6 0#6 61#6, .popc 1#6 48#6,
    .popc 34#6 61#6, .clz 1#6 22#6, .clz 20#6 61#6] = true := by decide
theorem test_ill_formed_2 : refusedAll
  [.brev 1#6 8#6, .brev 0#6 61#6, .bfx 1#6 50#6 48#6, .bfx 63#6 61#6 48#6, .bfx 63#6 50#6 61#6, .bfi 1#6 4#6 48#6 30#6, .bfi 16#6 61#6 48#6 30#6,
    .bfi 16#6 4#6 61#6 30#6, .bfi 16#6 4#6 48#6 61#6, .perm 1#6 12#6 50#6 17#6, .perm 63#6 61#6 50#6 17#6, .perm 63#6 12#6 61#6 17#6,
    .perm 63#6 12#6 50#6 61#6, .sel 1#6 12#6 33#6 0#1 5#3, .sel 16#6 61#6 33#6 0#1 5#3, .sel 16#6 12#6 61#6 0#1 5#3, .lea 1#6 48#6 6#6 0#1 6#3,
    .lea 63#6 15#6 6#6 0#1 6#3, .lea 63#6 48#6 61#6 0#1 6#3, .cmp 0#3 6#3 12#6 0#6 2#6, .cmp 0#3 2#3 61#6 0#6 2#6, .cmp 0#3 2#3 12#6 61#6 2#6,
    .cmp 0#3 2#3 12#6 0#6 6#6, .cmpi 0#3 6#3 8#6 4#3 16#9, .cmpi 0#3 2#3 61#6 4#3 16#9, .cmpi 0#3 2#3 8#6 6#3 16#9, .addi 1#6 12#6 2326#12,
    .addi 63#6 61#6 2326#12, .andi 1#6 2#6 815#12, .andi 63#6 61#6 815#12, .ori 1#6 48#6 105#12, .ori 33#6 61#6 105#12, .xori 1#6 18#6 2455#12,
    .xori 33#6 61#6 2455#12, .shli 1#6 17#6 12#6, .shli 17#6 61#6 12#6, .shri 1#6 10#6 33#6 0#1, .shri 20#6 61#6 33#6 0#1, .li 1#6 50664#18, .lih 1#6 16206#14,
    .mov 1#6 0#6, .mov 16#6 61#6, .idot4 1#6 10#6 2#6 6#6, .idot4 22#6 61#6 2#6 6#6, .idot4 22#6 10#6 61#6 6#6, .idot4 22#6 10#6 2#6 61#6,
    .pmov 7#3 6#3 4#6 1#1 24#5, .pmov 7#3 3#3 61#6 1#1 24#5, .plop 1#3 6#3 6#3 5#3 1#4, .fadd 1#6 50#6 18#6, .fadd 63#6 61#6 18#6, .fadd 63#6 50#6 61#6,
    .fsub 1#6 48#6 22#6, .fsub 33#6 61#6 22#6, .fsub 33#6 48#6 61#6, .fmul 1#6 22#6 10#6, .fmul 16#6 61#6 10#6, .fmul 16#6 22#6 61#6, .fma 1#6 20#6 20#6 34#6,
    .fma 22#6 61#6 20#6 34#6, .fma 22#6 20#6 61#6 34#6, .fma 22#6 20#6 20#6 61#6, .fnma 1#6 50#6 18#6 0#6, .fnma 0#6 61#6 18#6 0#6, .fnma 0#6 50#6 61#6 0#6,
    .fnma 0#6 50#6 18#6 61#6, .fmin 1#6 8#6 22#6, .fmin 30#6 61#6 22#6, .fmin 30#6 8#6 61#6, .fmax 1#6 48#6 10#6] = true := by decide
theorem test_ill_formed_3 : refusedAll
  [.fmax 17#6 61#6 10#6, .fmax 17#6 48#6 61#6, .fabs 1#6 8#6, .fabs 30#6 61#6, .fneg 1#6 50#6, .fneg 22#6 61#6, .fcmp 5#3 6#3 50#6 34#6 0#6,
    .fcmp 5#3 2#3 61#6 34#6 0#6, .fcmp 5#3 2#3 50#6 61#6 0#6, .fcmp 5#3 2#3 50#6 34#6 8#6, .fclass 1#6 17#6, .fclass 18#6 61#6, .frcp 1#6 34#6,
    .frcp 16#6 61#6, .frsq 1#6 33#6, .frsq 63#6 61#6, .fsqrt 1#6 17#6, .fsqrt 30#6 61#6, .fex2 1#6 10#6, .fex2 30#6 61#6, .flg2 1#6 8#6, .flg2 17#6 61#6,
    .fsin 1#6 6#6, .fsin 63#6 61#6, .fcos 1#6 22#6, .fcos 63#6 61#6, .fscl 1#6 6#6 18#6, .fscl 17#6 61#6 18#6, .fscl 17#6 6#6 61#6, .frnd 1#6 50#6,
    .frnd 34#6 61#6, .cvt 1#6 10#6 7#4, .cvt 22#6 61#6 7#4, .cvt 22#6 10#6 12#4, .cvtn 1#6 0#6 10#6 1#4, .cvtn 16#6 61#6 10#6 1#4, .cvtn 16#6 0#6 61#6 1#4,
    .cvtn 16#6 0#6 10#6 10#4, .cvtw 1#6 18#6 34#6 6#4, .cvtw 20#6 61#6 34#6 6#4, .cvtw 20#6 18#6 61#6 6#4, .cvtw 20#6 18#6 34#6 10#4, .fdot2 1#6 4#6 30#6 0#6,
    .fdot2 18#6 61#6 30#6 0#6, .fdot2 18#6 4#6 61#6 0#6, .fdot2 18#6 4#6 30#6 61#6, .shfl 1#6 22#6 33#6 2#2, .shfl 16#6 61#6 33#6 2#2,
    .shfl 16#6 22#6 61#6 2#2, .vote 32#6 0#1 2#3 0#6, .vote 16#6 0#1 2#3 4#6, .bcst 32#6 48#6 18#6, .bcst 2#6 61#6 18#6, .bcst 2#6 48#6 32#6, .rdx 61#6 2#6,
    .rdx 4#6 6#6, .rdxwWait 32#6 22#6, .rdxwWait 16#6 32#6, .rdxwSeq 32#6, .rdxwSet 32#6 6#6, .rdxwSet 16#6 32#6, .scan 1#6 2#6 0#6, .scan 34#6 61#6 0#6,
    .scan 34#6 2#6 6#6, .mbwVector 61#6 12#4, .mbwGroup 32#6 3#4, .mbrVector 48#6 1#1 15#4, .mbrGroup 32#6 1#1 6#4, .jmpi 32#6 1#1, .bar 17#5 2#2 14#4] = true := by decide
theorem test_ill_formed_4 : refusedAll
  [.bar 14#5 3#2 14#4, .barx 32#6 1#2 1#3 1#3, .barx 12#6 3#2 1#3 1#3, .barx 12#6 1#2 5#3 1#3, .gbara 32#6 10#6 0#6 2#2, .gbara 20#6 32#6 0#6 2#2,
    .gbara 20#6 10#6 32#6 2#2, .gbara 20#6 10#6 0#6 3#2, .gbarw 32#6 30#6 2#6 6#3, .gbarw 17#6 32#6 2#6 6#3, .gbarw 17#6 30#6 32#6 6#3, .step 32#6 17#6 0#1,
    .step 8#6 32#6 0#1, .stepe 32#6 30#6, .stepe 16#6 32#6, .carve 2#3 17#5 22#6, .carve 2#3 4#5 47#6, .ld 0#6 48#6 3107#12, .ld 17#6 15#6 3107#12,
    .ldn 0#6 2#6 3452#12, .ldn 18#6 15#6 3452#12, .st 61#6 12#6 396#12, .st 4#6 15#6 396#12, .stn 61#6 2#6 1699#12, .stn 20#6 15#6 1699#12,
    .lds 0#6 30#6 3446#12, .lds 16#6 61#6 3446#12, .sts 61#6 30#6 990#12, .sts 16#6 61#6 990#12, .ldx 0#6 12#6 8#6 1#1 3#2, .ldx 22#6 15#6 8#6 1#1 3#2,
    .ldx 22#6 12#6 61#6 1#1 3#2, .stx 61#6 0#6 33#6 0#1 3#2, .stx 30#6 15#6 33#6 0#1 3#2, .stx 30#6 0#6 61#6 0#1 3#2, .ldacq 0#6 50#6 5#3,
    .ldacq 16#6 15#6 5#3, .ldacq 16#6 50#6 6#3, .strel 61#6 48#6 5#3, .strel 8#6 15#6 5#3, .strel 8#6 48#6 6#3, .ldsc 0#6 50#6 1#3, .ldsc 18#6 15#6 1#3,
    .ldsc 18#6 50#6 5#3, .stsc 61#6 4#6 0#3, .stsc 18#6 15#6 0#3, .stsc 18#6 4#6 5#3, .atom 0#6 22#6 2#6 3#3 5#3, .atom 33#6 15#6 2#6 3#3 5#3,
    .atom 33#6 22#6 61#6 3#3 5#3, .atom 33#6 22#6 2#6 6#3 5#3, .atomar 0#6 34#6 4#6 3#3 3#3, .atomar 34#6 15#6 4#6 3#3 3#3, .atomar 34#6 34#6 61#6 3#3 3#3,
    .atomar 34#6 34#6 4#6 6#3 3#3, .atomsc 0#6 34#6 4#6 4#3 1#3, .atomsc 18#6 15#6 4#6 4#3 1#3, .atomsc 18#6 34#6 61#6 4#3 1#3, .atomsc 18#6 34#6 4#6 5#3 1#3,
    .red 61#6 50#6 4#3 4#3, .red 30#6 15#6 4#3 4#3, .red 30#6 50#6 6#3 4#3, .red 30#6 50#6 4#3 6#3, .atoms 1#6 10#6 30#6 4#3, .atoms 16#6 61#6 30#6 4#3,
    .atoms 16#6 10#6 61#6 4#3, .pref 3#2 50#6 2809#12, .pref 1#2 15#6 2809#12, .flagw 61#6 10#6 16#6 0#4, .flagw 6#6 15#6 16#6 0#4] = true := by decide
theorem test_ill_formed_5 : refusedAll
  [.flagw 6#6 10#6 61#6 0#4, .cctl 0#2 15#6 1016#12, .cpy 1#6 16#6 11#5, .cpy 0#6 32#6 11#5, .cpyt 1#6 30#6 6#3, .cpyt 8#6 32#6 6#3, .cpyw 1#6 22#6 3#3 5#3,
    .cpyw 16#6 32#6 3#3 5#3, .cpyo 1#6 0#6 0#3, .cpyo 16#6 32#6 0#3, .cpyr 1#6 18#6 1#3, .cpyr 8#6 32#6 1#3, .cpyx 1#6 18#6 1#3, .cpyx 8#6 32#6 1#3,
    .cpyq 1#6 6#6 6#3, .cpyq 16#6 32#6 6#3, .mgo 32#6 17#6, .mgo 10#6 32#6, .mwait 32#6 6#6 3#3, .mwait 16#6 32#6 3#3, .mma 0#6 2#6 32#6 0#1 1#1 1#4,
    .mma 16#6 16#6 32#6 0#1 1#1 1#4, .mma 16#6 2#6 0#6 0#1 1#1 1#4, .mma 16#6 2#6 32#6 1#1 1#1 1#4, .mma 16#6 2#6 32#6 0#1 1#1 14#4, .mzero 0#6,
    .mout 16#6 17#6 6#6 4#3 4#3, .mout 0#6 0#6 6#6 4#3 4#3, .mout 0#6 17#6 16#6 4#3 4#3, .mout 0#6 17#6 6#6 6#3 4#3, .mout 0#6 17#6 6#6 4#3 5#3,
    .mload 0#6 4#6 0#3, .mload 18#6 16#6 0#3, .mload 18#6 4#6 2#3, .mamax 1#6 16#6, .mamax 8#6 0#6, .mbar 17#5 1#2 5#4, .mbar 12#5 3#2 5#4, .mli 16#6 60534#17,
    .mliH 16#6 18924#15, .madd 16#6 6#6 2184#12, .madd 2#6 16#6 2184#12, .mfill 0#2 0#6, .mscl 0#6 22#6 10#6 1#1, .mscl 20#6 0#6 10#6 1#1,
    .mscl 20#6 22#6 1#6 1#1, .gadd 32#6 4#6 17#6, .gadd 6#6 32#6 17#6, .gadd 6#6 4#6 32#6, .gsub 32#6 20#6 16#6, .gsub 17#6 32#6 16#6, .gsub 17#6 20#6 32#6,
    .gmul 32#6 4#6 6#6, .gmul 20#6 32#6 6#6, .gmul 20#6 4#6 32#6, .gand 32#6 2#6 16#6, .gand 12#6 32#6 16#6, .gand 12#6 2#6 32#6, .gor 32#6 30#6 12#6,
    .gor 18#6 32#6 12#6, .gor 18#6 30#6 32#6, .gxor 32#6 16#6 22#6, .gxor 4#6 32#6 22#6, .gxor 4#6 16#6 32#6, .gshl 32#6 10#6 20#6, .gshl 8#6 32#6 20#6,
    .gshl 8#6 10#6 32#6, .gshr 32#6 16#6 2#6, .gshr 63#6 32#6 2#6, .gshr 63#6 16#6 32#6] = true := by decide
theorem test_ill_formed_6 : refusedAll
  [.gsar 32#6 30#6 6#6, .gsar 63#6 32#6 6#6, .gsar 63#6 30#6 32#6, .gmin 32#6 16#6 6#6, .gmin 4#6 32#6 6#6, .gmin 4#6 16#6 32#6, .gmax 32#6 30#6 20#6,
    .gmax 12#6 32#6 20#6, .gmax 12#6 30#6 32#6, .gcmp 4#3 6#3 8#6 0#6 2#6, .gcmp 4#3 4#3 32#6 0#6 2#6, .gcmp 4#3 4#3 8#6 32#6 2#6, .gcmp 4#3 4#3 8#6 0#6 6#6,
    .gli 32#6 827#17, .gliH 32#6 4653#15, .gaddi 32#6 12#6 3151#12, .gaddi 6#6 32#6 3151#12, .gld 32#6 0#6 1189#12, .gld 16#6 1#6 1189#12,
    .gst 32#6 30#6 1979#12, .gst 12#6 1#6 1979#12, .mtaga 32#6 16#6 1#2, .mtaga 10#6 32#6 1#2, .mtaga 10#6 16#6 0#2, .mtagf 32#6 6#6 48#6,
    .mtagf 12#6 32#6 48#6, .mtagf 12#6 6#6 32#6, .mjoinVector 61#6 0#6 8#6 0#3, .mjoinVector 2#6 1#6 8#6 0#3, .mjoinVector 2#6 0#6 61#6 0#3,
    .mjoinVector 2#6 0#6 8#6 6#3, .mjoinGroup 1#6 4#6 4#3, .mjoinGroup 0#6 32#6 4#3, .mjoinGroup 0#6 4#6 6#3, .launch 32#6 8#6 50#6, .launch 22#6 1#6 50#6,
    .lqcfg 32#6 0#6 4#6 2#6, .lqcfg 30#6 32#6 4#6 2#6, .lqcfg 30#6 0#6 1#6 2#6, .snapArm 32#6 8#6 20#6, .snapArm 8#6 32#6 20#6, .snapArm 8#6 8#6 1#6,
    .snapCancel 32#6 16#6, .snapCancel 18#6 32#6, .snapLoad 32#6 17#6 2#6, .snapLoad 18#6 32#6 2#6, .snapLoad 18#6 17#6 1#6, .keyld 32#6 8#6 6#6 1#1 0#2,
    .keyld 0#6 32#6 6#6 1#1 0#2, .keyld 0#6 8#6 1#6 1#1 0#2, .keyld 0#6 8#6 6#6 1#1 1#2, .migrCpy 32#6 2#6 20#6 1#2, .migrCpy 18#6 1#6 20#6 1#2,
    .migrCpy 18#6 2#6 1#6 1#2, .migrCpy 18#6 2#6 20#6 3#2, .migrEnd 32#6 16#6 4#6 1#2, .migrEnd 0#6 1#6 4#6 1#2, .migrEnd 0#6 16#6 1#6 1#2,
    .migrEnd 0#6 16#6 4#6 3#2, .tslot 32#6 48#6 18#6 2#2, .tslot 2#6 32#6 18#6 2#2, .tslot 2#6 48#6 32#6 2#2, .tslot 2#6 48#6 18#6 3#2, .tlbi 32#6 4#6 0#1 2#2,
    .tlbi 48#6 1#6 0#1 2#2, .tlbi 48#6 4#6 0#1 0#2, .pendBind 1#6, .pendImp 1#6, .creq 32#6 6#6 16#6, .creq 10#6 32#6 16#6] = true := by decide
theorem test_ill_formed_7 : refusedAll
  [.creq 10#6 6#6 32#6, .cawt 32#6 12#6 16#6 1#1, .cawt 12#6 32#6 16#6 1#1, .cawt 12#6 12#6 32#6 1#1, .cuse 32#6 48#6 30#6, .cuse 16#6 32#6 30#6,
    .cuse 16#6 48#6 1#6, .crel 32#6 8#6 1#1, .crel 63#6 32#6 1#1, .cstat 32#6 20#6, .cstat 0#6 32#6, .epsnd 32#6 22#6 30#6, .epsnd 16#6 32#6 30#6,
    .epsnd 16#6 22#6 1#6, .eprcv 32#6 2#6 12#6, .eprcv 63#6 32#6 12#6, .eprcv 63#6 2#6 1#6, .time 1#6, .htune 32#6 30#6 0#1, .htune 30#6 32#6 0#1] = true := by decide
/-! ## The hypotheses of each statement can be met -/

theorem witness_DecodeEncodeAgree :
    (Instr.iadd 16#6 17#6 18#6).wf = true ∧ encode (.iadd 16#6 17#6 18#6) = some (wordOf (.iadd 16#6 17#6 18#6)) := ⟨rfl, rfl⟩
theorem witness_DecodedWordIsTheInstructionsWord : decode 0x28200502#32 = .ok (.cmp 1#3 0#3 0#6 20#6 2#6) := rfl
theorem witness_UnassignedAndIllegalWordsTrap : assignedOpcode ((0xFF000000#32 : Word).extractLsb' 24 8).toNat = false ∧
    Present (placed .nop) ∧ r39 ((placed .nop).env (placed .nop).cur) 0xFF000000#32 = some (.illegal, 0xFF000001#32) := ⟨rfl, rfl, by decide⟩

/-- IADD to the queue, and LEA to the pair n14, n15. -/
theorem witness_VectorInstructionsComplete : let i := Instr.iadd 0#6 0#6 0#6
    ∃ r, VecReady (placed i) 0 false (courseOf i) (teamOf i) i (wordOf i) r :=
  ⟨_, ⟨rfl, rfl, rfl, rfl, by decide⟩, ⟨rfl, rfl⟩, rfl, rfl, by decide⟩
theorem witness_VectorInstructionsFrame : let i := Instr.lea 30#6 0#6 1#6 1#1 2#3
    ∃ r, VecReady (placed i) 0 false (courseOf i) (teamOf i) i (wordOf i) r ∧ r.wide = true :=
  ⟨_, ⟨⟨rfl, rfl, rfl, rfl, by decide⟩, ⟨rfl, rfl⟩, rfl, rfl, by decide⟩, rfl⟩
/-- FADD under S32; IADD of n0 while it is empty in lane 0, under policy 1 and under policy 0. -/
theorem witness_VectorInstructionsTrapOrWait : let i := Instr.fadd 0#6 0#6 0#6
    ∃ r, Runs (placed i) 0 false (courseOf i) (teamOf i) ∧ Passes (placed i) i (wordOf i) ∧ vecRow (courseOf i) i = some r ∧ r.types = false :=
  ⟨_, ⟨rfl, rfl, rfl, rfl, by decide⟩, ⟨rfl, rfl⟩, rfl, rfl⟩
def emptied (mode : Word) (c : Course) : Course := { c.mapFrom 1#32 fun _ x => x.empty 0 with mode := mode }
theorem witness_EmptyRegistersTrap : let i := Instr.iadd 0#6 16#6 1#6
    let c := emptied 0x2007#32 (courseOf i)
    Runs (withCourse i (emptied 0x2007#32)) 0 false c (teamOf i) ∧ Passes (withCourse i (emptied 0x2007#32)) i (wordOf i) ∧ (vecRow c i).isSome = true ∧
      c.mode.getLsbD 13 = true ∧ c.isEmpty false 16 0 = true ∧ (c.active false).getLsbD 0 = true :=
  ⟨⟨rfl, rfl, rfl, rfl, by decide⟩, ⟨rfl, rfl⟩, rfl, by decide, by decide, by decide⟩
theorem witness_EmptyRegistersWait : let i := Instr.iadd 0#6 16#6 1#6
    let c := emptied 0x7#32 (courseOf i)
    Runs (withCourse i (emptied 0x7#32)) 0 false c (teamOf i) ∧ Passes (withCourse i (emptied 0x7#32)) i (wordOf i) ∧
      c.mode.getLsbD 13 = false ∧ c.isEmpty false 16 0 = true ∧ (c.active false).getLsbD 0 = true :=
  ⟨⟨rfl, rfl, rfl, rfl, by decide⟩, ⟨rfl, rfl⟩, by decide, by decide, by decide⟩
theorem witness_PredicateInstructionsComplete : let i := Instr.cmp 1#3 0#3 0#6 1#6 2#6
    ∃ r, Runs (placed i) 0 false (courseOf i) (teamOf i) ∧ Passes (placed i) i (wordOf i) ∧ predRow (courseOf i) i = some r ∧ r.types = true ∧
      Ready (courseOf i) ((courseOf i).active false) r.reads [] :=
  ⟨_, ⟨rfl, rfl, rfl, rfl, by decide⟩, ⟨rfl, rfl⟩, rfl, rfl, by decide⟩

/-- A course runs the instruction, as R39 lets it. -/
def courseRuns (i : Instr) : Bool :=
  (placed i).curRuns && decide ((placed i).cur = .course 0 false) && decide (encode i = some (wordOf i)) && (r39 ((placed i).env (placed i).cur) (wordOf i)).isNone
theorem witness_LaneInstructionsComplete : [Instr.shfl 17#6 16#6 1#6 3#2, .vote 2#6 0#1 0#3 3#6, .bcst 2#6 1#6 31#6, .rdx 1#6 0#6, .scan 0#6 1#6 0#6,
    .rdxwWait 2#6 3#6, .rdxwSeq 2#6, .rdxwSet 4#6 5#6].all courseRuns = true := by decide
theorem witness_ModeAndSpecialRegistersComplete : [Instr.nop, .yield, .setm 1#4 3#14, .getm 2#6, .gsr 2#6 0x001#12, .gsw 3#6 0x080#12].all courseRuns = true ∧
    modeOk (setModeField (courseOf .nop) 1 3) = true := by decide
theorem witness_GswWritesTheNamedRegister : let i := Instr.gsw 3#6 0x080#12
    Runs (placed i) 0 false (courseOf i) (teamOf i) ∧ Passes (placed i) i (wordOf i) ∧ MayAccess (courseOf i) 0x080 true (courseOf i).gt.wide ∧ Clean (placed i) [(3, false)] ∧
      (courseOf i).gt.wide = false ∧ ((courseOf i).sc.reg 3).toNat % 16 = 0 :=
  ⟨⟨rfl, rfl, rfl, rfl, by decide⟩, ⟨rfl, rfl⟩, ⟨_, rfl, by decide, by decide, .inr rfl⟩, rfl, rfl, rfl⟩
/-- SETM ET 15; GSR of TCAUSE outside the handler. -/
theorem witness_PrivilegeAndReservedModesTrap : let i := Instr.setm 1#4 15#14
    let j := Instr.gsr 2#6 0x060#12
    Runs (placed i) 0 false (courseOf i) (teamOf i) ∧ Passes (placed i) i (wordOf i) ∧ modeOk (setModeField (courseOf i) 1 15) = false ∧ CanTrap (courseOf i) (teamOf i) ∧
      Runs (placed j) 0 false (courseOf j) (teamOf j) ∧ Passes (placed j) j (wordOf j) ∧ (courseOf j).gt.wide = false :=
  ⟨⟨rfl, rfl, rfl, rfl, by decide⟩, ⟨rfl, rfl⟩, by decide, by decide, ⟨rfl, rfl, rfl, rfl, by decide⟩, ⟨rfl, rfl⟩, rfl⟩
def inHandler (c : Course) : Course := { c with handler := true }
theorem witness_SoftwareTrapsEnterTheHandlerOnce : let i := Instr.trap 7#18
    Runs (placed i) 0 false (courseOf i) (teamOf i) ∧ CanTrap (courseOf i) (teamOf i) ∧ Passes (placed i) i (wordOf i) ∧
      Runs (withCourse i inHandler) 0 false (inHandler (courseOf i)) (teamOf i) ∧ (teamOf i).version = none ∧ Passes (withCourse i inHandler) i (wordOf i) :=
  ⟨⟨rfl, rfl, rfl, rfl, by decide⟩, by decide, ⟨rfl, rfl⟩, ⟨rfl, rfl, rfl, rfl, by decide⟩, rfl, ⟨rfl, rfl⟩⟩
theorem witness_ExtendedStateAccessesComplete : [Instr.xsr 17#6 6#5, .xsr 2#6 5#5, .xsw 1#6 6#5, .xsw 1#6 8#5, .xsw 3#6 5#5].all courseRuns = true ∧
    Ready (courseOf (.xsw 1#6 8#5)) ((courseOf (.xsw 1#6 8#5)).active false) [⟨1, .n32, 13⟩] [] ∧
    imageOk (fun l => (courseOf (.xsw 1#6 8#5)).src .n32 1 l) = true ∧ ((courseOf (.xsw 3#6 5#5)).xWrite 5 7).isSome = true := by decide
theorem witness_EretReturnsFromTheHandler :
    Runs (placed .eret) 0 false (courseOf .eret) (teamOf .eret) ∧ Passes (placed .eret) .eret (wordOf .eret) ∧ (courseOf .eret).handler = true ∧ (courseOf .eret).held = [] ∧
      (courseOf .eret).preempt = none ∧ (courseOf .eret).faultPend.getLsbD 31 = false ∧ (courseOf .eret).xHeader.mask ≠ 0#32 ∧ (courseOf .eret).depth = 0 :=
  ⟨⟨rfl, rfl, rfl, rfl, by decide⟩, ⟨rfl, rfl⟩, rfl, rfl, rfl, rfl, by decide, rfl⟩
def withCause (c : Course) : Course :=
  { c with held := [{ cause := .softErr, tpc := none, slot := none, taddr := 0x40#64, tmask := 1#32, tinfo := 0#32 }], preempt := some 1#32 }
theorem witness_EretTakesAHeldCause :
    Runs (withCourse .eret withCause) 0 false (withCause (courseOf .eret)) (teamOf .eret) ∧ Passes (withCourse .eret withCause) .eret (wordOf .eret) ∧
      (withCause (courseOf .eret)).handler = true := ⟨⟨rfl, rfl, rfl, rfl, by decide⟩, ⟨rfl, rfl⟩, rfl⟩
theorem witness_BranchesAndBalwComplete : [Instr.bra 0#1 7#3 4#20, .call 8#20, .ret, .jmpi 3#6 1#1, .loop 2#4 0xFFFFF#20, .balw 3#4 2#20].all courseRuns = true ∧
    ((courseOf .ret).sc.reg 31).toNat % 4 = 0 := by decide
/-- BRC on a predicate that holds in half the lanes: with the other slot free, and with it taken, at depths 0 and 32. -/
def parted (other : Word) (depth : Nat) (c : Course) : Course :=
  { c.mapFrom 0xFFFF#32 fun _ x => x.setPred 1 true with stretcher := { c.stretcher with mask := other }, depth := depth }
theorem witness_SplitAndJoinComplete : let i := Instr.brc 0#1 1#3 4#20
    Runs (withCourse i (parted 0#32 0)) 0 false (parted 0#32 0 (courseOf i)) (teamOf i) ∧ Passes (withCourse i (parted 0#32 0)) i (wordOf i) ∧
      takers (parted 0#32 0 (courseOf i)) false false 1 = 0xFFFF#32 ∧
      ((parted 1#32 32 (courseOf i)).slot true).mask ≠ 0#32 ∧ Runs (placed .join) 0 false (courseOf .join) (teamOf .join) ∧ Passes (placed .join) .join (wordOf .join) :=
  ⟨⟨rfl, rfl, rfl, rfl, by decide⟩, ⟨rfl, rfl⟩, by decide, by decide, ⟨rfl, rfl, rfl, rfl, by decide⟩, ⟨rfl, rfl⟩⟩
/-- A write of p7, in lane 31. -/
theorem witness_PredicateInstructionsComplete_p7 : let i := Instr.plop 7#3 5#3 0#3 0#3 1#4
    ∃ r, predRow (courseOf i) i = some r ∧ r.field / 8 = 7 ∧ ((courseOf i).active false).getLsbD 31 = true ∧ 6 ≤ (6#3 : BitVec 3).toNat :=
  ⟨_, rfl, by decide, by decide, by decide⟩
/-- BRC's push needs scratchpad: a team of eight granules. -/
def withSpad (t : Team) : Team := { t with sp := 8 }
theorem witness_BrcPushes : (parted 1#32 0 (courseOf .join)).splitSp.toNat + 16 ≤ (withSpad (teamOf .join)).spSize ∧
    Runs (withTeam .join withSpad) 0 false (courseOf .join) (withSpad (teamOf .join)) := ⟨by decide, rfl, rfl, rfl, rfl, by decide⟩

def completes (i : Instr) (s : State) : Bool := match exec i s with | .next _ => true | _ => false
theorem witness_GroupInstructionsComplete : [Instr.gadd 2#6 3#6 4#6, .gsub 2#6 3#6 4#6, .gmul 2#6 3#6 4#6, .gand 2#6 3#6 4#6, .gor 2#6 3#6 4#6, .gxor 2#6 3#6 4#6,
    .gshl 2#6 3#6 4#6, .gshr 2#6 3#6 4#6, .gsar 2#6 3#6 4#6, .gmin 2#6 3#6 4#6, .gmax 2#6 3#6 4#6, .gcmp 1#3 0#3 3#6 4#6 2#6, .gli 2#6 5#17, .gliH 2#6 5#15,
    .gaddi 2#6 3#6 0xFFF#12].all courseRuns = true ∧ GtLegal (placed (.gadd 2#6 3#6 4#6)) ∧ Clean (placed (.gadd 2#6 3#6 4#6)) [(3, false), (4, false)] :=
  ⟨by decide, by decide, rfl⟩
theorem witness_GroupArithmeticFrame : let i := Instr.gadd 2#6 3#6 4#6
    Runs (placed i) 0 false (courseOf i) (teamOf i) ∧ Passes (placed i) i (wordOf i) ∧ groupFields i = some (2#6, 3#6, 4#6) ∧
      completes i (placed i) = true := ⟨⟨rfl, rfl, rfl, rfl, by decide⟩, ⟨rfl, rfl⟩, rfl, by decide⟩

/-- GLD and GST at address 0, of a course and of a control core. -/
theorem witness_GroupMemoryAccessesComplete : let i := Instr.gld 2#6 4#6 0#12
    let j := Instr.gst 2#6 4#6 0#12
    Runs (placed i) 0 false (courseOf i) (teamOf i) ∧ Passes (placed i) i (wordOf i) ∧ Clean (placed i) [(4, true)] ∧
      (placed i).translate (teamOf i).xlat 0 .load true = .ok 0 0x1F ∧
    Runs (placed j) 0 false (courseOf j) (teamOf j) ∧ Passes (placed j) j (wordOf j) ∧ ((courseOf j).slot false).hold = .free ∧
      (placed j).translate (teamOf j).xlat 0 .store true = .ok 0 0x1F ∧ versionBans (teamOf j) 0 = false :=
  ⟨⟨rfl, rfl, rfl, rfl, by decide⟩, ⟨rfl, rfl⟩, rfl, by decide, ⟨rfl, rfl, rfl, rfl, by decide⟩, ⟨rfl, rfl⟩, rfl, by decide, rfl⟩
/-- A word that K agents may run, placed at the control core of die 0, or at the Lintel of package 1. -/
def onCore (i : Instr) : State := { State.reset.place 0xE5000000#32 with agenda := [], cur := .kcore 0 }.modDie 0 fun y => { y with kcore := { y.kcore with pc := BitVec.ofNat 64 (wordOf i).toNat } }
theorem witness_ProcessorGst : let j := Instr.gst 2#6 4#6 0#12
    Present (onCore j) ∧ (onCore j).self = none ∧ Passes (onCore j) j (wordOf j) ∧ Clean (onCore j) [(4, true), (2, false)] ∧
      (onCore j).unshared 0 = true ∧ ∃ x, (onCore j).xlatOf (onCore j).cur = some x ∧ (onCore j).translate x 0 .store false = .ok 0 0x1F := ⟨rfl, rfl, ⟨rfl, rfl⟩, rfl, by decide, ⟨_, rfl, by decide⟩⟩

/-- A control core runs the instruction, as R39 lets it, with nothing in its write path. -/
def procRuns (i : Instr) : Bool :=
  let s := onCore i
  s.curRuns && s.self.isNone && s.procClear && decide (encode i = some (wordOf i)) && (r39 (s.env s.cur) (wordOf i)).isNone

/-- One lane in the mask. -/
def oneLane (c : Course) : Course := { c with header := { c.header with mask := 8#32 } }
theorem notJoining {c : Course} (h : (c.slot false).hold = .free) : NotJoining c false := fun _ _ _ => by simp [h]
theorem notBegun {c : Course} (h : (c.slot false).hold = .free) : NotBegun c false := fun _ => ⟨by simp [h], by simp [h]⟩
theorem hitAll {s : State} {t : Team} {act : Word} {size align op : Nat} {kind : AccKind} {ban : Nat → Bool} {h : Nat × Nat}
    (hp : Hits s t 0 size align kind ban op h) : AllHit s t act (fun _ => 0) size align kind ban op (fun _ => h) := fun _ _ _ => hp
theorem inSpad : 0 % 4 = 0 ∧ ((withTeam (.lds 17#6 1#6 0#12) withSpad).spTarget 0 (withSpad (teamOf (.lds 17#6 1#6 0#12))) 0 4).isLeft = true := by decide
/-- LD and ST of 32 lanes at address 0. -/
theorem witness_GlobalLoadsLeaveAndArrive : let i := Instr.ld 17#6 1#6 0#12
    ∃ r, Runs (placed i) 0 false (courseOf i) (teamOf i) ∧ Passes (placed i) i (wordOf i) ∧ loadRow (courseOf i) i = some r ∧ r.types = true ∧
      Ready (courseOf i) ((courseOf i).active false) r.reads [(r.d, r.wide)] ∧ (courseOf i).alwLow = 0#32 ∧ ((courseOf i).slot false).hold = .free ∧
      AllHit (placed i) (teamOf i) ((courseOf i).active false) (fun _ => 0) 4 4 .load (fun _ => false) 0x80 (fun _ => (0, 0x1F)) ∧ r.addr 0 = 0 :=
  ⟨_, ⟨rfl, rfl, rfl, rfl, by decide⟩, ⟨rfl, rfl⟩, rfl, rfl, by decide, rfl, rfl, hitAll (by decide), by decide⟩
theorem witness_GlobalStoresAndAtomicsComplete : let i := Instr.st 1#6 1#6 0#12
    ∃ r, Runs (placed i) 0 false (courseOf i) (teamOf i) ∧ Passes (placed i) i (wordOf i) ∧ storeRow (courseOf i) i = some r ∧ r.types = true ∧
      Ready (courseOf i) ((courseOf i).active false) r.reads [] ∧ (teamOf i).version = none ∧
      AllHit (placed i) (teamOf i) ((courseOf i).active false) (fun _ => 0) 4 4 .store (fun _ => false) 0x82 (fun _ => (0, 0x1F)) :=
  ⟨_, ⟨rfl, rfl, rfl, rfl, by decide⟩, ⟨rfl, rfl⟩, rfl, rfl, by decide, rfl, hitAll (by decide)⟩
theorem witness_GlobalAtomicsComplete : let i := Instr.atom 17#6 1#6 2#6 3#3 0#3
    ∃ r, Runs (placed i) 0 false (courseOf i) (teamOf i) ∧ Passes (placed i) i (wordOf i) ∧ atomRow (courseOf i) i = some r ∧ atomEt r.p (courseOf i).et = true ∧
      AllHit (placed i) (teamOf i) ((courseOf i).active false) (fun _ => 0) 4 4 .atomic (versionBans (teamOf i)) 0x8C (fun _ => (0, 0x1F)) ∧
      (courseOf i).counter r.scope + 1 ≤ 4095 :=
  ⟨_, ⟨rfl, rfl, rfl, rfl, by decide⟩, ⟨rfl, rfl⟩, rfl, rfl, hitAll (by decide), by decide⟩
theorem witness_GlobalAccessFrame : let i := Instr.ld 17#6 1#6 0#12
    completes i (withCourse i oneLane) = true ∧ (loadRow (oneLane (courseOf i)) i).isSome = true ∧ (courseOf i).handler = false ∧ (courseOf i).hbase ≠ 0#64 := ⟨by decide, rfl, rfl, by decide⟩
/-- LD at address 1. -/
theorem witness_MisalignedAccessTrapsAlign : let i := Instr.ld 17#6 1#6 1#12
    ∃ r, Runs (withCourse i oneLane) 0 false (oneLane (courseOf i)) (teamOf i) ∧ Passes (withCourse i oneLane) i (wordOf i) ∧ loadRow (oneLane (courseOf i)) i = some r ∧
      r.types = true ∧ Ready (oneLane (courseOf i)) 8#32 r.reads [(r.d, r.wide)] ∧ (oneLane (courseOf i)).active false = BitVec.ofNat 32 (2 ^ 3) ∧ r.addr 3 % r.size ≠ 0 :=
  ⟨_, ⟨rfl, rfl, rfl, rfl, by decide⟩, ⟨rfl, rfl⟩, rfl, rfl, by decide, by decide, by decide⟩
theorem witness_ScratchpadAccessesComplete : let i := Instr.lds 17#6 1#6 0#12
    let s := withTeam i withSpad
    Runs s 0 false (courseOf i) (withSpad (teamOf i)) ∧ Passes s i (wordOf i) ∧ Ready (courseOf i) ((courseOf i).active false) [⟨1, .n32, 13⟩] [(17, false)] ∧
      InSpad s 0 (withSpad (teamOf i)) ((courseOf i).active false) (fun _ => 0) 4 ∧ spAddr ((courseOf i).src .n32 1 0) 0#12 = 0 ∧
      [Instr.sts 1#6 1#6 0#12, .atoms 17#6 1#6 2#6 0#3].all courseRuns = true :=
  ⟨⟨rfl, rfl, rfl, rfl, by decide⟩, ⟨rfl, rfl⟩, by decide, fun _ _ _ => inSpad, by decide, by decide⟩
theorem witness_CacheControlAndFencesComplete : [Instr.pref 0#2 1#6 0#12, .cctl 0#2 1#6 0#12, .cctl 1#2 1#6 0#12, .cctl 3#2 1#6 0#12, .fence 1#1 1#1 3#3, .fence 0#1 1#1 0#3,
    .xfence 1#6 1#6].all courseRuns = true ∧ NotBegun (courseOf (.fence 1#1 1#1 3#3)) false ∧ (let s := placed (.fence 1#1 1#1 3#3)
      s.released 0 false 0 3 = true ∧ s.spOutstanding 0 false = false ∧ s.acquired 0 false 3 = true ∧ s.seenClear 0 false 3 = true ∧ s.pathClear 0 s.fresh = true) ∧
    [Instr.fence 1#1 1#1 3#3, .xfence 1#6 2#6].all procRuns = true ∧
    AllHit (placed (.cctl 3#2 1#6 0#12)) (teamOf (.cctl 3#2 1#6 0#12)) 0xFFFFFFFF#32 (fun _ => 0) 128 128 .store (fun _ => false) 0x93 (fun _ => (0, 0x1F)) :=
  ⟨by decide, notBegun rfl, by decide, by decide, hitAll (by decide)⟩
theorem witness_WaitsComplete : let i := Instr.waita 2#6 4#6 6#6 0#3 0#1 1#2
    let j := Instr.waitc 2#6 4#6 6#6 0#3
    Runs (placed i) 0 false (courseOf i) (teamOf i) ∧ Passes (placed i) i (wordOf i) ∧ NotBegun (courseOf i) false ∧ Clean (placed i) [(4, true), (6, false)] ∧
      (placed i).translate (teamOf i).xlat 0 .load true = .ok 0 0x1F ∧ Awaits (placed i) 0 false (courseOf i) (teamOf i) 0 0 4 4 ∧ waits 1 ((placed i).natUnder 0 4 (leafKey 0x1F)) 0 ∧
    Runs (placed j) 0 false (courseOf j) (teamOf j) ∧ Passes (placed j) j (wordOf j) ∧ NotBegun (courseOf j) false ∧ (teamOf j).launch.cntBase.toNat % 8 = 0 ∧
      (placed j).translate (teamOf j).xlat (teamOf j).launch.cntBase.toNat .load true = .ok 0 0x1F ∧ Awaits (placed j) 0 false (courseOf j) (teamOf j) 0 0 8 3 ∧
      (teamOf j).failedSlots.contains 0 = false :=
  ⟨⟨rfl, rfl, rfl, rfl, by decide⟩, ⟨rfl, rfl⟩, notBegun rfl, rfl, by decide, ⟨by decide, by decide, rfl, by decide, by decide, by decide, by decide⟩, by decide,
    ⟨rfl, rfl, rfl, rfl, by decide⟩, ⟨rfl, rfl⟩, notBegun rfl, by decide, by decide, ⟨by decide, by decide, rfl, by decide, by decide, by decide, by decide⟩, by decide⟩
/-- A value in flight. -/
def aValue : LaneValue := { key := 0, str := false, lane := 3, reg := 1, wide := true, value := 0x123456789, poison := false, fail := none, pc := 0#32, acquire := none, origin := 7, mask := 8#32 }
def withFlight (f : Flight) (s : State) : State := s.setFlight 7 f
/-- A barrier that the header slot has passed. -/
def passedBar (t : Team) : Barrier := { t.bar 3 with passed := [(0, false)] }
theorem witness_BarrierInstructionsComplete : let i := Instr.bar 2#5 1#2 3#4
    Runs (placed i) 0 false (courseOf i) (teamOf i) ∧ Passes (placed i) i (wordOf i) ∧ NotBegun (courseOf i) false ∧ (placed i).released 0 false 0 0 = true ∧ (placed i).spOutstanding 0 false = false ∧
      (((teamOf i).bar 3).pass (0, false)).pending.contains 0 = false ∧ (arrived (((teamOf i).bar 3).pass (0, false)) 0 2).arrivals < 2 ∧
      [Instr.bar 0#5 0#2 3#4, .bar 0#5 2#2 3#4, .barx 2#6 1#2 1#3 0#3, .gbara 2#6 3#6 4#6 1#2, .gbarw 2#6 3#6 4#6 0#3].all courseRuns = true ∧
      (withTeam (.gbarw 2#6 3#6 4#6 0#3) withSpad).spadOlder 0 false 0 0 16 = false ∧ (withSpad (teamOf (.gbarw 2#6 3#6 4#6 0#3))).spPoisoned 0 4 = false ∧
      (passedBar (teamOf i)).passed.contains (0, false) = true ∧ (passedBar (teamOf i)).unreleased = [] ∧ (State.putBar 0 3 (placed i) (passedBar (teamOf i))).acquired 0 false 0 = true ∧
      ({ withFlight (.value aValue) (placed i) with fresh := 8 }).acquired 0 false 0 = false ∧
      barxCheck (teamOf (.barx 2#6 1#2 1#3 0#3)) 1 0 = none ∧ barxCheck (teamOf (.barx 2#6 1#2 1#3 0#3)) 0 0 = some 5 :=
  ⟨⟨rfl, rfl, rfl, rfl, by decide⟩, ⟨rfl, rfl⟩, notBegun rfl, by decide, by decide, by decide, by decide, by decide, by decide, by decide, by decide, by decide, by decide, by decide, by decide, by decide⟩
def boxFull (t : Team) : Team := t.setBox 3 { full := true, value := 9#32 }
theorem witness_MailboxInstructionsComplete : let i := Instr.mbwGroup 2#6 3#4
    let j := Instr.mbrGroup 2#6 0#1 3#4
    Runs (placed i) 0 false (courseOf i) (teamOf i) ∧ Passes (placed i) i (wordOf i) ∧ ((teamOf i).box 3).full = false ∧
      Runs (withTeam j boxFull) 0 false (courseOf j) (boxFull (teamOf j)) ∧ Passes (withTeam j boxFull) j (wordOf j) ∧ ((boxFull (teamOf j)).box 3).full = true ∧
      [Instr.mbwVector 1#6 3#4, .mbrVector 17#6 1#1 3#4].all courseRuns = true :=
  ⟨⟨rfl, rfl, rfl, rfl, by decide⟩, ⟨rfl, rfl⟩, by decide, ⟨rfl, rfl, rfl, rfl, by decide⟩, ⟨rfl, rfl⟩, by decide, by decide⟩
theorem witness_ExitsCarvesAndStepsComplete : let i := Instr.carve 1#3 0#5 2#6
    [Instr.exit, .step 2#6 3#6 1#1, .stepe 2#6 3#6].all courseRuns = true ∧ (placed .exit).spOutstanding 0 false = false ∧ refillFails (teamOf .exit) (courseOf .exit) = none ∧
      Runs (placed i) 0 false (courseOf i) (teamOf i) ∧ Passes (placed i) i (wordOf i) ∧ (placed i).carveReason 0 (teamOf i) 2 0 = none ∧ carveFits (placed i) 0 (teamOf i) 2 0 = true ∧
      ((placed i).coursesOf 0).filter (fun kc => kc.2.party) = [(0, courseOf i)] :=
  ⟨by decide, by decide, by decide, ⟨rfl, rfl, rfl, rfl, by decide⟩, ⟨rfl, rfl⟩, by decide, by decide, by rfl⟩
/-- A course and a team that can issue each copy: its descriptor in g8 to g15. -/
def copyWords (op : Nat) : List Nat :=
  match op with
  | 0xA2 => [0, 0, 0, 0, 0x100001, 0, 0x20, 0]
  | 0xA4 => [0, 0, 1, 0, 0x800001, 0, 0, 0]
  | 0xA6 => [0, 0, 0, 1, 0x100001, 0, 0, 0]
  | _ => [0, 0, 0, 0, 0x100001, 0, 0, 0]
def withWords (a : Nat) (ws : List Nat) (c : Course) : Course :=
  { c with sc := ws.zipIdx.foldl (fun sc x => sc.set (a + x.2) x.1) c.sc }
def copyTeam (t : Team) : Team := { t with sp := 8, ws := 1, gang := [0, 1] }
def copyState (i : Instr) : State := (withCourse i (withWords 8 (copyWords (opOf (wordOf i))))).setTeam 0 (copyTeam (teamOf i))
def copyQueued (i : Instr) : Bool :=
  let s := copyState i
  let c := withWords 8 (copyWords (opOf (wordOf i))) (courseOf i)
  (copyRow i == some (opOf (wordOf i), 8, 2, 0)) && (r39 (s.env s.cur) (wordOf i)).isNone && (s.copyReason 0 (copyTeam (teamOf i)) (opOf (wordOf i)) 0 (descriptor c 8)).isNone &&
    (s.sc.checks (((List.range 8).map fun n => (8 + n, false)) ++ [(2, false)])).isNone &&
    (match exec i s with
     | .next u => (match SMap.find? u.copies s.fresh with | some x => x.op == opOf (wordOf i) && x.desc == descriptor c 8 | none => false)
     | _ => false)
theorem witness_CopyInstructionsComplete : [Instr.cpy 8#6 2#6 0#5, .cpyt 8#6 2#6 0#3, .cpyw 8#6 2#6 0#3 0#3, .cpyo 8#6 2#6 0#3, .cpyr 8#6 2#6 0#3,
    .cpyx 8#6 2#6 0#3, .cpyq 8#6 2#6 0#3].all copyQueued = true ∧ Runs (copyState (.cpy 8#6 2#6 0#5)) 0 false (withWords 8 (copyWords 0xA0) (courseOf (.cpy 8#6 2#6 0#5))) (copyTeam (teamOf (.cpy 8#6 2#6 0#5))) :=
  ⟨by decide, rfl, rfl, rfl, rfl, by decide⟩
theorem witness_StreamInstructionsComplete : let i := Instr.mgo 2#6 4#6
    let j := Instr.mwait 2#6 4#6 0#3
    Runs (placed i) 0 false (courseOf i) (teamOf i) ∧ Passes (placed i) i (wordOf i) ∧ Clean (placed i) [(2, false), (4, false)] ∧ (placed i).gsrc false 4 % 4 = 0 ∧
      (teamOf i).seq.run ≠ .running ∧ Runs (placed j) 0 false (courseOf j) (teamOf j) ∧ Passes (placed j) j (wordOf j) ∧ (teamOf j).seq.faultValid = false ∧
      ((teamOf j).seq.retired - BitVec.ofNat 32 ((placed j).gsrc false 4)).toNat < 2 ^ 31 :=
  ⟨⟨rfl, rfl, rfl, rfl, by decide⟩, ⟨rfl, rfl⟩, rfl, by decide, by decide, ⟨rfl, rfl, rfl, rfl, by decide⟩, ⟨rfl, rfl⟩, rfl, by decide⟩

/-- A team with accumulator tiles and weight slots; a stream issues the word. -/
def withTiles (t : Team) : Team := { t with acc := 8, ws := 2 }
def streamRuns (i : Instr) : Bool :=
  let s := withTeam i withTiles
  decide (s.cur = .seq 0) && s.curRuns && decide (encode i = some (wordOf i)) && (r39 (s.env s.cur) (wordOf i)).isNone
theorem witness_StreamControlWordsComplete : [Instr.mzero 16#6, .mzero 33#6, .mli 2#6 5#17, .mliH 2#6 5#15, .madd 2#6 3#6 7#12, .mloop 2#4 0xFFFFF#20, .mjmp 4#20,
    .mfence 0#1, .mfence 1#1, .mend].all streamRuns = true ∧ Streams (withTeam .mend withTiles) 0 (withTiles (teamOf .mend)) ∧ (teamOf .mend).seq.holdBatch = none ∧
    16 - 16 < (withTiles (teamOf .mend)).acc ∧ 33 - 32 < (withTiles (teamOf .mend)).ws := ⟨by decide, ⟨rfl, rfl, rfl, rfl⟩, rfl, by decide, by decide⟩
/-- MMA in S32 types with a full plain weight slot, and the others on tiles the team has. -/
def withWeights (t : Team) : Team :=
  { t with sp := 8, acc := 8, ws := 1, residency := .resident, slots := Vector.ofFn fun _ => { WSlot.empty with full := true, length := 8192 } }
theorem witness_MatrixWordsCompleteInTwoSteps : let x := withWeights (teamOf .mend)
    [Instr.mma 16#6 2#6 32#6 0#1 0#1 1#4, .mfill 0#2 1#6, .mout 2#6 16#6 4#6 0#3 0#3, .mload 16#6 4#6 0#3, .mscl 16#6 17#6 4#6 0#1, .mamax 4#6 16#6].all (fun i =>
      streamRuns i && decide ((withTeam i withWeights).team? 0 = some x) && decide (((withTeam i withWeights).core x.core).arrayHolder = none) &&
        decide ((withTeam i withWeights).arrayWants x.core = [])) = true ∧
      x.mmaCheck (wordOf (.mma 16#6 2#6 32#6 0#1 0#1 1#4)) = .ok ∧ x.hasTile (16 - 16) false = true ∧ x.hasTile (17 - 16) false = true ∧
      streamRange x (x.seq.reg 4) 16384 = true ∧ x.seq.regOrZero 2 < 2 ^ 9 ∧ x.tilePoisoned 0 false = false ∧ x.seq.token = none ∧
      (withTeam (.mamax 4#6 16#6) withWeights).translate x.xlat 0 .atomic true = .ok 0 0x1F ∧ versionBans x 0 = false := by decide
/-- Group register words set at the executing processor. -/
def withRegs (a : Nat) (ws : List Nat) (s : State) : State := s.setScalar s.cur (ws.zipIdx.foldl (fun sc x => sc.set (a + x.2) x.1) s.sc)

theorem witness_MortarInstructionsComplete : let i := Instr.mtaga 2#6 4#6 1#2
    let j := Instr.mtagf 2#6 4#6 5#6
    let s := withCourse i (withWords 4 [64])
    let u := withCourse j (withWords 4 [0x40000000, 64])
    Runs s 0 false (withWords 4 [64] (courseOf i)) (teamOf i) ∧ Passes s i (wordOf i) ∧ (courseOf i).bound = none ∧ (courseOf i).earlier = [] ∧ Clean s [(4, false)] ∧ s.gsrc false 4 = 64 ∧
      Passes u j (wordOf j) ∧ Clean u [(4, false), (5, false)] ∧ domOk (u.gsrc false 4) = true ∧ tagIdx (u.gsrc false 4) + u.gsrc false 5 ≤ 2 ^ 20 :=
  ⟨⟨rfl, rfl, rfl, rfl, by decide⟩, ⟨rfl, rfl⟩, rfl, rfl, rfl, by decide, ⟨rfl, rfl⟩, rfl, by decide, by decide⟩
/-- MJOIN of a tile whose router lies on die 0, in both forms; its tag in g2, its descriptor from g8. -/
def joining (len : Nat) (c : Course) : Course := withWords 8 [0x20000, 0, 0, 0, len, 0, 0, 0] (withWords 2 [0x40000000] c)
theorem witness_MjoinSendsItsOperand : let i := Instr.mjoinVector 17#6 8#6 50#6 2#3
    let s := withCourse i (joining 8)
    let c := joining 8 (courseOf i)
    ∃ u, Runs s 0 false c (teamOf i) ∧ (teamOf i).version = none ∧ Clean s ((List.range 8).map fun n => (8 + n, false)) ∧ Passes s i (wordOf i) ∧
      joinDescriptorOk c 8 true = true ∧ lanesOf (c.active false) = 0 :: (List.range 31).map (· + 1) ∧ Ready c (c.active false) [⟨17, .n32, 15⟩, ⟨50, .n32, 14⟩] [] ∧
      JoinLeaves s 0 false c (teamOf i) true (joinDescriptor c 8) 2 (c.src .n32 50 0) (joinWords (teamOf i) c true (c.active false) 17 2 (joinDescriptor c 8)) 0x20000 0x1F 0 0 u :=
  ⟨_, ⟨rfl, rfl, rfl, rfl, by decide⟩, rfl, rfl, ⟨rfl, rfl⟩, by decide, by decide, by decide,
    by decide, by decide, by decide, by decide, fun _ => ⟨rfl, rfl⟩, fun h => (h (by decide)).elim, notJoining rfl, by decide, by decide, fun h => Bool.noConfusion h, .inl (by decide), rfl⟩
theorem witness_MjoinGroup : let i := Instr.mjoinGroup 8#6 2#6 2#3
    let s := (withCourse i (joining 1)).setTeam 0 (withSpad (teamOf i))
    let c := joining 1 (courseOf i)
    let t := withSpad (teamOf i)
    ∃ u, Runs s 0 false c t ∧ Passes s i (wordOf i) ∧ joinDescriptorOk c 8 false = true ∧ Clean s [(2, false)] ∧ (joinDescriptor c 8).src + 16 * (joinDescriptor c 8).len ≤ t.spSize ∧
      t.spPoisoned 0 16 = false ∧ JoinLeaves s 0 false c t false (joinDescriptor c 8) 2 (s.gsrc false 2) (joinWords t c false 0#32 0 2 (joinDescriptor c 8)) 0x20000 0x1F 0 0 u :=
  ⟨_, ⟨rfl, rfl, rfl, rfl, by decide⟩, ⟨rfl, rfl⟩, by decide, rfl, by decide, by decide,
    by decide, by decide, by decide, by decide, fun _ => ⟨rfl, rfl⟩, fun h => (h (by decide)).elim, notJoining rfl, by decide, by decide, fun _ => by decide, .inl (by decide), rfl⟩
/-- A valid launch record at 0x20000 and queue 0 ready to take it. -/
def recordBytes : List Byte := ([1, 0x21, 1, 0, 1, 0xFFFFFFFF, 0, 0, 0, 0, 0, 0, 0, 0, 0, 0] : List Nat).flatMap (bytesOf 4)
def launching (i : Instr) : State :=
  let s := withRegs 8 [0x20000, 0, 5, 0, 0x40, 0, 0x80, 0] (onCore i)
  ({ s with mem := s.mem.setBytes 0x20000 recordBytes }).setQueue 0 0 { LQueue.init with en := true, root := 0x100000 }
def theLaunch : Instr := .launch 2#6 8#6 0#6
def theRecord : Nat → Nat := ((launching theLaunch).recordWords 0 0x20000 ((launching theLaunch).queue 0 0)).getD fun _ => 0
theorem eqGetD {α : Type} {x : Option α} {f : α} (h : x.isSome = true) : x = some (x.getD f) := by cases x <;> simp_all
theorem witness_LaunchAndQueueSetupComplete : let s := launching theLaunch
    OnKcore s 0 ∧ Passes s theLaunch (wordOf theLaunch) ∧ Clean s [(8, true), (10, true), (12, true), (14, true)] ∧ LaunchRecord s 0 0x20000 (s.queue 0 0) theRecord ∧
      s.gsrc true 8 = 0x20000 ∧ recordReason theRecord (s.gsrc true 12) (s.gsrc true 14) = none ∧ (s.queue 0 0).en = true ∧ (s.queue 0 0).entries.length < 16 ∧ s.procClear = true :=
  ⟨⟨rfl, by decide⟩, ⟨rfl, rfl⟩, by decide, ⟨by decide, eqGetD (by decide +kernel)⟩, by decide +kernel, by decide +kernel, by decide +kernel, by decide +kernel, by decide +kernel⟩
theorem witness_QueueSetup : let j := Instr.lqcfg 2#6 8#6 4#6 3#6
    let u := withRegs 8 [0x00070011] (onCore j)
    OnKcore u 0 ∧ Passes u j (wordOf j) ∧ Clean u [(8, false), (4, true)] ∧ bitsOf (u.gsrc false 8) 15 6 = 0 ∧ (u.gsrc false 8).testBit 3 = false ∧ (u.gsrc false 8).testBit 5 = false :=
  ⟨⟨rfl, by decide⟩, ⟨rfl, rfl⟩, rfl, by decide, by decide, by decide⟩
theorem witness_TileSlotAndTlbInstructionsComplete : let i := Instr.tslot 2#6 4#6 5#6 1#2
    let j := Instr.tlbi 0#6 0#6 0#1 0#2
    let s := withCourse i (withWords 4 [0, 1])
    Runs s 0 false (withWords 4 [0, 1] (courseOf i)) (teamOf i) ∧ Passes s i (wordOf i) ∧ Clean s [(4, false), (5, false)] ∧ s.gsrc false 5 % 64 = 1 ∧
      NotBegun (withWords 4 [0, 1] (courseOf i)) false ∧ (teamOf i).version = none ∧ (thawed s 0 (withWords 4 [0, 1] (courseOf i))).released 0 false s.fresh 3 = true ∧ (onCore j).procClear = true ∧
      OnKcore (onCore j) 0 ∧ Passes (onCore j) j (wordOf j) ∧ Clean (onCore j) [(0, false), (0, true)] ∧ (onCore j).translatedLeft [0].contains (fun _ => true) = false ∧
      Runs (placed j) 0 false (courseOf j) (teamOf j) ∧ Passes (placed j) j (wordOf j) ∧ Clean (placed j) [(0, false), (0, true)] ∧ NotBegun (courseOf j) false ∧
      (thawed (placed j) 0 (courseOf j)).released 0 false (placed j).fresh 3 = true ∧ (placed j).translatedLeft [0].contains (fun x => decide (x = (teamOf j).launch.asid)) = false :=
  ⟨⟨rfl, rfl, rfl, rfl, by decide⟩, ⟨rfl, rfl⟩, rfl, by decide, notBegun rfl, rfl, by decide, by decide, ⟨rfl, by decide⟩, ⟨rfl, rfl⟩, rfl, by decide,
    ⟨rfl, rfl, rfl, rfl, by decide⟩, ⟨rfl, rfl⟩, rfl, notBegun rfl, by decide +kernel, by decide⟩
theorem witness_KeyldSetsAKey : let i := Instr.keyld 2#6 4#6 0#6 0#1 1#2
    OnKcore (onCore i) 0 ∧ Passes (onCore i) i (wordOf i) ∧ Clean (onCore i) [(4, false)] ∧ Clean (onCore i) [(4, false), (0, true)] ∧ (onCore i).gsrc false 4 < 4096 :=
  ⟨⟨rfl, by decide⟩, ⟨rfl, rfl⟩, rfl, rfl, by decide⟩
def theMove : State := withRegs 4 [0x200000, 0, 0x210000, 0] (onCore (.migrCpy 2#6 4#6 6#6 0#2))
theorem witness_MigrationInstructionsComplete : OnKcore theMove 0 ∧ Clean theMove [(4, true), (6, true)] ∧ Passes theMove (.migrCpy 2#6 4#6 6#6 0#2) (wordOf (.migrCpy 2#6 4#6 6#6 0#2)) ∧
    theMove.gsrc true 4 = 0x200000 ∧ theMove.gsrc true 6 = 0x210000 ∧ theMove.migrRefused 0x200000 0x210000 (2 ^ 16) = false ∧ (theMove.die 0).migrations = [] ∧
    Passes theMove (.migrEnd 2#6 4#6 6#6 0#2) (wordOf (.migrEnd 2#6 4#6 6#6 0#2)) := ⟨⟨rfl, by decide⟩, by decide, ⟨rfl, rfl⟩, by decide +kernel, by decide +kernel, by decide +kernel, by decide +kernel, ⟨rfl, rfl⟩⟩
def theRecordCourse : Course := withWords 4 [0x20000, 0] (courseOf (.pendBind 4#6))
def theRecordState : State := (placed (.pendBind 4#6)).setCourse 0 theRecordCourse
def pagesOf : PendRes → State × Bound
  | .ok s b => (s, b)
  | .res _ => (State.reset, { va := 0, pages := [], core := 0, upTo := 0 })
def pagesFound : PendRes → Bool
  | .ok .. => true
  | .res _ => false
theorem pages_eq {r : PendRes} (h : pagesFound r = true) : r = .ok (pagesOf r).1 (pagesOf r).2 := by cases r <;> simp_all [pagesFound, pagesOf]
theorem witness_PendingRecordInstructionsComplete : let s := theRecordState
    let s' := (pagesOf (s.pendPages 0x20000 [2] [])).1
    Runs s 0 false theRecordCourse (teamOf (.pendBind 4#6)) ∧ Clean s [(4, true)] ∧ s.gsrc true 4 = 0x20000 ∧
      s.pendPages 0x20000 [2] [] = .ok s' (pagesOf (s.pendPages 0x20000 [2] [])).2 ∧
      Passes s (.pendBind 4#6) (wordOf (.pendBind 4#6)) ∧ theRecordCourse.bound = none ∧ s'.spOutstanding 0 false = false ∧ s'.spOutstanding 0 true = false ∧
      s'.gbaraOut 0 = false ∧ Passes (placed (.pendImp 4#6)) (.pendImp 4#6) (wordOf (.pendImp 4#6)) :=
  ⟨⟨rfl, rfl, rfl, rfl, by decide⟩, rfl, by decide +kernel, pages_eq (by decide +kernel), ⟨rfl, rfl⟩, rfl, by decide +kernel, by decide +kernel, by decide +kernel, ⟨rfl, rfl⟩⟩
theorem witness_ProcessorTrapsStoreAFrame : let i := Instr.trap 5#18
    let s := (onCore i).setReg 0 (distBase 0 + 0x3C) 0
    ∃ p, s.cur = .kcore 0 ∧ Present s ∧ s.proc? (.kcore 0) = some p ∧ Passes s i (wordOf i) ∧ (s.reg (procBase (.kcore 0)).1 ((procBase (.kcore 0)).2 + 0x14)).testBit 0 = false :=
  ⟨_, rfl, by decide, rfl, ⟨rfl, rfl⟩, by decide⟩
/-- A word of a Lintel, at the Lintel of package 1, with registers. -/
def onLintel (i : Instr) (ws : List Nat) : State := withRegs 4 ws (placed i)
theorem witness_CircuitInstructionsComplete : let i := Instr.creq 2#6 4#6 5#6
    let s := onLintel i [0x0300, 0x00C01]
    OnLintel s 1 ∧ Clean s [(4, false)] ∧ Clean s [(4, false), (5, false)] ∧ Clean s [(4, false), (5, true)] ∧ Passes s i (wordOf i) ∧ bitsOf (s.gsrc false 4) 31 13 = 0 ∧
      bitsOf (s.gsrc false 4) 7 6 = 0 ∧ bitsOf (s.gsrc false 5) 31 19 = 0 ∧ bitsOf (s.gsrc false 5) 13 10 ≠ 1 ∧
      [Instr.cawt 2#6 4#6 5#6 0#1, .cuse 2#6 4#6 6#6, .crel 2#6 4#6 1#1, .cstat 2#6 4#6, .epsnd 2#6 4#6 6#6, .eprcv 2#6 4#6 6#6, .time 2#6, .htune 2#6 4#6 1#1].all (fun i =>
        decide (encode i = some (wordOf i)) && (r39 ((onLintel i []).env (.lintel 1)) (wordOf i)).isNone && decide ((onLintel i []).cur = .lintel 1)) = true ∧
      (s.pkg 1).lintel.hold = .free ∧ cawtCode ((s.pkg 1).bar 0) false = some 6 :=
  ⟨⟨rfl, by decide⟩, by decide, by decide, by decide, ⟨rfl, rfl⟩, by decide, by decide, by decide, by decide, by decide, by decide, by decide⟩
theorem witness_PlaneAndTimeInstructionsComplete : let i := Instr.epsnd 2#6 4#6 6#6
    let s := onLintel i [0x10 * 2 ^ 18 + 5 * 2 ^ 14 + 2 * 2 ^ 10, 0, 0x20000, 0]
    OnLintel s 1 ∧ Clean s [(4, false)] ∧ Clean s [(4, false), (6, true)] ∧ Passes s i (wordOf i) ∧ bitsOf (s.gsrc false 4) 31 26 = 0 ∧ bitsOf (s.gsrc false 4) 17 14 < 12 ∧
      (s.pkg 1).lintel.hold = .free ∧ (s.lintelRead 1 0x20000 17).isLeft = true :=
  ⟨⟨rfl, by decide⟩, by decide, by decide, ⟨rfl, rfl⟩, by decide, by decide, by decide, by decide +kernel⟩
/-! ## Events -/

/-- The state an instruction or an event leaves. -/
def after (i : Instr) (s : State) : State := match exec i s with | .next u => u | _ => s
/-- A value on its way, a load in flight, a scratchpad load at its bank. -/
def onWay : State := withFlight (.value aValue) (placed .nop)
def loadOut : State := after (.ld 17#6 1#6 0#12) (withCourse (.ld 17#6 1#6 0#12) oneLane)
def spadOut : State := after (.lds 17#6 1#6 0#12) ((withCourse (.lds 17#6 1#6 0#12) oneLane).setTeam 0 (withSpad (teamOf .nop)))
def flightLoad (s : State) (n : Nat) : Bool := match s.flight? n with
  | some (.load x) => (match s.course? x.key with
    | some c =>
      let own := c.forward n x.str x.mask x.va x.size
      x.got.isNone && !x.asked && x.acquire.isNone && x.sc.isNone && !x.atHome && !isDevice x.pa && s.mayRead n x.key x.str x.mask x.va x.pa x.size false false &&
        !s.readsAway (s.pathOf (.course x.key x.str)) x.pa own false false && !s.readsPoison (s.pathOf (.course x.key x.str)) x.pa own x.version false
    | none => false)
  | _ => false
def flightSpad (s : State) (n : Nat) : Bool := match s.flight? n with
  | some (.spad x) => !s.bankBusy n x && !x.window && (match s.team? x.target with | some t => !t.spPoisoned x.offset x.size | none => false)
  | _ => false
theorem witness_ValuesArriveInTheirLanes : (∃ c, onWay.flight? 7 = some (.value aValue) ∧ Reached onWay 0 c ∧ aValue.fail = none ∧ aValue.acquire = none) ∧
    (loadOut.flights.map fun f => flightLoad loadOut f.1) = [true] ∧ (spadOut.flights.map fun f => flightSpad spadOut f.1) = [true] :=
  ⟨⟨_, rfl, ⟨rfl, rfl, rfl, rfl⟩, rfl, rfl⟩, by decide +kernel, by decide +kernel⟩

/-- A store in its buffer, and in its core's write path. -/
def noTlb (s : State) : State := ((s.modDie 0 fun y => { y with tlb := [] }).modCore 0 fun y => { y with tlb := [] }).modQuad 0 fun y => { y with tlb := [] }
def stored : State := noTlb <| after (.st 1#6 1#6 0#12) (withCourse (.st 1#6 1#6 0#12) oneLane)
def drained : State := after (.storeBufferDrain 0 0) stored
def mayDrain (s : State) (k : Nat) : Bool := match s.course? k, s.team? (k / 16) with
  | some x, some t => (match x.entries[0]? with
    | some en => decide (t.residency = .resident) && s.mayLeave k x en 0 [] && !(s.versionFull t [0]) && decide (x.counter en.counter < 4095) && decide (en.kind ≠ 3#4) &&
        decide (s.translate t.xlat en.va.toNat .store false = .ok 0 0x1F)
    | none => false)
  | _, _ => false
/-- A line's bytes read the same under a key. -/
def sameKey (s : State) (pa key : Nat) : Bool := !isHbm pa || decide ((s.line pa).mat = s.keyMat pa key)
/-- Whether item w of a core's path may be performed. -/
def pathWrite (s : State) (p w : Nat) : Bool := match SMap.find? (s.core p).path w with
  | some (.write x) => !x.sent && mayPerform (s.core p).path w x.owner x.pa x.bytes.length && s.scTurn x.owner x.issue x.parts && decide (x.parts.length < 2) && decide (x.pa / 2 ^ 48 = s.pkgOf x.owner) && s.unshared x.pa && decide (s.forward x.pa = x.pa) && x.snap.isNone && sameKey s x.pa x.keyId
  | _ => false
def acked : State := withFlight (.ack (.course 0 false) 1 0 7) (placed .nop)
theorem witness_StoresReachMemory : mayDrain stored 0 = true ∧ ((drained.core 0).path.map fun w => pathWrite drained 0 w.1) = [true] ∧
    (∃ c, acked.flight? 7 = some (.ack (.course 0 false) 1 0 7) ∧ acked.course? 0 = some c ∧ c.recordOf 7 = none) := ⟨by decide +kernel, by decide +kernel, _, rfl, rfl, rfl⟩

/-- An atomic on its way. -/
def atomOut : State := after (.atom 17#6 1#6 2#6 3#3 0#3) (withCourse (.atom 17#6 1#6 2#6 3#3 0#3) oneLane)
def placedAtom : State := atomOut.flights.foldl (fun s f => after (.atomicPerform f.1) s) atomOut
def mayAtomic (s : State) (f : Nat) : Bool := match s.flight? f with
  | some (.atom g) => decide (g.owner = .course 0 false) && !g.sent && (match g.mark with | some m => mayPerform (s.core (s.pathOf g.owner)).path m g.owner g.pa g.size | none => s.mayPlace f 0 false g) && g.half.isNone && g.copy.isNone && sameKey s g.pa g.keyId && decide (g.order ≠ .sc) && decide (g.pa / 2 ^ 48 = s.pkgOf g.owner) && g.version.isNone &&
      s.unshared g.pa && !s.poisoned g.pa && decide (s.forward g.pa = g.pa) && g.snap.isNone
  | _ => false
theorem witness_AtomicsArePerformedAsOneEvent : (atomOut.flights.map fun f => mayAtomic atomOut f.1) = [true] ∧ (placedAtom.flights.map fun f => mayAtomic placedAtom f.1) = [true] ∧ atomSplits 3 .n32 = false ∧ atomSplits 0 .bf16x2 = true := by decide +kernel

/-- A promotion asked for, and answered. -/
def loadKey : Nat := ((loadOut.flights.head?).map fun f => f.1).getD 0
def promoting : State := loadOut.setFlight 90 (.promote loadKey 0 5 false)
def promoted : State := loadOut.setFlight 90 (.promoted loadKey)
def loadAt (s : State) (n : Nat) : Bool := match s.flight? n with | some (.load x) => decide (x.pa / 2 ^ 48 = pkgOfCore 0) | _ => false
theorem witness_PromotionsAreAnswered : promoting.flight? 90 = some (.promote loadKey 0 5 false) ∧ loadAt promoting loadKey = true ∧ promoting.pathClear 0 5 = true ∧
    promoted.flight? 90 = some (.promoted loadKey) ∧ loadAt promoted loadKey = true ∧ loadKey ≠ 90 := by decide +kernel
/-- A fault record waiting on die 0 whose ring holds 16 entries at 0x400000. -/
def aRecord : FaultRec := { type := 1, asid := 0, core := 0, cidSlot := 0, kind := 0, addr := 0x8000, tid := 0, token := 5, info := 0, members := [] }
def faulted (ctl : Nat) (s : State) : State :=
  ((((s.setReg 0 (memBase 0) 0x400000).setReg 0 (memBase 0 + 8) 4).setReg 0 (memBase 0 + 0x14) ctl).modDie 0 fun d => { d with faults := [aRecord] })
def parkedCourse (c : Course) : Course := { c with header := { c.header with parked := some 5 } }
def migrating : State := (onCore .nop).modDie 0 fun d => { d with migrations := [{ old := 0x200000, new := 0x210000, size := 65536, moved := 3, poisoned := false, done := false }] }
theorem witness_FaultAndErrorEventsComplete : let s := faulted 1 (placed .nop)
    let v := (placed .nop).setReg 0 (memBase 0 + 0x110) 1
    (s.die 0).faults = [aRecord] ∧ (s.reg 0 (memBase 0 + 0x14)).testBit 0 = true ∧ (s.reg 0 (memBase 0 + 0x14)).testBit 1 = false ∧ (s.reg 0 (memBase 0 + 0x14)).testBit 3 = false ∧
      (s.reg 0 (memBase 0 + 0x14)).testBit 4 = false ∧ aRecord.bytes.length / 32 = 1 ∧ s.ringShared 0x400000 16 0 1 = none ∧ 2 ^ (s.reg 0 (memBase 0 + 8)) = 16 ∧ s.reg 0 (memBase 0 + 0xC) = 0 ∧ s.reg 0 (memBase 0 + 0x10) = 0 ∧
      ((faulted 0 (placed .nop)).reg 0 (memBase 0 + 0x14)).testBit 0 = false ∧ (((faulted 1 (placed .nop)).setReg 0 (memBase 0 + 0x10) 1).reg 0 (memBase 0 + 0x10) + 31 - 0) % 16 = 0 ∧
      (withCourse .nop parkedCourse).course? 0 = some (parkedCourse (courseOf .nop)) ∧ (withCourse .nop parkedCourse).team? 0 = some (teamOf .nop) ∧
      isHbm 0x400000 = true ∧ (withTeam .nop withSpad).team? 0 = some (withSpad (teamOf .nop)) ∧ 4 * 0 < (withSpad (teamOf .nop)).spSize ∧ v.reg (homeDie 0x400000 / 8) (memBase (homeDie 0x400000 % 8) + 0x110) ≠ 0 := by
  decide +kernel
theorem witness_MigrationLineCopy : (migrating.die 0).migrations[0]? = some { old := 0x200000, new := 0x210000, size := 65536, moved := 3, poisoned := false, done := false } ∧
    migrating.memWf ∧ migrating.versionHolds (lineOf 0x200180) = false ∧ migrating.unshared 0x200180 = true := by decide +kernel

/-- Courses with a held cause, ended, stalled in a version, bound. -/
def boundTo (c : Course) : Course := { c with bound := some { va := 0x20000, pages := [(2, 0x20000, 0x1F)], core := 0, upTo := 0 } }
def endedCourse (c : Course) : Course := { c with life := .ended }
def stalled (t : Team) : Team := { t with verStall := [0], version := some [] }
def diverting (f : Flight) : State := withFlight f (withCourse .nop boundTo)
def redirecting : Flight := .group { agent := .course 0 false, reg := none, wide := false, op := .redirect { va := 0x20000, pages := [(2, 0x20000, 0x1F)], core := 0, upTo := 0 }, pc := 0#32 }
theorem witness_CourseEventsComplete : CanTrap (withCause (courseOf .nop)) (teamOf .nop) ∧ (withCause (courseOf .nop)).life = .live ∧
    (withCause { (courseOf .nop) with handler := false }).held ≠ [] ∧
    (withCourse .nop endedCourse).course? 0 = some (endedCourse (courseOf .nop)) ∧ (endedCourse (courseOf .nop)).entries.isEmpty = true ∧ (endedCourse (courseOf .nop)).countersClear 5 = true ∧
    (withTeam .nop stalled).team? 0 = some (stalled (teamOf .nop)) ∧ (∀ i ∈ (stalled (teamOf .nop)).verStall, (withTeam .nop stalled).oldestOn 0 i = true) ∧ (withTeam .nop stalled).sharedLine 0 = none ∧
    (diverting (.ack (.course 0 false) 1 0 7)).course? 0 = some (boundTo (courseOf .nop)) ∧ (boundTo (courseOf .nop)).recordOf 7 = some { va := 0x20000, pages := [(2, 0x20000, 0x1F)], core := 0, upTo := 0 } ∧
    (diverting (.ack (.course 0 false) 1 0 7)).flight? 7 = some (.ack (.course 0 false) 1 0 7) ∧
    (diverting (.value aValue)).flight? 7 = some (.value aValue) ∧ (diverting redirecting).flight? 7 = some redirecting := by decide +kernel

/-- A course waiting for its mailbox; a generation barrier's update on its way. -/
def waiting : State := placed (.mbrGroup 2#6 0#1 3#4)
def updating : State := withFlight (.group { agent := .course 0 false, reg := some 2, wide := false, op := .barrier 0 0 0 1 0, pc := 0#32 }) (withTeam .nop withSpad)
def probing (front : List Waiter) : State := waiting.modDie 0 fun d => { d with probes := [{ origin := .course 0, seen := [.course 0], front := front }] }
theorem witness_BarrierAndProbeEventsComplete : (withTeam .nop withSpad).team? 0 = some (withSpad (teamOf .nop)) ∧ (updating.flight? 7).isSome = true ∧ updating.refuses 0 = false ∧ (updating.modCore 0 fun x => { x with ingressClosed := true }).refuses 0 = true ∧
    (withSpad (teamOf .nop)).spPoisoned 0 16 = false ∧ SMap.sorted (withSpad (teamOf .nop)).scratch = true ∧ ((waiting.edgesOf (waiterOf 0 0)).bind endersOf).isSome = true ∧
    ((probing [.course 16]).edgesOf (.course 16)).bind endersOf = none ∧ ((probing []).edgesOf (.course 0)).isSome = true ∧
    (waiting.die 0).edgeSince = [] ∧ ((after (.probeTimer 0 0) waiting).die 0).edgeSince.length = 1 ∧
    (after (.probeTimer 0 0) (after (.probeTimer 0 0) waiting)).die 0 = (after (.probeTimer 0 0) waiting).die 0 ∧
    ((after (.probeTimer 0 0) ((after (.probeTimer 0 0) waiting).modPkg 0 fun x => { x with time := 2 ^ 30 })).die 0).probes.length = 1 := by decide +kernel

/-- A die whose only queue holds a launch; teams being saved, flushed; a withheld flag; a batch to retire. -/
def queued : State := noTlb (after theLaunch (launching theLaunch))
def saving (t : Team) : Team := { t with residency := .saving }
def flushing (t : Team) : Team := { t with residency := .resident, flush := true }
def savedCourse (c : Course) : Course := { c with life := .endedSaved }
def aFlag : Packet := { Packet.blank 0x0A 0 0 with addr := 0x400000, len := lenOf 4, payload := bytesOf 4 9, key := 0, og := 3 }
def flagged : State := (placed .nop).modPkg 0 fun x => { x with flags := [aFlag] }
def closedBatch (t : Team) : Team := { t with seq := { t.seq with closed := 1#32 } }
theorem witness_TeamEventsComplete : queued.teams = [] ∧ (queued.die 0).queues = [(0, queued.queue 0 0)] ∧ (queued.queue 0 0).en = true ∧ (queued.queue 0 0).prio < 8 ∧
    (match queued.headOf 0 0 with | some h => queued.headReady 0 h && (queued.placeHead 0 h).isSome | none => false) = true ∧
    (withTeam .nop saving).protected 0 (saving (teamOf .nop)) = false ∧ (saving (teamOf .nop)).flush = false ∧
    (((withTeam .nop saving).setCourse 0 (savedCourse (courseOf .nop))).coursesOf 0).all (fun kc => decide (kc.2.life = .endedSaved)) = true ∧
    (withTeam .nop flushing).protected 0 (flushing (teamOf .nop)) = false ∧ (flushing (teamOf .nop)).seq.pending = none ∧
    (flagged.pkg 0).flags[0]? = some aFlag ∧ aFlag.key ≤ SMap.getD (flagged.pkg 0).uCount 0 (uKey aFlag.src aFlag.og) ∧ flagged.unshared aFlag.addr = true ∧
    (closedBatch (teamOf .nop)).seq.retired ≠ (closedBatch (teamOf .nop)).seq.closed ∧ (closedBatch (teamOf .nop)).seq.abandoned = false := by decide +kernel
/-! ### Copies -/

/-- A copy as its instruction queued it, and in later phases; s is the state with it as copy 7. -/
def queuedCopy (i : Instr) : Copy :=
  match (after i (copyState i)).copies with
  | (_, c) :: _ => c
  | [] => { op := 0, flags := 0, team := 0, cid := 0, core := 0, xlat := { root := 0, asid := 0, secure := false, die := 0, core := none }, tid := 0#64, cntBase := 0#64, into := .memory, cache := [], desc := Vector.replicate 8 0#32,
            arrival := 0#32, rm := 0, sat := false, seed := 0#32, phase := .waiting, done := [], remote := [], taken := [], takenPoison := [], failed := none, token := none, acked := 0, sent := 0, step := 0, bar := none, since := 0 }
def copying (i : Instr) (f : Copy → Copy) : State := (copyState i).setCopy 7 (f (queuedCopy i))
def unitReady (c : Copy) (u : Nat) : Bool := decide (c.phase = .moving) && c.failed.isNone && c.token.isNone && !c.done.contains u && c.units.contains u
def updatingCopy (n f : Nat) (c : Copy) : Copy := { c with phase := .updating n, flags := f }
/-- The first page of a course's addresses in package 1. -/
def farPage (s : State) : State := { s with mem := s.mem.setBytes 0x201000 (bytesOf 8 (2 ^ 60 + 0x1F)) }
theorem witness_CopyEventsComplete : (let c := queuedCopy (.cpyt 8#6 2#6 0#3);
      let r := (copying (.cpyt 8#6 2#6 0#3) id).readChunk c (c.chunk 0); unitReady c 0 && dstSp c.op c.flags && (match (copying (.cpyt 8#6 2#6 0#3) id).chunkValue r (r.chunk 0) with | .inl _ => true | .inr _ => false) &&
        ((copying (.cpyt 8#6 2#6 0#3) id).spTarget 0 (copyTeam (teamOf .nop)) 0 0).isLeft) = true ∧
    unitReady (queuedCopy (.cpyo 8#6 2#6 0#3)) 0 = true ∧ dstSp 0xA3 0 = false ∧ unitReady (queuedCopy (.cpyr 8#6 2#6 0#3)) 0 = true ∧
    (let c := queuedCopy (.cpyw 8#6 2#6 0#3 0#3);
      unitReady { c with phase := .moving } 0 && decide (c.phase = .waiting) && decide (c.op = 0xA2) && !((copyTeam (teamOf .nop)).slot (fSlot c.flags)).full) = true ∧
    (copying (.cpyt 8#6 2#6 0#3) (updatingCopy 1 4)).team? 0 = some (copyTeam (teamOf (.cpyt 8#6 2#6 0#3))) ∧ (copyTeam (teamOf .nop)).residency = .resident ∧
    (let c := queuedCopy (.cpyt 8#6 2#6 0#3);
      let s := copying (.cpyt 8#6 2#6 0#3) (updatingCopy 0 1);
      decide (s.translate c.xlat (c.cntBase.toNat + 8 * dSlot c.desc) .atomic true = .ok 0 0x1F) && decide (s.forward 0 = 0) && (snapMark 0x1F).isNone && s.unshared 0 && !s.poisoned 0 &&
        sameKey s 0 (leafKey 0x1F) && !s.counterSent 7 && (s.poisonLine 0 false).poisoned 0) = true ∧
    /- a counter in another package, by a leaf of the course's table -/
    (let c := queuedCopy (.cpyt 8#6 2#6 0#3);
      let s := farPage (noTlb (copying (.cpyt 8#6 2#6 0#3) (updatingCopy 0 1)));
      (match s.translate c.xlat (c.cntBase.toNat + 8 * dSlot c.desc) .atomic true with | .ok pa _ => decide (pa / 2 ^ 48 ≠ pkgOfCore c.core) | _ => false) && !s.counterSent 7) = true := by decide +kernel

/-! ### Power and monitors -/

def watched (q : Quad) : Quad := { q with monitors := Vector.ofFn fun i => { q.monitors[i] with en := true, src := if i = 0 then 5#8 else 0#8 } }
def monitored : State := (placed .nop).modQuad 0 watched
def idleQuad : State := (List.range 4).foldl (fun s i => s.modCore i fun x => { x with ingressClosed := true }) (((onCore .nop).modPkg 0 fun x => { x with time := 200000 }).modQuad 0 fun q => { q with idleSince := 5 })
def gatedQuad : State := match exec (.quadGate 0) idleQuad with | .next s => (s.setTeam 0 (teamOf .nop)).setCourse 0 (courseOf .nop) | _ => idleQuad
theorem witness_PowerEventsComplete : (monitored.quad 0).monitors[0].en = true ∧ (monitored.sampleOf false 0 5 (monitored.quad 0).monitors[0]) = some 0 ∧ monitored.sampleOf false 0 5 (monitored.quad 0).monitors[1] = none ∧ RegsInOrder idleQuad ∧
    (State.reset.pkg 0).held = false ∧ (State.reset.pkg 0).booting = true ∧
    (∀ i, i < 4 → (idleQuad.core (4 * 0 + i)).ingressClosed = true ∧ (idleQuad.core (4 * 0 + i)).path = [] ∧ idleQuad.teamsOn (4 * 0 + i) = []) ∧
    (idleQuad.quad 0).idleSince + 100000 ≤ (idleQuad.pkg (0 / 192)).time := by decide +kernel
/-- A quad of a gated die that is to be powered. -/
theorem witness_QuadPowerUp : idleQuad.gated 0 = false ∧ gatedQuad.teamsOn 0 ≠ [] ∧ gatedQuad.gated 0 = true ∧ RegsInOrder gatedQuad := by decide +kernel

/-! ### Hosts, resets, snapshots -/

/-- A packet for die 0 with its CRC, as a kick has read it; its kick. -/
def packetBody : List Byte := bytesOf 8 0x4000 ++ bytesOf 8 7 ++ [1#8, 0#8, 0#8, 0#8] ++ List.replicate 36 0#8 ++ bytesOf 4 5
def aPacket : List Byte := packetBody ++ bytesOf 2 (crc16 packetBody) ++ bytesOf 2 0
def aKick (b : Option (List Byte)) : Kick := { port := 0, slot := 2, seq := 5, reads := 0, checked := b }
def wordsOf : List Byte → List Nat
  | a :: b :: c :: d :: rest => ofBytes [a, b, c, d] :: wordsOf rest
  | _ => []
def kicked (b : Option (List Byte)) : State :=
  ((wordsOf aPacket).zipIdx.foldl (fun s w => s.setReg 0 (portBase 0 + 0x800 + 64 * 2 + 4 * w.2) w.1) (placed .nop)).modPkg 0 fun x => { x with kicks := [aKick b] }
def packetWaits : State := (onCore .nop).modDie 0 fun d => { d with pending := [aPacket], kcore := { d.kcore with running := false } }
theorem witness_HostEventsComplete : (kicked none).slotBytes 0 0 2 = aPacket ∧ packetField aPacket 0x38 4 = 5 ∧ packetField aPacket 0x3C 2 = crc16 (aPacket.take 0x3C) ∧ packetField aPacket 0x10 1 ≠ 0 ∧
    packetField aPacket 0x11 3 = 0 ∧ packetField aPacket 0x3E 2 = 0 ∧ packetField aPacket 0 8 % 4 = 0 ∧ ((kicked none).pkg 0).kicks[0]? = some (aKick none) ∧
    ((kicked (some aPacket)).pkg 0).kicks[0]? = some (aKick (some aPacket)) ∧ packetDies 0 aPacket = [0] ∧ ((kicked (some aPacket)).die 0).pending = [] ∧
    (kicked none).hostAnswers 0 = true ∧ (kicked none).portWaits 0 0 = false ∧
    ((kicked none).modPkg 0 fun x => { x with hostWrites := [{ port := 0, pa := 0x400000, key := 0, bytes := [1#8] }] }).portWaits 0 0 = true ∧
    ((kicked (some aPacket)).die 0).pending.length < 64 := by decide +kernel
theorem witness_PacketStart : (packetWaits.die 0).pending = [aPacket] ∧ (packetWaits.die 0).kcore.running = false ∧ (packetWaits.reg 0 (pkgBase + 0x10)).testBit 0 = true ∧
    (packetWaits.reg 0 (distBase 0 + 0x14)).testBit 1 = false ∧ (State.reset.pkg 0).owner = none ∧ (State.reset.pkg 0).keyLease ≤ (State.reset.pkg 0).time ∧
    (packetWaits.reg 0 (portBase 0 + 0x0C)).testBit (2 % 32) = false ∧ bitsOf 2 31 5 = 0 := by decide +kernel
/-- A host's access through its window, to HBM under a valid key; a register write. -/
def hosted : State := ((placed .nop).setReg 0 (portBase 0 + 0x18) 0).modPkg 0 fun x => { x with keys := SMap.put x.keys 0 { valid := true, secure := false, mat := 0 } }
theorem witness_HostMemoryAccess : bitsOf (hosted.reg 0 (portBase 0 + 0x18)) 31 16 = 0 ∧ isReserved 0x400000 = false ∧ secureOnly 0x400000 = false ∧ isDevice 0x400000 = false ∧
    hosted.unshared 0x400000 = true ∧ hosted.poisoned 0x400000 = false ∧ secureOnly (regPa 0 (portBase 0 + 0x18)) = false ∧
    hosted.hostAnswers 0 = true ∧ hosted.hostBarred 0x400000 0 = false ∧ (hosted.pkg 0).hostWrites = [] ∧ sameKey hosted 0x400000 0 = true ∧ 0x400000 % 128 + 128 ≤ 128 ∧
    isDevice (regPa 0 (portBase 0 + 0x18)) = true ∧ hosted.hostBarred (regPa 0 (portBase 0 + 0x18)) 0 = false ∧ regPa 0 (portBase 0 + 0x18) % 128 + 4 ≤ 128 ∧
    ({ hosted with dir := SMap.put hosted.dir (lineOf 0x400000) { hosted.line 0x400000 with psh := 2#16 } }).unshared 0x400000 = false := by decide +kernel

/-- A snapshot descriptor of one range of 64 KiB at 0x100000000, in memory at 0x40000; snapshot engines draining and loading. -/
def snapBytes : List Byte :=
  bytesOf 8 0 ++ bytesOf 4 0 ++ bytesOf 4 1 ++ bytesOf 8 0x200000000 ++ bytesOf 8 0x210000000 ++ bytesOf 4 0 ++ bytesOf 4 0 ++ bytesOf 8 0x220000000 ++ [10#8, 1#8] ++ List.replicate 14 0#8 ++
    bytesOf 8 0x100000000 ++ bytesOf 8 0x10000 ++ List.replicate 48 0#8
def arming (i : Instr) : State := let s := withRegs 4 [1, 0, 0x40000, 0] (onCore i); { s with mem := s.mem.setBytes 0x40000 snapBytes }
def snapping (st : SnapState) (i : Instr) : State :=
  (arming i).modPkg 0 fun x => { x with snap := { x.snap with state := st, ranges := [(0x100000000, 0x100)], mapBase := 0x200000000, statusPa := 0x4003C, dmask := 1, route := 0x80000000 } }
def drainedAll : State := (snapping .draining .nop).modPkg 0 fun x => { x with snap := { x.snap with drained := [(0, []), (1, [])] } }
theorem witness_SnapshotsComplete : OnKcore (arming (.snapArm 2#6 4#6 6#6)) 0 ∧ Clean (arming (.snapArm 2#6 4#6 6#6)) [(4, false), (6, true)] ∧
    [Instr.snapArm 2#6 4#6 6#6, .snapCancel 2#6 48#6, .snapLoad 2#6 0#6 6#6].all (fun i => decide (encode i = some (wordOf i)) && (r39 ((arming i).env (arming i).cur) (wordOf i)).isNone) = true ∧
    ((arming .nop).pkg 0).snap.state = .idle ∧ ((arming .nop).snapDesc 0 0x40000).isSome = true ∧ (arming .nop).snapDesc 0 0x40001 = none ∧
    after32 ((arming .nop).gsrc false 4) ((arming .nop).die 0).kcore.stepLast.toNat = true := by decide +kernel
/-- The map and a shadow record name the first line of the range. -/
def shadowed : Bool :=
  let s := (snapping .draining .nop).modPkg 0 fun x => { x with snap := { x.snap with pgen := 1, shadow := 0x230000000, shRecs := 1 } }
  let s : State := { s with mem := (s.mem.setBytes 0x200000000 [1#8]).setBytes 0x230000000 (bytesOf 8 0x100000000) }
  let sn := (s.pkg 0).snap
  decide ((s.mem.byte sn.mapBase).toNat = sn.pgen) && (s.shadowOf sn 0x100000000).isSome && !s.recordLost sn.shadow && decide s.memWf
theorem witness_SnapshotEvents : rangeLine [(0x100000000, 0x100)] 1 = some 0x100000080 ∧ ((snapping .draining .nop).pkg 0).snap.state = .draining ∧ SMap.find? ((snapping .draining .nop).pkg 0).snap.drained 1 = none ∧
    ((snapping .draining .nop).pkg 0).snapRoute = true ∧ (snapping .draining .nop).poisoned 0x200000001 = false ∧ (snapping .draining .nop).memWf ∧
    (let s := snapping .draining .nop; let sn := (s.pkg 0).snap; s.recordLost sn.log = false ∧ sn.logRecs = 0 ∧ s.shadowOf sn 0x100000080 = none) ∧ shadowed = true ∧
    (drainedAll.pkg 0).snap.drained.length = rangeLines (drainedAll.pkg 0).snap.ranges ∧ ((snapping .loading .nop).pkg 0).snap.state = .loading ∧
    (let s := snapping .loading .nop; ({ s with dir := SMap.put s.dir (lineOf 0x100000080) { DirLine.init with psh := 2#16 } }).unshared (0x100000000 + 128 * 1) = false) ∧
    (∀ i, i < 2 → (snapping .loading .nop).forward (0x100000000 + 128 * i) = 0x100000000 + 128 * i) := by decide +kernel
/-! ### Optics, fabric, mortar, plane, circuits -/

/-- Port n of package 0 in a state, long ago. -/
def portAs (n : Nat) (st : PortState) (live : Nat) : State :=
  (placed .nop).modPkg 0 fun x => { x with time := 20000000000, ports := SMap.put x.ports n { Port.init with state := st, live := live } }
def engineAs (f : Engine → Engine) (s : State) : State := s.modPkg 0 fun x => { x with engines := (List.range 16).foldl (fun m e => SMap.put m e (f (x.engine e))) x.engines }
theorem witness_OpticalEventsComplete : ((portAs 40 .locking 0).pkg 0).port 40 = { Port.init with state := .locking } ∧ portNeeds 40 ≤ portChannels 40 ∧
    (((portAs 40 .locking 0).pkg 0).port 40).since + 1500000 ≤ ((portAs 40 .locking 0).pkg 0).time ∧ (((portAs 40 .locking 0).pkg 0).port 40).awaitMc = false ∧
    (((portAs 40 .trained 0).pkg 0).port 40).state = .trained ∧ (((portAs 3 .authenticating 0).pkg 0).port 3).state = .authenticating ∧
    bitsOf ((portAs 40 .live 9).reg 0 optBase) 31 24 < 256 ∧ (((portAs 40 .live (portNeeds 40)).pkg 0).port 40).live ≤ portNeeds 40 ∧
    ((engineAs (fun e => { e with ucUp := true, mcRun := true }) (portAs 40 .dark 0)).pkg 0).mcRuns 40 = true ∧
    ((engineAs (fun e => { e with ucUp := true, mcRun := true }) (portAs 40 .dark 0)).pkg 0).linksUp 40 = true ∧
    (portEngines 40).any (fun e => !(((engineAs (fun e => { e with mcRun := false, downSince := 0 }) (portAs 40 .hold 9)).pkg 0).engine e).mcRun) = true ∧
    (((portAs 3 .quarantine 0).pkg 0).port 3).since + 1000000 * bitsOf ((portAs 3 .quarantine 0).reg 0 (optBase + 4)) 15 0 ≤ ((portAs 3 .quarantine 0).pkg 0).time ∧
    ((portAs 3 .quarantine 0).pkg 0).barOf 3 = none ∧ (((portAs 3 .live 9).pkg 0).port (sendPort 0 0)).state ≠ .hold ∧
    (portAs 40 .locking 0).peerPort 0 40 = some (8, 40) ∧ (portAs 40 .locking 0).lit 0 40 = false ∧
    (let s := (portAs 40 .locking 0).modPkg 8 fun x => { x with ports := [(40, { Port.init with state := .locking, live := 16 })] }; s.lit 0 40 = true) ∧
    (let s := (portAs 40 .authenticating 0).modPkg 8 fun x => { x with ports := [(40, { Port.init with state := .authenticating, live := 16 })] };
      ((s.pkg 8).port 40).state = .authenticating ∧ (s.pkg 8).time < ((s.pkg 8).port 40).since + 80000) ∧
    (portAs 3 .locking 0).lit 0 3 = true ∧ (portAs 3 .authenticating 0).peerPort 0 3 = none := by decide +kernel
/-- Packet 9 on its way to package 0 from package 1, or its transaction's answer there. -/
def packet (type : Nat) (f : Packet → Packet) : Packet := f { Packet.blank type 0 1 with addr := 0x400000, payload := bytesOf 4 0x01020304, mask := List.replicate 4 true, len := lenOf 4, og := 2, tag := 5 }
def withPacket (k : Packet) (s : State) : State := { s with packets := SMap.put s.packets 9 k, fresh := s.fresh + 10 }
/-- An answer for package 0 and the transaction it answers. -/
def answer (type : Nat) (f : Packet → Packet) : Packet := f { Packet.blank type 0 1 with addr := 0x1000000400000, tag := 5 }
def withTx (sv : Serves) (f : WallTx → WallTx) (s : State) : State :=
  s.modPkg 0 fun x => { x with txs := SMap.put x.txs (txKey 1 5) (f { pkt := { Packet.blank 0x03 1 0 with tag := 5 }, serves := sv, reply := none, query := 0, since := 0 }) }
/-- The wall link from package 1 to package 0 is live. -/
def linked (s : State) : State := s.modPkg 1 fun x => { x with ports := [(wallPort 1 0, { Port.init with state := .live, live := 16 })] }
def answered (type : Nat) (sv : Serves) (f : Packet → Packet) (s : State) : State := withTx sv id (withPacket (answer type f) (linked s))
def arrives (s : State) (type : Nat) : Bool := match SMap.find? s.packets 9 with | some k => !k.det && !k.bad && decide (k.type = type) | none => false
def performs (s : State) (type : Nat) : Bool := match SMap.find? s.packets 9 with
  | some k => !k.det && !k.bad && decide (k.type = type) && k.circuit.isNone && !isDevice k.addr && decide ((s.pkg k.dst).snap.state = .idle) && !s.freedFirst 9 k &&
      (match s.pathOfPacket k with | some (_, _, w) => s.scTurn w.owner w.issue k.lanes | none => true) && (s.copyOfPacket k).isNone && decide (s.forward k.addr = k.addr) &&
      (s.packetMark k).isNone && (match s.atomOf k with | some g => (type == 0x07 || type == 0x09) && g.half.isNone && sameKey s k.addr g.keyId && s.promotionClear k.core k.addr g.scope | none => true) &&
      k.parts.all fun q => !isDevice q.addr && s.unshared q.addr && decide (s.forward q.addr = q.addr) && (s.packetMark q).isNone && sameKey s q.addr q.key
  | none => false
def aWrite : Serves := .write 0 3 (.course 0 false) 1
def lineBytes : List Byte := (List.range 128).map fun i => BitVec.ofNat 8 i
def anAtom : AtomGroup := { owner := .course 0 false, pc := 0#32, op := 0, et := .n32, ftz := false, size := 4, pa := 0x400000, va := 0, order := .relaxed, scope := 0, stamp := 0, lanes := [{ lane := 3, reg := some 1, x := 7, cmp := 0 }], counter := none, version := none, snap := none, step := 0, sent := true, mask := 8#32, keyId := 0, mark := none, half := none, copy := none, engine := none }
/-- A transaction of package 1 that a packet to package 0 carries. -/
def withFarTx (sv : Serves) (s : State) : State := s.modPkg 1 fun x => { x with txs := SMap.put x.txs (txKey 0 5) { pkt := Packet.blank 0x07 0 1, serves := sv, reply := none, query := 0, since := 0 } }
def invalidating : State := let s := answered 0x0C (.inval 7) id (placed .nop); { s with dir := SMap.put s.dir 7 { DirLine.init with psh := 3#16 } }
theorem witness_ReadsAndAnswersCrossTheWall : arrives (withPacket (packet 0x01 id) (placed .nop)) 0x01 = true ∧ isDevice 0x400000 = false ∧
    arrives (answered 0x02 (.flight loadKey) (fun k => { k with payload := lineBytes, len := lenOf 128 }) loadOut) 0x02 = true ∧ loadAt loadOut loadKey = true ∧ (loadOut.core 0).path = [] ∧
    arrives (answered 0x06 aWrite id (placed .nop)) 0x06 = true ∧ arrives (answered 0x08 (.flight 7) (fun k => { k with payload := bytesOf 4 9, len := lenOf 4 }) (withFlight (.atom anAtom) (placed .nop))) 0x08 = true ∧
    (replyValues anAtom.lanes (bytesOf 4 9)).length = 1 ∧ arrives (withPacket (packet 0x0B id) (placed .nop)) 0x0B = true ∧ arrives invalidating 0x0C = true ∧ (SMap.find? invalidating.dir 7).isSome = true ∧
    arrives (withPacket (packet 0x0D id) (placed .nop)) 0x0D = true ∧ (withPacket (packet 0x0D id) (placed .nop)).pathClear 0 0 = true ∧
    arrives (answered 0x0E (.promote 7) id (withFlight (.promote 3 0 0 true) (placed .nop))) 0x0E = true := by decide +kernel
theorem witness_WritesCrossTheWall : performs (withPacket (packet 0x03 id) (placed .nop)) 0x03 = true ∧ performs (withPacket (packet 0x04 id) (placed .nop)) 0x04 = true ∧ performs (withPacket (packet 0x05 id) (placed .nop)) 0x05 = true ∧
    SMap.sorted ((placed .nop).pkg 0).uCount = true ∧ performs (withPacket (packet 0x0F id) (placed .nop)) 0x0F = true ∧ performs (withPacket (packet 0x11 id) (placed .nop)) 0x11 = true ∧
    performs (withPacket (packet 0x07 id) (withFarTx (.flight 7) (withFlight (.atom anAtom) (placed .nop)))) 0x07 = true ∧ performs (withPacket (packet 0x09 id) (placed .nop)) 0x09 = true ∧
    (withPacket (packet 0x07 id) (withFarTx (.flight 7) (withFlight (.atom anAtom) (placed .nop)))).poisoned 0x400000 = false ∧ performs (withPacket (packet 0x0A id) (placed .nop)) 0x0A = true ∧
    ((placed .nop).pkg 0).flags = [] ∧ (withPacket (packet 0x03 fun k => { k with step := 2 }) (snapping .armed .nop)).stepGreater (packet 0x03 fun k => { k with step := 2 }) = true ∧
    heldBytes (((snapping .armed .nop).pkg 0).snap.held ++ [packet 0x03 id]) ≤ 2 ^ 21 ∧ (packet 0x03 fun k => { k with type := 0x13 }).bad = true ∧ (packet 0x03 fun k => { k with reserved := 1 }).bad = true ∧
    /- an SC store of two lanes -/
    performs (withPacket (packet 0x05 fun k => { k with lanes := [{ lane := 0, off := 0, bytes := [1#8], flag := none }, { lane := 3, off := 8, bytes := [2#8], flag := none }] }) (placed .nop)) 0x05 = true := by decide +kernel
/-- A context of a link, a relayed packet, transactions in each stage of their fate, clocks to be cleared. -/
def inContext : State := (placed .nop).modPkg 0 fun x => { x with ctxs := SMap.put x.ctxs (ctxKey 2 3) (packet 0x03 id) }
def relayed (relay : Nat) : State := withPacket (packet 0x03 fun k => { k with det := true, relay := relay }) (linked (placed .nop))
theorem ownPlaneId {p : Nat} (h : p < 16) : pkgOfPlane (planeId p) = some p := by
  unfold pkgOfPlane planeId
  rw [if_pos (by omega)]
  congr 1
  omega
/-- A message that stands first on an endpoint of package p. -/
def heard (p ep src : Nat) (m : List Byte) (s : State) : State := s.modPkg p fun x => { x with endpoints := [(ep, [(src, m)])] }
theorem heard_fate {s : State} {p q kind tag : Nat} (hp : p < 16) (h : (ofBytes ((fateBytes kind tag []).take 1), ofBytes (((fateBytes kind tag []).drop 1).take 2) % 2 ^ 12) = (kind, tag)) :
    (heard q 13 (planeId p) (fateBytes kind tag []) s).fateHead q = some (p, kind, tag) := by
  have e : (heard q 13 (planeId p) (fateBytes kind tag []) s).planeHead q 13 = some (planeId p, fateBytes kind tag []) := by
    simp [heard, State.planeHead, State.pkg, SMap.getD, SMap.find?]
  unfold State.fateHead
  rw [e]
  simp only [ownPlaneId hp, Option.map_some]
  rw [Prod.mk.injEq] at h
  rw [h.1, h.2]
def fated (q : Nat) (r : Option Packet) : State := withTx aWrite (fun t => { t with query := q, reply := r }) (placed .nop)
def clocked : State := (placed .nop).modCore 0 fun x => { x with clock := 2 ^ 49 }
def stopped (ps : List Nat) : State := (List.range 16).foldl (fun s p => s.modPkg p fun x => { x with scStop := true, scReported := ps.contains p }) clocked
theorem witness_FabricEventsComplete : (SMap.find? (inContext.pkg 0).ctxs (ctxKey 2 3)).isSome = true ∧ (SMap.find? (relayed 1).packets 9).isSome = true ∧ (relayed 1).linkLive 1 0 = true ∧ (relayed 2).linkLive 2 0 = false ∧ ((withPacket (packet 0x06 fun k => { k with det := true, relay := 16 }) (placed .nop)).bestRoute 1 0).1 = 2 ∧
    ((placed .nop).pkg 0).txs = [] ∧ RegsInOrder (placed .nop) ∧ (SMap.find? ((fated 0 none).pkg 0).txs (txKey 1 5)).isSome = true ∧ 2 ^ 49 ≤ (clocked.core 0).clock ∧
    ((stopped []).pkg 0).scStop = true ∧ (stopped []).scBusy 0 = false ∧ ((stopped []).pkg 1).scReported = false ∧ (∀ q, q < 16 → q ≠ 0 → ((stopped [1, 2, 3, 4, 5, 6, 7, 8, 9, 10, 11, 12, 13, 14, 15]).pkg q).scReported = true) ∧
    (stopped [1, 2, 3, 4, 5, 6, 7, 8, 9, 10, 11, 12, 13, 14, 15]).scBusy 0 = false ∧
    (let s := withPacket (packet 0x03 fun k => { k with det := true, relay := 16 }) (linked (placed .nop)); (s.bestRoute 1 0).1 = 0 ∧ (packet 0x03 id).credits ≤ s.creditsLeft 1 0) ∧
    (fated 0 none).reaches 0 1 = false ∧ ((fated 0 none).modPkg 0 fun x => { x with ports := [(wallPort 0 1, { Port.init with state := .live, live := 16 })] }).reaches 0 1 = true ∧
    (let s := (fated 0 none).modPkg 0 fun x => { x with time := 2 ^ 50 }; (s.pkg 0).past 0 (s.wallTimeoutNs 0) = true) ∧
    (SMap.find? ((fated 1 none).pkg 0).txs (txKey 1 5)).isSome = true ∧
    ((SMap.find? ((fated 1 none).pkg 0).txs (txKey 1 5)).map fun t => (fated 1 none).partly t) = some false := by decide +kernel
theorem witness_FateMessages : (heard 1 13 (planeId 0) (fateBytes 1 5 []) (fated 1 none)).fateHead 1 = some (0, 1, 5) ∧
    (heard 0 13 (planeId 1) (fateBytes 2 5 []) (fated 2 (some (packet 0x06 id)))).fateHead 0 = some (1, 2, 5) ∧
    (heard 0 13 (planeId 1) (fateBytes 3 5 []) (fated 3 none)).fateHead 0 = some (1, 3, 5) :=
  ⟨heard_fate (by decide) (by decide), heard_fate (by decide) (by decide), heard_fate (by decide) (by decide)⟩

/-- Mortar operands at a router of die 0: alone, beside the stored one it meets, as halves, as an orphan; a joint with a counter. -/
def operand (party : Nat) : MortarOp := { tag := 0x40000000, op := 0, party := party, words := [1#32, 2#32, 3#32, 4#32], dst := 0x400000, dstVa := 0x400000, ctr := 0x400100, key := 0, router := 0, issued := 0, src := 0, snap := none, keyId := 0, ctrSnap := none, ctrKey := 0, core := 0, asid := 0 }
def entry (p : MortarPlace) (party : Nat) : MortarEntry := { op := operand party, place := p, since := 0, order := 0 }
def mortarOf (es : List (Nat × MortarEntry)) : State := { placed .nop with mortar := es, fresh := 20 }
def aJoint (left : List Nat) : Joint := { dst := 0x400000, bytes := bytesOf 16 0x1234567, left := left, ctr := 0x400100, add := 2, die := 0, snap := none, keyId := 0, ctrSnap := none, ctrKey := 0, sent := false, adding := false, joined := [] }
def joined (left : List Nat) : State := { placed .nop with joints := [(7, aJoint left)] }
theorem witness_MortarEventsComplete : AtRouter (mortarOf [(7, entry .travelling 0)]) 7 (operand 0) ∧ ((placed .nop).die 0).halves = [] ∧ ((mortarOf [(7, entry .travelling 0)]).mortarAt 0 .stored).length < 64 ∧
    AtRouter (mortarOf [(6, entry .stored 1), (7, entry .travelling 0)]) 7 (operand 0) ∧ (mortarOf [(6, entry .stored 1), (7, entry .travelling 0)]).mortarAt 0 .stored = [(6, entry .stored 1)] ∧
    (operand 1).meets (operand 0) = true ∧ SMap.sorted (mortarOf [(6, entry .stored 1), (7, entry .travelling 0)]).mortar = true ∧ (operand 0).dst / 2 ^ 48 = (operand 0).router / 384 ∧
    (mortarOf [(7, entry .half 0)]).halfStore 0x400000 = [] ∧ (mortarOf [(6, entry .halfStored 1), (7, entry .half 0)]).halfStore 0x400000 = [(6, entry .halfStored 1)] ∧
    (let s := (mortarOf [(7, entry .stored 0)]).modPkg 0 fun x => { x with time := 2 ^ 50 }; (entry .stored 0).since + 1000 * s.reg 0 (distBase 0 + 0x300) ≤ (s.pkg 0).time) ∧
    (joined []).unshared 0x400100 = true ∧ (joined []).forward 0x400100 = 0x400100 ∧ (joined []).poisoned 0x400100 = false ∧ SMap.sorted (joined []).joints = true ∧
    sameKey (joined []) 0x400100 0 = true ∧ isDevice 0x400100 = false ∧ isDevice 0x400000 = false ∧ (joined [0]).unshared (0x400000 / 32 * 32 + 32 * 0) = true ∧ sameKey (joined [0]) 0x400000 0 = true ∧
    (let x := { aJoint [] with ctr := 2 ^ 48 }; x.left = [] ∧ x.adding = false ∧ x.ctr / 2 ^ 48 ≠ x.die / 8) := by
  refine ⟨⟨by decide +kernel, rfl, ?_⟩, by decide +kernel, by decide +kernel, ⟨by decide +kernel, rfl, ?_⟩, ?_⟩
  · simp [mortarOf, entry]
  · intro n y h _
    simp [mortarOf] at h
    rcases h with ⟨rfl, rfl⟩ | ⟨rfl, rfl⟩ <;> simp [entry]
  · decide +kernel

/-- Streams of the plane, its timers, and the parts of a wide barrier. -/
def streaming (k : Nat) (y : Stream) : State := (placed .nop).modPkg 0 fun x => { x with time := 1000000, streams := SMap.put x.streams k y }
def waitingLintel (op : Nat) : State := (placed .nop).setLintelHold 0 (.timed op 0 false)
theorem witness_PlaneEventsComplete : ((streaming 0 { Stream.init with opened := true, out := [(0, [1#8])] }).pkg 0).stream 0 = { Stream.init with opened := true, out := [(0, [1#8])] } ∧
    (Stream.init.last + 10000 ≤ ((streaming 0 Stream.init).pkg 0).time) ∧ (Stream.init.heard + 100000 ≤ ((streaming 0 Stream.init).pkg 0).time) ∧ RegsInOrder (placed .nop) ∧
    ((waitingLintel 0xF6).pkg 0).lintel.hold = .timed 0xF6 0 false ∧ ((waitingLintel 0xF1).pkg 0).lintel.hold = .timed 0xF1 0 false ∧ ((placed .nop).pkg 0).slew = 0 ∧
    (let s := ({ placed .nop with refTime := 30 }).setReg 0 (lintBase + 0x64) 1; s.weazonUp 0 0 = true ∧ ((s.pkg 0).time : Int) + 5 ≤ s.refTime + 50 ∧ (s.refTime : Int) ≤ (s.pkg 0).time + 5 + 50) := by decide +kernel
/-- A stream to another wall's package, whose message cannot have been accepted as far as this wall knows. -/
theorem witness_PlaneUnreachable (w : Nat) (h : w ≠ Config.wallId.toNat) : let k := sendKey (16 * w + 2) 3 5
    k % 2 = 0 ∧ k / 2 % 16 ≠ 15 ∧ k / 32 % 16 < 12 ∧ (streaming k { Stream.init with opened := true, out := [(0, [1#8])] }).delivered 0 k = 0 := by
  have hk : sendKey (16 * w + 2) 3 5 / 512 = 16 * w + 2 := by unfold sendKey; omega
  refine ⟨by unfold sendKey; omega, by unfold sendKey; omega, by unfold sendKey; omega, ?_⟩
  have hp : pkgOfPlane (16 * w + 2) = none := by
    unfold pkgOfPlane
    rw [if_neg (by omega)]
  unfold State.delivered
  simp only [hk, hp]
  simp [streaming, State.pkg, Pkg.stream]
  rfl
def wideParts (mask : Nat) : State := (placed .nop).setReg 0 (lintBase + 0x5C) mask
def partHeard (mask : Nat) (kind : Nat) : State := heard 0 14 (planeId 0) (partBytes kind 3 2 5 7) (wideParts mask)
/-- A part of package 0 itself: the first of two, the only one; a release for a package whose part is out. -/
theorem witness_BarrierMessagesComplete : ((partHeard 3 1).planeHead 0 14).isSome = true ∧ (∀ mask kind, (partHeard mask kind).planeHead 0 14 = some (planeId 0, partBytes kind 3 2 5 7)) ∧
    (∀ kind, kind = 1 ∨ kind = 2 → (fun m : List Byte => let f (o n : Nat) : Nat := ofBytes ((m.drop o).take n); (f 0 1, f 1 1, f 2 1 % 8, f 3 2, f 5 2)) (partBytes kind 3 2 5 7) = (kind, 3, 2, 5, 7)) ∧
    (partHeard 3 1).coordinator 3 0 = (Config.wallId.toNat, 0) ∧ (partHeard 3 1).partOf 3 0 (planeId 0) = true ∧
    (partHeard 3 1).wideBar (barKey 5 (pbgKey 0 5) 2) = Barrier.init ∧ (partHeard 3 1).partsNeeded 3 0 = 2 ∧ (partHeard 1 1).partsNeeded 3 0 = 1 ∧ planeId 0 = 16 * Config.wallId.toNat + 0 ∧
    (let s := (partHeard 1 2).putWide (barKey 3 (pbgKey 0 5) 2) { Barrier.init with arrivals := 1, need := 1, gen := 7#16 }
     let b := s.wideBar (barKey 3 (pbgKey 0 5) 2); b.gen.toNat = 7 ∧ b.need ≠ 0 ∧ b.arrivals ≠ 0) := by
  refine ⟨by decide +kernel, fun _ _ => rfl, by rintro _ (rfl | rfl) <;> decide, Prod.ext rfl (by decide +kernel), ?_, by decide +kernel, by decide +kernel, by decide +kernel, by unfold planeId; omega, by decide +kernel⟩
  unfold State.partOf
  rw [ownPlaneId (by decide)]
  decide +kernel

/-- Barrier 5 of package 0 on port 3, which stands in a state; a message of the switch service; a CPYX that sends on it; its chunk at the receiver. -/
def barAs (n : Nat) (st : PortState) (f : CircuitBar → CircuitBar) (s : State) : State :=
  (s.modPkg 0 fun x => { x with ports := SMap.put x.ports 3 { Port.init with state := st, live := 9 } }).setBar 0 5 (f { CircuitBar.init with state := n, port := 3, credits := 40, seq := 7 })
def told (kind : Nat) (st : PortState) : State := (barAs 1 st id (placed .nop)).modPkg 0 fun x => { x with endpoints := SMap.put x.endpoints 12 [(0, bytesOf 1 kind ++ bytesOf 1 5 ++ bytesOf 2 7)] }
def crossing : State := (barAs 3 .live id (copyState (.cpyx 8#6 2#6 0#3))).setCopy 7 (let c := queuedCopy (.cpyx 8#6 2#6 0#3); { c with desc := (c.desc.set 6 5#32).set 0 0x400000#32, xlat := (teamOf .nop).xlat, failed := none })
def aChunk (reply : Option Bool) : CircuitChunk := { pkg := 0, bar := 5, port := 3, copy := 7, pkt := { packet 0x0F id with dst := 0, src := 0, addr := 0x100, circuit := some (3, 8) }, len := 4, taken := false, reply := reply }
def chunked (reply : Option Bool) (f : CircuitBar → CircuitBar) : State :=
  let s := (barAs 3 .live f (placed .nop)).setCopy 7 (queuedCopy (.cpyx 8#6 2#6 0#3))
  { s with circuitChunks := [(7, aChunk reply)] }
def lending (y : CircuitBar) : CircuitBar := { y with lent := true, rxLen := 0x1000, rxBase := 0x400000, rxKey := 0 }
def lentTo (s : State) : State := s.modPkg 0 fun x => { x with keys := SMap.put x.keys 0 { valid := true, secure := false, mat := 0 } }
def releasing : State := barAs 4 .live id (placed .nop)
def scripted : State := { ((placed .nop).setReg 0 (pkgBase + 0x10) 0x100).setReg 0 (lintBase + 0x20) 0x100000 with mem := ((placed .nop).mem.setBytes 0x40000 (bytesOf 8 0x8000 ++ bytesOf 4 5 ++ bytesOf 4 6)) }.modPkg 0 fun x => { x with script := [0x40000] }
theorem witness_CircuitEventsComplete : ((told 4 .trained).pkg 0).bar 5 = { CircuitBar.init with state := 1, port := 3, credits := 40, seq := 7 } ∧
    ServiceSays (told 4 .trained) 0 4 5 ∧ (((told 4 .trained).pkg 0).port 3).state ≠ .dark ∧ ServiceSays (told 4 .dark) 0 4 5 ∧ (((told 4 .dark).pkg 0).port 3).state = .dark ∧
    ((engineAs (fun e => { e with ucUp := true }) (told 4 .dark)).pkg 0).linksUp 3 = true ∧ ServiceSays (told 5 .dark) 0 5 5 ∧
    (told 4 .trained).lintelHalted 0 = false ∧ ((told 4 .trained).orReg 0 (lintBase + 0x14) 2).lintelHalted 0 = true :=
  ⟨by decide +kernel, ⟨0, _, [], rfl, by decide +kernel, by decide +kernel, by decide +kernel, by decide, by decide +kernel⟩, by decide +kernel,
    ⟨0, _, [], rfl, by decide +kernel, by decide +kernel, by decide +kernel, by decide, by decide +kernel⟩, by decide +kernel, by decide +kernel,
    ⟨0, _, [], rfl, by decide +kernel, by decide +kernel, by decide +kernel, by decide, by decide +kernel⟩, by decide +kernel, by decide +kernel⟩
def chunkBytes : CopyRead → Option (List Byte) | .ok bs false => some bs | _ => none
theorem witness_CircuitChunks : (match SMap.find? crossing.copies 7 with
    | some c => decide (c.op = opCpyx) && decide (c.phase = .waiting) && c.failed.isNone && c.token.isNone && decide (c.sent < c.count) && decide (dFmt c.desc = 5) &&
        ([(0, 0), c.margins c.nextChunk.1 c.nextChunk.2].all fun sides =>
          let as := (List.range (sides.1 + c.nextChunk.2 + sides.2)).map fun i => dSrc c.desc + (c.sent - sides.1 + i) / dRb c.desc * dStride c.desc + (c.sent - sides.1 + i) % dRb c.desc
          decide (chunkCredits (sides.1 + c.nextChunk.2 + sides.2) ≤ 40) && (chunkBytes (crossing.copyBytes (crossing.readSource c false as) false as)).isSome)
    | none => false) = true ∧
    ((crossing.pkg 0).bar 5).state = 3 ∧ ((crossing.pkg 0).port 3).state = .live ∧ ((chunked none id).pkg 0).port 3 = (crossing.pkg 0).port 3 ∧
    ((((chunked none id).modPkg 0 fun x => { x with ports := SMap.put x.ports 3 { Port.init with state := .hold, live := 9 } }).pkg 0).port 3).state ≠ .live ∧ SMap.find? (chunked none id).circuitChunks 7 = some (aChunk none) ∧
    ((chunked none id).pkg 0).barOf 3 = some (5, ((chunked none id).pkg 0).bar 5) ∧ (((chunked none id).pkg 0).bar 5).lent = false ∧ (((chunked none lending).pkg 0).bar 5).lent = true ∧
    (aChunk none).pkt.addr + (aChunk none).pkt.payload.length ≤ (((chunked none lending).pkg 0).bar 5).rxLen ∧ ((chunked none lending).pkg 0).snap.state = .idle ∧
    (chunked none lending).unshared 0x400100 = true ∧ SMap.find? (chunked (some true) id).copies 7 = some (queuedCopy (.cpyx 8#6 2#6 0#3)) ∧
    (let s := lentTo (chunked none lending); s.hostRefused 0x400100 0 = false ∧ sameKey s 0x400100 0 = true ∧ s.forward 0x400100 = 0x400100) ∧
    ((releasing.pkg 0).bar 5).state = 4 ∧ ((releasing.pkg 0).port 3).state = .live ∧ releasing.copies = [] ∧ releasing.circuitChunks = [] := by decide +kernel
theorem witness_ScriptStart : (scripted.pkg 0).script = [0x40000] ∧ (scripted.pkg 0).lintel.running = false ∧ (scripted.reg 0 (pkgBase + 0x10)).testBit 8 = true ∧
    (scripted.reg 0 (lintBase + 0x14)).testBit 1 = false ∧ (scripted.lintelRead 0 0x40000 16).isLeft = true := by decide +kernel

/-- A step at a placed word. -/
theorem witness_StepRunsTheDecodedWord : let s := State.reset.place (wordOf (.iadd 16#6 16#6 17#6))
    let s0 : State := { s with agenda := [], cur := .course 0 false }
    s.agenda = [.issue (.course 0 false)] ∧ Issues s0 (.course 0 false) ∧ AtPc s0 (.course 0 false) (wordOf (.iadd 16#6 16#6 17#6)) ∧ decode (wordOf (.iadd 16#6 16#6 17#6)) = .ok (.iadd 16#6 16#6 17#6) ∧
    /- the same turn with the stretcher slot's after it -/
    { s with agenda := [.pair 0] }.agenda = [.pair 0] ∧ s0.course? 0 = some (courseOf (.iadd 16#6 16#6 17#6)) ∧ completes (.iadd 16#6 16#6 17#6) (s0.seenBy (.course 0 false)) = true ∧
    ((courseOf (.iadd 16#6 16#6 17#6)).slot false).kept = none ∧ s0.beforeFor 0 false = none :=
  ⟨rfl, ⟨rfl, by decide +kernel, by decide +kernel, by decide +kernel, by decide +kernel⟩,
    ⟨_, 0x10000, 0x1F, _, _, _, _, rfl, by decide +kernel, by decide +kernel, by decide +kernel, rfl, by decide +kernel⟩, rfl, rfl, rfl, by decide +kernel, rfl, rfl⟩
theorem witness_StepKeepsMemoryCanonical : (State.reset.place (wordOf .nop)).memWf := by decide +kernel
theorem witness_StepTakesACycle : (placed .nop).agenda = [] := rfl

/-- Frames of each kind for package identity 16383, which is the package 16383 - 16 · wall of whatever wall this is. -/
def thePackage : Nat := 16383 - Config.wallId.toNat * 16
def aFrame (kind : Nat) : PlaneFrame :=
  { kind := kind, sep := 3, dep := 5, win := 0, src := 114, dst := 16383, seq := if kind = 2 then 0 else 9, ack := if kind = 2 then 8 else 0, payload := if kind = 1 then [1#8] else [] }
def framed (kind : Nat) (key : Nat) (y : Stream) : State := ({ State.reset with frames := [(4, (aFrame kind).bytes 0)], dev := [(regPa thePackage (lintBase + 0x64), 3#32)] }).setStream thePackage key y
def unframed (s : State) (n : Nat) : State := { s with frames := SMap.del s.frames n }
theorem thePlaneId : planeId thePackage = 16383 := by have := Config.wallId.isLt; unfold planeId thePackage; omega
theorem frame_parses : PlaneFrame.parse ((aFrame 1).bytes 0) = some (aFrame 1) ∧ PlaneFrame.parse ((aFrame 2).bytes 0) = some (aFrame 2) ∧ PlaneFrame.parse ((aFrame 3).bytes 0) = some (aFrame 3) := by decide +kernel
theorem frameIn_own {s : State} {p n kind : Nat} {bs : List Byte} {f : PlaneFrame} (h : SMap.find? s.frames n = some bs) (hp : PlaneFrame.parse bs = some f)
    (hk : f.kind = kind ∧ f.dst = planeId p) (hw : s.weazonUp p 0 = true) (hm : bs.take 6 = macOf (planeId p) 0) : s.frameIn p n kind [] = some (f, 0, unframed s n) := by
  have hport : s.portOf p bs = some 0 := by simp [State.portOf, hw, hm]
  unfold State.frameIn
  simp only [h, Option.getD_some, hp, hport]
  rw [if_pos ⟨hk.1, hk.2, Or.inl trivial⟩]
  unfold unframed
  rfl
theorem reg_at {s : State} {p o : Nat} {w : Word} (h : s.dev = [(regPa p o, w)]) : s.reg p o = w.toNat := by
  unfold State.reg
  rw [h]
  unfold SMap.find?
  rw [if_pos rfl]
theorem framed_up (kind key : Nat) (y : Stream) : (framed kind key y).weazonUp thePackage 0 = true := by
  unfold State.weazonUp
  rw [reg_at (w := 3#32) rfl]
  rfl
theorem framed_mac (kind : Nat) (h : ((aFrame kind).bytes 0).take 6 = macOf 16383 0) : ((aFrame kind).bytes 0).take 6 = macOf (planeId thePackage) 0 := thePlaneId ▸ h
theorem framed_frames (kind key : Nat) (y : Stream) : SMap.find? (framed kind key y).frames 4 = some ((aFrame kind).bytes 0) := by
  simp only [framed, State.setStream, modPkg_frames]; rfl
theorem framed_stream (kind key : Nat) (y : Stream) : ((framed kind key y).pkg thePackage).stream key = y := by
  simp [framed, State.setStream, State.pkg, Pkg.stream]
theorem witness_PlaneFrames : (framed 1 (recvKey 114 3 5) { Stream.init with opened := true, next := 9 }).frameIn thePackage 4 1 [] =
      some (aFrame 1, 0, unframed (framed 1 (recvKey 114 3 5) { Stream.init with opened := true, next := 9 }) 4) ∧
    ((framed 1 (recvKey 114 3 5) { Stream.init with opened := true, next := 9 }).pkg thePackage).stream (recvKey 114 3 5) = { Stream.init with opened := true, next := 9 } ∧
    (framed 3 0 Stream.init).frameIn thePackage 4 3 [] = some (aFrame 3, 0, unframed (framed 3 0 Stream.init) 4) ∧
    (framed 2 (sendKey 114 5 3) { Stream.init with opened := true, acked := 8 }).frameIn thePackage 4 2 [] =
      some (aFrame 2, 0, unframed (framed 2 (sendKey 114 5 3) { Stream.init with opened := true, acked := 8 }) 4) ∧
    ((framed 2 (sendKey 114 5 3) { Stream.init with opened := true, acked := 8 }).pkg thePackage).stream (sendKey 114 5 3) = { Stream.init with opened := true, acked := 8 } :=
  ⟨frameIn_own (framed_frames _ _ _) frame_parses.1 ⟨rfl, thePlaneId.symm⟩ (framed_up _ _ _) (framed_mac _ (by decide +kernel)), framed_stream _ _ _,
    frameIn_own (framed_frames _ _ _) frame_parses.2.2 ⟨rfl, thePlaneId.symm⟩ (framed_up _ _ _) (framed_mac _ (by decide +kernel)),
    frameIn_own (framed_frames _ _ _) frame_parses.2.1 ⟨rfl, thePlaneId.symm⟩ (framed_up _ _ _) (framed_mac _ (by decide +kernel)), framed_stream _ _ _⟩

/-! ## Results worked out in the spec's examples, or by hand from its rules -/

/-- The worked example of R74 and R75: the state after one step from 1, and the positions of 0 to 31 at which the midpoint of two BF16 values
rounds up. -/
theorem test_stochastic_state : srStep 1 = 0x00042021 := by decide
theorem test_stochastic_lanes : (List.range 32).filter (fun l =>
    (cvtEl .f32 .bf16x2 (RMode.ofCodeSr 5 (srWord 0x00042021 l)) false false 0x3F808000).bits == 0x3F81) = [9, 11, 22, 30] := by decide +kernel
/-- The CVTN example: two runs of CVTN.E4M3 on (1.0, -300.0) and (0.02, 500.0). -/
theorem test_cvtn_first : (cvtn { et := .f32, sat := false, rm := 0, ftz := false } (.flt .e4m3) 1 0 0x3F800000 0xC3960000 0) = ⟨0xF9380000, 1#5⟩ := by decide +kernel
theorem test_cvtn_second : (cvtn { et := .f32, sat := false, rm := 0, ftz := false } (.flt .e4m3) 1 0 0x3CA3D70A 0x43FA0000 0xF9380000) = ⟨0x7F0AF938, 5#5⟩ := by decide +kernel
/-- The RDX example: 2^24 and thirty-one ones add up to 16,777,246 in R78's tree. -/
theorem test_rdx_tree : (reduce { et := .f32, sat := false, rm := 0, ftz := false } .add (0x4B800000 :: List.replicate 31 0x3F800000)).1 = 0x4B80000F := by decide +kernel
theorem test_fadd_ties_to_even : (fadd { et := .f32, sat := false, rm := 0, ftz := false } 0x4B800000 0x3F800000) = ⟨0x4B800000, 1#5⟩ := by decide +kernel
theorem test_iadd_wraps_and_saturates : iadd { et := .s32, sat := false, rm := 0, ftz := false } 0x7FFFFFFF 1 = 0x80000000 ∧
    iadd { et := .s32, sat := true, rm := 0, ftz := false } 0x7FFFFFFF 1 = 0x7FFFFFFF ∧
    iadd { et := .s8x4, sat := true, rm := 0, ftz := false } 0x7F80017F 0x01FF0101 = 0x7F80027F := by decide
theorem test_lea_sign_extends : lea true 2 0x10 0xFFFFFFFC = 0 ∧ lea false 2 0x10 0xFFFFFFFC = 0x400000000 := by decide
/-- R360's example: tag 0x8000_0005 of package 0 meets at router 3 of die 3, numbered 48 * 3 + 3. -/
theorem test_tag_router : tagRouter 0x80000005 = 147 := by decide

/-- The SHFL example: M is lanes 0 to 5, p1 guards, n0 is 10 L, n1 is 99. -/
def shflExample (c : Course) : Course :=
  let d := c.mapLanes fun l x => ((x.writeN 0 (10 * l)).writeN 1 99).setPred 1 (l != 2)
  { d with header := { d.header with mask := 0x3F#32 }, mode := 0x1#32 }
def lane1After (s : State) : List Nat :=
  match s.course? 0 with | some c => (List.range 8).map fun l => (((c.lane l).named 1).toNat) | none => []
def lane0After (s : State) : List Nat :=
  match s.course? 0 with | some c => (List.range 8).map fun l => (((c.lane l).age 0).toNat) | none => []
theorem test_shfl_word : wordOf (.shfl 17#6 16#6 58#6 3#2) = 0x60450E83#32 := rfl
theorem test_shfl_partial_mask : let u := after (.shfl 17#6 16#6 58#6 3#2) (withCourse (.shfl 17#6 16#6 58#6 3#2) shflExample)
    lane1After u = [10, 20, 99, 40, 50, 50, 99, 99] ∧ lane0After u = [10, 20, 0, 40, 50, 50, 0, 0] := by decide +kernel
/-- GLI.H g1, #0x91A after GLI g1, #0x5678 leaves 0x12345678 (R140). -/
theorem test_gli_h : ((after (.gliH 1#6 0x91A#15) (withCourse (.gliH 1#6 0x91A#15) fun c => { c with sc := { c.sc with g := c.sc.g.set! 1 0x5678#32 } })).course? 0).map
    (fun c => c.sc.reg 1) = some 0x12345678#32 := by decide +kernel
end Sys2Proof.Tests
end

/-! # What a course holds when its team starts (R28) -/

namespace Sys2Proof.Machine

open Sys2Proof Sys2Proof.Spec

@[simp] theorem pred_seven (x : Lane) : x.pred 7 = true := rfl

/-- What every lane holds when its team starts (R28). -/
theorem lane_newCourse (t : Team) (h cid l : Nat) : (t.newCourse h cid).lane l = Lane.init := by
  simp [Team.newCourse, Course.init, Course.lane]

theorem q_init (k : Nat) (hk : k < 16) : Lane.init.q[k]! = 0#32 := by
  simp [Lane.init, hk]

theorem named_init (k : Nat) : Lane.init.named k = 0#32 := by
  simp [Lane.named, Lane.init]

theorem full_init (k : Nat) (hk : k < 32) : Lane.init.fe.getLsbD k = true := by
  revert k; decide

theorem pred_init (k : Nat) (hk : k < 7) : Lane.init.pred k = false := by
  revert k; decide

theorem gp_init (k : Nat) (hk : k < 7) : Scalar.init.gp.getLsbD k = false := by
  revert k; decide

theorem reg_init (k : Nat) : Scalar.init.reg k = 0#32 := by
  simp [Scalar.reg, Scalar.init]

theorem bitsOf_low_half (x : Nat) : bitsOf x 15 0 < 2 ^ 16 := Nat.mod_lt _ (by decide)

/-- A seed of R28, as the number its word holds. -/
theorem seed_toNat (x cid k : Nat) (hc : cid < 16) (hk : k < 256) :
    (BitVec.ofNat 32 (bitsOf x 15 0 * 2 ^ 16 + cid * 2 ^ 8 + k)).toNat = bitsOf x 15 0 * 2 ^ 16 + cid * 2 ^ 8 + k := by
  have := bitsOf_low_half x
  rw [BitVec.toNat_ofNat]; omega

theorem srSeedM_start (l : Launch) (index core : Nat) (gang : List Nat) (head now : Nat) :
    (Team.start l index core gang head now).srSeedM.toNat = bitsOf index 15 0 * 2 ^ 16 + 5 := by
  simp only [Team.start, bitsOf, BitVec.toNat_ofNat]; simp; omega

theorem invalid_newCourse (t : Team) (h cid : Nat) : ∀ e ∈ (t.newCourse h cid).sb.toList, e.valid = false := by
  intro e he
  simp [Team.newCourse, Course.init] at he
  rw [he]; rfl

theorem unack_newCourse (t : Team) (h cid : Nat) (k : Fin 6) : (t.newCourse h cid).unack[k] = 0#12 := by
  simp [Team.newCourse, Course.init]

/-- Settles O9. -/
theorem coursesStartAsR28Says : Obligations.CoursesStartAsR28Says := by
  intro t h cid
  refine ⟨rfl, rfl, rfl, rfl, rfl, rfl, fun l _ => ?_, gp_init, fun k _ => reg_init k, rfl, rfl, rfl, rfl,
    invalid_newCourse t h cid, unack_newCourse t h cid, rfl, rfl, rfl, rfl,
    fun hc => ⟨seed_toNat _ _ _ hc (by decide), seed_toNat _ _ _ hc (by decide)⟩, srSeedM_start,
    rfl, rfl, rfl, rfl, rfl, rfl, rfl, rfl, rfl⟩
  rw [lane_newCourse]
  exact ⟨q_init, fun k hk => ⟨named_init k, full_init k hk⟩, pred_init, rfl⟩

end Sys2Proof.Machine

/-! # The value-producing vector instructions (R82-R109) -/

namespace Sys2Proof.Machine

open Sys2Proof Sys2Proof.Spec

/-! ## The executing course -/

theorem runs_curRuns {s : State} {k : Nat} {str : Bool} {c : Course} {t : Team} (h : Runs s k str c t) : s.curRuns = true :=
  curRuns_course h.1 h.2.1 h.2.2.1 h.2.2.2.1 h.2.2.2.2

theorem runs_self {s : State} {k : Nat} {str : Bool} {c : Course} {t : Team} (h : Runs s k str c t) : s.self = some (k, str, c) :=
  self_course h.1 h.2.1

theorem runs_asCourse {s : State} {k : Nat} {str : Bool} {c : Course} {t : Team} (h : Runs s k str c t) (f : Nat → Bool → Course → Res) :
    s.asCourse f = f k str c :=
  asCourse_course h.1 h.2.1 f

theorem runs_et {s : State} {k : Nat} {str : Bool} {c : Course} {t : Team} (h : Runs s k str c t) : s.et = c.et := by
  simp only [State.et, runs_self h]

/-! ## The operand checks of a ready instruction -/

theorem mem_lanesOf {m : Word} {l : Nat} : l ∈ lanesOf m ↔ l < 32 ∧ m.getLsbD l = true := by
  simp [lanesOf]

theorem ready_mono {c : Course} {m : Word} {us vs : List Use} {ds : List (Nat × Bool)} (h : Ready c m us ds) (hs : vs ⊆ us) : Ready c m vs ds :=
  fun l hl hm => ⟨fun u hu => (h l hl hm).1 u (hs hu), (h l hl hm).2⟩

theorem ready_checks {c : Course} {m : Word} {us : List Use} {d : Nat} {w : Bool} (h : Ready c m us [(d, w)]) :
    c.checks m us (some (d, w)) = none :=
  checks_none (fun l hl hm => (h l hl hm).1) fun l hl hm d' w' e => by
    cases e; exact (h l hl hm).2 (d, w) (List.mem_singleton.2 rfl)

theorem ready_checks_sources {c : Course} {m : Word} {us : List Use} {ds : List (Nat × Bool)} (h : Ready c m us ds) : c.checks m us none = none :=
  checks_none (fun l hl hm => (h l hl hm).1) nofun

/-- The lanes whose old destination value is poisoned: none when it is ready. -/
theorem ready_oldUse {c : Course} {m : Word} {us : List Use} {ds : List (Nat × Bool)} {d : Nat} (h : Ready c m us ds) (hs : oldUse d ⊆ us) :
    (maskOf fun l => m.getLsbD l && (oldUse d).any fun u => c.isPoisoned false u.code l) = 0#32 := by
  refine maskOf_eq_zero fun l hl => ?_
  cases hm : m.getLsbD l with
  | false => rfl
  | true =>
    have := ((h l hl hm).1 _ (hs (List.mem_singleton.2 rfl))).2
    simpa only [oldUse, List.any_cons, List.any_nil, Bool.or_false, Bool.true_and] using! this

/-! ## A value-producing vector instruction completes (R82) -/

section
variable {s : State} {k : Nat} {str : Bool} {c : Course} {t : Team} {r : VecRow}

/-- The shared shape of R82, its operands ready: what it delivers, and the flags its active lanes raise. -/
theorem vecOp_delivers (hR : Runs s k str c t) {uses : List Use} {op d : Nat} {wide : Bool} {effect : Course → Nat → List Nat → Rounded}
    (hr : Ready c (c.active str) uses [(d, wide)]) :
    s.vecOp op true uses d wide effect = .done (vecDone s k str c
      ⟨true, uses, d, wide, fun l => effect c l (uses.map fun u => c.src u.type u.code l), none⟩) := by
  simp only [State.vecOp, runs_asCourse hR, Bool.not_true, Bool.false_eq_true, ↓reduceIte, ready_checks hr]
  rfl

/-- A stochastic conversion advances SRSEEDV after its delivery (R74, R107). -/
theorem convOp_delivers (hR : Runs s k str c t) {rule : Nat → Res} (hs : r.seed = Spec.srAfter c)
    (h : rule (srState c) = .done (vecDone s k str c { r with seed := none })) : s.convOp rule = .done (vecDone s k str c r) := by
  obtain ⟨types, reads, dest, wide, value, seed⟩ := r
  subst hs
  simp only [State.convOp, runs_asCourse hR]
  by_cases hm : bitsOf c.mode.toNat 10 8 = 5
  · have hst : stochastic c = true := by simp [stochastic, hm]
    have hsr : srState c = srStep c.srSeedV.toNat := by simp [srState, hst]
    rw [hsr] at h
    rw [if_pos hm, h]
    simp [vecDone, Spec.srAfter, hst]
    rfl
  · have hst : stochastic c = false := by simp [stochastic, hm]
    have hsr : srState c = 0 := by simp [srState, hst]
    rw [hsr] at h
    rw [if_neg hm, h]
    simp [vecDone, Spec.srAfter, hst]

/-- An instruction that reads its destination's old value (R96, R108). -/
theorem destOp_delivers (hR : Runs s k str c t) {uses : List Use} {op d : Nat} {effect : Course → Nat → List Nat → Nat → Rounded}
    (hr : Ready c (c.active str) (uses ++ oldUse d) [(d, false)]) :
    s.destOp op true uses d effect = .done (vecDone s k str c
      ⟨true, uses ++ oldUse d, d, false, fun l => effect c l (uses.map fun u => c.src u.type u.code l) (c.oldDest d l), none⟩) := by
  simp only [State.destOp, runs_asCourse hR, vecOp_delivers hR (ready_mono hr (List.subset_append_left _ _)),
    ready_oldUse hr (List.subset_append_right _ _)]
  rfl

/-- An instruction of one source. -/
theorem un_delivers (hR : Runs s k str c t) {i : Instr} {op : Nat} {acc : ElemType → Bool} {d a : BitVec 6} {f : AluMode → Nat → Rounded}
    (hrow : vec1 c (acc c.et) d a f = some r) (ht : r.types = true) (hr : Ready c (c.active str) r.reads [(r.dest, r.wide)]) :
    s.un i op acc d a f = s.runWord i (.done (vecDone s k str c r)) := by
  cases hrow
  simp only [State.un, runs_et hR, show acc c.et = true from ht]
  exact congrArg _ (vecOp_delivers hR hr)

/-- An instruction of two sources of the same type. -/
theorem bin_delivers (hR : Runs s k str c t) {i : Instr} {op : Nat} {acc : ElemType → Bool} {d a b : BitVec 6} {f : AluMode → Nat → Nat → Rounded}
    (hrow : vec2 c (acc c.et) d a b c.et f = some r) (ht : r.types = true) (hr : Ready c (c.active str) r.reads [(r.dest, r.wide)]) :
    s.bin i op acc d a b f = s.runWord i (.done (vecDone s k str c r)) := by
  cases hrow
  simp only [State.bin, runs_et hR, show acc c.et = true from ht]
  exact congrArg _ (vecOp_delivers hR hr)

/-- An instruction of three sources of the same type. -/
theorem tern_delivers (hR : Runs s k str c t) {i : Instr} {op : Nat} {acc : ElemType → Bool} {d a b x : BitVec 6}
    {f : AluMode → Nat → Nat → Nat → Rounded} (hrow : vec3 c (acc c.et) d a b x c.et c.et.wide f = some r) (ht : r.types = true)
    (hr : Ready c (c.active str) r.reads [(r.dest, r.wide)]) : s.tern i op acc d a b x f = s.runWord i (.done (vecDone s k str c r)) := by
  cases hrow
  simp only [State.tern, runs_et hR, show acc c.et = true from ht]
  exact congrArg _ (vecOp_delivers hR hr)

/-- An instruction that gives its sources itself. -/
theorem vecOp_row (hR : Runs s k str c t) {op : Nat} {acc : Bool} {uses : List Use} {d : Nat} {wide : Bool} {effect : Course → Nat → List Nat → Rounded}
    (hrow : some ⟨acc, uses, d, wide, fun l => effect c l (uses.map fun u => c.src u.type u.code l), none⟩ = some r) (ht : r.types = true)
    (hr : Ready c (c.active str) r.reads [(r.dest, r.wide)]) :
    s.vecOp op acc uses d wide effect = .done (vecDone s k str c r) := by
  cases hrow
  rw [show acc = true from ht]
  exact vecOp_delivers hR hr

end

section
variable {s : State} {k : Nat} {str : Bool} {c : Course} {t : Team} {r : VecRow}

/-- CVT, CVTN and LIH, whose rules have more to them than R82's shape. -/
theorem lih_delivers {d : BitVec 6} {v : BitVec 14} (hR : Runs s k str c t) (hrow : vecRow c (.lih d v) = some r)
    (hr : Ready c (c.active str) r.reads [(r.dest, r.wide)]) : exec (.lih d v) s = s.runWord (.lih d v) (.done (vecDone s k str c r)) := by
  cases hrow
  change execLih d v s = _
  unfold execLih
  exact congrArg _ (destOp_delivers hR (uses := []) hr)

theorem cvt_delivers {d a : BitVec 6} {x : BitVec 4} (hR : Runs s k str c t) (hrow : vecRow c (.cvt d a x) = some r) (ht : r.types = true)
    (hr : Ready c (c.active str) r.reads [(r.dest, r.wide)]) : exec (.cvt d a x) s = s.runWord (.cvt d a x) (.done (vecDone s k str c r)) := by
  cases hrow
  have ht : ((ElemType.ofCode x.toNat).getD .s32).count = c.et.count := of_decide_eq_true ht
  change execCvt d a x s = _
  unfold execCvt
  simp only [runs_et hR, ht, ne_eq, not_true_eq_false, ↓reduceIte]
  exact congrArg _ (convOp_delivers hR rfl (vecOp_delivers hR hr))

theorem cvtn_delivers {d a b : BitVec 6} {x : BitVec 4} (hR : Runs s k str c t) (hrow : vecRow c (.cvtn d a b x) = some r) (ht : r.types = true)
    (hr : Ready c (c.active str) r.reads [(r.dest, r.wide)]) : exec (.cvtn d a b x) s = s.runWord (.cvtn d a b x) (.done (vecDone s k str c r)) := by
  cases hrow
  change execCvtn d a b x s = _
  unfold execCvtn
  simp only [runs_et hR, show (c.et == .s32 || c.et == .n32 || c.et == .f32) = true from ht]
  exact congrArg _ (convOp_delivers hR rfl (destOp_delivers hR hr))

/-- R82-R109: the rule of every value-producing vector instruction, its operands ready, delivers its row's values. -/
theorem vecRow_delivers {i : Instr} (hR : Runs s k str c t) (hrow : vecRow c i = some r) (ht : r.types = true)
    (hr : Ready c (c.active str) r.reads [(r.dest, r.wide)]) : exec i s = s.runWord i (.done (vecDone s k str c r)) := by
  cases i
  case iabs | popc | clz | brev | addi | andi | ori | xori | shli | shri | mov | fabs | fneg | fclass | frcp | frsq | fsqrt | fex2 | flg2 | fsin |
      fcos | frnd =>
    delta exec execIabs execPopc execClz execBrev execAddi execAndi execOri execXori execShli execShri execMov execFabs execFneg execFclass execFrcp
      execFrsq execFsqrt execFex2 execFlg2 execFsin execFcos execFrnd
    exact un_delivers hR hrow ht hr
  case iadd | isub | imul | imulh | imin | imax | and | or | xor | andn | shl | shr | sar | rotl | fadd | fsub | fmul | fmin | fmax =>
    delta exec execIadd execIsub execImul execImulh execImin execImax execAnd execOr execXor execAndn execShl execShr execSar execRotl execFadd
      execFsub execFmul execFmin execFmax
    exact bin_delivers hR hrow ht hr
  case imad | fma | fnma =>
    delta exec execImad execFma execFnma
    exact tern_delivers hR hrow ht hr
  case bfx | bfi | perm | sel | lea | li | idot4 | fscl | cvtw | fdot2 =>
    delta exec execBfx execBfi execPerm execSel execLea execLi execIdot4 execFscl execCvtw execFdot2
    simp only [runs_et hR]
    exact congrArg _ (vecOp_row hR hrow ht hr)
  case lih => exact lih_delivers hR hrow hr
  case cvt => exact cvt_delivers hR hrow ht hr
  case cvtn => exact cvtn_delivers hR hrow ht hr
  all_goals exact nomatch hrow
end

/-! ## What an issue of a course leaves of the state -/

@[simp] theorem team?_modCourse (s : State) (k j : Nat) (f : Course → Course) : (s.modCourse k f).team? j = s.team? j := rfl
@[simp] theorem team?_setCourse (s : State) (k j : Nat) (c : Course) : (s.setCourse k c).team? j = s.team? j := rfl
@[simp] theorem team?_addCharge (s : State) (q n j : Nat) : (s.addCharge q n).team? j = s.team? j := rfl
@[simp] theorem course?_modTeam (s : State) (h j : Nat) (f : Team → Team) : (s.modTeam h f).course? j = s.course? j := rfl
@[simp] theorem course?_addCharge (s : State) (q n j : Nat) : (s.addCharge q n).course? j = s.course? j := rfl

/-- Only course k differs. -/
def OnlyCourse (s u : State) (k : Nat) : Prop := u = { s with courses := u.courses } ∧ ∀ j, j ≠ k → u.course? j = s.course? j

theorem onlyCourse_setCourse (s : State) (k : Nat) (c : Course) : OnlyCourse s (s.setCourse k c) k :=
  ⟨rfl, fun _ h => course_setCourse_other s c h⟩

theorem onlyCourse_modCourse {s u : State} {k : Nat} (f : Course → Course) (h : OnlyCourse s u k) : OnlyCourse s (u.modCourse k f) k := by
  refine ⟨?_, fun j hj => (course_modCourse_other u f hj).trans (h.2 j hj)⟩
  rw [h.1]; rfl

/-- A course charged for an issue of a slot (R302, R120), and with the slot on its next word (R10). -/
def Course.charged (c : Course) (str : Bool) (charge : Nat) (yielded : Bool) : Course :=
  ({ c with charge := c.charge + BitVec.ofNat 32 charge, moves := c.moves + 1 }).setSlot str { c.slot str with yielded := yielded }
def Course.onNext (c : Course) (str : Bool) : Course :=
  c.setSlot str { c.slot str with pc := (c.slot str).pc + 4#32, replay := none, hold := .free }

/-- A team with one more issue counted (R279). -/
def Team.oneMore (t : Team) : Team := { t with issued := t.issued + 1 }

/-- The completion of a course's word, in one piece. -/
theorem finished_of_course {s u : State} {k : Nat} {str : Bool} {t : Team} (hc : u.cur = .course k str) (ht : u.team? (k / 16) = some t) (w : Word) :
    ∃ q n y, finished s u w =
      (((u.addCharge q n).modTeam (k / 16) Team.oneMore).modCourse k fun c => c.charged str n y).modCourse k fun c => c.onNext str := by
  refine ⟨quadOfCore t.core, u.chargeOf t.core (opOf w) s.chargeMask.2 s.chargeMask.1, decide (opOf w = 0x03), ?_⟩
  have hi : (counted s u w).cur = .course k str := by
    simp only [counted, State.countIssue, hc, State.issued, ht]; exact hc
  simp only [finished, State.advance, hi]
  simp only [counted, State.countIssue, hc, State.issued, ht]
  rfl

theorem finished_course {s u : State} {k : Nat} {str : Bool} {t : Team} {c : Course} (hc : u.cur = .course k str)
    (ht : u.team? (k / 16) = some t) (hk : u.course? k = some c) (w : Word) :
    ∃ n y, (finished s u w).course? k = some ((c.charged str n y).onNext str) := by
  obtain ⟨q, n, y, h⟩ := finished_of_course (s := s) hc ht w
  exact ⟨n, y, by simp [h, hk]⟩

/-- A word that changes its own course alone leaves everything else, but for the counts, as it was. -/
theorem finished_elsewhere {s u : State} {k : Nat} {str : Bool} {t : Team} (hu : OnlyCourse s u k) (hc : s.cur = .course k str)
    (ht : s.team? (k / 16) = some t) (w : Word) : Elsewhere s (finished s u w) k := by
  obtain ⟨he, hj⟩ := hu
  have htm (j : Nat) : u.team? j = s.team? j := by rw [he]; rfl
  obtain ⟨q, n, y, h⟩ := finished_of_course (s := s) (u := u) (by rw [he]; exact hc) ((htm _).trans ht) w
  rw [h]
  refine ⟨fun a => ?_, ?_, ?_, fun j hn => ?_, fun j hn => ?_, ?_, ?_, ?_, ?_, ?_, ?_, ?_, ?_, ?_, ?_, ?_⟩
  case refine_4 => rw [course_modCourse_other _ _ hn, course_modCourse_other _ _ hn]; exact hj j hn
  case refine_5 => rw [team?_modCourse, team?_modCourse, team_modTeam_other _ _ hn, team?_addCharge, htm]
  case refine_6 => rw [team?_modCourse, team?_modCourse, team_modTeam_same, team?_addCharge, htm]; rfl
  all_goals rw [he]; rfl

/-! ## A vector result in a course (R14, R15, R82) -/

@[simp] theorem lane_charged (c : Course) (str : Bool) (n : Nat) (y : Bool) (l : Nat) : (c.charged str n y).lane l = c.lane l := by
  simp only [Course.lane, Course.charged, lanes_setSlot]
@[simp] theorem lane_onNext (c : Course) (str : Bool) (l : Nat) : (c.onNext str).lane l = c.lane l := by
  simp only [Course.lane, Course.onNext, lanes_setSlot]

theorem lane_mapLanes (c : Course) (f : Nat → Lane → Lane) {l : Nat} (h : l < 32) : (c.mapLanes f).lane l = f l (c.lane l) := by
  simp [Course.lane, Course.mapLanes, h]

theorem age_push_zero (x : Lane) (v : Nat) : (x.push v).age 0 = BitVec.ofNat 32 v := by
  simp [Lane.age, Lane.push]
theorem age_push_succ (x : Lane) (v : Nat) {a : Nat} (h : a < 15) : (x.push v).age (a + 1) = x.age a := by
  simp [Lane.age, Lane.push, show a + 1 < 16 by omega, show a < 16 by omega]
@[simp] theorem named_push (x : Lane) (v n : Nat) : (x.push v).named n = x.named n := rfl
@[simp] theorem fe_push (x : Lane) (v : Nat) : (x.push v).fe = x.fe := rfl
@[simp] theorem p_push (x : Lane) (v : Nat) : (x.push v).p = x.p := rfl

@[simp] theorem age_writeN (x : Lane) (k v a : Nat) : (x.writeN k v).age a = x.age a := by simp only [Lane.age, Lane.writeN]
@[simp] theorem p_writeN (x : Lane) (k v : Nat) : (x.writeN k v).p = x.p := by simp only [Lane.writeN]
theorem named_writeN_same (x : Lane) (v : Nat) {k : Nat} (h : k < 32) : (x.writeN k v).named k = BitVec.ofNat 32 v := by
  simp [Lane.named, Lane.writeN, h]
theorem named_writeN_other (x : Lane) (v : Nat) {k n : Nat} (h : n ≠ k) : (x.writeN k v).named n = x.named n := by
  simp [Lane.named, Lane.writeN, h]
theorem fe_writeN (x : Lane) (k v : Nat) {n : Nat} (h : n < 32) : (x.writeN k v).fe.getLsbD n = (x.fe.getLsbD n || decide (k = n)) := by
  simp only [Lane.writeN, BitVec.getLsbD_or, BitVec.getLsbD_ofNat, Nat.testBit_two_pow, h, decide_true, Bool.true_and]

/-- A lane of the mask after R82's delivery of v: the queue shifted, and, where the guard is true, the named destination written. -/
def Lane.took (x : Lane) (act : Bool) (d : Nat) (wide : Bool) (v : Nat) : Lane :=
  let y := if wide then (x.push (v / 2 ^ 32)).push v else x.push v
  if 16 ≤ d ∧ d < 48 ∧ act then (if wide then (y.writeN (d - 16) v).writeN (d - 15) (v / 2 ^ 32) else y.writeN (d - 16) v) else y

theorem lane_deliver (c : Course) (m act : Word) (d : Nat) (wide : Bool) (v : Nat → Nat) {l : Nat} (h : l < 32) :
    (c.deliver m act d wide v).lane l =
      if d = 0 ∨ m.getLsbD l = false then c.lane l
      else (c.lane l).took (act.getLsbD l) d wide (if act.getLsbD l then v l else 0) := by
  unfold Course.deliver
  by_cases hd : d = 0
  · simp [hd]
  · rw [if_neg hd, lane_mapLanes _ _ h]
    cases m.getLsbD l <;> simp [hd, Lane.took]


section
variable (x : Lane) (act : Bool) (d v : Nat)

@[simp] theorem age_took_narrow (a : Nat) : (x.took act d false v).age a = (x.push v).age a := by
  by_cases hw : 16 ≤ d ∧ d < 48 ∧ act = true <;> simp [Lane.took, hw]
@[simp] theorem age_took_wide (a : Nat) : (x.took act d true v).age a = ((x.push (v / 2 ^ 32)).push v).age a := by
  by_cases hw : 16 ≤ d ∧ d < 48 ∧ act = true <;> simp [Lane.took, hw]
@[simp] theorem p_took (wide : Bool) : (x.took act d wide v).p = x.p := by
  by_cases hw : 16 ≤ d ∧ d < 48 ∧ act = true <;> cases wide <;> simp [Lane.took, hw]

/-- A named destination takes the value, and its register is full. -/
theorem named_took_same (wide : Bool) {n : Nat} (hn : n < 32) (hd : d = 16 + n) :
    (x.took true d wide v).named n = BitVec.ofNat 32 v ∧ (x.took true d wide v).fe.getLsbD n = true := by
  subst hd
  cases wide <;> simp [Lane.took, fe_writeN _ _ _ hn, named_writeN_same _ _ hn, show 16 + n < 48 by omega, named_writeN_other, show 16 + n - 15 = n + 1 by omega]

/-- The register above a pair's takes the upper word. -/
theorem named_took_upper {n : Nat} (hn : n < 32) (h16 : 16 ≤ d) (hd : d + 1 = 16 + n) :
    (x.took true d true v).named n = BitVec.ofNat 32 (v / 2 ^ 32) ∧ (x.took true d true v).fe.getLsbD n = true := by
  have h1 : d - 15 = n := by omega
  simp [Lane.took, h16, show d < 48 by omega, h1, named_writeN_same _ _ hn, fe_writeN _ _ _ hn]

/-- Any other register is as it was, and so is every one of a lane whose guard is false. -/
theorem named_took_other (wide : Bool) {n : Nat} (hn : n < 32)
    (h : act = false ∨ (d ≠ 16 + n ∧ ¬ (wide = true ∧ 16 ≤ d ∧ d + 1 = 16 + n))) :
    (x.took act d wide v).named n = x.named n ∧ (x.took act d wide v).fe.getLsbD n = x.fe.getLsbD n := by
  by_cases hw : 16 ≤ d ∧ d < 48 ∧ act = true
  · obtain ⟨h16, h48, hact⟩ := id hw
    obtain ⟨h1, h2⟩ := h.resolve_left (by simp [hact])
    have hl : d - 16 ≠ n := by omega
    cases wide
    · simp [Lane.took, hw, named_writeN_other _ _ hl.symm, fe_writeN _ _ _ hn, hl]
    · have hu : d - 15 ≠ n := fun e => h2 ⟨rfl, h16, by omega⟩
      simp [Lane.took, hw, named_writeN_other _ _ hl.symm, named_writeN_other _ _ hu.symm, fe_writeN _ _ _ hn, hl, hu]
  · cases wide <;> simp [Lane.took, hw]
end

/-! ## The course after a vector instruction -/

section
variable {s : State} {k : Nat} {str : Bool} {c : Course} {t : Team} {i : Instr} {w : Word} {r : VecRow}

/-- R82-R109: a value-producing vector instruction whose operands are ready completes. -/
theorem exec_vecReady (h : VecReady s k str c t i w r) : exec i s = .next (finished s (vecDone s k str c r) w) := by
  obtain ⟨hR, ⟨hw, h39⟩, hrow, ht, hr⟩ := h
  rw [vecRow_delivers hR hrow ht hr, runWord_done (runs_curRuns hR) hw h39]
  rfl

/-- The course that R82's delivery leaves. -/
def vecCourse (c : Course) (str : Bool) (r : VecRow) : Course :=
  { c.deliver (c.mask str) (c.active str) r.dest r.wide fun l => (r.value l).bits with
    fpflags := c.fpflags ||| rowFlags (c.active str) r
    srSeedV := r.seed.getD c.srSeedV }

theorem deliver_eq (c : Course) (m act : Word) (d : Nat) (wide : Bool) (v : Nat → Nat) :
    c.deliver m act d wide v = { c with lanes := (c.deliver m act d wide v).lanes } := by
  unfold Course.deliver; split <;> rfl

theorem vecDone_course (s : State) (k : Nat) (str : Bool) (c : Course) (r : VecRow) :
    (vecDone s k str c r).course? k = some (vecCourse c str r) := by
  unfold vecDone vecCourse
  rw [deliver_eq]
  cases r.seed <;> simp

theorem vecDone_onlyCourse (s : State) (k : Nat) (str : Bool) (c : Course) (r : VecRow) : OnlyCourse s (vecDone s k str c r) k := by
  unfold vecDone
  dsimp only
  split
  · exact onlyCourse_modCourse _ (onlyCourse_setCourse ..)
  · exact onlyCourse_setCourse ..

/-- The course after the whole instruction. -/
theorem exec_vecReady_course (h : VecReady s k str c t i w r) :
    ∃ u n y, exec i s = .next u ∧ Elsewhere s u k ∧ u.course? k = some (((vecCourse c str r).charged str n y).onNext str) := by
  have hf := vecDone_onlyCourse s k str c r
  obtain ⟨hR, -⟩ := id h
  obtain ⟨hcur, -, ht, -⟩ := hR
  obtain ⟨n, y, hk⟩ := finished_course (s := s) (by rw [hf.1]; exact hcur) (by rw [hf.1]; exact ht) (vecDone_course s k str c r) w
  exact ⟨_, n, y, exec_vecReady h, finished_elsewhere hf hcur ht w, hk⟩
end

/-- Settles O11. -/
theorem deliverPushesInTheMaskAndWritesUnderTheGuard : Obligations.DeliverPushesInTheMaskAndWritesUnderTheGuard := by
  intro s k str c t i w r h
  obtain ⟨u, n, y, hx, -, hk⟩ := exec_vecReady_course h
  refine ⟨u, _, hx, hk, fun l hl => ?_⟩
  have hlane : (((vecCourse c str r).charged str n y).onNext str).lane l =
      (c.deliver (c.mask str) (c.active str) r.dest r.wide fun l => (r.value l).bits).lane l := by
    rw [lane_onNext, lane_charged]; rfl
  rw [hlane, lane_deliver _ _ _ _ _ _ hl]
  refine ⟨fun h0 => if_pos h0, fun ⟨h0, hm⟩ => ?_⟩
  rw [if_neg (by simp [h0, hm])]
  refine ⟨fun hw => ?_, fun hw => ?_, fun m hm => ⟨fun ⟨ha, hd⟩ => ?_, fun ⟨ha, hw, h16, hd⟩ => ?_, fun ho => ?_⟩, p_took ..⟩
  · rw [hw]
    exact ⟨by rw [age_took_narrow, age_push_zero], fun a ha => by rw [age_took_narrow, age_push_succ _ _ ha]⟩
  · rw [hw]
    refine ⟨by rw [age_took_wide, age_push_zero], ?_, fun a ha => ?_⟩
    · rw [age_took_wide, age_push_succ _ _ (by omega : 0 < 15), age_push_zero]
    · rw [age_took_wide, age_push_succ _ _ (by omega : a + 1 < 15), age_push_succ _ _ (by omega : a < 15)]
  · rw [ha]; exact named_took_same _ _ _ _ hm hd
  · rw [ha, hw]; exact named_took_upper _ _ _ hm h16 hd
  · exact named_took_other _ _ _ _ _ hm ho

/-- R82's delivery changes a course's lanes, its flags and its vector seed alone. -/
theorem vecCourse_eq (c : Course) (str : Bool) (r : VecRow) : vecCourse c str r =
    { c with lanes := (vecCourse c str r).lanes, fpflags := c.fpflags ||| rowFlags (c.active str) r, srSeedV := r.seed.getD c.srSeedV } := by
  unfold vecCourse
  rw [deliver_eq]

theorem p_vecCourse (c : Course) (str : Bool) (r : VecRow) {l : Nat} (hl : l < 32) : ((vecCourse c str r).lane l).p = (c.lane l).p := by
  have h : (vecCourse c str r).lane l = (c.deliver (c.mask str) (c.active str) r.dest r.wide fun l => (r.value l).bits).lane l := rfl
  rw [h, lane_deliver _ _ _ _ _ _ hl]
  split
  · rfl
  · exact p_took ..

/-- Settles O12. -/
theorem vectorInstructionsFrame : Obligations.VectorInstructionsFrame := by
  intro s k str c t i w r u h hx
  obtain ⟨v, n, y, hv, he, hk⟩ := exec_vecReady_course h
  cases hx.symm.trans hv
  have hp (l : Nat) (hl : l < 32) : ((((vecCourse c str r).charged str n y).onNext str).lane l).p = (c.lane l).p := by
    rw [lane_onNext, lane_charged, p_vecCourse c str r hl]
  refine ⟨he, _, hk, ?_⟩
  rw [vecCourse_eq] at hp ⊢
  cases str
  all_goals exact ⟨rfl, rfl, rfl, rfl, rfl, hp, rfl, rfl, rfl, rfl, rfl, rfl, rfl, rfl, rfl, rfl, rfl, rfl, rfl, rfl, rfl, rfl, rfl, rfl, rfl, rfl, rfl⟩

end Sys2Proof.Machine

/-! # Reserved modes and handler-only registers (R24, R25) -/

namespace Sys2Proof.Machine

open Sys2Proof Sys2Proof.Spec

/-! ## A trap of a course's own instruction (R271) -/

section
variable {s : State} {k : Nat} {str : Bool} {c : Course} {t : Team}

/-- Only SECVIOL is logged (R341). -/
theorem logSecure_other (s : State) (x : Xlat) {cause : Cause} (va ti : Nat) (h : cause ≠ .secViol) : s.logSecure x cause va ti = s := by
  simp [State.logSecure, h]

/-- A cause that is not logged is delivered as it is. -/
theorem takeTrap_unlogged (s : State) {cause : Cause} (h : cause ≠ .secViol) (va m ti : Nat) :
    s.takeTrap cause va m ti = s.enterTrap cause va m ti := by
  unfold State.takeTrap
  split
  · rw [logSecure_other _ _ _ _ h]
  · rfl

/-- A course that can take a trap enters its handler. -/
theorem takeTrap_course (hR : Runs s k str c t) (hT : CanTrap c t) {cause : Cause} (hs : cause ≠ .secViol) (va m ti : Nat) :
    s.takeTrap cause va m ti = s.setCourse k { c.enter cause (c.slot str).pc (BitVec.ofNat 64 va) (BitVec.ofNat 32 m) (BitVec.ofNat 32 ti) with
      entered := s.fresh } := by
  obtain ⟨hcur, hc, ht, -, -⟩ := hR
  obtain ⟨hh, hb, hv, ha⟩ := hT
  rw [takeTrap_unlogged s hs]
  simp [State.enterTrap, State.trapCourse, hcur, hc, ht, hh, hb, hv, ha]

theorem entered_enter (c : Course) (cause : Cause) (tpc : Word) (va m ti n : Nat) (hp : cause ≠ .preempt) :
    Entered c { c.enter cause tpc (BitVec.ofNat 64 va) (BitVec.ofNat 32 m) (BitVec.ofNat 32 ti) with entered := n } cause.code tpc va m ti :=
  ⟨rfl, rfl, rfl, rfl, rfl, rfl, rfl, rfl, rfl, rfl, rfl, rfl, rfl, rfl, rfl, rfl, rfl, rfl, rfl, rfl, rfl, rfl, rfl, rfl, rfl, rfl, rfl,
    fun _ => if_neg hp⟩

/-- The trap of an instruction's own rule is entry to the handler. -/
theorem runWord_trapsWith (hR : Runs s k str c t) (hT : CanTrap c t) {i : Instr} {w : Word} (hw : Passes s i w) {rule : Res} {cause : Cause}
    {va m ti : Nat} (hr : rule = .trap cause va m ti) (hs : cause ≠ .secViol) (hp : cause ≠ .preempt) :
    ∃ u, s.runWord i rule = .next u ∧ TrapsWith s u k str c cause.code va m ti := by
  subst hr
  exact ⟨_, runWord_trap (runs_curRuns hR) hw.1 hw.2, _, takeTrap_course hR hT hs va m ti, entered_enter c cause _ va m ti _ hp⟩
end

/-! ## SETM, GSR and GSW (R24, R25, R117, R124) -/

theorem clean_checks {s : State} {k : Nat} {str : Bool} {c : Course} {t : Team} (hR : Runs s k str c t) {us : List (Nat × Bool)} (h : Clean s us) :
    c.sc.checks us = none := by
  rw [← h]; simp only [State.sc, State.scalar, hR.1, hR.2.1]

theorem reservedModeTrapsIllmode : ReservedModeTrapsIllmode := by
  intro s k str c t w f v hR hw hclean hbad hT
  have hchk : (if f = 8#4 then c.sc.checks [(v.toNat % 32, false)] else none) = none := by
    split
    · next hf => exact clean_checks hR (hclean hf)
    · rfl
  obtain ⟨u, hu, c', rfl, he⟩ : ∃ u, exec (.setm f v) s = .next u ∧ TrapsWith s u k str c 0x02 0 0 0 :=
    runWord_trapsWith (cause := .illMode) hR hT hw (by simp only [runs_asCourse hR, hchk, hbad, Bool.false_eq_true, ↓reduceIte])
      (by decide) (by decide)
  obtain ⟨-, -, hmode, htc, -⟩ := he
  exact ⟨_, c', hu, course_setCourse_same _ _ _, hmode, htc⟩

/-- Reading or writing a handler-only register outside handler mode is refused (R25, R41). -/
theorem specialCheck_priv {c : Course} (hh : c.handler = false) {op n : Nat} {write : Bool} {i : SpecialInfo} (hi : specialInfo n = some i)
    (ho : (write && i.ro) = false) (hp : (if write then i.writePriv else i.readPriv) = true) :
    specialCheck c op n write false = some (.trap .priv 0 0 (tinfoOf op 5 0 0x11).toNat) := by
  simp only [specialCheck, hi, hh, ho, hp]
  rfl

/-- R25's table: TCAUSE to TINFO are read, and HBASE and the monitor words written, by handlers alone. -/
theorem specialInfo_trapRegister {n : Nat} (hn : 0x060 ≤ n ∧ n ≤ 0x065) : ∃ i, specialInfo n = some i ∧ i.readPriv = true := by
  unfold specialInfo
  by_cases h : n = 0x062
  · exact ⟨⟨true, true, true, true⟩, by simp [h], rfl⟩
  · refine ⟨⟨true, true, true, false⟩, ?_, rfl⟩
    repeat rw [if_neg (by omega)]
    exact if_pos hn

theorem specialInfo_handlerWritten {n : Nat} (hn : n = 0x070 ∨ n = 0x071 ∨ (0x100 ≤ n ∧ n ≤ 0x13F)) :
    ∃ i, specialInfo n = some i ∧ i.ro = false ∧ i.writePriv = true := by
  rcases hn with rfl | rfl | hn
  · exact ⟨_, rfl, rfl, rfl⟩
  · exact ⟨_, rfl, rfl, rfl⟩
  · refine ⟨⟨false, false, true, false⟩, ?_, rfl, rfl⟩
    unfold specialInfo
    repeat rw [if_neg (by omega)]
    exact if_pos hn

theorem handlerOnlyRegistersTrapPriv : HandlerOnlyRegistersTrapPriv := by
  intro s k str c t w hR hh hg hT
  refine ⟨fun d n hw hn => ?_, fun a n hw hn => ?_⟩
  · obtain ⟨i, hi, hp⟩ := specialInfo_trapRegister hn
    refine runWord_trapsWith (cause := .priv) hR hT hw ?_ (by decide) (by decide)
    simp only [runs_asCourse hR, hg, specialCheck_priv hh hi (write := false) rfl hp]
    rfl
  · have hn' : n.toNat = 0x070 ∨ n.toNat = 0x071 ∨ (0x100 ≤ n.toNat ∧ n.toNat ≤ 0x13F) :=
      hn.imp (congrArg BitVec.toNat) (Or.imp_left (congrArg BitVec.toNat))
    obtain ⟨i, hi, ho, hp⟩ := specialInfo_handlerWritten hn'
    refine runWord_trapsWith (cause := .priv) hR hT hw ?_ (by decide) (by decide)
    simp only [runs_asCourse hR, hg, specialCheck_priv hh hi (write := true) ho hp]
    rfl

/-- Settles O18. -/
theorem privilegeAndReservedModesTrap : Obligations.PrivilegeAndReservedModesTrap :=
  ⟨reservedModeTrapsIllmode, handlerOnlyRegistersTrapPriv⟩

end Sys2Proof.Machine

/-! # Global stores and atomics (R151-R158) -/

namespace Sys2Proof.Machine

open Sys2Proof Sys2Proof.Spec

@[simp] theorem course?_tick (s : State) (k : Nat) : s.tick.course? k = s.course? k := rfl

/-! ## Keeping a translation changes TLBs alone (R330) -/

/-- What each step of a fold keeps, the fold keeps. -/
theorem foldl_keeps {σ β γ : Type} (g : σ → β → σ) (f : σ → γ) (h : ∀ u b, f (g u b) = f u) (bs : List β) (u : σ) : f (bs.foldl g u) = f u := by
  induction bs generalizing u with
  | nil => rfl
  | cons b bs ih => rw [List.foldl_cons, ih, h]

theorem noteTlb_keeps {γ : Type} (f : State → γ) (h : ∀ u p es, f (State.setTlb u p es) = f u) (s : State) (x : Xlat) (va : Nat) :
    f (s.noteTlb x va) = f s :=
  foldl_keeps _ f (fun _ _ => h ..) _ s

theorem kept_keeps {γ : Type} (f : State → γ) (h : ∀ u p es, f (State.setTlb u p es) = f u) (s : State) (t : Team) (hs : List (Nat × Nat × Nat × Nat)) :
    f (kept s t hs) = f s :=
  foldl_keeps _ f (fun _ _ => noteTlb_keeps f h ..) hs s

@[simp] theorem courses_kept (s : State) (t : Team) (hs : List (Nat × Nat × Nat × Nat)) : (kept s t hs).courses = s.courses :=
  kept_keeps State.courses (fun _ p _ => by cases p <;> rfl) s t hs
@[simp] theorem teams_kept (s : State) (t : Team) (hs : List (Nat × Nat × Nat × Nat)) : (kept s t hs).teams = s.teams :=
  kept_keeps State.teams (fun _ p _ => by cases p <;> rfl) s t hs
@[simp] theorem cur_kept (s : State) (t : Team) (hs : List (Nat × Nat × Nat × Nat)) : (kept s t hs).cur = s.cur :=
  kept_keeps State.cur (fun _ p _ => by cases p <;> rfl) s t hs
@[simp] theorem course?_kept (s : State) (t : Team) (hs : List (Nat × Nat × Nat × Nat)) (k : Nat) : (kept s t hs).course? k = s.course? k := by
  simp only [State.course?, courses_kept]
@[simp] theorem team?_kept (s : State) (t : Team) (hs : List (Nat × Nat × Nat × Nat)) (h : Nat) : (kept s t hs).team? h = s.team? h := by
  simp only [State.team?, teams_kept]

theorem stepOf_setTlb (s : State) (p : TlbPlace) (es : List TlbEntry) (core : Nat) : (s.setTlb p es).stepOf core = s.stepOf core := by
  cases p with
  | core n => rfl
  | quad n => rfl
  | die n =>
    by_cases h : dieOfCore core = n
    · subst h; simp [State.setTlb, State.stepOf, State.modDie]
    · simp [State.setTlb, State.stepOf, State.modDie, die_setDie_other _ _ h]

@[simp] theorem stepOf_kept (s : State) (t : Team) (hs : List (Nat × Nat × Nat × Nat)) (core : Nat) : (kept s t hs).stepOf core = s.stepOf core :=
  kept_keeps (fun u => u.stepOf core) (fun _ _ _ => stepOf_setTlb ..) s t hs

/-! ## R149's sequence when every active lane hits -/

theorem firstCause_allHit (ls : List Nat) (va : Nat → Nat) (at' : Nat → Nat × Nat) :
    firstCause (ls.map fun l => (l, va l, LaneRes.hit (at' l).1 (at' l).2)) = none := by
  simp [firstCause, List.foldl_map]

/-- A load's or an atomic's destination emptied in the active lanes at issue (R149). -/
def emptied (u : State) (k : Nat) (act : Word) (dest : Option (Nat × Bool)) : State :=
  match dest with
  | some (d, w) => u.modCourse k fun c => c.emptyDest act d w
  | none => u

/-- The slot holds the lanes of its store that have still to enter (R22). -/
def Course.holding (c : Course) (str : Bool) (stamp : Nat) (rest : List PendingStore) : Course :=
  c.setSlot str { c.slot str with hold := .entering stamp rest 0#32 }

section
variable {s : State} {k : Nat} {str : Bool} {c : Course} {t : Team}

/-- Every active lane hits, and the allowance rule holds nothing back: what is left is the instruction's own effect. It completes, unless
stores of its lanes are still to enter the buffer. -/
theorem lanesOp_allHit (hR : Runs s k str c t) (ha : c.alwLow = 0#32) {op size : Nat} {act : Word} {addr : Nat → Nat} {kind : AccKind} {ban : Nat → Bool}
    {at' : Nat → Nat × Nat} (hh : AllHit s t act addr size size kind ban op at') {hs : List (Nat × Nat × Nat × Nat)}
    (hhs : hitsOf act addr at' = hs) {s' : State} (hs' : kept s t hs = s') {dest : Option (Nat × Bool)}
    {perform : State → List (Nat × Nat × Nat × Nat) → State ⊕ (State → State)} {u : State} {c' : Course}
    {res : Res} (hp : perform (emptied s' k act dest) hs = .inl u) (hu : u.course? k = some c')
    (hres : ((c'.slot str).hold = .free ∧ res = .done u) ∨
      ∃ st rest left, (c'.slot str).hold = .entering st rest left ∧ res = .stay (u.modCourse k fun c => c.holding str st rest)) :
    s.lanesOp op act addr size size kind false ban dest perform = res := by
  subst hs' hhs
  have hrs : ((lanesOf act).map fun l => (l, addr l, if addr l % size ≠ 0 then LaneRes.fail 0 .align size
      else s.laneCheck t.xlat (addr l) size kind false ban op)) = (lanesOf act).map fun l => (l, addr l, LaneRes.hit (at' l).1 (at' l).2) := by
    refine List.map_congr_left fun l hl => ?_
    obtain ⟨hl, hm⟩ := mem_lanesOf.1 hl
    obtain ⟨hal, hck⟩ := hh l hl hm
    simp only [hal, hck, ne_eq, not_true_eq_false, ↓reduceIte]
  have hmiss : (((lanesOf act).map fun l => (l, addr l, LaneRes.hit (at' l).1 (at' l).2)).filter fun r => decide (r.2.2 = .miss)) = [] := by
    simp
  have hnone : (maskOf fun _ => false) = 0#32 := maskOf_eq_zero fun _ _ => rfl
  have hallow : s.allowed c t.xlat ((lanesOf act).map addr) = true := by simp [State.allowed, ha]
  unfold State.lanesOp
  simp only [runs_asCourse hR, hR.2.2.1, hrs, hallow, firstCause_allHit]
  simp only [hmiss, List.filterMap_map, Function.comp_def, List.filterMap_eq_map', List.any_nil, hnone]
  cases dest
  all_goals
    unfold emptied kept hitsOf at hp
    simp only [Bool.not_true, Bool.false_eq_true, ↓reduceIte, ne_eq, not_true_eq_false, false_and, hp, hu, Option.map_some]
    obtain ⟨hf, rfl⟩ | ⟨st, rest, left, he, rfl⟩ := hres
    · rw [hf]
    · rw [he]; rfl

/-- A memory instruction whose operands are ready goes on to its own rule. -/
theorem memVec_ready (hR : Runs s k str c t) {op : Nat} {uses : List Use} {dest : Option (Nat × Bool)} {body : Nat → Bool → Course → Word → Res}
    (hc : (c.ownBits str (c.active str) dest).checks (c.active str) uses dest = none) :
    s.memVec op true uses dest body = body k str c (c.active str) := by
  simp only [State.memVec, runs_asCourse hR, Bool.not_true, Bool.false_eq_true, ↓reduceIte, hc]

theorem ownBits_none (c : Course) (str : Bool) (act : Word) : c.ownBits str act none = c := by
  unfold Course.ownBits; cases (c.slot str).replay <;> rfl
end

/-! ## Entering the store buffer (R22) -/

@[simp] theorem slot_setEntry (c : Course) (i : Nat) (e : SbEntry) (b : Bool) : (c.setEntry i e).slot b = c.slot b := rfl
@[simp] theorem slot_setEntries (c : Course) (es : List SbEntry) (b : Bool) : (c.setEntries es).slot b = c.slot b := rfl
@[simp] theorem slot_addEntry (c : Course) (e : SbEntry) (b : Bool) : (c.addEntry e).slot b = c.slot b := by
  simp only [Course.addEntry]; split <;> simp

theorem slot_enterHalf {c c' : Course} {n : Nat} {str : Bool} {lanes : Word} {clock step : Nat} {whole : Bool} {p : PendingStore}
    (h : c.enterHalf n str lanes clock step whole p = some c') (b : Bool) : c'.slot b = c.slot b := by
  simp only [Course.enterHalf] at h
  split at h
  · cases h; rfl
  · split at h
    · cases h
    · cases h; exact slot_addEntry ..

theorem slot_enterLane {c c' : Course} {n : Nat} {str : Bool} {lanes : Word} {clock step : Nat} {p : PendingStore}
    (h : c.enterLane n str lanes clock step p = some c') (b : Bool) : c'.slot b = c.slot b := by
  have fold (hs : List PendingStore) (o : Option Course) (ho : ∀ x, o = some x → x.slot b = c.slot b) (x : Course)
      (hx : hs.foldl (fun (o : Option Course) h => o.bind fun c => c.enterHalf n str lanes clock step (decide (p.bytes.length = 128)) h) o = some x) :
      x.slot b = c.slot b := by
    induction hs generalizing o with
    | nil => exact ho x hx
    | cons q hs ih =>
      refine ih _ (fun y hy => ?_) hx
      obtain ⟨z, hz, hq⟩ := Option.bind_eq_some_iff.1 hy
      rw [slot_enterHalf hq, ho z hz]
  exact fold _ (some c) (fun x hx => by cases hx; rfl) c' h

/-- Entering lanes moves no slot. -/
theorem slot_enterLanes (c : Course) (n : Nat) (str : Bool) (lanes : Word) (clock step : Nat) (ps : List PendingStore) (b : Bool) :
    (c.enterLanes n str lanes clock step ps).1.slot b = c.slot b := by
  induction ps generalizing c with
  | nil => rfl
  | cons p ps ih =>
    simp only [Course.enterLanes]
    split
    · next h => rw [ih, slot_enterLane h]
    · rfl

section
variable {s : State} {k : Nat} {str : Bool} {c : Course} {t : Team}

theorem versionFull_unversioned (s : State) {t : Team} (hv : t.version = none) (pas : List Nat) : s.versionFull t pas = false := by
  simp [State.versionFull, State.overDies, hv]

theorem versionBans_unversioned {t : Team} (hv : t.version = none) : versionBans t = fun _ => false := by
  funext pa; simp [versionBans, hv]

theorem enterStores_unversioned (hc : s.course? k = some c) (ht : s.team? (k / 16) = some t) (hv : t.version = none) (ps : List PendingStore)
    (pas : List Nat) {e : Course} {rest : List PendingStore}
    (he : c.enterLanes s.fresh str (c.slotLanes str) (s.core t.core).clock (s.stepOf t.core) ps = (e, rest)) :
    s.enterStores k str ps pas = .inl (s.setCourse k (if rest = [] then e else e.holding str s.fresh rest)).tick := by
  simp only [State.enterStores, hc, ht, versionFull_unversioned s hv, Bool.false_eq_true, ↓reduceIte, he]
  cases rest with
  | nil => rfl
  | cons p ps => rfl

/-- R22: a store whose active lanes all hit: its lanes enter in order, and it completes once all have. -/
theorem storeOp_allHit (hR : Runs s k str c t) {r : StoreRow} {a : Nat} {more : List Use} {addr : Course → Nat → Nat → Nat}
    {flag : Course → Nat → Nat → Option FlagInfo} (hreads : r.reads = [⟨a, .n64, 13⟩, ⟨r.d, r.dty, 15⟩] ++ more)
    (haddr : r.addr = fun l => addr c l (c.src .n64 a l)) (hflag : r.flag = flag c)
    (hty : r.types = true) (hr : Ready c (c.active str) r.reads []) (ha : c.alwLow = 0#32) (hf : (c.slot str).hold = .free) (hv : t.version = none)
    {at' : Nat → Nat × Nat} (hh : AllHit s t (c.active str) r.addr r.size r.size .store (fun _ => false) r.op at')
    {hs : List (Nat × Nat × Nat × Nat)} (hhs : hitsOf (c.active str) r.addr at' = hs) {s' : State} (hs' : kept s t hs = s')
    {e : Course} {rest : List PendingStore}
    (he : c.enterLanes s'.fresh str (c.slotLanes str) (s'.core t.core).clock (s'.stepOf t.core) (hs.map (storeLane c t r)) = (e, rest)) :
    s.storeOp r.op r.d a r.types r.dty more addr r.size r.kind r.scope r.banAll flag =
      if rest = [] then .done (s'.setCourse k e).tick
      else .stay ((s'.setCourse k (e.holding str s'.fresh rest)).tick.modCourse k fun c => c.holding str s'.fresh rest) := by
  have hck : (c.ownBits str (c.active str) none).checks (c.active str) ([⟨a, .n64, 13⟩, ⟨r.d, r.dty, 15⟩] ++ more) none = none := by
    rw [ownBits_none, ← hreads]; exact ready_checks_sources hr
  have hc' : s'.course? k = some c := by rw [← hs', course?_kept]; exact hR.2.1
  have ht' : s'.team? (k / 16) = some t := by rw [← hs', team?_kept]; exact hR.2.2.1
  have hent := enterStores_unversioned (pas := hs.map fun h => h.2.2.1) hc' ht' hv _ he
  have hslot : (e.slot str).hold = .free := by
    have h := slot_enterLanes c s'.fresh str (c.slotLanes str) (s'.core t.core).clock (s'.stepOf t.core) (hs.map (storeLane c t r)) str
    rw [he] at h
    rw [h, hf]
  unfold State.storeOp
  rw [hty, memVec_ready hR hck]
  simp only [hf, hR.2.2.1, hv, Option.isSome_none, Bool.and_false, versionBans_unversioned hv, ← haddr, ← hflag]
  refine lanesOp_allHit hR ha hh hhs hs' (dest := none) (hent) ((course?_tick ..).trans (course_setCourse_same ..)) ?_
  cases rest with
  | nil => exact .inl ⟨hslot, rfl⟩
  | cons p ps => exact .inr ⟨_, _, _, congrArg Slot.hold (slot_setSlot_same ..), rfl⟩
end

/-- The six stores (R151-R154, R158) are one operation, with the row of the instruction. -/
theorem exec_store {s : State} {k : Nat} {str : Bool} {c : Course} {t : Team} (hR : Runs s k str c t) {i : Instr} {r : StoreRow}
    (hrow : storeRow c i = some r) :
    ∃ a more addr flag, r.reads = [⟨a, .n64, 13⟩, ⟨r.d, r.dty, 15⟩] ++ more ∧ r.addr = (fun l => addr c l (c.src .n64 a l)) ∧ r.flag = flag c ∧
      exec i s = s.runWord i (s.storeOp r.op r.d a r.types r.dty more addr r.size r.kind r.scope r.banAll flag) := by
  have het := runs_et hR
  cases i
  case st | stn | stx | strel | stsc | flagw =>
    delta exec execSt execStn execStx execStrel execStsc execFlagw
    simp only [het]
    cases hrow
    exact ⟨_, _, _, _, rfl, rfl, rfl, rfl⟩
  all_goals exact nomatch hrow

/-- R22: what a store's word does, once its translations, its hits and what of its lanes entered have names. -/
theorem exec_store_allHit {s : State} {k : Nat} {str : Bool} {c : Course} {t : Team} {i : Instr} {w : Word} {r : StoreRow} {at' : Nat → Nat × Nat}
    (hR : Runs s k str c t) (hw : Passes s i w) (hrow : storeRow c i = some r) (hty : r.types = true) (hr : Ready c (c.active str) r.reads [])
    (ha : c.alwLow = 0#32) (hf : (c.slot str).hold = .free) (hv : t.version = none)
    (hh : AllHit s t (c.active str) r.addr r.size r.size .store (fun _ => false) r.op at')
    {hs : List (Nat × Nat × Nat × Nat)} (hhs : hitsOf (c.active str) r.addr at' = hs) {s' : State} (hs' : kept s t hs = s')
    {e : Course × List PendingStore}
    (he : c.enterLanes s'.fresh str (c.slotLanes str) (s'.core t.core).clock (s'.stepOf t.core) (hs.map (storeLane c t r)) = e) :
    (e.2 = [] → exec i s = .next (finished s (s'.setCourse k e.1).tick w)) ∧
    (e.2 ≠ [] → exec i s =
      .next ((s'.setCourse k (e.1.holding str s'.fresh e.2)).tick.modCourse k fun c => c.holding str s'.fresh e.2)) := by
  obtain ⟨a, more, addr, flag, hreads, haddr, hflag, hx⟩ := exec_store hR hrow
  rw [hx, storeOp_allHit hR hreads haddr hflag hty hr ha hf hv hh hhs hs' he]
  refine ⟨fun h => ?_, fun h => ?_⟩
  · rw [if_pos h, runWord_done (runs_curRuns hR) hw.1 hw.2, finished, counted]
  · rw [if_neg h, runWord_stay (runs_curRuns hR) hw.1 hw.2]

/-- The half of O28 about stores. -/
theorem globalStoresComplete : GlobalStoresComplete :=
  fun _ _ _ _ _ _ _ _ _ hR hw hrow hty hr ha hf hv hh => exec_store_allHit hR hw hrow hty hr ha hf hv hh rfl rfl rfl

/-! ## The checks of a re-executed instruction (R168) -/

@[simp] theorem sc_mapLanes (c : Course) (f : Nat → Lane → Lane) : (c.mapLanes f).sc = c.sc := by simp only [Course.mapLanes]
@[simp] theorem slot_mapLanes (c : Course) (f : Nat → Lane → Lane) (b : Bool) : (c.mapLanes f).slot b = c.slot b := by
  simp only [Course.mapLanes, Course.slot]

/-- c' is c with full bits set, and nothing else of what the operand checks read changed. -/
def FillsOnly (c c' : Course) : Prop :=
  c'.sc = c.sc ∧ ∀ l, l < 32 → (c'.lane l).qPoison = (c.lane l).qPoison ∧ (c'.lane l).nPoison = (c.lane l).nPoison ∧
    ∀ i, (c.lane l).fe.getLsbD i = true → (c'.lane l).fe.getLsbD i = true

theorem fillsOnly_refl (c : Course) : FillsOnly c c := ⟨rfl, fun _ _ => ⟨rfl, rfl, fun _ => id⟩⟩

theorem FillsOnly.trans {a b c : Course} (h : FillsOnly a b) (h' : FillsOnly b c) : FillsOnly a c := by
  obtain ⟨hsc, hl⟩ := h
  obtain ⟨hsc', hl'⟩ := h'
  refine ⟨hsc'.trans hsc, fun l hlt => ?_⟩
  obtain ⟨hq, hn, hf⟩ := hl l hlt
  obtain ⟨hq', hn', hf'⟩ := hl' l hlt
  exact ⟨hq'.trans hq, hn'.trans hn, fun i hi => hf' i (hf i hi)⟩

theorem fe_full {x : Lane} {k i : Nat} (h : x.fe.getLsbD i = true) : (x.full k).fe.getLsbD i = true := by
  simp [Lane.full, h]

theorem fillsOnly_arriveFail (c : Course) (l k : Nat) (wide : Bool) : FillsOnly c (c.arriveFail l k wide) := by
  unfold Course.arriveFail
  refine ⟨sc_mapLanes .., fun j hj => ?_⟩
  rw [lane_mapLanes c _ hj]
  split
  · split
    · exact ⟨rfl, rfl, fun _ h => fe_full (fe_full h)⟩
    · exact ⟨rfl, rfl, fun _ h => fe_full h⟩
  · exact ⟨rfl, rfl, fun _ => id⟩

theorem fillsOnly_ownBits (c : Course) (str : Bool) (act : Word) (dest : Option (Nat × Bool)) : FillsOnly c (c.ownBits str act dest) := by
  have fold (d : Nat) (w : Bool) (ls : List Nat) (b : Course) (hb : FillsOnly c b) :
      FillsOnly c (ls.foldl (fun c l => c.arriveFail l d w) b) := by
    induction ls generalizing b with
    | nil => exact hb
    | cons l ls ih => rw [List.foldl_cons]; exact ih _ (hb.trans (fillsOnly_arriveFail ..))
  unfold Course.ownBits
  split
  · exact fold _ _ _ _ (fillsOnly_refl c)
  · exact fillsOnly_refl c

theorem FillsOnly.isEmpty {c c' : Course} (h : FillsOnly c c') {wide : Bool} {code l : Nat} (hl : l < 32) (he : c.isEmpty wide code l = false) :
    c'.isEmpty wide code l = false := by
  obtain ⟨-, -, hf⟩ := h.2 l hl
  simp only [Course.isEmpty, Bool.and_eq_false_iff, Bool.or_eq_false_iff, Bool.not_eq_false'] at he ⊢
  exact he.imp_right fun ⟨h1, h2⟩ => ⟨hf _ h1, h2.imp_right (hf _)⟩

theorem FillsOnly.isPoisoned {c c' : Course} (h : FillsOnly c c') {l : Nat} (hl : l < 32) (wide : Bool) (code : Nat) :
    c'.isPoisoned wide code l = c.isPoisoned wide code l := by
  obtain ⟨hq, hn, -⟩ := h.2 l hl
  simp only [Course.isPoisoned, hq, hn, h.1]

theorem FillsOnly.ready {c c' : Course} (h : FillsOnly c c') {m : Word} {us : List Use} {ds : List (Nat × Bool)} (hr : Ready c m us ds) :
    Ready c' m us ds := by
  intro l hl hm
  obtain ⟨hu, hd⟩ := hr l hl hm
  refine ⟨fun u hm => ?_, fun d hm => h.isEmpty hl (hd d hm)⟩
  obtain ⟨he, hp⟩ := hu u hm
  exact ⟨h.isEmpty hl he, (h.isPoisoned hl ..).trans hp⟩

/-! ## The groups of an atomic (R156) -/

/-- Two folds agree when their steps agree where an invariant of the second holds. -/
theorem foldl_congr_of_invariant {σ β : Type} (P : σ → Prop) {f g : σ → β → σ} (hfg : ∀ u b, P u → f u b = g u b) (hP : ∀ u b, P u → P (g u b))
    (bs : List β) {u : σ} (hu : P u) : bs.foldl f u = bs.foldl g u := by
  induction bs generalizing u with
  | nil => rfl
  | cons b bs ih => rw [List.foldl_cons, List.foldl_cons, hfg u b hu, ih (hP u b hu)]

theorem sendGroups_keeps {γ : Type} (f : State → γ) (h : ∀ u x, f (State.send u x) = f u) (u s : State) (k : Nat) (str : Bool) (c : Course) (t : Team)
    (r : AtomRow) (gs : List (Nat × List (Nat × Nat × Nat × Nat))) : f (sendGroups u s k str c t r gs) = f u :=
  foldl_keeps _ f (fun _ g => by obtain ⟨_, _ | ⟨_, _⟩⟩ := g <;> [rfl; exact h ..]) gs u

section
variable {s : State} {k : Nat} {str : Bool} {c : Course} {t : Team}

theorem versionFull_emptied (u : State) (k : Nat) (act : Word) (dest : Option (Nat × Bool)) (t : Team) (pas : List Nat) :
    (emptied u k act dest).versionFull t pas = u.versionFull t pas := by
  cases dest <;> rfl

theorem stepOf_emptied (u : State) (k : Nat) (act : Word) (dest : Option (Nat × Bool)) (core : Nat) :
    (emptied u k act dest).stepOf core = u.stepOf core := by
  cases dest <;> rfl

theorem cur_emptied (u : State) (k : Nat) (act : Word) (dest : Option (Nat × Bool)) : (emptied u k act dest).cur = u.cur := by
  cases dest <;> rfl

theorem slot_emptyDest (c : Course) (act : Word) (d : Nat) (w : Bool) (str : Bool) : (c.emptyDest act d w).slot str = c.slot str := by
  simp only [Course.emptyDest]; split <;> simp only [slot_mapLanes]

theorem course?_emptied {u : State} (hc : u.course? k = some c) (act : Word) (dest : Option (Nat × Bool)) :
    ∃ c', (emptied u k act dest).course? k = some c' ∧ c'.slot str = c.slot str := by
  cases dest with
  | none => exact ⟨c, hc, rfl⟩
  | some d => exact ⟨_, (course_modCourse_same ..).trans (congrArg _ hc), slot_emptyDest ..⟩

end

section
variable {s : State} {k : Nat} {str : Bool} {c : Course} {t : Team}

/-- The destination of an atomic, if it returns a value. -/
abbrev destOf (r : AtomRow) (c : Course) : Option (Nat × Bool) := if r.ret then some (r.d, c.et.wide) else none

/-- The compare value of a returning CAS, which its destination holds (R155). -/
abbrev comparand (r : AtomRow) (c : Course) : List Use := if r.ret && decide (r.p = 7) then [⟨r.d, c.et, 16⟩] else []

/-- A ready atomic passes its operand checks, a parked one's own destination bits being set again (R168). -/
theorem checks_atomic {r : AtomRow} {us : List Use} (hr : Ready c (c.active str) r.reads (if r.ret then [(r.d, c.et.wide)] else [])) (hs : us ⊆ r.reads) :
    (c.ownBits str (c.active str) (destOf r c)).checks (c.active str) us (destOf r c) = none := by
  have hr' := (fillsOnly_ownBits c str (c.active str) (destOf r c)).ready (ready_mono hr hs)
  unfold destOf at hr' ⊢
  cases h : r.ret <;> simp only [h, Bool.false_eq_true, ↓reduceIte] at hr' ⊢
  · exact ready_checks_sources hr'
  · exact ready_checks hr'

/-- R155, R156: an atomic whose active lanes all hit, and whose groups its counter and its version have room for, sends one group for each
address and counts them. -/
theorem atomOp_allHit (hR : Runs s k str c t) {r : AtomRow} {a : Nat}
    (hreads : r.reads = [⟨a, .n64, 13⟩, ⟨r.b, c.et, if r.ret then 14 else 15⟩] ++ comparand r c) (haddr : r.addr = c.src .n64 a)
    (hty : atomEt r.p c.et = true) (hr : Ready c (c.active str) r.reads (if r.ret then [(r.d, c.et.wide)] else [])) (ha : c.alwLow = 0#32)
    (hf : (c.slot str).hold = .free) {at' : Nat → Nat × Nat}
    (hh : AllHit s t (c.active str) r.addr c.et.bytes c.et.bytes .atomic (versionBans t) r.op at')
    {hs : List (Nat × Nat × Nat × Nat)} (hhs : hitsOf (c.active str) r.addr at' = hs) {s' : State} (hs' : kept s t hs = s')
    (hroom : c.counter r.scope + (groupByAddr hs).length ≤ 4095) (hver : s'.versionFull t (hs.map fun h => h.2.2.1) = false) :
    s.atomOp r.op r.p r.d a r.b r.ret r.order r.scope =
      .done ((sendGroups (emptied s' k (c.active str) (destOf r c)) s k str c t r (groupByAddr hs)).modCourse k fun c =>
        c.count r.scope fun n => n + BitVec.ofNat 12 (groupByAddr hs).length) := by
  have hcas : c.checks (c.active str) (comparand r c) none = none :=
    ready_checks_sources (ready_mono hr (hreads ▸ List.subset_append_right ..))
  have hck := checks_atomic hr (hreads ▸ List.subset_append_left ..)
  have hc' : s'.course? k = some c := by rw [← hs', course?_kept]; exact hR.2.1
  obtain ⟨c', hce, hslot⟩ := course?_emptied (str := str) hc' (c.active str) (destOf r c)
  have hcur : (emptied s' k (c.active str) (destOf r c)).cur = s.cur := by rw [cur_emptied, ← hs', cur_kept]
  have hstep : (emptied s' k (c.active str) (destOf r c)).stepOf t.core = s.stepOf t.core := by rw [stepOf_emptied, ← hs', stepOf_kept]
  have hsend : (sendGroups (emptied s' k (c.active str) (destOf r c)) s k str c t r (groupByAddr hs)).course? k = some c' :=
    (sendGroups_keeps (fun u => u.course? k) (fun _ _ => rfl) ..).trans hce
  unfold State.atomOp
  simp only [runs_et hR, hty]
  rw [memVec_ready hR hck]
  simp only [hcas, hR.2.2.1, ← haddr]
  refine lanesOp_allHit hR ha hh hhs hs' ?_ ((course_modCourse_same ..).trans (congrArg _ hsend)) (.inl ⟨(congrArg Slot.hold hslot).trans hf, rfl⟩)
  have hgo : ¬ (4095 < c.counter r.scope + (groupByAddr hs).length ∨
      (emptied s' k (c.active str) (destOf r c)).versionFull t (hs.map fun h => h.2.2.1) = true) := by
    rw [versionFull_emptied, hver]
    exact not_or.2 ⟨Nat.not_lt.2 hroom, Bool.false_ne_true⟩
  refine (if_neg hgo).trans (congrArg (fun u => Sum.inl (State.modCourse u k _)) ?_)
  refine foldl_congr_of_invariant (fun u => u.cur = s.cur ∧ u.stepOf t.core = s.stepOf t.core) (fun u g hu => ?_) (fun u g hu => ?_) _ ⟨hcur, hstep⟩
  · obtain ⟨_, _ | ⟨h, _⟩⟩ := g
    · rfl
    · simp only [hu.1, hu.2]; rfl
  · obtain ⟨_, _ | ⟨h, _⟩⟩ := g
    · exact hu
    · exact hu

/-- The four global atomics (R155) are one operation, with the row of the instruction. -/
theorem exec_atomic (c : Course) {i : Instr} {r : AtomRow} (hrow : atomRow c i = some r) :
    ∃ a, r.reads = [⟨a, .n64, 13⟩, ⟨r.b, c.et, if r.ret then 14 else 15⟩] ++ comparand r c ∧ r.addr = c.src .n64 a ∧
      exec i s = s.runWord i (s.atomOp r.op r.p r.d a r.b r.ret r.order r.scope) := by
  have hp (p : BitVec 3) : p = 7#3 ↔ p.toNat = 7 := by simp [← BitVec.toNat_inj]
  cases i
  case atom | atomar | atomsc | red =>
    cases hrow
    refine ⟨_, ?_, rfl, rfl⟩
    simp only [comparand, hp, Bool.true_and, Bool.false_and, decide_eq_true_eq, Bool.false_eq_true, ↓reduceIte, List.append_nil]
  all_goals exact nomatch hrow

end

/-- R155, R156: what an atomic's word does: its destination is emptied in its active lanes, its groups are sent, and it completes. -/
theorem exec_atomic_allHit {s : State} {k : Nat} {str : Bool} {c : Course} {t : Team} {i : Instr} {w : Word} {r : AtomRow} {at' : Nat → Nat × Nat}
    (hR : Runs s k str c t) (hw : Passes s i w) (hrow : atomRow c i = some r) (hty : atomEt r.p c.et = true)
    (hr : Ready c (c.active str) r.reads (if r.ret then [(r.d, c.et.wide)] else [])) (ha : c.alwLow = 0#32) (hf : (c.slot str).hold = .free)
    (hh : AllHit s t (c.active str) r.addr c.et.bytes c.et.bytes .atomic (versionBans t) r.op at')
    {hs : List (Nat × Nat × Nat × Nat)} (hhs : hitsOf (c.active str) r.addr at' = hs) {s' : State} (hs' : kept s t hs = s')
    (hroom : c.counter r.scope + (groupByAddr hs).length ≤ 4095) (hver : s'.versionFull t (hs.map fun h => h.2.2.1) = false) :
    exec i s = .next (finished s ((sendGroups (emptied s' k (c.active str) (destOf r c)) s k str c t r (groupByAddr hs)).modCourse k fun c =>
      c.count r.scope fun n => n + BitVec.ofNat 12 (groupByAddr hs).length) w) := by
  obtain ⟨a, hreads, haddr, hx⟩ := exec_atomic (s := s) c hrow
  rw [hx, atomOp_allHit hR hreads haddr hty hr ha hf hh hhs hs' hroom hver, runWord_done (runs_curRuns hR) hw.1 hw.2, finished, counted]

/-! ## A course listed twice

The model changes a course in place by its number, in every entry of that number. The statement empties the destination, in each such
entry, in the lanes active there; the model empties it in the lanes active in the course that executes. The two are one for a state that
lists each course once. -/

/-- The full bits of lane 0 of every listed course. -/
def laneZeroFull (u : State) : List Word := u.courses.map fun kv => (kv.2.lane 0).fe

theorem laneZeroFull_modCourse (u : State) (k : Nat) {f : Course → Course} (hf : ∀ c, (f c).lane 0 = c.lane 0) :
    laneZeroFull (u.modCourse k f) = laneZeroFull u := by
  simp only [laneZeroFull, State.modCourse, SMap.modify, List.map_map]
  refine List.map_congr_left fun kv _ => ?_
  simp only [Function.comp_apply]
  split
  · rw [hf]
  · rfl

theorem laneZeroFull_of_courses {u v : State} (h : u.courses = v.courses) : laneZeroFull u = laneZeroFull v := by
  simp only [laneZeroFull, h]

theorem lane_count (c : Course) (scope : Nat) (f : BitVec 12 → BitVec 12) (l : Nat) : (c.count scope f).lane l = c.lane l := by
  simp only [Course.lane, Course.count]

/-- The translations kept, the sends, the count and the completion of an atomic leave the full bits: they are as the emptying of its
destination leaves them. -/
theorem laneZeroFull_atomic {s : State} {k : Nat} {str : Bool} {c : Course} {t : Team} (hR : Runs s k str c t) (hs : List (Nat × Nat × Nat × Nat))
    (f : Course → Course) (r : AtomRow) (gs : List (Nat × List (Nat × Nat × Nat × Nat))) (n : BitVec 12 → BitVec 12) (w : Word) :
    laneZeroFull (finished s ((sendGroups ((kept s t hs).modCourse k f) s k str c t r gs).modCourse k fun c => c.count r.scope n) w) =
      laneZeroFull (s.modCourse k f) := by
  obtain ⟨hcur, -, hteam, -, -⟩ := hR
  obtain ⟨q, m, y, h⟩ := finished_of_course (s := s)
    (u := (sendGroups ((kept s t hs).modCourse k f) s k str c t r gs).modCourse k fun c => c.count r.scope n)
    ((sendGroups_keeps State.cur (fun _ _ => rfl) ..).trans ((cur_kept ..).trans hcur))
    ((team?_modCourse ..).trans ((sendGroups_keeps (fun v => v.team? (k / 16)) (fun _ _ => rfl) ..).trans
      ((team?_modCourse ..).trans ((team?_kept ..).trans hteam)))) w
  have hadd (u : State) : laneZeroFull ((u.addCharge q m).modTeam (k / 16) Team.oneMore) = laneZeroFull u := rfl
  have hsend : (sendGroups ((kept s t hs).modCourse k f) s k str c t r gs).courses = (s.modCourse k f).courses :=
    (sendGroups_keeps State.courses (fun _ _ => rfl) ..).trans (congrArg (SMap.modify · k f) (courses_kept ..))
  rw [h, laneZeroFull_modCourse _ _ fun _ => lane_onNext .., laneZeroFull_modCourse _ _ fun _ => lane_charged .., hadd,
    laneZeroFull_modCourse _ _ fun _ => lane_count .., laneZeroFull_of_courses hsend]

/-- The word of ATOM to n1. -/
abbrev atomWord : Word := 0x8C441098#32

/-- The course of the word's place, and it again with lane 3 alone in its mask. -/
abbrev fullCourse : Course := placedCourse (opOf atomWord)
abbrev laneCourse : Course := { fullCourse with header := { fullCourse.header with mask := 8#32 } }

/-- Course 0 listed twice: with lane 3 alone, as it executes, and again with 32 lanes. -/
def listedTwice : State := { State.reset.place atomWord with agenda := [], cur := .course 0 false, courses := [(0, laneCourse), (0, fullCourse)] }

/-- Emptying n1 in lane 3, and in the lanes of each entry, are not one in this state. -/
theorem emptied_listedTwice : laneZeroFull (listedTwice.modCourse 0 fun c => c.emptyDest (laneCourse.active false) 17 laneCourse.et.wide) ≠
    laneZeroFull (listedTwice.modCourse 0 fun c => c.emptyDest (c.active false) 17 c.et.wide) := by decide

theorem runs_listedTwice : Runs listedTwice 0 false laneCourse (placedTeam (opOf atomWord)) := ⟨rfl, rfl, rfl, rfl, by decide⟩

theorem passes_listedTwice : Passes listedTwice (.atom 17#6 1#6 2#6 3#3 0#3) atomWord := ⟨rfl, rfl⟩

theorem allHit_listedTwice : AllHit listedTwice (placedTeam (opOf atomWord)) (laneCourse.active false) (laneCourse.src .n64 1) 4 4 .atomic
    (versionBans (placedTeam (opOf atomWord))) 0x8C fun _ => (0, 0x1F) := by
  unfold AllHit; decide

/-- Refutes O28: of a course listed twice under one number the statement empties the destination, in the second entry, in the lanes active
there, as its `c` is the entry's course; the model empties it in the active lanes of the course that executes. The half of the stores holds
(`globalStoresComplete`), and `exec_atomic_allHit` is the half of the atomics with the lanes of the executing course. -/
theorem not_globalStoresAndAtomicsComplete : ¬ Obligations.GlobalStoresAndAtomicsComplete := by
  intro h
  have hstated := h.2 listedTwice 0 false laneCourse (placedTeam (opOf atomWord)) _ atomWord _ (fun _ => (0, 0x1F)) runs_listedTwice
    passes_listedTwice rfl rfl (by decide) rfl rfl allHit_listedTwice (by decide) (versionFull_unversioned _ rfl _)
  rw [exec_atomic_allHit runs_listedTwice passes_listedTwice rfl rfl (by decide) rfl rfl allHit_listedTwice rfl rfl (by decide)
    (versionFull_unversioned _ rfl _)] at hstated
  have hfull := congrArg laneZeroFull (Host.Outcome.next.inj hstated)
  exact emptied_listedTwice ((laneZeroFull_atomic runs_listedTwice ..).symm.trans (hfull.trans (laneZeroFull_atomic runs_listedTwice ..)))

end Sys2Proof.Machine

/-! # A store that sets SCCLK -/

namespace Sys2Proof.Machine

open Sys2Proof Sys2Proof.Spec

/-! ## An SC store whose time reaches 2^49 (R264, R416) -/

/-- An SC store of one lane on its core's write path, that left its buffer when the core's clock was one short of 2^49 (R262). -/
def lateScStore : PathWrite :=
  { owner := .course 0 false, pa := 0, va := 0, bytes := [some 1#8], kind := 3#4, scope := 0, ts := 2 ^ 49, flag := none, issue := 0, snap := none,
    step := 0, keyId := 0, whole := false, parts := [{ lane := 0, off := 0, bytes := [1#8], flag := none }], sent := false, landed := false }

/-- The wall as after reset, but for that core. -/
def lateScState : State :=
  { State.reset with cores := [(0, { Core.init with clock := 2 ^ 49 - 1, path := [(0, .write lateScStore)] })], fresh := 1 }

theorem lateScStore_mayPerform : MayPerform lateScState 0 0 lateScStore := by decide

/-- Its time passes no bound that halts SC issue. -/
theorem lateScStore_time : lateScState.scTime 0 (lateScState.scStart 0 (2 ^ 49)) false < 2 ^ 50 := by decide

/-- Performing it writes SCCLK in the event word of the core's die. -/
theorem lateScStore_setsScclk {u : State} (h : exec (.homeWritePerform 0 0) lateScState = .next u) : u.dev = [(regPa 0 0, 4#32)] := by
  cases h; decide

/-- Refutes O47: the statement keeps the device registers through every write performed in its package, but an SC store that takes its core's
clock to 2^49 sets SCCLK in the die's event word (R264, R416). -/
theorem not_storesReachMemory : ¬ Obligations.StoresReachMemory := by
  intro h
  obtain ⟨-, -, hperform, -⟩ := h
  obtain ⟨u, hu, -, -, -, -, -, hdev, -⟩ := hperform lateScState 0 0 lateScStore lateScStore_mayPerform ⟨rfl, rfl⟩ rfl (.inr rfl) fun _ => lateScStore_time
  exact absurd ((lateScStore_setsScclk hu).symm.trans hdev) (by decide)

end Sys2Proof.Machine

/-! # Instruction words (R29, R39, R43, R44) -/

namespace Sys2Proof.Machine

open Sys2Proof Sys2Proof.Spec

/-! ## The row of an instruction's own word -/

/-- The opcode, bits 31 to 24 of the word, selects the instruction's row, and each field read out of the word is the one put in. A step that
is no instruction word has none. -/
theorem build_encode {i : Instr} {w : Word} (h : encode i = some w) : build w = some i := by
  delta build
  generalize hop : (w.extractLsb' 24 8).toNat = op
  cases i <;> cases h
  all_goals
    simp (disch := decide) only [BitVec.extractLsb'_append_eq_of_le, BitVec.extractLsb'_eq_self, Nat.reduceSub, BitVec.reduceExtractLsb',
      BitVec.reduceToNat] at hop
    subst hop
  -- a word without fields
  case nop | yield | eret | join | ret | mend => rfl
  -- an opcode whose form bits select the row
  case exit | exitSaved | rdxwWait | rdxwSeq | rdxwSet | mbwVector | mbwGroup | mbrVector | mbrGroup | mli | mliH | gli | gliH | mjoinVector |
      mjoinGroup | snapArm | snapCancel | snapLoad | migrCpy | migrEnd | pendBind | pendImp =>
    change ite _ _ _ = _
    simp (disch := decide) only [BitVec.extractLsb'_append_eq_of_le, BitVec.extractLsb'_append_eq_of_add_le, BitVec.extractLsb'_eq_self, Nat.reduceSub,
      BitVec.reduceExtractLsb', BitVec.reduceEq, ↓reduceIte]
  -- an opcode of one row
  all_goals
    change some _ = _
    simp (disch := decide) only [BitVec.extractLsb'_append_eq_of_le, BitVec.extractLsb'_append_eq_of_add_le, BitVec.extractLsb'_eq_self, Nat.reduceSub]

/-- Decoding and encoding are inverse on the well-formed instructions. -/
theorem decode_eq_ok_iff {w : Word} {i : Instr} : decode w = .ok i ↔ i.wf = true ∧ encode i = some w := by
  constructor
  · intro h
    unfold decode at h
    split at h
    · cases h
    · split at h
      · next he =>
        split at h
        · next hwf => cases h; exact ⟨hwf, he⟩
        · cases h
      · cases h
  · rintro ⟨hwf, he⟩
    simp only [decode, build_encode he, he, hwf, ↓reduceIte]

/-- Settles O1. -/
theorem decodeEncodeAgree : Obligations.DecodeEncodeAgree := fun _ _ hwf he => decode_eq_ok_iff.2 ⟨hwf, he⟩

/-- Settles O2. -/
theorem decodedWordIsTheInstructionsWord : Obligations.DecodedWordIsTheInstructionsWord := fun _ _ => decode_eq_ok_iff.1

/-- Settles O3: decoding evaluates on each word. -/
theorem specsOwnWordsDecode : Obligations.SpecsOwnWordsDecode := ⟨rfl, rfl, rfl, rfl, rfl, rfl, rfl, rfl, rfl⟩

/-! ## Words that decode to nothing -/

/-- The ten gaps of R43's opcodes. -/
theorem unassignedOpcode_gap : ∀ op < 256, assignedOpcode op = false → 0x36 ≤ op ∧ op ≤ 0x3F ∨ 0x58 ≤ op ∧ op ≤ 0x5F ∨ 0x68 ≤ op ∧ op ≤ 0x6F ∨
    0x7F ≤ op ∧ op ≤ 0x7F ∨ 0x94 ≤ op ∧ op ≤ 0x9F ∨ 0xA7 ≤ op ∧ op ≤ 0xAF ∨ 0xB2 ≤ op ∧ op ≤ 0xBF ∨ 0xCE ≤ op ∧ op ≤ 0xCF ∨
    0xEB ≤ op ∧ op ≤ 0xEF ∨ 0xF9 ≤ op ∧ op ≤ 0xFF := by
  simp only [assignedOpcode, Bool.or_eq_false_iff, Bool.and_eq_false_iff, decide_eq_false_iff_not]
  omega

theorem build_unassigned {w : Word} (h : assignedOpcode (w.extractLsb' 24 8).toNat = false) : build w = none := by
  have hgap := unassignedOpcode_gap _ (w.extractLsb' 24 8).isLt h
  clear h
  delta build
  generalize (w.extractLsb' 24 8).toNat = op at hgap
  rcases hgap with h | h | h | h | h | h | h | h | h | h
  all_goals
    obtain ⟨hlow, hhigh⟩ := h
    interval_cases op <;> rfl

theorem unassignedOpcodesDecodeToNothing : UnassignedOpcodesDecodeToNothing := by
  intro w h
  simp only [decode, build_unassigned h, h, Bool.false_eq_true, ↓reduceIte]

theorem illegalWordTraps : IllegalWordTraps := by
  intro s w ca ti hP h39
  change execIllegalInstructionWord w s = _
  simp only [execIllegalInstructionWord, show s.curRuns = true from hP, h39, Bool.not_true, Bool.false_eq_true, ↓reduceIte]

/-- Settles O4. -/
theorem unassignedAndIllegalWordsTrap : Obligations.UnassignedAndIllegalWordsTrap := ⟨unassignedOpcodesDecodeToNothing, illegalWordTraps⟩

end Sys2Proof.Machine

/-! # MODE and the special registers (R24, R25, R117-R125) -/

namespace Sys2Proof.Machine

open Sys2Proof Sys2Proof.Spec

section
variable {s : State} {k : Nat} {str : Bool} {c : Course} {t : Team} {w : Word}

/-- A word whose rule completes leaves the rule's effect, counted, and its PC on the next word. -/
theorem runWord_finished {i : Instr} {rule : Res} {u : State} (hP : Present s) (hw : Passes s i w) (h : rule = .done u) :
    s.runWord i rule = .next (finished s u w) := by
  subst h
  exact runWord_done hP hw.1 hw.2

/-! ## NOP, YIELD, SETM, GETM and GSR -/

theorem exec_nop (hP : Present s) (hw : Passes s .nop w) : exec .nop s = .next (finished s s w) := runWord_finished hP hw rfl

theorem exec_yield (hP : Present s) (hw : Passes s .yield w) : exec .yield s = .next (finished s s w) := runWord_finished hP hw rfl

theorem exec_setm (hR : Runs s k str c t) {f : BitVec 4} {v : BitVec 14} (hw : Passes s (.setm f v) w)
    (hclean : f = 8#4 → Clean s [(v.toNat % 32, false)]) (hok : modeOk (setModeField c f.toNat v.toNat) = true) :
    exec (.setm f v) s = .next (finished s (s.setCourse k { c with mode := BitVec.ofNat 32 (setModeField c f.toNat v.toNat) }) w) := by
  have hchk : (if f = 8#4 then c.sc.checks [(v.toNat % 32, false)] else none) = none := by
    split
    · next hf => exact clean_checks hR (hclean hf)
    · rfl
  exact runWord_finished (runs_curRuns hR) hw (by simp only [runs_asCourse hR, hchk, hok, ↓reduceIte])

theorem exec_getm (hR : Runs s k str c t) {d : BitVec 6} (hw : Passes s (.getm d) w) :
    exec (.getm d) s = .next (finished s (s.gdst false d.toNat c.mode.toNat) w) :=
  runWord_finished (runs_curRuns hR) hw (runs_asCourse hR _)

/-- R124's checks pass a register that the access may reach. -/
theorem specialCheck_mayAccess {n : Nat} {write wide : Bool} (h : MayAccess c n write wide) (op : Nat) : specialCheck c op n write wide = none := by
  obtain ⟨i, hi, hlow, hro, hpriv⟩ := h
  have hwide : (wide && !i.low) = false := by
    cases wide
    · rfl
    · simp [hlow rfl]
  have hwrite : (write && i.ro) = false := by
    cases write
    · rfl
    · simp [hro rfl]
  have hallowed : (!c.handler && (if write then i.writePriv else i.readPriv)) = false := by
    rcases hpriv with h | h <;> simp [h]
  simp only [specialCheck, hi, hwide, hwrite, hallowed, Bool.false_eq_true, ↓reduceIte]

theorem exec_gsr (hR : Runs s k str c t) {d : BitVec 6} {n : BitVec 12} (hw : Passes s (.gsr d n) w) (ha : MayAccess c n.toNat false c.gt.wide) :
    exec (.gsr d n) s = .next (finished s (s.tick.gdst c.gt.wide d.toNat
      (s.special t c n.toNat + if c.gt.wide then 2 ^ 32 * s.special t c (n.toNat + 1) else 0)) w) := by
  obtain ⟨-, -, ht, -⟩ := id hR
  exact runWord_finished (runs_curRuns hR) hw (by simp only [runs_asCourse hR, specialCheck_mayAccess ha, ht])

/-! ## GSW -/

/-- A GSW that may reach its register, its source unpoisoned, answers as the register's write does (R125). -/
theorem exec_gsw (hR : Runs s k str c t) {a : BitVec 6} {n : BitVec 12} (ha : MayAccess c n.toNat true c.gt.wide)
    (hclean : Clean s [(a.toNat, c.gt.wide)]) :
    exec (.gsw a n) s = s.runWord (.gsw a n) (s.setSpecial k n.toNat (c.sc.src c.gt.wide a.toNat) c.gt.wide) := by
  refine congrArg (s.runWord (.gsw a n)) ?_
  simp only [runs_asCourse hR, specialCheck_mayAccess ha, clean_checks hR hclean]
end

theorem modeAndSpecialRegisterInstructionsComplete : ModeAndSpecialRegisterInstructionsComplete := by
  refine ⟨fun _ _ => exec_nop, fun _ _ => exec_yield, fun s k str c t w hR => ⟨fun _ _ => exec_setm hR, fun _ => exec_getm hR,
    fun _ _ => exec_gsr hR, fun a n u hw ha hclean hu => ?_⟩⟩
  rw [exec_gsw hR ha hclean]
  exact runWord_finished (runs_curRuns hR) hw hu

/-- A 32-bit group source is its register's word. -/
theorem src_narrow {x : Scalar} {a : Nat} (ha : a < 32) : x.src false a = (x.reg a).toNat := by
  simp [Scalar.src, Scalar.read, ha]

section
variable (s : State) (k : Nat) (v : Word)

theorem setSpecial_fpflags : s.setSpecial k 0x010 v.toNat false = .done (s.modCourse k fun c => { c with fpflags := v.setWidth 5 }) := by
  simp only [State.setSpecial, BitVec.ofNat_toNat]

theorem setSpecial_srSeedV : s.setSpecial k 0x011 v.toNat false =
    .done (s.modCourse k fun c => { c with srSeedV := if v = 0#32 then 1#32 else v }) := by
  simp only [State.setSpecial, BitVec.ofNat_toNat, BitVec.setWidth_eq]

theorem setSpecial_alwLow : s.setSpecial k 0x040 v.toNat false = .done (s.modCourse k fun c => { c with alwLow := v }) := by
  simp only [State.setSpecial, BitVec.ofNat_toNat, BitVec.setWidth_eq]

theorem setSpecial_splitSp : s.setSpecial k 0x080 v.toNat false =
    if v.toNat % 16 ≠ 0 then .trap .align 0 0 16 else .done (s.modCourse k fun c => { c with splitSp := v }) := by
  simp only [State.setSpecial, BitVec.ofNat_toNat, BitVec.setWidth_eq]

theorem setSpecial_hbaseLow : s.setSpecial k 0x070 v.toNat false =
    if v.toNat % 4 ≠ 0 then .trap .align 0 0 4
    else .done (s.modCourse k fun c => { c with hbase := BitVec.ofNat 64 (c.hbase.toNat / 2 ^ 32 * 2 ^ 32 + v.toNat) }) := by
  simp only [State.setSpecial, Nat.mod_eq_of_lt v.isLt, Bool.false_eq_true, ↓reduceIte]

theorem setSpecial_hbaseHigh : s.setSpecial k 0x071 v.toNat false =
    .done (s.modCourse k fun c => { c with hbase := BitVec.ofNat 64 (c.hbase.toNat % 2 ^ 32 + v.toNat * 2 ^ 32) }) := by
  simp only [State.setSpecial, Nat.mod_eq_of_lt v.isLt]
end

theorem gswWritesTheNamedRegister : GswWritesTheNamedRegister := by
  intro s k str c t w a n hR hw hacc hclean hg v ha
  have hP := runs_curRuns hR
  have hx := exec_gsw hR hacc hclean
  rw [hg, src_narrow ha] at hx
  have hdone {u : State} (h : s.setSpecial k n.toNat v.toNat false = .done u) : exec (.gsw a n) s = .next (finished s u w) :=
    hx.trans (runWord_finished hP hw h)
  have htrap {ti : Nat} (h : s.setSpecial k n.toNat v.toNat false = .trap .align 0 0 ti) :
      exec (.gsw a n) s = .next (s.takeTrap .align 0 0 ti) := by
    rw [hx, h]
    exact runWord_trap hP hw.1 hw.2
  refine ⟨?_, ?_, ?_, ?_, ?_, ?_, ?_, ?_⟩
  all_goals rintro rfl
  · exact hdone (setSpecial_fpflags ..)
  · exact hdone (setSpecial_srSeedV ..)
  · exact hdone (setSpecial_alwLow ..)
  · exact fun hv => hdone ((setSpecial_splitSp ..).trans (if_neg (not_not.2 hv)))
  · exact fun hv => htrap ((setSpecial_splitSp ..).trans (if_pos hv))
  · exact fun hv => hdone ((setSpecial_hbaseLow ..).trans (if_neg (not_not.2 hv)))
  · exact hdone (setSpecial_hbaseHigh ..)
  · exact fun hv => htrap ((setSpecial_hbaseLow ..).trans (if_pos hv))

/-- Settles O17. -/
theorem modeAndSpecialRegistersComplete : Obligations.ModeAndSpecialRegistersComplete :=
  ⟨modeAndSpecialRegisterInstructionsComplete, gswWritesTheNamedRegister⟩

end Sys2Proof.Machine

/-! # The word that a step runs (R39, R48, R118, R124) -/

namespace Sys2Proof.Machine

open Sys2Proof Sys2Proof.Spec

/-! ## A turn in which an agent issues -/

/-- What a turn makes of the answer of the word it has run. -/
def State.wordLeaves (s : State) (a : Agent) (o : Out) : Out :=
  match o with
  | .next t => .next (afterWord s a t)
  | o => o

/-- The four bytes at a translated address of plain memory are the word fetched there. -/
theorem fetchAt_plain {s : State} {x : Xlat} {va pa leaf : Nat} {park : Bool} {b0 b1 b2 b3 : Byte} (ht : s.translate x va .fetch park = .ok pa leaf)
    (hplain : isDevice pa = false) (hclean : s.poisoned pa = false) (hbytes : s.bytesUnder pa 4 (leafKey leaf) = [b0, b1, b2, b3]) :
    s.fetchAt x va park = .word (wordOfBytes b0 b1 b2 b3) := by
  simp only [State.fetchAt, ht, hplain, hclean, hbytes, Bool.false_eq_true, ↓reduceIte]

theorem fetch_atPc {s : State} {a : Agent} {w : Word} (h : AtPc s a w) : s.fetch a = .word w := by
  obtain ⟨x, pa, leaf, b0, b1, b2, b3, hx, ht, hplain, hclean, hbytes, rfl⟩ := h
  unfold State.fetch
  rw [hx]
  exact fetchAt_plain ht hplain hclean hbytes

theorem runFetched_ok {s : State} {w : Word} {i : Instr} (h : decode w = .ok i) : s.runFetched w = exec i s := by
  simp only [State.runFetched, h]

/-- An agent that issues runs the word at its PC in the state it sees. -/
theorem issueAlone_word {s : State} {a : Agent} {w : Word} (hi : Issues s a) (hw : AtPc (s.seenBy a) a w) :
    s.issueAlone a = s.wordLeaves a ((s.seenBy a).runFetched w) := by
  obtain ⟨hcur, hmay, hcause, hentry, hdead, hruns⟩ := hi
  have hs : { s with cur := a } = s := by rw [← hcur]
  simp only [State.issueAlone, State.issue, hs, hmay, hcause, hentry, hdead, hruns, fetch_atPc hw, State.issueWord, Bool.not_true, Bool.false_eq_true,
    ↓reduceIte]
  cases (s.seenBy a).runFetched w <;> rfl

theorem step_issue {s : State} {a : Agent} {ts : List Turn} (h : s.agenda = .issue a :: ts) : step s = { s with agenda := ts }.issueAlone a := by
  simp only [step, State.nextTurn, h, State.turn]

/-- When an agent's turn has come, the step is the effect of the instruction at its PC in the state it sees. -/
theorem step_word {s : State} {a : Agent} {ts : List Turn} {w : Word} {i : Instr} (h : s.agenda = .issue a :: ts)
    (hi : Issues { s with agenda := ts, cur := a } a) (hw : AtPc (State.seenBy { s with agenda := ts, cur := a } a) a w) (hd : decode w = .ok i) :
    step s = State.wordLeaves { s with agenda := ts, cur := a } a (exec i (State.seenBy { s with agenda := ts, cur := a } a)) := by
  rw [step_issue h, ← runFetched_ok hd, ← issueAlone_word hi hw]
  rfl

/-! ## A header's GSW of HBASE beside a stretcher of the same handler

The statement looks for the word under the HBASE that the header has written; the model, as R124 has it, fetches the stretcher's word under
the one before. -/

/-- A GLI of g1 to 1. -/
abbrev gliWord : Word := 0xDC040001#32

/-- A course in its handler, lane 0 in the stretcher slot. -/
abbrev splitHandler : Course :=
  { placedCourse (opOf gliWord) with
    handler := true, header := { handlerSlot with mask := 0xFFFFFFFE#32 }, stretcher := { handlerSlot with mask := 1#32 } }

/-- The header's GSW has moved HBASE from 128 KiB, where memory holds NOPs, to 64 KiB, where the GLI stands; the stretcher's turn of the same
cycle comes next, its PC 0. -/
def movedBase : State :=
  { (State.reset.place gliWord).setCourse 0 splitHandler with
    agenda := [.issue (.course 0 true)]
    before := some { key := 0, course := { splitHandler with hbase := 0x20000#64 }, word := 0x08002070#32 } }

/-- The same in the stretcher's turn. -/
def movedTurn : State := { movedBase with agenda := [], cur := .course 0 true }

theorem issues_movedTurn : Issues movedTurn (.course 0 true) := ⟨rfl, by decide +kernel, by decide +kernel, by decide +kernel, by decide +kernel⟩

theorem atPc_movedTurn : AtPc movedTurn (.course 0 true) gliWord :=
  ⟨_, 0x10000, 0x1F, _, _, _, _, rfl, by decide +kernel, by decide +kernel, by decide +kernel, rfl, by decide +kernel⟩

theorem atPc_movedTurn_seen : AtPc (movedTurn.seenBy (.course 0 true)) (.course 0 true) 0#32 :=
  ⟨_, 0x20000, 0x1F, _, _, _, _, rfl, by decide +kernel, by decide +kernel, by decide +kernel, rfl, by decide +kernel⟩

/-- The g1 that an answer leaves in course 0. -/
def g1Of (o : Out) : Option Word :=
  match o with
  | .next t => (t.course? 0).map fun c => c.sc.reg 1
  | _ => none

theorem g1_movedTurn : g1Of (movedTurn.wordLeaves (.course 0 true) (exec .nop (movedTurn.seenBy (.course 0 true)))) ≠
    g1Of (movedTurn.wordLeaves (.course 0 true) (exec (.gli 1#6 1#17) (movedTurn.seenBy (.course 0 true)))) := by decide +kernel

/-- Refutes O5: in a handler of two slots whose header's GSW has just moved HBASE, the statement runs the stretcher's word from the new HBASE;
the model fetches it, as it reads every special register of that cycle, under the old one (R124), where another word stands. With the four bytes
at the PC of the state that the agent sees, the first claim holds (`step_word`). -/
theorem not_stepRunsTheDecodedWord : ¬ Obligations.StepRunsTheDecodedWord := by
  intro h
  obtain ⟨hissue, -⟩ := h
  have hstated := (hissue movedBase _ [] _ rfl issues_movedTurn atPc_movedTurn).1 (.gli 1#6 1#17) rfl
  have hstep := step_word (s := movedBase) (i := .nop) rfl issues_movedTurn atPc_movedTurn_seen rfl
  exact g1_movedTurn (congrArg g1Of (hstep.symm.trans hstated))

end Sys2Proof.Machine

/-! # The vector instructions of a course (R82-R109) -/

namespace Sys2Proof.Machine

open Sys2Proof Sys2Proof.Spec

/-! ## Completion -/

/-- Settles O10, by the delivery of each instruction's row. -/
theorem vectorInstructionsComplete : Obligations.VectorInstructionsComplete := fun _ _ _ _ _ _ _ _ => exec_vecReady

/-! ## What the operand checks answer (R18) -/

/-- The checks of operands never let an instruction complete. -/
theorem checks_ne_done {c : Course} {m : Word} {us : List Use} {dest : Option (Nat × Bool)} {res : Res} (h : c.checks m us dest = some res) (u : State) :
    res ≠ .done u := by
  rintro rfl
  simp only [Course.checks] at h
  repeat' split at h
  all_goals cases h

theorem maskOf_ne_zero {f : Nat → Bool} {l : Nat} (hl : l < 32) (hf : f l = true) : maskOf f ≠ 0#32 := by
  intro h
  have hbit := getLsbD_maskOf f l
  rw [h, hf, BitVec.getLsbD_zero, decide_eq_true hl] at hbit
  cases hbit

/-- Whether some source whose operand slot has the policy is empty in a lane. -/
def Course.emptyUnder (c : Course) (us : List Use) (pol : Bool) (l : Nat) : Bool :=
  us.any fun u => (c.mode.getLsbD u.slot == pol) && c.isEmpty u.type.wide u.code l

theorem getLsbD_foldl_or {α : Type} (us : List α) (p : α → Bool) (f : α → Word) (x : Word) (l : Nat) :
    (us.foldl (fun m u => if p u then m ||| f u else m) x).getLsbD l = (x.getLsbD l || us.any fun u => p u && (f u).getLsbD l) := by
  induction us generalizing x with
  | nil => simp
  | cons u us ih => cases hp : p u <;> simp [ih, hp, Bool.or_assoc]

/-- R18's trapping lanes, collected source by source, are the checked lanes in which a policy-1 source is empty. -/
theorem trappingLanes (c : Course) (m : Word) (us : List Use) :
    us.foldl (fun a u => if c.mode.getLsbD u.slot then a ||| maskOf fun l => m.getLsbD l && c.isEmpty u.type.wide u.code l else a) 0#32 =
      maskOf fun l => m.getLsbD l && c.emptyUnder us true l := by
  refine BitVec.eq_of_getLsbD_eq fun l hl => ?_
  rw [getLsbD_foldl_or us (fun u => c.mode.getLsbD u.slot)]
  simp only [getLsbD_maskOf, hl, decide_true, Bool.true_and, BitVec.getLsbD_zero, Bool.false_or, Course.emptyUnder]
  cases m.getLsbD l <;> simp

/-- A policy-1 source that is empty in a checked lane traps EMPTYREAD, the lanes in TMASK. -/
theorem checks_emptyRead {c : Course} {m : Word} {us : List Use} (dest : Option (Nat × Bool))
    (h : (maskOf fun l => m.getLsbD l && c.emptyUnder us true l) ≠ 0#32) :
    c.checks m us dest = some (.trap .emptyRead 0 (maskOf fun l => m.getLsbD l && c.emptyUnder us true l).toNat 0) := by
  simp only [Course.checks, trappingLanes, if_pos h]

/-- With none, a source or destination that is empty in a checked lane makes the instruction wait. -/
theorem checks_wait {c : Course} {m : Word} {us : List Use} {d : Nat} {w : Bool} (h : (maskOf fun l => m.getLsbD l && c.emptyUnder us true l) = 0#32)
    {l : Nat} (hl : l < 32) (hm : m.getLsbD l = true) (he : c.emptyUnder us false l = true ∨ c.isEmpty w d l = true) :
    c.checks m us (some (d, w)) = some .wait := by
  simp only [Course.checks, trappingLanes, h, ne_eq, not_true_eq_false, ↓reduceIte]
  split
  · rfl
  · next hsrc =>
    rcases he with he | he
    · obtain ⟨u, hu, he⟩ := List.any_eq_true.1 he
      have hne := maskOf_ne_zero (f := fun l => m.getLsbD l && c.isEmpty u.type.wide u.code l) hl (by rw [hm, (Bool.and_eq_true_iff.1 he).2]; rfl)
      exact absurd (List.any_eq_true.2 ⟨u, hu, by simpa using hne⟩) hsrc
    · exact if_pos (List.any_eq_true.2 ⟨l, mem_lanesOf.2 ⟨hl, hm⟩, he⟩)

/-! ## An instruction that does not deliver (R18, R83) -/

/-- What stops a value-producing vector instruction: its element types, else its registers. -/
def vecStop (c : Course) (str : Bool) (op field : Nat) (r : VecRow) : Option Res :=
  if r.types then c.checks (c.active str) r.reads (some (r.dest, r.wide)) else some (illegalAt op field 3)

theorem vecStop_ne_done {c : Course} {str : Bool} {op field : Nat} {r : VecRow} {res : Res} (h : vecStop c str op field r = some res) (u : State) :
    res ≠ .done u := by
  unfold vecStop at h
  split at h
  · exact checks_ne_done h u
  · cases h; exact nofun

section
variable {s : State} {k : Nat} {str : Bool} {c : Course} {t : Team} {r : VecRow} {res : Res} {op : Nat}

/-- The shared shape of R82 answers what stops it. -/
theorem vecOp_stops (hR : Runs s k str c t) {acc : Bool} {uses : List Use} {d : Nat} {wide : Bool} {value : Nat → Rounded} {seed : Option Word}
    (effect : Course → Nat → List Nat → Rounded) (h : vecStop c str op 0 ⟨acc, uses, d, wide, value, seed⟩ = some res) :
    s.vecOp op acc uses d wide effect = res := by
  simp only [State.vecOp, runs_asCourse hR]
  cases acc with
  | false => cases h; rfl
  | true =>
    have h : c.checks (c.active str) uses (some (d, wide)) = some res := h
    simp only [h, Bool.not_true, Bool.false_eq_true, ↓reduceIte]

theorem un_stops (hR : Runs s k str c t) {i : Instr} {acc : ElemType → Bool} {d a : BitVec 6} {f : AluMode → Nat → Rounded}
    (hrow : vec1 c (acc c.et) d a f = some r) (h : vecStop c str op 0 r = some res) : s.un i op acc d a f = s.runWord i res := by
  cases hrow
  simp only [State.un, runs_et hR, vecOp_stops hR _ h]

theorem bin_stops (hR : Runs s k str c t) {i : Instr} {acc : ElemType → Bool} {d a b : BitVec 6} {f : AluMode → Nat → Nat → Rounded}
    (hrow : vec2 c (acc c.et) d a b c.et f = some r) (h : vecStop c str op 0 r = some res) : s.bin i op acc d a b f = s.runWord i res := by
  cases hrow
  simp only [State.bin, runs_et hR, vecOp_stops hR _ h]

theorem tern_stops (hR : Runs s k str c t) {i : Instr} {acc : ElemType → Bool} {d a b x : BitVec 6} {f : AluMode → Nat → Nat → Nat → Rounded}
    (hrow : vec3 c (acc c.et) d a b x c.et c.et.wide f = some r) (h : vecStop c str op 0 r = some res) :
    s.tern i op acc d a b x f = s.runWord i res := by
  cases hrow
  simp only [State.tern, runs_et hR, vecOp_stops hR _ h]

/-- An instruction that gives its sources itself. -/
theorem row_stops (hR : Runs s k str c t) {i : Instr} {acc : Bool} {uses : List Use} {d : Nat} {wide : Bool} {value : Nat → Rounded} {seed : Option Word}
    {effect : Course → Nat → List Nat → Rounded} (hrow : some ⟨acc, uses, d, wide, value, seed⟩ = some r) (h : vecStop c str op 0 r = some res) :
    s.runWord i (s.vecOp op acc uses d wide effect) = s.runWord i res := by
  cases hrow
  rw [vecOp_stops hR _ h]

/-- A conversion that is stopped advances no seed. -/
theorem convOp_stops (hR : Runs s k str c t) {rule : Nat → Res} (h : ∀ n, rule n = res) (hres : ∀ u, res ≠ .done u) : s.convOp rule = res := by
  cases res with
  | done u => exact absurd rfl (hres u)
  | _ => simp only [State.convOp, runs_asCourse hR, h, ite_self]

theorem cvt_stops (hR : Runs s k str c t) {d a : BitVec 6} {x : BitVec 4} (hrow : vecRow c (.cvt d a x) = some r)
    (h : vecStop c str 0x54 4 r = some res) : exec (.cvt d a x) s = s.runWord (.cvt d a x) res := by
  have hres := vecStop_ne_done h
  cases hrow
  change execCvt d a x s = _
  unfold execCvt
  simp only [runs_et hR]
  by_cases ht : ((ElemType.ofCode x.toNat).getD .s32).count = c.et.count
  · simp only [ht, decide_true, ne_eq, not_true_eq_false, ↓reduceIte] at h ⊢
    exact congrArg _ (convOp_stops hR (fun _ => vecOp_stops hR _ h) hres)
  · simp only [ht, decide_false] at h
    cases h
    exact congrArg _ (if_pos ht)

theorem cvtn_refuses (hR : Runs s k str c t) {d a b : BitVec 6} {x : BitVec 4} (hrow : vecRow c (.cvtn d a b x) = some r) (ht : r.types = false) :
    exec (.cvtn d a b x) s = s.runWord (.cvtn d a b x) (illegalAt 0x55 0 3) := by
  cases hrow
  change execCvtn d a b x s = _
  unfold execCvtn
  have ht : (c.et == .s32 || c.et == .n32 || c.et == .f32) = false := ht
  refine congrArg (s.runWord (.cvtn d a b x)) (convOp_stops hR (fun n => ?_) fun _ => Res.noConfusion)
  simp only [runs_et hR, ht, State.destOp, runs_asCourse hR, State.vecOp, Bool.not_false, ↓reduceIte]
  rfl

/-- R18, R83: a value-producing vector instruction answers what stops it; one that also reads its destination, what refuses its types. -/
theorem vecRow_stops {i : Instr} {w : Word} (hR : Runs s k str c t) (hw : encode i = some w) (hrow : vecRow c i = some r)
    (hold : readsOldValue i = true → r.types = false) (h : vecStop c str (opOf w) (typeField i) r = some res) : exec i s = s.runWord i res := by
  generalize hop : opOf w = op at h
  cases i <;> cases hw
  all_goals
    simp (disch := decide) only [opOf, BitVec.extractLsb'_append_eq_of_le, BitVec.extractLsb'_eq_self, Nat.reduceSub, BitVec.reduceExtractLsb',
      BitVec.reduceToNat] at hop
    subst hop
  case iabs | popc | clz | brev | addi | andi | ori | xori | shli | shri | mov | fabs | fneg | fclass | frcp | frsq | fsqrt | fex2 | flg2 | fsin |
      fcos | frnd =>
    delta exec execIabs execPopc execClz execBrev execAddi execAndi execOri execXori execShli execShri execMov execFabs execFneg execFclass execFrcp
      execFrsq execFsqrt execFex2 execFlg2 execFsin execFcos execFrnd
    exact un_stops hR hrow h
  case iadd | isub | imul | imulh | imin | imax | and | or | xor | andn | shl | shr | sar | rotl | fadd | fsub | fmul | fmin | fmax =>
    delta exec execIadd execIsub execImul execImulh execImin execImax execAnd execOr execXor execAndn execShl execShr execSar execRotl execFadd
      execFsub execFmul execFmin execFmax
    exact bin_stops hR hrow h
  case imad | fma | fnma =>
    delta exec execImad execFma execFnma
    exact tern_stops hR hrow h
  case bfx | bfi | perm | sel | lea | li | idot4 | fscl | cvtw | fdot2 =>
    delta exec execBfx execBfi execPerm execSel execLea execLi execIdot4 execFscl execCvtw execFdot2
    simp only [runs_et hR]
    exact row_stops hR hrow h
  case lih =>
    cases hrow
    exact nomatch (hold rfl : true = false)
  case cvt => exact cvt_stops hR hrow h
  case cvtn =>
    rw [vecStop, hold rfl] at h
    cases h
    exact cvtn_refuses hR hrow (hold rfl)
  all_goals exact nomatch hrow
end

theorem typeField_le (i : Instr) : typeField i ≤ 4 := by
  unfold typeField
  split <;> decide

/-- TINFO of ILLEGAL at execution, as a number (R41). -/
theorem tinfoOf_toNat (w : Word) {field : Nat} (hf : field ≤ 4) : (tinfoOf (opOf w) field 0 3).toNat = opOf w * 2 ^ 24 + field * 2 ^ 20 + 3 := by
  have hop : opOf w < 256 := (w.extractLsb' 24 8).isLt
  rw [tinfoOf, BitVec.toNat_ofNat]
  omega

theorem unacceptedElementTypeTrapsIllegal : UnacceptedElementTypeTrapsIllegal := by
  intro s k str c t i w r hR hw hrow ht
  have hstop : vecStop c str (opOf w) (typeField i) r = some (illegalAt (opOf w) (typeField i) 3) := by
    rw [vecStop, ht]
    rfl
  rw [vecRow_stops hR hw.1 hrow (fun _ => ht) hstop, illegalAt, runWord_trap (runs_curRuns hR) hw.1 hw.2, tinfoOf_toNat w (typeField_le i)]

theorem emptyRegistersTrapOrWait : EmptyRegistersTrapOrWait := by
  intro s k str c t i w r hR hw hrow ht hold
  have hstops {res : Res} (h : c.checks (c.active str) r.reads (some (r.dest, r.wide)) = some res) : exec i s = s.runWord i res :=
    vecRow_stops hR hw.1 hrow (fun h => by rw [hold] at h; cases h) (by rw [vecStop, ht]; exact h)
  refine ⟨fun htrap => ?_, fun htrap ⟨l, hl, hm, he⟩ => ?_⟩
  · rw [hstops (checks_emptyRead _ htrap)]
    exact runWord_trap (runs_curRuns hR) hw.1 hw.2
  · rw [hstops (checks_wait htrap hl hm he)]
    exact runWord_wait (runs_curRuns hR) hw.1 hw.2

/-- Settles O13. -/
theorem vectorInstructionsTrapOrWait : Obligations.VectorInstructionsTrapOrWait :=
  ⟨unacceptedElementTypeTrapsIllegal, emptyRegistersTrapOrWait⟩

end Sys2Proof.Machine

/-! # Integer arithmetic under S32 (R69, R89) -/

namespace Sys2Proof.Machine

open Sys2Proof Sys2Proof.Spec

/-- Two's complement: the signed reading of a word's value is the word's own. -/
theorem int_s32 (x : Word) : ElemType.s32.int x.toNat = x.toInt := by
  have h : ElemType.s32.int x.toNat = signedOf 32 x.toNat := rfl
  rw [h, signedOf, Nat.mod_eq_of_lt x.isLt, BitVec.toInt_eq_toNat_cond]

/-- R69 under S32: the word that holds e modulo 2^32, or e clamped to the range. -/
def wordS32 (sat : Bool) (e : Int) : Word := if sat then BitVec.ofInt 32 (max (-2147483648) (min 2147483647 e)) else BitVec.ofInt 32 e

theorem clampInt_s32 (e : Int) : clampInt true 32 e = max (-2147483648) (min 2147483647 e) := by
  simp only [clampInt, intMin, intMax, ↓reduceIte, Nat.reduceSub, Nat.reducePow]
  omega

theorem fit_s32 {m : AluMode} (h : m.et = .s32) (e : Int) : m.fit e = (wordS32 m.sat e).toNat := by
  have hfit : m.fit e = fitInt m.sat true 32 e := by rw [AluMode.fit, h]; rfl
  rw [hfit, fitInt, clampInt_s32, wordS32]
  cases m.sat <;> rfl

/-- An operation of two one-element operands. -/
theorem elems2_s32 (f : Nat → Nat → Nat) (x y : Word) : elems2 .s32 f x.toNat y.toNat = f x.toNat y.toNat % 2 ^ 32 := by
  have hsplit (z : Word) : ElemType.s32.split z.toNat = [z.toNat] := by
    simp [ElemType.split, ElemType.count, ElemType.width, Nat.mod_eq_of_lt z.isLt]
  simp [elems2, hsplit, packElems, ElemType.width]

/-- Integer arithmetic on two operands under S32: the exact result by R69. -/
theorem arith_s32 {m : AluMode} (h : m.et = .s32) (f : Int → Int → Int) (x y : Word) :
    elems2 m.et (fun a b => m.fit (f (m.et.int a) (m.et.int b))) x.toNat y.toNat = (wordS32 m.sat (f x.toInt y.toInt)).toNat := by
  rw [h, elems2_s32, int_s32, int_s32, fit_s32 h]
  exact Nat.mod_eq_of_lt (BitVec.isLt _)

/-- Settles O14. -/
theorem integerArithmeticWrapsOrSaturates : Obligations.IntegerArithmeticWrapsOrSaturates :=
  fun x y _ h => ⟨arith_s32 h (· + ·) x y, arith_s32 h (· - ·) x y, arith_s32 h (· * ·) x y⟩

end Sys2Proof.Machine

/-! # Lane predicates (R86) -/

namespace Sys2Proof.Machine

open Sys2Proof Sys2Proof.Spec

/-- The model's combine table is R86's. -/
theorem combinePred_eq_combined : combinePred = combined := rfl

/-- A course whose flags are set to what they are. -/
theorem course_sameFlags (x : Course) {f : Flags} (h : f = x.fpflags) : { x with fpflags := f } = x := by subst h; rfl

section
variable {s : State} {k : Nat} {str : Bool} {c : Course} {t : Team}

/-- The shared shape of R86, its operands ready and no flag raised. -/
theorem predOp_writes (hR : Runs s k str c t) {uses : List Use} {op m : Nat} {cond : Course → Nat → List Nat → Bool}
    (hr : Ready c (c.active str) uses []) :
    s.predOp op true uses m cond (fun _ _ => 0#5) =
      .done (s.setCourse k (predDone c str ⟨true, uses, m, fun l => cond c l (uses.map fun u => c.src u.type u.code l)⟩)) := by
  simp only [State.predOp, runs_asCourse hR, Bool.not_true, Bool.false_eq_true, ↓reduceIte, ready_checks_sources hr,
    combinePred_eq_combined]
  exact congrArg (fun x => Res.done (s.setCourse k x)) (course_sameFlags _ (by simp only [BitVec.or_zero, List.foldl_fixed]))

/-- An instruction of the shape whose types are accepted. -/
theorem pred_completes (hR : Runs s k str c t) {i : Instr} {w : Word} (hw : Passes s i w) {uses : List Use} {op m : Nat} {acc : Bool}
    {cond : Course → Nat → List Nat → Bool} {r : PredRow}
    (hrow : some ⟨acc, uses, m, fun l => cond c l (uses.map fun u => c.src u.type u.code l)⟩ = some r) (ht : r.types = true)
    (hr : Ready c (c.active str) r.reads []) :
    s.runWord i (s.predOp op acc uses m cond fun _ _ => 0#5) = .next (finished s (s.setCourse k (predDone c str r)) w) := by
  cases hrow
  exact runWord_finished (runs_curRuns hR) hw (by rw [show acc = true from ht]; exact predOp_writes hR hr)

/-- R86: each predicate-writing instruction completes. -/
theorem exec_predRow (hR : Runs s k str c t) {i : Instr} {w : Word} {r : PredRow} (hw : Passes s i w) (hrow : predRow c i = some r)
    (ht : r.types = true) (hr : Ready c (c.active str) r.reads []) : exec i s = .next (finished s (s.setCourse k (predDone c str r)) w) := by
  cases i
  case cmp | cmpi | fcmp | pmov | plop =>
    delta exec execCmp execCmpi execFcmp execPmov execPlop
    simp only [runs_et hR]
    exact pred_completes hR hw hrow ht hr
  all_goals exact nomatch hrow
end

theorem lane_mapFrom (c : Course) (m : Word) (f : Nat → Lane → Lane) {l : Nat} (h : l < 32) :
    (c.mapFrom m f).lane l = if m.getLsbD l then f l (c.lane l) else c.lane l :=
  lane_mapLanes c _ h

@[simp] theorem q_setPred (x : Lane) (k : Nat) (b : Bool) : (x.setPred k b).q = x.q := by unfold Lane.setPred; split <;> rfl
@[simp] theorem n_setPred (x : Lane) (k : Nat) (b : Bool) : (x.setPred k b).n = x.n := by unfold Lane.setPred; split <;> rfl
@[simp] theorem fe_setPred (x : Lane) (k : Nat) (b : Bool) : (x.setPred k b).fe = x.fe := by unfold Lane.setPred; split <;> rfl

/-- A predicate below p7 that is written holds the value; the others stay. -/
theorem pred_setPred (x : Lane) (k : Nat) (b : Bool) {n : Nat} (hn : n < 7) : (x.setPred k b).pred n = if n = k then b else x.pred n := by
  have hbit : (BitVec.ofNat 8 (2 ^ k)).getLsbD n = decide (k = n) := by
    simp only [BitVec.getLsbD_ofNat, Nat.testBit_two_pow, show n < 8 by omega, decide_true, Bool.true_and]
  unfold Lane.setPred
  by_cases hk : k = 7
  · rw [if_pos hk, if_neg (by omega)]
  · rw [if_neg hk]
    have hn7 : decide (n = 7) = false := decide_eq_false (by omega)
    have hn8 : decide (n < 8) = true := decide_eq_true (by omega)
    have hkn : n ≠ k → k ≠ n := Ne.symm
    cases b
    · simp only [Lane.pred, hn7, hn8, Bool.false_eq_true, ↓reduceIte, BitVec.getLsbD_and, BitVec.getLsbD_not, hbit]
      by_cases h : n = k <;> simp [h, hkn]
    · simp only [Lane.pred, hn7, ↓reduceIte, BitVec.getLsbD_or, hbit]
      by_cases h : n = k <;> simp [h, hkn]

/-- What R86's write leaves of a lane. -/
theorem lane_predDone (c : Course) (str : Bool) (r : PredRow) {l : Nat} (hl : l < 32) :
    let x := c.lane l
    let y := (predDone c str r).lane l
    y.q = x.q ∧ y.n = x.n ∧ y.fe = x.fe ∧ y.pred 7 = true ∧ ∀ n, n < 7 →
      y.pred n = if (c.active str).getLsbD l = true ∧ n = r.field / 8 then combined (r.field % 8) (x.pred n) (r.cond l) else x.pred n := by
  simp only [predDone, lane_mapFrom _ _ _ hl]
  cases hact : (c.active str).getLsbD l with
  | false => exact ⟨rfl, rfl, rfl, pred_seven _, fun n _ => by simp⟩
  | true =>
    simp only [↓reduceIte, q_setPred, n_setPred, fe_setPred, true_and]
    refine ⟨pred_seven _, fun n hn => ?_⟩
    rw [pred_setPred _ _ _ hn]
    split
    · next h => rw [h]
    · rfl

/-- Combine codes 6 and 7 are reserved. -/
theorem comb_reserved {m : BitVec 3} (h : 6 ≤ m.toNat) : comb m = false := decide_eq_false (by omega)

/-- Settles O15. -/
theorem predicateInstructionsComplete : Obligations.PredicateInstructionsComplete := by
  refine ⟨fun _ _ _ _ _ _ _ _ hR hw => exec_predRow hR hw, fun c str r _ => lane_predDone c str r, fun p m hm => ?_⟩
  have hcomb := comb_reserved hm
  refine ⟨fun a b k => ⟨?_, ?_⟩, fun a k v => ?_, fun a x n => ?_, fun u v z => ?_⟩
  case refine_5 => exact hcomb
  all_goals simp only [Instr.wf, hcomb, Bool.false_and]

end Sys2Proof.Machine

/-! # The lane instructions (R110-R116) -/

namespace Sys2Proof.Machine

open Sys2Proof Sys2Proof.Spec

section
variable {s : State} {k : Nat} {str : Bool} {c : Course} {t : Team} {w : Word}

theorem runs_gwide (hR : Runs s k str c t) : s.gwide = c.gt.wide := by
  obtain ⟨hcur, hc, -⟩ := hR
  simp only [State.gwide, State.gt, hcur, hc]

theorem runs_sc (hR : Runs s k str c t) : s.sc = c.sc := by
  obtain ⟨hcur, hc, -⟩ := hR
  simp only [State.sc, State.scalar, hcur, hc]

/-- A group-wide instruction whose sources are unpoisoned. -/
theorem groupOp_clean (hR : Runs s k str c t) {uses : List (Nat × Bool)} (h : Clean s uses) (f : Scalar → Res) : s.groupOp uses f = f c.sc := by
  simp only [State.groupOp, runs_sc hR, clean_checks hR h]

/-- R111's source lane, with the lane itself where the slot's mask lacks it. -/
theorem shflSource_eq (m l b : Nat) (mask : Word) : shflSource m l b mask = if mask.getLsbD (shflLane m l b) then shflLane m l b else l := rfl

theorem exec_shfl (hR : Runs s k str c t) {d a b : BitVec 6} {m : BitVec 2} (hw : Passes s (.shfl d a b m) w)
    (hA : Ready c (c.mask str) [⟨a.toNat, c.et, 13⟩] []) (hB : Ready c (c.active str) [⟨b.toNat, .n32, 14⟩] [(d.toNat, c.et.wide)]) :
    exec (.shfl d a b m) s = .next (finished s (s.setCourse k (c.deliver (c.mask str) (c.active str) d.toNat c.et.wide fun l =>
      c.src c.et a.toNat (shflSource m.toNat l (c.src .n32 b.toNat l) (c.mask str)))) w) :=
  runWord_finished (runs_curRuns hR) hw (by
    simp only [runs_asCourse hR, ready_checks_sources hA, ready_checks_sources hB, ready_checks hB, shflSource_eq]
    rfl)

/-- R112's word by mode. -/
theorem voteWord_eq (mode : Nat) (act yes : Word) :
    voteWord mode act yes = match mode with
      | 0 => yes.toNat
      | 1 => boolNat (yes != 0#32)
      | 2 => boolNat (yes == act)
      | _ => (lanesOf yes).length := by
  match mode with
  | 0 => rfl
  | 1 => simp [voteWord, boolNat]
  | 2 => simp [voteWord, boolNat]
  | _ + 3 => rfl

theorem exec_vote (hR : Runs s k str c t) {d : BitVec 6} {n : BitVec 1} {p : BitVec 3} {m : BitVec 6} (hw : Passes s (.vote d n p m) w) :
    exec (.vote d n p m) s =
      .next (finished s (s.gdst false d.toNat (voteWord m.toNat (c.active str) (voters c str (n == 1#1) p.toNat))) w) :=
  runWord_finished (runs_curRuns hR) hw (by rw [runs_asCourse hR, voteWord_eq]; rfl)

/-- R113 reads the named lane in the course that BCST sees. -/
theorem exec_bcst (hR : Runs s k str c t) {d a b : BitVec 6} (hw : Passes s (.bcst d a b) w) {v : Course} (hv : s.laneView k c b.toNat = v)
    (hr : Ready v (maskOf fun l => decide (l = b.toNat)) [⟨a.toNat, c.et, 13⟩] []) :
    exec (.bcst d a b) s = .next (finished s (s.gdst c.et.wide d.toNat (v.src c.et a.toNat b.toNat)) w) :=
  runWord_finished (runs_curRuns hR) hw (by simp only [runs_asCourse hR, hv, ready_checks_sources hr])

theorem laneView_alone (h : s.before = none) (l : Nat) : s.laneView k c l = c := by
  simp only [State.laneView, h]

/-- A lane of the header's slot is seen as it was before the header's word of the same cycle. -/
theorem laneView_header {y : Before} (h : s.before = some y) (hk : y.key = k) {l : Nat} (hl : y.course.header.mask.getLsbD l = true) :
    s.laneView k c l = { c with lanes := y.course.lanes } := by
  simp only [State.laneView, h, hk, hl, and_self, ↓reduceIte]

theorem exec_rdx (hR : Runs s k str c t) {a p : BitVec 6} {op : RedOp} (hw : Passes s (.rdx a p) w) (ht : c.et.count = 1)
    (hop : RedOp.ofCode p.toNat = some op) (hr : Ready c (c.active str) [⟨a.toNat, c.et, 13⟩] []) :
    let r := reduce c.alu op (redLanes c (c.active str) op a.toNat)
    exec (.rdx a p) s = .next (finished s (s.setCourse k { c with
      sc := { c.sc with red := BitVec.ofNat 64 r.1, redSeq := c.sc.redSeq + 1#16 },
      fpflags := c.fpflags ||| (if c.active str = 0#32 then 0#5 else r.2) }) w) :=
  runWord_finished (runs_curRuns hR) hw (by
    simp only [runs_asCourse hR, redEt, ht, decide_true, Bool.not_true, Bool.false_eq_true, ↓reduceIte, ready_checks_sources hr, hop])

theorem exec_scan (hR : Runs s k str c t) {d a p : BitVec 6} {op : RedOp} (hw : Passes s (.scan d a p) w) (ht : c.et.count = 1)
    (hop : RedOp.ofCode p.toNat = some op) (hr : Ready c (c.active str) [⟨a.toNat, c.et, 13⟩] [(d.toNat, c.et.wide)]) :
    let r := scan c.alu op (redLanes c (c.active str) op a.toNat)
    let c' := c.deliver (c.mask str) (c.active str) d.toNat c.et.wide fun l => r.1.getD l 0
    exec (.scan d a p) s = .next (finished s (s.setCourse k { c' with
      fpflags := c'.fpflags ||| (if c.active str = 0#32 then 0#5 else r.2) }) w) :=
  runWord_finished (runs_curRuns hR) hw (by
    simp only [runs_asCourse hR, redEt, ht, decide_true, Bool.not_true, Bool.false_eq_true, ↓reduceIte, ready_checks hr, hop])

/-- The distance of the reduction register's sequence number from the awaited one, modulo 2^16 (R115). -/
theorem redDistance (x : BitVec 16) (n : Nat) : (x.toNat + 65536 - bitsOf n 15 0) % 65536 = (x - BitVec.ofNat 16 n).toNat := by
  have hx := x.isLt
  simp only [bitsOf, Nat.shiftRight_zero, BitVec.toNat_sub, BitVec.toNat_ofNat]
  omega

theorem exec_rdxwWait (hR : Runs s k str c t) {d a : BitVec 6} (hclean : Clean s [(a.toNat, false)]) :
    exec (.rdxwWait d a) s = s.runWord (.rdxwWait d a)
      (if (c.sc.redSeq - BitVec.ofNat 16 (c.sc.src false a.toNat)).toNat < 32768 then .done (s.gdst c.gt.wide d.toNat c.sc.red.toNat) else .wait) := by
  refine congrArg (s.runWord (.rdxwWait d a)) ?_
  rw [groupOp_clean hR hclean, redDistance, runs_gwide hR]

theorem exec_rdxwSeq (hR : Runs s k str c t) {d : BitVec 6} (hw : Passes s (.rdxwSeq d) w) :
    exec (.rdxwSeq d) s = .next (finished s (s.gdst false d.toNat c.sc.redSeq.toNat) w) := by
  rw [← runs_sc hR]
  exact runWord_finished (runs_curRuns hR) hw rfl

theorem exec_rdxwSet (hR : Runs s k str c t) {a b : BitVec 6} (hw : Passes s (.rdxwSet a b) w)
    (hclean : Clean s [(a.toNat, c.gt.wide), (b.toNat, false)]) :
    exec (.rdxwSet a b) s = .next (finished s (s.setScalar s.cur { c.sc with
      red := BitVec.ofNat 64 (c.sc.src c.gt.wide a.toNat), redSeq := BitVec.ofNat 16 (c.sc.src false b.toNat) }) w) :=
  runWord_finished (runs_curRuns hR) hw (by rw [runs_gwide hR, groupOp_clean hR hclean])
end

/-- Settles O16. -/
theorem laneInstructionsComplete : Obligations.LaneInstructionsComplete := by
  intro s k str c t w hR
  refine ⟨fun _ _ _ _ => exec_shfl hR, fun _ _ _ _ => exec_vote hR, fun d a b hw hb => exec_bcst hR hw (laneView_alone hb _),
    fun d a b y hw hb hk hl => exec_bcst hR hw (laneView_header hb hk hl), fun _ _ _ => exec_rdx hR, fun _ _ _ _ => exec_scan hR,
    fun d a hw hclean hlt => ?_, fun d a hw hclean hge => ?_, fun _ => exec_rdxwSeq hR, fun _ _ => exec_rdxwSet hR⟩
  · rw [exec_rdxwWait hR hclean]
    exact runWord_finished (runs_curRuns hR) hw (if_pos hlt)
  · rw [exec_rdxwWait hR hclean, if_neg (Nat.not_lt.2 hge)]
    exact runWord_wait (runs_curRuns hR) hw.1 hw.2

end Sys2Proof.Machine

/-! # Branches, calls and loops (R127-R135) -/

namespace Sys2Proof.Machine

open Sys2Proof Sys2Proof.Spec

/-! ## The parts of `Runs` -/

section
variable {s : State} {k : Nat} {str : Bool} {c : Course} {t : Team}

theorem runs_cur (h : Runs s k str c t) : s.cur = .course k str := h.1
theorem runs_course (h : Runs s k str c t) : s.course? k = some c := h.2.1
theorem runs_team (h : Runs s k str c t) : s.team? (k / 16) = some t := h.2.2.1
theorem runs_live (h : Runs s k str c t) : c.life = .live := h.2.2.2.1

end

section
variable {s : State} {w : Word}

/-- A word whose rule sets the PC itself leaves the rule's effect, counted. -/
theorem runWord_counted {i : Instr} {rule : Res} {u : State} (hP : Present s) (hw : Passes s i w) (h : rule = .jumped u) :
    s.runWord i rule = .next (counted s u w) := by
  subst h
  exact runWord_jumped hP hw.1 hw.2

/-- A word whose rule traps delivers the trap. -/
theorem runWord_takesTrap {i : Instr} {rule : Res} {cause : Cause} {va m ti : Nat} (hP : Present s) (hw : Passes s i w) (h : rule = .trap cause va m ti) :
    s.runWord i rule = .next (s.takeTrap cause va m ti) := by
  subst h
  exact runWord_trap hP hw.1 hw.2

/-- A word that has begun, or is held, leaves what its rule says, its PC where it is. -/
theorem runWord_stays {i : Instr} {rule : Res} {u : State} (hP : Present s) (hw : Passes s i w) (h : rule = .stay u) :
    s.runWord i rule = .next u := by
  subst h
  exact runWord_stay hP hw.1 hw.2

/-- A word that is not ready changes nothing. -/
theorem runWord_waits {i : Instr} {rule : Res} (hP : Present s) (hw : Passes s i w) (h : rule = .wait) : s.runWord i rule = .next s := by
  subst h
  exact runWord_wait hP hw.1 hw.2

/-- A group-wide instruction of any agent whose sources are unpoisoned. -/
theorem groupOp_unpoisoned {uses : List (Nat × Bool)} (h : Clean s uses) (f : Scalar → Res) : s.groupOp uses f = f s.sc := by
  have h : s.sc.checks uses = none := h
  simp only [State.groupOp, h]

/-- R6's wrap is the word of an integer. -/
theorem wrapTo_eq (w : Nat) (x : Int) : wrapTo w x = (BitVec.ofInt w x).toNat := by
  rw [wrapTo, BitVec.toNat_ofInt]

/-- R30, R127: the target as a number is that of the PC's 32-bit sum. -/
theorem target_eq_branchTarget (s : State) (o : BitVec 20) : s.target o = (branchTarget (BitVec.ofNat 32 s.pc) o).toNat := by
  rw [State.target, wrapTo_eq, branchTarget, BitVec.ofInt_add, BitVec.ofInt_mul, BitVec.signExtend, BitVec.ofInt_natCast]
  rfl

/-- A branch goes where R127 says. -/
theorem branch_eq (s : State) (taken : Bool) (o : BitVec 20) : s.branch taken o = .jumped (s.goto (branchTo s taken o)) := by
  rw [State.branch, branchTo, target_eq_branchTarget]

@[simp] theorem die_modDie_same (s : State) (n : Nat) (f : Die → Die) : (s.modDie n f).die n = f (s.die n) := die_setDie_same ..
@[simp] theorem pkg_modPkg_same (s : State) (n : Nat) (f : Pkg → Pkg) : (s.modPkg n f).pkg n = f (s.pkg n) := pkg_setPkg_same ..

/-- Writing a group register moves no PC. -/
@[simp] theorem pc_gdst (s : State) (wide : Bool) (d v : Nat) : (s.gdst wide d v).pc = s.pc := by
  unfold State.gdst State.setScalar State.pc
  cases h : s.cur with
  | course k str =>
    simp only [modCourse_cur, h, course_modCourse_same]
    cases s.course? k <;> [rfl; cases str <;> rfl]
  | seq t => simp only [h]
  | kcore d => simp only [modDie_cur, h, die_modDie_same]
  | lintel p => simp only [modPkg_cur, h, pkg_modPkg_same]

theorem branchTo_gdst (s : State) (wide : Bool) (d v : Nat) (taken : Bool) (o : BitVec 20) :
    branchTo (s.gdst wide d v) taken o = branchTo s taken o := by
  simp only [branchTo, pc_gdst]

/-! ## BRA, CALL, RET, JMPI, LOOP -/

theorem exec_bra (hP : Present s) {n : BitVec 1} {p : BitVec 3} {o : BitVec 20} (hw : Passes s (.bra n p o) w) :
    exec (.bra n p o) s = .next (counted s (s.goto (branchTo s (s.sc.pred p.toNat != (n == 1#1)) o)) w) :=
  runWord_counted hP hw (branch_eq ..)

theorem exec_call (hP : Present s) {o : BitVec 20} (hw : Passes s (.call o) w) :
    exec (.call o) s = .next (counted s ((s.gdst false 31 (s.pc + 4)).goto (branchTo s true o)) w) :=
  runWord_counted hP hw (congrArg (fun n => Res.jumped (State.goto _ n)) (target_eq_branchTarget ..))

/-- A computed target that is a word's address is where the PC goes. -/
theorem jumpTo_aligned {g : Nat} (h : g % 4 = 0) (t : State) : jumpTo g t = .jumped (t.goto g) := if_neg (not_not.2 h)

theorem jumpTo_misaligned {g : Nat} (h : g % 4 ≠ 0) (t : State) : jumpTo g t = .trap .align g 0 4 := if_pos h

theorem read_narrow (x : Scalar) (k : Nat) : x.read false k = (x.reg k).toNat := by simp [Scalar.read]

theorem exec_ret (hP : Present s) (hw : Passes s .ret w) (hc : Clean s [(31, false)]) :
    let g := (s.sc.reg 31).toNat
    (g % 4 = 0 → exec .ret s = .next (counted s (s.goto g) w)) ∧ (g % 4 ≠ 0 → exec .ret s = .next (s.takeTrap .align g 0 4)) := by
  have hr (g : Nat) (hg : s.sc.read false 31 = g) : exec .ret s = s.runWord .ret (jumpTo g s) :=
    congrArg (s.runWord .ret) (by rw [groupOp_unpoisoned hc, hg])
  rw [hr _ (read_narrow ..)]
  exact ⟨fun h => runWord_counted hP hw (jumpTo_aligned h _), fun h => runWord_takesTrap hP hw (jumpTo_misaligned h _)⟩

theorem exec_jmpi (hP : Present s) {a : BitVec 6} {l : BitVec 1} (hw : Passes s (.jmpi a l) w) (hc : Clean s [(a.toNat, false)]) :
    let g := s.gsrc false a.toNat
    (g % 4 = 0 → exec (.jmpi a l) s = .next (counted s ((if l = 1#1 then s.gdst false 31 (s.pc + 4) else s).goto g) w)) ∧
    (g % 4 ≠ 0 → exec (.jmpi a l) s = .next (s.takeTrap .align g 0 4)) := by
  have hr : exec (.jmpi a l) s = s.runWord (.jmpi a l)
      (jumpTo (s.gsrc false a.toNat) (if l = 1#1 then s.gdst false 31 (s.pc + 4) else s)) :=
    congrArg (s.runWord (.jmpi a l)) (groupOp_unpoisoned hc _)
  rw [hr]
  exact ⟨fun h => runWord_counted hP hw (jumpTo_aligned h _), fun h => runWord_takesTrap hP hw (jumpTo_misaligned h _)⟩

/-- R134's count: one less, modulo 2^32. -/
theorem loopCount (x : Scalar) (k : Nat) : (x.read false k + (2 ^ 32 - 1)) % 2 ^ 32 = (x.reg k - 1#32).toNat := by
  rw [read_narrow, BitVec.toNat_sub]
  exact congrArg (· % 2 ^ 32) (Nat.add_comm ..)

theorem exec_loop (hP : Present s) {k : BitVec 4} {o : BitVec 20} (hw : Passes s (.loop k o) w) (hc : Clean s [(k.toNat, false)]) :
    let v : Word := s.sc.reg k.toNat - 1#32
    exec (.loop k o) s = .next (counted s ((s.gdst false k.toNat v.toNat).goto (branchTo s (v ≠ 0#32) o)) w) := by
  intro v
  refine runWord_counted hP hw ?_
  have hzero : decide (v.toNat ≠ 0) = decide (v ≠ 0#32) := by
    simp only [ne_eq, ← BitVec.toNat_inj, BitVec.toNat_ofNat, Nat.zero_mod]
  rw [groupOp_unpoisoned hc, loopCount]
  exact (branch_eq ..).trans (by rw [branchTo_gdst, hzero])

theorem branchesComplete : BranchesComplete := fun _ _ hP =>
  ⟨fun _ _ _ => exec_bra hP, fun _ => exec_call hP, exec_ret hP, fun _ _ => exec_jmpi hP, fun _ _ => exec_loop hP⟩

/-! ## BALW (R135) -/

theorem balwBranchesOnTheAllowance : BalwBranchesOnTheAllowance := by
  intro s k str c t w g o hR hw hc
  refine runWord_counted (runs_curRuns hR) hw ?_
  simp only [runs_asCourse hR, clean_checks hR hc, read_narrow]
  exact branch_eq ..

end

/-- Settles O22. -/
theorem branchesAndBalwComplete : Obligations.BranchesAndBalwComplete := ⟨branchesComplete, balwBranchesOnTheAllowance⟩

end Sys2Proof.Machine

/-! # Group-wide arithmetic (R137-R140) -/

namespace Sys2Proof.Machine

open Sys2Proof Sys2Proof.Spec

/-! ## The types that GT may name -/

/-- A type that GT may hold (R24), and its signedness. -/
abbrev ElemType.isGroup (t : ElemType) : Prop := t = .s32 ∨ t = .n32 ∨ t = .s64 ∨ t = .n64
abbrev ElemType.groupSigned (t : ElemType) : Bool := t == .s32 || t == .s64

section
variable {t : ElemType} {x y : Nat}

theorem width_group (ht : t.isGroup) : t.width = t.opWidth := by
  rcases ht with rfl | rfl | rfl | rfl <;> rfl

theorem signed_group (ht : t.isGroup) : t.signed = t.groupSigned := by
  rcases ht with rfl | rfl | rfl | rfl <;> rfl

/-- A group operand is one element. -/
theorem split_group (ht : t.isGroup) (hx : x < 2 ^ t.opWidth) : t.split x = [x] := by
  have hc : t.count = 1 := by rcases ht with rfl | rfl | rfl | rfl <;> rfl
  simp [ElemType.split, hc, width_group ht, Nat.mod_eq_of_lt hx]

theorem elems2_group (ht : t.isGroup) (hx : x < 2 ^ t.opWidth) (hy : y < 2 ^ t.opWidth) (f : Nat → Nat → Nat) :
    elems2 t f x y = f x y % 2 ^ t.opWidth := by
  simp [elems2, split_group ht hx, split_group ht hy, packElems, width_group ht]

/-- The signed reading of a value of its width. -/
theorem signedOf_eq_signedVal {w : Nat} (hw : 0 < w) (hx : x < 2 ^ w) : signedOf w x = signedVal w x := by
  have hp : 2 ^ w = 2 * 2 ^ (w - 1) := by rw [← pow_succ']; congr 1; omega
  have hlt : 2 * x < 2 ^ w ↔ x < 2 ^ (w - 1) := by omega
  simp only [signedOf, Nat.mod_eq_of_lt hx, hlt, signedVal]
  norm_cast

theorem opWidth_pos (t : ElemType) : 0 < t.opWidth := by unfold ElemType.opWidth; split <;> decide

/-- The reading of a group operand. -/
def groupInt (t : ElemType) (x : Nat) : Int := if t.groupSigned then signedVal t.opWidth x else x

theorem int_group (ht : t.isGroup) (hx : x < 2 ^ t.opWidth) : t.int x = groupInt t x := by
  rw [ElemType.int, elemInt, width_group ht, signed_group ht, groupInt, signedOf_eq_signedVal (opWidth_pos t) hx, Nat.mod_eq_of_lt hx]

/-- The signed reading is the value modulo 2^w. -/
theorem groupInt_modEq (t : ElemType) (x : Nat) : groupInt t x ≡ x [ZMOD 2 ^ t.opWidth] := by
  unfold groupInt signedVal
  split
  · split
    · rfl
    · exact Int.sub_modulus_modEq_iff.2 rfl
  · rfl

/-- R138's wrap depends on a value modulo 2^w alone. -/
theorem wrapTo_modEq {w : Nat} {a b : Int} (h : a ≡ b [ZMOD 2 ^ w]) : wrapTo w a = wrapTo w b := by
  have h : a % ((2 ^ w : Nat) : Int) = b % ((2 ^ w : Nat) : Int) := by exact_mod_cast h
  rw [wrapTo, wrapTo, h]

theorem wrapTo_natCast (w n : Nat) : wrapTo w n = n % 2 ^ w := by
  rw [wrapTo, ← Int.natCast_mod, Int.toNat_natCast]

theorem wrapTo_mod (w : Nat) (a : Int) : wrapTo w a % 2 ^ w = wrapTo w a := by
  rw [wrapTo_eq]; exact Nat.mod_eq_of_lt (BitVec.isLt _)

@[simp] theorem et_groupAlu (t : ElemType) : (groupAlu t).et = t := rfl

theorem fit_group (ht : t.isGroup) (e : Int) : (groupAlu t).fit e = wrapTo t.opWidth e := by
  rw [← width_group ht]; rfl

/-- Exact arithmetic on the readings, wrapped, is arithmetic on the values modulo 2^w. -/
theorem fit_arith_group (ht : t.isGroup) (hx : x < 2 ^ t.opWidth) (hy : y < 2 ^ t.opWidth) (f : Int → Int → Int)
    (hf : ∀ {a b c d : Int}, a ≡ b [ZMOD 2 ^ t.opWidth] → c ≡ d [ZMOD 2 ^ t.opWidth] → f a c ≡ f b d [ZMOD 2 ^ t.opWidth]) :
    elems2 t (fun a b => (groupAlu t).fit (f (t.int a) (t.int b))) x y = wrapTo t.opWidth (f x y) := by
  rw [elems2_group ht hx hy, fit_group ht, wrapTo_mod, int_group ht hx, int_group ht hy]
  exact wrapTo_modEq (hf (groupInt_modEq t x) (groupInt_modEq t y))

theorem iadd_group (ht : t.isGroup) (hx : x < 2 ^ t.opWidth) (hy : y < 2 ^ t.opWidth) :
    iadd (groupAlu t) x y = (x + y) % 2 ^ t.opWidth := by
  rw [iadd, ← wrapTo_natCast, Nat.cast_add]
  exact fit_arith_group ht hx hy (· + ·) Int.ModEq.add

theorem isub_group (ht : t.isGroup) (hx : x < 2 ^ t.opWidth) (hy : y < 2 ^ t.opWidth) :
    isub (groupAlu t) x y = (x + 2 ^ t.opWidth - y) % 2 ^ t.opWidth := by
  have hcast : ((x + 2 ^ t.opWidth - y : Nat) : Int) = (x - y : Int) + 2 ^ t.opWidth := by push_cast [show y ≤ x + 2 ^ t.opWidth by omega]; ring
  rw [← wrapTo_natCast, hcast, wrapTo_modEq (Int.add_modulus_modEq_iff.2 rfl)]
  exact fit_arith_group ht hx hy (· - ·) Int.ModEq.sub

theorem imul_group (ht : t.isGroup) (hx : x < 2 ^ t.opWidth) (hy : y < 2 ^ t.opWidth) :
    imul (groupAlu t) x y = x * y % 2 ^ t.opWidth := by
  rw [imul, ← wrapTo_natCast, Nat.cast_mul]
  exact fit_arith_group ht hx hy (· * ·) Int.ModEq.mul

theorem bitAnd_group (t : ElemType) (x : Nat) (hy : y < 2 ^ t.opWidth) : bitAnd t x y = x &&& y :=
  Nat.mod_eq_of_lt (Nat.and_lt_two_pow _ hy)

theorem bitOr_group (hx : x < 2 ^ t.opWidth) (hy : y < 2 ^ t.opWidth) : bitOr t x y = x ||| y :=
  Nat.mod_eq_of_lt (Nat.or_lt_two_pow hx hy)

theorem bitXor_group (hx : x < 2 ^ t.opWidth) (hy : y < 2 ^ t.opWidth) : bitXor t x y = x ^^^ y :=
  Nat.mod_eq_of_lt (Nat.xor_lt_two_pow hx hy)

theorem shl_group (ht : t.isGroup) (hx : x < 2 ^ t.opWidth) (hy : y < 2 ^ t.opWidth) :
    shl (groupAlu t) x y = if y < t.opWidth then x * 2 ^ y % 2 ^ t.opWidth else 0 := by
  have hwrap : wrapTo t.opWidth (groupInt t x * ((2 ^ y : Nat) : Int)) = x * 2 ^ y % 2 ^ t.opWidth := by
    rw [← wrapTo_natCast, Nat.cast_mul]
    exact wrapTo_modEq ((groupInt_modEq t x).mul_right _)
  rw [shl, et_groupAlu, elems2_group ht hx hy, shlEl, fit_group ht]
  simp only [et_groupAlu, width_group ht, int_group ht hx, hwrap]
  split
  · exact Nat.mod_mod ..
  · rfl

theorem shr_group (ht : t.isGroup) (hx : x < 2 ^ t.opWidth) (hy : y < 2 ^ t.opWidth) :
    shr t x y = if y < t.opWidth then x / 2 ^ y else 0 := by
  rw [shr, elems2_group ht hx hy, shrEl, width_group ht, Nat.mod_eq_of_lt hx, Nat.shiftRight_eq_div_pow]
  split
  · exact Nat.mod_eq_of_lt (Nat.lt_of_le_of_lt (Nat.div_le_self ..) hx)
  · exact Nat.zero_mod _

theorem sar_group (ht : t.isGroup) (hx : x < 2 ^ t.opWidth) (hy : y < 2 ^ t.opWidth) :
    sar t x y = (signedVal t.opWidth x / 2 ^ min y (t.opWidth - 1) % 2 ^ t.opWidth).toNat := by
  have hcount : (if y < t.opWidth then y else t.opWidth - 1) = min y (t.opWidth - 1) := by
    have := opWidth_pos t
    split <;> omega
  rw [sar, elems2_group ht hx hy, sarEl, width_group ht, wrapTo_mod, signedOf_eq_signedVal (opWidth_pos t) hx, hcount, wrapTo]
  push_cast
  rfl

/-- R138's order of two group values, signed or not as their type is. -/
def groupLess (t : ElemType) (x y : Nat) : Bool :=
  if t.groupSigned then decide (signedVal t.opWidth x < signedVal t.opWidth y) else decide (x < y)

theorem groupLess_iff (t : ElemType) (x y : Nat) : groupLess t x y = true ↔ groupInt t x < groupInt t y := by
  unfold groupLess groupInt
  split <;> simp

theorem imin_group (ht : t.isGroup) (hx : x < 2 ^ t.opWidth) (hy : y < 2 ^ t.opWidth) :
    imin (groupAlu t) x y = if groupLess t y x then y else x := by
  rw [imin, et_groupAlu, elems2_group ht hx hy]
  simp only [int_group ht hx, int_group ht hy, groupLess_iff, ← not_lt, ite_not]
  split <;> apply Nat.mod_eq_of_lt <;> assumption

/-- Values of one width with the same reading are the same. -/
theorem groupInt_inj (hx : x < 2 ^ t.opWidth) (hy : y < 2 ^ t.opWidth) : groupInt t x = groupInt t y ↔ x = y := by
  refine ⟨fun h => ?_, fun h => h ▸ rfl⟩
  have hmod := ((groupInt_modEq t x).symm.trans (h ▸ groupInt_modEq t y))
  have hmod : x % 2 ^ t.opWidth = y % 2 ^ t.opWidth := by
    have := Int.ModEq.eq hmod
    exact_mod_cast this
  rwa [Nat.mod_eq_of_lt hx, Nat.mod_eq_of_lt hy] at hmod

theorem imax_group (ht : t.isGroup) (hx : x < 2 ^ t.opWidth) (hy : y < 2 ^ t.opWidth) :
    imax (groupAlu t) x y = if groupLess t x y then y else x := by
  rw [imax, et_groupAlu, elems2_group ht hx hy]
  simp only [int_group ht hx, int_group ht hy, groupLess_iff]
  rcases lt_trichotomy (groupInt t x) (groupInt t y) with h | h | h
  · rw [if_pos h, if_pos h.le, Nat.mod_eq_of_lt hy]
  · rw [if_neg h.not_lt, if_pos h.le, (groupInt_inj hx hy).1 h, Nat.mod_eq_of_lt hy]
  · rw [if_neg h.not_gt, if_neg h.not_ge, Nat.mod_eq_of_lt hx]

end

end Sys2Proof.Machine

namespace Sys2Proof.Machine

open Sys2Proof Sys2Proof.Spec

/-! ## The group-wide instructions -/

section
variable {s : State} {w : Word}

/-- A group source is a value of its width. -/
theorem scalarSrc_lt (x : Scalar) (wide : Bool) (a : Nat) : x.src wide a < 2 ^ (if wide then 64 else 32) := by
  have h0 := (x.reg a).isLt
  have h1 := (x.reg (a + 1)).isLt
  unfold Scalar.src Scalar.read
  cases wide <;> simp only [Bool.false_eq_true, ↓reduceIte] <;> split <;> omega

theorem gsrc_lt (s : State) (a : Nat) : s.gsrc s.gwide a < 2 ^ (s.gt s.cur).opWidth := scalarSrc_lt ..

/-- A group-wide operation of two sources, its result named. -/
theorem gbin_completes (hP : Present s) {i : Instr} (hw : Passes s i w) {d a b : BitVec 6} (hc : Clean s [(a.toNat, s.gwide), (b.toNat, s.gwide)])
    {f : AluMode → Nat → Nat → Nat} {v : Nat} (hv : f (groupAlu (s.gt s.cur)) (s.gsrc s.gwide a.toNat) (s.gsrc s.gwide b.toNat) = v) :
    s.gbin i d a b f = .next (finished s (s.gdst s.gwide d.toNat v) w) :=
  runWord_finished hP hw ((groupOp_unpoisoned hc _).trans (congrArg (fun v => Res.done (s.gdst s.gwide d.toNat v)) hv))

/-- Each group-wide instruction of two sources is one operation, whose result is R138's (R137, R138). -/
theorem exec_groupBinary (s : State) {i : Instr} {d a b : BitVec 6} (hf : groupFields i = some (d, a, b)) :
    ∃ f, exec i s = s.gbin i d a b f ∧ ∀ {t : ElemType} {x y : Nat}, t.isGroup → x < 2 ^ t.opWidth → y < 2 ^ t.opWidth →
      groupResult i t.opWidth t.groupSigned x y = some (f (groupAlu t) x y) := by
  cases i
  case gadd => cases hf; exact ⟨iadd, rfl, fun ht hx hy => congrArg some (iadd_group ht hx hy).symm⟩
  case gsub => cases hf; exact ⟨isub, rfl, fun ht hx hy => congrArg some (isub_group ht hx hy).symm⟩
  case gmul => cases hf; exact ⟨imul, rfl, fun ht hx hy => congrArg some (imul_group ht hx hy).symm⟩
  case gand => cases hf; exact ⟨fun m => bitAnd m.et, rfl, fun _ _ hy => congrArg some (bitAnd_group _ _ hy).symm⟩
  case gor => cases hf; exact ⟨fun m => bitOr m.et, rfl, fun _ hx hy => congrArg some (bitOr_group hx hy).symm⟩
  case gxor => cases hf; exact ⟨fun m => bitXor m.et, rfl, fun _ hx hy => congrArg some (bitXor_group hx hy).symm⟩
  case gshl => cases hf; exact ⟨shl, rfl, fun ht hx hy => congrArg some (shl_group ht hx hy).symm⟩
  case gshr => cases hf; exact ⟨fun m => shr m.et, rfl, fun ht hx hy => congrArg some (shr_group ht hx hy).symm⟩
  case gsar => cases hf; exact ⟨fun m => sar m.et, rfl, fun ht hx hy => congrArg some (sar_group ht hx hy).symm⟩
  case gmin => cases hf; exact ⟨imin, rfl, fun ht hx hy => congrArg some (imin_group ht hx hy).symm⟩
  case gmax => cases hf; exact ⟨imax, rfl, fun ht hx hy => congrArg some (imax_group ht hx hy).symm⟩
  all_goals exact nomatch hf

theorem groupArithmeticCompletes : GroupArithmeticCompletes := by
  intro s i w d a b v hP hw ht hf hc hv
  obtain ⟨f, hx, hresult⟩ := exec_groupBinary s hf
  have hv : f (groupAlu (s.gt s.cur)) (s.gsrc s.gwide a.toNat) (s.gsrc s.gwide b.toNat) = v :=
    Option.some.inj ((hresult ht (gsrc_lt s a.toNat) (gsrc_lt s b.toNat)).symm.trans hv)
  rw [hx]
  exact gbin_completes hP hw hc hv

/-! ## GADDI, GLI, GLI.H and GCMP -/

theorem exec_gaddi (hP : Present s) {d a : BitVec 6} {v : BitVec 12} (hw : Passes s (.gaddi d a v) w) (hc : Clean s [(a.toNat, s.gwide)]) :
    exec (.gaddi d a v) s =
      .next (finished s (s.gdst s.gwide d.toNat (((s.gsrc s.gwide a.toNat : Int) + v.toInt) % 2 ^ gtWidth s).toNat) w) := by
  have hv (n : Nat) (x : Int) : wrapTo n x = (x % 2 ^ n).toNat := by rw [wrapTo]; push_cast; rfl
  rw [← hv]
  exact runWord_finished hP hw (groupOp_unpoisoned hc _)

theorem exec_gli (hP : Present s) {d : BitVec 6} {v : BitVec 17} (hw : Passes s (.gli d v) w) :
    exec (.gli d v) s = .next (finished s (s.gdst false d.toNat (v.signExtend 32).toNat) w) := by
  rw [BitVec.signExtend, ← wrapTo_eq]
  exact runWord_finished hP hw rfl

theorem exec_gliH (hP : Present s) {d : BitVec 6} {v : BitVec 15} (hw : Passes s (.gliH d v) w) (hc : Clean s [(d.toNat, false)]) :
    exec (.gliH d v) s = .next (finished s (s.gdst false d.toNat (v.toNat * 2 ^ 17 + s.gsrc false d.toNat % 2 ^ 17)) w) :=
  runWord_finished hP hw (groupOp_unpoisoned hc _)

/-- R88's conditions on integers, by the order and equality of the two. -/
theorem intCond_eq (k : Nat) (a b : Int) : intCond k a b = condHolds k (decide (a < b)) (decide (a = b)) := by
  unfold intCond condHolds
  split
  · rfl
  · exact decide_not
  · rfl
  · simp only [le_iff_lt_or_eq, Bool.decide_or]
  · simp only [← decide_not, ← Bool.decide_and, decide_eq_decide]; omega
  · simp only [← decide_not, decide_eq_decide]; omega

/-- R139: GCMP's condition on two group values. -/
theorem cmpInt_group {t : ElemType} {x y : Nat} (ht : t.isGroup) (hx : x < 2 ^ t.opWidth) (hy : y < 2 ^ t.opWidth) (k : Nat) :
    cmpInt t k x y = condHolds k (groupLess t x y) (decide (x = y)) := by
  have hless : decide (groupInt t x < groupInt t y) = groupLess t x y := by rw [Bool.eq_iff_iff, decide_eq_true_iff, groupLess_iff]
  simp only [cmpInt, split_group ht hx, split_group ht hy, List.zipWith_cons_cons, List.zipWith_nil_left, List.all_cons, List.all_nil, id,
    Bool.and_true, intCond_eq, int_group ht hx, int_group ht hy, groupInt_inj hx hy, hless]

theorem exec_gcmp (hP : Present s) {p m : BitVec 3} {a b k : BitVec 6} (hw : Passes s (.gcmp p m a b k) w) (ht : GtLegal s)
    (hc : Clean s [(a.toNat, s.gwide), (b.toNat, s.gwide)]) :
    exec (.gcmp p m a b k) s = .next (finished s (s.setScalar s.cur (s.sc.setPred p.toNat (combined m.toNat (s.sc.pred p.toNat)
      (condHolds k.toNat (groupLess (s.gt s.cur) (s.gsrc s.gwide a.toNat) (s.gsrc s.gwide b.toNat))
        (decide (s.gsrc s.gwide a.toNat = s.gsrc s.gwide b.toNat)))))) w) := by
  rw [← cmpInt_group ht (gsrc_lt s a.toNat) (gsrc_lt s b.toNat), ← combinePred_eq_combined]
  exact runWord_finished hP hw (groupOp_unpoisoned hc _)

theorem groupImmediatesAndComparesComplete : GroupImmediatesAndComparesComplete := fun _ _ hP =>
  ⟨fun _ _ _ => exec_gaddi hP, fun _ _ => exec_gli hP, fun _ _ => exec_gliH hP, fun _ _ _ _ _ => exec_gcmp hP, fun _ _ => rfl⟩

end

/-- Settles O24: each operation on two group values is its result modulo 2^w, by `exec_groupBinary`. -/
theorem groupInstructionsComplete : Obligations.GroupInstructionsComplete :=
  ⟨groupArithmeticCompletes, groupImmediatesAndComparesComplete⟩

end Sys2Proof.Machine

namespace Sys2Proof.Machine

open Sys2Proof Sys2Proof.Spec

/-! ## What a group destination changes (R137, R138) -/

theorem reg_set_same (x : Scalar) {n : Nat} (hn : n < 32) (v : Nat) : (x.set n v).reg n = BitVec.ofNat 32 v := by
  simp [Scalar.reg, Scalar.set, hn]

theorem reg_set_other (x : Scalar) {k n : Nat} (h : n ≠ k) (v : Nat) : (x.set k v).reg n = x.reg n := by
  simp [Scalar.reg, Scalar.set, h]

theorem reg_dst_other (x : Scalar) {wide : Bool} {d n : Nat} (h : n ≠ d) (hp : ¬ (wide = true ∧ n = d + 1)) (v : Nat) :
    (x.dst wide d v).reg n = x.reg n := by
  unfold Scalar.dst
  split
  · cases wide
    · exact reg_set_other x h v
    · exact (reg_set_other _ (fun e => hp ⟨rfl, e⟩) _).trans (reg_set_other x h v)
  · rfl

theorem reg_dst_same (x : Scalar) (wide : Bool) {d : Nat} (hd : d < 32) (v : Nat) : (x.dst wide d v).reg d = BitVec.ofNat 32 v := by
  simp only [Scalar.dst, hd, ↓reduceIte]
  cases wide
  · exact reg_set_same x hd v
  · exact (reg_set_other _ (Nat.ne_of_lt d.lt_succ_self) _).trans (reg_set_same x hd v)

theorem reg_dst_upper (x : Scalar) {d : Nat} (hd : d < 31) (v : Nat) : (x.dst true d v).reg (d + 1) = BitVec.ofNat 32 (v / 2 ^ 32) := by
  simp only [Scalar.dst, show d < 32 by omega, ↓reduceIte]
  exact reg_set_same _ (by omega) _

@[simp] theorem gp_set (x : Scalar) (k v : Nat) : (x.set k v).gp = x.gp := by simp only [Scalar.set]
@[simp] theorem red_set (x : Scalar) (k v : Nat) : (x.set k v).red = x.red := by simp only [Scalar.set]
@[simp] theorem redSeq_set (x : Scalar) (k v : Nat) : (x.set k v).redSeq = x.redSeq := by simp only [Scalar.set]

@[simp] theorem gp_dst (x : Scalar) (wide : Bool) (d v : Nat) : (x.dst wide d v).gp = x.gp := by
  unfold Scalar.dst; split_ifs <;> simp
@[simp] theorem red_dst (x : Scalar) (wide : Bool) (d v : Nat) : (x.dst wide d v).red = x.red := by
  unfold Scalar.dst; split_ifs <;> simp
@[simp] theorem redSeq_dst (x : Scalar) (wide : Bool) (d v : Nat) : (x.dst wide d v).redSeq = x.redSeq := by
  unfold Scalar.dst; split_ifs <;> simp

section
variable {s : State} {k : Nat} {str : Bool} {c : Course} {t : Team}

theorem gdst_course (hcur : s.cur = .course k str) (wide : Bool) (d v : Nat) :
    s.gdst wide d v = s.modCourse k fun c => { c with sc := s.sc.dst wide d v } := by
  simp only [State.gdst, hcur, State.setScalar]

/-- A group result in a course's register file. -/
def Course.tookGroup (c : Course) (wide : Bool) (d v : Nat) : Course := { c with sc := c.sc.dst wide d v }

theorem gdst_onlyCourse (hR : Runs s k str c t) (wide : Bool) (d v : Nat) :
    OnlyCourse s (s.gdst wide d v) k ∧ (s.gdst wide d v).course? k = some (c.tookGroup wide d v) := by
  rw [gdst_course (runs_cur hR), runs_sc hR]
  exact ⟨onlyCourse_modCourse _ ⟨rfl, fun _ _ => rfl⟩, by rw [course_modCourse_same, runs_course hR]; rfl⟩

/-- Settles O25: a group result is written in the register file of its own course alone (`gdst_onlyCourse`). -/
theorem groupArithmeticFrame : Obligations.GroupArithmeticFrame := by
  intro s k str c t i w d a b v u hR hw ht hf hc hv hx
  cases hx.symm.trans (groupArithmeticCompletes s i w d a b v (runs_curRuns hR) hw ht hf hc hv)
  obtain ⟨honly, hcourse⟩ := gdst_onlyCourse hR s.gwide d.toNat v
  obtain ⟨hcur, -, hteam, -, -⟩ := hR
  obtain ⟨n, y, hfin⟩ := finished_course (s := s) (u := s.gdst s.gwide d.toNat v) (by rw [honly.1]; exact hcur) (by rw [honly.1]; exact hteam) hcourse w
  refine ⟨finished_elsewhere honly hcur hteam w, _, hfin, ?_⟩
  have hsc : (((c.tookGroup s.gwide d.toNat v).charged str n y).onNext str).sc = c.sc.dst s.gwide d.toNat v := by cases str <;> rfl
  rw [hsc, gp_dst, red_dst, redSeq_dst]
  refine ⟨?_, ?_, ?_, ?_, ?_, ?_, ?_, ?_, ?_, ?_, ?_, ?_, ?_, ?_, ?_, ?_, ?_, rfl, rfl, rfl,
    fun _ _ hn hp => reg_dst_other _ hn hp v, fun hd => reg_dst_same _ _ hd v, fun hd hwide => hwide ▸ reg_dst_upper _ hd v, fun hd => by rw [hd]; rfl⟩
  all_goals cases str <;> rfl

end

end Sys2Proof.Machine

/-! # TRAP, BKPT and the end of a team at a second trap (R123, R271, R274) -/

namespace Sys2Proof.Machine

open Sys2Proof Sys2Proof.Spec

theorem softwareTrapsEnterTheHandler : SoftwareTrapsEnterTheHandler := fun _ _ _ _ _ _ _ hR hT =>
  ⟨fun hw => runWord_trapsWith (cause := .swTrap) hR hT hw rfl (by decide) (by decide),
    fun hw => runWord_trapsWith (cause := .bkpt) hR hT hw rfl (by decide) (by decide)⟩

/-! ## The causes that an ending team's courses held (R443) -/

/-- The courses and teams are as they were, and die d lists the records rs after those it had. -/
def Posted (s u : State) (d : Nat) (rs : List FaultRec) : Prop :=
  u.courses = s.courses ∧ u.teams = s.teams ∧ (u.die d).faults = (s.die d).faults ++ rs

theorem posted_nothing (s : State) (d : Nat) : Posted s s d [] := ⟨rfl, rfl, (List.append_nil _).symm⟩

theorem posted_trans {s u v : State} {d : Nat} {rs qs : List FaultRec} (h : Posted s u d rs) (g : Posted u v d qs) : Posted s v d (rs ++ qs) := by
  obtain ⟨hc, ht, hf⟩ := h
  obtain ⟨gc, gt, gf⟩ := g
  exact ⟨gc.trans hc, gt.trans ht, by rw [gf, hf, List.append_assoc]⟩

theorem posted_postFault (s : State) (d : Nat) (r : FaultRec) : Posted s (s.postFault d r) d [r] :=
  ⟨rfl, rfl, by rw [State.postFault, die_modDie_same]⟩

theorem posted_reportHeld (s : State) (t : Team) (cid : Nat) (h : HeldCause) : ∃ rs, Posted s (s.reportHeld t cid h) (dieOfCore t.core) rs := by
  unfold State.reportHeld
  split
  · exact ⟨_, posted_postFault ..⟩
  · exact ⟨_, posted_postFault ..⟩
  · exact ⟨_, posted_nothing ..⟩

/-- What each step of a fold posts, the fold posts in order. -/
theorem posted_foldl {β : Type} {d : Nat} (g : State → β → State) (bs : List β) (h : ∀ u, ∀ b ∈ bs, ∃ rs, Posted u (g u b) d rs) (s : State) :
    ∃ rs, Posted s (bs.foldl g s) d rs := by
  induction bs generalizing s with
  | nil => exact ⟨_, posted_nothing ..⟩
  | cons b bs ih =>
    obtain ⟨rs, hb⟩ := h s b List.mem_cons_self
    obtain ⟨qs, hbs⟩ := ih (fun u b' hb' => h u b' (List.mem_cons_of_mem _ hb')) (g s b)
    exact ⟨_, posted_trans hb hbs⟩

/-- The records left for the causes that the courses of an ending team held. -/
def State.reportAllHeld (s : State) (t : Team) (cs : List (Nat × Course)) : State :=
  cs.foldl (fun s kc => kc.2.held.foldl (fun s h => s.reportHeld t (kc.1 % 16) h) s) s

theorem reportAllHeld_none (s : State) (t : Team) {cs : List (Nat × Course)} (h : ∀ kc ∈ cs, kc.2.held = []) : s.reportAllHeld t cs = s := by
  induction cs generalizing s with
  | nil => rfl
  | cons kc cs ih =>
    rw [State.reportAllHeld, List.foldl_cons, h kc List.mem_cons_self]
    exact ih s fun x hx => h x (List.mem_cons_of_mem _ hx)

theorem posted_reportAllHeld (s : State) (t : Team) (cs : List (Nat × Course)) :
    ∃ rs, Posted s (s.reportAllHeld t cs) (dieOfCore t.core) rs ∧ ((∀ kc ∈ cs, kc.2.held = []) → rs = []) := by
  by_cases h : ∀ kc ∈ cs, kc.2.held = []
  · rw [reportAllHeld_none s t h]
    exact ⟨[], posted_nothing .., fun _ => rfl⟩
  · obtain ⟨rs, hrs⟩ := posted_foldl (d := dieOfCore t.core) _ cs
      (fun u kc _ => posted_foldl _ kc.2.held (fun v hc _ => posted_reportHeld v t (kc.1 % 16) hc) u) s
    exact ⟨rs, hrs, fun hn => absurd hn h⟩

/-! ## The end of a team (R274) -/

/-- Whether a slot holds a store whose lanes have begun to enter the buffer. -/
def Slot.storeBegun (x : Slot) : Bool := match x.hold with | .entering .. => true | _ => false

theorem storeBegun_iff (x : Slot) : x.storeBegun = true ↔ Entering x := by
  unfold Slot.storeBegun
  split
  · next n ps m h => exact ⟨fun _ => ⟨n, ps, m, h⟩, fun _ => rfl⟩
  · next h => exact ⟨nofun, fun ⟨n, ps, m, he⟩ => absurd he (h n ps m)⟩

/-- A slot of a course that ends: freed, unless its store has begun to enter the buffer (R274). -/
def Slot.orFree (x : Slot) : Slot := if x.storeBegun then x else Slot.free

theorem orFree_entering {x : Slot} (h : x.storeBegun = true) : Entering x.orFree := by
  rw [Slot.orFree, if_pos h]; exact (storeBegun_iff x).1 h

theorem orFree_free_or_entering (x : Slot) : x.orFree.mask = 0#32 ∨ Entering x.orFree := by
  cases h : x.storeBegun
  · left; rw [Slot.orFree, h]; rfl
  · exact .inr (orFree_entering h)

theorem halt_eq (c : Course) : c.halt = if c.header.storeBegun || c.stretcher.storeBegun
    then { c with header := c.header.orFree, stretcher := c.stretcher.orFree, held := [], preempt := none, seen := [] } else c.stop := rfl

theorem stop_not_live (c : Course) : c.stop.life ≠ .live := by
  unfold Course.stop
  dsimp only
  split <;> nofun

/-- A course that has been halted lives on only for a store whose lanes are entering the buffer, in that store's slot. -/
theorem halt_live {c : Course} (h : c.halt.life = .live) : (Entering c.halt.header ∨ Entering c.halt.stretcher) ∧
    (c.halt.header.mask = 0#32 ∨ Entering c.halt.header) ∧ (c.halt.stretcher.mask = 0#32 ∨ Entering c.halt.stretcher) := by
  rw [halt_eq] at h ⊢
  split at h
  · next hb =>
    rw [if_pos hb]
    exact ⟨(Bool.or_eq_true_iff.1 hb).imp orFree_entering orFree_entering, orFree_free_or_entering _, orFree_free_or_entering _⟩
  · exact absurd h (stop_not_live c)

theorem course?_halted (s : State) (t j : Nat) :
    ({ s with courses := s.courses.map fun kc => if kc.1 / 16 = t then (kc.1, kc.2.halt) else kc } : State).course? j =
      (s.course? j).map fun c => if j / 16 = t then c.halt else c := by
  simp only [State.course?]
  generalize s.courses = m
  induction m with
  | nil => rfl
  | cons kc m ih =>
    obtain ⟨i, c⟩ := kc
    by_cases hi : i = j
    · subst hi; by_cases ht : i / 16 = t <;> simp [SMap.find?, ht]
    · by_cases ht : i / 16 = t <;> simp [SMap.find?, ht, Ne.symm hi, ih]

/-- What the end of a team leaves: none of its courses live but for a store that enters the buffer, its sequencer idle. -/
theorem stopTeam_ends (s : State) (h : Nat) {t : Team} (ht : s.team? h = some t) :
    (∀ j x, (s.stopTeam h).course? j = some x → j / 16 = h → x.life = .live →
      (Entering x.header ∨ Entering x.stretcher) ∧ (x.header.mask = 0#32 ∨ Entering x.header) ∧ (x.stretcher.mask = 0#32 ∨ Entering x.stretcher)) ∧
    (∀ x, (s.stopTeam h).team? h = some x → x.seq.run = .idle ∧ x.abnormal = true) ∧
    ∃ rs, ((s.stopTeam h).die (dieOfCore t.core)).faults = (s.die (dieOfCore t.core)).faults ++ rs ∧
      ((∀ kc ∈ s.coursesOf h, kc.2.held = []) → rs = []) := by
  obtain ⟨rs, ⟨-, -, hf⟩, hnone⟩ := posted_reportAllHeld s t (s.coursesOf h)
  simp only [State.stopTeam, ht]
  refine ⟨fun j x hx hj hl => ?_, fun x hx => ?_, rs, hf, hnone⟩
  · rw [course?_modTeam, course?_halted, Option.map_eq_some_iff] at hx
    obtain ⟨c, -, rfl⟩ := hx
    rw [if_pos hj] at hl ⊢
    exact halt_live hl
  · rw [team_modTeam_same, Option.map_eq_some_iff] at hx
    obtain ⟨y, -, rfl⟩ := hx
    exact ⟨rfl, rfl⟩

section
variable {s : State} {k : Nat} {str : Bool} {c : Course} {t : Team}

/-- A trap that a course may not take ends its team (R274). -/
theorem takeTrap_double (hR : Runs s k str c t) (hv : t.version = none) (ha : t.abnormal = false) (h : c.handler = true ∨ c.hbase = 0#64)
    {cause : Cause} (hs : cause ≠ .secViol) (va m ti : Nat) :
    s.takeTrap cause va m ti = s.doubleTrap (k / 16) c.cid str cause (c.slot str).pc := by
  obtain ⟨hcur, hc, ht, -, -⟩ := hR
  rw [takeTrap_unlogged s hs]
  simp [State.enterTrap, State.trapCourse, hcur, hc, ht, hv, ha, h]

theorem doubleTrapEndsTheTeam : DoubleTrapEndsTheTeam := by
  intro s k str c t w imm hR hv ha hcannot hw
  refine ⟨_, (runWord_takesTrap (runs_curRuns hR) hw rfl).trans (congrArg _ (takeTrap_double hR hv ha hcannot (by decide) ..)), ?_⟩
  obtain ⟨-, -, ht, -, -⟩ := hR
  simp only [State.doubleTrap, ht]
  let r := teamRec t 4 c.cid (boolNat str) Cause.swTrap.code (c.slot str).pc.toNat 0 0
  obtain ⟨hlive, hidle, rs, hf, hnone⟩ := stopTeam_ends (s.postFault (dieOfCore t.core) r) (k / 16) ht
  have hfaults : ((s.postFault (dieOfCore t.core) r).die (dieOfCore t.core)).faults = (s.die (dieOfCore t.core)).faults ++ [r] :=
    (posted_postFault ..).2.2
  exact ⟨hlive, hidle, r, rs, hf.trans (by rw [hfaults, List.append_assoc]; rfl), hnone, rfl, rfl, rfl, rfl, rfl⟩

end

/-- Settles O19, by the two ends of a trap: entry to the handler, and `doubleTrap`. -/
theorem softwareTrapsEnterTheHandlerOnce : Obligations.SoftwareTrapsEnterTheHandlerOnce :=
  ⟨softwareTrapsEnterTheHandler, doubleTrapEndsTheTeam⟩

end Sys2Proof.Machine

/-! # BRC and JOIN (R129-R132) -/

namespace Sys2Proof.Machine

open Sys2Proof Sys2Proof.Spec

/-! ## The split of a slot (R129, R12) -/

section
variable {s : State} {k : Nat} {str : Bool} {c : Course} {t : Team} {tk target : Word}

theorem split_none : s.split k str c t 0#32 target = .jumped (s.setCourse k (c.setSlot str (Slot.moved (c.slot str) ((c.slot str).pc + 4#32)))) := by
  simp only [State.split, ↓reduceIte]
  rfl

theorem split_all (h0 : tk ≠ 0#32) (hall : tk = (c.slot str).mask) :
    s.split k str c t tk target = .jumped (s.setCourse k (c.setSlot str (Slot.moved (c.slot str) target))) :=
  (if_neg h0).trans (if_pos hall)

theorem split_free (h0 : tk ≠ 0#32) (hall : tk ≠ (c.slot str).mask) (hy : (c.slot (!str)).mask = 0#32) :
    s.split k str c t tk target = .jumped (s.setCourse k (splitFree c str tk target)) :=
  (if_neg h0).trans ((if_neg hall).trans (if_pos hy))

/-- With both slots taken, the split goes to the stack. -/
theorem split_stack (h0 : tk ≠ 0#32) (hall : tk ≠ (c.slot str).mask) (hy : (c.slot (!str)).mask ≠ 0#32) :
    s.split k str c t tk target =
      if c.handler || decide (32 ≤ c.depth) then .trap .splitOvf 0 0 0
      else if !stackIn t c c.depth then .trap .spBound 0 0 0
      else .jumped ((s.setTeam (k / 16) (t.spWrite (c.splitSp.toNat + 16 * c.depth) (entryBytes target tk ((c.slot str).id + 1#16)))).setCourse k
        (splitPush c str tk)) :=
  (if_neg h0).trans ((if_neg hall).trans (if_neg hy))

theorem stackIn_iff (t : Team) (c : Course) (n : Nat) : stackIn t c n = true ↔ c.splitSp.toNat + 16 * n + 16 ≤ t.spSize := decide_eq_true_iff

theorem exec_brc (hR : Runs s k str c t) (n : BitVec 1) (p : BitVec 3) (o : BitVec 20) :
    exec (.brc n p o) s = s.runWord (.brc n p o)
      (s.split k str c t (takers c str (n == 1#1) p.toNat) (branchTarget (c.slot str).pc o)) := by
  have hpc : BitVec.ofNat 32 s.pc = (c.slot str).pc := by simp [State.pc, runs_cur hR, runs_course hR]
  have htarget : BitVec.ofNat 32 (s.target o) = branchTarget (c.slot str).pc o := by rw [target_eq_branchTarget, hpc, BitVec.ofNat_toNat, BitVec.setWidth_eq]
  rw [← htarget]
  change execBrc n p o s = _
  unfold execBrc
  refine congrArg _ ((runs_asCourse hR _).trans ?_)
  rw [runs_team hR]
  rfl
end

theorem brcSplitsTheSlot : BrcSplitsTheSlot := by
  intro s k str c t w n p o hR hw
  have hP := runs_curRuns hR
  simp only [exec_brc hR]
  refine ⟨fun h0 => ?_, fun h0 hall => ?_, fun h0 hall hy => ?_, fun h0 hall hy => ⟨fun hfull => ?_, fun ⟨hh, hd⟩ hout => ?_, fun ⟨hh, hd⟩ hin => ?_⟩⟩
  · rw [h0]; exact runWord_counted hP hw split_none
  · exact runWord_counted hP hw (split_all h0 hall)
  · exact runWord_counted hP hw (split_free h0 hall hy)
  all_goals rw [split_stack h0 hall hy]
  · refine runWord_takesTrap hP hw (if_pos ?_)
    simpa using hfull
  · refine runWord_takesTrap hP hw ((if_neg ?_).trans (if_pos ?_))
    · simp [hh, hd]
    · simpa [stackIn] using hout
  · refine runWord_counted hP hw ((if_neg ?_).trans (if_neg ?_))
    · simp [hh, hd]
    · simpa [stackIn] using hin

/-! ## The cases of JOIN (R130, R131) -/

/-- The slot that JOIN leaves on the next word, with lanes m and id n. -/
def Slot.joined (x : Slot) (m : Word) (n : BitVec 16) : Slot := { Slot.free with pc := x.pc + 4#32, mask := m, id := n }

/-- An entry of the stack as a slot takes it: its PC that of a word (R131). -/
def Slot.popped (e : Slot) : Slot := { e with pc := e.pc &&& 0xFFFFFFFC#32 }

/-- JOIN's case 2: the other slot stands at the same PC with the same id (R130). -/
abbrev Meets (x y : Slot) : Prop := y.mask ≠ 0#32 ∧ y.pc = x.pc ∧ y.id = x.id

/-- Both slots as one, in the header, and the stretcher free (R130's case 2). -/
def Course.merged (c : Course) (str : Bool) : Course :=
  { c with header := (c.slot str).joined ((c.slot str).mask ||| (c.slot (!str)).mask) ((c.slot str).id - 1#16), stretcher := Slot.free }

@[simp] theorem effDepth_merged (c : Course) (str : Bool) : (c.merged str).effDepth = c.effDepth := rfl

section
variable {c : Course} {t : Team} {str : Bool}

theorem joinCase_outermost (hx : (c.slot str).id = 0#16) :
    joinCase t c str = .moved (c.setSlot str (Slot.moved (c.slot str) ((c.slot str).pc + 4#32))) := if_pos hx

theorem joinCase_meets (hx : (c.slot str).id ≠ 0#16) (hy : Meets (c.slot str) (c.slot (!str))) :
    joinCase t c str = .merged (c.merged str) :=
  (if_neg hx).trans (if_pos hy)

variable (hx : (c.slot str).id ≠ 0#16) (hy : ¬ Meets (c.slot str) (c.slot (!str)))
include hx hy

/-- JOIN with nothing on the stack and no slot to meet: case 5 or 6. -/
theorem joinCase_noStack (hd : c.effDepth = 0) : joinCase t c str =
    if (c.slot (!str)).mask = 0#32 ∨ (c.slot (!str)).id < (c.slot str).id
    then .moved (c.setSlot str ((c.slot str).joined (c.slot str).mask ((c.slot str).id - 1#16))) else .stuck := by
  refine (if_neg hx).trans ((if_neg hy).trans ?_)
  simp only [hd, Nat.lt_irrefl, false_and, ↓reduceIte, List.range_zero, List.all_nil, and_true]
  rfl

/-- JOIN with a top entry that can be read: cases 3 to 6. -/
theorem joinCase_stack (hd : 0 < c.effDepth) (hin : stackIn t c (c.effDepth - 1) = true)
    (hpoison : t.spPoisoned (c.splitSp.toNat + 16 * (c.effDepth - 1)) 16 = false) : joinCase t c str =
    let e := stackEntry t c (c.effDepth - 1)
    if e.id = (c.slot str).id then
      if e.pc = (c.slot str).pc then
        .moved (({ c with depth := c.depth - 1 }).setSlot str ((c.slot str).joined ((c.slot str).mask ||| e.mask) ((c.slot str).id - 1#16)))
      else .swapped (c.setSlot str e.popped) { Slot.free with pc := (c.slot str).pc, mask := (c.slot str).mask, id := (c.slot str).id }
    else if ((c.slot (!str)).mask = 0#32 ∨ (c.slot (!str)).id < (c.slot str).id) ∧
        (List.range c.effDepth).all (fun n => decide ((stackEntry t c n).id < (c.slot str).id))
    then .moved (c.setSlot str ((c.slot str).joined (c.slot str).mask ((c.slot str).id - 1#16))) else .stuck := by
  refine (if_neg hx).trans ((if_neg hy).trans ?_)
  simp only [hd, hin, hpoison, Bool.not_true, Bool.false_eq_true, and_false, ↓reduceIte, true_and]
  rfl

end

/-- A refill from an entry that can be read raises nothing (R131). -/
theorem refill_succeeds {c : Course} {t : Team} (hd : c.effDepth ≠ 0) (hin : stackIn t c (c.effDepth - 1) = true)
    (hpoison : t.spPoisoned (c.splitSp.toNat + 16 * (c.effDepth - 1)) 16 = false) : refillFails t c = none := by
  rw [refillFails, if_neg hd, hin, hpoison]; rfl

theorem refill_noStack {c : Course} (t : Team) (hd : c.effDepth = 0) (str : Bool) : c.refill t str = c := if_pos hd

/-- A refill takes the top entry into the freed slot (R131). -/
theorem refill_pops {c : Course} (t : Team) (hd : c.effDepth ≠ 0) (str : Bool) :
    c.refill t str = ({ c with depth := c.depth - 1 }).setSlot str (stackEntry t c (c.effDepth - 1)).popped :=
  if_neg hd

/-! ## JOIN completes -/

section
variable {s : State} {k : Nat} {str : Bool} {c c' : Course} {t : Team} {w : Word}

/-- JOIN's effect, by its case. -/
def State.joinRule (s : State) (k : Nat) (str : Bool) (c : Course) (t : Team) : JoinRes → Res
  | .moved c' => .jumped (if c'.slotMask str = c.slotMask str then s.setCourse k c' else (s.setCourse k c').joinLanes k)
  | .merged c' => (match refillFails t c' with
      | some (ca, ti) => .trap ca 0 0 ti
      | none => .jumped ((s.setCourse k (c'.refill t true)).joinLanes k))
  | .swapped c' top => .jumped ((s.setTeam (k / 16) (t.spWrite (c.splitSp.toNat + 16 * (c.effDepth - 1)) (stackBytes top))).setCourse k c')
  | .bad ca ti => .trap ca 0 0 ti
  | .stuck => if otherStuck t c str (s.peekWord t c) then .stay (s.trapCourse k false .splitOvf c.header.pc 0#64 0#32 1#32) else .wait

theorem exec_join (hR : Runs s k str c t) : exec .join s = s.runWord .join (s.joinRule k str c t (joinCase t c str)) := by
  change execJoin s = _
  unfold execJoin
  refine congrArg _ ((runs_asCourse hR _).trans ?_)
  rw [runs_team hR]
  dsimp only
  cases joinCase t c str <;> rfl

/-- A JOIN that moves its slot, and no more lanes than it had. -/
theorem join_moves (hR : Runs s k str c t) (hw : Passes s .join w) (h : joinCase t c str = .moved c') (hm : c'.slotMask str = c.slotMask str) :
    exec .join s = .next (counted s (s.setCourse k c') w) := by
  rw [exec_join hR, h]
  exact runWord_counted (runs_curRuns hR) hw (by rw [State.joinRule, if_pos hm])

/-- A JOIN that merges the lanes of its slot with others' (R11). -/
theorem join_moves_merging (hR : Runs s k str c t) (hw : Passes s .join w) (h : joinCase t c str = .moved c') (hm : c'.slotMask str ≠ c.slotMask str) :
    exec .join s = .next (counted s ((s.setCourse k c').joinLanes k) w) := by
  rw [exec_join hR, h]
  exact runWord_counted (runs_curRuns hR) hw (by rw [State.joinRule, if_neg hm])

/-- A JOIN of two slots, the freed stretcher refilled. -/
theorem join_merges (hR : Runs s k str c t) (hw : Passes s .join w) (h : joinCase t c str = .merged c') (hf : refillFails t c' = none) :
    exec .join s = .next (counted s ((s.setCourse k (c'.refill t true)).joinLanes k) w) := by
  rw [exec_join hR, h]
  exact runWord_counted (runs_curRuns hR) hw (by rw [State.joinRule, hf])

theorem join_swaps {top : Slot} (hR : Runs s k str c t) (hw : Passes s .join w) (h : joinCase t c str = .swapped c' top) :
    exec .join s = .next (counted s
      ((s.setTeam (k / 16) (t.spWrite (c.splitSp.toNat + 16 * (c.effDepth - 1)) (stackBytes top))).setCourse k c') w) := by
  rw [exec_join hR, h]
  exact runWord_counted (runs_curRuns hR) hw rfl

/-- JOIN waits while the other slot does not stand at a JOIN (R130's case 6). -/
theorem join_waits (hR : Runs s k str c t) (hw : Passes s .join w) (h : joinCase t c str = .stuck)
    (hpeek : s.peekWord t c (c.slot (!str)).pc ≠ some 0x72000000#32) : exec .join s = .next s := by
  have hother : otherStuck t c str (s.peekWord t c) = false := by simp [otherStuck, hpeek]
  rw [exec_join hR, h]
  exact runWord_waits (runs_curRuns hR) hw (by simp only [State.joinRule, hother, Bool.false_eq_true, ↓reduceIte])

theorem slotMask_setSlot (c : Course) (str : Bool) (x : Slot) : (c.setSlot str x).slotMask str = x.mask := by
  rw [Course.slotMask, slot_setSlot_same]

end

theorem joinResolvesItsCases : JoinResolvesItsCases := by
  intro s k str c t w hR hw
  refine ⟨fun hx => ?_, fun hx hy hd => ?_, fun hx hy hh hd hin hpoison => ?_, fun hx hy hh hd hin hpoison => ?_, fun hx hd hy hlow => ?_, fun hx hd hy hpeek => ?_⟩
  · exact join_moves hR hw (joinCase_outermost hx) (slotMask_setSlot ..)
  · exact (join_merges hR hw (joinCase_meets hx hy) (if_pos hd)).trans (by rw [refill_noStack t ((effDepth_merged ..).trans hd)]; rfl)
  · have hdepth : c.effDepth = c.depth := by simp [Course.effDepth, hh]
    have hne : c.depth ≠ 0 := by omega
    have hin : stackIn t c (c.depth - 1) = true := (stackIn_iff ..).2 hin
    have hmerged : (c.merged str).effDepth = c.depth := hdepth
    refine (join_merges hR hw (joinCase_meets hx hy) (refill_succeeds (hmerged.trans_ne hne) (hmerged ▸ hin) (hmerged ▸ hpoison))).trans ?_
    rw [refill_pops t (hmerged.trans_ne hne), hmerged]
    rfl
  · have hdepth : c.effDepth = c.depth := by simp [Course.effDepth, hh]
    have hcase := joinCase_stack hx hy (hdepth ▸ hd) (by rw [hdepth, stackIn_iff]; exact hin) (by rw [hdepth]; exact hpoison)
    rw [hdepth] at hcase
    refine ⟨fun hid hpc => ?_, fun hid hpc => ?_, fun hid hlow hall => ?_⟩
    · rw [if_pos hid, if_pos hpc] at hcase
      split
      · next hm => exact join_moves hR hw hcase ((slotMask_setSlot ..).trans hm)
      · next hm => exact join_moves_merging hR hw hcase (ne_of_eq_of_ne (slotMask_setSlot ..) hm)
    · rw [if_pos hid, if_neg hpc] at hcase
      rw [join_swaps hR hw hcase, hdepth]
      rfl
    · have hall : (List.range c.depth).all (fun n => decide ((stackEntry t c n).id < (c.slot str).id)) = true := by simpa using hall
      rw [if_neg hid, if_pos ⟨hlow, hall⟩] at hcase
      exact join_moves hR hw hcase (slotMask_setSlot ..)
  · exact join_moves hR hw ((joinCase_noStack hx hy hd).trans (if_pos hlow)) (slotMask_setSlot ..)
  · refine join_waits hR hw ((joinCase_noStack hx (fun hm => hy.2.1 hm.2.1) hd).trans (if_neg ?_)) hpeek
    exact not_or.2 ⟨hy.1, BitVec.not_lt.2 hy.2.2⟩

/-- Settles O23, by the cases of `State.split` and of `joinCase`. -/
theorem splitAndJoinComplete : Obligations.SplitAndJoinComplete := ⟨brcSplitsTheSlot, joinResolvesItsCases⟩

end Sys2Proof.Machine

/-! # EXIT, EXIT.SAVED, STEP and STEPE (R121, R122, R268, R310, R311) -/

namespace Sys2Proof.Machine

open Sys2Proof Sys2Proof.Spec

/-! ## The course that EXIT leaves (R121, R131) -/

section
variable {c : Course} {t : Team} {str : Bool}

theorem life_refill (t : Team) (c : Course) (str : Bool) : (c.refill t str).life = c.life := by
  unfold Course.refill
  split
  · rfl
  · cases str <;> rfl

theorem exitSlot_live_or_ended (hlive : c.life = .live) (t : Team) (str : Bool) :
    (c.exitSlot t str false).life = .live ∨ (c.exitSlot t str false).life = .ended := by
  have h : ((c.setSlot str Slot.free).refill t str).life = .live := by
    rw [life_refill]; cases str <;> exact hlive
  unfold Course.exitSlot Course.endIfFree
  split
  · exact .inr rfl
  · exact .inl h

/-- EXIT of a course's last slot, with nothing on its stack, ends it. -/
theorem exitSlot_last (hother : (c.slot (!str)).mask = 0#32) (hd : c.effDepth = 0) : (c.exitSlot t str false).life = .ended := by
  have hfree : (c.setSlot str Slot.free).header.mask = 0#32 ∧ (c.setSlot str Slot.free).stretcher.mask = 0#32 ∧
      (c.setSlot str Slot.free).effDepth = 0 := by
    cases str
    · exact ⟨rfl, hother, hd⟩
    · exact ⟨hother, rfl, hd⟩
  rw [Course.exitSlot, refill_noStack t hfree.2.2, Course.endIfFree, if_pos hfree]
  rfl
end

/-! ## EXIT and EXIT.SAVED complete -/

section
variable {s : State} {k : Nat} {str : Bool} {c : Course} {t : Team} {w : Word}

theorem exec_exit_course (hR : Runs s k str c t) (hsp : s.spOutstanding k str = false) (hf : refillFails t c = none) :
    exec .exit s = s.runWord .exit (.jumped (
      if (c.exitSlot t str false).life = .ended then (s.setCourse k (c.exitSlot t str false).unfreeze).courseEnded k
      else s.setCourse k (c.exitSlot t str false))) := by
  change execExit s = _
  unfold execExit
  simp only [runs_cur hR]
  refine congrArg _ ((runs_asCourse hR _).trans ?_)
  rw [State.exitCourse, runs_team hR]
  simp only [hsp, hf, Bool.false_eq_true, ↓reduceIte]
  split <;> rfl

theorem exec_exitSaved (hR : Runs s k str c t) (hsp : s.spOutstanding k str = false) :
    exec .exitSaved s = s.runWord .exitSaved (
      if !c.entries.isEmpty then .stay ((s.modCourse k Course.freeze).takeTrap .illMode 0 0 3)
      else if s.writesLeft k || (c.bound.isNone && !c.countersClear 5) then .wait
      else .jumped (s.setCourse k (c.exitSlot t str true))) := by
  change execExitSaved s = _
  unfold execExitSaved
  refine congrArg _ ((runs_asCourse hR _).trans ?_)
  simp only [runs_team hR, hsp, Bool.false_eq_true, ↓reduceIte]

/-- EXIT of a processor whose handler is not active idles it (R122). -/
theorem exec_exit_proc {p : Proc} (hp : s.proc? s.cur = some p)
    (hact : (s.reg (procBase s.cur).1 ((procBase s.cur).2 + 0x14)).testBit 0 = false) :
    exec .exit s = s.runWord .exit (.jumped (s.setProc s.cur { p with running := false, hold := .free })) := by
  have hrule : s.exitProc s.cur p = s.setProc s.cur { p with running := false, hold := .free } := by
    simp only [State.exitProc, hact, Bool.not_false, ↓reduceIte]
  rw [← hrule]
  change execExit s = _
  unfold execExit
  cases hcur : s.cur with
  | course | seq => rw [hcur] at hp; exact nomatch hp
  | kcore | lintel =>
    rw [hcur] at hp
    simp only [hp]
end

theorem exitsComplete : ExitsComplete := by
  refine ⟨fun s k str c t w hR hsp hf => ⟨fun hw => ⟨fun hlive => ?_, fun hlive => ?_, fun hother hh hd => ?_⟩, fun hw hsb hwr hcnt => ?_,
    fun hw hsb => ?_⟩, fun s p w hP hp hw hact => ?_⟩
  · rw [exec_exit_course hR hsp hf]
    exact runWord_counted (runs_curRuns hR) hw (congrArg _ (if_neg (by rw [hlive]; nofun)))
  · rw [exec_exit_course hR hsp hf]
    exact runWord_counted (runs_curRuns hR) hw (congrArg _ (if_pos ((exitSlot_live_or_ended (runs_live hR) t str).resolve_left hlive)))
  · exact exitSlot_last hother (by rw [Course.effDepth, hh]; exact hd)
  · rw [exec_exitSaved hR hsp, hsb, hwr]
    refine runWord_counted (runs_curRuns hR) hw ((if_neg nofun).trans (if_neg ?_))
    rcases hcnt with hb | hc
    · cases hbound : c.bound <;> simp_all
    · simp [hc]
  · rw [exec_exitSaved hR hsp, hsb]
    exact runWord_stays (runs_curRuns hR) hw (if_pos rfl)
  · rw [exec_exit_proc hp hact]
    exact runWord_counted hP hw rfl

/-! ## STEP and STEPE (R310, R311) -/

section
variable {s u : State} {w : Word}

/-- A processor's word that completes leaves the processor its rule left, on the next word. -/
theorem finished_proc {a : Agent} {p : Proc} (ha : u.cur = a) (hp : u.proc? a = some p) :
    (finished s u w).proc? a = some { p with pc := nextPc p.pc, hold := .free } ∧ (finished s u w).mem = u.mem := by
  unfold finished counted State.countIssue
  cases a with
  | course | seq => exact nomatch hp
  | kcore d =>
    cases hp
    simp only [State.advance, ha, State.proc?, die_modDie_same]
    exact ⟨rfl, rfl⟩
  | lintel q =>
    cases hp
    simp only [State.advance, ha, State.proc?, pkg_modPkg_same]
    exact ⟨rfl, rfl⟩

/-- A processor that is there is found where it is put. -/
theorem proc_setProc {a : Agent} {p : Proc} (hp : s.proc? a = some p) (q : Proc) :
    (s.setProc a q).proc? a = some q ∧ (s.setProc a q).cur = s.cur ∧ (s.setProc a q).mem = s.mem := by
  cases a with
  | course | seq => exact nomatch hp
  | kcore d => exact ⟨by rw [State.setProc, State.proc?, die_modDie_same], rfl, rfl⟩
  | lintel q => exact ⟨by rw [State.setProc, State.proc?, pkg_modPkg_same], rfl, rfl⟩

theorem proc_kilnOpen (s : State) (a b : Agent) (isOpen clear : Bool) :
    (s.kilnOpen a isOpen clear).proc? b = s.proc? b ∧ (s.kilnOpen a isOpen clear).cur = s.cur ∧ (s.kilnOpen a isOpen clear).mem = s.mem := by
  cases a <;> exact ⟨by cases b <;> rfl, rfl, rfl⟩

end

section
variable {s : State} {k : Nat} {str : Bool} {c : Course} {t : Team} {w : Word} {d a : BitVec 6} {x : BitVec 1}

theorem exec_step_course (hR : Runs s k str c t) (hw : Passes s (.step d a x) w) (hc : Clean s [(d.toNat, false), (a.toNat, false)]) :
    exec (.step d a x) s = .next (finished s (s.modTeam (k / 16) fun t =>
      { t with deadline := if s.gsrc false a.toNat = 0 then none else some (s.now + s.gsrc false a.toNat), optIn := x == 1#1,
               tag := BitVec.ofNat 32 (s.gsrc false d.toNat), risked := t.risked && decide (t.tag.toNat = s.gsrc false d.toNat) }) w) := by
  refine runWord_finished (runs_curRuns hR) hw ((groupOp_unpoisoned hc _).trans ?_)
  simp only [runs_cur hR]
  rfl

/-- STEPE's rule for a course, its operand unpoisoned. -/
theorem exec_stepe_course (hR : Runs s k str c t) (hc : Clean s [(a.toNat, false)]) :
    exec (.stepe d a) s = s.runWord (.stepe d a) (
      if t.tag.toNat ≠ s.gsrc false a.toNat then illegalAt 0x7D 1 3
      else .done ((s.modTeam (k / 16) fun t => { t with deadline := none, optIn := false }).gdst false d.toNat (slackOf (t.deadline.getD 0) s.now))) := by
  change execStepe d a s = _
  unfold execStepe
  refine congrArg _ ((groupOp_unpoisoned hc _).trans ?_)
  simp only [runs_cur hR, runs_team hR]
  rfl

end

/-! ## The steps of a processor -/

section
variable {s : State} {p : Proc} {w : Word} {d a : BitVec 6} {x : BitVec 1}

theorem exec_step_proc (hp : s.proc? s.cur = some p) (hc : Clean s [(d.toNat, false), (a.toNat, false)]) :
    exec (.step d a x) s = s.runWord (.step d a x) (
      if s.stepWaits (s.gsrc false d.toNat) p then .wait
      else match p.openStep (s.gsrc false d.toNat) (s.gsrc false a.toNat) s.now with
        | some p' => .done (if p.stepOpen then s.setProc s.cur p' else (s.setProc s.cur p').kilnOpen s.cur true true)
        | none => illegalAt 0x7C 1 3) := by
  change execStep d a x s = _
  unfold execStep
  refine congrArg _ ((groupOp_unpoisoned hc _).trans ?_)
  cases hcur : s.cur with
  | course | seq => rw [hcur] at hp; exact nomatch hp
  | kcore | lintel =>
    rw [hcur] at hp
    simp only [hp]
    rfl

/-- A step that opens, or takes a new deadline, is open under its id. -/
theorem openStep_opens {id dl now : Nat} {p' : Proc} (h : p.openStep id dl now = some p') : p'.stepOpen = true ∧ p'.stepId.toNat = id % 2 ^ 32 := by
  unfold Proc.openStep at h
  dsimp only at h
  split at h
  · split at h
    · cases h; exact ⟨rfl, BitVec.toNat_ofNat ..⟩
    · exact nomatch h
  · next hopen =>
    split at h
    · next hid =>
      cases h
      exact ⟨by simpa using hopen, by rw [← hid]; exact (Nat.mod_eq_of_lt p.stepId.isLt).symm⟩
    · exact nomatch h

/-- A processor's write of a group register is in its register file alone. -/
theorem proc_gdst {b : Agent} (hb : s.cur = b) (hp : s.proc? b = some p) (wide : Bool) (n v : Nat) :
    (s.gdst wide n v).proc? b = some { p with sc := p.sc.dst wide n v } ∧ (s.gdst wide n v).cur = b ∧ (s.gdst wide n v).mem = s.mem := by
  unfold State.gdst State.sc
  rw [hb]
  cases b with
  | course | seq => exact nomatch hp
  | kcore d =>
    cases hp
    exact ⟨by simp only [State.scalar, State.setScalar, State.proc?, die_modDie_same], hb, rfl⟩
  | lintel q =>
    cases hp
    exact ⟨by simp only [State.scalar, State.setScalar, State.proc?, pkg_modPkg_same], hb, rfl⟩

theorem pkgs_gdst_kcore {e : Nat} (he : s.cur = .kcore e) (wide : Bool) (n v : Nat) : (s.gdst wide n v).pkgs = s.pkgs := by
  simp only [State.gdst, he, State.setScalar, modDie_pkgs]

/-- A processor that opens a step, or gives it a new deadline (R310). -/
theorem step_proc_opens (hP : Present s) (hp : s.proc? s.cur = some p) (hc : Clean s [(d.toNat, false), (a.toNat, false)]) (hw : Passes s (.step d a x) w)
    (hready : s.stepWaits (s.gsrc false d.toNat) p = false) {p' : Proc} (hopen : p.openStep (s.gsrc false d.toNat) (s.gsrc false a.toNat) s.now = some p') :
    ∃ u, exec (.step d a x) s = .next u ∧ u.proc? s.cur = some { p' with pc := nextPc p'.pc, hold := .free } ∧ u.mem = s.mem := by
  obtain ⟨hput, hcur, hmem⟩ := proc_setProc hp p'
  obtain ⟨v, hv, hvp, hvcur, hvmem⟩ : ∃ v, (if p.stepOpen then s.setProc s.cur p' else (s.setProc s.cur p').kilnOpen s.cur true true) = v ∧
      v.proc? s.cur = some p' ∧ v.cur = s.cur ∧ v.mem = s.mem := by
    refine ⟨_, rfl, ?_⟩
    obtain ⟨hkp, hkcur, hkmem⟩ := proc_kilnOpen (s.setProc s.cur p') s.cur s.cur true true
    split
    · exact ⟨hput, hcur, hmem⟩
    · exact ⟨hkp.trans hput, hkcur.trans hcur, hkmem.trans hmem⟩
  rw [exec_step_proc hp hc, hready, hopen]
  simp only [Bool.false_eq_true, ↓reduceIte, hv]
  obtain ⟨hfp, hfm⟩ := finished_proc (s := s) (w := w) hvcur hvp
  exact ⟨_, runWord_finished hP hw rfl, hfp, hfm.trans hvmem⟩

/-- A processor with its step closed (R311), as STEPE leaves it. -/
def Proc.stepClosed (p : Proc) : Proc := { p with stepOpen := false, stepLast := p.stepId, stepDl := 0 }

/-- A die's close of a step tells a snapshot that is not armed nothing. -/
theorem snapClose_idle {u : State} {die : Nat} (h : (u.pkg (die / 8)).snap.state = .idle) (id : Nat) : u.snapClose die id = u := by
  rw [State.snapClose]
  simp only [h]
  rfl

/-- STEPE's effect in a processor, but for the snapshot, and with it. -/
def State.stepEnded (s : State) (p : Proc) (d : Nat) : State :=
  let u := (s.setProc s.cur p.stepClosed).kilnOpen s.cur false false
  u.gdst false d (slackOf p.stepDl u.now)
def State.stepEnd (s : State) (p : Proc) (d id : Nat) : State :=
  match s.cur with
  | .kcore die => (s.stepEnded p d).snapClose die id
  | _ => s.stepEnded p d

theorem exec_stepe_proc (hp : s.proc? s.cur = some p) (hc : Clean s [(a.toNat, false)]) :
    exec (.stepe d a) s = s.runWord (.stepe d a) (
      if !p.stepOpen || decide (p.stepId.toNat ≠ s.gsrc false a.toNat) then illegalAt 0x7D 1 3 else .done (s.stepEnd p d.toNat (s.gsrc false a.toNat))) := by
  change execStepe d a s = _
  unfold execStepe
  refine congrArg _ ((groupOp_unpoisoned hc _).trans ?_)
  unfold State.stepEnd State.stepEnded
  cases hcur : s.cur with
  | course | seq => rw [hcur] at hp; exact nomatch hp
  | kcore | lintel =>
    rw [hcur] at hp
    simp only [hp]
    rfl

@[simp] theorem pkgs_kilnOpen (s : State) (a : Agent) (isOpen clear : Bool) : (s.kilnOpen a isOpen clear).pkgs = s.pkgs := by
  cases a <;> rfl

theorem now_stepClosed (hp : s.proc? s.cur = some p) : ((s.setProc s.cur p.stepClosed).kilnOpen s.cur false false).now = s.now := by
  obtain ⟨-, hcur, -⟩ := proc_setProc hp p.stepClosed
  obtain ⟨-, hkcur, -⟩ := proc_kilnOpen (s.setProc s.cur p.stepClosed) s.cur s.cur false false
  rw [State.now, State.now, hkcur, hcur, State.pkg, pkgs_kilnOpen]
  cases hagent : s.cur with
  | course | seq => rw [hagent] at hp; exact nomatch hp
  | kcore e => simp only [State.pkgOf, State.setProc, modDie_pkgs, State.pkg]
  | lintel q => change ((s.modPkg q _).pkg q).time = (s.pkg q).time; rw [pkg_modPkg_same]

/-- A processor's STEPE closes its step, and its slack goes to gd. -/
theorem stepEnd_closes (hp : s.proc? s.cur = some p) (hsnap : ∀ e, s.cur = .kcore e → (s.pkg (e / 8)).snap.state = .idle) (n id : Nat) :
    (s.stepEnd p n id).proc? s.cur = some { p.stepClosed with sc := p.sc.dst false n (slackOf p.stepDl s.now) } ∧
      (s.stepEnd p n id).cur = s.cur ∧ (s.stepEnd p n id).mem = s.mem := by
  obtain ⟨hput, hcur, hmem⟩ := proc_setProc hp p.stepClosed
  obtain ⟨hkp, hkcur, hkmem⟩ := proc_kilnOpen (s.setProc s.cur p.stepClosed) s.cur s.cur false false
  have hkcur := hkcur.trans hcur
  obtain ⟨hgp, hgcur, hgmem⟩ := proc_gdst hkcur (hkp.trans hput) false n (slackOf p.stepDl s.now)
  have hend : s.stepEnd p n id = s.stepEnded p n := by
    unfold State.stepEnd
    split
    · next die hdie =>
      have hpkgs : (s.stepEnded p n).pkgs = s.pkgs := by
        rw [State.stepEnded, pkgs_gdst_kcore (hkcur.trans hdie), pkgs_kilnOpen, hdie, State.setProc, modDie_pkgs]
      refine snapClose_idle ?_ id
      rw [State.pkg, hpkgs]
      exact hsnap die hdie
    · rfl
  rw [hend, State.stepEnded, now_stepClosed hp]
  exact ⟨hgp, hgcur, hgmem.trans (hkmem.trans hmem)⟩

/-- STEPE of a processor whose step it names. -/
theorem stepe_proc_closes (hP : Present s) (hp : s.proc? s.cur = some p) (hc : Clean s [(a.toNat, false)]) (hw : Passes s (.stepe d a) w)
    (hopen : p.stepOpen = true) (hid : p.stepId.toNat = s.gsrc false a.toNat) (hsnap : ∀ e, s.cur = .kcore e → (s.pkg (e / 8)).snap.state = .idle) :
    ∃ u, exec (.stepe d a) s = .next u ∧ u.mem = s.mem ∧ u.proc? s.cur =
      some { p.stepClosed with sc := p.sc.dst false d.toNat (slackOf p.stepDl s.now), pc := nextPc p.pc, hold := .free } := by
  obtain ⟨hend, hcur, hmem⟩ := stepEnd_closes hp hsnap d.toNat (s.gsrc false a.toNat)
  obtain ⟨hfp, hfm⟩ := finished_proc (s := s) (w := w) hcur hend
  rw [exec_stepe_proc hp hc]
  exact ⟨_, runWord_finished hP hw (if_neg (by simp [hopen, hid])), hfm.trans hmem, hfp⟩

end

theorem stepsComplete : StepsComplete := by
  refine ⟨fun s k str c t w d a hR hc => ⟨fun x hw hc2 => exec_step_course hR hw hc2, fun hw => ⟨fun hid => ?_, fun hid => ?_⟩⟩,
    fun s p w d a x hP hp hc => ⟨fun hw hc2 => ⟨fun hwait => ?_, fun hready => ⟨fun p' hopen => ?_, fun hclosed => ?_⟩⟩,
      fun hw => ⟨fun hopen hid hsnap => ?_, fun hbad => ?_⟩⟩⟩
  · rw [exec_stepe_course hR hc]
    exact runWord_finished (runs_curRuns hR) hw (if_neg (not_not.2 hid))
  · rw [exec_stepe_course hR hc]
    exact runWord_takesTrap (runs_curRuns hR) hw (if_pos hid)
  · rw [exec_step_proc hp hc2]
    exact runWord_waits hP hw (if_pos hwait)
  · obtain ⟨u, hu, hup, hum⟩ := step_proc_opens hP hp hc2 hw hready hopen
    obtain ⟨hstep, hid⟩ := openStep_opens hopen
    exact ⟨u, hu, hup, hstep, hid, hum⟩
  · rw [exec_step_proc hp hc2, hready, hclosed]
    exact runWord_takesTrap hP hw rfl
  · obtain ⟨u, hu, hum, hup⟩ := stepe_proc_closes hP hp hc hw hopen hid hsnap
    exact ⟨u, _, hu, hup, rfl, rfl, rfl, fun hd => reg_dst_same _ _ hd _, hum⟩
  · rw [exec_stepe_proc hp hc]
    refine runWord_takesTrap hP hw (if_pos ?_)
    rcases hbad with ho | hi
    · simp [ho]
    · simp [hi]

end Sys2Proof.Machine

/-! # CARVE (R175-R177) -/

namespace Sys2Proof.Machine

open Sys2Proof Sys2Proof.Spec

/-! ## A group predicate written and read back (R19) -/

theorem pred_setPred_same (x : Scalar) {k : Nat} (hk : k < 7) (b : Bool) : (x.setPred k b).pred k = b := by
  calc (x.setPred k b).pred k = (({ Lane.init with p := x.gp } : Lane).setPred k b).pred k := by
        unfold Lane.setPred Scalar.setPred; split <;> rfl
    _ = b := by rw [pred_setPred _ _ _ hk, if_pos rfl]

/-- What is kept of a map by its keys reads as before. -/
theorem find_filter_key {α : Type} (m : SMap α) (p : Nat → Bool) {x : Nat} (h : p x = true) :
    SMap.find? (m.filter fun kv => p kv.1) x = SMap.find? m x := by
  induction m with
  | nil => rfl
  | cons kv m ih =>
    obtain ⟨i, v⟩ := kv
    by_cases hp : p i = true
    · simp only [List.filter_cons, hp, ↓reduceIte, SMap.find?, ih]
    · have hne : x ≠ i := fun e => hp (e ▸ h)
      simp only [List.filter_cons, hp, Bool.false_eq_true, ↓reduceIte, ih, SMap.find?, hne]

/-- R177: what a CARVE keeps of the scratchpad keeps its bytes. -/
theorem spByte_carveTo (t : Team) (sp acc : Nat) {o : Nat} (h : o < 16384 * min sp t.sp) : (t.carveTo sp acc).spByte o = t.spByte o := by
  simp only [Team.spByte, SMap.getD, Team.carveTo]
  rw [find_filter_key t.scratch (fun k => decide (k < 16384 * min sp t.sp)) (decide_eq_true h)]

/-! ## What CARVE's test reads of the other teams (R176) -/

/-- A team with further arrivals of CARVE. -/
def Team.withCarve (t : Team) (es : List (Nat × Nat × Nat)) : Team := { t with carve := t.carve ++ es }

section
variable {s : State} {h : Nat} {t : Team} {es : List (Nat × Nat × Nat)}

theorem team_withCarve (j : Nat) : (s.modTeam h (·.withCarve es)).team? j = (s.team? j).map fun t => if j = h then t.withCarve es else t := by
  by_cases hj : j = h
  · subst hj; simp only [team_modTeam_same, ↓reduceIte]
  · simp only [team_modTeam_other _ _ hj, hj, ↓reduceIte, Option.map_id']

theorem copyReaches_withCarve (c : Copy) (i : Nat) (o : Nat) :
    (s.modTeam h (·.withCarve es)).copyReaches c i (t.withCarve es) o = s.copyReaches c i t o := by
  unfold State.copyReaches
  rw [team_withCarve]
  cases s.team? c.team with
  | none => rfl
  | some x => by_cases hc : c.team = h <;> simp only [Option.map_some, hc, ↓reduceIte] <;> rfl

theorem carveReason_withCarve (sp acc : Nat) :
    (s.modTeam h (·.withCarve es)).carveReason h (t.withCarve es) sp acc = s.carveReason h t sp acc := by
  unfold State.carveReason
  simp only [copyReaches_withCarve]
  rfl

theorem others_withCarve (core n : Nat) :
    ((s.modTeam h (·.withCarve es)).teamsOn core).foldl (fun n kt => if kt.1 = h then n else n + kt.2.rf + kt.2.sp + kt.2.acc) n =
      (s.teamsOn core).foldl (fun n kt => if kt.1 = h then n else n + kt.2.rf + kt.2.sp + kt.2.acc) n := by
  simp only [State.teamsOn, State.modTeam, SMap.modify, List.foldl_filter, List.foldl_map]
  congr 1
  funext n kt
  by_cases hi : kt.1 = h <;> simp [hi]

theorem carveFits_withCarve (sp acc : Nat) : carveFits (s.modTeam h (·.withCarve es)) h (t.withCarve es) sp acc = carveFits s h t sp acc := by
  unfold carveFits
  rw [others_withCarve]
  rfl

end
/-! ## CARVE of a team's only live course (R176, R177) -/

/-- The team once its arrivals have passed, its granules moved if they fit. -/
def Team.carvedBy (t : Team) (fits : Bool) (sp acc : Nat) : Team :=
  { (if fits then t.carveTo sp acc else t) with
    carve := [], carved := t.carved ++ (t.carve.map fun e => e.1).filter fun e => !t.carved.contains e }

section
variable {s : State} {h k sp acc : Nat} {t : Team} {c : Course} {e : Nat × Nat × Nat}

/-- The test of a team whose only live course has arrived, in a CARVE that nothing refuses. -/
theorem testCarve_alone (ht : s.team? h = some t) (he : t.carve = [e]) (hk : e.1 / 2 = k)
    (halone : (s.coursesOf h).filter (fun kc => kc.2.party) = [(k, c)]) (hsp : bitsOf e.2.1 5 0 = sp) (hacc : bitsOf e.2.1 10 6 = acc)
    (hreason : s.carveReason h t sp acc = none) :
    s.testCarve h = ((if carveFits s h t sp acc then s.takeGranules t sp acc else s).setTeam h (t.carvedBy (carveFits s h t sp acc) sp acc)).modCourse k
      fun c => { c with sc := c.sc.setPred (e.2.2 % 8) (carveFits s h t sp acc) } := by
  subst hk hsp hacc
  rw [State.testCarve]
  have harrivals : t.carve.map carveArrival = [carveArrival e] := by rw [he]; rfl
  simp only [ht, harrivals, halone, List.isEmpty_cons, List.all_cons, List.all_nil, List.any_cons, List.any_nil, List.head?_cons, Option.map_some,
    Option.getD_some, carveArrival, ne_eq, not_true_eq_false, decide_true, decide_false, Bool.or_false, Bool.and_true, Bool.not_true, Bool.false_eq_true,
    ↓reduceIte, hreason, List.foldl_cons, List.foldl_nil]
  unfold carveFits
  generalize decide (_ ≤ 46) = fits
  cases fits <;> rfl

theorem takeGranules_keeps (s : State) (t : Team) (sp acc : Nat) (fits : Bool) :
    (if fits then s.takeGranules t sp acc else s).courses = s.courses ∧ (if fits then s.takeGranules t sp acc else s).cur = s.cur := by
  unfold State.takeGranules
  split_ifs <;> exact ⟨rfl, rfl⟩

end

section
variable {s : State} {k : Nat} {str : Bool} {c : Course} {t : Team}

/-- What acts as FENCE.REL.core goes on at once when nothing of its slot is left to wait for (R161). -/
theorem afterRelease_ready (hR : Runs s k str c t) (hh : c.handler = false) (hrel : CoreReleased s k str c) {more : Nat → Bool}
    (hmore : more s.fresh = true) (go : State → Res) : s.afterRelease 0 more go = go s := by
  obtain ⟨hbegun, hreleased, -⟩ := hrel
  rw [thawed, hh] at hreleased
  simp only [State.afterRelease, runs_self hR, hh, Bool.false_eq_true, ↓reduceIte]
  split
  · next n hn => exact absurd hn (hbegun n).1
  · next n v hn => exact absurd hn ((hbegun n).2 v)
  · rw [hmore, Bool.and_true]
    exact if_pos hreleased

/-- The team's mark of a CARVE that has completed, taken by its slot (R188). -/
def Team.passCarve (me : Nat) (t : Team) : Team := { t with carved := t.carved.filter fun x => decide (x ≠ me) }

/-- A slot's arrival at CARVE outside a handler, as its team keeps it (R176). -/
def carveEntry (k : Nat) (str : Bool) (p : BitVec 3) (n : BitVec 5) (m : BitVec 6) : Nat × Nat × Nat :=
  (2 * k + boolNat str, n.toNat * 64 + m.toNat, p.toNat)

/-- The state once a slot has arrived at CARVE and its team has been tested. -/
def State.carveTested (s : State) (k : Nat) (e : Nat × Nat × Nat) : State := (s.modTeam (k / 16) (·.withCarve [e])).testCarve (k / 16)

/-- CARVE's rule, its slot ready: it arrives, is tested, and passes if the test has completed it. -/
theorem exec_carve (hR : Runs s k str c t) (hh : c.handler = false) (hrel : CoreReleased s k str c) (hcarve : t.carve = []) (hcarved : t.carved = [])
    (p : BitVec 3) (n : BitVec 5) (m : BitVec 6) :
    exec (.carve p n m) s = s.runWord (.carve p n m) (match (s.carveTested k (carveEntry k str p n m)).team? (k / 16) with
      | some t => if t.carved.contains (2 * k + boolNat str) then
          .done ((s.carveTested k (carveEntry k str p n m)).modTeam (k / 16) (Team.passCarve (2 * k + boolNat str)))
        else .stay (s.carveTested k (carveEntry k str p n m))
      | none => .stay (s.carveTested k (carveEntry k str p n m))) := by
  change execCarve p n m s = _
  unfold execCarve
  refine congrArg _ ((runs_asCourse hR _).trans ?_)
  simp only [runs_team hR, hcarve, hcarved, List.contains_nil, List.any_nil, Bool.false_eq_true, ↓reduceIte]
  rw [afterRelease_ready hR hh hrel (by rw [hrel.2.2]; rfl), hh]
  rfl

/-- What the test leaves of a team whose only live course arrives, and of that course. -/
theorem carveTested_alone {sp acc : Nat} {e : Nat × Nat × Nat} (hR : Runs s k str c t) (hcarve : t.carve = []) (hkey : e.1 / 2 = k)
    (halone : (s.coursesOf (k / 16)).filter (fun kc => kc.2.party) = [(k, c)]) (hsp : bitsOf e.2.1 5 0 = sp) (hacc : bitsOf e.2.1 10 6 = acc)
    (hreason : s.carveReason (k / 16) t sp acc = none) :
    (s.carveTested k e).cur = s.cur ∧
      (s.carveTested k e).team? (k / 16) = some ((t.withCarve [e]).carvedBy (carveFits s (k / 16) t sp acc) sp acc) ∧
      (s.carveTested k e).course? k = some { c with sc := c.sc.setPred (e.2.2 % 8) (carveFits s (k / 16) t sp acc) } := by
  obtain ⟨-, hk, ht, -, -⟩ := hR
  have hteam : (s.modTeam (k / 16) (·.withCarve [e])).team? (k / 16) = some (t.withCarve [e]) := by rw [team_modTeam_same, ht]; rfl
  have htest := testCarve_alone hteam (by rw [Team.withCarve, hcarve]; rfl) hkey halone hsp hacc (by rw [carveReason_withCarve]; exact hreason)
  rw [carveFits_withCarve] at htest
  obtain ⟨hcourses, hcur⟩ :=
    takeGranules_keeps (s.modTeam (k / 16) (·.withCarve [e])) (t.withCarve [e]) sp acc (carveFits s (k / 16) t sp acc)
  simp only [State.carveTested, htest, modCourse_cur, setTeam_cur, team?_modCourse, team_setTeam_same, course_modCourse_same]
  refine ⟨hcur, trivial, ?_⟩
  rw [State.course?, setTeam_courses, hcourses]
  exact congrArg (Option.map _) hk

/-- The slot's number among a team's arrivals names its course. -/
theorem arrival_key (k : Nat) (str : Bool) : (2 * k + boolNat str) / 2 = k := by
  have : boolNat str ≤ 1 := by cases str <;> decide
  omega

/-- The halves of CARVE's immediate (R176). -/
theorem carve_immediate (n : BitVec 5) (m : BitVec 6) :
    bitsOf (n.toNat * 64 + m.toNat) 5 0 = m.toNat ∧ bitsOf (n.toNat * 64 + m.toNat) 10 6 = n.toNat := by
  have hn := n.isLt
  have hm := m.isLt
  simp only [bitsOf]
  omega

theorem carved_carvedBy {e : Nat × Nat × Nat} (hcarve : t.carve = []) (hcarved : t.carved = []) (fits : Bool) (sp acc : Nat) :
    ((t.withCarve [e]).carvedBy fits sp acc).carved = [e.1] := by
  cases fits
  all_goals
    simp only [Team.carvedBy, Team.carveTo, Team.withCarve, hcarve, hcarved]
    rfl

/-- CARVE of its team's only live course, which nothing refuses, completes. -/
theorem exec_carve_alone {w : Word} {p : BitVec 3} {n : BitVec 5} {m : BitVec 6} (hR : Runs s k str c t) (hw : Passes s (.carve p n m) w)
    (hh : c.handler = false) (hrel : CoreReleased s k str c) (hcarve : t.carve = []) (hcarved : t.carved = [])
    (halone : (s.coursesOf (k / 16)).filter (fun kc => kc.2.party) = [(k, c)]) (hreason : s.carveReason (k / 16) t m.toNat n.toNat = none) :
    let fits := carveFits s (k / 16) t m.toNat n.toNat
    ∃ u, exec (.carve p n m) s = .next (finished s u w) ∧ u.cur = .course k str ∧
      u.team? (k / 16) = some (((t.withCarve [carveEntry k str p n m]).carvedBy fits m.toNat n.toNat).passCarve (2 * k + boolNat str)) ∧
      u.course? k = some { c with sc := c.sc.setPred p.toNat fits } := by
  obtain ⟨hsp, hacc⟩ := carve_immediate n m
  obtain ⟨hcur, hteam, hcourse⟩ := carveTested_alone (e := carveEntry k str p n m) hR hcarve (arrival_key k str) halone hsp hacc hreason
  have hp : (carveEntry k str p n m).2.2 % 8 = p.toNat := Nat.mod_eq_of_lt p.isLt
  rw [hp] at hcourse
  refine ⟨(s.carveTested k (carveEntry k str p n m)).modTeam (k / 16) (Team.passCarve (2 * k + boolNat str)), ?_, hcur.trans (runs_cur hR), ?_, hcourse⟩
  · rw [exec_carve hR hh hrel hcarve hcarved, hteam]
    refine runWord_finished (runs_curRuns hR) hw (if_pos ?_)
    rw [carved_carvedBy hcarve hcarved]
    exact List.contains_iff_mem.2 (List.mem_singleton.2 rfl)
  · rw [team_modTeam_same, hteam]; rfl

/-- The granules that a CARVE leaves (R177). -/
theorem granules_carvedBy (t : Team) (fits : Bool) (sp acc : Nat) :
    let t' := t.carvedBy fits sp acc
    (fits = true → t'.sp = sp ∧ t'.acc = acc) ∧ (fits = false → t'.sp = t.sp ∧ t'.acc = t.acc ∧ t'.scratch = t.scratch) ∧
      ∀ o, o < 16384 * min sp t.sp → t'.spByte o = t.spByte o := by
  cases fits
  · exact ⟨nofun, fun _ => ⟨rfl, rfl, rfl⟩, fun _ _ => rfl⟩
  · exact ⟨fun _ => ⟨rfl, rfl⟩, nofun, fun _ => spByte_carveTo t sp acc⟩

theorem carveMovesTheTeamsGranules : CarveMovesTheTeamsGranules := by
  intro s k str c t w p n m hR hw hh hother hrel hcarve hcarved halone hp hreason fits
  obtain ⟨u, hx, hcur, hteam, hcourse⟩ := exec_carve_alone hR hw hh hrel hcarve hcarved halone hreason
  obtain ⟨q, x, y, hfin⟩ := finished_of_course (s := s) hcur hteam w
  obtain ⟨hgranules, hkeeps, hbytes⟩ := granules_carvedBy (t.withCarve [carveEntry k str p n m]) fits m.toNat n.toNat
  have hteam' : (finished s u w).team? (k / 16) = some (((t.withCarve [carveEntry k str p n m]).carvedBy fits m.toNat n.toNat).passCarve
      (2 * k + boolNat str)).oneMore := by
    rw [hfin, team?_modCourse, team?_modCourse, team_modTeam_same, team?_addCharge, hteam]; rfl
  have hcourse' : (finished s u w).course? k = some (({ c with sc := c.sc.setPred p.toNat fits }.charged str x y).onNext str) := by
    simp [hfin, hcourse, fits]
  have hpred : (c.sc.setPred p.toNat fits).pred p.toNat = fits := pred_setPred_same c.sc (by have := p.isLt; omega) fits
  exact ⟨_, _, _, hx, hcourse', hteam', by cases str <;> exact hpred, hgranules, hkeeps, hbytes, by cases str <;> rfl, by cases str <;> rfl⟩

end

/-- Settles O36. -/
theorem exitsCarvesAndStepsComplete : Obligations.ExitsCarvesAndStepsComplete := ⟨exitsComplete, carveMovesTheTeamsGranules, stepsComplete⟩

end Sys2Proof.Machine

/-! # Held causes, ends, commits and the pending record (R121, R287, R291, R292, R443) -/

namespace Sys2Proof.Machine

open Sys2Proof Sys2Proof.Spec

/-! ## A held cause is taken (R443) -/

/-- The handler's entry of a course, at any cause (R271). -/
theorem trapCourse_enters {s : State} {k : Nat} {c : Course} {t : Team} (hk : s.course? k = some c) (ht : s.team? (k / 16) = some t) (hT : CanTrap c t)
    (str : Bool) (cause : Cause) (tpc : Word) (taddr : DWord) (tmask tinfo : Word) :
    s.trapCourse k str cause tpc taddr tmask tinfo = s.setCourse k { c.enter cause tpc taddr tmask tinfo with entered := s.fresh } := by
  obtain ⟨hh, hb, hv, ha⟩ := hT
  simp [State.trapCourse, hk, ht, hh, hb, hv, ha]

theorem exec_deferredCauseTaken {s : State} {k : Nat} {c : Course} {t : Team} {h : HeldCause} {rest : List HeldCause} (hk : s.course? k = some c)
    (ht : s.team? (k / 16) = some t) (hheld : c.held = h :: rest) (hlive : c.life = .live) (hT : CanTrap c t) :
    exec (.deferredCauseTaken k) s = .next ((s.setCourse k { c with held := rest }).setCourse k
      { ({ c with held := rest } : Course).enter h.cause (h.tpc.getD (c.slot (h.slot.getD (decide (c.header.mask = 0#32)))).pc) h.taddr h.tmask h.tinfo with
        entered := s.fresh }) := by
  change execDeferredCauseTaken k s = _
  unfold execDeferredCauseTaken
  have hready : ¬ (c.handler = true ∨ c.life ≠ .live) := by simp [hT.1, hlive]
  simp only [hk, if_neg hready, State.takeCause, hheld]
  refine congrArg _ ((trapCourse_enters (c := { c with held := rest }) (course_setCourse_same ..) ht hT _ _ _ _ _ _).trans ?_)
  cases h.slot <;> rfl

/-! ## A course finishes (R121) -/

theorem exec_courseFinish {s : State} {k : Nat} {c : Course} (hk : s.course? k = some c) (hlife : c.life = .ended) (hsb : c.entries.isEmpty = true)
    (hcnt : c.bound.isSome = true ∨ c.countersClear 5 = true) :
    (s.team? (k / 16) = none → exec (.courseFinish k) s = .next ((s.setCourse k { c with life := .finished }).tryEndTeam (k / 16))) ∧
      ∀ t, s.team? (k / 16) = some t →
        exec (.courseFinish k) s = .next (((s.setCourse k { c with life := .finished }).retestWide t).tryEndTeam (k / 16)) := by
  have hsb : c.entries = [] := List.isEmpty_iff.1 hsb
  have hclear : (c.bound.isNone && !c.countersClear 5) = false := by
    rcases hcnt with hb | hc
    · rw [Option.isNone_eq_false_iff.2 hb, Bool.false_and]
    · rw [hc, Bool.not_true, Bool.and_false]
  change (_ → execCourseFinish k s = _) ∧ ∀ t, _ → execCourseFinish k s = _
  unfold execCourseFinish
  simp only [hk, hlife, hsb, hclear, List.any_nil, reduceCtorEq, Bool.false_eq_true, ne_eq, not_true_eq_false, or_self, ↓reduceIte, team?_setCourse]
  exact ⟨fun ht => by simp only [ht], fun t ht => by simp only [ht]⟩

/-! ## A stalled version commits (R287) -/

theorem exec_versionOverflowCommit {s : State} {h : Nat} {t : Team} (ht : s.team? h = some t) (hstall : t.verStall ≠ []) (hv : t.version.isSome = true)
    (hold : ∀ d ∈ t.verStall, s.oldestOn h d = true) :
    (s.sharedLine h = none → exec (.versionOverflowCommit h) s = .next (((s.commit h).copiesInto h .memory).atomsInto h)) ∧
      ∀ l, s.sharedLine h = some l → exec (.versionOverflowCommit h) s = .next (s.invalidate l) := by
  have hall : (t.version.isSome && !t.verStall.isEmpty && t.verStall.all fun d => s.oldestOn h d) = true := by
    simp only [hv, Bool.true_and, Bool.and_eq_true, Bool.not_eq_true', List.isEmpty_eq_false_iff, List.all_eq_true]
    exact ⟨hstall, hold⟩
  change (_ → execVersionOverflowCommit h s = _) ∧ ∀ l, _ → execVersionOverflowCommit h s = _
  unfold execVersionOverflowCommit
  simp only [ht, hall, ↓reduceIte]
  exact ⟨fun hl => by simp only [hl], fun l hl => by simp only [hl]⟩

/-! ## What arrives for a bound course (R291, R292) -/

section
variable {s : State} {f k : Nat} {c : Course} {b : Bound}

/-- An item for a course whose record takes it is diverted, to its place in the record. -/
theorem diverted_of_record {x : Flight} (hf : s.flight? f = some x) (hcourse : x.courseOf = some k) (hk : s.course? k = some c)
    (hb : c.recordOf (x.origin f) = some b) {o : Nat} (hplace : x.recordPlace = some o) :
    s.diverted f = true ∧ s.divertShared f = s.recordShared b o :=
  ⟨by simp only [State.diverted, hf, hcourse, Option.bind_some, hk, hb, Option.isSome_some],
    by simp only [State.divertShared, hf, hcourse, Option.bind_some, hk, hb, hplace]⟩

/-- R325: while another package holds the line that filing writes, it is called back. -/
theorem exec_pendingDivert_shared {pa : Nat} (h : s.diverted f = true) (hs : s.divertShared f = some pa) :
    exec (.pendingDivert f) s = .next (s.invalidate pa) := by
  change execPendingDivert f s = _
  unfold execPendingDivert
  simp only [h, hs, Bool.not_true, Bool.false_eq_true, ↓reduceIte]

/-- An acknowledgement of a scope is counted in the record (R290, R291). -/
theorem exec_pendingDivert_ack {str : Bool} {scope o : Nat} (hf : s.flight? f = some (.ack (.course k str) scope 0 o)) (hk : s.course? k = some c)
    (hb : c.recordOf o = some b) (hs : s.recordShared b 0 = none) :
    exec (.pendingDivert f) s = .next ((s.recordWrite b (16 + 4 * scope) (bytesOf 4 (s.recordRead b (16 + 4 * scope) 4 + 1))).drop f) := by
  obtain ⟨hd, hshared⟩ := diverted_of_record hf rfl hk hb rfl
  change execPendingDivert f s = _
  unfold execPendingDivert
  simp only [hd, hshared, hs, hf, Bool.not_true, Bool.false_eq_true, ↓reduceIte, hk, Option.bind_some, hb]

/-- A lane's value is filed in the record (R290, R291). -/
theorem exec_pendingDivert_value {x : LaneValue} (hf : s.flight? f = some (.value x)) (hk : s.course? x.key = some c)
    (hb : c.recordOf x.origin = some b) (hfail : x.fail = none) (hacq : x.acquire = none) (hs : s.recordShared b (pendEntry x.reg x.lane) = none) :
    exec (.pendingDivert f) s = .next ((s.drop f).fileEntry b (pendEntry x.reg x.lane) x.value (1 + if x.wide then 8 else 0)) := by
  obtain ⟨hd, hshared⟩ := diverted_of_record hf rfl hk hb rfl
  have hland : (s.drop f).landLane x.key x.origin x.lane x.reg x.wide x.value =
      (s.drop f).fileEntry b (pendEntry x.reg x.lane) x.value (1 + if x.wide then 8 else 0) := by
    have hk' : (s.drop f).course? x.key = some c := hk
    have hs' : (s.drop f).recordShared b (pendEntry x.reg x.lane) = none := hs
    simp only [State.landLane, hk', hb, State.fileLane, hs', Nat.add_zero]
  change execPendingDivert f s = _
  unfold execPendingDivert
  simp only [hd, hshared, hs, hf, Bool.not_true, Bool.false_eq_true, ↓reduceIte, State.deliverFlight, hfail, hacq, hland]

theorem courses_dropGld (s : State) (k : Nat) (r : Bound) : (s.dropGld k r).courses = s.courses ∧ (s.dropGld k r).mem = s.mem ∧ (s.dropGld k r).fresh = s.fresh := by
  unfold State.dropGld
  split <;> exact ⟨rfl, rfl, rfl⟩

/-- The old core's answer to a redirect unbinds the record and lets its slot go on (R292). -/
theorem exec_pendingRedirect {x : GroupReq} {str : Bool} {r : Bound} (hf : s.flight? f = some (.group x)) (ha : x.agent = .course k str)
    (hop : x.op = .redirect r) :
    exec (.pendingRedirect f) s =
      .next (((s.drop f).dropGld k r).modCourse k fun c => (c.unbind r).setSlot str { c.slot str with hold := .fence s.fresh }).tick := by
  change execPendingRedirect f s = _
  unfold execPendingRedirect
  simp only [hf, ha, hop]

end

/-- What R292's unbinding leaves of a course. -/
theorem unbind_bound (c : Course) (r : Bound) : (c.unbind r).bound = (match c.bound with | some b => if b.same r then none else some b | none => none) := by
  unfold Course.unbind
  cases c.bound with
  | none => rfl
  | some b => rfl

/-- Settles O50. -/
theorem courseEventsComplete : Obligations.CourseEventsComplete := by
  refine ⟨fun s k c t h rest hk ht hheld hlive hT => ?_, fun _ _ _ => exec_courseFinish, fun _ _ _ => exec_versionOverflowCommit,
    fun s f k str scope tm o c b hf hk hb htm hs => ?_, fun s f x c b hf hk hb hfail hacq => ⟨fun hs => ?_, fun pa hs => ?_⟩,
    fun s f x k str c r hf ha hop hk => ?_⟩
  · exact ⟨_, exec_deferredCauseTaken hk ht hheld hlive hT, rfl, rfl, rfl, rfl, rfl, rfl, rfl⟩
  · subst htm
    exact exec_pendingDivert_ack hf hk hb hs
  · exact exec_pendingDivert_value hf hk hb hfail hacq hs
  · obtain ⟨hd, hshared⟩ := diverted_of_record hf rfl hk hb rfl
    exact exec_pendingDivert_shared hd (hshared.trans hs)
  · obtain ⟨hcourses, hmem, hfresh⟩ := courses_dropGld (s.drop f) k r
    refine ⟨_, (c.unbind r).setSlot str { c.slot str with hold := .fence s.fresh }, exec_pendingRedirect hf ha hop, ?_, ?_, ?_, ?_, ?_, hmem⟩
    · rw [course?_tick, course_modCourse_same, State.course?, hcourses]
      exact congrArg (Option.map _) hk
    · exact Eq.trans (by cases str <;> rfl) (unbind_bound c r)
    · cases str <;> rfl
    · rw [slot_setSlot_same]
    · cases str <;> rfl

end Sys2Proof.Machine

/-! # MJOIN of a course listed twice (R364) -/

namespace Sys2Proof.Machine

open Sys2Proof Sys2Proof.Spec

/-- MJOIN, vector form, of n1's words under the tag in g2 and the descriptor from g8. -/
abbrev joinInstr : Instr := .mjoinVector 17#6 8#6 50#6 2#3
abbrev joinWord : Word := (encode joinInstr).getD 0#32

/-- Its course, outside its handler; and the same in its handler, with a store that the trap entry has frozen. -/
def joinCourse : Course :=
  { placedCourse (opOf joinWord) with sc := (((placedCourse (opOf joinWord)).sc.set 2 0x40000000).set 8 0x20000).set 12 8 }
def frozenCourse : Course := { joinCourse with handler := true, sb := joinCourse.sb.set 0 { SbEntry.empty with valid := true, frozen := true } }

def joinTeam : Team := placedTeam (opOf joinWord)

/-- Course 0 listed twice: as it executes, and again in its handler. -/
def joinTwice : State := { State.reset.place joinWord with agenda := [], cur := .course 0 false, courses := [(0, joinCourse), (0, frozenCourse)] }

/-- Whether the first store of each listed course is frozen. -/
def frozenStores (s : State) : List Bool := s.courses.map fun kc => (kc.2.sbAt 0).frozen

/-- The same of an outcome. -/
def storesFrozenBy : Out → List Bool
  | .next u => frozenStores u
  | _ => []

/-- Both entries' stores may leave when the model begins MJOIN. -/
theorem exec_joinTwice : storesFrozenBy (exec joinInstr joinTwice) = [false, false] := by decide +kernel

theorem runs_joinTwice : Runs joinTwice 0 false joinCourse joinTeam := ⟨rfl, rfl, rfl, rfl, by decide⟩

theorem passes_joinTwice : Passes joinTwice joinInstr joinWord := ⟨rfl, rfl⟩

/-- R364's last step as the statement gives it: the handler of the course that executes decides, and the second entry's store stays frozen. -/
theorem joinLeaves_joinTwice : ∃ u, JoinLeaves joinTwice 0 false joinCourse joinTeam true (joinDescriptor joinCourse 8) 2 (joinCourse.src .n32 50 0)
      (joinWords joinTeam joinCourse true (guarded joinCourse false) 17 2 (joinDescriptor joinCourse 8)) 0x20000 0x1F 0 0 u ∧
    frozenStores (finished joinTwice u joinWord) = [false, true] :=
  ⟨_, ⟨by decide, by decide, by decide, by decide, fun _ => ⟨rfl, rfl⟩, fun h => (h (by decide)).elim, nofun, by decide, by decide,
    fun h => Bool.noConfusion h, .inl (by decide), rfl⟩, by decide +kernel⟩

/-- Refutes O40: of a course listed twice under one number, the model lets the frozen stores of each entry leave that is in its handler, as MJOIN begins;
the statement's `joining` goes by the handler of the entry that executes for both. -/
theorem not_mortarInstructionsComplete : ¬ Obligations.MortarInstructionsComplete := by
  intro h
  obtain ⟨u, hu, hfrozen⟩ := joinLeaves_joinTwice
  have hstated : exec joinInstr joinTwice = .next (finished joinTwice u joinWord) :=
    (h.2 joinTwice 0 false joinCourse joinTeam joinWord 17#6 8#6 50#6 2#3 runs_joinTwice rfl (by decide)).1 0 ((List.range 31).map (· + 1)) _ _ _ _ u
      passes_joinTwice (by decide) (by decide) (by decide) hu
  exact absurd (hfrozen.symm.trans (hstated ▸ exec_joinTwice : storesFrozenBy (.next _) = _)) (by decide)

end Sys2Proof.Machine

/-! # A processor's store whose die is listed out of order (R337) -/

namespace Sys2Proof.Machine

open Sys2Proof Sys2Proof.Spec

/-- GST of g2 at the address in g4. -/
abbrev gstInstr : Instr := .gst 2#6 4#6 0#12
abbrev gstWord : Word := (encode gstInstr).getD 0#32

/-- A control core about to store 1 at 0x20000. -/
def storingProc : Proc := { Proc.init with sc := (Proc.init.sc.set 2 1).set 4 0x20000, running := true }

/-- The first line at an address, moved to another. -/
def lineMoved (old new : Nat) : Migration := { old := old, new := new, size := 128, moved := 1, poisoned := false, done := false }

/-- Die 5 listed before die 0, whose control core executes. -/
def diesOutOfOrder : State :=
  { State.reset.place 0xE5000000#32 with
    agenda := [], cur := .kcore 0,
    dies := [(5, { Die.init with migrations := [lineMoved 0x20000 0x30000] }),
      (0, { Die.init with tlb := [], migrations := [lineMoved 0x20000 0x40000, lineMoved 0x30000 0x20000], kcore := storingProc })] }

/-- The address as the statement takes it: its line has moved, away and back. -/
theorem forward_diesOutOfOrder : diesOutOfOrder.forward 0x20000 = 0x20000 := by decide

/-- The four bytes at an address after an outcome. -/
def wordAfter (a : Nat) : Out → List Byte
  | .next u => u.mem.bytes a 4
  | _ => []

/-- Keeping the translation lists die 0 a second time, before die 5, and the store is performed where its own migration says. -/
theorem exec_diesOutOfOrder : wordAfter 0x20000 (exec gstInstr diesOutOfOrder) = [0#8, 0#8, 0#8, 0#8] ∧
    wordAfter 0x40000 (exec gstInstr diesOutOfOrder) = [1#8, 0#8, 0#8, 0#8] := by decide +kernel

/-- Refutes O26: with the dies not in key order, the translation that a control core's GST keeps is put in an entry of its die before the die's own, so the
die's migrations apply in another order and the store leaves the address that the statement takes as its home. The statement asks no order of `dies`. -/
theorem not_groupMemoryAccessesComplete : ¬ Obligations.GroupMemoryAccessesComplete := by
  intro h
  obtain ⟨u, hx, hu⟩ := (h.2 diesOutOfOrder gstWord (diesOutOfOrder.procXlat 0 (distBase 0) 0) 2#6 4#6 0#12 0x20000 0x1F (by decide) rfl rfl ⟨rfl, rfl⟩ (by decide)
    (by decide) (by decide) (fun hd => absurd hd (by decide))).2.2 (by decide) (by decide) (by decide)
  obtain ⟨hbytes, -⟩ := hu (by decide) (by decide) forward_diesOutOfOrder (.inr (by decide))
  have hword := exec_diesOutOfOrder.1
  rw [hx] at hword
  exact absurd (hbytes.symm.trans hword) (by decide)

end Sys2Proof.Machine

/-! # Global loads (R149, R150, R152-R154) -/

namespace Sys2Proof.Machine

open Sys2Proof Sys2Proof.Spec

/-! ## The five loads are one operation -/

/-- R149's sequence over a load's active lanes, for the row of the instruction. -/
def State.loadLanes (s : State) (k : Nat) (str : Bool) (c : Course) (r : LoadRow) : Res :=
  s.lanesOp r.op (c.active str) r.addr r.size r.size .load false (fun _ => false) (some (r.d, r.wide)) fun u hits =>
    .inl (u.sendLoads k str c (r.d - 16) r.size r.sext r.wide r.acquire r.sc hits)

section
variable {s : State} {k : Nat} {str : Bool} {c : Course} {t : Team} {i : Instr} {w : Word} {r : LoadRow}

theorem exec_load (hR : Runs s k str c t) (hrow : loadRow c i = some r) :
    exec i s = s.runWord i (s.memVec r.op r.types r.reads (some (r.d, r.wide)) fun _ _ _ _ => s.loadLanes k str c r) := by
  have het := runs_et hR
  cases i
  case ld | ldn | ldx | ldacq | ldsc =>
    delta exec execLd execLdn execLdx execLdacq execLdsc
    simp only [het, State.loadOp, State.memVec, runs_asCourse hR]
    cases hrow
    rfl
  all_goals exact nomatch hrow

/-- A ready load goes on to its lanes, a parked one's own destination bits being set again (R168). -/
theorem exec_load_ready (hR : Runs s k str c t) (hrow : loadRow c i = some r) (hty : r.types = true)
    (hr : Ready c (c.active str) r.reads [(r.d, r.wide)]) : exec i s = s.runWord i (s.loadLanes k str c r) := by
  rw [exec_load hR hrow, hty, memVec_ready hR (ready_checks ((fillsOnly_ownBits c str (c.active str) _).ready hr))]

/-! ## A misaligned lane (R149) -/

theorem lanesOf_single {l : Nat} (hl : l < 32) : lanesOf (BitVec.ofNat 32 (2 ^ l)) = [l] := by
  revert l; decide

/-- R149: of one active lane that is misaligned the cause is ALIGN, once the allowance rule holds nothing back. -/
theorem lanesOp_misaligned (hR : Runs s k str c t) (ha : c.alwLow = 0#32) {op size align l : Nat} {addr : Nat → Nat} {kind : AccKind} {banAll : Bool}
    {ban : Nat → Bool} {dest : Option (Nat × Bool)} {perform : State → List (Nat × Nat × Nat × Nat) → State ⊕ (State → State)} (hl : l < 32)
    (hal : addr l % align ≠ 0) :
    s.lanesOp op (BitVec.ofNat 32 (2 ^ l)) addr size align kind banAll ban dest perform = .trap .align (addr l) (2 ^ l) align := by
  have hallow : s.allowed c t.xlat [addr l] = true := by simp [State.allowed, ha]
  unfold State.lanesOp
  simp only [runs_asCourse hR, hR.2.2.1, lanesOf_single hl, List.map_cons, List.map_nil, hallow, if_pos hal]
  simp [firstCause]

/-- Settles O30: the load's sources and destination are ready, so its one lane's alignment decides. -/
theorem misalignedAccessTrapsAlign : Obligations.MisalignedAccessTrapsAlign := by
  intro s k str c t i w r l hR ha hw hrow hty hr hl hact hal
  rw [exec_load_ready hR hrow hty hr, State.loadLanes, hact, lanesOp_misaligned hR ha hl hal]
  exact runWord_trap (runs_curRuns hR) hw.1 hw.2

/-! ## Every active lane hits -/

theorem sendLoads_keeps {γ : Type} (f : State → γ) (h : ∀ u x, f (State.send u x) = f u) (u : State) (k : Nat) (str : Bool) (c : Course) (reg size : Nat)
    (sext wide : Bool) (acquire : Option Nat) (sc : Bool) (hs : List (Nat × Nat × Nat × Nat)) :
    f (u.sendLoads k str c reg size sext wide acquire sc hs) = f u := foldl_keeps _ f (fun _ _ => h ..) hs u

/-- R149, R150: what a load's word does: its destination is emptied in its active lanes, one load for each is sent, and it completes. -/
theorem exec_load_allHit (hR : Runs s k str c t) (hw : Passes s i w) (hrow : loadRow c i = some r) (hty : r.types = true)
    (hr : Ready c (c.active str) r.reads [(r.d, r.wide)]) (ha : c.alwLow = 0#32) (hf : (c.slot str).hold = .free) {at' : Nat → Nat × Nat}
    (hh : AllHit s t (c.active str) r.addr r.size r.size .load (fun _ => false) r.op at')
    {hs : List (Nat × Nat × Nat × Nat)} (hhs : hitsOf (c.active str) r.addr at' = hs) {s' : State} (hs' : kept s t hs = s') :
    exec i s = .next (finished s ((s'.modCourse k fun x => x.emptyDest (c.active str) r.d r.wide).sendLoads k str c (r.d - 16) r.size r.sext r.wide
      r.acquire r.sc hs) w) := by
  have hc' : s'.course? k = some c := by rw [← hs', course?_kept]; exact hR.2.1
  obtain ⟨c', hce, hslot⟩ := course?_emptied (str := str) hc' (c.active str) (some (r.d, r.wide))
  have hsend : ((emptied s' k (c.active str) (some (r.d, r.wide))).sendLoads k str c (r.d - 16) r.size r.sext r.wide r.acquire r.sc hs).course? k
      = some c' := (sendLoads_keeps (fun u => u.course? k) (fun _ _ => rfl) ..).trans hce
  rw [exec_load_ready hR hrow hty hr, State.loadLanes,
    lanesOp_allHit hR ha hh hhs hs' rfl hsend (.inl ⟨(congrArg Slot.hold hslot).trans hf, rfl⟩), runWord_done (runs_curRuns hR) hw.1 hw.2]
  rfl

end

/-! ## What a load sends (R150, R256, R262) -/

/-- What is in flight stays there while later items are sent. -/
theorem flight_sendMany_old {α : Type} (x : State → α → Flight) (as : List α) (u : State) {n : Nat} (h : n < u.fresh) :
    (as.foldl (fun u a => u.send (x u a)) u).flight? n = u.flight? n := by
  induction as generalizing u with
  | nil => rfl
  | cons a as ih =>
    rw [List.foldl_cons, ih _ (Nat.lt_succ_of_lt h), flight_send_other _ _ (Nat.ne_of_lt h)]

/-- Items sent one after another stand under rising stamps. -/
theorem flight_sendMany {α : Type} (x : State → α → Flight) (as : List α) (u : State) {n : Nat} {a : α} (h : as[n]? = some a) :
    ∃ v, (as.foldl (fun u a => u.send (x u a)) u).flight? (u.fresh + n) = some (x v a) := by
  induction as generalizing u n with
  | nil => simp at h
  | cons b as ih =>
    cases n with
    | zero =>
      obtain rfl : b = a := Option.some.inj h
      exact ⟨u, (flight_sendMany_old x as _ (Nat.lt_succ_self _)).trans (flight_send ..)⟩
    | succ n =>
      obtain ⟨v, hv⟩ := ih (u.send (x u b)) h
      exact ⟨v, by rw [List.foldl_cons, ← hv, send_fresh, Nat.add_right_comm, Nat.add_assoc]⟩

/-- The half of O27 about what goes in flight. -/
theorem loadLanesGoInFlight : LoadLanesGoInFlight := by
  intro s k str c reg size sext wide acquire sc hits n h hn
  obtain ⟨v, hv⟩ := flight_sendMany _ hits s hn
  exact ⟨_, hv, rfl, rfl, rfl, rfl, rfl, rfl, rfl, rfl, rfl, rfl, by cases sc <;> rfl, rfl, rfl, rfl, rfl, fun _ => List.eq_of_mem_replicate⟩

/-! ## A load of a course listed twice -/

/-- LD to n1, in the state in which course 0 is listed twice. -/
abbrev ldInstr : Instr := .ld 17#6 1#6 0#12
abbrev ldWord : Word := (encode ldInstr).getD 0#32

theorem passes_ldListedTwice : Passes listedTwice ldInstr ldWord := ⟨rfl, rfl⟩

theorem ldHits_listedTwice : AllHit listedTwice (placedTeam (opOf atomWord)) (laneCourse.active false) (fun l => addImm (laneCourse.src .n64 1 l) 0#12) 4 4
    .load (fun _ => false) 0x80 fun _ => (0, 0x1F) := by
  unfold AllHit; decide

/-- Emptying n1 in the lanes of the executing course, and in those of each entry, are not one. -/
theorem loadEmptied_listedTwice : laneZeroFull (listedTwice.modCourse 0 fun c => c.emptyDest (laneCourse.active false) 17 laneCourse.et.wide) ≠
    laneZeroFull (listedTwice.modCourse 0 fun c => c.emptyDest (c.active false) 17 laneCourse.et.wide) := by decide

/-- Sending a load's lanes and completing leave the full bits as the emptying of its destination leaves them. -/
theorem laneZeroFull_load {s : State} {k : Nat} {str : Bool} {c : Course} {t : Team} (hR : Runs s k str c t) (hs : List (Nat × Nat × Nat × Nat))
    (f : Course → Course) (reg size : Nat) (sext wide : Bool) (acquire : Option Nat) (sc : Bool) (w : Word) :
    laneZeroFull (finished s (((kept s t hs).modCourse k f).sendLoads k str c reg size sext wide acquire sc hs) w) = laneZeroFull (s.modCourse k f) := by
  obtain ⟨q, m, y, h⟩ := finished_of_course (s := s) (u := ((kept s t hs).modCourse k f).sendLoads k str c reg size sext wide acquire sc hs)
    ((sendLoads_keeps State.cur (fun _ _ => rfl) ..).trans ((cur_kept ..).trans (runs_cur hR)))
    ((sendLoads_keeps (fun v => v.team? (k / 16)) (fun _ _ => rfl) ..).trans ((team?_kept ..).trans (runs_team hR))) w
  have hadd (u : State) : laneZeroFull ((u.addCharge q m).modTeam (k / 16) Team.oneMore) = laneZeroFull u := rfl
  rw [h, laneZeroFull_modCourse _ _ fun _ => lane_onNext .., laneZeroFull_modCourse _ _ fun _ => lane_charged .., hadd,
    sendLoads_keeps laneZeroFull fun _ _ => rfl]
  exact laneZeroFull_of_courses (congrArg (SMap.modify · k f) (courses_kept ..))

/-- Refutes O27: of a course listed twice under one number the statement empties the destination, in the second entry, in the lanes active
there, as its `c` is the entry's course; the model empties it in the active lanes of the course that executes (`exec_load_allHit`). What a load
sends is as the other half says (`loadLanesGoInFlight`). -/
theorem not_globalLoadsLeaveAndArrive : ¬ Obligations.GlobalLoadsLeaveAndArrive := by
  rintro ⟨h, -⟩
  have hstated := h listedTwice 0 false laneCourse (placedTeam (opOf atomWord)) ldInstr ldWord _ (fun _ => (0, 0x1F)) runs_listedTwice
    passes_ldListedTwice rfl rfl (by decide) rfl rfl ldHits_listedTwice
  rw [exec_load_allHit runs_listedTwice passes_ldListedTwice rfl rfl (by decide) rfl rfl ldHits_listedTwice rfl rfl] at hstated
  have hfull := congrArg laneZeroFull (Host.Outcome.next.inj hstated)
  exact loadEmptied_listedTwice ((laneZeroFull_load runs_listedTwice ..).symm.trans (hfull.trans (laneZeroFull_load runs_listedTwice ..)))

end Sys2Proof.Machine

/-! # The frame of the global loads and stores (R22, R149, R150, R267) -/

namespace Sys2Proof.Machine

open Sys2Proof Sys2Proof.Spec

/-! ## What an access may change -/

/-- What a global access keeps of its course: its group registers, flags, queues, named values, predicates, MODE, mode,
handler base and the other slot. -/
structure Course.KeptByAccess (str : Bool) (c c' : Course) : Prop where
  sc : c'.sc = c.sc
  fpflags : c'.fpflags = c.fpflags
  mode : c'.mode = c.mode
  handler : c'.handler = c.handler
  hbase : c'.hbase = c.hbase
  other : c'.slot (!str) = c.slot (!str)
  lanes : ∀ l, l < 32 → (c'.lane l).q = (c.lane l).q ∧ (c'.lane l).n = (c.lane l).n ∧ (c'.lane l).p = (c.lane l).p

/-- What a global access of slot `str` of course k, which is c, keeps of the state, up to the counts of its completion. -/
structure KeptByAccess (s : State) (k : Nat) (str : Bool) (c : Course) (u : State) : Prop where
  cur : u.cur = s.cur
  mem : u.mem = s.mem
  dev : u.dev = s.dev
  dir : u.dir = s.dir
  cores : ∀ n, { u.core n with tlb := [] } = { s.core n with tlb := [] }
  copies : u.copies = s.copies
  teams : u.teams = s.teams
  others : ∀ j, j ≠ k → u.course? j = s.course? j
  own : ∃ c', u.course? k = some c' ∧ c.KeptByAccess str c'

namespace Course.KeptByAccess

variable {str : Bool} {c c' c'' : Course}

theorem refl (str : Bool) (c : Course) : c.KeptByAccess str c := ⟨rfl, rfl, rfl, rfl, rfl, rfl, fun _ _ => ⟨rfl, rfl, rfl⟩⟩

theorem trans (h : c.KeptByAccess str c') (h' : c'.KeptByAccess str c'') : c.KeptByAccess str c'' :=
  ⟨h'.sc.trans h.sc, h'.fpflags.trans h.fpflags, h'.mode.trans h.mode, h'.handler.trans h.handler, h'.hbase.trans h.hbase, h'.other.trans h.other, fun l hl =>
    let ⟨hq, hn, hp⟩ := h.lanes l hl
    let ⟨hq', hn', hp'⟩ := h'.lanes l hl
    ⟨hq'.trans hq, hn'.trans hn, hp'.trans hp⟩⟩

theorem setSlot (c : Course) (str : Bool) (x : Slot) : c.KeptByAccess str (c.setSlot str x) :=
  ⟨sc_setSlot .., fpflags_setSlot .., mode_setSlot .., handler_setSlot .., by cases str <;> rfl, slot_setSlot_other .., fun l _ => by
    simp only [Course.lane, lanes_setSlot, and_self]⟩

theorem charged (c : Course) (str : Bool) (n : Nat) (y : Bool) : c.KeptByAccess str (c.charged str n y) :=
  trans (c' := { c with charge := c.charge + BitVec.ofNat 32 n, moves := c.moves + 1 }) ⟨rfl, rfl, rfl, rfl, rfl, rfl, fun _ _ => ⟨rfl, rfl, rfl⟩⟩ (setSlot ..)

theorem onNext (c : Course) (str : Bool) : c.KeptByAccess str (c.onNext str) := setSlot ..

/-- Emptying a destination clears full bits alone (R18). -/
theorem emptyDest (c : Course) (str : Bool) (act : Word) (d : Nat) (wide : Bool) : c.KeptByAccess str (c.emptyDest act d wide) := by
  unfold Course.emptyDest
  split
  · exact refl ..
  · refine ⟨sc_mapLanes .., by simp only [Course.mapLanes], by simp only [Course.mapLanes], by simp only [Course.mapLanes],
      by simp only [Course.mapLanes], slot_mapLanes .., fun l hl => ?_⟩
    rw [lane_mapLanes _ _ hl]
    split
    · split <;> exact ⟨rfl, rfl, rfl⟩
    · exact ⟨rfl, rfl, rfl⟩

end Course.KeptByAccess

/-! ## Entering lanes changes the store buffer alone (R22) -/

/-- c' is c but for its store buffer. -/
def BufferOnly (c c' : Course) : Prop := c' = { c with sb := c'.sb }

theorem BufferOnly.trans {a b c : Course} (h : BufferOnly a b) (h' : BufferOnly b c) : BufferOnly a c := by
  unfold BufferOnly at h h' ⊢
  rw [h', h]

theorem BufferOnly.kept {c c' : Course} (str : Bool) (h : BufferOnly c c') : c.KeptByAccess str c' := by
  rw [h]; exact ⟨rfl, rfl, rfl, rfl, rfl, rfl, fun _ _ => ⟨rfl, rfl, rfl⟩⟩

theorem bufferOnly_addEntry (c : Course) (e : SbEntry) : BufferOnly c (c.addEntry e) := by
  by_cases h : c.entryIx.foldl (fun _ i => i + 1) 0 < 16
  all_goals simp only [BufferOnly, Course.addEntry, h, ↓reduceIte]; rfl

theorem bufferOnly_enterHalf {c c' : Course} {n : Nat} {str : Bool} {lanes : Word} {clock step : Nat} {whole : Bool} {p : PendingStore}
    (h : c.enterHalf n str lanes clock step whole p = some c') : BufferOnly c c' := by
  simp only [Course.enterHalf] at h
  split at h
  · cases h; rfl
  · split at h
    · cases h
    · cases h; exact bufferOnly_addEntry ..

theorem bufferOnly_enterLane {c c' : Course} {n : Nat} {str : Bool} {lanes : Word} {clock step : Nat} {p : PendingStore}
    (h : c.enterLane n str lanes clock step p = some c') : BufferOnly c c' := by
  have fold (hs : List PendingStore) (o : Option Course) (ho : ∀ x, o = some x → BufferOnly c x) (x : Course)
      (hx : hs.foldl (fun (o : Option Course) h => o.bind fun c => c.enterHalf n str lanes clock step (decide (p.bytes.length = 128)) h) o = some x) :
      BufferOnly c x := by
    induction hs generalizing o with
    | nil => exact ho x hx
    | cons q hs ih =>
      refine ih _ (fun y hy => ?_) hx
      obtain ⟨z, hz, hq⟩ := Option.bind_eq_some_iff.1 hy
      exact (ho z hz).trans (bufferOnly_enterHalf hq)
  exact fold _ (some c) (fun x hx => by cases hx; rfl) c' h

theorem bufferOnly_enterLanes (c : Course) (n : Nat) (str : Bool) (lanes : Word) (clock step : Nat) (ps : List PendingStore) :
    BufferOnly c (c.enterLanes n str lanes clock step ps).1 := by
  induction ps generalizing c with
  | nil => rfl
  | cons p ps ih =>
    simp only [Course.enterLanes]
    split
    · next h => exact (bufferOnly_enterLane h).trans (ih _)
    · rfl

/-! ## The steps of an access keep it -/

namespace KeptByAccess

variable {s u : State} {k : Nat} {str : Bool} {c : Course}

theorem refl (hc : s.course? k = some c) : KeptByAccess s k str c s :=
  ⟨rfl, rfl, rfl, rfl, fun _ => rfl, rfl, rfl, fun _ _ => rfl, c, hc, .refl ..⟩

theorem send (h : KeptByAccess s k str c u) (x : Flight) : KeptByAccess s k str c (u.send x) :=
  ⟨h.cur, h.mem, h.dev, h.dir, h.cores, h.copies, h.teams, h.others, h.own⟩

theorem tick (h : KeptByAccess s k str c u) : KeptByAccess s k str c u.tick :=
  ⟨h.cur, h.mem, h.dev, h.dir, h.cores, h.copies, h.teams, h.others, h.own⟩

theorem setDie (h : KeptByAccess s k str c u) (n : Nat) (x : Die) : KeptByAccess s k str c (u.setDie n x) :=
  ⟨h.cur, h.mem, h.dev, h.dir, h.cores, h.copies, h.teams, h.others, h.own⟩

theorem modCourse (h : KeptByAccess s k str c u) {f : Course → Course} (hf : ∀ x : Course, x.KeptByAccess str (f x)) :
    KeptByAccess s k str c (u.modCourse k f) := by
  obtain ⟨c', hc', hk⟩ := h.own
  exact ⟨h.cur, h.mem, h.dev, h.dir, h.cores, h.copies, h.teams, fun j hj => (course_modCourse_other _ _ hj).trans (h.others j hj),
    f c', by rw [course_modCourse_same, hc']; rfl, hk.trans (hf c')⟩

theorem setCourse (h : KeptByAccess s k str c u) {c' : Course} (hk : c.KeptByAccess str c') : KeptByAccess s k str c (u.setCourse k c') :=
  ⟨h.cur, h.mem, h.dev, h.dir, h.cores, h.copies, h.teams, fun j hj => (course_setCourse_other _ _ hj).trans (h.others j hj),
    c', course_setCourse_same .., hk⟩

theorem core_setTlb (u : State) (p : TlbPlace) (es : List TlbEntry) (n : Nat) :
    { (u.setTlb p es).core n with tlb := [] } = { u.core n with tlb := [] } := by
  cases p with
  | quad m => rfl
  | die m => rfl
  | core m =>
    by_cases h : n = m
    · subst h
      simp only [State.setTlb, State.modCore, core_setCore_same]
    · simp only [State.setTlb, State.modCore, core_setCore_other _ _ h]

/-- Keeping translations changes TLBs alone (R330). -/
theorem kept (h : KeptByAccess s k str c u) (t : Team) (hs : List (Nat × Nat × Nat × Nat)) : KeptByAccess s k str c (kept u t hs) where
  cur := (cur_kept ..).trans h.cur
  mem := (kept_keeps State.mem (fun _ p _ => by cases p <;> rfl) u t hs).trans h.mem
  dev := (kept_keeps State.dev (fun _ p _ => by cases p <;> rfl) u t hs).trans h.dev
  dir := (kept_keeps State.dir (fun _ p _ => by cases p <;> rfl) u t hs).trans h.dir
  cores n := (kept_keeps (fun u : State => { u.core n with tlb := [] }) (fun _ _ _ => core_setTlb ..) u t hs).trans (h.cores n)
  copies := (kept_keeps State.copies (fun _ p _ => by cases p <;> rfl) u t hs).trans h.copies
  teams := (teams_kept ..).trans h.teams
  others j hj := (course?_kept ..).trans (h.others j hj)
  own := by rw [course?_kept]; exact h.own

theorem sendLoads (h : KeptByAccess s k str c u) (x : Course) (reg size : Nat) (sext wide : Bool) (acquire : Option Nat) (sc : Bool)
    (hs : List (Nat × Nat × Nat × Nat)) : KeptByAccess s k str c (u.sendLoads k str x reg size sext wide acquire sc hs) := by
  unfold State.sendLoads
  induction hs generalizing u with
  | nil => exact h
  | cons a hs ih => exact ih (h.send _)

/-- Parking a slot changes it and what the course records of its miss (R168). -/
theorem park (h : KeptByAccess s k str c u) (lanes : Word) (addr : Nat) (kind : AccKind) (hh : c.handler = false) :
    KeptByAccess s k str c (u.park k str lanes addr kind) := by
  obtain ⟨c', hc', hk⟩ := h.own
  unfold State.park
  rw [hc']
  cases ht : u.team? (k / 16) with
  | none => exact h
  | some t =>
    have hfree : c'.freeRecord = c' := by simp [Course.freeRecord, hk.handler, hh]
    simp only [hfree]
    refine ((h.setDie _ _).setCourse (hk.trans ?_)).setDie _ _
    exact (Course.KeptByAccess.setSlot c' str _).trans ⟨rfl, rfl, rfl, rfl, rfl, rfl, fun _ _ => ⟨rfl, rfl, rfl⟩⟩

end KeptByAccess

/-! ## What the rule of an access answers -/

/-- The state that an answer leaves, where it is not the state before. -/
def Res.Leaves (P : State → Prop) : Res → Prop
  | .done u | .stay u => P u
  | .jumped _ => False
  | .wait | .trap .. => True

/-- The operand checks answer a wait or a trap (R18, R199). -/
theorem checks_leaves {c : Course} {m : Word} {us : List Use} {dest : Option (Nat × Bool)} {res : Res} (h : c.checks m us dest = some res)
    (P : State → Prop) : res.Leaves P := by
  simp only [Course.checks] at h
  repeat' split at h
  all_goals cases h
  all_goals trivial

/-- A cause of R149 is a trap. -/
theorem firstCause_leaves {rs : List (Nat × Nat × LaneRes)} {res : Res} (h : firstCause rs = some res) (P : State → Prop) : res.Leaves P := by
  simp only [firstCause] at h
  repeat' split at h
  all_goals cases h
  trivial

section
variable {s : State} {k : Nat} {str : Bool} {c : Course} {t : Team}

/-- What a memory instruction answers: R83's refusal, a check's answer, or its own rule's. -/
theorem memVec_leaves (hR : Runs s k str c t) {P : State → Prop} {op : Nat} {acc : Bool} {uses : List Use} {dest : Option (Nat × Bool)}
    {body : Nat → Bool → Course → Word → Res} (hb : (body k str c (c.active str)).Leaves P) : (s.memVec op acc uses dest body).Leaves P := by
  simp only [State.memVec, runs_asCourse hR]
  split
  · trivial
  · split
    · next h => exact checks_leaves h P
    · exact hb

/-- What an access's own effect keeps, with or without room for it, R149's sequence keeps. -/
theorem lanesOp_leaves (hR : Runs s k str c t) (hh : c.handler = false) {op size align : Nat} {act : Word} {addr : Nat → Nat} {kind : AccKind}
    {banAll : Bool} {ban : Nat → Bool} {dest : Option (Nat × Bool)} {perform : State → List (Nat × Nat × Nat × Nat) → State ⊕ (State → State)}
    (hp : ∀ u hits, KeptByAccess s k str c u →
      match perform u hits with | .inl v => KeptByAccess s k str c v | .inr f => KeptByAccess s k str c (f s)) :
    (s.lanesOp op act addr size align kind banAll ban dest perform).Leaves (KeptByAccess s k str c) := by
  have hempty (hits : List (Nat × Nat × Nat × Nat)) : KeptByAccess s k str c (emptied (Spec.kept s t hits) k act dest) := by
    have hkept := (KeptByAccess.refl (str := str) hR.2.1).kept t hits
    cases dest with
    | none => exact hkept
    | some d => exact hkept.modCourse fun _ => .emptyDest ..
  have hstop {u hits f} (hu : KeptByAccess s k str c u) (h : perform u hits = .inr f) : KeptByAccess s k str c (f s) := by
    have := hp u hits hu
    rwa [h] at this
  have hgo {u hits v} (hu : KeptByAccess s k str c u) (h : perform u hits = .inl v) : KeptByAccess s k str c v := by
    have := hp u hits hu
    rwa [h] at this
  unfold State.lanesOp
  simp only [runs_asCourse hR, hR.2.2.1]
  cases dest
  all_goals
    split
    · trivial
    split
    · next h => exact firstCause_leaves h _
    split
    · trivial
    split
    · next h => exact hstop (hempty _) h
    next h =>
    have hv := hgo (hempty _) h
    split
    · exact hv.modCourse fun _ => .setSlot ..
    · split
      · exact hv
      · exact hv.park _ _ _ hh

end

/-! ## The rules of loads and stores -/

section
variable {s : State} {k : Nat} {str : Bool} {c : Course} {t : Team}

theorem loadLanes_leaves (hR : Runs s k str c t) (hh : c.handler = false) (r : LoadRow) :
    (s.loadLanes k str c r).Leaves (KeptByAccess s k str c) :=
  lanesOp_leaves hR hh fun _ _ hu => hu.sendLoads ..

/-- Lanes of a store that go on entering move their own slot and the buffer (R22). -/
theorem resumeEntering_leaves (hR : Runs s k str c t) (n : Nat) (rest : List PendingStore) (left : Word) :
    (s.resumeEntering k str c n rest left).Leaves (KeptByAccess s k str c) := by
  have hc := KeptByAccess.refl (str := str) hR.2.1
  simp only [State.resumeEntering, hR.2.2.1]
  have hkept := (bufferOnly_enterLanes c n str (c.slotLanes str) (s.core t.core).clock (s.stepOf t.core) rest).kept str
  split
  · split
    · exact hc.setCourse hkept
    · exact hc.setCourse (hkept.trans (.setSlot ..))
  · split
    · trivial
    · exact hc.setCourse (hkept.trans (.setSlot ..))

/-- A store of a team without a version enters its lanes, or waits for nothing. -/
theorem enterStores_leaves (hR : Runs s k str c t) (hv : t.version = none) {u : State} (hu : KeptByAccess s k str c u) (ps : List PendingStore)
    (pas : List Nat) :
    match u.enterStores k str ps pas with | .inl v => KeptByAccess s k str c v | .inr f => KeptByAccess s k str c (f s) := by
  obtain ⟨c', hc', hk⟩ := hu.own
  have ht : u.team? (k / 16) = some t := (congrArg (SMap.find? · (k / 16)) hu.teams).trans hR.2.2.1
  have hkept := (bufferOnly_enterLanes c' u.fresh str (c'.slotLanes str) (u.core t.core).clock (u.stepOf t.core) ps).kept str
  rw [enterStores_unversioned hc' ht hv ps pas rfl]
  refine (hu.setCourse ?_).tick
  split
  · exact hk.trans hkept
  · exact hk.trans (hkept.trans (.setSlot ..))

theorem storeOp_leaves (hR : Runs s k str c t) (hh : c.handler = false) (hv : t.version = none) (op d a : Nat) (acc : Bool) (dty : ElemType)
    (more : List Use) (addr : Course → Nat → Nat → Nat) (size kind scope : Nat) (banAll : Bool) (flag : Course → Nat → Nat → Option FlagInfo) :
    (s.storeOp op d a acc dty more addr size kind scope banAll flag).Leaves (KeptByAccess s k str c) := by
  refine memVec_leaves hR ?_
  split
  · exact resumeEntering_leaves hR ..
  · trivial
  · exact lanesOp_leaves hR hh fun _ _ hu => enterStores_leaves hR hv hu ..

/-- The rule of a global load or store keeps what an access keeps. -/
theorem exec_access_leaves (hR : Runs s k str c t) (hh : c.handler = false) (hv : t.version = none) {i : Instr}
    (hi : (loadRow c i).isSome = true ∨ (storeRow c i).isSome = true) :
    ∃ rule : Res, exec i s = s.runWord i rule ∧ rule.Leaves (KeptByAccess s k str c) := by
  rcases hi with hi | hi
  · obtain ⟨r, hrow⟩ := Option.isSome_iff_exists.1 hi
    exact ⟨_, exec_load hR hrow, memVec_leaves hR (loadLanes_leaves hR hh r)⟩
  · obtain ⟨r, hrow⟩ := Option.isSome_iff_exists.1 hi
    obtain ⟨a, more, addr, flag, -, -, -, hx⟩ := exec_store hR hrow
    exact ⟨_, hx, storeOp_leaves hR hh hv ..⟩

end

/-! ## The state after the word -/

/-- The frame of O29: what of the state an access leaves as it was, however it ends. -/
def AccessFrame (s u : State) (k : Nat) (str : Bool) (c : Course) : Prop :=
  (∀ a, u.mem.byte a = s.mem.byte a) ∧ u.dev = s.dev ∧ u.dir = s.dir ∧ (∀ n, { u.core n with tlb := [] } = { s.core n with tlb := [] }) ∧
    u.copies = s.copies ∧ (∀ j, j ≠ k → u.course? j = s.course? j) ∧ (∀ j, j ≠ k / 16 → u.team? j = s.team? j) ∧
    ∃ c', u.course? k = some c' ∧ c'.sc = c.sc ∧ c'.fpflags = c.fpflags ∧
      (∀ l, l < 32 → (c'.lane l).q = (c.lane l).q ∧ (c'.lane l).n = (c.lane l).n ∧ (c'.lane l).p = (c.lane l).p) ∧
      (c'.handler = false → c'.slot (!str) = c.slot (!str) ∧ c'.mode = c.mode)

section
variable {s u : State} {k : Nat} {str : Bool} {c : Course} {t : Team}

theorem KeptByAccess.frame (h : KeptByAccess s k str c u) : AccessFrame s u k str c := by
  obtain ⟨c', hc', hk⟩ := h.own
  exact ⟨fun a => by rw [h.mem], h.dev, h.dir, h.cores, h.copies, h.others, fun j _ => by simp only [State.team?, h.teams],
    c', hc', hk.sc, hk.fpflags, hk.lanes, fun _ => ⟨hk.other, hk.mode⟩⟩

/-- Completion counts the issue and moves the slot on. -/
theorem KeptByAccess.finished_frame (h : KeptByAccess s k str c u) (hR : Runs s k str c t) (w : Word) : AccessFrame s (finished s u w) k str c := by
  obtain ⟨c', hc', hk⟩ := h.own
  have ht : u.team? (k / 16) = some t := (congrArg (SMap.find? · (k / 16)) h.teams).trans hR.2.2.1
  obtain ⟨q, n, y, hf⟩ := finished_of_course (s := s) (h.cur.trans hR.1) ht w
  have hend : c.KeptByAccess str ((c'.charged str n y).onNext str) := (hk.trans (.charged ..)).trans (.onNext ..)
  rw [hf]
  refine ⟨fun a => ?_, h.dev, h.dir, h.cores, h.copies, fun j hj => ?_, fun j hj => ?_, _, ?_, hend.sc, hend.fpflags, hend.lanes,
    fun _ => ⟨hend.other, hend.mode⟩⟩
  · exact congrArg (Memory.byte · a) h.mem
  · rw [course_modCourse_other _ _ hj, course_modCourse_other _ _ hj]; exact h.others j hj
  · rw [team?_modCourse, team?_modCourse, team_modTeam_other _ _ hj, team?_addCharge]; exact congrArg (SMap.find? · j) h.teams
  · rw [course_modCourse_same, course_modCourse_same, course?_modTeam, course?_addCharge, hc']; rfl

/-- The secure log is a count of its die (R341). -/
theorem KeptByAccess.logSecure (h : KeptByAccess s k str c u) (x : Xlat) (cause : Cause) (va ti : Nat) :
    KeptByAccess s k str c (u.logSecure x cause va ti) := by
  unfold State.logSecure
  split
  · exact h
  · split
    · exact h
    · exact h.setDie ..

/-- R271: a trap enters the course's handler, or finds its team at its end. -/
theorem takeTrap_frame (hR : Runs s k str c t) (hh : c.handler = false) (hb : c.hbase ≠ 0#64) (hv : t.version = none) (cause : Cause) (va m ti : Nat) :
    AccessFrame s (s.takeTrap cause va m ti) k str c := by
  have hlog : KeptByAccess s k str c (s.logSecure t.xlat cause va ti) := (KeptByAccess.refl hR.2.1).logSecure ..
  have hx : s.xlatOf s.cur = some t.xlat := by simp only [State.xlatOf, hR.1, hR.2.2.1, Option.map_some]
  unfold State.takeTrap
  simp only [hx]
  generalize s.logSecure t.xlat cause va ti = u at hlog
  obtain ⟨c', hc', hk⟩ := hlog.own
  have ht : u.team? (k / 16) = some t := (congrArg (SMap.find? · (k / 16)) hlog.teams).trans hR.2.2.1
  have hbase : decide (c'.hbase = 0#64) = false := decide_eq_false (hk.hbase ▸ hb)
  simp only [State.enterTrap, hlog.cur.trans hR.1, hc', State.trapCourse, ht, hv, hk.handler, hh, hbase, Option.isSome_none, Bool.or_self,
    Bool.false_eq_true, ↓reduceIte]
  split
  · exact hlog.frame
  · exact ⟨fun a => congrArg (Memory.byte · a) hlog.mem, hlog.dev, hlog.dir, hlog.cores, hlog.copies,
      fun j hj => (course_setCourse_other _ _ hj).trans (hlog.others j hj), fun j _ => congrArg (SMap.find? · j) hlog.teams,
      _, course_setCourse_same .., hk.sc, hk.fpflags, hk.lanes, nofun⟩

end

/-- Settles O29. -/
theorem globalAccessFrame : Obligations.GlobalAccessFrame := by
  intro s k str c t i w u hR hw hi hv hh hb hx
  obtain ⟨rule, hrule, hleaves⟩ := exec_access_leaves hR hh hv hi
  rw [hrule] at hx
  have hP := runs_curRuns hR
  cases rule with
  | done v =>
    cases (runWord_finished hP hw rfl).symm.trans hx
    exact KeptByAccess.finished_frame hleaves hR w
  | jumped v => exact hleaves.elim
  | stay v =>
    cases (runWord_stay hP hw.1 hw.2).symm.trans hx
    exact KeptByAccess.frame hleaves
  | wait =>
    cases (runWord_wait hP hw.1 hw.2).symm.trans hx
    exact (KeptByAccess.refl hR.2.1).frame
  | trap cause va m ti =>
    cases (runWord_trap hP hw.1 hw.2).symm.trans hx
    exact takeTrap_frame hR hh hb hv ..

end Sys2Proof.Machine

/-! # Atomics performed (R155, R156, R255, R260) -/

namespace Sys2Proof.Machine

open Sys2Proof Sys2Proof.Spec

/-! ## What a group of lanes makes of its word (R155, R156) -/

/-- An exchange leaves the last lane's operand. -/
theorem atomGroup_exchange (et : ElemType) (ftz : Bool) (old : Nat) (ls : List AtomLane) :
    (atomGroup 6 et ftz old ls).1 = ((ls.getLast?).map AtomLane.x).getD old := by
  have fold (ls : List AtomLane) (a : Nat × List (AtomLane × Nat)) :
      (ls.foldl (fun a l => (l.x, a.2 ++ [(l, a.1)])) a).1 = ((ls.getLast?).map AtomLane.x).getD a.1 := by
    induction ls generalizing a with
    | nil => rfl
    | cons l ls ih =>
      rw [List.foldl_cons, ih, List.getLast?_cons]
      cases ls.getLast? <;> rfl
  exact fold ls (old, [])

/-- An addition under N32 is the words', and ignores FTZ. -/
theorem iadd_n32 (ftz : Bool) (x y : Word) : iadd { et := .n32, sat := false, rm := 0, ftz := ftz } x.toNat y.toNat = (x + y).toNat := by
  rw [BitVec.toNat_add]
  exact iadd_group (t := .n32) (.inr (.inl rfl)) x.isLt y.isLt

theorem atomGroup_add_single (ftz : Bool) (x y : Word) (l : AtomLane) (hl : l.x = y.toNat) :
    atomGroup 0 .n32 ftz x.toNat [l] = ((x + y).toNat, [(l, x.toNat)]) := by
  rw [← iadd_n32 ftz, ← hl]
  rfl

/-! ## The word at its home (R155) -/

@[simp] theorem courses_touch (s : State) (pa : Nat) : (s.touch pa).courses = s.courses := by
  unfold State.touch; dsimp only; split <;> rfl
@[simp] theorem dev_touch (s : State) (pa : Nat) : (s.touch pa).dev = s.dev := by
  unfold State.touch; dsimp only; split <;> rfl
@[simp] theorem dies_touch (s : State) (pa : Nat) : (s.touch pa).dies = s.dies := by
  unfold State.touch; dsimp only; split <;> rfl

/-- Where an address is performed depends on the migrations alone. -/
theorem forward_of_dies {s u : State} (h : u.dies = s.dies) (pa : Nat) : u.forward pa = s.forward pa := by
  simp only [State.forward, h]

@[simp] theorem forward_touch (s : State) (pa a : Nat) : (s.touch pa).forward a = s.forward a := forward_of_dies (dies_touch ..) a
@[simp] theorem forward_dropHeld (s : State) (pa a : Nat) : (s.dropHeld pa).forward a = s.forward a := by
  simp only [State.forward, State.dropHeld, SMap.mapVals, List.foldl_map]
@[simp] theorem courses_dropHeld (s : State) (pa : Nat) : (s.dropHeld pa).courses = s.courses := rfl
@[simp] theorem dev_dropHeld (s : State) (pa : Nat) : (s.dropHeld pa).dev = s.dev := rfl

/-- One masked store at an address; courses and registers are as before. -/
structure StoredInPlace (s u : State) (pa : Nat) (bytes : List (Option Byte)) : Prop where
  mem : u.mem = s.mem.setMasked pa bytes
  courses : u.courses = s.courses
  dev : u.dev = s.dev

theorem storedInPlace_rawWrite {s : State} {pa : Nat} (hfw : s.forward pa = pa) (bytes : List (Option Byte)) :
    StoredInPlace s (s.rawWrite pa bytes) pa bytes := by
  unfold State.rawWrite
  dsimp only
  split
  · exact ⟨by simp [hfw], by simp, by simp⟩
  · exact ⟨by simp [hfw], by simp, by simp⟩

theorem tagLine_sameKey {s : State} {pa key : Nat} (h : SameKey s pa key) : s.tagLine pa key = { s with dir := (s.tagLine pa key).dir } := by
  unfold State.tagLine
  dsimp only
  split
  · rfl
  next hhbm =>
  split
  · rfl
  next hmat =>
  rcases h with h | h
  · exact absurd (by rw [h]; rfl) hhbm
  · exact absurd h hmat

/-- R342: a write without a mark, of a frame that does not move, under the key of its line. -/
theorem storedInPlace_keyWrite {s : State} {pa key : Nat} (hfw : s.forward pa = pa) (hkey : SameKey s pa key) (bytes : List (Option Byte)) :
    StoredInPlace s ((s.keyLine pa key none).homeWrite pa bytes none) pa bytes := by
  have htag := tagLine_sameKey hkey
  have hkeyed : (s.keyLine pa key none).homeWrite pa bytes none = (s.tagLine pa key).rawWrite pa bytes := rfl
  obtain ⟨hmem, hcourses, hdev⟩ := storedInPlace_rawWrite (s := s.tagLine pa key) (by rw [htag]; exact hfw) bytes
  rw [hkeyed]
  exact ⟨by rw [hmem, htag], by rw [hcourses, htag], by rw [hdev, htag]⟩

/-! ## One event of a group (R155, R156) -/

/-- A write that is not SC takes no time, and records its release in the directory alone (R260, R262). -/
theorem storedInPlace_performWrite {s : State} {pa key : Nat} (hfw : s.forward pa = pa) (hkey : SameKey s pa key) (bytes : List (Option Byte)) {kind : Nat}
    (hk : kind ≠ 3) (core scope stamp c0 : Nat) :
    ∃ u, (s.keyLine pa key none).performWrite pa bytes none kind core scope stamp c0 = (0, u) ∧ StoredInPlace s u pa bytes := by
  obtain ⟨hmem, hcourses, hdev⟩ := storedInPlace_keyWrite hfw hkey bytes
  unfold State.performWrite
  simp only [hk, ↓reduceIte]
  split
  · exact ⟨_, rfl, hmem, hcourses, hdev⟩
  · exact ⟨_, rfl, hmem, hcourses, hdev⟩

/-- What an atomic's write records, by its order (R260, R262). -/
def AtomGroup.kind (g : AtomGroup) : Nat :=
  match g.order with | .relaxed => if g.copy.isSome then 2 else 0 | .acqRel => 2 | .sc => 3

theorem kind_ne_sc {g : AtomGroup} (h : g.order ≠ .sc) : g.kind ≠ 3 := by
  unfold AtomGroup.kind
  split
  · split <;> decide
  · decide
  · next hsc => exact absurd hsc h

section
variable {s : State} {pa f m k : Nat} {str : Bool} {g : AtomGroup}

/-- An event of a group without a version, of an unpoisoned word in place, that takes no SC time. -/
theorem atomAt_inPlace (hv : g.version = none) (ho : g.order ≠ .sc) (hp : s.poisoned pa = false) (hfw : s.forward pa = pa)
    (hkey : SameKey s pa g.keyId) (up : Option Bool) (core stamp : Nat) :
    let e := atomEvent g.op g.et g.ftz (ofBytes (s.bytesUnder pa g.size g.keyId)) g.lanes up g.half
    ∃ u, s.atomAt pa g up core stamp none = (some { values := e.2, time := 0 }, u) ∧ StoredInPlace s u pa ((bytesOf g.size e.1).map some) := by
  intro e
  have hpoison : s.poisonedIn none pa = false := by simp [State.poisonedIn, hp]
  have hbytes : (List.range g.size).map (fun i => s.homeByte none (pa + i) g.keyId) = s.bytesUnder pa g.size g.keyId := rfl
  obtain ⟨u, hu, hstored⟩ := storedInPlace_performWrite hfw hkey ((bytesOf g.size e.1).map some) (kind_ne_sc ho) core g.scope stamp g.stamp
  have hat : s.atomAt pa g up core stamp none =
      (let p := (s.keyLine pa g.keyId none).performWrite pa ((bytesOf g.size e.1).map some) none g.kind core g.scope stamp g.stamp
       (some { values := e.2, time := p.1 }, if g.order = .sc then p.2.setStamps pa p.1 (max (p.2.stamps pa).2 p.1) else p.2)) := by
    simp only [State.atomAt, hv, hpoison, hbytes, Bool.false_eq_true, ↓reduceIte]
    rfl
  exact ⟨u, by simp only [hat, hu, ho, ↓reduceIte], hstored⟩

/-! ## The answers of a group (R156) -/

/-- Sending an item, if there is one. -/
def State.sendIf (s : State) (x : Option Flight) : State :=
  match x with
  | some y => s.send y
  | none => s

theorem sendIf_keeps {γ : Type} (f : State → γ) (h : ∀ u y, f (State.send u y) = f u) (u : State) (x : Option Flight) : f (u.sendIf x) = f u := by
  cases x <;> [rfl; exact h ..]

/-- An item is in flight under a stamp already drawn. -/
def InFlight (s : State) (y : Flight) : Prop := ∃ n, n < s.fresh ∧ s.flight? n = some y

theorem inFlight_send (s : State) (y : Flight) : InFlight (s.send y) y := ⟨s.fresh, Nat.lt_succ_self _, flight_send ..⟩

theorem InFlight.sendIf {y : Flight} (h : InFlight s y) (x : Option Flight) : InFlight (s.sendIf x) y := by
  obtain ⟨n, hn, hy⟩ := h
  cases x with
  | none => exact ⟨n, hn, hy⟩
  | some z => exact ⟨n, Nat.lt_succ_of_lt hn, (flight_send_other _ _ (Nat.ne_of_lt hn)).trans hy⟩

theorem inFlight_sendMany {α : Type} (x : α → Option Flight) (as : List α) (u : State) {a : α} {y : Flight} (ha : a ∈ as) (hy : x a = some y) :
    InFlight (as.foldl (fun u a => u.sendIf (x a)) u) y := by
  have keep (as : List α) (u : State) (hu : InFlight u y) : InFlight (as.foldl (fun u a => u.sendIf (x a)) u) y := by
    induction as generalizing u with
    | nil => exact hu
    | cons b as ih => exact ih _ (hu.sendIf _)
  induction as generalizing u with
  | nil => cases ha
  | cons b as ih =>
    rcases List.mem_cons.1 ha with rfl | ha
    · refine keep as _ ?_
      simp only [hy]
      exact inFlight_send ..
    · exact ih _ ha

/-- The value that a returning lane of a course's group awaits (R156). -/
def AtomGroup.valueFor (g : AtomGroup) (n k : Nat) (str : Bool) (lv : AtomLane × Nat) : Option Flight :=
  lv.1.reg.map fun r => .value
    { key := k, str := str, mask := g.mask, lane := lv.1.lane, reg := r, wide := decide (g.size = 8), value := lv.2, poison := false, fail := none,
      pc := g.pc, acquire := if g.order = .relaxed then none else some g.scope, origin := n }

/-- What a performed group leaves in its core: its place in the write path, and its line in the L1, are given up (R255). -/
def State.giveUp (s : State) (n : Nat) (g : AtomGroup) : State :=
  match g.mark with
  | some m => ((s.drop n).dropItem ((s.drop n).pathOf g.owner) m).dropLine ((s.drop n).pathOf g.owner) g.pa
  | none => s.drop n

/-- A performed group of a course answers each returning lane, and acknowledges its counter. -/
theorem finishAtom_course (hown : g.owner = .course k str) (hcopy : g.copy = none) (n : Nat) (a : AtomAnswer) (fail : Cause) (ti : Word) :
    s.finishAtom n g (some a) fail ti =
      (a.values.foldl (fun u lv => u.sendIf (g.valueFor n k str lv)) (s.giveUp n g)).sendIf (g.counter.map fun c => .ack g.owner c a.time n) := by
  simp only [State.finishAtom, hcopy, hown, State.giveUp]
  cases g.mark <;> cases g.counter
  case none.none | some.none => exact List.foldl_ext _ _ _ fun u lv _ => by unfold AtomGroup.valueFor; cases lv.1.reg <;> rfl
  case none.some | some.some =>
    exact congrArg (State.send · _) (List.foldl_ext _ _ _ fun u lv _ => by unfold AtomGroup.valueFor; cases lv.1.reg <;> rfl)

end

/-! ## ATOMIC_PERFORM -/

section
variable {s : State} {f k m : Nat} {str : Bool} {g : AtomGroup}

/-- R255: a course's group that its core has not passed on goes to the write path once its slot's older accesses allow it. -/
theorem exec_atomicPerform_place (hf : s.flight? f = some (.atom g)) (hown : g.owner = .course k str) (hsent : g.sent = false) (hmark : g.mark = none)
    (hver : g.version = none) (hcopy : g.copy = none) :
    exec (.atomicPerform f) s = .next (if s.mayPlace f k str g then s.placeAtom f g else s) := by
  change execAtomicPerform f s = _
  simp only [execAtomicPerform, hf, hsent, hcopy, hver, hown, hmark, Option.isSome_none, Bool.false_and, Bool.or_self, Bool.false_eq_true, ↓reduceIte]

/-- R260: an acquire asks for no promotion when none is to be waited for. -/
theorem promoteAtom_none {path pa : Nat} (h : g.order = .relaxed ∨ (s.promoting f = false ∧ s.promotionClear path pa g.scope = true)) :
    s.promoteAtom f g path pa = none := by
  unfold State.promoteAtom
  rcases h with h | ⟨hp, hc⟩
  · exact if_pos h
  · split
    · rfl
    · simp only [hp, Bool.false_eq_true, ↓reduceIte]
      unfold State.promotionClear at hc
      cases hn : s.promoNeeds path pa g.scope with
      | none => rfl
      | some q =>
        rw [hn] at hc
        exact if_pos hc

/-- R155, R156, R255: a group whose place in the write path may be performed, in its own package, is performed: whole, or one half. -/
theorem exec_atomicPerform_here (hf : s.flight? f = some (.atom g)) (hown : g.owner = .course k str) (hsent : g.sent = false) (hmark : g.mark = some m)
    (hmay : mayPerform (s.core (s.pathOf g.owner)).path m g.owner g.pa g.size = true) (ho : g.order ≠ .sc)
    (hpromo : g.order = .relaxed ∨ (s.promoting f = false ∧ s.promotionClear (s.pathOf g.owner) g.pa g.scope = true))
    (hpkg : g.pa / 2 ^ 48 = s.pkgOf g.owner) (hver : g.version = none) (hcopy : g.copy = none) (hun : s.unshared g.pa = true)
    (hpoison : s.poisoned g.pa = false) :
    exec (.atomicPerform f) s = .next (if g.firstHalf then s.performHalf f g.pa g (s.pathOf g.owner) m g.snap
      else ((s.performAtom g.pa g (s.pathOf g.owner) m g.snap).2.finishAtom f g (s.performAtom g.pa g (s.pathOf g.owner) m g.snap).1 .softErr 2#32)) := by
  have hstall : s.atomStalls g = false := by simp [State.atomStalls, hver]
  have hin : s.poisonedIn none g.pa = false := by simp [State.poisonedIn, hpoison]
  rw [hown] at hmay hpromo hpkg
  change execAtomicPerform f s = _
  simp only [execAtomicPerform, hf, hsent, hcopy, hver, hown, hmark, hmay, ho, hpkg, hun, hstall, hin, promoteAtom_none hpromo, Option.isSome_none,
    Option.isNone_none, Bool.false_and, Bool.or_self, Bool.false_eq_true, ne_eq, not_true_eq_false, false_and, Bool.not_true, Bool.not_false, Bool.and_true,
    Bool.and_false, Option.getD_some, ↓reduceIte]

/-! ## What the event leaves -/

theorem giveUp_keeps {γ : Type} (h : State → γ) (hd : ∀ u n, h (State.drop u n) = h u) (hc : ∀ u p x, h (State.setCore u p x) = h u) (s : State) (n : Nat)
    (g : AtomGroup) : h (s.giveUp n g) = h s := by
  unfold State.giveUp
  cases g.mark with
  | none => exact hd ..
  | some m => exact (hc ..).trans ((hc ..).trans (hd ..))

/-- The answers of a group are sent after what it gives up; nothing else of the state differs. -/
theorem finishAtom_keeps {γ : Type} (h : State → γ) (hd : ∀ u n, h (State.drop u n) = h u) (hc : ∀ u p x, h (State.setCore u p x) = h u)
    (hs : ∀ u x, h (State.send u x) = h u) (hown : g.owner = .course k str) (hcopy : g.copy = none) (n : Nat) (a : AtomAnswer) (fail : Cause) (ti : Word) :
    h (s.finishAtom n g (some a) fail ti) = h s := by
  rw [finishAtom_course hown hcopy, sendIf_keeps h hs, foldl_keeps _ h fun _ _ => sendIf_keeps h hs .., giveUp_keeps h hd hc]

/-- Each returning lane's value is on its way, and the acknowledgement of the group's counter (R156). -/
theorem finishAtom_answers (hown : g.owner = .course k str) (hcopy : g.copy = none) (n : Nat) (a : AtomAnswer) (fail : Cause) (ti : Word) :
    (∀ lv ∈ a.values, ∀ y, g.valueFor n k str lv = some y → InFlight (s.finishAtom n g (some a) fail ti) y) ∧
      ∀ c, g.counter = some c → InFlight (s.finishAtom n g (some a) fail ti) (.ack g.owner c a.time n) := by
  rw [finishAtom_course hown hcopy]
  refine ⟨fun lv hlv y hy => (inFlight_sendMany _ _ _ hlv hy).sendIf _, fun c hc => ?_⟩
  rw [hc]
  exact inFlight_send ..

/-- R155: one half of a BF16x2 addition, the lower or the upper; the group keeps what it returned. -/
theorem performHalf_inPlace (hver : g.version = none) (ho : g.order ≠ .sc) (hpoison : s.poisoned g.pa = false)
    (hfw : s.forward g.pa = g.pa) (hkey : SameKey s g.pa g.keyId) (core stamp : Nat) :
    let old := ofBytes (s.bytesUnder g.pa g.size g.keyId)
    let r := atomGroup g.op g.et g.ftz old g.lanes
    ∃ up vs, (s.performHalf f g.pa g core stamp none).flight? f = some (.atom { g with half := some (up, vs) }) ∧
      StoredInPlace s (s.performHalf f g.pa g core stamp none) g.pa ((bytesOf g.size (withHalf up (halfOf up r.1) old)).map some) := by
  intro old r
  obtain ⟨u, hu, hmem, hcourses, hdev⟩ := atomAt_inPlace (s := s.tick) hver ho hpoison hfw hkey (some ((s.draw 0).getLsbD 0)) core stamp
  unfold State.performHalf
  simp only [hu]
  exact ⟨_, _, find_put_same .., hmem, hcourses, hdev⟩

/-- The lanes' values of a whole event are the group's. -/
theorem atomEvent_whole (hhalf : g.half = none) (old : Nat) :
    atomEvent g.op g.et g.ftz old g.lanes none g.half = atomGroup g.op g.et g.ftz old g.lanes := by
  rw [hhalf]; rfl

end

/-- Settles O48. -/
theorem atomicsArePerformedAsOneEvent : Obligations.AtomicsArePerformedAsOneEvent := by
  refine ⟨fun s f g k str => exec_atomicPerform_place, ?_, fun et ftz old ls => atomGroup_exchange et ftz old ls, fun _ _ _ _ => rfl,
    fun ftz x y l hl => atomGroup_add_single ftz x y l hl⟩
  intro s f g k str m hf hown hsent hmark hmay ho hpromo hpkg hver hcopy hhalf hun hpoison hplace hkey old r
  obtain ⟨hfw, hsnap⟩ := hplace
  have hexec := exec_atomicPerform_here hf hown hsent hmark hmay ho hpromo hpkg hver hcopy hun hpoison
  rw [hsnap] at hexec
  refine ⟨fun hsplit => ?_, fun hsplit => ?_⟩
  · have hfirst : g.firstHalf = true := by simp [AtomGroup.firstHalf, hsplit, hhalf]
    rw [if_pos hfirst] at hexec
    obtain ⟨up, vs, hflight, hmem, hcourses, hdev⟩ := performHalf_inPlace (f := f) hver ho hpoison hfw hkey (s.pathOf g.owner) m
    exact ⟨_, up, _, vs, hexec, hflight, rfl, hmem, hcourses, hdev⟩
  · have hfirst : ¬ g.firstHalf = true := by simp [AtomGroup.firstHalf, hsplit]
    rw [if_neg hfirst] at hexec
    obtain ⟨u, hu, hmem, hcourses, hdev⟩ := atomAt_inPlace hver ho hpoison hfw hkey none (s.pathOf g.owner) m
    have hperf : s.performAtom g.pa g (s.pathOf g.owner) m none = _ := hu
    rw [hperf] at hexec
    simp only [atomEvent_whole hhalf] at hmem hexec
    obtain ⟨hvalues, hacks⟩ := finishAtom_answers (s := u) hown hcopy f { values := r.2, time := 0 } .softErr 2#32
    have hkeeps {γ : Type} (h : State → γ) (hd : ∀ u n, h (State.drop u n) = h u) (hc : ∀ u p x, h (State.setCore u p x) = h u)
        (hs : ∀ u x, h (State.send u x) = h u) := finishAtom_keeps (s := u) h hd hc hs hown hcopy f { values := r.2, time := 0 } .softErr 2#32
    refine ⟨_, hexec, (hkeeps State.mem (fun _ _ => rfl) (fun _ _ _ => rfl) fun _ _ => rfl).trans hmem, fun lv hlv reg hreg => ?_, fun c hc => ?_,
      (hkeeps State.courses (fun _ _ => rfl) (fun _ _ _ => rfl) fun _ _ => rfl).trans hcourses,
      (hkeeps State.dev (fun _ _ => rfl) (fun _ _ _ => rfl) fun _ _ => rfl).trans hdev⟩
    · obtain ⟨n, -, hn⟩ := hvalues lv hlv _ (by rw [AtomGroup.valueFor, hreg]; rfl)
      exact ⟨n, _, hn, rfl, rfl, rfl, rfl, rfl⟩
    · obtain ⟨n, -, hn⟩ := hacks c hc
      exact ⟨n, hn⟩

end Sys2Proof.Machine

/-! # Values that arrive in their lanes (R150, R153, R178, R406) -/

namespace Sys2Proof.Machine

open Sys2Proof Sys2Proof.Spec

/-! ## A course that values reach (R291) -/

section
variable {s : State} {k : Nat} {c : Course}

theorem recordOf_reached (hR : Reached s k c) (o : Nat) : c.recordOf o = none := by
  obtain ⟨-, -, hb, he⟩ := hR
  simp only [Course.recordOf, he, List.find?_nil, hb]

/-- An item for a course with no record is not diverted. -/
theorem diverted_reached (hR : Reached s k c) {f : Nat} {x : Flight} (hf : s.flight? f = some x) (hx : x.courseOf = some k) : s.diverted f = false := by
  simp only [State.diverted, hf, hx, Option.bind_some, hR.1, recordOf_reached hR, Option.isSome_none]

/-- R150: the value is written in its lane. -/
theorem landLane_reached (hR : Reached s k c) (o l reg : Nat) (wide : Bool) (v : Nat) :
    s.landLane k o l reg wide v = s.setCourse k (c.arrive l reg wide v) := by
  obtain ⟨hc, hlive, -⟩ := id hR
  simp only [State.landLane, hc, recordOf_reached hR, hlive, ↓reduceIte]

end

/-! ## A register that a value has reached (R150) -/

section
variable (c : Course) {l k : Nat} (wide : Bool) (v : Nat)

theorem lane_arrive_same (hl : l < 32) : (c.arrive l k wide v).lane l =
    if wide then ((c.lane l).writeN k v).writeN (k + 1) (v / 2 ^ 32) else (c.lane l).writeN k v := by
  rw [Course.arrive, lane_mapLanes _ _ hl, if_pos rfl]

theorem lane_arrive_other {m : Nat} (hm : m < 32) (h : m ≠ l) : (c.arrive l k wide v).lane m = c.lane m := by
  rw [Course.arrive, lane_mapLanes _ _ hm, if_neg h]

/-- The register, or the pair, takes the value and is full; the lane's other registers, its queue and its predicates are as before. -/
theorem arrive_writes (hl : l < 32) (hk : k < 31) :
    let y := (c.arrive l k wide v).lane l
    y.named k = BitVec.ofNat 32 v ∧ y.fe.getLsbD k = true ∧ (wide = true → y.named (k + 1) = BitVec.ofNat 32 (v / 2 ^ 32) ∧ y.fe.getLsbD (k + 1) = true) ∧
      y.q = (c.lane l).q ∧ y.p = (c.lane l).p ∧ (∀ n, n < 32 → n ≠ k → (wide = false ∨ n ≠ k + 1) → y.named n = (c.lane l).named n) ∧
      ∀ m, m < 32 → m ≠ l → (c.arrive l k wide v).lane m = c.lane m := by
  have hk32 : k < 32 := Nat.lt_succ_of_lt hk
  have hq (x : Lane) (n v : Nat) : (x.writeN n v).q = x.q := by simp only [Lane.writeN]
  rw [lane_arrive_same c wide v hl]
  cases wide with
  | false =>
    refine ⟨named_writeN_same _ _ hk32, ?_, nofun, hq .., p_writeN .., fun n _ hn _ => named_writeN_other _ _ hn,
      fun m hm h => lane_arrive_other c _ v hm h⟩
    simp [fe_writeN _ _ _ hk32]
  | true =>
    refine ⟨(named_writeN_other _ _ (by omega)).trans (named_writeN_same _ _ hk32), ?_, fun _ => ⟨named_writeN_same _ _ (by omega), ?_⟩,
      (hq ..).trans (hq ..), (p_writeN ..).trans (p_writeN ..),
      fun n _ hn hn' => (named_writeN_other _ _ (hn'.resolve_left (by simp))).trans (named_writeN_other _ _ hn), fun m hm h => lane_arrive_other c _ v hm h⟩
    · simp [fe_writeN _ _ _ hk32]
    · simp [fe_writeN _ _ _ (show k + 1 < 32 by omega)]

end

/-! ## A value in flight -/

theorem exec_laneValueDelivery_value {s : State} {f : Nat} {x : LaneValue} {c : Course} (hf : s.flight? f = some (.value x)) (hR : Reached s x.key c)
    (hfail : x.fail = none) (hacq : x.acquire = none) :
    exec (.laneValueDelivery f) s = .next ((s.drop f).setCourse x.key (c.arrive x.lane x.reg x.wide x.value)) := by
  change execLaneValueDelivery f s = _
  have hR' : Reached (s.drop f) x.key c := hR
  simp only [execLaneValueDelivery, diverted_reached hR hf rfl, hf, hR.1, State.deliverFlight, hfail, hacq, landLane_reached hR', Bool.false_eq_true,
    ↓reduceIte]

/-! ## A load read in its own package (R150, R255, R406) -/

/-- A read's notes (R255, R257, R325): a line in the L1, a sharer in the directory, a release that the course has seen. -/
structure ReadNoted (s u : State) (k : Nat) (c : Course) : Prop where
  mem : u.mem = s.mem
  dev : u.dev = s.dev
  own : ∃ xs, u.course? k = some { c with seen := xs }

section
variable {s u : State} {k : Nat} {c : Course}

theorem readNoted_noteSeen (hc : s.course? k = some c) (str : Bool) (lanes : Word) (core : Nat) (r : Nat × Nat × Nat) :
    ReadNoted s (s.noteSeen (.course k str) lanes core r) k c := by
  simp only [State.noteSeen]
  split
  · exact ⟨rfl, rfl, _, by rw [course_modCourse_same, hc]; rfl⟩
  · exact ⟨rfl, rfl, c.seen, hc⟩

theorem ReadNoted.fillLine (h : ReadNoted s u k c) (core pa key : Nat) : ReadNoted s (u.fillLine core pa key) k c := by
  unfold State.fillLine
  split
  · exact h
  · exact ⟨h.mem, h.dev, h.own⟩

theorem ReadNoted.noteSharer (h : ReadNoted s u k c) (die pa : Nat) : ReadNoted s (u.noteSharer die pa) k c := by
  simp only [State.noteSharer]
  split
  · split
    · exact h
    · exact ⟨h.mem, h.dev, h.own⟩
  · exact ⟨h.mem, h.dev, h.own⟩

theorem readNoted_noteRead (hc : s.course? k = some c) (core : Nat) (str : Bool) (lanes : Word) (pa key : Nat) :
    ReadNoted s (s.noteRead core (.course k str) lanes pa key false) k c := by
  have h := readNoted_noteSeen hc str lanes core (s.releaseRead core pa)
  simp only [State.noteRead, Bool.false_eq_true, ↓reduceIte]
  split
  · exact h.noteSharer ..
  · exact (h.fillLine ..).noteSharer ..

/-- Sampling a load's time changes monitors alone (R320). -/
theorem sampleLoad_keeps {γ : Type} (h : State → γ) (hq : ∀ u n x, h (State.setQuad u n x) = h u) (hd : ∀ u n x, h (State.setDie u n x) = h u)
    (s : State) (core since : Nat) : h (s.sampleLoad core since) = h s := by
  simp only [State.sampleLoad, State.sampleSource]
  split <;> split <;> simp only [hq, hd]

theorem reached_of_seen {xs : List Seen} (hR : Reached s k c) (hu : u.course? k = some { c with seen := xs }) : Reached u k { c with seen := xs } := by
  obtain ⟨-, hlive, hb, he⟩ := hR
  exact ⟨hu, hlive, hb, he⟩

/-- A value's arrival does not look at the releases seen. -/
theorem arrive_seen (c : Course) (xs : List Seen) (l k : Nat) (wide : Bool) (v : Nat) :
    { ({ c with seen := xs } : Course).arrive l k wide v with seen := c.seen } = c.arrive l k wide v := by
  simp only [Course.arrive, Course.mapLanes]

/-- The value of a load that is no acquire reaches its lane: its course has it, and no byte or register of the machine changes. -/
theorem landLoad_lands (hR : Reached s k c) {x : LoadLane} (hk : x.key = k) (hacq : x.acquire = none) (f v : Nat) :
    (s.landLoad f x v).mem = s.mem ∧ (s.landLoad f x v).dev = s.dev ∧
      (s.landLoad f x v).course? k = some (c.arrive x.lane x.reg x.wide (x.value v)) := by
  subst hk
  simp only [State.landLoad, landLane_reached hR, hacq]
  cases x.since with
  | none => exact ⟨rfl, rfl, course_setCourse_same ..⟩
  | some t =>
    refine ⟨?_, ?_, ?_⟩
    · exact sampleLoad_keeps State.mem (fun _ _ _ => rfl) (fun _ _ _ => rfl) ..
    · exact sampleLoad_keeps State.dev (fun _ _ _ => rfl) (fun _ _ _ => rfl) ..
    · exact (sampleLoad_keeps (fun u => u.course? x.key) (fun _ _ _ => rfl) (fun _ _ _ => rfl) ..).trans (course_setCourse_same ..)

end

section
variable {s : State} {f : Nat} {x : LoadLane} {c : Course}

/-- A load that is no acquire or SC one and meets no poison is read here, noted, and lands. -/
theorem exec_laneValueDelivery_load (hf : s.flight? f = some (.load x)) (hR : Reached s x.key c) (hgot : x.got = none) (hasked : x.asked = false)
    (hacq : x.acquire = none) (hsc : x.sc = none) (hhome : x.atHome = false) (hdev : isDevice x.pa = false)
    (hmay : s.mayRead f x.key x.str x.mask x.va x.pa x.size false false = true)
    (haway : s.readsAway (s.pathOf (.course x.key x.str)) x.pa (c.forward f x.str x.mask x.va x.size) false false = false)
    (hpoison : s.readsPoison (s.pathOf (.course x.key x.str)) x.pa (c.forward f x.str x.mask x.va x.size) x.version false = false) :
    exec (.laneValueDelivery f) s = .next ((s.noteRead (s.pathOf (.course x.key x.str)) (.course x.key x.str) x.mask x.pa x.keyId false).landLoad f x
      (ofBytes (s.loadBytes (s.pathOf (.course x.key x.str)) x.pa x.size (c.forward f x.str x.mask x.va x.size) x.version false x.keyId))) := by
  have hown : s.ownBytes f x.key x.str x.mask x.va x.size false = c.forward f x.str x.mask x.va x.size := by simp [State.ownBytes, hR.1]
  change execLaneValueDelivery f s = _
  simp only [execLaneValueDelivery, diverted_reached hR hf rfl, hf, hR.1, State.deliverFlight, hgot, hasked, hsc, hhome, hmay, hown, haway,
    State.readHere, hdev, hpoison, hacq, Option.isSome_none, Bool.not_true, Bool.or_self, Bool.and_false, Bool.false_and, Bool.false_eq_true, ↓reduceIte]

theorem loadArrives (hf : s.flight? f = some (.load x)) (hR : Reached s x.key c) (hgot : x.got = none) (hasked : x.asked = false)
    (hacq : x.acquire = none) (hsc : x.sc = none) (hhome : x.atHome = false) :
    let core := s.pathOf (.course x.key x.str)
    let own := c.forward f x.str x.mask x.va x.size
    isDevice x.pa = false → s.mayRead f x.key x.str x.mask x.va x.pa x.size false false = true → s.readsAway core x.pa own false false = false →
    s.readsPoison core x.pa own x.version false = false → ∃ u c', exec (.laneValueDelivery f) s = .next u ∧ u.mem = s.mem ∧ u.dev = s.dev ∧
      u.course? x.key = some c' ∧
      { c' with seen := c.seen } = c.arrive x.lane x.reg x.wide (x.value (ofBytes (s.loadBytes core x.pa x.size own x.version false x.keyId))) := by
  intro core own hdev hmay haway hpoison
  obtain ⟨hmem, hdev', xs, hxs⟩ := readNoted_noteRead hR.1 core x.str x.mask x.pa x.keyId
  obtain ⟨hm, hd, hc⟩ := landLoad_lands (reached_of_seen hR hxs) rfl hacq f (ofBytes (s.loadBytes core x.pa x.size own x.version false x.keyId))
  exact ⟨_, _, exec_laneValueDelivery_load hf hR hgot hasked hacq hsc hhome hdev hmay haway hpoison, hm.trans hmem, hd.trans hdev', hc,
    arrive_seen ..⟩

end

/-- R406: a byte of such a load is its own course's store's, the L1 line's, or the slice's under the writes its core has passed on. -/
theorem loadBytes_byte (s : State) (core pa size : Nat) (own : List (Option Byte)) (key i : Nat) (hi : i < size) :
    (s.loadBytes core pa size own none false key)[i]? = some (match (own[i]?).getD none with
      | some b => b
      | none => match SMap.find? (s.core core).l1 (lineOf (pa + i)) with
        | some line => line.getD ((pa + i) % 128) (s.byteAt (pa + i))
        | none => overlayPath (s.core core).path (pa + i) (s.sliceByte core (pa + i) key)) := by
  simp only [State.loadBytes, List.getElem?_map, List.getElem?_range hi, Option.map_some]
  refine congrArg some ?_
  cases (own[i]?).getD none with
  | some b => rfl
  | none =>
    change s.coreByte core (pa + i) key = _
    unfold State.coreByte
    cases SMap.find? (s.core core).l1 (lineOf (pa + i)) <;> rfl

/-! ## A scratchpad access at its bank (R178, R181) -/

section
variable {s : State} {f : Nat} {x : SpLane} {c : Course} {t : Team}

/-- The event of an access: its own core's bank serves it, or a partner's. -/
def SpLane.event (x : SpLane) (f : Nat) : Instr := if x.window then .windowAccess f else .scratchpadLaneComplete f

/-- An access whose turn at the bank has come is served, a partner's when its core takes requests still (R316). -/
theorem exec_bankEvent (hf : s.flight? f = some (.spad x)) (hbusy : s.bankBusy f x = false) (hopen : x.window = true → s.refuses x.target = false) :
    exec (x.event f) s = .next (s.serveBank f x) := by
  unfold SpLane.event
  cases hw : x.window with
  | false =>
    change execScratchpadLaneComplete f s = _
    simp only [execScratchpadLaneComplete, hf, hw, hbusy, Bool.or_self, Bool.false_eq_true, ↓reduceIte]
  | true =>
    change execWindowAccess f s = _
    simp only [execWindowAccess, hf, hw, hbusy, hopen hw, Bool.not_true, Bool.or_self, Bool.false_eq_true, ↓reduceIte]

theorem reached_arrive {k : Nat} (hR : Reached s k c) (l reg : Nat) (wide : Bool) (v : Nat) :
    Reached (s.setCourse k (c.arrive l reg wide v)) k (c.arrive l reg wide v) := by
  obtain ⟨-, hlive, hb, he⟩ := hR
  refine ⟨course_setCourse_same .., ?_⟩
  simp only [Course.arrive, Course.mapLanes]
  exact ⟨hlive, hb, he⟩

/-- Lanes that share a word take its value one after another; nothing but their course differs. -/
theorem landLanes_reached (hR : Reached s x.key c) (n reg v : Nat) (wide : Bool) (ls : List Nat) :
    ∃ u, ls.foldl (fun s l => s.landLane x.key n l reg wide v) s = u ∧ u.course? x.key = some (ls.foldl (fun c l => c.arrive l reg wide v) c) ∧
      u.flights = s.flights ∧ u.teams = s.teams ∧ u.mem = s.mem ∧ u.dev = s.dev := by
  induction ls generalizing s c with
  | nil => exact ⟨s, rfl, hR.1, rfl, rfl, rfl, rfl⟩
  | cons l ls ih =>
    rw [List.foldl_cons, List.foldl_cons, landLane_reached hR]
    obtain ⟨u, hu, hc, hflights, hteams, hmem, hdev⟩ := ih (reached_arrive hR l reg wide v)
    exact ⟨u, hu, hc, hflights.trans (setCourse_flights ..), hteams.trans (setCourse_teams ..), hmem.trans (setCourse_mem ..),
      hdev.trans (setCourse_dev ..)⟩

theorem serveBank_load (hR : Reached s x.key c) (ht : s.team? x.target = some t) {reg : Nat} {wide : Bool} {lanes : List Nat}
    (hop : x.op = .load reg wide lanes) (hclean : t.spPoisoned x.offset x.size = false) :
    ∃ u, s.serveBank f x = u ∧ u.course? x.key = some (lanes.foldl (fun c l => c.arrive l reg wide (ofBytes (t.spBytes x.offset x.size))) c) ∧
      u.flights = SMap.del s.flights f ∧ u.teams = s.teams ∧ u.mem = s.mem ∧ u.dev = s.dev := by
  obtain ⟨u, hu, hc, hflights, hframe⟩ := landLanes_reached hR f reg (ofBytes (t.spBytes x.offset x.size)) wide lanes
  refine ⟨u.drop f, ?_, hc, congrArg (SMap.del · f) hflights, hframe⟩
  simp only [State.serveBank, ht, hop, hclean, Bool.false_eq_true, ↓reduceIte, hu]

theorem serveBank_store (ht : s.team? x.target = some t) {bytes : List Byte} (hop : x.op = .store bytes) :
    s.serveBank f x = (s.setTeam x.target (t.spWrite x.offset bytes)).drop f := by
  simp only [State.serveBank, ht, hop]

end

/-- Settles O46. -/
theorem valuesArriveInTheirLanes : Obligations.ValuesArriveInTheirLanes := by
  refine ⟨fun s f x c => exec_laneValueDelivery_value, fun s f x c => loadArrives, loadBytes_byte, fun s f x c t hf hR hbusy ht hopen => ?_,
    fun c l k wide v hl hk => arrive_writes c wide v hl hk⟩
  have hexec := exec_bankEvent hf hbusy hopen
  refine ⟨fun reg wide lanes hop hclean => ?_, fun bytes hop => ?_⟩
  · obtain ⟨u, rfl, hu⟩ := serveBank_load (f := f) hR ht hop hclean
    exact ⟨_, hexec, hu⟩
  · rw [serveBank_store ht hop] at hexec
    exact hexec

end Sys2Proof.Machine

/-! # The scratchpad accesses (R146, R153, R155, R178) -/

namespace Sys2Proof.Machine

open Sys2Proof Sys2Proof.Spec

/-! ## An access whose active lanes are all in the scratchpad -/

/-- The bank a lane's request goes to: the team, the offset in its scratchpad, the member, and whether through a window. -/
abbrev SpPlace : Type := Nat × Nat × Nat × Bool

/-- The active lanes with their banks, in lane order; of lanes in bounds, all of them (R146). -/
def State.spadPlaces (s : State) (k : Nat) (t : Team) (act : Word) (o : Nat → Nat) (size : Nat) : List (Nat × SpPlace) :=
  (lanesOf act).filterMap fun l => match s.spTarget (k / 16) t (o l) size with | .inl p => some (l, p) | .inr _ => none

/-- One bank request, for the lanes that name its word, queued under the first of them (R178). -/
def sendSpad (k : Nat) (str : Bool) (c : Course) (size : Nat) (op : Course → List Nat → SpOp) (u : State) (g : SpPlace × List Nat) : State :=
  u.send (.spad { key := k, str := str, mask := c.slotLanes str, lane := (g.2.head?).getD 0, pc := (c.slot str).pc, target := g.1.1,
                  member := g.1.2.2.1, offset := g.1.2.1, size := size, window := g.1.2.2.2, op := op c g.2 })

/-- The requests of a scratchpad instruction: for every lane, or for every word where lanes share an access (R178). -/
def spadGroups (share : Bool) (places : List (Nat × SpPlace)) : List (SpPlace × List Nat) :=
  if share then groupTargets places else places.map fun r => (r.2, [r.1])

section
variable {s : State} {k : Nat} {str : Bool} {c : Course} {t : Team} {w : Word}

/-- R149, R178: no lane traps, so the destination is emptied and the requests are queued. -/
theorem spadOp_inSpad (hR : Runs s k str c t) {act : Word} {o : Nat → Nat} {size : Nat} (h : InSpad s k t act o size) (share : Bool)
    (dest : Option (Nat × Bool)) (op : Course → List Nat → SpOp) :
    s.spadOp act share o size dest op =
      .done ((spadGroups share (s.spadPlaces k t act o size)).foldl (sendSpad k str c size op) (Machine.emptied s k act dest)) := by
  have haligned {r rs} (e : ((lanesOf act).map fun l => (l, o l, s.spTarget (k / 16) t (o l) size)).filter
      (fun r => decide (r.2.1 % size ≠ 0)) = r :: rs) : False := by
    obtain ⟨hr, hne⟩ := List.mem_filter.1 (e ▸ List.mem_cons_self : r ∈ _)
    obtain ⟨l, hl, rfl⟩ := List.mem_map.1 hr
    exact of_decide_eq_true hne (h l (mem_lanesOf.1 hl).1 (mem_lanesOf.1 hl).2).1
  unfold State.spadOp
  rw [runs_asCourse hR]
  simp only [runs_team hR]
  split
  next e => exact (haligned e).elim
  next e =>
    obtain ⟨hr, hright⟩ := List.mem_filter.1 (e ▸ List.mem_cons_self)
    obtain ⟨l, hl, rfl⟩ := List.mem_map.1 hr
    obtain ⟨p, hp⟩ := Sum.isLeft_iff.1 (h l (mem_lanesOf.1 hl).1 (mem_lanesOf.1 hl).2).2
    simp [hp] at hright
  next =>
    rw [List.filterMap_map]
    cases dest <;> rfl

theorem sendSpads_keeps {γ : Type} (f : State → γ) (h : ∀ u x, f (State.send u x) = f u) (k : Nat) (str : Bool) (c : Course) (size : Nat)
    (op : Course → List Nat → SpOp) (gs : List (SpPlace × List Nat)) (u : State) : f (gs.foldl (sendSpad k str c size op) u) = f u :=
  foldl_keeps _ f (fun _ _ => h ..) gs u

/-- R178: requests of one lane each, in lane order, are the queue of the lanes in bounds. -/
theorem queueSpad_eq (u : State) (act : Word) (o : Nat → Nat) (size : Nat) (op : Course → List Nat → SpOp) :
    (spadGroups false (s.spadPlaces k t act o size)).foldl (sendSpad k str c size op) u = queueSpad u s k str c t act o size fun l => op c [l] := by
  simp only [spadGroups, State.spadPlaces, queueSpad, Bool.false_eq_true, ↓reduceIte, List.foldl_map]
  generalize lanesOf act = ls
  induction ls generalizing u with
  | nil => rfl
  | cons l ls ih =>
    rw [List.foldl_cons]
    cases hp : s.spTarget (k / 16) t (o l) size with
    | inl p => rw [List.filterMap_cons_some (by rw [hp]), List.foldl_cons, ih]; rfl
    | inr n => rw [List.filterMap_cons_none (by rw [hp]), ih]

/-! ## STS and LDS (R153) -/

theorem memVec_ready_sources (hR : Runs s k str c t) {op : Nat} {uses : List Use} {ds : List (Nat × Bool)} {body : Nat → Bool → Course → Word → Res}
    (hr : Ready c (c.active str) uses ds) : s.memVec op true uses none body = body k str c (c.active str) :=
  memVec_ready hR ((congrArg (fun x => x.checks (c.active str) uses none) (ownBits_none c str (c.active str))).trans (ready_checks_sources hr))

/-- The half of O31 about STS. -/
theorem exec_sts_inSpad (hR : Runs s k str c t) (d a : BitVec 6) (v : BitVec 12) (hw : Passes s (.sts d a v) w)
    (hr : Ready c (c.active str) [⟨a.toNat, .n32, 13⟩, ⟨d.toNat, c.et, 15⟩] [])
    (h : InSpad s k t (c.active str) (fun l => spAddr (c.src .n32 a.toNat l) v) c.et.bytes) :
    exec (.sts d a v) s = .next (finished s (queueSpad s s k str c t (c.active str) (fun l => spAddr (c.src .n32 a.toNat l) v) c.et.bytes fun l =>
      .store (bytesOf c.et.bytes (c.src c.et d.toNat l))) w) := by
  change execSts d a v s = _
  unfold execSts
  rw [runs_et hR, memVec_ready_sources hR hr, spadOp_inSpad hR h, queueSpad_eq, runWord_done (runs_curRuns hR) hw.1 hw.2]
  rfl

/-- R153, R178: LDS empties its destination in its active lanes, queues one access for each word, and completes. -/
theorem exec_lds_inSpad (hR : Runs s k str c t) (d a : BitVec 6) (v : BitVec 12) (hw : Passes s (.lds d a v) w)
    (hr : Ready c (c.active str) [⟨a.toNat, .n32, 13⟩] [(d.toNat, c.et.wide)])
    (h : InSpad s k t (c.active str) (fun l => spAddr (c.src .n32 a.toNat l) v) c.et.bytes) :
    exec (.lds d a v) s = .next (finished s ((spadGroups true (s.spadPlaces k t (c.active str) (fun l => spAddr (c.src .n32 a.toNat l) v) c.et.bytes)).foldl
      (sendSpad k str c c.et.bytes fun c ls => .load (d.toNat - 16) c.et.wide ls) (s.modCourse k fun x => x.emptyDest (c.active str) d.toNat c.et.wide)) w) := by
  change execLds d a v s = _
  unfold execLds
  rw [runs_et hR, memVec_ready hR (ready_checks ((fillsOnly_ownBits c str (c.active str) _).ready hr)), spadOp_inSpad hR h,
    runWord_done (runs_curRuns hR) hw.1 hw.2]
  rfl

end

/-! ## A scratchpad load of a course listed twice -/

/-- LDS to n1, at offset 0 of a scratchpad of eight granules, in the state in which course 0 is listed twice. -/
abbrev ldsInstr : Instr := .lds 17#6 1#6 0#12
abbrev ldsWord : Word := (encode ldsInstr).getD 0#32
abbrev spadTeam : Team := { placedTeam (opOf atomWord) with sp := 8 }
def spadTwice : State := listedTwice.setTeam 0 spadTeam

theorem runs_spadTwice : Runs spadTwice 0 false laneCourse spadTeam := ⟨rfl, rfl, rfl, rfl, by decide⟩

theorem passes_spadTwice : Passes spadTwice ldsInstr ldsWord := ⟨rfl, rfl⟩

theorem inSpad_spadTwice : InSpad spadTwice 0 spadTeam (laneCourse.active false) (fun l => spAddr (laneCourse.src .n32 1 l) 0#12) laneCourse.et.bytes := by
  unfold InSpad; decide

/-- A queue of bank requests and the completion leave the full bits as the emptying of the destination leaves them. -/
theorem laneZeroFull_spad {s u v : State} {k : Nat} {str : Bool} {t : Team} (hcur : v.cur = .course k str) (hteam : v.team? (k / 16) = some t)
    (hcourses : v.courses = u.courses) (w : Word) : laneZeroFull (finished s v w) = laneZeroFull u := by
  obtain ⟨q, m, y, h⟩ := finished_of_course (s := s) hcur hteam w
  have hadd : laneZeroFull ((v.addCharge q m).modTeam (k / 16) Team.oneMore) = laneZeroFull v := rfl
  rw [h, laneZeroFull_modCourse _ _ fun _ => lane_onNext .., laneZeroFull_modCourse _ _ fun _ => lane_charged .., hadd,
    laneZeroFull_of_courses hcourses]

theorem queueSpad_keeps {γ : Type} (f : State → γ) (h : ∀ u x, f (State.send u x) = f u) (u s : State) (k : Nat) (str : Bool) (c : Course) (t : Team)
    (lanes : Word) (o : Nat → Nat) (size : Nat) (op : Nat → SpOp) : f (queueSpad u s k str c t lanes o size op) = f u := by
  refine foldl_keeps _ f (fun u l => ?_) _ u
  cases s.spTarget (k / 16) t (o l) size with
  | inl p => exact h ..
  | inr n => rfl

/-- Refutes O31: of a course listed twice under one number the statement empties the destination, in the second entry, in the lanes active
there, as its `c` is the entry's course; the model empties it in the active lanes of the course that executes (`exec_lds_inSpad`). The part
about STS holds (`exec_sts_inSpad`). -/
theorem not_scratchpadAccessesComplete : ¬ Obligations.ScratchpadAccessesComplete := by
  intro h
  obtain ⟨hlds, -⟩ := h spadTwice 0 false laneCourse spadTeam ldsWord runs_spadTwice
  have hstated := hlds 17#6 1#6 0#12 passes_spadTwice (by decide) inSpad_spadTwice
  rw [exec_lds_inSpad runs_spadTwice 17#6 1#6 0#12 passes_spadTwice (by decide) inSpad_spadTwice] at hstated
  have hfull := congrArg laneZeroFull (Host.Outcome.next.inj hstated)
  rw [laneZeroFull_spad (k := 0) (str := false) (t := spadTeam) (sendSpads_keeps State.cur (fun _ _ => rfl) ..)
      (sendSpads_keeps (fun u => u.team? 0) (fun _ _ => rfl) ..) (sendSpads_keeps State.courses (fun _ _ => rfl) ..),
    laneZeroFull_spad (k := 0) (str := false) (t := spadTeam) (queueSpad_keeps State.cur (fun _ _ => rfl) ..)
      (queueSpad_keeps (fun u => u.team? 0) (fun _ _ => rfl) ..) (queueSpad_keeps State.courses (fun _ _ => rfl) ..)] at hfull
  exact emptied_listedTwice hfull

end Sys2Proof.Machine

/-! # WAITA and WAITC (R163-R165) -/

namespace Sys2Proof.Machine

open Sys2Proof Sys2Proof.Spec

section
variable {s : State} {k : Nat} {str : Bool} {c : Course} {t : Team} {w : Word} {va pa leaf size scope : Nat}

/-! ## The awaited word of memory -/

/-- No then-fence runs over a value that has satisfied the wait. -/
theorem metValue_notBegun (hR : Runs s k str c t) (hn : NotBegun c str) : s.metValue = none := by
  simp only [State.metValue, runs_self hR]
  split
  next n v hm => exact absurd hm ((hn n).2 v)
  next => rfl

/-- R149: an aligned load of a group whose translation is at hand. -/
theorem oneAccess_ok (hR : Runs s k str c t) (hal : va % size = 0) (ht : s.translate t.xlat va .load true = .ok pa leaf) (op : Nat) :
    s.oneAccess va size .load (fun _ => false) op = .ok (s.noteTlb t.xlat va) pa leaf := by
  have hx : s.xlatOf (.course k str) = some t.xlat := congrArg (Option.map Team.xlat) (runs_team hR)
  simp [State.oneAccess, runs_cur hR, hx, hal, ht]

theorem pathOf_running (hR : Runs s k str c t) : s.pathOf s.cur = t.core := by
  simp only [State.pathOf, runs_cur hR, runs_team hR]

theorem promotionClear_awaits (hR : Runs s k str c t) (h : Awaits s k str c t va pa size scope) : s.promotionClear s.myPath pa scope = true := by
  rw [State.myPath, pathOf_running hR]
  exact h.2.2.2.2.2.2

/-- A team without a version reads what memory holds at the word's home (R163, R164). -/
theorem waitLook_awaits (hR : Runs s k str c t) (h : Awaits s k str c t va pa size scope) (key : Nat) :
    s.waitLook va pa size key = some (s.natUnder pa size key) := by
  obtain ⟨hroute, hplain, hversion, holder, hclear, -, -⟩ := h
  have hpkg : s.pkgOf s.cur = pkgOfCore t.core := by rw [← pathOf_running hR, runs_cur hR]; rfl
  simp only [State.waitLook, hpkg, hroute, State.waitRead, runs_self hR, runs_team hR, hplain, Team.versionOf, hversion, holder, hclear,
    Option.isSome_none, Bool.not_true, Bool.or_self, Bool.false_eq_true, ↓reduceIte]
  rfl

theorem waitPoisoned_awaits (hR : Runs s k str c t) (h : Awaits s k str c t va pa size scope) : s.waitPoisoned pa = false := by
  obtain ⟨-, -, hversion, -, -, hclean, -⟩ := h
  simp [State.waitPoisoned, runs_self hR, runs_team hR, Team.versionOf, hversion, State.poisonedIn, hclean]

/-- The acquire of a course's wait drops its core's L1 (R163, R164). -/
theorem acquireDrop_noteTlb (hR : Runs s k str c t) (x : Xlat) (hs : scope ≠ 0) :
    (s.noteTlb x va).acquireDrop scope = (s.noteTlb x va).dropL1 t.core := by
  have hcur : (s.noteTlb x va).cur = .course k str := (noteTlb_keeps State.cur (fun _ p _ => by cases p <;> rfl) ..).trans (runs_cur hR)
  have hteam : (s.noteTlb x va).team? (k / 16) = some t :=
    (noteTlb_keeps (fun u => u.team? (k / 16)) (fun _ p _ => by cases p <;> rfl) ..).trans (runs_team hR)
  simp only [State.acquireDrop, hcur, hteam, if_neg hs]

theorem gwide_dropL1_noteTlb (s : State) (x : Xlat) (va core : Nat) : ((s.noteTlb x va).dropL1 core).gwide = s.gwide :=
  noteTlb_keeps State.gwide (fun _ p _ => by cases p <;> rfl) s x va

theorem waitCond_iff {cond : BitVec 2} (h : cond ≠ 3#2) (v x : Nat) : waitCond cond.toNat v x = true ↔ waits cond.toNat v x := by
  obtain rfl | rfl | rfl : cond = 0#2 ∨ cond = 1#2 ∨ cond = 2#2 := by revert h cond; decide
  all_goals simp [waitCond, waits]

/-- R165: without a then-fence the wait ends at once. -/
theorem thenFence_none (s : State) (v : Nat) (go : State → Res) : s.thenFence 0 v go = go s := rfl

/-! ## WAITA (R163) -/

/-- WAITA of a global word that is at hand: it answers the word, its core's L1 dropped, or goes on waiting. -/
theorem exec_waita_global (hR : Runs s k str c t) (hn : NotBegun c str) {d a b : BitVec 6} {cond : BitVec 2}
    (hclean : Clean s [(a.toNat, true), (b.toNat, s.gwide)]) (hva : s.gsrc true a.toNat = va) (hsize : (if s.gwide then 8 else 4) = size)
    (hal : va % size = 0) (ht : s.translate t.xlat va .load true = .ok pa leaf) (ha : Awaits s k str c t va pa size 4) :
    exec (.waita d a b 0#3 0#1 cond) s = s.runWord (.waita d a b 0#3 0#1 cond)
      (if waitCond cond.toNat (s.natUnder pa size (leafKey leaf)) (s.gsrc s.gwide b.toNat) then
        .done (((s.noteTlb t.xlat va).dropL1 t.core).gdst s.gwide d.toNat (s.natUnder pa size (leafKey leaf))) else .wait) := by
  have huses : Clean s [(a.toNat, (0#1 : BitVec 1) == 0#1), (b.toNat, s.gwide)] := hclean
  subst hsize
  have hva' : s.sc.src true a.toNat = va := hva
  change execWaita d a b 0#3 0#1 cond s = _
  unfold execWaita
  rw [groupOp_unpoisoned huses]
  simp only [metValue_notBegun hR hn, hva', oneAccess_ok hR hal ht, waitLook_awaits hR ha, waitPoisoned_awaits hR ha, promotionClear_awaits hR ha,
    acquireDrop_noteTlb hR t.xlat (by decide : (4 : Nat) ≠ 0), BitVec.toNat_ofNat, Nat.zero_mod, thenFence_none, gwide_dropL1_noteTlb,
    (by decide : ¬ (0#1 : BitVec 1) = 1#1), Bool.not_true, Bool.false_eq_true, ↓reduceIte]
  rfl

/-- WAITA of the slot's own scratchpad: it answers the word, or goes on waiting. -/
theorem exec_waita_scratchpad (hR : Runs s k str c t) (hn : NotBegun c str) {d a b : BitVec 6} {cond : BitVec 2} {o : Nat}
    (hclean : Clean s [(a.toNat, false), (b.toNat, s.gwide)]) (ho : s.gsrc false a.toNat = o) (hsize : (if s.gwide then 8 else 4) = size)
    (hal : o % size = 0) (hown : o < 2 ^ 31) (hin : o + size ≤ t.spSize) (holder : s.spadOlder k str (k / 16) o size = false)
    (hpoison : t.spPoisoned o size = false) :
    exec (.waita d a b 0#3 1#1 cond) s = s.runWord (.waita d a b 0#3 1#1 cond)
      (if waitCond cond.toNat (ofBytes (t.spBytes o size)) (s.gsrc s.gwide b.toNat) then
        .done (s.gdst s.gwide d.toNat (ofBytes (t.spBytes o size))) else .wait) := by
  have huses : Clean s [(a.toNat, (1#1 : BitVec 1) == 0#1), (b.toNat, s.gwide)] := hclean
  subst hsize
  have ho' : s.sc.src false a.toNat = o := ho
  have htarget : s.spTarget (k / 16) t o (if s.gwide then 8 else 4) = .inl (k / 16, o, t.core % 4, false) := by
    rw [State.spTarget, if_pos hown, if_pos hin]
  change execWaita d a b 0#3 1#1 cond s = _
  unfold execWaita
  rw [groupOp_unpoisoned huses]
  simp only [metValue_notBegun hR hn, ho', runs_self hR, runs_team hR, hal, htarget, holder, hpoison, BitVec.toNat_ofNat, Nat.zero_mod, thenFence_none,
    ne_eq, not_true_eq_false, Bool.false_eq_true, ↓reduceIte]
  rfl

/-- A wait's word completes or stays, as its condition says. -/
theorem runWord_waitCond (hR : Runs s k str c t) {i : Instr} (hw : Passes s i w) {cond : BitVec 2} (hc : cond ≠ 3#2) (v x : Nat) (u : State) :
    (waits cond.toNat v x → s.runWord i (if waitCond cond.toNat v x then .done u else .wait) = .next (finished s u w)) ∧
    (¬ waits cond.toNat v x → s.runWord i (if waitCond cond.toNat v x then .done u else .wait) = .next s) :=
  ⟨fun h => runWord_finished (runs_curRuns hR) hw (if_pos ((waitCond_iff hc v x).2 h)),
   fun h => runWord_waits (runs_curRuns hR) hw (if_neg fun e => h ((waitCond_iff hc v x).1 e))⟩

/-- The half of O33 about WAITA. -/
theorem waitaCompletesWhenItsConditionHolds : WaitaCompletesWhenItsConditionHolds := by
  intro s k str c t w d a b x cond pa leaf hR hw hn hclean hcond
  refine ⟨fun hx => ?_, fun hx => ?_⟩
  · subst hx
    intro va hal ht ha
    have hexec := exec_waita_global (d := d) (cond := cond) hR hn hclean rfl rfl hal ht ha
    simp only [hexec]
    exact runWord_waitCond hR hw hcond ..
  · subst hx
    intro o hal hown hin holder hpoison
    have hexec := exec_waita_scratchpad (d := d) (cond := cond) hR hn hclean rfl rfl hal hown hin holder hpoison
    simp only [hexec]
    exact runWord_waitCond hR hw hcond ..

/-! ## WAITC (R164) -/

/-- What WAITC does of a counter that is at hand. -/
def waitcRule (s : State) (k : Nat) (t : Team) (va slot v target d : Nat) : Res :=
  if v < target then .wait
  else if t.failedSlots.contains slot then
    .stay (((s.noteTlb t.xlat va).modTeam (k / 16) fun t => { t with failedSlots := t.failedSlots.filter fun x => decide (x ≠ slot) }).takeTrap .copyErr 0 0 slot)
  else .done (((s.noteTlb t.xlat va).dropL1 t.core).gdst true d v)

theorem exec_waitc (hR : Runs s k str c t) (hn : NotBegun c str) {d a b : BitVec 6} (hclean : Clean s [(a.toNat, false), (b.toNat, true)])
    {slot : Nat} (hslot : s.gsrc false a.toNat % 4096 = slot) (hva : t.launch.cntBase.toNat + 8 * slot = va)
    (hal : va % 8 = 0) (ht : s.translate t.xlat va .load true = .ok pa leaf) (ha : Awaits s k str c t va pa 8 3) :
    exec (.waitc d a b 0#3) s = s.runWord (.waitc d a b 0#3)
      (waitcRule s k t va slot (s.natUnder pa 8 (leafKey leaf)) (s.gsrc true b.toNat) d.toNat) := by
  have hslot' : bitsOf (s.sc.src false a.toNat) 11 0 = slot := hslot
  have hbase : s.cntBase = t.launch.cntBase.toNat := by simp only [State.cntBase, runs_cur hR, runs_team hR]
  have hcur : (s.noteTlb t.xlat va).cur = .course k str := (noteTlb_keeps State.cur (fun _ p _ => by cases p <;> rfl) ..).trans (runs_cur hR)
  change execWaitc d a b 0#3 s = _
  unfold execWaitc
  rw [groupOp_unpoisoned hclean]
  simp only [metValue_notBegun hR hn, hslot', hbase, hva, oneAccess_ok hR hal ht, waitLook_awaits hR ha, waitPoisoned_awaits hR ha,
    promotionClear_awaits hR ha, acquireDrop_noteTlb hR t.xlat (by decide : (3 : Nat) ≠ 0), hcur, runs_self hR, runs_team hR, BitVec.toNat_ofNat,
    Nat.zero_mod, thenFence_none, Bool.not_true, Bool.false_eq_true, ↓reduceIte]
  rfl

/-- The half of O33 about WAITC. -/
theorem waitcCompletesAtItsCount : WaitcCompletesAtItsCount := by
  intro s k str c t w d a b pa leaf hR hw hn hclean slot va hal ht ha v s'
  have hP := runs_curRuns hR
  rw [exec_waitc hR hn hclean rfl rfl hal ht ha]
  refine ⟨fun hv hok => runWord_finished hP hw ?_, fun hv hfailed => runWord_stays hP hw ?_, fun hv => runWord_waits hP hw (if_pos hv)⟩
  · exact (if_neg (Nat.not_lt.2 hv)).trans (if_neg (Bool.eq_false_iff.1 hok))
  · exact (if_neg (Nat.not_lt.2 hv)).trans (if_pos hfailed)

end

/-- Settles O33. -/
theorem waitsComplete : Obligations.WaitsComplete := ⟨waitaCompletesWhenItsConditionHolds, waitcCompletesAtItsCount⟩

end Sys2Proof.Machine

/-! # Evicting a line whose die is listed out of order (R160, R325, R337) -/

namespace Sys2Proof.Machine

open Sys2Proof Sys2Proof.Spec

/-! ## The PC of a word that completes -/

section
variable {s u : State} {k : Nat} {str : Bool} {c : Course} {w : Word}

theorem counted_cur (s u : State) (w : Word) : (counted s u w).cur = u.cur := by
  unfold counted State.countIssue
  split
  · unfold State.issued
    split <;> rfl
  · split
    · simp only
      split <;> rfl
    · rfl
  all_goals rfl

theorem finished_cur (s u : State) (w : Word) : (finished s u w).cur = u.cur := (advance_cur _).trans (counted_cur s u w)

/-- A completion counts its issue and moves the slot's PC on by 4 (R10), whether or not its team is there. -/
theorem finished_pc (hcur : u.cur = .course k str) (hk : u.course? k = some c) :
    ((finished s u w).course? k).map (fun x => (x.slot str).pc) = some ((c.slot str).pc + 4#32) := by
  cases ht : u.team? (k / 16) with
  | some t =>
    obtain ⟨n, y, h⟩ := finished_course (s := s) hcur ht hk w
    simp [h, Course.onNext, Course.charged]
  | none =>
    have hcounted : counted s u w = u := by simp only [counted, State.countIssue, hcur, State.issued, ht]
    simp [finished, hcounted, State.advance, hcur, course_modCourse_same, hk]

end

/-! ## A copy that another package holds -/

/-- CCTL.EVICT of address 0. -/
abbrev evictInstr : Instr := .cctl 2#2 1#6 0#12
abbrev evictWord : Word := (encode evictInstr).getD 0#32
abbrev evictCourse : Course := placedCourse (opOf evictWord)
abbrev evictTeam : Team := placedTeam (opOf evictWord)

/-- Die 5 listed before die 0, whose core executes, and the line at 0x40000 with a copy in package 1. -/
def evicting : State :=
  { State.reset.place evictWord with
    agenda := [], cur := .course 0 false,
    dies := [(5, { Die.init with migrations := [lineMoved 0 0x30000] }),
      (0, { Die.init with tlb := [], migrations := [lineMoved 0 0x40000, lineMoved 0x30000 0] })],
    dir := [(lineOf 0x40000, { DirLine.init with psh := 2#16 })] }

theorem runs_evicting : Runs evicting 0 false evictCourse evictTeam := ⟨rfl, rfl, rfl, rfl, by decide⟩

theorem passes_evicting : Passes evicting evictInstr evictWord := ⟨rfl, rfl⟩

theorem allHit_evicting : AllHit evicting evictTeam (evictCourse.active false) (fun l => addImm (evictCourse.src .n64 1 l) 0#12) 1 1 .load
    (fun _ => false) 0x93 fun _ => (0, 0x1F) := by
  unfold AllHit; decide

/-- As the statement takes it, the line of address 0 has moved away and back, and no package holds a copy. -/
theorem unshared_evicting : evicting.forward 0 = 0 ∧ evicting.unshared 0 = true := by decide

/-- After an outcome: the agent and the PC of course 0's header slot. -/
def headerAfter : Out → Option (Agent × Option Word)
  | .next u => some (u.cur, (u.course? 0).map fun (x : Course) => (x.slot false).pc)
  | _ => none

/-- Keeping the translations lists die 0 a second time, before die 5: the line now leads to 0x40000, and EVICT waits for its copy. -/
theorem exec_evicting : headerAfter (exec evictInstr evicting) = some (.course 0 false, some (evictCourse.slot false).pc) := by decide +kernel

/-- Refutes O32: with the dies not in key order, the translation that CCTL.EVICT keeps is put in an entry of its die before the die's own, so the
die's migrations apply in another order and the line it would drop is another than the statement asks to be unshared: the instruction waits. The
statement asks no order of `dies`. -/
theorem not_cacheControlAndFencesComplete : ¬ Obligations.CacheControlAndFencesComplete := by
  rintro ⟨h, -⟩
  obtain ⟨-, hcctl⟩ := h evicting 0 false evictCourse evictTeam evictWord 1#6 0#12 runs_evicting (by decide)
  obtain ⟨-, hdrop, -⟩ := hcctl rfl
  obtain ⟨u, hx, -, hcourses, -⟩ := hdrop 2#2 (fun _ => (0, 0x1F)) (.inr rfl) passes_evicting rfl allHit_evicting
    fun _ _ _ _ _ => unshared_evicting.2
  have hheld := exec_evicting
  rw [hx] at hheld
  obtain ⟨hcur, hpc⟩ := Prod.mk.inj (Option.some.inj hheld)
  have hk : u.course? 0 = some evictCourse := congrArg (fun m => SMap.find? m 0) hcourses
  have hmoved := finished_pc (s := evicting) (w := evictWord) ((finished_cur ..).symm.trans hcur) hk
  exact absurd (hpc.symm.trans hmoved) (by decide)

end Sys2Proof.Machine

/-! # Events and cycles (R183-R186, R436) -/

namespace Sys2Proof.Machine

open Sys2Proof Sys2Proof.Spec

/-! ## The turn after the agenda (log 1) -/

theorem isEvent_of_no_word {i : Instr} (he : encode i = none) (hw : ∀ w, i ≠ .illegalInstructionWord w) : isEvent i = true := by
  unfold isEvent
  split
  next w => exact absurd rfl (hw w)
  next => rw [he]; rfl

theorem step_event {s : State} {i : Instr} (ha : s.agenda = []) (hn : Config.nextEvent s.fresh = some i) (hi : isEvent i = true) : step s = exec i s.tick := by
  simp only [step, State.nextTurn, ha, hn, State.turn, hi, ↓reduceIte]

theorem step_cycle {s : State} (ha : s.agenda = []) (hn : Config.nextEvent s.fresh = none) : step s = .next s.tick.cycle := by
  simp only [step, State.nextTurn, ha, hn, State.turn]

/-! ## The parts of a cycle -/

/-- A core's selections added to those of the cores before it. -/
def coreTurn (r : State × List Agent) (core : Nat) : State × List Agent := ((r.1.coreCycle core).1, r.2 ++ (r.1.coreCycle core).2)

/-- Every core's selections of a cycle made, and who issues (R186). -/
def State.coresCycled (s : State) : State × List Agent := s.busyCores.foldl coreTurn (s, [])

/-- The quads that a cycle charges (R302). -/
def State.cycledQuads (s : State) : List Nat :=
  List.foldl (fun (a : List Nat) (kq : Nat × Quad) => if a.contains kq.1 then a else a ++ [kq.1]) (s.busyCores.map quadOfCore).eraseDups s.quads

/-- The cores and quads of a cycle done. -/
def State.unitsCycled (s : State) : State := s.coresCycled.1.cycledQuads.foldl State.quadCycle s.coresCycled.1

/-- Package time moved on in the first n packages (R436). -/
def State.timeMoved (s : State) (n : Nat) : State := (List.range n).foldl (fun s p => s.modPkg p Pkg.tickTime) s

/-- The reference clock, and the turns of a cycle's agents. -/
def State.atClock (s : State) (n : Nat) (as : List Turn) : State := { s with refTime := n, agenda := as }

theorem cycle_eq (s : State) : ∃ n as, s.cycle = (s.unitsCycled.timeMoved 16).atClock n as := ⟨_, _, rfl⟩

section
variable {γ : Type} {h : State → γ}

theorem quadCycle_keeps (hquad : ∀ u n x, h (State.setQuad u n x) = h u) (s : State) (q : Nat) : h (s.quadCycle q) = h s := by
  unfold State.quadCycle
  dsimp only
  split
  · rfl
  · exact hquad ..

variable (hcore : ∀ u n x, h (State.setCore u n x) = h u) (hquad : ∀ u n x, h (State.setQuad u n x) = h u)
  (hyield : ∀ u n, h (State.endYields u n) = h u)
include hcore hquad hyield

/-- A cycle's issues change pointers, charges and yields alone. -/
theorem coreCycle_keeps (s : State) (core : Nat) : h (s.coreCycle core).1 = h s := by
  simp only [State.coreCycle]
  rw [hyield, State.modQuad, hquad, State.modCore, hcore]

theorem unitsCycled_keeps (s : State) : h s.unitsCycled = h s := by
  have hcores : h s.coresCycled.1 = h s := foldl_keeps coreTurn (fun r => h r.1) (fun r n => coreCycle_keeps hcore hquad hyield r.1 n) _ _
  exact (foldl_keeps _ h (quadCycle_keeps hquad) _ _).trans hcores

/-- What neither an issue nor the clocks change, a cycle keeps. -/
theorem cycle_keeps (hpkg : ∀ u n x, h (State.setPkg u n x) = h u) (hclock : ∀ u n as, h (State.atClock u n as) = h u)
    (s : State) : h s.cycle = h s := by
  obtain ⟨n, as, e⟩ := cycle_eq s
  rw [e, hclock]
  exact (foldl_keeps _ h (fun _ _ => hpkg ..) _ _).trans (unitsCycled_keeps hcore hquad hyield s)
end

/-! ## The courses and the clocks of a cycle -/

/-- A course but for whether its slots have yielded. -/
def unyielded (kc : Nat × Course) : Nat × Course :=
  (kc.1, { kc.2 with header := { kc.2.header with yielded := false }, stretcher := { kc.2.stretcher with yielded := false } })

theorem unyielded_endYields (s : State) (core : Nat) : (s.endYields core).courses.map unyielded = s.courses.map unyielded := by
  simp only [State.endYields, List.map_map]
  refine List.map_congr_left fun kc _ => ?_
  dsimp only [Function.comp]
  split <;> rfl

/-- R436: one nanosecond, corrected by one at most. -/
theorem tickTime_bounds (x : Pkg) : x.time ≤ x.tickTime.time ∧ x.tickTime.time ≤ x.time + 2 := by
  unfold Pkg.tickTime
  split
  · split
    · exact ⟨Nat.le_add_right .., le_refl _⟩
    · exact ⟨le_refl _, Nat.le_add_right ..⟩
  · exact ⟨Nat.le_add_right .., Nat.le_succ _⟩

theorem pkg_timeMoved (s : State) (n p : Nat) : (s.timeMoved n).pkg p = if p < n then (s.pkg p).tickTime else s.pkg p := by
  induction n with
  | zero => rfl
  | succ n ih =>
    have hn : s.timeMoved (n + 1) = (s.timeMoved n).modPkg n Pkg.tickTime := by rw [State.timeMoved, List.range_succ, List.foldl_append]; rfl
    rw [hn, State.modPkg]
    by_cases hp : p = n
    · subst hp
      rw [pkg_setPkg_same, ih, if_neg (lt_irrefl p), if_pos (Nat.lt_succ_self p)]
    · have hlt : p < n ↔ p < n + 1 := by omega
      simp only [pkg_setPkg_other _ _ hp, ih, hlt]

theorem pkg_cycle (s : State) {p : Nat} (hp : p < 16) : s.cycle.pkg p = (s.pkg p).tickTime := by
  have hpkgs : s.unitsCycled.pkgs = s.pkgs := unitsCycled_keeps (fun _ _ _ => rfl) (fun _ _ _ => rfl) (fun _ _ => rfl) s
  have hunits : s.unitsCycled.pkg p = s.pkg p := congrArg (fun m => SMap.getD m Pkg.init p) hpkgs
  obtain ⟨n, as, e⟩ := cycle_eq s
  have hclock (u : State) : (u.atClock n as).pkg p = u.pkg p := rfl
  rw [e, hclock, pkg_timeMoved, if_pos hp, hunits]

/-- Settles O6. -/
theorem stepTakesEventsAndCycles : Obligations.StepTakesEventsAndCycles := by
  refine ⟨fun s i ha hn he hw => step_event ha hn (isEvent_of_no_word he hw), fun s => step_cycle, fun s => ?_⟩
  have hsame := cycle_keeps (h := fun u => (u.mem, u.flights, u.packets, u.copies, u.teams)) (fun _ _ _ => rfl) (fun _ _ _ => rfl) (fun _ _ => rfl)
    (fun _ _ _ => rfl) (fun _ _ _ => rfl) s
  have hcourses := cycle_keeps (h := fun u => u.courses.map unyielded) (fun _ _ _ => rfl) (fun _ _ _ => rfl) unyielded_endYields (fun _ _ _ => rfl)
    (fun _ _ _ => rfl) s
  simp only [Prod.mk.injEq] at hsame
  obtain ⟨hmem, hflights, hpackets, hcopies, hteams⟩ := hsame
  refine ⟨hmem, hflights, hpackets, hcopies, hcourses, hteams, fun p hp => ?_⟩
  rw [pkg_cycle s hp]
  exact (tickTime_bounds _).symm

end Sys2Proof.Machine

/-! # Mailboxes (R191-R193) -/

namespace Sys2Proof.Machine

open Sys2Proof Sys2Proof.Spec

/-! ## What acts as a release or an acquire (R161, R179) -/

section
variable {s : State} {k : Nat} {str : Bool} {c : Course} {t : Team}

@[simp] theorem fresh_thawed (s : State) (k : Nat) (c : Course) : (thawed s k c).fresh = s.fresh := by unfold thawed; split <;> rfl
@[simp] theorem cur_thawed (s : State) (k : Nat) (c : Course) : (thawed s k c).cur = s.cur := by unfold thawed; split <;> rfl
@[simp] theorem team?_thawed (s : State) (k : Nat) (c : Course) (h : Nat) : (thawed s k c).team? h = s.team? h := by unfold thawed; split <;> rfl

/-- What acts as FENCE.REL goes on at once when its slot has nothing left to wait for: thawed, and with the mark of its scope. -/
theorem afterRelease_released (hR : Runs s k str c t) (hn : NotBegun c str) {scope : Nat} {more : Nat → Bool}
    (hrel : (thawed s k c).released k str s.fresh scope = true) (hmore : more s.fresh = true) (go : State → Res) :
    s.afterRelease scope more go = go (marked (thawed s k c) k scope) := by
  have hboth : ((thawed s k c).released k str (thawed s k c).fresh scope && more (thawed s k c).fresh) = true := by
    rw [fresh_thawed, hrel, hmore]; rfl
  simp only [State.afterRelease, runs_self hR]
  split
  next n hhold => exact absurd hhold (hn n).1
  next n v hhold => exact absurd hhold ((hn n).2 v)
  next => exact if_pos hboth

/-- The same of what acts as FENCE.REL.core, which also waits for the slot's scratchpad accesses and leaves no mark. -/
theorem afterRelease_core (hR : Runs s k str c t) (hrel : CoreReleased s k str c) (go : State → Res) :
    s.afterRelease 0 (fun _ => !s.spOutstanding k str) go = go (thawed s k c) := by
  obtain ⟨hn, hreleased, hsp⟩ := hrel
  exact afterRelease_released hR hn hreleased (by rw [hsp]; rfl) go

theorem selfAcquired_course (hR : Runs s k str c t) (scope : Nat) : s.selfAcquired scope = s.acquired k str scope := by
  simp only [State.selfAcquired, runs_self hR]

end

/-! ## The executing stream (R223) -/

section
variable {s : State} {h : Nat} {x : Team}

theorem streams_present (hS : Streams s h x) : Present s := by
  obtain ⟨hcur, hteam, hrun, -⟩ := hS
  simp only [Present, State.curRuns, hcur, hteam, hrun, decide_true]

theorem streams_asStream (hS : Streams s h x) (f : Nat → Team → Res) : s.asStream f = f h x := by
  obtain ⟨hcur, hteam, -, hpending⟩ := hS
  simp only [State.asStream, hcur, hteam, hpending, Option.isSome_none, Bool.false_eq_true, ↓reduceIte]

theorem streams_self (hS : Streams s h x) : s.self = none := by
  obtain ⟨hcur, -⟩ := hS
  simp only [State.self, hcur]

/-- A stream's acquire has nothing to wait for. -/
theorem selfAcquired_stream (hS : Streams s h x) (scope : Nat) : s.selfAcquired scope = true := by
  obtain ⟨hcur, -⟩ := id hS
  simp only [State.selfAcquired, streams_self hS, State.procSeenClear, State.proc?, hcur]

end

/-! ## A mailbox written and read -/

/-- A team with a word in mailbox m, and one that has lost it. -/
abbrev Team.boxFilled (t : Team) (m v : Nat) : Team := t.setBox m { full := true, value := BitVec.ofNat 32 v }
abbrev Team.boxEmptied (t : Team) (m : Nat) : Team := t.setBox m { full := false, value := (t.box m).value }

/-- The state once MBR has read mailbox m, peeking or not (R193). -/
def State.boxRead (s : State) (h : Nat) (t : Team) (m : Nat) (p : BitVec 1) : State := if p = 1#1 then s else s.setTeam h (t.boxEmptied m)

theorem team_boxRead {s : State} {h : Nat} {t : Team} (ht : s.team? h = some t) (m : Nat) (p : BitVec 1) :
    (s.boxRead h t m p).team? h = some (if p = 1#1 then t else t.boxEmptied m) := by
  unfold State.boxRead
  split
  · exact ht
  · exact team_setTeam_same ..

section
variable {s : State} {h : Nat} {t : Team} {m : Nat}

theorem mbw_empty (ht : s.team? h = some t) (he : (t.box m).full = false) (v : Nat) : s.mbw h m v = .done (s.setTeam h (t.boxFilled m v)) := by
  simp only [State.mbw, ht, he, Bool.false_eq_true, ↓reduceIte]

theorem mbr_full (ht : s.team? h = some t) (hf : (t.box m).full = true) (hacq : s.selfAcquired 0 = true) (p : BitVec 1) (go : State → Word → Res) :
    s.mbr h m (p == 1#1) go = go (s.boxRead h t m p) (t.box m).value := by
  simp only [State.mbr, ht, hf, hacq, Bool.not_true, Bool.or_self, Bool.false_eq_true, ↓reduceIte, beq_iff_eq]
  rfl

theorem mbr_empty (ht : s.team? h = some t) (he : (t.box m).full = false) (peek : Bool) (go : State → Word → Res) : s.mbr h m peek go = .wait := by
  simp only [State.mbr, ht, he, Bool.not_false, Bool.true_or, ↓reduceIte]

end

section
variable {s : State} {k : Nat} {str : Bool} {c : Course} {t : Team} {w : Word} {m : BitVec 4}

theorem mbwRelease_empty (hR : Runs s k str c t) (hrel : CoreReleased s k str c) {m : Nat} (he : (t.box m).full = false) (v : Nat) :
    s.mbwRelease k str m v = .done ((thawed s k c).setTeam (k / 16) (t.boxFilled m v)) := by
  simp only [State.mbwRelease, runs_team hR, he, Bool.false_eq_true, ↓reduceIte]
  rw [afterRelease_core hR hrel]
  exact mbw_empty ((team?_thawed ..).trans (runs_team hR)) he v

theorem mbwRelease_full (hR : Runs s k str c t) {m : Nat} (hf : (t.box m).full = true) (v : Nat) : s.mbwRelease k str m v = .wait := by
  simp only [State.mbwRelease, runs_team hR, hf, ↓reduceIte]

/-! ## MBW and MBR of a course (R192) -/

theorem exec_mbwGroup (hR : Runs s k str c t) {d : BitVec 6} (hc : Clean s [(d.toNat, false)]) :
    exec (.mbwGroup d m) s = s.runWord (.mbwGroup d m) (s.mbwRelease k str m.toNat (s.gsrc false d.toNat)) := by
  change execMbwGroup d m s = _
  unfold execMbwGroup
  rw [groupOp_unpoisoned hc, runs_asCourse hR]
  rfl

/-- The vector form writes the word of the lowest guard-true lane. -/
theorem exec_mbwVector (hR : Runs s k str c t) {d : BitVec 6} {l : Nat} {rest : List Nat} (hl : lanesOf (c.active str) = l :: rest)
    (hr : Ready c (c.active str) [⟨d.toNat, .n32, 15⟩] []) :
    exec (.mbwVector d m) s = s.runWord (.mbwVector d m) (s.mbwRelease k str m.toNat (c.src .n32 d.toNat l)) := by
  change execMbwVector d m s = _
  unfold execMbwVector
  simp only [runs_cur hR, runs_asCourse hR, hl, ready_checks_sources hr]

theorem exec_mbrGroup (hR : Runs s k str c t) {d : BitVec 6} {p : BitVec 1} :
    exec (.mbrGroup d p m) s = s.runWord (.mbrGroup d p m) (s.mbr (k / 16) m.toNat (p == 1#1) fun s v => .done (s.gdst false d.toNat v.toNat)) := by
  change execMbrGroup d p m s = _
  unfold execMbrGroup
  rw [runs_asCourse hR]

/-- A mailbox's word on its way to lane l (R192). -/
def boxValue (k : Nat) (str : Bool) (c : Course) (d : BitVec 6) (v : Word) (s : State) (l : Nat) : Flight :=
  .value { key := k, str := str, mask := c.slotLanes str, lane := l, reg := d.toNat - 16, wide := false, value := v.toNat, poison := false,
           fail := none, pc := (c.slot str).pc, acquire := some 0, origin := s.fresh }

/-- What MBR's vector form leaves: its destination empty, and the word on its way to each guard-true lane. -/
def State.boxSent (s : State) (k : Nat) (str : Bool) (c : Course) (d : BitVec 6) (v : Word) : State :=
  (lanesOf (c.active str)).foldl (fun s l => s.send (boxValue k str c d v s l)) (s.modCourse k fun c' => c'.emptyDest (c.active str) d.toNat false)

theorem exec_mbrVector (hR : Runs s k str c t) {d : BitVec 6} {p : BitVec 1} (hd : 16 ≤ d.toNat) (hact : c.active str ≠ 0#32)
    (hr : Ready c (c.active str) [] [(d.toNat, false)]) :
    exec (.mbrVector d p m) s = s.runWord (.mbrVector d p m) (s.mbr (k / 16) m.toNat (p == 1#1) fun s v => .done (s.boxSent k str c d v)) := by
  have hd0 : d ≠ 0#6 := fun e => absurd hd (by rw [e]; decide)
  change execMbrVector d p m s = _
  unfold execMbrVector
  simp only [runs_cur hR, runs_asCourse hR, hd0, ready_checks hr, hact, ↓reduceIte]
  rfl

/-- Some lane is guard-true, so the word is on its way to it. -/
theorem boxSent_sends (s : State) (k : Nat) (str : Bool) {c : Course} (d : BitVec 6) (v : Word) (hact : c.active str ≠ 0#32) :
    ∃ n x, (s.boxSent k str c d v).flight? n = some (.value x) ∧ x.key = k ∧ x.reg = d.toNat - 16 ∧ x.value = v.toNat := by
  obtain ⟨l, hl⟩ : ∃ l, l ∈ lanesOf (c.active str) := by
    by_contra hnone
    refine hact (BitVec.eq_of_getLsbD_eq fun l hl => ?_)
    rw [BitVec.getLsbD_zero, Bool.eq_false_iff]
    exact fun hb => hnone ⟨l, mem_lanesOf.2 ⟨hl, hb⟩⟩
  obtain ⟨i, hi⟩ := List.mem_iff_getElem?.1 hl
  obtain ⟨u, hu⟩ := flight_sendMany (boxValue k str c d v) _ (s.modCourse k fun c' => c'.emptyDest (c.active str) d.toNat false) hi
  exact ⟨_, _, hu, rfl, rfl, rfl⟩

theorem team_boxSent (s : State) (k : Nat) (str : Bool) (c : Course) (d : BitVec 6) (v : Word) (h : Nat) :
    (s.boxSent k str c d v).team? h = s.team? h :=
  foldl_keeps (fun (u : State) l => u.send (boxValue k str c d v u l)) (fun u => u.team? h) (fun _ _ => rfl) _ _

end

/-! ## MBW and MBR of a stream (R192) -/

section
variable {s : State} {h : Nat} {x : Team} {w : Word} {m : BitVec 4}

theorem exec_mbwVector_stream (hS : Streams s h x) (d : BitVec 6) :
    exec (.mbwVector d m) s = s.runWord (.mbwVector d m) (s.mbw h m.toNat (x.seq.reg d.toNat)) := by
  obtain ⟨hcur, -⟩ := id hS
  change execMbwVector d m s = _
  unfold execMbwVector
  simp only [hcur, streams_asStream hS]

theorem exec_mbrVector_stream (hS : Streams s h x) (d : BitVec 6) (p : BitVec 1) :
    exec (.mbrVector d p m) s = s.runWord (.mbrVector d p m) (s.mbr h m.toNat (p == 1#1) fun s v => .done (s.modTeam h fun y =>
      { y with seq := y.seq.setReg d.toNat v.toNat })) := by
  obtain ⟨hcur, -⟩ := id hS
  change execMbrVector d p m s = _
  unfold execMbrVector
  simp only [hcur, streams_asStream hS]

end

/-- Settles O35. -/
theorem mailboxInstructionsComplete : Obligations.MailboxInstructionsComplete := by
  refine ⟨fun s k str c t w m hR hrel hacq => ?_, fun s h x w m hcur hteam hrun hpending => ?_⟩
  · have hP := runs_curRuns hR
    have hself : s.selfAcquired 0 = true := (selfAcquired_course hR 0).trans hacq
    refine ⟨fun d hw hc => ?_, fun d l rest hw hl hr he => ?_, fun d p hw => ⟨fun hf => ?_, fun he => ?_⟩, fun d p hw hd hact hr hf => ?_⟩
    · rw [exec_mbwGroup hR hc]
      exact ⟨fun he => runWord_finished hP hw (mbwRelease_empty hR hrel he _), fun hf => runWord_waits hP hw (mbwRelease_full hR hf _)⟩
    · rw [exec_mbwVector hR hl hr]
      exact runWord_finished hP hw (mbwRelease_empty hR hrel he _)
    · rw [exec_mbrGroup hR]
      exact runWord_finished hP hw (mbr_full (runs_team hR) hf hself p _)
    · rw [exec_mbrGroup hR]
      exact runWord_waits hP hw (mbr_empty (runs_team hR) he _ _)
    · rw [exec_mbrVector hR hd hact hr]
      exact ⟨_, runWord_finished hP hw (mbr_full (runs_team hR) hf hself p _), (team_boxSent ..).trans (team_boxRead (runs_team hR) _ p),
        boxSent_sends _ k str d _ hact⟩
  · have hS : Streams s h x := ⟨hcur, hteam, hrun, hpending⟩
    refine ⟨fun d hw he => ?_, fun d p hw hf => ?_⟩
    · rw [exec_mbwVector_stream hS]
      exact runWord_finished (streams_present hS) hw (mbw_empty hteam he _)
    · rw [exec_mbrVector_stream hS]
      exact runWord_finished (streams_present hS) hw (mbr_full hteam hf (selfAcquired_stream hS 0) p _)

end Sys2Proof.Machine

/-! # Barriers (R187-R197, R314, R315, R359, R437) -/

namespace Sys2Proof.Machine

open Sys2Proof Sys2Proof.Spec

/-! ## One barrier (R188) -/

section
variable {s : State} {b : Barrier} {party count live scope : Nat} {str : Bool} {pc : Word} {put : State → Barrier → State}

/-- Arrivals that complete a generation: `live` for a need of 0 (R188). -/
abbrev Barrier.needed (b : Barrier) (live : Nat) : Nat := if b.need = 0 then live else b.need

theorem arrive_first (h : b.pending.contains party = false) (count : Nat) : b.arrive party count = arrived b party count :=
  if_neg (Bool.eq_false_iff.1 h)

/-- A generation that some party has arrived at is complete when enough have. -/
theorem full_arrived (b : Barrier) (party count live : Nat) :
    (arrived b party count).full live = decide ((arrived b party count).needed live ≤ (arrived b party count).arrivals) := by
  have h : (arrived b party count).arrivals ≠ 0 := Nat.succ_ne_zero _
  rw [Barrier.full, decide_eq_true h, Bool.true_and]

theorem testBar_incomplete (h : (arrived b party count).arrivals < (arrived b party count).needed live) :
    s.testBar (arrived b party count) live = arrived b party count := by
  rw [State.testBar, full_arrived, decide_eq_false (Nat.not_le.2 h)]
  rfl

theorem testBar_complete (h : (arrived b party count).needed live ≤ (arrived b party count).arrivals) :
    s.testBar (arrived b party count) live = (arrived b party count).complete s.stands := by
  rw [State.testBar, full_arrived, decide_eq_true h]
  rfl

/-- The release that a slot's arrival waits for covers its scratchpad accesses (R179, R189). -/
def State.spadClear (s : State) : Bool := match s.self with | some (k, str, _) => !s.spOutstanding k str | none => true

/-- R188: a party that has not arrived does, after its release, and goes on. -/
theorem atBarrier_arrives (h : (b.pass (party, str)).pending.contains party = false) (auto : Bool) :
    s.atBarrier party str pc b put 1 count live scope auto = s.afterRelease scope (fun _ => s.spadClear) fun s =>
      .done (put s (if auto then s.testBar (arrived (b.pass (party, str)) party count) live else arrived (b.pass (party, str)) party count)) := by
  simp only [State.atBarrier, h, arrive_first h, ne_eq, not_true_eq_false, false_and, and_false, Bool.false_eq_true, (by decide : (1 : Nat) ≠ 2), or_self, ↓reduceIte]
  rfl

/-- A wait that its generation has passed, and that its waiters' release has reached, is over once the slot's acquire is. -/
theorem atBarrier_passed {kind : Nat} (hk : kind ≠ 1) (hp : b.passed.contains (party, str) = true) (hu : b.unreleased.contains (party, str) = false) (auto : Bool) :
    s.atBarrier party str pc b put kind count live scope auto =
      if s.selfAcquired scope then .done ((put s (b.pass (party, str))).forgetSelf.acquireDrop scope) else .wait := by
  simp only [State.atBarrier, hk, hp, hu, ne_eq, not_false_eq_true, and_self, Bool.false_eq_true, ↓reduceIte]

theorem atBarrier_unreleased {kind : Nat} (hk : kind ≠ 1) (hp : b.passed.contains (party, str) = true) (hu : b.unreleased.contains (party, str) = true) (auto : Bool) :
    s.atBarrier party str pc b put kind count live scope auto = .wait := by
  simp only [State.atBarrier, hk, hp, hu, ne_eq, not_false_eq_true, and_self, ↓reduceIte]

/-- A wait at a barrier whose generation its party is not part of is over once the slot's acquire is. -/
theorem atBarrier_absent (hp : b.passed.contains (party, str) = false) (h : (b.pass (party, str)).pending.contains party = false)
    (hacq : s.selfAcquired scope = true) (auto : Bool) :
    s.atBarrier party str pc b put 2 count live scope auto =
      .done ((put s ((b.pass (party, str)).pass (party, str))).forgetSelf.acquireDrop scope) := by
  simp only [State.atBarrier, hp, h, hacq, ne_eq, Bool.false_eq_true, and_false, (by decide : (2 : Nat) ≠ 1), true_or, Bool.not_false, ↓reduceIte]

end

/-! ## The barriers of a team (R187-R189) -/

section
variable {s : State} {k : Nat} {str : Bool} {c : Course} {t : Team} {w : Word} {n : BitVec 5} {kind : BitVec 2} {m : BitVec 4}

theorem exec_bar (hR : Runs s k str c t) : exec (.bar n kind m) s = s.runWord (.bar n kind m)
    (s.atBarrier k str (c.slot str).pc (t.bar m.toNat) (State.putBar (k / 16) m.toNat) kind.toNat n.toNat (s.parties fun j => decide (j = k / 16)) 0 true) := by
  change execBar n kind m s = _
  unfold execBar
  simp only [runs_asCourse hR, runs_team hR]

theorem spadClear_course (hR : Runs s k str c t) : s.spadClear = !s.spOutstanding k str := by
  simp only [State.spadClear, runs_self hR]

theorem acquireDrop_core (s : State) : s.acquireDrop 0 = s := by
  unfold State.acquireDrop
  split
  · split <;> rfl
  · rfl

/-- A slot that leaves its team's barrier forgets the promotions that are over (R257). -/
theorem leaveBar (hR : Runs s k str c t) (m : Nat) (b : Barrier) :
    (State.putBar (k / 16) m s b).forgetSelf.acquireDrop 0 = (State.putBar (k / 16) m s b).forgetSeen k := by
  obtain ⟨hcur, hk, -⟩ := hR
  have hself : (State.putBar (k / 16) m s b).self = some (k, str, c) := self_course hcur hk
  rw [acquireDrop_core, State.forgetSelf, hself]

/-- R188: BAR.ARR of a party that has not arrived arrives, and its barrier is tested. -/
theorem exec_barArr (hR : Runs s k str c t) (hw : Passes s (.bar n 1#2 m) w) (hrel : CoreReleased s k str c)
    (h : ((t.bar m.toNat).pass (k, str)).pending.contains k = false) :
    exec (.bar n 1#2 m) s = .next (finished s (State.putBar (k / 16) m.toNat (thawed s k c)
      ((thawed s k c).testBar (arrived ((t.bar m.toNat).pass (k, str)) k n.toNat) (s.parties fun j => decide (j = k / 16)))) w) := by
  rw [exec_bar hR]
  refine runWord_finished (runs_curRuns hR) hw ((atBarrier_arrives h true).trans ?_)
  rw [spadClear_course hR, afterRelease_core hR hrel]
  rfl

theorem exec_mbar {h : Nat} {x : Team} (hS : Streams s h x) : exec (.mbar n kind m) s = s.runWord (.mbar n kind m)
    (s.atBarrier (seqParty h) false x.seq.pc (x.bar m.toNat) (State.putBar h m.toNat) kind.toNat n.toNat (s.parties fun j => decide (j = h)) 0 true) := by
  change execMbar n kind m s = _
  unfold execMbar
  rw [streams_asStream hS]

/-- A stream's release has nothing to wait for. -/
theorem afterRelease_stream {h : Nat} {x : Team} (hS : Streams s h x) (scope : Nat) (more : Nat → Bool) (go : State → Res) :
    s.afterRelease scope more go = go s := by
  obtain ⟨hcur, -⟩ := id hS
  simp only [State.afterRelease, streams_self hS, State.procClear, hcur, ↓reduceIte]

end

/-- The part of O34 about arrivals. -/
theorem barrierArrivalsCount : BarrierArrivalsCount := by
  refine ⟨fun s k str c t w n m hR hw hrel h => ?_, fun s h x w n m hcur hteam hrun hpending hw hb hlt => ?_⟩
  · rw [exec_barArr hR hw hrel h]
    refine ⟨fun hlt => ?_, fun hle => ⟨_, rfl, ?_⟩⟩
    · rw [testBar_incomplete hlt]
    · rw [testBar_complete hle]
      exact ⟨rfl, rfl, rfl, rfl⟩
  · have hS : Streams s h x := ⟨hcur, hteam, hrun, hpending⟩
    rw [exec_mbar hS]
    refine runWord_finished (streams_present hS) hw ((atBarrier_arrives hb true).trans ?_)
    rw [afterRelease_stream hS, testBar_incomplete hlt]
    rfl

/-- The part of O34 about waits at a team's barrier. -/
theorem barrierWaitersPass : BarrierWaitersPass := by
  have ne_one {kind : BitVec 2} (h : kind ≠ 1#2) : kind.toNat ≠ 1 := fun e => h (BitVec.eq_of_toNat_eq e)
  refine ⟨fun s k str c t w n m hR hw hp h hacq => ?_, fun s k str c t w n m kind hR hk hw hp hu => ?_, fun s k str c t w n m kind hR hk hw hp hu => ?_⟩
  all_goals
    have hP := runs_curRuns hR
    rw [exec_bar hR]
  · rw [← leaveBar hR]
    exact runWord_finished hP hw (atBarrier_absent hp h ((selfAcquired_course hR 0).trans hacq) true)
  · rw [atBarrier_passed (ne_one hk) hp hu, selfAcquired_course hR, leaveBar hR]
    exact ⟨fun hacq => runWord_finished hP hw (if_pos hacq), fun hacq => runWord_waits hP hw (if_neg (Bool.eq_false_iff.1 hacq))⟩
  · exact runWord_waits hP hw (atBarrier_unreleased (ne_one hk) hp hu true)

/-! ## The barriers of wider scopes (R314, R315, R359, R437) -/

/-- How a level's barrier is stored (R437): from the wall on, with the package's part sent once all have arrived. -/
def barxPut (t : Team) (level k live : Nat) : State → Barrier → State :=
  if level < 3 then State.putWide (barKey level (barOwner t level) k) else State.putPart level (pkgOfCore t.core) t.launch.pbg k live

theorem barOwner_package {level : Nat} (h : 3 ≤ level) (t : Team) : barOwner t level = pbgKey (pkgOfCore t.core) t.launch.pbg := by
  rw [barOwner, if_neg (by omega), if_neg (by omega)]

/-- BARX's refusals name its level or its count (R314). -/
theorem barxCheck_field {t : Team} {level count fld : Nat} (h : barxCheck t level count = some fld) : fld = 5 ∨ fld = 2 := by
  unfold barxCheck at h
  split_ifs at h <;> simp_all

section
variable {s : State} {k : Nat} {str : Bool} {c : Course} {t : Team} {w : Word} {a : BitVec 6} {kind : BitVec 2} {l m : BitVec 3} {v fld : Nat}

theorem exec_barx_refused (hR : Runs s k str c t) (hc : Clean s [(a.toNat, false)]) (hv : s.gsrc false a.toNat = v) (h : barxCheck t l.toNat v = some fld) :
    exec (.barx a kind l m) s = s.runWord (.barx a kind l m) (illegalAt 0x79 fld 3) := by
  have hv' : s.sc.src false a.toNat = v := hv
  change execBarx a kind l m s = _
  unfold execBarx
  rw [groupOp_unpoisoned hc, runs_asCourse hR]
  simp only [runs_team hR, hv', h]

theorem exec_barx_allowed (hR : Runs s k str c t) (hc : Clean s [(a.toNat, false)]) (hv : s.gsrc false a.toNat = v) (h : barxCheck t l.toNat v = none) :
    exec (.barx a kind l m) s = s.runWord (.barx a kind l m)
      (s.atBarrier k str (c.slot str).pc (s.wideBar (barKey l.toNat (barOwner t l.toNat) m.toNat))
        (barxPut t l.toNat m.toNat (s.parties (s.barTeams t l.toNat))) kind.toNat (if l.toNat = 0 then v % 128 else v % 65536)
        (s.parties (s.barTeams t l.toNat)) (min 4 (l.toNat + 1)) (decide (l.toNat < 3))) := by
  have hv' : s.sc.src false a.toNat = v := hv
  change execBarx a kind l m s = _
  unfold execBarx
  rw [groupOp_unpoisoned hc, runs_asCourse hR]
  simp only [runs_team hR, hv', h]
  rfl

/-- R315, R437: an arrival that does not complete its generation is stored, and no part is sent. -/
theorem barxPut_incomplete {b : Barrier} {party count live : Nat} (u : State) (k level : Nat)
    (h : (arrived b party count).arrivals < (arrived b party count).needed live) :
    barxPut t level k live u (if decide (level < 3) then u.testBar (arrived b party count) live else arrived b party count) =
      State.putWide (barKey level (barOwner t level) k) u (arrived b party count) := by
  rw [testBar_incomplete h, ite_self, barxPut]
  split
  next => rfl
  next hl =>
    have hfull : (arrived b party count).full live = false := by rw [full_arrived, decide_eq_false (Nat.not_le.2 h)]
    rw [State.putPart, hfull, Bool.and_false, barOwner_package (Nat.not_lt.1 hl)]
    rfl

/-- R437: with the last of its own parties the package's part goes to the level's coordinator. -/
theorem barxPut_complete {b : Barrier} {party count live : Nat} (u : State) (k : Nat) {level : Nat} (hl : 3 ≤ level) (hneed : (arrived b party count).need = 0)
    (h : live ≤ (arrived b party count).arrivals) :
    barxPut t level k live u (if decide (level < 3) then u.testBar (arrived b party count) live else arrived b party count) =
      (u.putWide (barKey level (barOwner t level) k) { arrived b party count with need := (arrived b party count).arrivals }).tellPeer (pkgOfCore t.core)
        (16 * (u.coordinator level (pkgOfCore t.core)).1 + (u.coordinator level (pkgOfCore t.core)).2) 14
        (partBytes 1 level k t.launch.pbg (arrived b party count).gen.toNat) := by
  have hfull : (arrived b party count).full live = true := by rw [full_arrived, Barrier.needed, if_pos hneed, decide_eq_true h]
  rw [decide_eq_false (Nat.not_lt.2 hl), if_neg Bool.false_ne_true, barxPut, if_neg (Nat.not_lt.2 hl), State.putPart, hfull, hneed, barOwner_package hl]
  rfl

/-- R255, R314: BARX.ARR of a party that has not arrived does, from the scope's release on. -/
theorem exec_barxArr (hR : Runs s k str c t) (hw : Passes s (.barx a 1#2 l m) w) (hc : Clean s [(a.toNat, false)]) (hv : s.gsrc false a.toNat = v)
    (hok : barxCheck t l.toNat v = none) (hn : NotBegun c str) (hrel : (thawed s k c).released k str s.fresh (min 4 (l.toNat + 1)) = true)
    (hsp : s.spOutstanding k str = false) {b : Barrier} (hb : (s.wideBar (barKey l.toNat (barOwner t l.toNat) m.toNat)).pass (k, str) = b)
    (h : b.pending.contains k = false) {u : State} (hu : marked (thawed s k c) k (min 4 (l.toNat + 1)) = u) {b' : Barrier}
    (hb' : arrived b k (if l.toNat = 0 then v % 128 else v % 65536) = b') :
    exec (.barx a 1#2 l m) s = .next (finished s (barxPut t l.toNat m.toNat (s.parties (s.barTeams t l.toNat)) u
      (if decide (l.toNat < 3) then u.testBar b' (s.parties (s.barTeams t l.toNat)) else b')) w) := by
  subst hb hu hb'
  rw [exec_barx_allowed hR hc hv hok]
  refine runWord_finished (runs_curRuns hR) hw ((atBarrier_arrives h _).trans ?_)
  rw [spadClear_course hR, afterRelease_released hR hn hrel (by rw [hsp]; rfl)]

end

theorem coordinator_marked (s : State) (k : Nat) (c : Course) (scope level p : Nat) : (marked (thawed s k c) k scope).coordinator level p = s.coordinator level p := by
  unfold marked thawed
  split <;> split <;> rfl

/-- The part of O34 about the barriers of wider scopes. -/
theorem barxArrivesAtTheLevelsBarrier : BarxArrivesAtTheLevelsBarrier := by
  intro s k str c t w a l m hR hw hc v
  refine ⟨fun fld hbad => ?_, fun hok hn hrel hsp h => ⟨fun hlt => ?_, fun hl _ hneed hle => ?_⟩⟩
  · rw [exec_barx_refused hR hc rfl hbad]
    refine runWord_takesTrap (runs_curRuns hR) hw ?_
    obtain rfl | rfl := barxCheck_field hbad <;> rfl
  · rw [exec_barxArr hR hw hc rfl hok hn hrel hsp rfl h rfl rfl, barxPut_incomplete _ _ _ hlt]
  · rw [exec_barxArr hR hw hc rfl hok hn hrel hsp rfl h rfl rfl, barxPut_complete _ _ hl hneed hle, coordinator_marked]

/-! ## Generation barriers (R194-R197) -/

section
variable {s : State} {k : Nat} {str : Bool} {c : Course} {t : Team} {w : Word} {d a b : BitVec 6}

theorem genTarget_misaligned (ht : s.team? (k / 16) = some t) {o : Nat} (h : o % 16 ≠ 0) (go : Nat → Nat → Nat → Bool → Res) :
    s.genTarget k o go = .trap .align o 0 16 := by
  simp only [State.genTarget, ht, h, ne_eq, not_false_eq_true, ↓reduceIte]

theorem genTarget_aligned (ht : s.team? (k / 16) = some t) {o h o' mem : Nat} {win : Bool} (hal : o % 16 = 0)
    (hsp : s.spTarget (k / 16) t o 16 = .inl (h, o', mem, win)) (go : Nat → Nat → Nat → Bool → Res) : s.genTarget k o go = go h o' mem win := by
  simp only [State.genTarget, ht, hal, hsp, ne_eq, not_true_eq_false, ↓reduceIte]

/-- An offset below 2^31 is in the slot's own scratchpad (R146). -/
theorem spTarget_own {o size : Nat} (h : Nat) (ho : o < 2 ^ 31) (hin : o + size ≤ t.spSize) : s.spTarget h t o size = .inl (h, o, t.core % 4, false) := by
  rw [State.spTarget, if_pos ho, if_pos hin]

/-- Arrivals that GBARA's mode counts (R195). -/
def gbaraCount (c : Course) (str : Bool) (m : BitVec 2) : Nat := if m = 0#2 then 1 else if m = 1#2 then (lanesOf (c.active str)).length else 0

/-- The update that GBARA sends to its bank (R194, R195). -/
def gbaraUpdate (str : Bool) (c : Course) (agent : Agent) (d : BitVec 6) (h o bytes n mem : Nat) : Flight :=
  .group { agent := agent, reg := if d.toNat < 32 then some d.toNat else none, wide := false, op := .barrier h o bytes n mem, pc := (c.slot str).pc }

/-- GBARA's rule, its sources unpoisoned. -/
def gbaraRule (s : State) (k : Nat) (str : Bool) (c : Course) (d a b : BitVec 6) (m : BitVec 2) : Res :=
  s.genTarget k (s.gsrc false a.toNat) fun h o mem win => s.afterRelease (boolNat win) (fun _ => !s.spOutstanding k str) fun u =>
    .stay ((u.send (gbaraUpdate str c u.cur d h o (s.gsrc false b.toNat) (gbaraCount c str m) mem)).awaitReply 0x7A u.fresh)

theorem exec_gbara (hR : Runs s k str c t) (hc : Clean s [(a.toNat, false), (b.toNat, false)]) (m : BitVec 2) :
    exec (.gbara d a b m) s = s.runWord (.gbara d a b m) (gbaraRule s k str c d a b m) := by
  have hactive : s.activeLanes = (lanesOf (c.active str)).length := by simp only [State.activeLanes, runs_self hR]
  have hcount : (match m.toNat with | 0 => 1 | 1 => s.activeLanes | _ => 0) = gbaraCount c str m := by
    rw [hactive]
    obtain rfl | rfl | rfl | rfl : m = 0#2 ∨ m = 1#2 ∨ m = 2#2 ∨ m = 3#2 := by revert m; decide
    all_goals rfl
  change execGbara d a b m s = _
  unfold execGbara gbaraRule
  rw [groupOp_unpoisoned hc, runs_asCourse hR, ← hcount]
  rfl

/-- GBARW's rule, its sources unpoisoned and no then-fence running. -/
def gbarwRule (s : State) (k : Nat) (str : Bool) (d a b : BitVec 6) : Res :=
  s.genTarget k (s.gsrc false a.toNat) fun h o mem win => match s.team? h with
    | none => .wait
    | some x =>
      if win && s.refuses h then .trap .spGone (s.gsrc false a.toNat) 0 mem
      else if s.spadOlder k str h o 16 then .wait
      else if x.spPoisoned o 4 then .trap .softErr (s.gsrc false a.toNat) 0 0
      else if 2 ^ 31 ≤ (ofBytes (x.spBytes o 4) + 2 ^ 33 - s.gsrc false b.toNat - 1) % 2 ^ 32 then .wait
      else .done ((if win then s.acquireDrop 1 else s).gdst false d.toNat (ofBytes (x.spBytes o 4)))

theorem exec_gbarw (hR : Runs s k str c t) (hn : NotBegun c str) (hc : Clean s [(a.toNat, false), (b.toNat, false)]) :
    exec (.gbarw d a b 0#3) s = s.runWord (.gbarw d a b 0#3) (gbarwRule s k str d a b) := by
  change execGbarw d a b 0#3 s = _
  unfold execGbarw gbarwRule
  rw [groupOp_unpoisoned hc, runs_asCourse hR]
  simp only [metValue_notBegun hR hn]
  rfl

theorem acquireDrop_course (hR : Runs s k str c t) {scope : Nat} (hs : scope ≠ 0) : s.acquireDrop scope = s.dropL1 t.core := by
  simp only [State.acquireDrop, runs_cur hR, runs_team hR, if_neg hs]

/-- R196: at a barrier that may be read, GBARW's rule looks at the generation alone. -/
theorem gbarwRule_reads (hR : Runs s k str c t) {h o mem : Nat} {win : Bool} {x : Team} (hal : s.gsrc false a.toNat % 16 = 0)
    (hsp : s.spTarget (k / 16) t (s.gsrc false a.toNat) 16 = .inl (h, o, mem, win)) (hx : s.team? h = some x) (hopen : win = true → s.refuses h = false)
    (holder : s.spadOlder k str h o 16 = false) (hpoison : x.spPoisoned o 4 = false) :
    gbarwRule s k str d a b = if 2 ^ 31 ≤ (ofBytes (x.spBytes o 4) + 2 ^ 33 - s.gsrc false b.toNat - 1) % 2 ^ 32 then .wait
      else .done ((if win then s.dropL1 t.core else s).gdst false d.toNat (ofBytes (x.spBytes o 4))) := by
  have hserved : (win && s.refuses h) = false := by
    cases win with
    | false => rfl
    | true => exact hopen rfl
  rw [gbarwRule, genTarget_aligned (runs_team hR) hal hsp]
  simp only [hx, hserved, holder, hpoison, Bool.false_eq_true, acquireDrop_course hR Nat.one_ne_zero, ↓reduceIte]

end

/-- The part of O34 about generation barriers. -/
theorem generationBarrierInstructionsComplete : GenerationBarrierInstructionsComplete := by
  intro s k str c t w d a b hR hc o
  have hP := runs_curRuns hR
  refine ⟨fun m h o' mem win hw hal hsp hn hrel hout => ?_, fun h o' mem win x hw hn hal hsp hx hopen holder hpoison => ?_,
    fun _ ho hin => spTarget_own _ ho hin, fun m hw hmis => ?_⟩
  · rw [exec_gbara hR hc]
    refine runWord_stays hP hw ((genTarget_aligned (runs_team hR) hal hsp _).trans ?_)
    have hcur : (marked (thawed s k c) k (boolNat win)).cur = s.cur := by
      unfold marked
      split <;> exact cur_thawed ..
    rw [afterRelease_released hR hn hrel (by rw [hout]; rfl), hcur]
    rfl
  · rw [exec_gbarw hR hn hc, gbarwRule_reads hR hal hsp hx hopen holder hpoison]
    exact ⟨fun hpast => runWord_finished hP hw (if_neg (Nat.not_le.2 hpast)), fun hnot => runWord_waits hP hw (if_pos hnot)⟩
  · rw [exec_gbara hR hc]
    exact runWord_takesTrap hP hw (genTarget_misaligned (runs_team hR) hmis _)

/-- Settles O34. -/
theorem barrierInstructionsComplete : Obligations.BarrierInstructionsComplete :=
  ⟨barrierArrivalsCount, barrierWaitersPass, barxArrivesAtTheLevelsBarrier, generationBarrierInstructionsComplete⟩

end Sys2Proof.Machine

/-! # Barriers released, probes, and barrier messages (R188, R194, R198, R294, R295, R437) -/

namespace Sys2Proof.Machine

open Sys2Proof Sys2Proof.Spec

/-! ## Bytes of the scratchpad written and read back (R172, R194) -/

theorem length_bytesOf (n x : Nat) : (bytesOf n x).length = n := by
  induction n generalizing x with
  | zero => rfl
  | succ n ih => simp only [bytesOf, List.length_cons, ih]

theorem ofBytes_bytesOf (n x : Nat) : ofBytes (bytesOf n x) = x % 2 ^ (8 * n) := by
  induction n generalizing x with
  | zero => simp [bytesOf, ofBytes, Nat.mod_one]
  | succ n ih =>
    have hpow : 2 ^ (8 * (n + 1)) = 2 ^ 8 * 2 ^ (8 * n) := by rw [← pow_add]; congr 1; omega
    simp only [bytesOf, ofBytes, ih, BitVec.toNat_ofNat, Nat.shiftLeft_eq, Nat.shiftRight_eq_div_pow]
    rw [hpow, Nat.mod_mul, Nat.mul_comm]

theorem ofBytes_lt (bs : List Byte) : ofBytes bs < 2 ^ (8 * bs.length) := by
  induction bs with
  | nil => exact Nat.one_pos
  | cons b bs ih =>
    have hb := b.isLt
    have hpow : 2 ^ (8 * (bs.length + 1)) = 2 ^ 8 * 2 ^ (8 * bs.length) := by rw [← pow_add]; congr 1; omega
    simp only [ofBytes, List.length_cons, Nat.shiftLeft_eq, hpow]
    omega

theorem sorted_setD {α : Type} [DecidableEq α] {m : SMap α} (h : SMap.sorted m = true) (d : α) (x : Nat) (v : α) : SMap.sorted (SMap.setD m d x v) = true := by
  unfold SMap.setD
  split
  · exact sorted_del x h
  · exact sorted_put x v h

theorem spByte_spWrite_before (t : Team) {o x : Nat} (bs : List Byte) (h : x < o) : (t.spWrite o bs).spByte x = t.spByte x := by
  induction bs generalizing t o with
  | nil => rfl
  | cons b bs ih => exact (ih _ (Nat.lt_succ_of_lt h)).trans (getD_setD_other _ _ _ (Nat.ne_of_lt h))

/-- A byte written to a scratchpad that is listed in order reads back. -/
theorem spByte_spWrite {t : Team} (hs : SMap.sorted t.scratch = true) (o : Nat) (bs : List Byte) {i : Nat} (hi : i < bs.length) :
    (t.spWrite o bs).spByte (o + i) = bs[i] := by
  induction bs generalizing t o i with
  | nil => exact absurd hi (Nat.not_lt_zero i)
  | cons b bs ih =>
    cases i with
    | zero => exact (spByte_spWrite_before _ bs (Nat.lt_succ_self o)).trans (getD_setD_same hs _ _ _)
    | succ i =>
      have hnext : o + (i + 1) = o + 1 + i := by omega
      rw [hnext]
      exact ih (sorted_setD hs _ _ _) (o + 1) (Nat.lt_of_succ_lt_succ hi)

theorem spBytes_spWrite {t : Team} (hs : SMap.sorted t.scratch = true) (o : Nat) (bs : List Byte) {i n : Nat} (h : i + n ≤ bs.length) :
    (t.spWrite o bs).spBytes (o + i) n = (bs.drop i).take n := by
  refine List.ext_getElem (by simp [Team.spBytes]; omega) fun j hj _ => ?_
  have hj : j < n := by simpa [Team.spBytes] using hj
  simp only [Team.spBytes, List.getElem_map, List.getElem_range, List.getElem_take, List.getElem_drop, Nat.add_assoc]
  exact spByte_spWrite hs o bs (by omega)

theorem ofBytes_spBytes_lt (t : Team) (o n : Nat) : ofBytes (t.spBytes o n) < 2 ^ (8 * n) := by
  have h := ofBytes_lt (t.spBytes o n)
  rwa [Team.spBytes, List.length_map, List.length_range] at h

/-! ## One update of a generation barrier (R194) -/

/-- The BYTES field after an amount is added: modulo 2^32, whether read signed or not. -/
theorem wrapTo_signedOf_add {x : Nat} (hx : x < 2 ^ 32) (add : Int) : wrapTo 32 (signedOf 32 x + add) = ((x + add) % 2 ^ 32).toNat := by
  simp only [wrapTo, signedOf, Nat.mod_eq_of_lt hx]
  split <;> omega

/-- The fields of a generation barrier, as an update leaves them in its 16 bytes. -/
def barrierBytes (gen bytes arr narr status : Nat) : List Byte := bytesOf 4 gen ++ bytesOf 4 bytes ++ bytesOf 2 arr ++ bytesOf 2 narr ++ bytesOf 4 status

theorem fields_barrierBytes {t : Team} (hs : SMap.sorted t.scratch = true) (o gen bytes arr narr status : Nat) :
    let u := t.spWrite o (barrierBytes gen bytes arr narr status)
    ofBytes (u.spBytes (o + 0) 4) = gen % 2 ^ 32 ∧ ofBytes (u.spBytes (o + 4) 4) = bytes % 2 ^ 32 ∧ ofBytes (u.spBytes (o + 8) 2) = arr % 2 ^ 16 ∧
      ofBytes (u.spBytes (o + 10) 2) = narr % 2 ^ 16 := by
  have field {i n x : Nat} (h : i + n ≤ 16) (hx : ((barrierBytes gen bytes arr narr status).drop i).take n = bytesOf n x) :
      ofBytes ((t.spWrite o (barrierBytes gen bytes arr narr status)).spBytes (o + i) n) = x % 2 ^ (8 * n) := by
    rw [spBytes_spWrite hs o _ (by simpa [barrierBytes, length_bytesOf] using h), hx, ofBytes_bytesOf]
  exact ⟨field (by decide) rfl, field (by decide) rfl, field (by decide) rfl, field (by decide) rfl⟩

/-- R194: the update, and the completion test that follows it. -/
theorem genUpdate_eq (t : Team) (o n : Nat) (add : Int) :
    let gen := ofBytes (t.spBytes (o + 0) 4)
    let bytes := wrapTo 32 (signedOf 32 (ofBytes (t.spBytes (o + 4) 4)) + add)
    let arr := ofBytes (t.spBytes (o + 8) 2) - n
    let narr := ofBytes (t.spBytes (o + 10) 2)
    let whole := decide (arr = 0) && decide (bytes = 0)
    ∃ status, t.genUpdate o n add = (gen, t.spWrite o (barrierBytes ((if whole then gen + 1 else gen) % 2 ^ 32) bytes (if whole then narr else arr) narr status)) :=
  ⟨_, rfl⟩

theorem genUpdate_fields (t : Team) (o n : Nat) (add : Int) (hs : SMap.sorted t.scratch = true) {gen old arr narr bytes : Nat}
    (hgen : ofBytes (t.spBytes (o + 0) 4) = gen) (hold : ofBytes (t.spBytes (o + 4) 4) = old) (harr : ofBytes (t.spBytes (o + 8) 2) - n = arr)
    (hnarr : ofBytes (t.spBytes (o + 10) 2) = narr) (hbytes : ((old + add) % 2 ^ 32).toNat = bytes) {u : Team} (hu : (t.genUpdate o n add).2 = u) :
    (t.genUpdate o n add).1 = gen ∧ ofBytes (u.spBytes (o + 4) 4) = bytes ∧ ofBytes (u.spBytes (o + 10) 2) = narr ∧
      (arr = 0 ∧ bytes = 0 → ofBytes (u.spBytes (o + 0) 4) = (gen + 1) % 2 ^ 32 ∧ ofBytes (u.spBytes (o + 8) 2) = narr) ∧
      (¬ (arr = 0 ∧ bytes = 0) → ofBytes (u.spBytes (o + 0) 4) = gen ∧ ofBytes (u.spBytes (o + 8) 2) = arr) := by
  have hgenlt : gen < 2 ^ 32 := hgen ▸ ofBytes_spBytes_lt ..
  have holdlt : old < 2 ^ 32 := hold ▸ ofBytes_spBytes_lt ..
  have hnarrlt : narr < 2 ^ 16 := hnarr ▸ ofBytes_spBytes_lt ..
  have harrlt : arr < 2 ^ 16 := harr ▸ Nat.lt_of_le_of_lt (Nat.sub_le ..) (ofBytes_spBytes_lt ..)
  have hbyteslt : bytes < 2 ^ 32 := by omega
  obtain ⟨status, hup⟩ := genUpdate_eq t o n add
  simp only [hgen, hold, harr, hnarr, wrapTo_signedOf_add holdlt, hbytes] at hup
  obtain ⟨h0, h4, h8, h10⟩ := fields_barrierBytes hs o ((if decide (arr = 0) && decide (bytes = 0) then gen + 1 else gen) % 2 ^ 32) bytes
    (if decide (arr = 0) && decide (bytes = 0) then narr else arr) narr status
  subst hu
  rw [hup]
  refine ⟨rfl, h4.trans (Nat.mod_eq_of_lt hbyteslt), h10.trans (Nat.mod_eq_of_lt hnarrlt), fun ⟨ha, hb⟩ => ⟨h0.trans ?_, h8.trans ?_⟩,
    fun hne => ⟨h0.trans ?_, h8.trans ?_⟩⟩
  · rw [ha, hb]; exact Nat.mod_mod ..
  · rw [ha, hb]; exact Nat.mod_eq_of_lt hnarrlt
  · have hwhole : (decide (arr = 0) && decide (bytes = 0)) = false := by rw [← Bool.decide_and]; exact decide_eq_false hne
    rw [hwhole, if_neg Bool.false_ne_true, Nat.mod_mod, Nat.mod_eq_of_lt hgenlt]
  · have hwhole : (decide (arr = 0) && decide (bytes = 0)) = false := by rw [← Bool.decide_and]; exact decide_eq_false hne
    rw [hwhole, if_neg Bool.false_ne_true, Nat.mod_eq_of_lt harrlt]

/-! ## GEN_BARRIER_UPDATE and BARRIER_WAITER_RELEASE (R194, R198, R316) -/

section
variable {s : State} {f h o bytes n m : Nat} {x : GroupReq} {t : Team}

theorem exec_genBarrierUpdate_serves (hf : s.flight? f = some (.group x)) (hop : x.op = .barrier h o bytes n m) (ht : s.team? h = some t)
    (hopen : s.refuses h = false) (hclean : t.spPoisoned o 16 = false) : exec (.genBarrierUpdate f) s =
      .next ((s.setTeam h (t.genUpdate o n (signedOf 32 bytes)).2).groupDone f (t.genUpdate o n (signedOf 32 bytes)).1 none) := by
  change execGenBarrierUpdate f s = _
  simp only [execGenBarrierUpdate, hf, hop, ht, hopen, hclean, Bool.false_eq_true, ↓reduceIte]

theorem exec_genBarrierUpdate_refused (hf : s.flight? f = some (.group x)) (hop : x.op = .barrier h o bytes n m) (ht : s.team? h = some t)
    (hclosed : s.refuses h = true) : exec (.genBarrierUpdate f) s = .next (s.groupDone f 0 (some (.spGone, o, BitVec.ofNat 32 (t.core % 4)))) := by
  change execGenBarrierUpdate f s = _
  simp only [execGenBarrierUpdate, hf, hop, ht, hclosed, ↓reduceIte]

theorem exec_barrierWaiterRelease_team (ht : s.team? h = some t) (b : Nat) :
    exec (.barrierWaiterRelease false h b) s = .next (s.putBar h b { t.bar b with unreleased := [] }) := by
  change execBarrierWaiterRelease false h b s = _
  simp only [execBarrierWaiterRelease, ht, Bool.false_eq_true, ↓reduceIte]

end

/-! ## PROBE_TIMER (R294, R295) -/

/-- A note of the edges a party holds, where it stands, and since when. -/
abbrev EdgeNote : Type := Waiter × List (Nat × Nat × Nat) × (Nat × Nat) × Nat

/-- Edges as they are noted. -/
abbrev edgesHeld (es : List (Nat × WaitEdge)) : List (Nat × Nat × Nat) := es.map fun e => (e.1, e.2.row, e.2.object)

/-- Whether a note says that a party holds these edges where it stands. -/
abbrev EdgeNote.says (s : State) (w : Waiter) (es : List (Nat × WaitEdge)) (x : EdgeNote) : Bool :=
  decide (x.1 = w) && decide (x.2.1 = edgesHeld es) && decide (x.2.2.1 = s.standing w)

/-- When a noted wait has lasted PROBET. -/
abbrev State.probeDue (s : State) (die : Nat) (x : EdgeNote) : Nat := x.2.2.2 + 1000 * bitsOf (s.reg (die / 8) (distBase (die % 8) + 0x104)) 19 10

section
variable {s : State} {k n die : Nat} {w : Waiter} {es : List (Nat × WaitEdge)}

theorem exec_probeTimer_notes (hw : waiterOf k n = w) (hd : s.dieOfWaiter w = die) (he : s.edgesOf w = some es)
    (hnew : (s.die die).edgeSince.find? (EdgeNote.says s w es) = none) : exec (.probeTimer k n) s = .next (s.modDie die fun d =>
      { d with edgeSince := d.edgeSince.filter (fun x => decide (x.1 ≠ w)) ++ [(w, edgesHeld es, s.standing w, (s.pkg (die / 8)).time)] }) := by
  subst hw hd
  change execProbeTimer k n s = _
  simp only [execProbeTimer, he, hnew]

theorem exec_probeTimer_early (hw : waiterOf k n = w) (hd : s.dieOfWaiter w = die) (he : s.edgesOf w = some es) {x : EdgeNote}
    (hx : (s.die die).edgeSince.find? (EdgeNote.says s w es) = some x) (hearly : (s.pkg (die / 8)).time < s.probeDue die x) :
    exec (.probeTimer k n) s = .next s := by
  subst hw hd
  change execProbeTimer k n s = _
  simp only [execProbeTimer, he, hx, hearly, ↓reduceIte]

theorem exec_probeTimer_starts (hw : waiterOf k n = w) (hd : s.dieOfWaiter w = die) (he : s.edgesOf w = some es) {x : EdgeNote}
    (hx : (s.die die).edgeSince.find? (EdgeNote.says s w es) = some x) (hdue : s.probeDue die x ≤ (s.pkg (die / 8)).time) {ws : List Waiter}
    (hws : endersOf es = some ws) :
    exec (.probeTimer k n) s = .next (s.modDie die fun d => { d with probes := d.probes ++ [{ origin := w, seen := [w], front := ws }] }) := by
  subst hw hd
  change execProbeTimer k n s = _
  simp only [execProbeTimer, he, hx, Nat.not_lt.2 hdue, hws, ↓reduceIte]

end

/-! ## PROBE (R295) -/

section
variable {s : State} {d i : Nat} {p : Probe} {x : Waiter} {rest : List Waiter}

/-- A waiting party forwards a probe along its own edges. -/
theorem exec_probe_forwards (hp : (s.die d).probes[i]? = some p) (hfront : p.front = x :: rest) (hseen : p.seen.contains x = false) {ws : List Waiter}
    (hws : (s.edgesOf x).bind endersOf = some ws) :
    exec (.probe d i) s = .next (s.modDie d fun y => { y with probes := y.probes.set i { p with seen := p.seen ++ [x], front := rest ++ ws } }) := by
  change execProbe d i s = _
  simp only [execProbe, hp, hfront, hseen, hws, Bool.false_eq_true, ↓reduceIte]

/-- A party that does not wait absorbs it. -/
theorem exec_probe_absorbed (hp : (s.die d).probes[i]? = some p) (hfront : p.front = x :: rest) (hseen : p.seen.contains x = false)
    (hnone : (s.edgesOf x).bind endersOf = none) : exec (.probe d i) s = .next (s.modDie d fun y => { y with probes := y.probes.eraseIdx i }) := by
  change execProbe d i s = _
  simp only [execProbe, hp, hfront, hseen, hnone, Bool.false_eq_true, ↓reduceIte]

/-- A probe with nobody left to reach, all of whose members still wait, has found a cycle. -/
theorem exec_probe_found (hp : (s.die d).probes[i]? = some p) (hfront : p.front = []) (hwait : ∀ x ∈ p.seen, (s.edgesOf x).isSome = true) :
    exec (.probe d i) s = .next ((s.modDie d fun y => { y with probes := y.probes.eraseIdx i }).reportCycle d p) := by
  have hall : (p.seen.all fun w => (s.edgesOf w).isSome) = true := List.all_eq_true.2 hwait
  change execProbe d i s = _
  simp only [execProbe, hp, hfront, hall, ↓reduceIte]

end

/-- The part of O51 about releases and probes. -/
theorem barrierAndProbeEventsComplete : BarrierAndProbeEventsComplete := by
  refine ⟨fun _ _ _ => rfl, fun s h b t ht => exec_barrierWaiterRelease_team ht b, fun s f x h o bytes n m t => exec_genBarrierUpdate_serves,
    fun s f x h o bytes n m t => exec_genBarrierUpdate_refused, fun t o n add hs => genUpdate_fields t o n add hs rfl rfl rfl rfl rfl rfl,
    fun s k n es he => ⟨fun hnew => ?_, fun x hx => ⟨exec_probeTimer_early rfl rfl he hx, fun ws hdue => exec_probeTimer_starts rfl rfl he hx hdue⟩⟩,
    fun s d i p x rest hp hfront hseen => ⟨fun ws => exec_probe_forwards hp hfront hseen, exec_probe_absorbed hp hfront hseen⟩,
    fun s d i p => exec_probe_found⟩
  refine ⟨_, exec_probeTimer_notes rfl rfl he hnew, ?_, ?_, rfl, rfl⟩
  · rw [die_modDie_same]
    exact List.mem_append_right _ (List.mem_singleton.2 rfl)
  · rw [die_modDie_same]

/-! ## The coordinator's messages (R437) -/

section
variable {s : State} {p src kind l k pbg gen : Nat}

/-- The generation that a part's first arrival names. -/
def Barrier.named (b : Barrier) (gen : Nat) : Barrier := if b.arrivals = 0 then { b with gen := BitVec.ofNat 16 gen } else b

/-- A part is of the generation in progress, or the first of its own. -/
theorem named_gen {b : Barrier} (hg : gen < 65536) : (b.named gen).gen.toNat = gen ↔ b.arrivals = 0 ∨ b.gen.toNat = gen := by
  unfold Barrier.named
  split
  next h => simp [h, Nat.mod_eq_of_lt hg]
  next h => simp [h]

theorem named_eq {b : Barrier} (h : b.arrivals = 0 ∨ b.gen.toNat = gen) : b.named gen = { b with gen := BitVec.ofNat 16 gen } := by
  unfold Barrier.named
  split
  next => rfl
  next hne =>
    obtain rfl := h.resolve_left hne
    rw [BitVec.ofNat_toNat, BitVec.setWidth_eq]

/-- A completed count with nobody standing: the next generation starts, its need open. -/
theorem complete_nobody (b : Barrier) : { b.complete (fun _ => false) with need := 0 } =
    { b with gen := b.gen + 1#16, need := 0, arrivals := 0, pending := [], standing := [] } := by
  have hnone : b.standing.filter (fun _ => false) = [] := List.filter_eq_nil_iff.2 fun _ _ => Bool.false_ne_true
  simp only [Barrier.complete, hnone, List.map_nil, List.filter_nil, List.append_nil]

/-- What a coordinator leaves of a count of parts: kept, or, complete, released to each of them. -/
def State.partCounted (s : State) (p l k pbg gen : Nat) (b : Barrier) : State :=
  let key := barKey (l + 2) (pbgKey p pbg) k
  if !b.full 0 then (s.planeTake p 14).putWide key b
  else b.pending.foldl (fun s q => s.tellPeer p q 14 (partBytes 2 l k pbg gen)) ((s.planeTake p 14).putWide key { b.complete (fun _ => false) with need := 0 })

theorem partCounted_incomplete {b : Barrier} (h : b.full 0 = false) :
    s.partCounted p l k pbg gen b = (s.planeTake p 14).putWide (barKey (l + 2) (pbgKey p pbg) k) b := by
  rw [State.partCounted, h]
  rfl

theorem partCounted_complete {b : Barrier} (h : b.full 0 = true) : s.partCounted p l k pbg gen b =
    b.pending.foldl (fun s q => s.tellPeer p q 14 (partBytes 2 l k pbg gen)) ((s.planeTake p 14).putWide (barKey (l + 2) (pbgKey p pbg) k)
      { b with gen := b.gen + 1#16, need := 0, arrivals := 0, pending := [], standing := [] }) := by
  rw [State.partCounted, h, complete_nobody]
  rfl

/-- The count of parts is complete when its own need is met: no parties of the coordinator itself stand for a need of 0. -/
theorem full_parts (b : Barrier) (party count : Nat) :
    (arrived b party count).full 0 = decide ((arrived b party count).need ≤ (arrived b party count).arrivals) := by
  rw [full_arrived, Barrier.needed]
  split
  next h => rw [h]
  next => rfl

/-- What a coordinator makes of a part that it takes: another's, or one of another generation, is dropped. -/
def State.partTaken (s : State) (p src kind l k pbg gen : Nat) : State :=
  let b := (s.wideBar (barKey (l + 2) (pbgKey p pbg) k)).named gen
  if kind ≠ 1 ∨ !s.partOf l p src ∨ s.coordinator l p ≠ (Config.wallId.toNat, p) ∨ b.gen.toNat ≠ gen then s.planeTake p 14
  else s.partCounted p l k pbg gen (b.arrive src (s.partsNeeded l p))

theorem exec_barrierPartArrival (hhead : s.partHead p = some (src, kind, l, k, pbg, gen)) (hk : kind ≠ 2) :
    exec (.barrierPartArrival l p pbg k src) s = .next (s.partTaken p src kind l k pbg gen) := by
  change execBarrierPartArrival l p pbg k src s = _
  refine congrArg Host.Outcome.next ?_
  split
  next h => rw [hhead] at h; cases h
  next h => rw [hhead] at h; cases h; exact absurd rfl hk
  next h =>
    rw [hhead] at h
    cases h
    exact if_neg (not_not.2 rfl)

/-- The test of a part: of this coordinator, from one of its parties, of the generation in progress or the first of its own. -/
abbrev State.partMine (s : State) (p src kind l k pbg gen : Nat) : Prop :=
  kind = 1 ∧ s.partOf l p src = true ∧ s.coordinator l p = (Config.wallId.toNat, p) ∧
    ((s.wideBar (barKey (l + 2) (pbgKey p pbg) k)).arrivals = 0 ∨ (s.wideBar (barKey (l + 2) (pbgKey p pbg) k)).gen.toNat = gen)

theorem partTest_iff (hg : gen < 65536) : (kind ≠ 1 ∨ !s.partOf l p src ∨ s.coordinator l p ≠ (Config.wallId.toNat, p) ∨
    ((s.wideBar (barKey (l + 2) (pbgKey p pbg) k)).named gen).gen.toNat ≠ gen) ↔ ¬ s.partMine p src kind l k pbg gen := by
  rw [State.partMine, ← named_gen hg]
  simp only [not_and_or, Bool.not_eq_true', Bool.not_eq_true, ne_eq]

theorem partTaken_other (hg : gen < 65536) (h : ¬ s.partMine p src kind l k pbg gen) : s.partTaken p src kind l k pbg gen = s.planeTake p 14 :=
  if_pos ((partTest_iff hg).2 h)

theorem partTaken_mine {b : Barrier} (hb : s.wideBar (barKey (l + 2) (pbgKey p pbg) k) = b) (hg : gen < 65536) (h : s.partMine p src kind l k pbg gen)
    (hnew : src ∉ b.pending) :
    s.partTaken p src kind l k pbg gen = s.partCounted p l k pbg gen (arrived { b with gen := BitVec.ofNat 16 gen } src (s.partsNeeded l p)) := by
  obtain ⟨-, -, -, hgen⟩ := id h
  rw [hb] at hgen
  have hpending : b.pending.contains src = false := by simpa using hnew
  refine (if_neg fun hno => (partTest_iff hg).1 hno h).trans ?_
  rw [hb, named_eq hgen]
  exact congrArg _ (arrive_first (b := { b with gen := BitVec.ofNat 16 gen }) hpending _)

/-- What package p makes of the coordinator's release, as it reads its own barrier (R437). -/
def State.releaseTaken (s : State) (p src l k pbg gen : Nat) : State :=
  let key := barKey l (pbgKey p pbg) k
  let b := s.wideBar key
  let co := s.coordinator l p
  if (decide (l = 3) || decide (l = 4)) && decide (src = 16 * co.1 + co.2) && decide (b.gen.toNat = gen) && decide (b.need ≠ 0 ∧ b.arrivals ≠ 0) then
    (s.planeTake p 14).putWide key { b.complete s.stands with unreleased := [] }
  else s.planeTake p 14

theorem exec_barrierReleaseMessage (hhead : s.partHead p = some (src, 2, l, k, pbg, gen)) :
    exec (.barrierReleaseMessage l p pbg k) s = .next (s.releaseTaken p src l k pbg gen) := by
  change execBarrierReleaseMessage l p pbg k s = _
  refine congrArg Host.Outcome.next ?_
  rw [hhead]
  exact if_neg (not_not.2 rfl)

end

/-- The part of O51 about the coordinator. -/
theorem barrierMessagesComplete : BarrierMessagesComplete := by
  refine ⟨fun s p src kind l k pbg gen hhead hk hg => ?_, fun s p src l k pbg gen hhead => ?_⟩
  · rw [exec_barrierPartArrival hhead hk]
    refine ⟨fun hother => ?_, fun hmine hnew hlt => ?_, fun hmine hnew hle => ?_⟩
    · rw [partTaken_other hg hother]
    · rw [partTaken_mine rfl hg hmine hnew, partCounted_incomplete (by rw [full_parts]; exact decide_eq_false (Nat.not_le.2 hlt))]
    · rw [partTaken_mine rfl hg hmine hnew, partCounted_complete (by rw [full_parts]; exact decide_eq_true hle)]
  · rw [exec_barrierReleaseMessage hhead, State.releaseTaken]
    simp only [Bool.and_eq_true, Bool.or_eq_true, decide_eq_true_eq, and_assoc]
    exact ⟨fun hdue => by rw [if_pos hdue], fun hnot => by rw [if_neg hnot]⟩

/-- Settles O51. -/
theorem barrierEventsComplete : Obligations.BarrierEventsComplete := ⟨barrierAndProbeEventsComplete, barrierMessagesComplete⟩

end Sys2Proof.Machine

/-! # Fault records, RESUME, errors and migrated lines (R199, R333-R337, R340, R344, R345) -/

namespace Sys2Proof.Machine

open Sys2Proof Sys2Proof.Spec

/-! ## A fault record written to its ring (R334) -/

section
variable {s : State} {d base ctl size ring head room n : Nat} {r : FaultRec} {rest : List FaultRec}

theorem exec_faultRecordWrite_disabled (hctl : s.reg (d / 8) (memBase (d % 8) + 0x14) = ctl) (hfaults : (s.die d).faults = r :: rest)
    (hoff : ctl.testBit 0 = false) : exec (.faultRecordWrite d) s = .next s := by
  subst hctl
  change execFaultRecordWrite d s = _
  simp only [execFaultRecordWrite, hfaults, hoff, Bool.not_false, ↓reduceIte]

variable (hbase : memBase (d % 8) = base) (hctl : s.reg (d / 8) (base + 0x14) = ctl) (hsize : 2 ^ (s.reg (d / 8) (base + 8)) = size)
  (hhead : s.reg (d / 8) (base + 0xC) % size = head) (hroom : (s.reg (d / 8) (base + 0x10) + 2 * size - head - 1) % size = room)
  (hn : r.bytes.length / 32 = n) (hfaults : (s.die d).faults = r :: rest) (hon : ctl.testBit 0 = true) (hleft : n ≤ size - head)
include hbase hctl hsize hhead hroom hn hfaults hon hleft

/-- Without room for the record the ring's OVF is set, and the record waits. -/
theorem exec_faultRecordWrite_overflows (hfull : room < n) : exec (.faultRecordWrite d) s = .next (s.orReg (d / 8) (base + 0x14) (2 ^ 31)) := by
  subst hbase hctl hsize hhead hroom hn
  change execFaultRecordWrite d s = _
  simp only [execFaultRecordWrite, hfaults, hon, Nat.not_lt.2 hleft, hfull, Bool.not_true, Bool.false_eq_true, ↓reduceIte]

/-- With room, and no copy of its lines elsewhere, the record is written, and no interrupt follows that is not asked for. -/
theorem exec_faultRecordWrite_writes (hring : s.reg (d / 8) base + 2 ^ 32 * s.reg (d / 8) (base + 4) = ring) (hfits : n ≤ room)
    (hshared : s.ringShared ring size head n = none) (h1 : ctl.testBit 1 = false) (h3 : ctl.testBit 3 = false) (h4 : ctl.testBit 4 = false) :
    exec (.faultRecordWrite d) s = .next (((ringPut s ring size head r.bytes).setReg (d / 8) (base + 0xC) ((head + n) % size)).modDie d
      fun x => { x with faults := rest }) := by
  subst hbase hctl hsize hhead hroom hn hring
  change execFaultRecordWrite d s = _
  simp only [execFaultRecordWrite, hfaults, hon, Nat.not_lt.2 hleft, Nat.not_lt.2 hfits, hshared, h1, h3, h4, Bool.not_true, Bool.false_eq_true, ↓reduceIte]
  rfl

end

/-! ## RESUME (R335) -/

/-- A value changed by its key, as a look-up finds it. -/
theorem find_map_key {α : Type} (m : SMap α) (g : Nat × α → Nat × α) (f : Nat → α → α) (hg : ∀ kv, g kv = (kv.1, f kv.1 kv.2)) (x : Nat) :
    SMap.find? (m.map g) x = (SMap.find? m x).map (f x) := by
  induction m with
  | nil => rfl
  | cons kv m ih =>
    rw [List.map_cons, hg]
    by_cases h : x = kv.1
    · subst h; simp [SMap.find?]
    · simp [SMap.find?, h, ih]

/-- Whether a team is on a die. -/
def State.onDie (s : State) (die h : Nat) : Bool := match s.team? h with | some x => decide (dieOfCore x.core = die) | none => false

theorem course_resumeToken (s : State) (die tok k : Nat) :
    (s.resumeToken die tok).course? k = (s.course? k).map fun c => if s.onDie die (k / 16) then c.resume tok else c := by
  refine find_map_key s.courses _ (fun k c => if s.onDie die (k / 16) then c.resume tok else c) (fun kc => ?_) k
  change (if s.onDie die (kc.1 / 16) then (kc.1, kc.2.resume tok) else kc) = _
  split <;> rfl

/-- The slot that holds the token is released where it stands (R168). -/
theorem resume_header {c : Course} {tok : Nat} (h : c.header.parked = some tok) :
    (c.resume tok).header.parked = none ∧ (c.resume tok).header.pc = c.header.pc ∧ (c.resume tok).lanes = c.lanes := by
  rw [Course.resume, if_pos (.inl h), Slot.unpark, if_pos h]
  exact ⟨rfl, rfl, rfl⟩

/-! ## Poisoned registers and words (R199) -/

theorem getLsbD_or_bit {n : Nat} (x : BitVec n) {k : Nat} (hk : k < n) : (x ||| BitVec.ofNat n (2 ^ k)).getLsbD k = true := by
  simp only [BitVec.getLsbD_or, BitVec.getLsbD_ofNat, Nat.testBit_two_pow, hk, decide_true, Bool.true_and, Bool.or_true]

theorem isPoisoned_poisonLane (c : Course) {l r : Nat} (hl : l < 32) (hr : r < 32) :
    (c.poisonLane l fun x => x.poisonNamed r).isPoisoned false (16 + r) l = true := by
  have hlane : (c.poisonLane l fun x => x.poisonNamed r).lane l = (c.lane l).poisonNamed r := by
    rw [Course.poisonLane, lane_mapLanes _ _ hl, if_pos rfl]
  have hbit : ((c.lane l).poisonNamed r).nPoison.getLsbD r = true := getLsbD_or_bit _ hr
  rw [Course.isPoisoned, if_neg (by omega), if_pos (by omega), Nat.add_sub_cancel_left, hlane]
  exact Bool.or_eq_true_iff.2 (.inl hbit)

theorem lane_poisonLane_other (c : Course) (f : Lane → Lane) {l m : Nat} (hm : m < 32) (h : m ≠ l) : (c.poisonLane l f).lane m = c.lane m := by
  rw [Course.poisonLane, lane_mapLanes _ _ hm, if_neg h]

/-- A scratchpad word that an error strikes is poisoned. -/
def Team.poisonWord (t : Team) (x : Nat) : Team := if 4 * x < t.spSize then { t with spPoison := SMap.put t.spPoison x true } else t

theorem spPoisoned_poisonWord {t : Team} {x : Nat} (h : 4 * x < t.spSize) : (t.poisonWord x).spPoisoned (4 * x) 4 = true := by
  have hword : 4 * x / 4 = x := Nat.mul_div_cancel_left x (by decide)
  refine List.any_eq_true.2 ⟨0, List.mem_range.2 (Nat.succ_pos _), ?_⟩
  rw [hword, Nat.add_zero, Team.poisonWord, if_pos h, find_put_same]
  rfl

/-! ## A migrated line (R337) -/

theorem length_memBytes (m : Memory) (a n : Nat) : (m.bytes a n).length = n := by
  induction n generalizing a with
  | zero => rfl
  | succ n ih => rw [Memory.bytes, List.length_cons, ih]

theorem getElem_memBytes (m : Memory) (a n i : Nat) (h : i < (m.bytes a n).length) : (m.bytes a n)[i] = m.byte (a + i) := by
  induction n generalizing a i with
  | zero => exact absurd h (Nat.not_lt_zero i)
  | succ n ih =>
    cases i with
    | zero => rfl
    | succ i =>
      have hnext : a + (i + 1) = a + 1 + i := by omega
      rw [hnext]
      exact ih (a + 1) i (Nat.lt_of_succ_lt_succ h)

/-- Stored bytes read back. -/
theorem bytes_setBytes {m : Memory} (hm : Memory.wf m = true) (a : Nat) {bs : List Byte} {n : Nat} (hn : bs.length = n) : (m.setBytes a bs).bytes a n = bs := by
  refine List.ext_getElem ((length_memBytes ..).trans hn.symm) fun i _ hi => ?_
  rw [getElem_memBytes, byte_setBytes_same hm a i bs hi]

/-- A migration whose next line has been copied. -/
def Migration.lineMoved (m : Migration) (poi : Bool) : Migration := { m with moved := m.moved + 1, poisoned := m.poisoned || poi }

theorem getElem?_zipIdx_map {α : Type} (f : α → α) (xs : List α) (i : Nat) {x : α} (h : xs[i]? = some x) :
    (xs.zipIdx.map fun y => if y.2 = i then f y.1 else y.1)[i]? = some (f x) := by
  simp [h]

/-- The next line of a migration, held by nobody else, moves with its bytes and its poison. -/
theorem exec_migrationLineCopy {s : State} {d i : Nat} {m : Migration} (hm : (s.die d).migrations[i]? = some m) (hdone : m.done = false)
    (hlines : 128 * m.moved < m.size) (hversion : s.versionHolds (lineOf (m.old + 128 * m.moved)) = false) (hunshared : s.unshared (m.old + 128 * m.moved) = true) :
    ∃ u, exec (.migrationLineCopy d i) s = .next u ∧ u.mem = s.mem.setBytes (m.new + 128 * m.moved) (s.ownBytesAt (m.old + 128 * m.moved) 128) ∧
      (u.die d).migrations[i]? = some (m.lineMoved (SMap.getD s.dir DirLine.init (lineOf (m.old + 128 * m.moved))).poi) := by
  change ∃ u, execMigrationLineCopy d i s = .next u ∧ _
  simp only [execMigrationLineCopy, hm, hdone, decide_eq_false (Nat.not_le.2 hlines), hversion, hunshared, Bool.or_self, Bool.not_true, Bool.false_eq_true,
    ↓reduceIte]
  refine ⟨_, rfl, ?_, ?_⟩
  · rw [modDie_mem]
    simp only [mem_writeBack, mem_touch]
  · have hsame : ((s.touch (m.new + 128 * m.moved)).writeBack (m.old + 128 * m.moved)).die d = s.die d :=
      congrArg (SMap.getD · Die.init d) (dies_touch ..)
    have hlist := getElem?_zipIdx_map (·.lineMoved (SMap.getD s.dir DirLine.init (lineOf (m.old + 128 * m.moved))).poi) (s.die d).migrations i hm
    rw [← hsame] at hlist
    rw [die_modDie_same]
    exact hlist

/-- Settles O49. -/
theorem faultAndErrorEventsComplete : Obligations.FaultAndErrorEventsComplete := by
  refine ⟨fun s d r rest hfaults => ?_, fun s d tok k c t hk ht hd hp => ?_, fun s x hx => ?_, fun s k l r c hk hl hr => ?_, fun s k r c hk hr => ?_,
    fun s h x t ht hx => ?_, fun s pa => ⟨rfl, rfl⟩, fun s d => rfl, fun s d n w v hn hw => ?_, fun s d i m hm hdone hlines hwf hversion hunshared => ?_⟩
  · exact ⟨fun hon hleft hfits hshared => exec_faultRecordWrite_writes rfl rfl rfl rfl rfl rfl hfaults hon hleft rfl hfits hshared,
      fun hon hleft => exec_faultRecordWrite_overflows rfl rfl rfl rfl rfl rfl hfaults hon hleft, exec_faultRecordWrite_disabled rfl hfaults⟩
  · have hdie : s.onDie d (k / 16) = true := by simp only [State.onDie, ht, hd, decide_true]
    obtain ⟨hparked, hpc, hlanes⟩ := resume_header hp
    refine ⟨s.resumeToken d tok, c.resume tok, rfl, ?_, hparked, hpc, hlanes, rfl⟩
    rw [course_resumeToken, hk, Option.map_some, hdie]
    rfl
  · exact congrArg Host.Outcome.next (if_pos (.inl hx))
  · refine ⟨s.modCourse k fun c => c.poisonLane l fun x => x.poisonNamed r, c.poisonLane l fun x => x.poisonNamed r, rfl, ?_, isPoisoned_poisonLane c hl hr,
      sc_mapLanes .., fun m hm hne => lane_poisonLane_other c _ hm hne⟩
    rw [course_modCourse_same, hk]
    rfl
  · refine ⟨s.modCourse k fun c => { c with sc := c.sc.poison r }, { c with sc := c.sc.poison r }, rfl, ?_, getLsbD_or_bit _ hr, rfl⟩
    rw [course_modCourse_same, hk]
    rfl
  · refine ⟨s.modTeam h fun t => t.poisonWord x, t.poisonWord x, rfl, ?_, spPoisoned_poisonWord hx⟩
    rw [team_modTeam_same, ht]
    rfl
  · have hin : (Config.secMode (d / 8) ∧ n < 256 ∧ w < 4) ↔ Config.secMode (d / 8) := and_iff_left ⟨hn, hw⟩
    change execRegionEntryWrite d n w v s = _
    simp only [execRegionEntryWrite, hin]
  · obtain ⟨u, hx, hmem, hnext⟩ := exec_migrationLineCopy hm hdone hlines hversion hunshared
    have hlength : (s.ownBytesAt (m.old + 128 * m.moved) 128).length = 128 := by rw [State.ownBytesAt, List.length_map, List.length_range]
    refine ⟨u, hx, ?_, fun x hout => ?_, _, hnext, rfl, rfl⟩
    · rw [hmem, bytes_setBytes hwf _ hlength]
    · rw [hmem, byte_setBytes_other _ _ (by rw [hlength]; exact hout)]

end Sys2Proof.Machine

/-! # Copies enter their queue, or trap COPYERR (R201, R203, R204) -/

namespace Sys2Proof.Machine

open Sys2Proof Sys2Proof.Spec

/-! ## The registers a CPYR empties (R211) -/

theorem fe_empty (x : Lane) (r : Nat) {n : Nat} (hn : n < 32) : (x.empty r).fe.getLsbD n = (x.fe.getLsbD n && !decide (n = r)) := by
  simp only [Lane.empty, BitVec.getLsbD_and, BitVec.getLsbD_not, BitVec.getLsbD_ofNat, Nat.testBit_two_pow, hn, decide_true, Bool.true_and, eq_comm]

/-- A run of registers of a lane set empty. -/
def Lane.emptyRun (x : Lane) (lo n : Nat) : Lane := (List.range n).foldl (fun l j => l.empty (lo + j)) x

theorem fe_emptyRun (x : Lane) {lo m n : Nat} (hn : n < 32) (hlo : lo ≤ n) (hhi : n < lo + m) : (x.emptyRun lo m).fe.getLsbD n = false := by
  induction m with
  | zero => omega
  | succ m ih =>
    rw [Lane.emptyRun, List.range_succ, List.foldl_append, List.foldl_cons, List.foldl_nil, fe_empty _ _ hn]
    by_cases h : n = lo + m
    · simp [h]
    · have hempty := ih (by omega)
      rw [Lane.emptyRun] at hempty
      rw [hempty, Bool.false_and]

/-! ## A copy at its issue -/

/-- What a copy's rule fixes at its issue. -/
def issuedCopy (s : State) (k : Nat) (c : Course) (t : Team) (op b f : Nat) (d : Vector Word 8) : Copy :=
  { op := op, flags := f, team := k / 16, cid := c.cid, core := t.core, xlat := t.xlat, tid := t.tid, cntBase := t.launch.cntBase,
    into := if t.version.isSome then .version else .memory, desc := d, arrival := BitVec.ofNat 32 (c.sc.src false b), rm := bitsOf c.mode.toNat 10 8,
    sat := c.mode.getLsbD 11, seed := c.srSeedO, phase := if op = opCpyw ∨ op = opCpyx then .waiting else .moving, done := [], remote := [],
    cache := [], taken := [], takenPoison := [], failed := none, token := none, acked := 0, sent := 0, step := s.stepOf t.core,
    bar := if op = opCpyx then some (dFmt d) else none, since := (s.pkg (pkgOfCore t.core)).time }

/-- A copy as it enters the queue: a CPYX whose barrier does not take it has failed (R428). -/
def State.entering (s : State) (x : Copy) : Copy := if x.op = opCpyx ∧ !s.barTakes x then { x with failed := some (BitVec.ofNat 64 (dSrc x.desc)) } else x

theorem entering_eq (s : State) (x : Copy) : ∃ failed, (x.op ≠ opCpyx → failed = x.failed) ∧ s.entering x = { x with failed := failed } := by
  unfold State.entering
  split
  next hbar => exact ⟨_, absurd hbar.1, rfl⟩
  next => exact ⟨_, fun _ => rfl, rfl⟩

/-- The issuing course with its seed moved on by the copy's groups (R212). -/
def Copy.movesSeed (x : Copy) (c : Course) : Course := { c with srSeedO := BitVec.ofNat 32 (srAfter (srGroups x.op x.rm x.desc) c.srSeedO.toNat) }

/-- A course j as a CPYR leaves it at its issue: if it is named and live, its registers are empty in every lane (R211). -/
def Copy.emptiesIn (x : Copy) (j : Nat) (c : Course) : Course :=
  if j / 16 = x.team && x.desc[2].getLsbD (j % 16) && decide (c.life = .live) then
    c.mapLanes fun _ l => l.emptyRun (bitsOf x.desc[2].toNat 20 16) (dRows x.desc)
  else c

/-- The state with a copy of course k in the queue. -/
def State.queueCopy (s : State) (k : Nat) (x : Copy) : State :=
  let u := (({ s with copies := SMap.put s.copies s.fresh (s.entering x) } : State).tick).modCourse k x.movesSeed
  if x.op = opCpyr then
    { u with courses := u.courses.map fun (kc : Nat × Course) =>
        if kc.1 / 16 = x.team && x.desc[2].getLsbD (kc.1 % 16) && decide (kc.2.life = .live) then
          (kc.1, kc.2.mapLanes fun _ l => l.emptyRun (bitsOf x.desc[2].toNat 20 16) (dRows x.desc))
        else kc }
  else u

theorem queueCopy_frame (s : State) (k : Nat) (x : Copy) :
    s.queueCopy k x = { s with copies := SMap.put s.copies s.fresh (s.entering x), fresh := s.fresh + 1, courses := (s.queueCopy k x).courses } := by
  unfold State.queueCopy
  dsimp only
  split <;> rfl

theorem course_queueCopy (s : State) {k : Nat} {x : Copy} (h : x.op ≠ opCpyr) : (s.queueCopy k x).course? k = (s.course? k).map x.movesSeed := by
  rw [State.queueCopy, if_neg h]
  exact course_modCourse_same ..

theorem course_queueCopy_cpyr (s : State) (k : Nat) {x : Copy} (h : x.op = opCpyr) (j : Nat) :
    (s.queueCopy k x).course? j = ((s.course? j).map fun c => if j = k then x.movesSeed c else c).map (x.emptiesIn j) := by
  rw [State.queueCopy, if_pos h]
  refine (find_map_key _ _ x.emptiesIn (fun kc => ?_) j).trans (congrArg _ ?_)
  · unfold Copy.emptiesIn
    split <;> rfl
  · by_cases hj : j = k
    · subst hj
      simp only [↓reduceIte]
      exact course_modCourse_same ..
    · simp only [hj, ↓reduceIte, Option.map_id']
      exact course_modCourse_other _ _ hj

theorem emptiesIn_keeps (x : Copy) (j : Nat) (c : Course) : (x.emptiesIn j c).sc = c.sc ∧ ∀ b, (x.emptiesIn j c).slot b = c.slot b := by
  unfold Copy.emptiesIn
  split
  · exact ⟨sc_mapLanes .., slot_mapLanes c _⟩
  · exact ⟨rfl, fun _ => rfl⟩

/-- What the issuing course keeps while its copy is queued. -/
theorem course_queueCopy_self {s : State} {k : Nat} {c : Course} (hc : s.course? k = some c) (x : Copy) :
    ∃ y, (s.queueCopy k x).course? k = some y ∧ y.sc = c.sc ∧ (∀ b, y.slot b = c.slot b) ∧ (x.op ≠ opCpyr → y.lanes = c.lanes) := by
  by_cases h : x.op = opCpyr
  · obtain ⟨hsc, hslot⟩ := emptiesIn_keeps x k (x.movesSeed c)
    refine ⟨_, by rw [course_queueCopy_cpyr s k h, hc, Option.map_some, if_pos rfl, Option.map_some], hsc, hslot, absurd h⟩
  · exact ⟨x.movesSeed c, by rw [course_queueCopy s h, hc, Option.map_some], rfl, fun b => by cases b <;> rfl, fun _ => rfl⟩

/-- R211: a named course that is live has the copy's registers empty in every lane. -/
theorem course_queueCopy_named {s : State} {j : Nat} {c : Course} (hc : s.course? j = some c) (hl : c.life = .live) (k : Nat) {x : Copy}
    (hop : x.op = opCpyr) (ht : j / 16 = x.team) (hd : x.desc[2].getLsbD (j % 16) = true) :
    ∃ y, (s.queueCopy k x).course? j = some y ∧ ∀ l, l < 32 → ∀ n, bitsOf x.desc[2].toNat 20 16 ≤ n →
      n < bitsOf x.desc[2].toNat 20 16 + dRows x.desc → n < 32 → (y.lane l).fe.getLsbD n = false := by
  refine ⟨_, by rw [course_queueCopy_cpyr s k hop, hc, Option.map_some, Option.map_some], fun l hlane n hlo hhi hn => ?_⟩
  have hlive : (if j = k then x.movesSeed c else c).life = .live := by split <;> exact hl
  simp only [Copy.emptiesIn, ht, hd, hlive, decide_true, Bool.and_self, ↓reduceIte]
  rw [lane_mapLanes _ _ hlane]
  exact fe_emptyRun _ hn hlo hhi

/-! ## The seven copies are one operation -/

section
variable {s : State} {k : Nat} {str : Bool} {c : Course} {t : Team} {i : Instr} {w : Word} {op a b f : Nat}

theorem exec_copy (h : copyRow i = some (op, a, b, f)) : exec i s = s.runWord i (s.copyOp op a b f) := by
  cases i
  case cpy | cpyt | cpyw | cpyo | cpyr | cpyx | cpyq => cases h; rfl
  all_goals exact nomatch h

theorem copyReason_misaligned (h : Nat) (t : Team) {d : Vector Word 8} (hd : d[0].toNat % 16 ≠ 0 ∨ dRows d = 0 ∨ dRb d % 16 ≠ 0) :
    s.copyReason h t op f d = some 1 := by
  have hsrc : d[0].toNat % 16 ≠ 0 → dSrc d % 16 ≠ 0 := by rw [dSrc]; omega
  exact if_pos (by tauto)

section
variable (hR : Runs s k str c t) (hc : Clean s (((List.range 8).map fun n => (a + n, false)) ++ [(b, false)]))
include hR hc

theorem copyOp_refused {r : Nat} (hr : s.copyReason (k / 16) t op f (descriptor c a) = some r) :
    s.copyOp op a b f = .trap .copyErr r 0 (dSlot (descriptor c a)) := by
  rw [descriptor] at hr
  simp only [State.copyOp, runs_asCourse hR, hR.2.2.1, clean_checks hR hc, hr]
  rfl

theorem copyOp_full (hr : s.copyReason (k / 16) t op f (descriptor c a) = none) (hv : t.version = none) (hn : 32 ≤ s.copyCount t.core) :
    s.copyOp op a b f = .wait := by
  rw [descriptor] at hr
  simp only [State.copyOp, runs_asCourse hR, hR.2.2.1, clean_checks hR hc, hr, hv, hn]
  simp

theorem copyOp_queues (hr : s.copyReason (k / 16) t op f (descriptor c a) = none) (hv : t.version = none) (hn : s.copyCount t.core < 32)
    (ha : c.alwLow = 0#32) : s.copyOp op a b f = .done (s.queueCopy k (issuedCopy s k c t op b f (descriptor c a))) := by
  rw [descriptor] at hr
  have hallow : s.copyAllowed c t op f (Vector.ofFn fun i => c.sc.reg (a + i.val)) = true := by simp [State.copyAllowed, ha]
  have hroom : ¬ 32 ≤ s.copyCount t.core := Nat.not_le.2 hn
  have hban : ¬ (op = opCpyx ∧ t.version.isSome = true) := fun h => by simp [hv] at h
  simp only [State.copyOp, runs_asCourse hR, hR.2.2.1, clean_checks hR hc, hr, hban, hroom, hallow, ↓reduceIte, decide_false, Bool.not_true, Bool.or_self,
    Bool.false_eq_true]
  rfl
end

/-- A word that completes leaves the lanes of every course as its rule left them. -/
theorem lanes_finished {u : State} (hcur : u.cur = .course k str) (ht : u.team? (k / 16) = some t) {j : Nat} {y : Course} (hy : u.course? j = some y) :
    ∃ z, (finished s u w).course? j = some z ∧ ∀ l, z.lane l = y.lane l := by
  by_cases hj : j = k
  · subst hj
    obtain ⟨n, b, h⟩ := finished_course (s := s) hcur ht hy w
    exact ⟨_, h, fun l => by rw [lane_onNext, lane_charged]⟩
  · obtain ⟨q, n, b, h⟩ := finished_of_course (s := s) hcur ht w
    exact ⟨y, by rw [h, course_modCourse_other _ _ hj, course_modCourse_other _ _ hj]; exact hy, fun _ => rfl⟩
end

theorem copiesEnterTheQueue : CopiesEnterTheQueue := by
  intro s k str c t i w op a b f hR hw hrow hclean hreason hcount halw hv
  have ⟨hcur, hcourse, hteam, _⟩ := hR
  have hsrc : s.gsrc false b = c.sc.src false b := by simp only [State.gsrc, State.sc, State.scalar, hcur, hcourse]
  have hinto : (issuedCopy s k c t op b f (descriptor c a)).into = .memory := if_neg (by rw [hv]; exact Bool.false_ne_true)
  obtain ⟨failed, hfailed, hentering⟩ := entering_eq s (issuedCopy s k c t op b f (descriptor c a))
  have hexec : exec i s = .next (finished s (s.queueCopy k (issuedCopy s k c t op b f (descriptor c a))) w) := by
    rw [exec_copy hrow, copyOp_queues hR hclean hreason hv hcount halw]
    exact runWord_done (runs_curRuns hR) hw.1 hw.2
  generalize hu : s.queueCopy k (issuedCopy s k c t op b f (descriptor c a)) = u at hexec
  have hframe := hu ▸ queueCopy_frame s k (issuedCopy s k c t op b f (descriptor c a))
  rw [hentering] at hframe
  have hcur' : u.cur = .course k str := by rw [hframe]; exact hcur
  have hteam' : u.team? (k / 16) = some t := by rw [hframe]; exact hteam
  obtain ⟨y, hy, hsc, hslot, hlanes⟩ := hu ▸ course_queueCopy_self hcourse (issuedCopy s k c t op b f (descriptor c a))
  obtain ⟨q, m, moved, hfin⟩ := finished_of_course (s := s) hcur' hteam' w
  have hself : (finished s u w).course? k = some ((y.charged str m moved).onNext str) := by simp [hfin, hy]
  have hcopies : (finished s u w).copies = u.copies := by rw [hfin]; rfl
  have hfresh : (finished s u w).fresh = s.fresh + 1 := by rw [hfin, hframe]; rfl
  have hmem : (finished s u w).mem = s.mem := by rw [hfin, hframe]; rfl
  have hdev : (finished s u w).dev = s.dev := by rw [hfin, hframe]; rfl
  refine ⟨_, { issuedCopy s k c t op b f (descriptor c a) with failed := failed }, _, hexec, ?queued, hfresh, rfl, rfl, rfl, rfl, rfl, by rw [hsrc]; rfl, rfl, rfl, rfl,
    rfl, rfl, hinto, rfl, hfailed, rfl, rfl, fun j hj => ?others, hmem, hdev, hself, ?scalars, ?pc, fun h => ?lanes, fun h j z hz hj hl hd => ?emptied⟩
  case queued => rw [hcopies, hframe]; exact find_put_same ..
  case others => rw [hcopies, hframe]; exact find_put_other _ _ hj
  case scalars => simp [Course.onNext, Course.charged, hsc]
  case pc => simp [Course.onNext, Course.charged, hslot]
  case lanes => simp [Course.onNext, Course.charged, hlanes h]
  case emptied =>
    obtain ⟨v, hv, hempty⟩ := course_queueCopy_named hz hl k (x := issuedCopy s k c t op b f (descriptor c a)) h hj hd
    obtain ⟨v', hv', hsame⟩ := lanes_finished (s := s) (w := w) hcur' hteam' (hu ▸ hv)
    exact ⟨v', hv', fun l hlane => by rw [hsame]; exact hempty l hlane⟩

theorem refusedCopiesTrapCopyerr : RefusedCopiesTrapCopyerr := by
  intro s k str c t i w op a b f hR hw hrow hclean
  refine ⟨fun r hr => ?_, fun hbad => ?_, fun hr hv hn => ?_⟩
  · rw [exec_copy hrow, copyOp_refused hR hclean hr]
    exact runWord_trap (runs_curRuns hR) hw.1 hw.2
  · exact copyReason_misaligned _ _ hbad
  · rw [exec_copy hrow, copyOp_full hR hclean hr hv hn]
    exact runWord_wait (runs_curRuns hR) hw.1 hw.2

/-- Settles O37. -/
theorem copyInstructionsComplete : Obligations.CopyInstructionsComplete := ⟨copiesEnterTheQueue, refusedCopiesTrapCopyerr⟩

end Sys2Proof.Machine

/-! # Copies move, complete and fail (R205-R222, R345) -/

namespace Sys2Proof.Machine

open Sys2Proof Sys2Proof.Spec

/-! ## Sources read once (R217) -/

/-- The copy has at most read on: only its cache differs, and what it had read stands. -/
def Copy.ReadsOn (c c' : Copy) : Prop :=
  { c' with cache := c.cache } = c ∧ ∀ k bs, SMap.find? c.cache k = some bs → SMap.find? c'.cache k = some bs

theorem Copy.ReadsOn.refl (c : Copy) : c.ReadsOn c := ⟨rfl, fun _ _ h => h⟩

theorem Copy.ReadsOn.trans {a b c : Copy} (hab : a.ReadsOn b) (hbc : b.ReadsOn c) : a.ReadsOn c := by
  refine ⟨?_, fun k bs h => hbc.2 k bs (hab.2 k bs h)⟩
  calc { c with cache := a.cache } = { ({ c with cache := b.cache } : Copy) with cache := a.cache } := rfl
    _ = a := by rw [hbc.1, hab.1]

theorem readsOn_readSource (s : State) (c : Copy) (sp : Bool) (as : List Nat) : c.ReadsOn (s.readSource c sp as) := by
  induction as generalizing c with
  | nil => exact .refl c
  | cons a as ih =>
    refine Copy.ReadsOn.trans ?_ (ih _)
    dsimp only
    split
    · exact .refl c
    next hnew =>
    split
    · refine ⟨rfl, fun k bs hk => ?_⟩
      have hne : k ≠ a / 32 := by
        rintro rfl
        exact hnew (by rw [hk]; rfl)
      rw [← hk]
      exact find_put_other _ _ hne
    · exact .refl c

theorem readsOn_readChunk (s : State) (c : Copy) (ds : List (Option Nat)) : c.ReadsOn (s.readChunk c ds) := readsOn_readSource ..

/-! ## A chunk in the scratchpad (R216) -/

/-- One byte of a chunk taken, if the copy writes it. -/
def Team.takeByte (o : Nat) (t : Team) (b : Option Byte × Nat) : Team := match b.1 with | some x => t.spWrite (o + b.2) [x] | none => t

theorem writeChunk_clean (t : Team) (o : Nat) (bs : List (Option Byte)) : t.writeChunk o bs false = bs.zipIdx.foldl (Team.takeByte o) t := rfl

theorem spByte_takeBytes_before (o : Nat) (bs : List (Option Byte)) (t : Team) {m x : Nat} (h : x < o + m) :
    ((bs.zipIdx m).foldl (Team.takeByte o) t).spByte x = t.spByte x := by
  induction bs generalizing t m with
  | nil => rfl
  | cons b bs ih =>
    rw [List.zipIdx_cons, List.foldl_cons, ih _ (Nat.lt_succ_of_lt h)]
    cases b with
    | none => rfl
    | some y => exact spByte_spWrite_before t [y] h

theorem spByte_takeBytes (o : Nat) (bs : List (Option Byte)) {t : Team} (hs : SMap.sorted t.scratch = true) {m i : Nat} {y : Byte} (h : bs[i]? = some (some y)) :
    ((bs.zipIdx m).foldl (Team.takeByte o) t).spByte (o + m + i) = y := by
  induction bs generalizing t m i with
  | nil => exact nomatch h
  | cons b bs ih =>
    rw [List.zipIdx_cons, List.foldl_cons]
    cases i with
    | zero =>
      obtain rfl : b = some y := by simpa using h
      rw [spByte_takeBytes_before o bs _ (by omega)]
      exact spByte_spWrite hs (o + m) [y] (Nat.succ_pos 0)
    | succ i =>
      have hkept : SMap.sorted (Team.takeByte o t (b, m)).scratch = true := by
        cases b with
        | none => exact hs
        | some z => exact sorted_setD hs ..
      have hnext : o + m + (i + 1) = o + (m + 1) + i := by omega
      rw [hnext]
      exact ih hkept (by simpa using h)

/-! ## A unit written (R216) -/

section
variable {s : State} {n u : Nat} {c : Copy}

theorem exec_copyChunkWrite (hc : SMap.find? s.copies n = some c) (hm : c.phase = .moving) (hf : c.failed = none) (ht : c.token = none)
    (hd : c.done.contains u = false) (hu : c.units.contains u = true) : exec (.copyChunkWrite n u) s = .next
      (if c.op = opCpyw then s.weightPiece n u c else if c.op = opCpyr then s.registerRow n u c else if dstSp c.op c.flags then s.scratchChunk n u c
       else s.globalChunk n u c) := by
  change execCopyChunkWrite n u s = _
  simp only [execCopyChunkWrite, hc, hm, hf, ht, hd, hu]
  simp

theorem scratchChunk_writes {c' : Copy} {bs : List (Option Byte)} {poison : Bool} {h o m : Nat} {win : Bool} {t : Team}
    (hread : s.readChunk c (c.chunk u) = c') (hop : c.op ≠ opCpyq) (hv : s.chunkValue c' (c'.chunk u) = .inl (bs, poison)) (hu : u < 2 ^ 40)
    (ht : s.team? c'.team = some t) (hsp : s.spTarget c'.team t u 0 = .inl (h, o, m, win)) :
    s.scratchChunk n u c = (s.modTeam h fun t => t.writeChunk o bs poison).setCopy n (c'.mark u) := by
  have hop' : c'.op ≠ opCpyq := by
    rw [← hread]
    rwa [congrArg Copy.op (readsOn_readChunk s c (c.chunk u)).1]
  have hoff : u % 2 ^ 40 = u := Nat.mod_eq_of_lt hu
  unfold State.scratchChunk
  simp only [hoff, hread, hv, ht, hop', hsp, ↓reduceIte]

/-! ## A CPYW's slot is empty (R209) -/

theorem exec_cpywFillStart (hc : SMap.find? s.copies n = some c) (hop : c.op = opCpyw) (hp : c.phase = .waiting) {t : Team} (ht : s.team? c.team = some t)
    (hslot : fSlot c.flags < 8) (hempty : (t.slot (fSlot c.flags)).full = false)
    (hfirst : ∀ m x, (m, x) ∈ s.copies → m < n → x.team = c.team → x.op = opCpyw → fSlot x.flags = fSlot c.flags → x.phase ≠ .waiting ∧ x.phase ≠ .moving) :
    exec (.cpywFillStart n) s = .next (s.setCopy n { c with phase := .moving }) := by
  change execCpywFillStart n s = _
  have hnone : (List.any s.copies fun (kc : Nat × Copy) => decide (kc.1 < n) && decide (kc.2.team = c.team) && decide (kc.2.op = opCpyw) &&
      decide (fSlot kc.2.flags = fSlot c.flags) && (decide (kc.2.phase = .waiting) || decide (kc.2.phase = .moving))) = false := by
    refine List.any_eq_false.2 fun kc hmem hold => ?_
    simp only [Bool.and_eq_true, Bool.or_eq_true, decide_eq_true_eq] at hold
    obtain ⟨⟨⟨⟨hlt, hteam⟩, hcpyw⟩, hsame⟩, hphase⟩ := hold
    have := hfirst kc.1 kc.2 hmem hlt hteam hcpyw hsame
    tauto
  have hfull : t.slots[fSlot c.flags].full = false := by simpa [Team.slot, hslot] using hempty
  simp only [execCpywFillStart, hc, hnone, ht, hslot, hfull]
  simp [hop, hp]

/-! ## Completion (R214) -/

theorem exec_copyComplete_counter (hc : SMap.find? s.copies n = some c) (ht : c.token = none) (hp : c.phase = .updating 0) :
    exec (.copyComplete n) s = .next (s.copyCounter n c) := by
  change execCopyComplete n s = _
  simp [execCopyComplete, hc, ht, hp]

theorem exec_copyComplete_target (hc : SMap.find? s.copies n = some c) (ht : c.token = none) (hp : c.phase = .updating 1) :
    exec (.copyComplete n) s = .next (s.copyTarget n c) := by
  change execCopyComplete n s = _
  simp [execCopyComplete, hc, ht, hp]

theorem copyCounter_uncounted (h : fCE c.flags = false) : s.copyCounter n c = s.setCopy n { c with phase := .updating 1 } := by
  simp [State.copyCounter, h]

theorem sampleSource_frame (s : State) (core src v : Nat) :
    s.sampleSource core src v = { s with quads := (s.sampleSource core src v).quads, dies := (s.sampleSource core src v).dies } := by
  unfold State.sampleSource
  dsimp only
  split <;> split <;> rfl

/-- The state as a completed copy leaves it, before its target: out of the queue, its time sampled (R320). -/
def State.copyLeaves (s : State) (n : Nat) (c : Copy) : State :=
  ({ s with copies := SMap.del s.copies n } : State).sampleSource c.core 1 ((s.pkg (pkgOfCore c.core)).time - c.since)

theorem copyLeaves_frame (s : State) (n : Nat) (c : Copy) :
    s.copyLeaves n c = { s with copies := SMap.del s.copies n, quads := (s.copyLeaves n c).quads, dies := (s.copyLeaves n c).dies } := by
  rw [State.copyLeaves, sampleSource_frame]

theorem copyTarget_resident {t : Team} (ht : s.team? c.team = some t) (hr : t.residency = .resident) :
    s.copyTarget n c = if !fTE c.flags then s.copyLeaves n c
      else if dGen c.desc then (s.copyLeaves n c).setTeam c.team (t.genUpdate (dTgt c.desc) 0 (-(c.count : Int))).2
      else (s.copyLeaves n c).setTeam c.team (t.spWrite (dTgt c.desc) (bytesOf 4 c.arrival.toNat)) := by
  have hteam : (s.copyLeaves n c).team? c.team = some t := by rw [copyLeaves_frame]; exact ht
  rw [State.copyLeaves] at hteam
  simp [State.copyTarget, State.copyLeaves, hteam, hr]

theorem exec_copyComplete_leaves (hc : SMap.find? s.copies n = some c) (htok : c.token = none) (hp : c.phase = .updating 1) {t : Team}
    (ht : s.team? c.team = some t) (hr : t.residency = .resident) :
    ∃ u, exec (.copyComplete n) s = .next u ∧ u.copies = SMap.del s.copies n ∧ u.mem = s.mem ∧ u.courses = s.courses ∧
      (fTE c.flags = false → u.teams = s.teams) ∧
      (fTE c.flags = true → dGen c.desc = false → u.teams = SMap.put s.teams c.team (t.spWrite (dTgt c.desc) (bytesOf 4 c.arrival.toNat))) ∧
      (fTE c.flags = true → dGen c.desc = true → u.teams = SMap.put s.teams c.team (t.genUpdate (dTgt c.desc) 0 (-(c.count : Int))).2) := by
  rw [exec_copyComplete_target hc htok hp, copyTarget_resident ht hr, copyLeaves_frame]
  cases hte : fTE c.flags with
  | false => exact ⟨_, rfl, rfl, rfl, rfl, fun _ => rfl, nofun, nofun⟩
  | true =>
    cases hgen : dGen c.desc with
    | false => exact ⟨_, rfl, rfl, rfl, rfl, nofun, fun _ _ => rfl, fun _ => nofun⟩
    | true => exact ⟨_, rfl, rfl, rfl, rfl, nofun, fun _ => nofun, fun _ _ => rfl⟩

/-! ## The counter (R214, R345) -/

theorem natAt_of_mem {u : State} (hmem : u.mem = s.mem) (hdies : u.dies = s.dies) (pa m : Nat) : u.natAt pa m = s.natAt pa m := by
  simp only [State.natAt, State.bytesAt, State.byteAt, hmem, forward_of_dies hdies]

variable {pa leaf : Nat} (hce : fCE c.flags = true) (hsent : s.counterSent n = false)
  (htr : s.translate c.xlat (c.cntBase.toNat + 8 * dSlot c.desc) .atomic true = .ok pa leaf)
include hce hsent htr

theorem copyCounter_adds (hown : pa / 2 ^ 48 = pkgOfCore c.core) (hpoi : s.poisoned pa = false) (hun : s.unshared pa = true)
    (hplace : InPlace s pa (snapMark leaf)) (hkey : SameKey s pa (leafKey leaf)) :
    (s.copyCounter n c).mem = s.mem.setMasked pa ((bytesOf 8 ((s.natAt pa 8 + (if fCU c.flags then 1 else c.count)) % 2 ^ 64)).map some) ∧
      SMap.find? (s.copyCounter n c).copies n = some { c with phase := .updating 1 } := by
  obtain ⟨hfw, hmark⟩ := hplace
  have htag : s.keyLine pa (leafKey leaf) none = { s with dir := (s.tagLine pa (leafKey leaf)).dir } := tagLine_sameKey hkey
  have hnat : (s.keyLine pa (leafKey leaf) none).natAt pa 8 = s.natAt pa 8 := natAt_of_mem (by rw [htag]) (by rw [htag]) ..
  obtain ⟨u, hu, hstored⟩ := storedInPlace_performWrite hfw hkey
    ((bytesOf 8 ((s.natAt pa 8 + (if fCU c.flags then 1 else c.count)) % 2 ^ 64)).map some) (kind := 2) (by decide) c.core 3 0 0
  have hadds : s.copyCounter n c = u.setCopy n { c with phase := .updating 1 } := by
    simp only [State.copyCounter, hce, hsent, htr, hown, hpoi, hun, hmark, hnat, hu, ne_eq, not_true_eq_false, Bool.not_true, Bool.false_eq_true, ↓reduceIte]
  rw [hadds]
  exact ⟨hstored.mem, find_put_same ..⟩

theorem copyCounter_poisoned (hown : pa / 2 ^ 48 = pkgOfCore c.core) (hpoi : s.poisoned pa = true) :
    s.copyCounter n c = (s.counterRecord c .softErr).setCopy n { c with phase := .updating 1 } := by
  simp only [State.copyCounter, hce, hsent, htr, hown, hpoi, ne_eq, not_true_eq_false, Bool.not_true, Bool.false_eq_true, ↓reduceIte]

theorem copyCounter_sends (haway : pa / 2 ^ 48 ≠ pkgOfCore c.core) :
    ∃ g, s.copyCounter n c = s.send (.atom g) ∧ g.copy = some n ∧ g.pa = pa ∧ g.op = 0 ∧ g.et = .n64 ∧ g.size = 8 ∧ g.scope = 3 ∧
      g.lanes.map AtomLane.x = [if fCU c.flags then 1 else c.count] := by
  simp only [State.copyCounter, hce, hsent, htr, Bool.not_true, Bool.false_eq_true, ↓reduceIte, if_pos haway]
  exact ⟨_, rfl, rfl, rfl, rfl, rfl, rfl, rfl, rfl⟩
end

/-- Settles O53. -/
theorem copyEventsComplete : Obligations.CopyEventsComplete := by
  refine ⟨fun s n u c hc hm hf ht hd hu => ?_, fun s c sp as => readsOn_readSource s c sp as, fun t o bs i b hs h => ?_,
    fun s n c t hc hop hp ht hslot hempty hfirst => exec_cpywFillStart hc hop hp ht hslot hempty hfirst,
    fun s n c hc htok => ⟨exec_copyComplete_counter hc htok, fun hp hce => ?_, fun t hp ht hr => exec_copyComplete_leaves hc htok hp ht hr⟩,
    fun s n c pa leaf hc htok hp hce hsent htr => ?_⟩
  · rw [exec_copyChunkWrite hc hm hf ht hd hu]
    refine ⟨fun hop => congrArg _ (if_pos hop), fun hop => ?_, fun hw hr => ?_⟩
    · have hcpyr : c.op ≠ opCpyw := by rw [hop]; decide
      exact congrArg _ ((if_neg hcpyr).trans (if_pos hop))
    · rw [if_neg (show c.op ≠ opCpyw from hw), if_neg (show c.op ≠ opCpyr from hr)]
      refine ⟨fun bs poi h o m win t hsp hq hv hlt hteam htarget => ?_, fun hsp => ?_⟩
      · rw [if_pos hsp, scratchChunk_writes rfl hq hv hlt hteam htarget]
      · rw [hsp, if_neg Bool.false_ne_true]
  · rw [writeChunk_clean]
    exact spByte_takeBytes o bs hs h
  · rw [exec_copyComplete_counter hc htok hp, copyCounter_uncounted hce]
  · rw [exec_copyComplete_counter hc htok hp]
    refine ⟨fun hown hpoi hun hplace hkey => ⟨_, rfl, copyCounter_adds hce hsent htr hown hpoi hun hplace hkey⟩,
      fun hown hpoi => by rw [copyCounter_poisoned hce hsent htr hown hpoi], fun haway => ?_⟩
    obtain ⟨g, hsends, hcopy, hpa, hop, het, hsize, hscope, hlanes⟩ := copyCounter_sends hce hsent htr haway
    exact ⟨_, g, rfl, by rw [hsends]; exact flight_send .., hcopy, hpa, hop, het, hsize, hscope, hlanes, by rw [hsends]; rfl, by rw [hsends]; rfl⟩

end Sys2Proof.Machine

/-! # The sequencer and its control words (R223-R227, R235, R241-R245) -/

namespace Sys2Proof.Machine

open Sys2Proof Sys2Proof.Spec

/-! ## A sequencer's registers and batches (R223, R227) -/

/-- A narrow group source is a word. -/
theorem gsrc_narrow_lt (s : State) (a : Nat) : s.gsrc false a < 2 ^ 32 := scalarSrc_lt s.sc false a

theorem toNat_gsrc_narrow (s : State) (a : Nat) : (BitVec.ofNat 32 (s.gsrc false a)).toNat = s.gsrc false a :=
  BitVec.toNat_ofNat .. ▸ Nat.mod_eq_of_lt (gsrc_narrow_lt s a)

/-- A started sequencer holds the argument in m0 and 0 elsewhere (R226). -/
theorem reg_start (q : Seq) (entry arg : Word) {n : Nat} (hn : n < 16) : (q.start entry arg).reg n = if n = 0 then arg.toNat else 0 := by
  simp only [Seq.reg, Seq.start, hn, ↓reduceDIte, Vector.getElem_ofFn]
  split <;> rfl

/-- R227's test of a batch number, as the statement's difference of words. -/
theorem reached_iff (x : Word) {n : Nat} (hn : n < 2 ^ 32) : reached x n = true ↔ (x - BitVec.ofNat 32 n).toNat < 2 ^ 31 := by
  have hx := x.isLt
  rw [reached, decide_eq_true_iff, BitVec.toNat_sub, BitVec.toNat_ofNat, Nat.mod_eq_of_lt hn]
  omega

/-! ## MGO and MWAIT (R226, R227) -/

/-- A team whose sequencer has been started by a course (R226). -/
def Team.mgoStarted (t : Team) (c : Course) (entry arg : Nat) : Team :=
  { t with seq := t.seq.start (BitVec.ofNat 32 entry) (BitVec.ofNat 32 arg), mgoCid := c.cid }

/-- What MWAIT without a then-fence answers of the batch numbered n (R227). -/
def mwaitRule (s : State) (k : Nat) (str : Bool) (c : Course) (q : Seq) (d n : Nat) : Res :=
  if q.faultValid then .trap .mxFault q.faultAddr.toNat 0 q.faultInfo.toNat
  else if q.abandoned && !reached q.retired n then .trap .mxFault 0 0 8
  else if reached q.retired n then .done (s.gdst false d q.retired.toNat)
  else if q.run = .idle ∧ !reached q.closed n then .trap .mxFault 0 0 9
  else if (c.slot str).hold = .batch then .wait
  else .stay (s.setCourse k (c.setSlot str { c.slot str with hold := .batch }))

section
variable {s : State} {k : Nat} {str : Bool} {c : Course} {t : Team} {d a : BitVec 6}

theorem exec_mgo (hR : Runs s k str c t) (hc : Clean s [(d.toNat, false), (a.toNat, false)]) :
    exec (.mgo d a) s = s.runWord (.mgo d a)
      (if s.gsrc false a.toNat % 4 ≠ 0 then .trap .align (s.gsrc false a.toNat) 0 4
       else if t.seq.run = .running then .wait
       else .done (s.setTeam (k / 16) (t.mgoStarted c (s.gsrc false a.toNat) (s.gsrc false d.toNat)))) := by
  change execMgo d a s = _
  unfold execMgo
  rw [groupOp_unpoisoned hc, runs_asCourse hR, runs_team hR]
  rfl

theorem exec_mwait (hR : Runs s k str c t) (hn : NotBegun c str) (hc : Clean s [(a.toNat, false)]) :
    exec (.mwait d a 0#3) s = s.runWord (.mwait d a 0#3) (mwaitRule s k str c t.seq d.toNat (s.gsrc false a.toNat)) := by
  change execMwait d a 0#3 s = _
  unfold execMwait
  rw [groupOp_unpoisoned hc, runs_asCourse hR, runs_team hR, metValue_notBegun hR hn]
  rfl

end

/-- The half of O38 about courses. -/
theorem sequencerControlCompletes : SequencerControlCompletes := by
  intro s k str c t w d a hR
  have hP := runs_curRuns hR
  refine ⟨fun hw hc => ?_, fun hw hn hc => ?_⟩
  · rw [exec_mgo hR hc]
    refine ⟨fun hal hidle => ?_, fun hal hrun => ?_, fun hmis => ?_⟩
    · refine ⟨_, t.mgoStarted c _ _, runWord_finished hP hw ((if_neg (not_not.2 hal)).trans (if_neg hidle)), rfl, rfl, toNat_gsrc_narrow .., ?_,
        rfl, rfl, rfl, rfl⟩
      intro n hn
      exact (reg_start t.seq _ _ hn).trans (by rw [toNat_gsrc_narrow])
    · exact runWord_waits hP hw ((if_neg (not_not.2 hal)).trans (if_pos hrun))
    · exact runWord_takesTrap hP hw (if_pos hmis)
  · rw [exec_mwait hR hn hc]
    generalize hbatch : s.gsrc false a.toNat = n
    have hlt : n < 2 ^ 32 := hbatch ▸ gsrc_narrow_lt ..
    simp only [← reached_iff _ hlt]
    refine ⟨fun hfault => runWord_takesTrap hP hw (if_pos hfault), fun hfault hret => runWord_finished hP hw ?_,
      fun hfault hab hret => runWord_takesTrap hP hw ?_, fun hfault hab hret hidle hclosed => runWord_takesTrap hP hw ?_,
      fun hfault hab hret hopen => ?_⟩
    · simp [mwaitRule, hfault, hret]
    · simp [mwaitRule, hfault, hab, hret]
    · simp [mwaitRule, hfault, hab, hret, hidle, hclosed]
    · have hrule : mwaitRule s k str c t.seq d.toNat n =
          if (c.slot str).hold = .batch then .wait else .stay (s.setCourse k (c.setSlot str { c.slot str with hold := .batch })) := by
        have hgo : ¬ (t.seq.run = .idle ∧ (!reached t.seq.closed n) = true) := by
          rintro ⟨hidle, hclosed⟩
          exact hopen.elim (fun h => h hidle) fun h => by simp [h] at hclosed
        simp only [mwaitRule, hfault, hab, hret, if_neg hgo, Bool.false_and, Bool.false_eq_true, ↓reduceIte]
      by_cases hheld : (c.slot str).hold = .batch
      · rw [if_pos hheld, hrule, if_pos hheld]
        exact runWord_waits hP hw rfl
      · rw [if_neg hheld, hrule, if_neg hheld]
        exact runWord_stays hP hw rfl

/-! ## The control words of a stream (R235, R241-R245) -/

/-- Team h, which is x, with another sequencer. -/
abbrev State.putSeq (s : State) (h : Nat) (x : Team) (q : Seq) : State := s.setTeam h { x with seq := q }

section
variable {s : State} {h : Nat} {x : Team} {w : Word} {i : Instr} {f : Nat → Team → Res} {u : State}

/-- A stream's word whose rule is done leaves its effect and goes on. -/
theorem streamWord_finished (hS : Streams s h x) (hw : Passes s i w) (hf : f h x = .done u) :
    s.runWord i (s.asStream f) = .next (finished s u w) :=
  runWord_finished (streams_present hS) hw ((streams_asStream hS f).trans hf)

/-- A stream's word that is held leaves what its rule says. -/
theorem streamWord_stays (hS : Streams s h x) (hw : Passes s i w) (hf : f h x = .stay u) : s.runWord i (s.asStream f) = .next u :=
  runWord_stays (streams_present hS) hw ((streams_asStream hS f).trans hf)

/-- A stream's word that sets the PC leaves its effect, counted. -/
theorem streamWord_counted (hS : Streams s h x) (hw : Passes s i w) (hf : f h x = .jumped u) :
    s.runWord i (s.asStream f) = .next (counted s u w) :=
  runWord_counted (streams_present hS) hw ((streams_asStream hS f).trans hf)

/-- A stream's word branches from its own PC, whatever else it writes of its sequencer (R242). -/
theorem branch_putSeq (hS : Streams s h x) {q : Seq} (hpc : q.pc = x.seq.pc) (taken : Bool) (o : BitVec 20) :
    (s.putSeq h x q).branch taken o = .jumped ((s.putSeq h x q).goto (branchTo s taken o)) := by
  obtain ⟨hcur, hteam, -⟩ := hS
  have hsame : (s.putSeq h x q).pc = s.pc := by simp only [State.pc, setTeam_cur, hcur, team_setTeam_same, hteam, hpc]
  rw [branch_eq, branchTo, hsame, branchTo]

theorem exec_mzero_tile (hS : Streams s h x) {d : BitVec 6} (hw : Passes s (.mzero d) w) (hd : d.toNat < 32) (ht : d.toNat - 16 < x.acc) :
    exec (.mzero d) s = .next (finished s (s.setTeam h (x.setTile (d.toNat - 16) fun _ _ => 0)) w) := by
  have htile : x.hasTile (d.toNat - 16) false = true := decide_eq_true ht
  exact streamWord_finished hS hw ((if_pos hd).trans (if_neg (by simp [htile])))

theorem exec_mzero_slot (hS : Streams s h x) {d : BitVec 6} (hw : Passes s (.mzero d) w) (hd : 32 ≤ d.toNat) (ht : d.toNat - 32 < x.ws) :
    exec (.mzero d) s = .next (finished s (s.setTeam h (x.setSlot (d.toNat - 32) WSlot.empty)) w) :=
  streamWord_finished hS hw ((if_neg (Nat.not_lt.2 hd)).trans (if_neg (Nat.not_le.2 ht)))

theorem exec_mli (hS : Streams s h x) {d : BitVec 6} {v : BitVec 17} (hw : Passes s (.mli d v) w) :
    exec (.mli d v) s = .next (finished s (s.putSeq h x (x.seq.setReg d.toNat (v.signExtend 32).toNat)) w) :=
  streamWord_finished hS hw (by rw [wrapTo_eq]; rfl)

theorem exec_mliH (hS : Streams s h x) {d : BitVec 6} {v : BitVec 15} (hw : Passes s (.mliH d v) w) :
    exec (.mliH d v) s =
      .next (finished s (s.putSeq h x (x.seq.setReg d.toNat (v.toNat * 2 ^ 17 + x.seq.reg d.toNat % 2 ^ 17))) w) :=
  streamWord_finished hS hw (by simp [bitsOf])

theorem exec_madd (hS : Streams s h x) {d a : BitVec 6} {v : BitVec 12} (hw : Passes s (.madd d a v) w) :
    exec (.madd d a v) s =
      .next (finished s (s.putSeq h x (x.seq.setReg d.toNat (BitVec.ofInt 32 ((x.seq.reg a.toNat : Int) + v.toInt)).toNat)) w) :=
  streamWord_finished hS hw (by rw [wrapTo_eq])

theorem exec_mloop (hS : Streams s h x) {k : BitVec 4} {o : BitVec 20} (hw : Passes s (.mloop k o) w) {v : Nat}
    (hv : (x.seq.reg k.toNat + 2 ^ 32 - 1) % 2 ^ 32 = v) :
    exec (.mloop k o) s =
      .next (counted s ((s.putSeq h x (x.seq.setReg k.toNat v)).goto (branchTo s (decide (v ≠ 0)) o)) w) := by
  obtain rfl : (x.seq.reg k.toNat + (2 ^ 32 - 1)) % 2 ^ 32 = v := by rw [← hv, Nat.add_sub_assoc (by decide)]
  exact streamWord_counted hS hw (branch_putSeq hS (q := x.seq.setReg _ _) rfl ..)

theorem exec_mjmp (hS : Streams s h x) {o : BitVec 20} (hw : Passes s (.mjmp o) w) :
    exec (.mjmp o) s = .next (counted s (s.goto (branchTo s true o)) w) :=
  streamWord_counted hS hw (branch_eq ..)

/-- MFENCE closes its batch and goes on; MFENCE.W closes it and holds the stream (R245). -/
theorem exec_mfence_closes (hS : Streams s h x) (hb : x.seq.holdBatch = none) (hw : Passes s (.mfence 0#1) w) :
    exec (.mfence 0#1) s = .next (finished s (s.putSeq h x x.seq.close) w) :=
  streamWord_finished hS hw (by simp only [hb]; rfl)

theorem exec_mfenceW_holds (hS : Streams s h x) (hb : x.seq.holdBatch = none) (hw : Passes s (.mfence 1#1) w) :
    exec (.mfence 1#1) s = .next (s.putSeq h x { x.seq.close with holdBatch := some x.seq.close.closed }) :=
  streamWord_stays hS hw (by simp only [hb]; rfl)

/-- MFENCE.W goes on once its batch has retired (R245). -/
theorem exec_mfenceW_retired (hS : Streams s h x) {n : Word} (hb : x.seq.holdBatch = some n) (hret : (x.seq.retired - n).toNat < 2 ^ 31)
    (hw : Passes s (.mfence 1#1) w) :
    exec (.mfence 1#1) s = .next (finished s (s.putSeq h x { x.seq with holdBatch := none }) w) := by
  have hreached : reached x.seq.retired n.toNat = true := (reached_iff _ n.isLt).2 (by rwa [BitVec.ofNat_toNat, BitVec.setWidth_eq])
  exact streamWord_finished hS hw (by simp only [hb, hreached, ↓reduceIte])

theorem exec_mend (hS : Streams s h x) (hw : Passes s .mend w) :
    exec .mend s = .next (finished s (s.putSeq h x { x.seq with
      closed := if x.seq.openBatch then x.seq.closed + 1#32 else x.seq.closed, openBatch := false, run := .idle }) w) := by
  refine streamWord_finished hS hw (congrArg (fun q => Res.done (s.putSeq h x q)) ?_)
  cases hopen : x.seq.openBatch
  · simp [hopen]
  · rfl

end

/-- The half of O38 about streams. -/
theorem streamControlWordsComplete : StreamControlWordsComplete := fun _ _ _ _ hS =>
  ⟨fun _ hw => exec_mzero_tile hS hw, fun _ hw => exec_mzero_slot hS hw, fun _ _ => exec_mli hS, fun _ _ => exec_mliH hS, fun _ _ _ => exec_madd hS,
    fun _ _ hw => exec_mloop hS hw rfl, fun _ => exec_mjmp hS, fun hb => ⟨exec_mfence_closes hS hb, exec_mfenceW_holds hS hb⟩,
    fun _ hb hret => exec_mfenceW_retired hS hb hret, exec_mend hS⟩

/-- Settles O38, a half for the words of courses and one for those of streams. -/
theorem streamInstructionsComplete : Obligations.StreamInstructionsComplete := ⟨sequencerControlCompletes, streamControlWordsComplete⟩

end Sys2Proof.Machine

/-! # Stream words that take time (R229, R231-R240, R244) -/

namespace Sys2Proof.Machine

open Sys2Proof Sys2Proof.Spec

/-! ## The array's grant (R229) -/

/-- What a map's look-up finds stands in it. -/
theorem mem_of_find {α : Type} {m : SMap α} {n : Nat} {v : α} (h : SMap.find? m n = some v) : (n, v) ∈ m := by
  induction m with
  | nil => exact nomatch h
  | cons kv m ih =>
    obtain ⟨i, u⟩ := kv
    by_cases hn : n = i
    · subst hn
      simp only [SMap.find?, ↓reduceIte, Option.some.injEq] at h
      exact h ▸ List.mem_cons_self
    · exact List.mem_cons_of_mem _ (ih (by simpa only [SMap.find?, hn, ↓reduceIte] using h))

/-- Whether a team of core n wants the array: it is there, and holds a word that needs sectors. -/
def Team.wantsArray (t : Team) (n : Nat) : Bool :=
  decide (t.core = n) && (decide (t.residency = .resident) || decide (t.residency = .saving)) &&
    match t.seq.pending with
    | some p => p.sectors.isSome
    | none => false

theorem mem_arrayWants {s : State} {n h : Nat} : h ∈ s.arrayWants n ↔ ∃ t, (h, t) ∈ s.teams ∧ t.wantsArray n = true := by
  simp only [State.arrayWants, State.teamsOn, List.filter_filter, List.mem_map, List.mem_filter]
  constructor
  · rintro ⟨⟨_, t⟩, ⟨hmem, hw⟩, rfl⟩
    exact ⟨t, hmem, (Bool.and_comm ..).trans hw⟩
  · rintro ⟨t, hmem, hw⟩
    exact ⟨(h, t), ⟨hmem, (Bool.and_comm ..).trans hw⟩, rfl⟩

section
variable {s : State} {h n : Nat} {x : Team} {p : MPending}

/-- A grant changes a core alone. -/
theorem grantArray_keeps {γ : Type} (f : State → γ) (hf : ∀ u n c, f (State.setCore u n c) = f u) (s : State) (n : Nat) : f (s.grantArray n) = f s := by
  unfold State.grantArray
  dsimp only
  split
  · rfl
  · split
    · exact hf ..
    · rfl

@[simp] theorem mem_grantArray (s : State) (n : Nat) : (s.grantArray n).mem = s.mem := grantArray_keeps State.mem (fun _ _ _ => rfl) s n
@[simp] theorem teams_grantArray (s : State) (n : Nat) : (s.grantArray n).teams = s.teams := grantArray_keeps State.teams (fun _ _ _ => rfl) s n
@[simp] theorem courses_grantArray (s : State) (n : Nat) : (s.grantArray n).courses = s.courses := grantArray_keeps State.courses (fun _ _ _ => rfl) s n

/-- A free array that one team wants is that team's. -/
theorem grantArray_only (hfree : (s.core n).arrayHolder = none) (hmem : h ∈ s.arrayWants n) (honly : ∀ t ∈ s.arrayWants n, t = h) :
    ((s.grantArray n).core n).arrayHolder = some h := by
  have hpick (last : Nat) :
      (((s.arrayWants n).find? fun t => decide (last < t)).orElse fun _ => (s.arrayWants n).head?) = some h := by
    cases hfind : (s.arrayWants n).find? fun t => decide (last < t) with
    | some t => rw [honly t (List.mem_of_find?_eq_some hfind)]; rfl
    | none =>
      obtain ⟨t, ts, hws⟩ := List.exists_cons_of_ne_nil (List.ne_nil_of_mem hmem)
      have ht : t = h := honly t (hws ▸ List.mem_cons_self)
      rw [hws, ← ht]; rfl
  simp only [State.grantArray, hfree, hpick, core_setCore_same]

/-! ## A word held for the array (R229, R231, R244) -/

/-- The stream of team h holds a word for the array, and a free array is granted. -/
def State.heldForArray (s : State) (h : Nat) (x : Team) (p : MPending) : State := (s.hold h x p).grantArray x.core

/-- A team with a held word. -/
def Team.holding (x : Team) (p : MPending) : Team := { x with seq := { x.seq with pending := some p } }

theorem team_hold (s : State) (h : Nat) (x : Team) (p : MPending) : (s.hold h x p).team? h = some (x.holding p) := team_setTeam_same ..

theorem team_heldForArray (s : State) (h : Nat) (x : Team) (p : MPending) : (s.heldForArray h x p).team? h = some (x.holding p) := by
  simp only [State.heldForArray, State.team?, teams_grantArray]
  exact team_hold ..

/-- Where no team wanted the array, the one that begins to hold a word for it is granted it. -/
theorem holder_heldForArray (hfree : (s.core x.core).arrayHolder = none) (hnone : s.arrayWants x.core = []) (hres : x.residency = .resident)
    (hp : p.sectors.isSome = true) : ((s.heldForArray h x p).core x.core).arrayHolder = some h := by
  refine grantArray_only (s := s.hold h x p) hfree ?_ fun t ht => ?_
  · exact mem_arrayWants.2 ⟨_, mem_of_find (team_hold s h x p), by simp [Team.wantsArray, Team.holding, hres, hp]⟩
  · obtain ⟨y, hmem, hwants⟩ := mem_arrayWants.1 ht
    obtain heq | hold := mem_put hmem
    · exact congrArg Prod.fst heq
    · exact absurd (mem_arrayWants.2 ⟨y, hold, hwants⟩) (hnone ▸ List.not_mem_nil)

end

section
variable {s : State} {h : Nat} {x : Team} {w : Word}

theorem exec_mma_holds (hS : Streams s h x) {d a b : BitVec 6} {t u : BitVec 1} {f : BitVec 4} (hw : Passes s (.mma d a b t u f) w)
    (hok : x.mmaCheck w = .ok) : exec (.mma d a b t u f) s = .next (s.heldForArray h x (.mma w)) := by
  obtain ⟨hcur, hteam, -, hpending⟩ := id hS
  refine runWord_stays (streams_present hS) hw ?_
  simp only [hcur, hteam, hw.1, hpending, hok, Option.isSome_none, Bool.false_eq_true, ↓reduceIte]
  rfl

theorem exec_mfill_holds (hS : Streams s h x) {c : BitVec 2} {n : BitVec 6} (hw : Passes s (.mfill c n) w) :
    exec (.mfill c n) s = .next (s.heldForArray h x (.fill w)) := by
  obtain ⟨hcur, hteam, -, hpending⟩ := id hS
  refine runWord_stays (streams_present hS) hw ?_
  simp only [hcur, hteam, hw.1, hpending, Option.isSome_none, Bool.false_eq_true, ↓reduceIte]
  rfl

/-- The array runs a word of the team that holds it, once its sectors are on (R305). -/
theorem arrayReady_of_sectors {p : MPending} {n : Nat} (hhold : (s.core x.core).arrayHolder = some h) (hp : p.sectors = some n)
    (hon : n ≤ ((s.quad (x.core / 4)).sectors[x.core % 4]?).getD 0) : s.arrayReady h x p = true := by
  have hlt : x.core % 4 < 4 := Nat.mod_lt _ (by decide)
  rw [Vector.getElem?_eq_getElem hlt, Option.getD_some] at hon
  simp [State.arrayReady, hp, hhold, quadOfCore, hlt, hon]

theorem exec_mmaComplete (ht : s.team? h = some x) (hp : x.seq.pending = some (.mma w)) (hready : s.arrayReady h x (.mma w) = true) {z : Team}
    (hz : x.mmaEffect w = some z) : exec (.mmaComplete h) s = .next ((s.setTeam h z).performed h 0xC0) := by
  change execMmaComplete h s = _
  simp only [execMmaComplete, ht, hp, hready, hz, Bool.not_true, Bool.false_eq_true, ↓reduceIte]

theorem exec_mfillComplete (ht : s.team? h = some x) (hp : x.seq.pending = some (.fill w)) (hready : s.arrayReady h x (.fill w) = true) :
    exec (.mfillComplete h) s = .next (s.performed h 0xCC) := by
  change execMfillComplete h s = _
  simp only [execMfillComplete, ht, hp, hready, Bool.not_true, Bool.false_eq_true, ↓reduceIte]

/-! ## MOUT, MLOAD and MSCL (R236-R239) -/

theorem exec_mout_holds (hS : Streams s h x) {d a b : BitVec 6} {r f : BitVec 3} (hw : Passes s (.mout d a b r f) w)
    (htile : x.hasTile (a.toNat - 16) (f == 5#3) = true) (hclean : x.tilePoisoned (a.toNat - 16) (f == 5#3) = false)
    (hrange : streamRange x (x.seq.reg b.toNat) (4096 * outWidth f.toNat) = true) (hctl : x.seq.regOrZero d.toNat < 2 ^ 9) :
    exec (.mout d a b r f) s = .next (s.hold h x (.move w)) := by
  have hctl' : decide (2 ^ 9 ≤ x.seq.regOrZero d.toNat) = false := decide_eq_false (Nat.not_le.2 hctl)
  refine streamWord_stays hS hw ?_
  simp only [htile, hclean, hrange, hctl', hw.1, Bool.not_true, Bool.or_self, Bool.false_eq_true, ↓reduceIte]

theorem exec_mload_holds (hS : Streams s h x) {d a : BitVec 6} {f : BitVec 3} (hw : Passes s (.mload d a f) w)
    (htile : x.hasTile (d.toNat - 16) (f == 5#3) = true) (hrange : streamRange x (x.seq.reg a.toNat) (4096 * loadWidth f.toNat) = true) :
    exec (.mload d a f) s = .next (s.hold h x (.move w)) :=
  streamWord_stays hS hw (by simp [htile, hrange, hw.1])

theorem exec_mscl_holds (hS : Streams s h x) {d a b : BitVec 6} {f : BitVec 1} (hw : Passes s (.mscl d a b f) w)
    (htile : x.hasTile (d.toNat - 16) (f == 1#1) = true) (hsource : x.hasTile (a.toNat - 16) (f == 1#1) = true)
    (hclean : x.tilePoisoned (a.toNat - 16) (f == 1#1) = false) : exec (.mscl d a b f) s = .next (s.hold h x (.move w)) :=
  streamWord_stays hS hw (by simp [htile, hsource, hclean, hw.1])

theorem exec_moutMloadPerformed (ht : s.team? h = some x) (hp : x.seq.pending = some (.move w)) {z : Team} (hz : x.moveEffect w = some z) :
    exec (.moutMloadPerformed h) s = .next ((s.setTeam h z).performed h (opOf w)) := by
  change execMoutMloadPerformed h s = _
  simp only [execMoutMloadPerformed, ht, hp, hz]

/-! ## MAMAX (R240) -/

/-- The maximum of an MAMAX on its way to its home (R240). -/
def mamaxAtomic (s : State) (h : Nat) (x : Team) (tile va pa leaf : Nat) : AtomGroup :=
  { owner := .seq h, mask := 0#32, mark := none, half := none, copy := none, engine := none, pc := x.seq.pc, op := 2, et := .f32, ftz := false, size := 4,
    pa := pa, va := va, order := .relaxed, scope := 4, stamp := 0, counter := none, version := x.versionOf h, snap := snapMark leaf,
    keyId := leafKey leaf, step := s.stepOf x.core, sent := false, lanes := [{ lane := 0, reg := none, x := x.tileMax tile, cmp := 0 }] }

theorem operands_mamaxAtomic (s : State) (h : Nat) (x : Team) (tile va pa leaf : Nat) :
    (mamaxAtomic s h x tile va pa leaf).lanes.map (fun l => l.x) = [x.tileMax tile] := by
  simp only [mamaxAtomic, List.map_cons, List.map_nil]

theorem exec_mamax_sends (hS : Streams s h x) {a b : BitVec 6} (hw : Passes s (.mamax a b) w) (htoken : x.seq.token = none)
    (htile : b.toNat - 16 < x.acc) (hclean : x.tilePoisoned (b.toNat - 16) false = false) {va pa leaf : Nat}
    (hva : x.seq.reg a.toNat + 2 ^ 32 * x.seq.reg (a.toNat + 1) = va) (hal : va % 4 = 0) (ht : s.translate x.xlat va .atomic true = .ok pa leaf)
    (hban : versionBans x pa = false) :
    exec (.mamax a b) s =
      .next (((s.noteTlb x.xlat va).hold h x (.amax w pa)).send (.atom (mamaxAtomic s h x (b.toNat - 16) va pa leaf))) := by
  have hhas : x.hasTile (b.toNat - 16) false = true := decide_eq_true htile
  refine streamWord_stays hS hw ?_
  simp only [hva, htoken, hhas, hal, ht, hban, hclean, hw.1, Option.isSome_none, Bool.not_true, Bool.false_eq_true, ne_eq, not_true_eq_false, ↓reduceIte]
  rfl

end

/-- Settles O39: what a word leaves when it is held, for the array or not, and what its completion then makes of that. -/
theorem matrixWordsCompleteInTwoSteps : Obligations.MatrixWordsCompleteInTwoSteps := by
  intro s h x w hS hfree hnone hres holds
  have harray (p : MPending) (hp : p.sectors.isSome = true) : holds (s.heldForArray h x p) p true :=
    ⟨_, team_heldForArray .., rfl, fun _ => holder_heldForArray hfree hnone hres hp, mem_grantArray ..⟩
  have hmove : holds (s.hold h x (.move w)) (.move w) false := ⟨_, team_hold .., rfl, nofun, rfl⟩
  refine ⟨fun d a b t u f hw hok => ⟨_, exec_mma_holds hS hw hok, harray _ rfl, fun hon y z hy hz => ?_⟩,
    fun c n hw => ⟨_, exec_mfill_holds hS hw, harray _ rfl, exec_mfillComplete (team_heldForArray ..) rfl⟩, fun i hi hw => ?_,
    fun a b pa leaf hw htoken htile hclean hal ht hban => ?_⟩
  · obtain rfl := Option.some.inj ((team_heldForArray ..).symm.trans hy)
    exact exec_mmaComplete hy rfl (arrayReady_of_sectors (holder_heldForArray hfree hnone hres rfl) rfl hon) hz
  · have hexec : exec i s = .next (s.hold h x (.move w)) := by
      obtain ⟨d, a, b, r, f, rfl, htile, hclean, hrange, hctl⟩ | ⟨d, a, f, rfl, htile, hrange⟩ | ⟨d, a, b, f, rfl, htile, hsource, hclean⟩ := hi
      · exact exec_mout_holds hS hw htile hclean hrange hctl
      · exact exec_mload_holds hS hw htile hrange
      · exact exec_mscl_holds hS hw htile hsource hclean
    refine ⟨_, hexec, hmove, fun y z hy hz => ?_⟩
    obtain rfl := Option.some.inj ((team_hold ..).symm.trans hy)
    exact exec_moutMloadPerformed hy rfl hz
  · refine ⟨_, _, _, exec_mamax_sends hS hw htoken htile hclean rfl hal ht hban, flight_send .., rfl, rfl, rfl, rfl, operands_mamaxAtomic ..,
      _, team_hold .., rfl, nofun, ?_⟩
    exact noteTlb_keeps State.mem (fun _ p _ => by cases p <;> rfl) ..

end Sys2Proof.Machine

/-! # Teams placed, saved and flushed, flags and batches (R245, R269, R281, R282, R352) -/

namespace Sys2Proof.Machine

open Sys2Proof Sys2Proof.Spec

/-! ## A decision of a distributor with one ready queue (R352) -/

theorem pickQueue_only (q ptr : Nat) : pickQueue [q] ptr = some q := by
  by_cases h : ptr ≤ q <;> simp [pickQueue, h]

/-- The rotating pointer of a priority, put after a queue. -/
def Die.turned (d : Die) (prio q : Nat) : Die := { d with ptr := Vector.ofFn fun i => if i.val = prio then (q + 1) % 64 else d.ptr[i] }

section
variable {s s' : State} {d q h : Nat} {x : LQueue} {hd : Head}

theorem admitOne_only (hq : (s.die d).queues = [(q, x)]) (hen : x.en = true) (hhead : s.headOf d q = some hd) (hready : s.headReady d hd = true)
    (hplace : s.placeHead d hd = some s') : s.admitOne d = s'.modDie d fun y => y.turned x.prio q := by
  simp [State.admitOne, hq, hen, hhead, hready, hplace, pickQueue_only, Die.turned]

/-- Where no team is on the die, none ends before the decision. -/
theorem exec_admissionDecision_empty (hnone : ∀ kt ∈ s.teams, dieOfCore kt.2.core ≠ d) : exec (.admissionDecision d) s = .next (s.admitOne d) := by
  have hleave : List.filter (fun kt : Nat × Team => decide (dieOfCore kt.2.core = d)) s.teams = [] :=
    List.filter_eq_nil_iff.2 fun kt hkt => by simpa using hnone kt hkt
  change execAdmissionDecision d s = _
  rw [execAdmissionDecision, hleave]
  rfl

end

/-! ## A team off its core (R173, R281, R282) -/

/-- Leaving a core changes the core and its quad alone. -/
theorem leftCore_keeps {γ : Type} (f : State → γ) (hcore : ∀ u n c, f (State.setCore u n c) = f u) (hquad : ∀ u n c, f (State.setQuad u n c) = f u)
    (s : State) (h n : Nat) : f (s.leftCore h n) = f s := by
  simp only [State.leftCore, State.modQuad, hquad, grantArray_keeps f hcore, State.modCore, hcore]

@[simp] theorem mem_leftCore (s : State) (h n : Nat) : (s.leftCore h n).mem = s.mem := leftCore_keeps State.mem (fun _ _ _ => rfl) (fun _ _ _ => rfl) s h n
@[simp] theorem teams_leftCore (s : State) (h n : Nat) : (s.leftCore h n).teams = s.teams :=
  leftCore_keeps State.teams (fun _ _ _ => rfl) (fun _ _ _ => rfl) s h n
@[simp] theorem courses_leftCore (s : State) (h n : Nat) : (s.leftCore h n).courses = s.courses :=
  leftCore_keeps State.courses (fun _ _ _ => rfl) (fun _ _ _ => rfl) s h n

/-- A saved team as its queue keeps it, at a time of its package (R282). -/
def Team.savedAt (x : Team) (now : Nat) : Team :=
  { x.leaveCore with
    residency := .saved, savedCore := x.core, resTime := x.resTime + (now - x.since),
    seq := { Seq.init with closed := x.seq.closed, retired := x.seq.retired, abandoned := true } }

/-- A flushed team as its queue keeps it (R281). -/
def Team.flushedAt (x : Team) (now : Nat) : Team :=
  { x.leaveCore with residency := .flushed, flush := false, resTime := x.resTime + (now - x.since) }

/-- A course of a saved team: one that has executed EXIT.SAVED is saved. -/
def Course.savedWith (h k : Nat) (c : Course) : Course := if k / 16 = h ∧ c.life = .endedSaved then { c with life := .saved } else c

/-- The state once a save, and a flush, of team h is complete. -/
def State.teamSaved (s : State) (h : Nat) (x : Team) : State :=
  let u := (s.setTeam h (x.savedAt (s.pkg (pkgOfCore x.core)).time)).leftCore h x.core
  { u with courses := u.courses.map fun kc : Nat × Course => (kc.1, kc.2.savedWith h kc.1) }
def State.teamFlushed (s : State) (h : Nat) (x : Team) : State :=
  let u := (s.setTeam h (x.flushedAt (s.pkg (pkgOfCore x.core)).time)).leftCore h x.core
  { u with courses := u.courses.filter fun kc : Nat × Course => decide (kc.1 / 16 ≠ h) }

section
variable {s : State} {h : Nat} {x : Team}

theorem team_teamSaved (s : State) (h : Nat) (x : Team) :
    (s.teamSaved h x).team? h = some (x.savedAt (s.pkg (pkgOfCore x.core)).time) := by
  simp only [State.teamSaved, State.team?, teams_leftCore]
  exact team_setTeam_same ..

theorem course_teamSaved (s : State) (h : Nat) (x : Team) (k : Nat) : (s.teamSaved h x).course? k = (s.course? k).map (Course.savedWith h k) := by
  simp only [State.teamSaved, State.course?, courses_leftCore]
  exact find_map_key s.courses _ (fun k c => c.savedWith h k) (fun _ => rfl) k

theorem team_teamFlushed (s : State) (h : Nat) (x : Team) :
    (s.teamFlushed h x).team? h = some (x.flushedAt (s.pkg (pkgOfCore x.core)).time) := by
  simp only [State.teamFlushed, State.team?, teams_leftCore]
  exact team_setTeam_same ..

/-- What a filter by keys takes out is not found. -/
theorem find_filter_key_none {α : Type} (m : SMap α) (p : Nat → Bool) {n : Nat} (hn : p n = false) :
    SMap.find? (m.filter fun kv => p kv.1) n = none := by
  cases hfind : SMap.find? (m.filter fun kv => p kv.1) n with
  | none => rfl
  | some v =>
    have hp : p n = true := (List.mem_filter.1 (mem_of_find hfind)).2
    rw [hn] at hp
    exact nomatch hp

theorem course_teamFlushed (s : State) (h : Nat) (x : Team) {k : Nat} (hk : k / 16 = h) : (s.teamFlushed h x).course? k = none :=
  find_filter_key_none _ (fun n => decide (n / 16 ≠ h)) (by simp [hk])

/-- R282: a save completes once every course is over and one of them has been saved. -/
theorem exec_saveComplete_saves (ht : s.team? h = some x) (hprot : s.protected h x = false) (hp : x.seq.pending = none) (hr : x.residency = .saving)
    (hf : x.flush = false) (hover : ∀ kc ∈ s.coursesOf h, kc.2.life = .endedSaved ∨ kc.2.life = .finished)
    (hsaved : ∃ kc ∈ s.coursesOf h, kc.2.life = .endedSaved) : exec (.saveComplete h) s = .next (s.teamSaved h x) := by
  have hall : ((s.coursesOf h).all fun kc => decide (kc.2.life = .endedSaved) || decide (kc.2.life = .finished)) = true := by simpa using hover
  have hsome : ((s.coursesOf h).all fun kc => decide (kc.2.life = .finished)) = false := by
    obtain ⟨kc, hmem, hlife⟩ := hsaved
    exact List.all_eq_false.2 ⟨kc, hmem, by simp [hlife]⟩
  change execSaveComplete h s = _
  simp only [execSaveComplete, ht, hprot, hp, hr, hf, hall, hsome, Option.isSome_none, Bool.or_self, Bool.not_true, Bool.false_eq_true, false_and, ne_eq,
    not_true_eq_false, or_self, ↓reduceIte]
  refine congrArg (fun cs => Host.Outcome.next { ((s.setTeam h (x.savedAt _)).leftCore h x.core) with courses := cs }) (List.map_congr_left fun kc _ => ?_)
  rw [Course.savedWith]
  split <;> rfl

/-- R281: a flush completes once no course's store is left in its buffer (log 61). -/
theorem exec_saveComplete_flushes (ht : s.team? h = some x) (hprot : s.protected h x = false) (hp : x.seq.pending = none)
    (hr : x.residency = .resident) (hf : x.flush = true) (hempty : ∀ kc ∈ s.coursesOf h, kc.2.entries.isEmpty = true) :
    exec (.saveComplete h) s = .next (s.teamFlushed h x) := by
  have hall : ((s.coursesOf h).all fun kc => kc.2.entries.isEmpty) = true := List.all_eq_true.2 hempty
  change execSaveComplete h s = _
  simp only [execSaveComplete, ht, hprot, hp, hr, hf, hall, Option.isSome_none, Bool.or_self, Bool.false_eq_true, and_self, ↓reduceIte]
  rfl

end

/-! ## FLAG_APPLY (R269) -/

/-- A withheld flag's next lane performed at package p, its count taken from what has come (R269). -/
def State.flagClaimed (s : State) (p : Nat) (k x : Packet) (count : Nat) : State :=
  let s1 := s.modPkg p fun y =>
    { y with uCount := SMap.setD y.uCount 0 (uKey k.src k.og) (SMap.getD (s.pkg p).uCount 0 (uKey k.src k.og) - count) }
  let s2 := s1.logWrite x
  (s2.performWrite x.addr x.bytes (s2.packetMark x) 2 k.core k.scope (s2.stampOf k) 0).2

/-- A flag whose last lane has been performed leaves, acknowledged; one with lanes left goes on waiting with those. -/
def State.flagLeaves (s : State) (p i : Nat) (k : Packet) : State :=
  (((s.modPkg p fun y => { y with flags := y.flags.eraseIdx i }).itemDone k).returnCredits k.src k.dst k.credits).answer k
    { Packet.blank 0x06 k.src k.dst with addr := k.addr }
def State.flagGoesOn (s : State) (p i : Nat) (k : Packet) : State :=
  (match s.pathOfPacket k with | some (path, key, _) => s.itemLane path key | none => s).modPkg p fun y =>
    { y with flags := y.flags.set i { k with lanes := k.lanes.drop 1 } }

/-- What a withheld flag's next lane writes, and the count it claims. -/
abbrev ClaimsNext (k x : Packet) (count : Nat) : Prop :=
  k.lanes = [] ∧ x = k ∧ count = k.key ∨ ∃ q f, k.lanes.head? = some q ∧ q.flag = some f ∧ x = k.lane q ∧ count = f.count

theorem exec_flagApply {s : State} {p i : Nat} {k x : Packet} {count : Nat} (hk : (s.pkg p).flags[i]? = some k) (hdst : k.dst = p)
    (hnext : ClaimsNext k x count) (hcome : count ≤ SMap.getD (s.pkg p).uCount 0 (uKey k.src k.og))
    (hfirst : ∀ j f, j < i → (s.pkg p).flags[j]? = some f → ¬ (f.src = k.src ∧ f.og = k.og ∧ f.dst = p)) :
    exec (.flagApply p i) s = .next (if !s.unshared x.addr then s.invalidate x.addr
      else if 2 ≤ k.lanes.length then (s.flagClaimed p k x count).flagGoesOn p i k else (s.flagClaimed p k x count).flagLeaves p i k) := by
  have hnone : ((s.pkg p).flags.take i).any (fun f => decide (f.src = k.src) && decide (f.og = k.og) && decide (f.dst = p)) = false := by
    refine List.any_eq_false.2 fun f hf => ?_
    obtain ⟨j, hj, hget⟩ := List.mem_take_iff_getElem.1 hf
    have hnot := hfirst j f (Nat.lt_of_lt_of_le hj (Nat.min_le_left ..)) (List.getElem?_eq_some_iff.2 ⟨_, hget⟩)
    simpa [and_assoc] using hnot
  subst hdst
  change execFlagApply k.dst i s = _
  simp only [execFlagApply, hk, hnone, State.flagClaimed, State.flagGoesOn, State.flagLeaves]
  obtain ⟨hl, rfl, rfl⟩ | ⟨q, f, hl, hflag, rfl, rfl⟩ := hnext
  · simp only [hl, Nat.not_lt.2 hcome, ne_eq, not_true_eq_false, Bool.false_eq_true, or_self, ↓reduceIte] <;> rfl
  · obtain ⟨rest, hl⟩ := List.head?_eq_some_iff.1 hl
    simp only [hl, hflag, Nat.not_lt.2 hcome, ne_eq, not_true_eq_false, Bool.false_eq_true, or_self, ↓reduceIte] <;> rfl

/-! ## BATCH_RETIRE (R245) -/

theorem exec_batchRetire {s : State} {h : Nat} {x : Team} (ht : s.team? h = some x) (hopen : x.seq.retired ≠ x.seq.closed)
    (hlive : x.seq.abandoned = false) : ∃ u, exec (.batchRetire h) s = .next u ∧
      u.team? h = some { x with seq := { x.seq with retired := x.seq.retired + 1#32 } } ∧ u.mem = s.mem ∧ u.courses = s.courses := by
  refine ⟨_, rfl, (team_modTeam_same ..).trans ?_, rfl, rfl⟩
  rw [ht, Option.map_some, if_neg (by simp [hopen, hlive])]

/-- Settles O52, an event at a time. -/
theorem teamEventsComplete : Obligations.TeamEventsComplete := by
  refine ⟨fun s d q x h s' hnone hq hen _ hhead hready hplace => ?_, fun s h x ht hprot hp hr hf hover hsaved => ?_,
    fun s h x ht hprot hp hr hf hempty => ?_, fun s p i k x count hk hdst hnext hcome hfirst => ?_, fun s h x ht hopen hlive => ?_⟩
  · exact ⟨_, (exec_admissionDecision_empty hnone).trans (congrArg _ (admitOne_only hq hen hhead hready hplace)), rfl, rfl, rfl, rfl⟩
  · refine ⟨_, _, exec_saveComplete_saves ht hprot hp hr hf hover hsaved, team_teamSaved .., rfl, rfl, rfl, mem_leftCore .., fun k c hc hk hlife => ?_⟩
    exact ⟨_, (course_teamSaved ..).trans (congrArg _ hc), by rw [Course.savedWith, if_pos ⟨hk, hlife⟩]⟩
  · exact ⟨_, _, exec_saveComplete_flushes ht hprot hp hr hf hempty, team_teamFlushed .., rfl, mem_leftCore .., fun k hk => course_teamFlushed s h x hk⟩
  · rw [exec_flagApply hk hdst hnext hcome hfirst]
    refine ⟨fun hshared => by rw [hshared]; rfl, fun hun => ?_⟩
    rw [hun, Bool.not_true, if_neg Bool.false_ne_true]
    exact ⟨fun hlast => congrArg _ (if_neg (Nat.not_le.2 hlast)), fun hmore => congrArg _ (if_pos hmore)⟩
  · obtain ⟨u, hu, hteam, hmem, hcourses⟩ := exec_batchRetire ht hopen hlive
    exact ⟨u, _, hu, hteam, rfl, rfl, hmem, hcourses⟩

end Sys2Proof.Machine

/-! # Extended state and the return from a handler (R276-R278) -/

namespace Sys2Proof.Machine

open Sys2Proof Sys2Proof.Spec

/-! ## XSR (R276) -/

section
variable {s : State} {k : Nat} {str : Bool} {c : Course} {t : Team} {w : Word}

/-- A word of each lane is delivered as any vector result is (R82). -/
theorem exec_xsr_perLane (hR : Runs s k str c t) {d : BitVec 6} {x : BitVec 5} (hw : Passes s (.xsr d x) w) (hx : xPerLane x.toNat = true)
    (hr : Ready c (c.active str) [] [(d.toNat, false)]) :
    exec (.xsr d x) s = .next (finished s (s.setCourse k
      (c.deliver (c.mask str) (c.active str) d.toNat false fun l => c.xLane x.toNat l)) w) :=
  runWord_finished (runs_curRuns hR) hw (by simp only [runs_asCourse hR, hx, ↓reduceIte, ready_checks hr])

/-- A course-wide word is written to its group register. -/
theorem exec_xsr_courseWide (hR : Runs s k str c t) {d : BitVec 6} {x : BitVec 5} (hw : Passes s (.xsr d x) w) (hx : xPerLane x.toNat = false) :
    exec (.xsr d x) s = .next (finished s (s.gdst false d.toNat (c.xWord x.toNat)) w) :=
  runWord_finished (runs_curRuns hR) hw (by simp only [runs_asCourse hR, hx, Bool.false_eq_true, ↓reduceIte])

/-! ## XSW (R276, R277) -/

theorem exec_xsw_fullEmpty (hR : Runs s k str c t) {a : BitVec 6} (hw : Passes s (.xsw a 6#5) w) (hr : Ready c (c.active str) [⟨a.toNat, .n32, 13⟩] []) :
    exec (.xsw a 6#5) s = .next (finished s (s.setCourse k (c.mapFrom (c.active str) fun l y =>
      { y with fe := BitVec.ofNat 32 (c.src .n32 a.toNat l) })) w) :=
  runWord_finished (runs_curRuns hR) hw (by simp only [runs_asCourse hR, ready_checks_sources hr]; rfl)

/-- The indices 0x08 to 0x17 are per lane: a store-buffer entry each (R26). -/
theorem xPerLane_entry {x : Nat} (hlo : 8 ≤ x) (hhi : x ≤ 0x17) : xPerLane x = true ∧ x ≠ 6 :=
  ⟨by simp [xPerLane, hlo, hhi], by omega⟩

/-- The image that XSW leaves in an entry: the source's words in the active lanes, the entry's own elsewhere (R277). -/
def Course.imageWritten (c : Course) (str : Bool) (a n l : Nat) : Nat :=
  if (c.active str).getLsbD l then c.src .n32 a l else (c.sbAt n).image l

theorem exec_xsw_entry (hR : Runs s k str c t) {a : BitVec 6} {x : BitVec 5} (hw : Passes s (.xsw a x) w) (hlo : 8 ≤ x.toNat) (hhi : x.toNat ≤ 0x17)
    (hr : Ready c (c.active str) [⟨a.toNat, .n32, 13⟩] []) (hok : imageOk (c.imageWritten str a.toNat (x.toNat - 8)) = true) :
    exec (.xsw a x) s = .next (finished s (s.setCourse k (c.setEntry (x.toNat - 8)
      ((c.sbAt (x.toNat - 8)).ofImage s.fresh (s.stepOf t.core) (c.imageWritten str a.toNat (x.toNat - 8))))).tick w) := by
  obtain ⟨hlane, hne⟩ := xPerLane_entry hlo hhi
  have hok' : imageOk (fun l => if (c.active str).getLsbD l then c.src .n32 a.toNat l else (c.sbAt (x.toNat - 8)).image l) = true := hok
  refine runWord_finished (runs_curRuns hR) hw ?_
  simp only [runs_asCourse hR, runs_team hR, hlane, ↓reduceIte, ready_checks_sources hr, if_neg hne, hok', Bool.not_true, Bool.false_eq_true]
  rfl

theorem exec_xsw_courseWide (hR : Runs s k str c t) {a : BitVec 6} {x : BitVec 5} {c' : Course} (hw : Passes s (.xsw a x) w)
    (hx : xPerLane x.toNat = false) (hclean : Clean s [(a.toNat, false)]) (hc' : c.xWrite x.toNat (c.sc.src false a.toNat) = some c') :
    exec (.xsw a x) s = .next (finished s (s.setCourse k c') w) :=
  runWord_finished (runs_curRuns hR) hw (by
    simp only [runs_asCourse hR, hx, Bool.false_eq_true, ↓reduceIte, groupOp_clean hR hclean, hc'])

end

/-- Settles O20, an access at a time. -/
theorem extendedStateAccessesComplete : Obligations.ExtendedStateAccessesComplete := fun _ _ _ _ _ _ hR =>
  ⟨fun _ _ hw hx hr => exec_xsr_perLane hR hw hx hr, fun _ _ hw hx => exec_xsr_courseWide hR hw hx, fun _ hw hr => exec_xsw_fullEmpty hR hw hr,
    fun _ _ hw hlo hhi hr hok => exec_xsw_entry hR hw hlo hhi hr hok, fun _ _ _ hw hx hclean hc' => exec_xsw_courseWide hR hw hx hclean hc'⟩

/-! ## ERET (R278) -/

/-- A handler that starts again for another cause (R271, R275). -/
def Course.handlerAgain (c : Course) (cause : Cause) (taddr : DWord) (tmask tinfo : Word) : Course :=
  { c with
    mode := modeReset, header := handlerSlot, stretcher := Slot.free, tcause := BitVec.ofNat 32 cause.code
    tpc := if c.xHeader.mask = 0#32 then c.xStretcher.pc else c.xHeader.pc
    taddr := taddr, tmask := tmask, tinfo := tinfo }

theorem takeHeld_oldest {c : Course} {h : HeldCause} {rest : List HeldCause} (hheld : c.held = h :: rest) :
    c.takeHeld = some (({ c with held := rest } : Course).handlerAgain h.cause h.taddr h.tmask h.tinfo) := by
  simp only [Course.takeHeld, hheld]
  rfl

theorem takeHeld_preempt {c : Course} {ti : Word} (hheld : c.held = []) (hpre : c.preempt = some ti) :
    c.takeHeld = some (({ c.freeze with preempt := none } : Course).handlerAgain .preempt 0#64 0#32 ti) := by
  simp only [Course.takeHeld, hheld, hpre]
  rfl

theorem takeHeld_none {c : Course} (hheld : c.held = []) (hpre : c.preempt = none) : c.takeHeld = none := by
  simp only [Course.takeHeld, hheld, hpre]

/-- The course that ERET restores, its handler's stamps kept for what is still under way (R274, R278). -/
def State.restored (s : State) (k : Nat) (c : Course) : Course :=
  { c.restore with spans := s.handlerSpans k (c.spans ++ [(c.entered, s.fresh)]) }

/-- With no miss pending only the slots, MODE and the store buffer come back. -/
theorem restored_noMiss (s : State) (k : Nat) {c : Course} (h : c.faultPend.getLsbD 31 = false) :
    s.restored k c = { c with
      mode := c.xMode, handler := false, header := { c.xHeader with parked := none }, stretcher := { c.xStretcher with parked := none }
      sb := c.unfreeze.sb, spans := s.handlerSpans k (c.spans ++ [(c.entered, s.fresh)]) } := by
  simp only [State.restored, Course.restore, h, Bool.false_and, Bool.false_eq_true, ↓reduceIte]

/-- A header that is taken, beside a stretcher that is taken or at depth 0: nothing is popped. -/
theorem refillFree_nothing {c : Course} (t : Team) (hh : c.header.mask ≠ 0#32) (hs : c.stretcher.mask ≠ 0#32 ∨ c.effDepth = 0) :
    eretFails t c = none ∧ c.refillFree t = c := by
  have hfails : (if c.stretcher.mask = 0#32 then refillFails t c else none) = none := by
    split
    next hfree => exact if_pos (hs.resolve_left (absurd hfree))
    next => rfl
  have hrefill : (if c.stretcher.mask = 0#32 then c.refill t true else c) = c := by
    split
    next hfree => exact if_pos (hs.resolve_left (absurd hfree))
    next => rfl
  exact ⟨by simp only [eretFails, if_neg hh, hfails], by simp only [Course.refillFree, Course.endIfFree, hrefill, hh, false_and, ↓reduceIte]⟩

theorem getElem_freeze (c : Course) (i : Fin 16) : c.freeze.sb[i] = { c.sb[i] with frozen := c.sb[i].frozen || c.sb[i].valid } := by
  simp [Course.freeze]

theorem getElem_unfreeze (c : Course) (i : Fin 16) : c.unfreeze.sb[i] = { c.sb[i] with frozen := false } := by
  simp [Course.unfreeze]

section
variable {s : State} {k : Nat} {str : Bool} {c : Course} {t : Team} {w : Word}

/-- A course that holds a cause begins its handler again. -/
theorem exec_eret_takesHeld (hR : Runs s k str c t) {c' : Course} (hw : Passes s .eret w) (hheld : c.takeHeld = some c') :
    exec .eret s = .next (counted s (s.setCourse k c') w) :=
  runWord_counted (runs_curRuns hR) hw (by simp only [runs_asCourse hR, runs_team hR, hheld])

/-- A course that holds none, and whose slots ERET does not refill, goes on as it is restored. -/
theorem exec_eret_restores (hR : Runs s k str c t) (hw : Passes s .eret w) (hheld : c.takeHeld = none) (hlive : (s.restored k c).life = .live)
    (hnothing : eretFails t (s.restored k c) = none ∧ (s.restored k c).refillFree t = s.restored k c) :
    exec .eret s = .next (counted s (s.setCourse k (s.restored k c)) w) := by
  obtain ⟨hfails, hrefill⟩ := hnothing
  refine runWord_counted (runs_curRuns hR) hw ?_
  unfold State.restored at *
  simp only [runs_asCourse hR, runs_team hR, hheld, hfails, hrefill, hlive, reduceCtorEq, ↓reduceIte]

end

theorem eretRestoresTheTrappedState : EretRestoresTheTrappedState := by
  intro s k str c t w hR hw _ hheld hpre hmiss hheader hstretcher
  have hrestored := restored_noMiss s k hmiss
  have hlive := runs_live hR
  have hexec := exec_eret_restores hR hw (takeHeld_none hheld hpre) (by rw [hrestored]; exact hlive)
    (refillFree_nothing t (by rw [hrestored]; exact hheader) (by rw [hrestored]; exact hstretcher))
  rw [hrestored] at hexec
  refine ⟨_, _, hexec, rfl, rfl, rfl, rfl, rfl, fun i => ?_, rfl, rfl, rfl, rfl, rfl⟩
  simp only [getElem_unfreeze, and_self]

theorem eretTakesAHeldCause : EretTakesAHeldCause := by
  intro s k str c t w hR hw hhandler
  refine ⟨fun h rest hheld => ?_, fun ti hheld hpre => ?_⟩
  · exact ⟨_, exec_eret_takesHeld hR hw (takeHeld_oldest hheld), rfl, rfl, rfl, rfl, rfl, rfl, rfl, hhandler, rfl, rfl, rfl, rfl, rfl⟩
  · refine ⟨_, exec_eret_takesHeld hR hw (takeHeld_preempt hheld hpre), rfl, rfl, rfl, rfl, rfl, hhandler, rfl, fun i hv => ?_⟩
    exact (congrArg SbEntry.frozen (getElem_freeze c i)).trans (by simp only [hv, Bool.or_true])

/-- Settles O21, by whether a cause is held. -/
theorem eretReturnsFromTheHandler : Obligations.EretReturnsFromTheHandler := ⟨eretRestoresTheTrappedState, eretTakesAHeldCause⟩

end Sys2Proof.Machine

/-! # Writes at their homes, and the pieces of a record in place (R290, R325, R342) -/

namespace Sys2Proof.Machine

open Sys2Proof Sys2Proof.Spec

/-! ## What writes at their homes leave alone -/

/-- A part of the state that a write at a home has no hand in: neither memory and its directory, nor dies and packages (R325, R390). -/
abbrev ApartFromHomes {γ : Type} (f : State → γ) : Prop :=
  ∀ (u : State) mem dir dirty dies pkgs, f { u with mem := mem, dir := dir, dirty := dirty, dies := dies, pkgs := pkgs } = f u

section
variable {γ : Type} (f : State → γ) (h : ApartFromHomes f)
include h

theorem touch_keeps (s : State) (pa : Nat) : f (s.touch pa) = f s := by
  unfold State.touch
  dsimp only
  split
  · rfl
  · exact h s s.mem s.dir _ s.dies s.pkgs

theorem tagLine_keeps (s : State) (pa key : Nat) : f (s.tagLine pa key) = f s := by
  unfold State.tagLine
  dsimp only
  split
  · rfl
  · split
    · exact h s s.mem _ s.dirty s.dies s.pkgs
    · exact (h (s.touch pa) _ _ (s.touch pa).dirty (s.touch pa).dies (s.touch pa).pkgs).trans (touch_keeps f h s pa)

theorem rawWrite_keeps (s : State) (pa : Nat) (bytes : List (Option Byte)) : f (s.rawWrite pa bytes) = f s := by
  unfold State.rawWrite
  dsimp only
  refine Eq.trans ?_ (touch_keeps f h s pa)
  split
  · exact h (s.touch pa) _ _ (s.touch pa).dirty (s.touch pa).dies (s.touch pa).pkgs
  · exact h (s.touch pa) _ _ (s.touch pa).dirty _ (s.touch pa).pkgs

theorem engineWrite_keeps (s : State) (pa : Nat) (bytes : List Byte) : f (s.engineWrite pa bytes) = f s :=
  foldl_keeps _ f (fun _ _ => (rawWrite_keeps f h ..).trans (tagLine_keeps f h ..)) _ s

theorem snapFail_keeps (s : State) (p reason : Nat) : f (s.snapFail p reason) = f s :=
  (h (s.engineWrite (s.pkg p).snap.statusPa (bytesOf 4 (reason * 256 + 3))) _ _ _ _ _).trans (engineWrite_keeps f h ..)

theorem shadowLine_keeps (s : State) (pa : Nat) (mark : Option Nat) : f (s.shadowLine pa mark) = f s := by
  unfold State.shadowLine
  dsimp only
  split
  next g i =>
    split
    · rfl
    split
    · exact snapFail_keeps f h ..
    split
    · rfl
    split
    · exact snapFail_keeps f h ..
    · exact (h _ _ _ _ _ _).trans ((engineWrite_keeps f h ..).trans (engineWrite_keeps f h ..))
  next => rfl

theorem homeWriteKey_keeps (s : State) (pa : Nat) (bytes : List (Option Byte)) (mark : Option Nat) (key : Nat) :
    f (s.homeWriteKey pa bytes mark key) = f s := by
  unfold State.homeWriteKey State.homeWrite State.keyLine
  rw [rawWrite_keeps f h, shadowLine_keeps f h, tagLine_keeps f h, shadowLine_keeps f h]

theorem recordWrite_keeps (s : State) (b : Bound) (o : Nat) (bytes : List Byte) : f (s.recordWrite b o bytes) = f s := by
  unfold State.recordWrite
  split
  · exact homeWriteKey_keeps f h ..
  · rfl

end

/-! ## A write of part of a line, in place (R325, R342) -/

theorem setMasked_map_some (m : Memory) (a : Nat) (bs : List Byte) : m.setMasked a (bs.map some) = m.setBytes a bs := by
  induction bs generalizing m a with
  | nil => rfl
  | cons b bs ih => exact ih (m.setByte a b) (a + 1)

theorem memBytes_congr {m m' : Memory} {a n : Nat} (h : ∀ x, a ≤ x → x < a + n → m'.byte x = m.byte x) : m'.bytes a n = m.bytes a n := by
  refine List.ext_getElem ((length_memBytes ..).trans (length_memBytes ..).symm) fun i hi _ => ?_
  rw [length_memBytes] at hi
  rw [getElem_memBytes, getElem_memBytes, h (a + i) (by omega) (by omega)]

theorem memBytes_append (m : Memory) (a n k : Nat) : m.bytes a (n + k) = m.bytes a n ++ m.bytes (a + n) k := by
  induction n generalizing a with
  | zero => rw [Nat.zero_add]; rfl
  | succ n ih =>
    have hnext : a + (n + 1) = a + 1 + n := by omega
    rw [Nat.succ_add, Memory.bytes, ih, hnext]
    rfl

section
variable {s u : State} {pa qa key : Nat}

theorem forward_tagLine (s : State) (pa key a : Nat) : (s.tagLine pa key).forward a = s.forward a := by
  unfold State.tagLine
  dsimp only
  split
  · rfl
  · split
    · rfl
    · exact forward_touch ..

theorem forward_rawWrite (s : State) (pa : Nat) (bytes : List (Option Byte)) (a : Nat) : (s.rawWrite pa bytes).forward a = s.forward a := by
  unfold State.rawWrite
  dsimp only
  split
  · exact forward_touch ..
  · exact (forward_dropHeld ..).trans (forward_touch ..)

theorem pkgs_touch (s : State) (pa : Nat) : (s.touch pa).pkgs = s.pkgs := by
  unfold State.touch; dsimp only; split <;> rfl

theorem pkgs_tagLine (s : State) (pa key : Nat) : (s.tagLine pa key).pkgs = s.pkgs := by
  unfold State.tagLine
  dsimp only
  split
  · rfl
  · split
    · rfl
    · exact pkgs_touch ..

theorem pkgs_rawWrite (s : State) (pa : Nat) (bytes : List (Option Byte)) : (s.rawWrite pa bytes).pkgs = s.pkgs := by
  unfold State.rawWrite
  dsimp only
  split <;> exact pkgs_touch ..

theorem sorted_dir_setLine (hd : SMap.sorted s.dir = true) (pa : Nat) (l : DirLine) : SMap.sorted (s.setLine pa l).dir = true :=
  sorted_setD hd ..

theorem line_setLine (hd : SMap.sorted s.dir = true) (pa : Nat) (l : DirLine) : (s.setLine pa l).line pa = l := getD_setD_same hd ..

theorem sorted_dir_tagLine (hd : SMap.sorted s.dir = true) (pa key : Nat) : SMap.sorted (s.tagLine pa key).dir = true := by
  unfold State.tagLine
  dsimp only
  split
  · exact hd
  · split
    · exact sorted_dir_setLine hd ..
    · refine sorted_dir_setLine ?_ ..
      rwa [dir_touch]

theorem sorted_dir_rawWrite (hd : SMap.sorted s.dir = true) (pa : Nat) (bytes : List (Option Byte)) : SMap.sorted (s.rawWrite pa bytes).dir = true := by
  unfold State.rawWrite
  dsimp only
  refine sorted_dir_setLine ?_ ..
  split
  · rwa [dir_touch]
  · exact (congrArg SMap.sorted (dir_touch ..)).trans hd

/-- The material of a line as it is listed, whatever bytes are stored with it. -/
theorem mat_setLine (v : State) (hd : SMap.sorted v.dir = true) (mem : Memory) (pa : Nat) (l : DirLine) :
    ((State.setLine { v with mem := mem } pa l).line pa).mat = l.mat :=
  congrArg DirLine.mat (line_setLine (s := { v with mem := mem }) hd pa l)

theorem line_touch (s : State) (pa a : Nat) : (s.touch pa).line a = s.line a := by
  simp only [State.line, dir_touch, forward_touch]

theorem line_dropHeld (s : State) (pa a : Nat) : (s.dropHeld pa).line a = s.line a := by
  rw [State.line, forward_dropHeld]
  rfl

/-- What a line is encrypted under outlasts a write to it. -/
theorem mat_rawWrite (hd : SMap.sorted s.dir = true) (pa : Nat) (bytes : List (Option Byte)) :
    ((s.rawWrite pa bytes).line pa).mat = (s.line pa).mat := by
  have hsorted : SMap.sorted (s.touch pa).dir = true := by rwa [dir_touch]
  unfold State.rawWrite
  dsimp only
  split
  · exact (mat_setLine (s.touch pa) hsorted ..).trans (by rw [line_touch])
  · exact (mat_setLine ((s.touch pa).dropHeld pa) hsorted ..).trans (by rw [line_dropHeld, line_touch])

/-- A key id that names another material than the line's names it whatever the line is under. -/
theorem keyMat_of_other (hne : (s.line pa).mat ≠ s.keyMat pa key) (hpkgs : u.pkgs = s.pkgs) (hfw : u.forward pa = s.forward pa) :
    u.keyMat pa key = s.keyMat pa key := by
  unfold State.keyMat State.pkg at *
  rw [hpkgs, hfw]
  split
  next => rfl
  next hnone => exact absurd (by rw [hnone]) hne

/-- Two addresses of one line, or one address at two times, are under the same key material. -/
theorem sameKey_congr (h : SameKey s pa key) (hpkgs : u.pkgs = s.pkgs) (hmat : (u.line qa).mat = (s.line pa).mat) (hhbm : isHbm qa = isHbm pa)
    (hpkg : u.forward qa / 2 ^ 48 = s.forward pa / 2 ^ 48) : SameKey u qa key := by
  unfold SameKey State.keyMat State.pkg at *
  rwa [hhbm, hpkgs, hmat, hpkg]

/-- The line that a write changes is under the write's key from then on (R342). -/
theorem sameKey_tagLine (hd : SMap.sorted s.dir = true) (pa key : Nat) : SameKey (s.tagLine pa key) pa key := by
  have hsorted : SMap.sorted (s.touch pa).dir = true := by rwa [dir_touch]
  have hfw := forward_tagLine s pa key pa
  have hpkgs := pkgs_tagLine s pa key
  by_cases hhbm : isHbm pa = true
  case neg => exact .inl (by simpa using hhbm)
  by_cases hmat : (s.line pa).mat = s.keyMat pa key
  · refine sameKey_congr (.inr hmat) hpkgs ?_ rfl (by rw [hfw])
    simp only [State.tagLine, hhbm, hmat, Bool.not_true, Bool.false_eq_true, ↓reduceIte]
    exact mat_setLine s hd ..
  · have htouch : (s.touch pa).keyMat pa key = s.keyMat pa key := keyMat_of_other hmat (pkgs_touch ..) (forward_touch ..)
    refine .inr (Eq.trans ?_ (keyMat_of_other hmat hpkgs hfw).symm)
    simp only [State.tagLine, hhbm, hmat, Bool.not_true, Bool.false_eq_true, ↓reduceIte, htouch]
    exact mat_setLine (s.touch pa) hsorted ..

/-- Putting a line under a write's key changes no byte before the line. -/
theorem byte_tagLine_before {x : Nat} (hal : pa % 128 = 0) (hfw : s.forward pa = pa) (key : Nat) (hx : x < pa) :
    (s.tagLine pa key).mem.byte x = s.mem.byte x := by
  have hline : (s.touch pa).forward (128 * lineOf pa) = pa := by
    rw [forward_touch, lineOf, Nat.mul_div_cancel' (Nat.dvd_of_mod_eq_zero hal), hfw]
  unfold State.tagLine
  dsimp only
  split
  · rfl
  · split
    · rfl
    · exact (byte_setBytes_other _ _ (.inl (by rw [hline]; exact hx))).trans (congrArg (Memory.byte · x) (mem_touch ..))

end

/-! ## A record's 64-byte pieces (R290) -/

/-- The address belongs to HBM or not with its whole line. -/
theorem isHbm_line {pa : Nat} (h : pa % 128 = 0) : isHbm (pa + 64) = isHbm pa := by
  unfold isHbm regLo
  exact decide_eq_decide.2 (by omega)

/-- In state u, whose frames lie as in s, the first n 64-byte pieces of a record are these bytes; a next piece in the middle of a line finds
the line under the record's key already. -/
structure Filled (s u : State) (pa key n : Nat) (bytes : List Byte) : Prop where
  wf : u.memWf
  sorted : SMap.sorted u.dir = true
  forward : ∀ a, u.forward a = s.forward a
  stored : u.mem.bytes pa (64 * n) = bytes
  sameKey : n % 2 = 1 → SameKey u (pa + 64 * n) key

theorem filled_none {s : State} (hwf : s.memWf) (hd : SMap.sorted s.dir = true) (pa key : Nat) : Filled s s pa key 0 [] :=
  ⟨hwf, hd, fun _ => rfl, rfl, nofun⟩

section
variable {s u : State} {pa key n : Nat} {bytes piece : List Byte}

/-- The next piece is stored after those there are. -/
theorem Filled.next (h : Filled s u pa key n bytes) (hal : pa % 128 = 0) (hfw : ∀ i, i < 258 → s.forward (pa + 64 * i) = pa + 64 * i) (hn : n < 258)
    (hpiece : piece.length = 64) : Filled s (u.homeWriteKey (pa + 64 * n) (piece.map some) none key) pa key (n + 1) (bytes ++ piece) := by
  obtain ⟨hwf, hsorted, hforward, hstored, hkey⟩ := h
  have hat : u.forward (pa + 64 * n) = pa + 64 * n := (hforward _).trans (hfw n hn)
  have hbefore : (u.tagLine (pa + 64 * n) key).mem.bytes pa (64 * n) = bytes := by
    rw [← hstored]
    obtain heven | hodd := Nat.mod_two_eq_zero_or_one n
    · exact memBytes_congr fun x _ hx => byte_tagLine_before (by omega) hat key hx
    · rw [mem_tagLine (hkey hodd)]
  have hmem := (storedInPlace_rawWrite (s := u.tagLine (pa + 64 * n) key) ((forward_tagLine ..).trans hat) (piece.map some)).mem
  rw [setMasked_map_some] at hmem
  have htagged := sorted_dir_tagLine hsorted (pa + 64 * n) key
  change Filled s ((u.tagLine (pa + 64 * n) key).rawWrite (pa + 64 * n) (piece.map some)) pa key (n + 1) (bytes ++ piece)
  refine ⟨memWf_rawWrite _ _ (memWf_tagLine _ _ hwf), sorted_dir_rawWrite htagged .., fun a => ?_, ?_, fun hodd => ?_⟩
  · rw [forward_rawWrite, forward_tagLine, hforward]
  · rw [Nat.mul_succ, memBytes_append, hmem, bytes_setBytes (memWf_tagLine _ _ hwf) _ hpiece, ← hbefore]
    exact congrArg (· ++ piece) (memBytes_congr fun x _ hx => byte_setBytes_other _ _ (.inl hx))
  · have hline : (pa + 64 * n) % 128 = 0 := by omega
    have hnext := (hforward _).trans (hfw (n + 1) (by omega))
    have hsucc : pa + 64 * (n + 1) = pa + 64 * n + 64 := by omega
    rw [hsucc] at hnext ⊢
    refine sameKey_congr (sameKey_tagLine hsorted (pa + 64 * n) key) (pkgs_rawWrite ..) ?_ (isHbm_line hline) ?_
    · have hsame : ∀ v : State, (∀ a, v.forward a = u.forward a) → v.line (pa + 64 * n + 64) = v.line (pa + 64 * n) := fun v hv => by
        rw [State.line, State.line, hv, hv, hnext, hat, lineOf, lineOf]
        congr 1
        omega
      rw [hsame _ fun a => by rw [forward_rawWrite, forward_tagLine], mat_rawWrite htagged]
    · rw [forward_rawWrite, forward_tagLine, forward_tagLine, hnext, hat]
      omega

end

end Sys2Proof.Machine

/-! # The pending record's instructions (R289-R292, R325) -/

namespace Sys2Proof.Machine

open Sys2Proof Sys2Proof.Spec

/-! ## Where a record lies (R289, R291) -/

/-- A walk that finds no leaf answers no address. -/
theorem walk_inl_ne_ok {s : State} {x : Xlat} {canMiss : Bool} {k table va : Nat} {r : TRes} (ls : List WalkLevel)
    (h : s.walk x canMiss k ls table va = .inl r) (pa leaf : Nat) : r ≠ .ok pa leaf := by
  rintro rfl
  induction ls generalizing table with
  | nil => cases h
  | cons l ls ih =>
    unfold State.walk at h
    dsimp only at h
    split at h
    · split at h <;> cases h
    split at h
    · split at h
      · cases h
      split at h <;> cases h
    split at h
    · cases h
    split at h
    · cases h
    · exact ih h

theorem leafChecks_offset {s : State} {x : Xlat} {va pa leaf l size : Nat} {kind : AccKind} (h : s.leafChecks x va kind l size = .ok pa leaf) :
    pa = bitsOf l 63 28 * 2 ^ 16 + va % 2 ^ size := by
  unfold State.leafChecks at h
  dsimp only at h
  split at h
  · cases h
  split at h
  · cases h
  split at h
  · cases h
  split at h
  · cases h
  · exact (TRes.ok.inj h).1.symm

/-- A translation keeps the address's place in its page, whatever the page's size. -/
theorem translate_offset {s : State} {x : Xlat} {va pa leaf : Nat} {kind : AccKind} {park : Bool} (h : s.translate x va kind park = .ok pa leaf) :
    ∃ frame size, pa = frame * 2 ^ 16 + va % 2 ^ size := by
  unfold State.translate at h
  split at h
  · cases h
  split at h
  · exact ⟨_, _, leafChecks_offset h⟩
  split at h
  next hwalk => exact absurd h (walk_inl_ne_ok _ hwalk pa leaf)
  · exact ⟨_, _, leafChecks_offset h⟩

/-- A line's address is that of a line after translation. -/
theorem lineAligned_offset {va : Nat} (h : va % 128 = 0) (frame size : Nat) : (frame * 2 ^ 16 + va % 2 ^ size) % 128 = 0 := by
  obtain hlt | hle := Nat.lt_or_ge size 7
  · have hzero : va % 2 ^ size = 0 := Nat.mod_eq_zero_of_dvd ((pow_dvd_pow 2 (Nat.le_of_lt hlt)).trans (Nat.dvd_of_mod_eq_zero h))
    omega
  · have hmod := Nat.mod_mod_of_dvd va (pow_dvd_pow 2 hle)
    omega

/-- The 64 KiB units that a record touches. -/
abbrev recordUnits (va : Nat) : List Nat :=
  if va / 65536 = (va + 16511) / 65536 then [va / 65536] else [va / 65536, (va + 16511) / 65536]

theorem oneAccess_eq_ok {s u : State} {va size pa leaf op : Nat} {kind : AccKind} {ban : Nat → Bool} (h : s.oneAccess va size kind ban op = .ok u pa leaf) :
    ∃ x park, u = s.noteTlb x va ∧ s.translate x va kind park = .ok pa leaf := by
  unfold State.oneAccess at h
  split at h
  · cases h
  next x hx =>
  split at h
  · cases h
  split at h
  · cases h
  · cases h
  · cases h
  next hok =>
    split at h
    · cases h
    split at h
    · cases h
    · cases h
      exact ⟨x, _, rfl, hok⟩

theorem pendPages_cons {s u : State} {va p : Nat} {rest : List Nat} {ps : List (Nat × Nat × Nat)} {b : Bound}
    (h : s.pendPages va (p :: rest) ps = .ok u b) : ∃ x park pa leaf, s.translate x (max va (65536 * p)) .store park = .ok pa leaf ∧
      (s.noteTlb x (max va (65536 * p))).pendPages va rest (ps ++ [(p, pa - max va (65536 * p) % 65536, leaf)]) = .ok u b := by
  rw [State.pendPages] at h
  split at h
  · cases h
  next hone =>
    split at h
    · cases h
    · obtain ⟨x, park, rfl, hok⟩ := oneAccess_eq_ok hone
      exact ⟨x, park, _, _, hok, h⟩

/-- Finding a record's pages changes TLBs alone. -/
theorem pendPages_keeps {γ : Type} (f : State → γ) (hf : ∀ u p es, f (State.setTlb u p es) = f u) {va : Nat} {u : State} {b : Bound} (units : List Nat)
    {s : State} {ps : List (Nat × Nat × Nat)} (h : s.pendPages va units ps = .ok u b) : f u = f s := by
  induction units generalizing s ps with
  | nil => cases h; rfl
  | cons p rest ih =>
    obtain ⟨_, _, _, _, _, hrest⟩ := pendPages_cons h
    exact (ih hrest).trans (noteTlb_keeps f hf ..)

theorem pendPages_ok {va : Nat} {u : State} {b : Bound} (units : List Nat) {s : State} {ps : List (Nat × Nat × Nat)}
    (h : s.pendPages va units ps = .ok u b) : b.va = va ∧ b.pages.length = ps.length + units.length := by
  induction units generalizing s ps with
  | nil => cases h; exact ⟨rfl, rfl⟩
  | cons p rest ih =>
    obtain ⟨_, _, _, _, _, hrest⟩ := pendPages_cons h
    obtain ⟨hva, hlen⟩ := ih hrest
    exact ⟨hva, by rw [hlen, List.length_append, List.length_singleton, List.length_cons]; omega⟩

/-- A record in one page lies in one 64 KiB unit, from a line's start on. -/
theorem pendPages_single {s u : State} {va p leaf : Nat} {b : Bound} (hal : va % 128 = 0) (h : s.pendPages va (recordUnits va) [] = .ok u b)
    (hb : b.pages = [(va / 65536, p, leaf)]) : b.va = va ∧ va / 65536 = (va + 16511) / 65536 ∧ (p + va % 65536) % 128 = 0 := by
  obtain ⟨hva, hlen⟩ := pendPages_ok _ h
  have hunits : va / 65536 = (va + 16511) / 65536 := by
    by_contra hne
    simp [recordUnits, hne, hb] at hlen
  refine ⟨hva, hunits, ?_⟩
  rw [recordUnits, if_pos hunits] at h
  obtain ⟨x, park, pa, leaf', htr, hrest⟩ := pendPages_cons h
  cases hrest
  have hstart : max va (65536 * (va / 65536)) = va := Nat.max_eq_left (Nat.mul_div_le ..)
  rw [hstart] at htr hb
  obtain ⟨rfl, -⟩ : pa - va % 65536 = p ∧ leaf' = leaf := by simpa using hb
  obtain ⟨frame, size, rfl⟩ := translate_offset htr
  have := lineAligned_offset hal frame size
  omega

/-! ## PEND.BIND's record (R290, R291) -/

/-- A record's head and its first n empty entries written, a piece at a time. -/
def State.recordEmptied (s : State) (b : Bound) (head : List Byte) (n : Nat) : State :=
  (List.range n).foldl (fun s i => s.recordWrite b (64 + 64 * i) (List.replicate 64 0#8)) (s.recordWrite b 0 head)

theorem recordEmptied_succ (s : State) (b : Bound) (head : List Byte) (n : Nat) :
    s.recordEmptied b head (n + 1) = (s.recordEmptied b head n).recordWrite b (64 + 64 * n) (List.replicate 64 0#8) := by
  rw [State.recordEmptied, List.range_succ, List.foldl_append]
  rfl

theorem recordEmptied_keeps {γ : Type} (f : State → γ) (h : ApartFromHomes f) (s : State) (b : Bound) (head : List Byte) (n : Nat) :
    f (s.recordEmptied b head n) = f s :=
  (foldl_keeps _ f (fun _ _ => recordWrite_keeps f h ..) _ _).trans (recordWrite_keeps f h ..)

section
variable (s : State) (b : Bound) (head : List Byte) (n k : Nat)

@[simp] theorem cur_recordEmptied : (s.recordEmptied b head n).cur = s.cur := recordEmptied_keeps State.cur (fun _ _ _ _ _ _ => rfl) ..
@[simp] theorem team?_recordEmptied : (s.recordEmptied b head n).team? k = s.team? k :=
  recordEmptied_keeps (fun u => u.team? k) (fun _ _ _ _ _ _ => rfl) ..
@[simp] theorem course?_recordEmptied : (s.recordEmptied b head n).course? k = s.course? k :=
  recordEmptied_keeps (fun u => u.course? k) (fun _ _ _ _ _ _ => rfl) ..

end

/-- A record that lies in one page of one 64 KiB unit, from a line's start on, in a frame that does not move (R337) and is not protected (R390). -/
structure OnePage (s : State) (b : Bound) (p leaf : Nat) : Prop where
  pages : b.pages = [(b.va / 65536, p, leaf)]
  unit : b.va / 65536 = (b.va + 16511) / 65536
  mark : snapMark leaf = none
  aligned : (p + b.va % 65536) % 128 = 0
  inPlace : ∀ i, i < 258 → s.forward (p + b.va % 65536 + 64 * i) = p + b.va % 65536 + 64 * i

section
variable {s : State} {b : Bound} {p leaf : Nat} {head : List Byte} (h : OnePage s b p leaf)
include h

/-- A piece of the record is written at its offset, under the key of the page's leaf. -/
theorem OnePage.recordWrite_eq {o : Nat} (ho : o ≤ 16511) (u : State) (bytes : List Byte) :
    u.recordWrite b o bytes = u.homeWriteKey (p + b.va % 65536 + o) (bytes.map some) none (leafKey leaf) := by
  obtain ⟨hpages, hunit, hmark, -, -⟩ := h
  have hpage : b.va / 65536 = (b.va + o) / 65536 := by omega
  have hplace : p + (b.va + o) % 65536 = p + b.va % 65536 + o := by omega
  simp only [State.recordWrite, hpages, List.find?_cons, hpage, decide_true, hmark, hplace]

theorem OnePage.filled (hwf : s.memWf) (hd : SMap.sorted s.dir = true) (hhead : head.length = 64) (n : Nat) (hn : n ≤ 257) :
    Filled s (s.recordEmptied b head n) (p + b.va % 65536) (leafKey leaf) (n + 1) (head ++ List.replicate (64 * n) 0#8) := by
  induction n with
  | zero =>
    have hwrite : s.recordEmptied b head 0 = _ := h.recordWrite_eq (Nat.zero_le _) s head
    rw [hwrite]
    simpa using (filled_none hwf hd (p + b.va % 65536) (leafKey leaf)).next h.aligned h.inPlace (by decide) hhead
  | succ n ih =>
    have hnext := (ih (by omega)).next h.aligned h.inPlace (by omega) (List.length_replicate (n := 64) (a := 0#8))
    have hplace : 64 + 64 * n = 64 * (n + 1) := by omega
    have hzeros : head ++ List.replicate (64 * (n + 1)) 0#8 = head ++ List.replicate (64 * n) 0#8 ++ List.replicate 64 0#8 := by
      rw [List.append_assoc, List.replicate_append_replicate, Nat.mul_succ]
    rw [recordEmptied_succ, h.recordWrite_eq (by omega), hplace, hzeros]
    exact hnext

/-- The record reads as its head and zero (R290). -/
theorem OnePage.bytes_recordEmptied (hwf : s.memWf) (hd : SMap.sorted s.dir = true) (hhead : head.length = 64) :
    (s.recordEmptied b head 257).mem.bytes (p + b.va % 65536) 16512 = head ++ List.replicate 16448 0#8 :=
  (h.filled hwf hd hhead 257 (Nat.le_refl _)).stored

end

theorem length_pendHead (tid cid core clock : Nat) : (pendHead tid cid core clock).length = 64 := by
  simp [pendHead, bytesOf]

/-! ## PEND.BIND and PEND.IMP -/

/-- A course bound to a record (R289). -/
def State.boundTo (s : State) (k : Nat) (r : Bound) : State := s.modCourse k fun c => { c with bound := some r }

/-- The slot's request to the record's old core (R292). -/
def State.redirectReq (s : State) (c : Course) (str : Bool) (b : Bound) : GroupReq :=
  { agent := s.cur, reg := none, wide := false, op := .redirect { b with core := bitsOf (s.recordRead b 8 4) 31 16 }, pc := (c.slot str).pc }

section
variable {s u : State} {k : Nat} {str : Bool} {c : Course} {t : Team} {w : Word} {a : BitVec 6} {va : Nat} {b : Bound}

theorem pendRecord_misaligned (hal : va % 128 ≠ 0) (go : State → Bound → Res) : s.pendRecord va go = .trap .align va 0 128 := if_pos hal

theorem pendRecord_found (hal : va % 128 = 0) (hpages : s.pendPages va (recordUnits va) [] = .ok u b) (go : State → Bound → Res) :
    s.pendRecord va go = go u b := by
  have hpages' : s.pendPages va (if va / 65536 = (va + pendBytes - 1) / 65536 then [va / 65536] else [va / 65536, (va + pendBytes - 1) / 65536]) [] =
    .ok u b := hpages
  simp only [State.pendRecord, hal, hpages', ne_eq, not_true_eq_false, ↓reduceIte]

variable (hR : Runs s k str c t) (hclean : Clean s [(a.toNat, true)]) (hva : c.sc.src true a.toNat = va)
include hR hclean hva

theorem exec_pendBind_misaligned (hw : Passes s (.pendBind a) w) (hal : va % 128 ≠ 0) : exec (.pendBind a) s = .next (s.takeTrap .align va 0 128) :=
  runWord_takesTrap (runs_curRuns hR) hw (by simp only [groupOp_clean hR hclean, runs_asCourse hR, runs_team hR, hva, pendRecord_misaligned hal])

theorem exec_pendImp_misaligned (hw : Passes s (.pendImp a) w) (hal : va % 128 ≠ 0) : exec (.pendImp a) s = .next (s.takeTrap .align va 0 128) :=
  runWord_takesTrap (runs_curRuns hR) hw (by simp only [groupOp_clean hR hclean, runs_asCourse hR, runs_team hR, hva, pendRecord_misaligned hal])

variable (hal : va % 128 = 0) (hpages : s.pendPages va (recordUnits va) [] = .ok u b)
include hal hpages

theorem exec_pendBind_bound (hw : Passes s (.pendBind a) w) (hb : c.bound.isSome = true) :
    exec (.pendBind a) s = .next (s.takeTrap .illMode 0 0 1) :=
  runWord_takesTrap (runs_curRuns hR) hw (by
    simp only [groupOp_clean hR hclean, runs_asCourse hR, runs_team hR, hva, pendRecord_found hal hpages, hb, ↓reduceIte])

theorem exec_pendBind_shared (hw : Passes s (.pendBind a) w) (hb : c.bound = none) (hh : u.spOutstanding k false = false)
    (hs : u.spOutstanding k true = false) (hg : u.gbaraOut k = false) (hlines : u.recordLines b ≠ []) :
    exec (.pendBind a) s = .next ((u.recordLines b).foldl State.invalidate u) :=
  runWord_stays (runs_curRuns hR) hw (by
    simp only [groupOp_clean hR hclean, runs_asCourse hR, runs_team hR, hva, pendRecord_found hal hpages, hb, hh, hs, hg,
      List.isEmpty_eq_false_iff.2 hlines, Option.isSome_none, Bool.or_self, Bool.not_false, Bool.false_eq_true, ↓reduceIte])

theorem exec_pendBind_binds (hw : Passes s (.pendBind a) w) (hb : c.bound = none) (hh : u.spOutstanding k false = false)
    (hs : u.spOutstanding k true = false) (hg : u.gbaraOut k = false) (hlines : u.recordLines b = []) :
    exec (.pendBind a) s = .next (finished s
      ((u.recordEmptied b (pendHead t.tid.toNat c.cid t.core (u.core t.core).clock) 257).boundTo k { b with core := t.core }) w) :=
  runWord_finished (runs_curRuns hR) hw (by
    simp only [groupOp_clean hR hclean, runs_asCourse hR, runs_team hR, hva, pendRecord_found hal hpages, hb, hh, hs, hg,
      hlines, List.isEmpty_nil, Option.isSome_none, Bool.or_self, Bool.not_true, Bool.false_eq_true, ↓reduceIte]
    rfl)

/-- R292: a record of another team, one that is not valid, or one imported already. -/
theorem exec_pendImp_refused (hw : Passes s (.pendImp a) w)
    (hfits : ¬ (u.recordRead b 0 8 = t.tid.toNat ∧ (u.recordRead b 8 4).testBit 0 = true ∧ (u.recordRead b 8 4).testBit 1 = false)) :
    exec (.pendImp a) s = .next (s.takeTrap .illMode 0 0 2) := by
  have hrefused : u.recordRead b 0 8 ≠ t.tid.toNat ∨ (!(u.recordRead b 8 4).testBit 0) = true ∨ (u.recordRead b 8 4).testBit 1 = true := by
    simpa only [not_and_or, Bool.not_eq_true, Bool.not_eq_false, Bool.not_eq_true'] using hfits
  exact runWord_takesTrap (runs_curRuns hR) hw (by
    simp only [groupOp_clean hR hclean, runs_asCourse hR, runs_team hR, hva, pendRecord_found hal hpages, hrefused, ↓reduceIte])

variable (hfits : u.recordRead b 0 8 = t.tid.toNat ∧ (u.recordRead b 8 4).testBit 0 = true ∧ (u.recordRead b 8 4).testBit 1 = false)
include hfits

theorem exec_pendImp_asks (hw : Passes s (.pendImp a) w) (hn : NotBegun c str) :
    exec (.pendImp a) s = .next ((u.send (.group (u.redirectReq c str b))).modCourse k
      fun c => c.setSlot str { c.slot str with hold := .reply u.fresh }) := by
  obtain ⟨htid, hvalid, hfirst⟩ := hfits
  refine runWord_stays (runs_curRuns hR) hw ?_
  simp only [groupOp_clean hR hclean, runs_asCourse hR, runs_team hR, hva, pendRecord_found hal hpages, htid, hvalid, hfirst, ne_eq, not_true_eq_false,
    Bool.not_true, Bool.false_eq_true, or_self, ↓reduceIte]
  split
  next n hf => exact absurd hf (hn n).1
  next => rfl

theorem exec_pendImp_imports (hw : Passes s (.pendImp a) w) {n : Nat} (hb : Begun c str n) (hs : u.recordShared b 0 = none) :
    exec (.pendImp a) s = .next (finished s (u.pendFinish k c t.core b) w) := by
  obtain ⟨htid, hvalid, hfirst⟩ := hfits
  refine runWord_finished (runs_curRuns hR) hw ?_
  simp only [groupOp_clean hR hclean, runs_asCourse hR, runs_team hR, hva, pendRecord_found hal hpages, htid, hvalid, hfirst, hb, hs, ne_eq,
    not_true_eq_false, Bool.not_true, Bool.false_eq_true, or_self, ↓reduceIte]

theorem exec_pendImp_shared (hw : Passes s (.pendImp a) w) {n pa : Nat} (hb : Begun c str n) (hs : u.recordShared b 0 = some pa) :
    exec (.pendImp a) s = .next (u.invalidate pa) := by
  obtain ⟨htid, hvalid, hfirst⟩ := hfits
  refine runWord_stays (runs_curRuns hR) hw ?_
  simp only [groupOp_clean hR hclean, runs_asCourse hR, runs_team hR, hva, pendRecord_found hal hpages, htid, hvalid, hfirst, hb, hs, ne_eq,
    not_true_eq_false, Bool.not_true, Bool.false_eq_true, or_self, ↓reduceIte]

end

theorem mem_finished {s u : State} {k : Nat} {str : Bool} {t : Team} (hc : u.cur = .course k str) (ht : u.team? (k / 16) = some t) (w : Word) :
    (finished s u w).mem = u.mem := by
  obtain ⟨_, _, _, h⟩ := finished_of_course (s := s) hc ht w
  rw [h]
  rfl

/-- What the completion of PEND.BIND leaves of its course and of memory. -/
theorem finished_binds {s u : State} {k : Nat} {str : Bool} {c : Course} {t : Team} (hcur : u.cur = .course k str) (hteam : u.team? (k / 16) = some t)
    (hcourse : u.course? k = some c) (r : Bound) (w : Word) :
    ∃ c', (finished s (u.boundTo k r) w).course? k = some c' ∧ c'.bound = some r ∧ (c'.slot str).pc = (c.slot str).pc + 4#32 ∧
      c'.lanes = c.lanes ∧ (finished s (u.boundTo k r) w).mem = u.mem := by
  have hbound : (u.boundTo k r).course? k = some { c with bound := some r } := (course_modCourse_same ..).trans (congrArg (Option.map _) hcourse)
  obtain ⟨n, y, hnext⟩ := finished_course (s := s) (u := u.boundTo k r) hcur hteam hbound w
  refine ⟨_, hnext, ?_, ?_, ?_, mem_finished (u := u.boundTo k r) hcur hteam w⟩
  all_goals cases str <;> rfl

/-- Settles O42, an outcome of each instruction at a time. -/
theorem pendingRecordInstructionsComplete : Obligations.PendingRecordInstructionsComplete := by
  intro s k str c t w a u b hR hclean va lo hi
  have hva : c.sc.src true a.toNat = va := by rw [← runs_sc hR]; rfl
  clear_value va
  refine ⟨fun hal => ⟨fun hw => exec_pendBind_misaligned hR hclean hva hw hal, fun hw => exec_pendImp_misaligned hR hclean hva hw hal⟩,
    fun hal hpages => ?_⟩
  have hcur : u.cur = .course k str := (pendPages_keeps State.cur (fun _ p _ => by cases p <;> rfl) _ hpages).trans (runs_cur hR)
  have hcourse : u.course? k = some c :=
    (pendPages_keeps (fun v => v.course? k) (fun _ p _ => by cases p <;> rfl) _ hpages).trans (runs_course hR)
  have hteam : u.team? (k / 16) = some t :=
    (pendPages_keeps (fun v => v.team? (k / 16)) (fun _ p _ => by cases p <;> rfl) _ hpages).trans (runs_team hR)
  refine ⟨fun hw hb hh hs hg => ⟨fun hlines => exec_pendBind_shared hR hclean hva hal hpages hw hb hh hs hg hlines, fun hlines => ?_⟩,
    fun hw hb => exec_pendBind_bound hR hclean hva hal hpages hw hb, fun hw =>
    ⟨fun hfits => exec_pendImp_refused hR hclean hva hal hpages hw hfits, fun hfits hn => ?_,
      fun _ hfits hb hs => exec_pendImp_imports hR hclean hva hal hpages hfits hw hb hs,
      fun _ _ hfits hb hs => exec_pendImp_shared hR hclean hva hal hpages hfits hw hb hs⟩⟩
  · obtain ⟨c', hc', hbound, hpc, hlanes, hmem⟩ := finished_binds (s := s)
      ((cur_recordEmptied u b (pendHead t.tid.toNat c.cid t.core (u.core t.core).clock) 257).trans hcur) ((team?_recordEmptied ..).trans hteam)
      ((course?_recordEmptied ..).trans hcourse) { b with core := t.core } w
    refine ⟨_, c', exec_pendBind_binds hR hclean hva hal hpages hw hb hh hs hg hlines, hc', hbound, hpc, hlanes, hmem,
      fun p leaf hpage hmark hfw hwf hd => ?_⟩
    obtain ⟨hbva, hunits, hstart⟩ := pendPages_single hal hpages hpage
    rw [hmem]
    subst hbva
    exact (OnePage.mk hpage hunits hmark hstart hfw).bytes_recordEmptied hwf hd (length_pendHead ..)
  · refine ⟨_, u.redirectReq c str b, c.setSlot str { c.slot str with hold := .reply u.fresh }, exec_pendImp_asks hR hclean hva hal hpages hfits hw hn,
      flight_send .., rfl, (course_modCourse_same ..).trans (congrArg (Option.map _) hcourse), ?_, ?_⟩ <;> rw [slot_setSlot_same]

end Sys2Proof.Machine

/-! # Bits of a field put into a word (R6) -/

namespace Sys2Proof.Machine

open Sys2Proof Sys2Proof.Spec

theorem testBit_bitsOf (x hi lo i : Nat) : (bitsOf x hi lo).testBit i = (decide (i < hi + 1 - lo) && x.testBit (lo + i)) := by
  simp [bitsOf, Nat.testBit_mod_two_pow, Nat.testBit_shiftRight]

/-- In a number cut below and above a field, setBits exchanges the field b alone. -/
theorem setBits_parts (a v : Nat) {hi lo b c : Nat} (hb : b < 2 ^ (hi + 1 - lo)) (hc : c < 2 ^ lo) :
    setBits (2 ^ lo * (2 ^ (hi + 1 - lo) * a + b) + c) hi lo v = 2 ^ lo * (2 ^ (hi + 1 - lo) * a + v % 2 ^ (hi + 1 - lo)) + c := by
  have hfield : bitsOf (2 ^ lo * (2 ^ (hi + 1 - lo) * a + b) + c) hi lo = b := by
    rw [bitsOf, Nat.shiftRight_eq_div_pow, Nat.mul_add_div (Nat.two_pow_pos lo), Nat.div_eq_of_lt hc, Nat.add_zero, Nat.mul_add_mod,
      Nat.mod_eq_of_lt hb]
  simp only [setBits, hfield]
  simp only [Nat.mul_add, Nat.mul_comm _ (2 ^ lo)]
  omega

theorem testBit_setBits (x v : Nat) {hi lo : Nat} (h : lo ≤ hi) (i : Nat) :
    (setBits x hi lo v).testBit i = if lo ≤ i ∧ i ≤ hi then v.testBit (i - lo) else x.testBit i := by
  have hfield (y : Nat) := Nat.mod_lt y (Nat.two_pow_pos (hi + 1 - lo))
  obtain ⟨a, b, c, hb, hc, rfl⟩ : ∃ a b c, b < 2 ^ (hi + 1 - lo) ∧ c < 2 ^ lo ∧ x = 2 ^ lo * (2 ^ (hi + 1 - lo) * a + b) + c :=
    ⟨_, _, _, hfield (x / 2 ^ lo), Nat.mod_lt x (Nat.two_pow_pos lo), by rw [Nat.div_add_mod, Nat.div_add_mod]⟩
  rw [setBits_parts a v hb hc]
  simp only [Nat.testBit_two_pow_mul_add _ hc, Nat.testBit_two_pow_mul_add _ hb, Nat.testBit_two_pow_mul_add _ (hfield v), Nat.testBit_mod_two_pow]
  grind

theorem testBit_setBits_outside (x v : Nat) {hi lo i : Nat} (h : lo ≤ hi) (hout : i < lo ∨ hi < i) :
    (setBits x hi lo v).testBit i = x.testBit i := by
  rw [testBit_setBits x v h, if_neg (by omega)]

theorem testBit_setBits_bit (x v i : Nat) : (setBits x i i v).testBit i = v.testBit 0 := by
  rw [testBit_setBits x v (Nat.le_refl i), if_pos ⟨Nat.le_refl i, Nat.le_refl i⟩, Nat.sub_self]

theorem bitsOf_setBits_same (x v : Nat) {hi lo : Nat} (h : lo ≤ hi) : bitsOf (setBits x hi lo v) hi lo = v % 2 ^ (hi + 1 - lo) := by
  refine Nat.eq_of_testBit_eq fun i => ?_
  rw [testBit_bitsOf, testBit_setBits x v h, Nat.testBit_mod_two_pow, Nat.add_sub_cancel_left]
  by_cases hi' : i < hi + 1 - lo
  · rw [if_pos (by omega)]
  · simp [hi']

end Sys2Proof.Machine

/-! # Device registers read after hardware writes them (R374) -/

namespace Sys2Proof.Machine

open Sys2Proof Sys2Proof.Spec

theorem find_setD_other {α : Type} [DecidableEq α] (m : SMap α) (d : α) {x y : Nat} (v : α) (h : y ≠ x) :
    SMap.find? (SMap.setD m d x v) y = SMap.find? m y := by
  unfold SMap.setD
  split
  · exact find_del_other m h
  · exact find_put_other m v h

section
variable {s : State} {p o : Nat}

theorem reg_of_dev {u : State} (h : u.dev = s.dev) (p o : Nat) : u.reg p o = s.reg p o := by rw [State.reg, h, State.reg]

@[simp] theorem quad_setReg (s : State) (p o v n : Nat) : (s.setReg p o v).quad n = s.quad n := rfl
@[simp] theorem core_setReg (s : State) (p o v n : Nat) : (s.setReg p o v).core n = s.core n := rfl

theorem reg_setReg_other (s : State) (p : Nat) {o o' : Nat} (v : Nat) (h : o' ≠ o) : (s.setReg p o v).reg p o' = s.reg p o' := by
  have hpa : regPa p o' ≠ regPa p o := fun e => h (Nat.add_left_cancel e)
  rw [State.reg, setReg_dev, find_setD_other _ _ _ hpa, State.reg]

/-- The 32 bits of a register word as the device map gives them. -/
theorem reg_mod (s : State) (p o : Nat) : s.reg p o % 2 ^ 32 = (SMap.getD s.dev (BitVec.ofNat 32 (regInfo o).reset) (regPa p o)).toNat := by
  unfold State.reg SMap.getD
  split
  next w h => rw [h, Option.getD_some, Nat.mod_eq_of_lt w.isLt]
  next h => rw [h, Option.getD_none, BitVec.toNat_ofNat]

theorem regsInOrder_setReg (hs : RegsInOrder s) (p o v : Nat) : RegsInOrder (s.setReg p o v) := sorted_setD hs ..

theorem reg_setReg_same (hs : RegsInOrder s) (p o v : Nat) : (s.setReg p o v).reg p o % 2 ^ 32 = v % 2 ^ 32 := by
  rw [reg_mod, setReg_dev, getD_setD_same hs, BitVec.toNat_ofNat]

theorem testBit_setReg_same (hs : RegsInOrder s) (p o v : Nat) {i : Nat} (hi : i < 32) : ((s.setReg p o v).reg p o).testBit i = v.testBit i := by
  have h := congrArg (·.testBit i) (reg_setReg_same hs p o v)
  simpa only [Nat.testBit_mod_two_pow, hi, decide_true, Bool.true_and] using h

theorem bitsOf_setReg_same (hs : RegsInOrder s) (p o v : Nat) {hi : Nat} (lo : Nat) (hhi : hi < 32) :
    bitsOf ((s.setReg p o v).reg p o) hi lo = bitsOf v hi lo := by
  refine Nat.eq_of_testBit_eq fun i => ?_
  rw [testBit_bitsOf, testBit_bitsOf]
  by_cases h : i < hi + 1 - lo
  · rw [testBit_setReg_same hs p o v (by omega)]
  · simp [h]

end

/-! ## One step of a fold sets a property, which the others set again or leave -/

/-- What each step establishes and the later ones do not undo holds after the fold, of every step. -/
theorem foldl_establishes {σ β : Type} {g : σ → β → σ} {I : σ → Prop} {P : β → σ → Prop} {bs : List β} (hI : ∀ b ∈ bs, ∀ u, I u → I (g u b))
    (hset : ∀ b ∈ bs, ∀ u, I u → P b (g u b)) (hkeep : ∀ b ∈ bs, ∀ u c, I u → P c u → P c (g u b)) {u : σ} (hu : I u) :
    ∀ b ∈ bs, P b (bs.foldl g u) := by
  induction bs generalizing u with
  | nil => simp
  | cons b bs ih =>
    obtain ⟨hIb, hI⟩ := List.forall_mem_cons.1 hI
    obtain ⟨hsetb, hset⟩ := List.forall_mem_cons.1 hset
    obtain ⟨-, hkeep⟩ := List.forall_mem_cons.1 hkeep
    have hlast : I (bs.foldl g (g u b)) ∧ P b (bs.foldl g (g u b)) :=
      List.foldlRecOn bs g (motive := fun v => I v ∧ P b v) ⟨hIb u hu, hsetb u hu⟩ fun v hv c hc => ⟨hI c hc v hv.1, hkeep c hc v b hv.1 hv.2⟩
    exact List.forall_mem_cons.2 ⟨hlast.2, ih hI hset hkeep (hIb u hu)⟩

theorem regProp_setReg {P : Nat → Prop} {s : State} {p o o' v : Nat} (hnew : P ((s.setReg p o v).reg p o)) (h : P (s.reg p o')) :
    P ((s.setReg p o v).reg p o') := by
  by_cases ho : o' = o
  · exact ho ▸ hnew
  · rwa [reg_setReg_other s p v ho]

theorem quadProp_modQuad {P : Quad → Prop} {s : State} {n j : Nat} {f : Quad → Quad} (hnew : P (f (s.quad n))) (h : P (s.quad j)) :
    P ((s.modQuad n f).quad j) := by
  by_cases hj : j = n
  · rw [hj, State.modQuad, quad_setQuad_same]; exact hnew
  · rwa [State.modQuad, quad_setQuad_other s _ hj]

theorem coreProp_modCore {P : Core → Prop} {s : State} {n j : Nat} {f : Core → Core} (hnew : P (f (s.core n))) (h : P (s.core j)) :
    P ((s.modCore n f).core j) := by
  by_cases hj : j = n
  · rw [hj, State.modCore, core_setCore_same]; exact hnew
  · rwa [State.modCore, core_setCore_other s _ hj]

end Sys2Proof.Machine

/-! # Limiter, estimator and kiln (R303-R308, R312) -/

namespace Sys2Proof.Machine

open Sys2Proof Sys2Proof.Spec

/-! ## The limiter's sectors (R304) -/

theorem sectors_le_four {p : MPending} {n : Nat} (h : p.sectors = some n) : n ≤ 4 := by
  cases p with
  | fill w =>
    have hfield : bitsOf (fldImm12 w) 7 6 < 4 := Nat.mod_lt _ (by decide)
    have hn : bitsOf (fldImm12 w) 7 6 + 1 = n := Option.some.inj h
    omega
  | mma w =>
    have hn : 4 = n := Option.some.inj h
    omega
  | _ => cases h

theorem readyNeed_le_four {s : State} {h : Nat} {t : Team} {n : Nat} (hn : s.readyNeed h t = some n) : n ≤ 4 := by
  unfold State.readyNeed at hn
  split at hn
  · cases hn
  split at hn
  · split at hn
    · split at hn
      · cases hn; decide
      · cases hn
    split at hn
    · exact sectors_le_four hn
    · cases hn
  · cases hn

theorem arrayNeed_le_four {s : State} {core n : Nat} (hn : s.arrayNeed core = some n) : n ≤ 4 := by
  unfold State.arrayNeed at hn
  dsimp only at hn
  split at hn
  · split at hn
    · split at hn
      · exact sectors_le_four hn
      · cases hn
    · cases hn
  · obtain ⟨kt, -, hkt⟩ := List.exists_of_findSome?_eq_some hn
    exact readyNeed_le_four hkt

/-- A core with no more than four sectors enabled, and none more needed. -/
def FourSectors (c : Option Nat × Nat) : Prop := (∀ n ∈ c.1, n ≤ 4) ∧ c.2 ≤ 4

theorem releaseOne_le (uf : Int) (k n : Nat) (m : Int) : (releaseOne uf k n m).1 ≤ n := by
  induction k generalizing n m with
  | zero => exact le_refl _
  | succ k ih =>
    unfold releaseOne
    split
    · exact le_refl _
    · exact (ih ..).trans (Nat.sub_le ..)

theorem groutOne_le_four (uf : Int) (k : Nat) {n : Nat} (m : Int) (hn : n ≤ 4) : (groutOne uf k n m).1 ≤ 4 := by
  induction k generalizing n m with
  | zero => exact hn
  | succ k ih =>
    unfold groutOne
    split
    · exact hn
    · exact ih _ (by omega)

section
variable {cs : List (Option Nat × Nat)}

theorem fourSectors_limiterRelease (h : ∀ c ∈ cs, FourSectors c) (uf m : Int) : ∀ c ∈ (limiterRelease uf cs m).1, FourSectors c := by
  fun_induction limiterRelease uf cs m with
  | case1 => exact h
  | case2 n k cs m r ih =>
    obtain ⟨hc, hcs⟩ := List.forall_mem_cons.1 h
    exact List.forall_mem_cons.2 ⟨hc, ih hcs⟩
  | case3 k cs m a r ih =>
    obtain ⟨hc, hcs⟩ := List.forall_mem_cons.1 h
    exact List.forall_mem_cons.2 ⟨⟨hc.1, (releaseOne_le ..).trans hc.2⟩, ih hcs⟩

theorem fourSectors_limiterGrant (h : ∀ c ∈ cs, FourSectors c) (uc m : Int) : ∀ c ∈ (limiterGrant uc cs m).1, FourSectors c := by
  fun_induction limiterGrant uc cs m with
  | case1 => exact h
  | case2 n k cs m a r ih =>
    obtain ⟨⟨hneed, hk⟩, hcs⟩ := List.forall_mem_cons.1 h
    refine List.forall_mem_cons.2 ⟨⟨hneed, ?_⟩, ih hcs⟩
    have hn : n ≤ 4 := hneed n rfl
    dsimp only [a]
    split
    next hgrant => exact (Nat.succ_le_of_lt hgrant.1).trans hn
    · exact hk
  | case3 k cs m r ih =>
    obtain ⟨hc, hcs⟩ := List.forall_mem_cons.1 h
    exact List.forall_mem_cons.2 ⟨hc, ih hcs⟩

theorem fourSectors_limiterGrout (h : ∀ c ∈ cs, FourSectors c) (uf m : Int) : ∀ c ∈ (limiterGrout uf cs m).1, FourSectors c := by
  fun_induction limiterGrout uf cs m with
  | case1 => exact h
  | case2 n k cs m r ih =>
    obtain ⟨hc, hcs⟩ := List.forall_mem_cons.1 h
    exact List.forall_mem_cons.2 ⟨hc, ih hcs⟩
  | case3 k cs m a r ih =>
    obtain ⟨hc, hcs⟩ := List.forall_mem_cons.1 h
    exact List.forall_mem_cons.2 ⟨⟨hc.1, groutOne_le_four _ _ _ hc.2⟩, ih hcs⟩

end

/-- The three passes of a step, one after another. -/
def limiterPasses (uf uc m : Int) (cs : List (Option Nat × Nat)) : List (Option Nat × Nat) :=
  let r := limiterRelease uf cs m
  let g := limiterGrant uc r.1 r.2
  (limiterGrout uf g.1 g.2).1

/-- The need and the sectors of each core of a quad as a step begins. -/
def State.limiterCores (s : State) (q : Nat) : List (Option Nat × Nat) :=
  (List.range 4).map fun i => (s.arrayNeed (4 * q + i), ((s.quad q).sectors.toList[i]?).getD 0)

theorem fourSectors_limiterCores {s : State} {q : Nat} (h : ∀ i : Fin 4, (s.quad q).sectors[i] ≤ 4) : ∀ c ∈ s.limiterCores q, FourSectors c := by
  intro c hc
  obtain ⟨i, hi, rfl⟩ := List.mem_map.1 hc
  have hi : i < 4 := List.mem_range.1 hi
  refine ⟨fun n hn => arrayNeed_le_four hn, ?_⟩
  simpa [hi] using h ⟨i, hi⟩

theorem exec_slewStep (s : State) (q : Nat) : ∃ uf uc m rises allow, exec (.slewStep q) s = .next (s.setQuad q { s.quad q with
    sectors := Vector.ofFn fun i => (((limiterPasses uf uc m (s.limiterCores q))[i.val]?).map fun c => c.2).getD 0,
    level := s.weight (q / 192) (q / 24 % 8) (q % 24) 12 * (s.quad q).sectors.toList.foldl (· + ·) 0 + (s.quad q).excess / 4,
    rises := rises, excess := 0, allow := allow }) := ⟨_, _, _, _, _, rfl⟩

theorem limiterPasses_le_four {cs : List (Option Nat × Nat)} (h : ∀ c ∈ cs, FourSectors c) (uf uc m : Int) (i : Nat) :
    (((limiterPasses uf uc m cs)[i]?).map fun c => c.2).getD 0 ≤ 4 := by
  have hall : ∀ c ∈ limiterPasses uf uc m cs, FourSectors c :=
    fourSectors_limiterGrout (fourSectors_limiterGrant (fourSectors_limiterRelease h _ _) _ _) _ _
  cases hc : (limiterPasses uf uc m cs)[i]? with
  | none => exact Nat.zero_le _
  | some c => exact (hall c (List.mem_of_getElem? hc)).2

/-! ## The estimate and the loop (R307, R308) -/

/-- The charge is closed whether or not the quad is gated. -/
theorem exec_powerEstimate (s : State) (q temp : Nat) : ∃ u, exec (.powerEstimate q temp) s = .next u ∧ (u.quad q).charge = 0 ∧
    (u.quad q).lastCharge = (s.quad q).charge ∧ u.mem = s.mem ∧ u.courses = s.courses := by
  by_cases hgated : (s.reg (q / 192) (quadBase (q / 24 % 8) (q % 24) + 4)).testBit 31 = true
  · refine ⟨_, congrArg Host.Outcome.next (if_pos hgated), ?_, ?_, rfl, rfl⟩ <;> rw [quad_setQuad_same]
  · refine ⟨_, congrArg Host.Outcome.next (if_neg hgated), ?_, ?_, rfl, rfl⟩ <;> rw [quad_setReg, quad_setReg, quad_setQuad_same]

theorem slewMv_bounds (v t : Nat) : let x := slewMv v t
    x ≤ v + 10 ∧ v ≤ x + 10 ∧ (v ≤ t → v ≤ x ∧ x ≤ t) ∧ (t ≤ v → t ≤ x ∧ x ≤ v) := by
  unfold slewMv
  split <;> omega

theorem piStep_integral {i : Int} (e kp ki vref : Int) (vtgt vmin vmax : Nat) (hlo : -(2 ^ 24) ≤ i) (hhi : i ≤ 2 ^ 24 - 1) :
    -(2 ^ 24) ≤ (piStep i e kp ki vref vtgt vmin vmax).1 ∧ (piStep i e kp ki vref vtgt vmin vmax).1 ≤ 2 ^ 24 - 1 := by
  simp only [piStep]
  split <;> omega

/-- The target is in the quad's range, and a set-point. -/
theorem piStep_target (i e kp ki vref : Int) (vtgt : Nat) {vmin vmax : Nat} (h : vmin ≤ vmax) (hmul : vmin % 5 = 0) :
    vmin ≤ (piStep i e kp ki vref vtgt vmin vmax).2 ∧ (piStep i e kp ki vref vtgt vmin vmax).2 ≤ vmax ∧
      (piStep i e kp ki vref vtgt vmin vmax).2 % 5 = 0 := by
  simp only [piStep]
  omega

/-! ## The kiln (R312, R313) -/

/-- What the interval's counts of a die's quads are after the kiln's turn. -/
def State.kilnCleared (s : State) (d : Nat) : State :=
  ((List.range 24).map fun q => 24 * d + q).foldl (fun s q => s.modQuad q fun x => { x with issues := 0, cycles := 0 }) s

/-- The quads of a die in turn, and their slacks. -/
def State.kilnSwept (s : State) (d : Nat) : State × List Int :=
  ((List.range 24).map fun q => 24 * d + q).foldl (fun (a : State × List Int) q =>
    let r := a.1.kilnQuad d q
    (r.1, match r.2 with | some x => a.2 ++ [x] | none => a.2)) (s, [])

/-- A quad whose interval of the kiln begins again. -/
def Quad.Restarted (x : Quad) : Prop := x.issues = 0 ∧ x.cycles = 0

theorem kilnCleared_quad (s : State) (d : Nat) {q : Nat} (hq : q < 24) : ((s.kilnCleared d).quad (24 * d + q)).Restarted :=
  foldl_establishes (I := fun _ => True) (P := fun n (u : State) => (u.quad n).Restarted) (fun _ _ _ => id)
    (fun n _ u _ => by rw [State.modQuad, quad_setQuad_same]; exact ⟨rfl, rfl⟩)
    (fun n _ u j _ h => quadProp_modQuad (P := Quad.Restarted) ⟨rfl, rfl⟩ h) trivial _ (List.mem_map.2 ⟨q, List.mem_range.2 hq, rfl⟩)

theorem kilnCleared_keeps {γ : Type} (f : State → γ) (h : ∀ u n x, f (State.setQuad u n x) = f u) (s : State) (d : Nat) : f (s.kilnCleared d) = f s :=
  foldl_keeps _ f (fun _ _ => h ..) _ s

theorem mem_defer (s : State) (k : Nat) (h : HeldCause) : (s.defer k h).mem = s.mem := by
  unfold State.defer
  split
  · split
    · rfl
    split <;> rfl
  · rfl

theorem mem_raiseRisk (s : State) (die q late : Nat) : (s.raiseRisk die q late).mem = s.mem := by
  refine (foldl_keeps _ State.mem (fun u kt => ?_) _ _).trans ?_
  · split
    · rfl
    · exact foldl_keeps _ State.mem (fun _ _ => mem_defer ..) _ _
  · split <;> rfl

theorem mem_kilnQuad (s : State) (die q : Nat) : (s.kilnQuad die q).1.mem = s.mem := by
  unfold State.kilnQuad
  dsimp only [quadAt]
  split
  · rfl
  split
  · rfl
  split
  · rfl
  · split
    · exact mem_raiseRisk ..
    · rfl

theorem mem_kilnSwept (s : State) (d : Nat) : (s.kilnSwept d).1.mem = s.mem :=
  foldl_keeps _ (fun a : State × List Int => a.1.mem) (fun _ _ => mem_kilnQuad ..) _ _

theorem exec_kilnUpdate_off {s : State} {d : Nat} (hken : (s.reg (d / 8) (pwrBase (d % 8))).testBit 0 = false) :
    exec (.kilnUpdate d) s = .next (s.kilnCleared d) := by
  change execKilnUpdate d s = _
  simp only [execKilnUpdate, hken, Bool.not_false, ↓reduceIte]
  rfl

/-- SLACK after the kiln's turn, when a quad of the die has a deadline. -/
def State.slackShown (s : State) (d : Nat) : List Int → State
  | [] => s
  | x :: xs => s.setReg (d / 8) (pwrBase (d % 8) + 0x0C) (satS32 (xs.foldl min x))

theorem mem_slackShown (s : State) (d : Nat) (xs : List Int) : (s.slackShown d xs).mem = s.mem := by cases xs <;> rfl

/-- A state under another stamp, as the kiln's free values leave it. -/
def State.stamped (s : State) (f : Nat) : State := { s with fresh := f }

@[simp] theorem mem_stamped (s : State) (f : Nat) : (s.stamped f).mem = s.mem := rfl
@[simp] theorem quad_stamped (s : State) (f n : Nat) : (s.stamped f).quad n = s.quad n := rfl

theorem exec_kilnUpdate_on {s : State} {d : Nat} (hken : (s.reg (d / 8) (pwrBase (d % 8))).testBit 0 = true) :
    ∃ f, exec (.kilnUpdate d) s = .next ((((s.kilnSwept d).1.slackShown d (s.kilnSwept d).2).kilnCleared d).stamped f) := by
  refine ⟨((s.kilnSwept d).1.slackShown d (s.kilnSwept d).2).fresh + 3072, ?_⟩
  refine congrArg Host.Outcome.next ((if_neg (by rw [hken]; decide)).trans ?_)
  split
  next u slacks hswept =>
    have hswept : s.kilnSwept d = (u, slacks) := hswept
    rw [hswept]
    cases slacks <;> rfl

theorem kilnUpdate_ends (s : State) (d : Nat) : ∃ u, exec (.kilnUpdate d) s = .next u ∧
    (∀ q, q < 24 → (u.quad (24 * d + q)).issues = 0 ∧ (u.quad (24 * d + q)).cycles = 0) ∧ u.mem = s.mem ∧
    ((s.reg (d / 8) (pwrBase (d % 8))).testBit 0 = false → u.dev = s.dev ∧ u.teams = s.teams ∧ u.courses = s.courses) := by
  cases hken : (s.reg (d / 8) (pwrBase (d % 8))).testBit 0 with
  | false =>
    exact ⟨_, exec_kilnUpdate_off hken, fun q => kilnCleared_quad s d, kilnCleared_keeps State.mem (fun _ _ _ => rfl) s d, fun _ =>
      ⟨kilnCleared_keeps State.dev (fun _ _ _ => rfl) s d, kilnCleared_keeps State.teams (fun _ _ _ => rfl) s d,
        kilnCleared_keeps State.courses (fun _ _ _ => rfl) s d⟩⟩
  | true =>
    obtain ⟨f, hexec⟩ := exec_kilnUpdate_on hken
    refine ⟨_, hexec, fun q hq => ?_, ?_, fun h => nomatch h⟩
    · rw [quad_stamped]
      exact kilnCleared_quad _ d hq
    · rw [mem_stamped, kilnCleared_keeps State.mem (fun _ _ _ => rfl), mem_slackShown, mem_kilnSwept]

theorem powerLoopEventsComplete : PowerLoopEventsComplete := by
  refine ⟨fun s q => ?_, exec_powerEstimate, slewMv_bounds, kilnUpdate_ends, fun i e kp ki vref vtgt vmin vmax hle hmul hlo hhi => ?_⟩
  · obtain ⟨uf, uc, m, rises, allow, hexec⟩ := exec_slewStep s q
    refine ⟨_, hexec, ?_, ?_, fun hfour i => ?_, rfl, rfl, rfl, fun r hr => quad_setQuad_other s _ hr⟩
    · rw [quad_setQuad_same]
    · rw [quad_setQuad_same]
    · have hpasses := limiterPasses_le_four (fourSectors_limiterCores hfour) uf uc m i
      simpa using hpasses
  · obtain ⟨hmin, hmax, hfive⟩ := piStep_target i e kp ki vref vtgt hle hmul
    exact ⟨hmin, hmax, hfive, piStep_integral e kp ki vref vtgt vmin vmax hlo hhi⟩

end Sys2Proof.Machine

/-! # Limits and monitors (R318-R320, R386) -/

namespace Sys2Proof.Machine

open Sys2Proof Sys2Proof.Spec

/-! ## SAFE (R318) -/

/-- SAFE of one die: the integrals of its quads start again where it changes. -/
def State.safeDie (s : State) (p d : Nat) (b : Bool) : State :=
  let w := s.reg p (pwrBase d + 4)
  if w.testBit 29 = b then s else (s.setReg p (pwrBase d + 4) (setBits w 29 29 (boolNat b))).zeroIntegrals (8 * p + d)

theorem setSafe_eq (s : State) (p : Nat) (b : Bool) : s.setSafe p b = (List.range 8).foldl (fun u d => u.safeDie p d b) s := rfl

theorem dev_zeroIntegrals (s : State) (die : Nat) : (s.zeroIntegrals die).dev = s.dev := by
  unfold State.zeroIntegrals
  exact foldl_keeps _ State.dev (fun u q => modQuad_dev u _ _) _ s

theorem mem_zeroIntegrals (s : State) (die : Nat) : (s.zeroIntegrals die).mem = s.mem := by
  unfold State.zeroIntegrals
  exact foldl_keeps _ State.mem (fun u q => modQuad_mem u _ _) _ s

theorem testBit_boolNat (b : Bool) : (boolNat b).testBit 0 = b := by cases b <;> rfl

section
variable {s : State} (p d : Nat) (b : Bool)

/-- SAFE stands as it is to be, or is written. -/
theorem safeDie_cases (s : State) : s.safe p d = b ∧ s.safeDie p d b = s ∨
    s.safeDie p d b = (s.setReg p (pwrBase d + 4) (setBits (s.reg p (pwrBase d + 4)) 29 29 (boolNat b))).zeroIntegrals (8 * p + d) := by
  by_cases h : s.safe p d = b
  · exact .inl ⟨h, if_pos h⟩
  · exact .inr (if_neg h)

theorem regsInOrder_safeDie (hs : RegsInOrder s) : RegsInOrder (s.safeDie p d b) := by
  obtain ⟨-, h⟩ | h := safeDie_cases p d b s
  · rwa [h]
  · rw [h, RegsInOrder, dev_zeroIntegrals]
    exact regsInOrder_setReg hs ..

theorem mem_safeDie (s : State) : (s.safeDie p d b).mem = s.mem := by
  obtain ⟨-, h⟩ | h := safeDie_cases p d b s
  · rw [h]
  · rw [h, mem_zeroIntegrals, setReg_mem]

theorem testBit_safe_setReg (hs : RegsInOrder s) (o : Nat) : ((s.setReg p o (setBits (s.reg p o) 29 29 (boolNat b))).reg p o).testBit 29 = b := by
  rw [testBit_setReg_same hs _ _ _ (by decide), testBit_setBits_bit, testBit_boolNat]

theorem safe_safeDie (hs : RegsInOrder s) : (s.safeDie p d b).safe p d = b := by
  obtain ⟨hb, h⟩ | h := safeDie_cases p d b s
  · rwa [h]
  · rw [h, State.safe, reg_of_dev (dev_zeroIntegrals ..), testBit_safe_setReg p b hs]

/-- A die's SAFE, once set, stays so while the others are set. -/
theorem safe_safeDie_keeps (hs : RegsInOrder s) {d' : Nat} (hd' : s.safe p d' = b) : (s.safeDie p d b).safe p d' = b := by
  obtain ⟨-, h⟩ | h := safeDie_cases p d b s
  · rwa [h]
  · rw [h, State.safe, reg_of_dev (dev_zeroIntegrals ..)]
    exact regProp_setReg (P := fun w => w.testBit 29 = b) (testBit_safe_setReg p b hs _) hd'

theorem safe_setSafe (hs : RegsInOrder s) {d : Nat} (hd : d < 8) : (s.setSafe p b).safe p d = b := by
  rw [setSafe_eq]
  exact foldl_establishes (I := RegsInOrder) (P := fun d u => u.safe p d = b) (fun _ _ _ hu => regsInOrder_safeDie p _ b hu)
    (fun _ _ _ hu => safe_safeDie p _ b hu) (fun _ _ _ _ hu => safe_safeDie_keeps p _ b hu) hs d (List.mem_range.2 hd)

theorem mem_setSafe (s : State) : (s.setSafe p b).mem = s.mem := by
  rw [setSafe_eq]
  exact foldl_keeps _ State.mem (fun _ _ => mem_safeDie ..) _ s

theorem exec_pmcHeartbeat_validated (hheld : (s.pkg p).held = false) :
    exec (.pmcHeartbeat p true) s = .next ((s.setSafe p false).modPkg p fun x => { x with booting := false }) :=
  congrArg Host.Outcome.next (if_pos (by rw [hheld]; rfl))

theorem exec_pmcHeartbeat_held (hheld : (s.pkg p).held = true) : exec (.pmcHeartbeat p true) s = .next s :=
  congrArg Host.Outcome.next (if_neg (by rw [hheld]; decide))

end

theorem safe_follows_heartbeats {s : State} (p : Nat) (hs : RegsInOrder s) : ∃ a b,
    exec (.heartbeatMiss p) s = .next a ∧ exec (.imageUpdateAnnounce p) s = .next b ∧
    (∀ d, d < 8 → (a.reg p (pwrBase d + 4)).testBit 29 = true ∧ (b.reg p (pwrBase d + 4)).testBit 29 = true) ∧
    exec (.pmcHeartbeat p false) s = .next s ∧ ((s.pkg p).held = true → exec (.pmcHeartbeat p true) s = .next s) ∧
    ((s.pkg p).held = false → ∃ c, exec (.pmcHeartbeat p true) s = .next c ∧ (c.pkg p).booting = false ∧ c.mem = s.mem ∧
      ∀ d, d < 8 → (c.reg p (pwrBase d + 4)).testBit 29 = false) := by
  refine ⟨_, _, rfl, rfl, fun d hd => ⟨safe_setSafe p true hs hd, safe_setSafe p true hs hd⟩, rfl, exec_pmcHeartbeat_held p, fun hheld =>
    ⟨_, exec_pmcHeartbeat_validated p hheld, ?_, mem_setSafe p false s, fun d hd => safe_setSafe p false hs hd⟩⟩
  rw [pkg_modPkg_same]

/-! ## The comparators (R319) -/

/-- What the comparators leave of a quad: COMP, the target when they trip, and the integral. -/
def State.comparedQuad (s : State) (p q : Nat) (b : Bool) : State :=
  let o := quadBase (q / 24 % 8) (q % 24) + 4
  let w := setBits (s.reg p o) 30 30 (boolNat b)
  (s.setReg p o (if b then setBits w 9 0 550 else w)).modQuad q fun x => { x with integral := 0 }

theorem comparator_eq (s : State) (p : Nat) (b : Bool) : s.comparator p b = (List.range 192).foldl (fun u i => u.comparedQuad p (192 * p + i) b) s := by
  simp only [State.comparator, State.comparedQuad, quadAt]

/-- COMP in a quad's word, with the target of a trip. -/
def Compared (b : Bool) (w : Nat) : Prop := w.testBit 30 = b ∧ (b = true → bitsOf w 9 0 = 550)

section
variable {s : State} (p : Nat) (b : Bool)

theorem compared_setReg (hs : RegsInOrder s) (o : Nat) :
    Compared b ((s.setReg p o (if b then setBits (setBits (s.reg p o) 30 30 (boolNat b)) 9 0 550 else setBits (s.reg p o) 30 30 (boolNat b))).reg p o) := by
  refine ⟨?_, ?_⟩
  · rw [testBit_setReg_same hs _ _ _ (by decide)]
    split
    · rw [testBit_setBits_outside _ _ (by decide) (by decide), testBit_setBits_bit, testBit_boolNat]
    · rw [testBit_setBits_bit, testBit_boolNat]
  · rintro rfl
    rw [bitsOf_setReg_same hs _ _ _ _ (by decide), if_pos rfl, bitsOf_setBits_same _ _ (by decide)]
    rfl

theorem regsInOrder_comparedQuad (hs : RegsInOrder s) (q : Nat) : RegsInOrder (s.comparedQuad p q b) := regsInOrder_setReg hs ..

/-- The comparators have set a quad. -/
def QuadCompared (p : Nat) (b : Bool) (q : Nat) (s : State) : Prop :=
  Compared b (s.reg p (quadBase (q / 24 % 8) (q % 24) + 4)) ∧ (s.quad q).integral = 0

theorem quadCompared_same (hs : RegsInOrder s) (q : Nat) : QuadCompared p b q (s.comparedQuad p q b) := by
  refine ⟨compared_setReg p b hs _, ?_⟩
  rw [State.comparedQuad, State.modQuad, quad_setQuad_same]

theorem quadCompared_keeps (hs : RegsInOrder s) (q : Nat) {r : Nat} (h : QuadCompared p b r s) : QuadCompared p b r (s.comparedQuad p q b) :=
  ⟨regProp_setReg (compared_setReg p b hs _) h.1, quadProp_modQuad (P := fun x => x.integral = 0) rfl h.2⟩

theorem quadCompared_comparator (hs : RegsInOrder s) {i : Nat} (hi : i < 192) : QuadCompared p b (192 * p + i) (s.comparator p b) := by
  rw [comparator_eq]
  exact foldl_establishes (I := RegsInOrder) (P := fun i => QuadCompared p b (192 * p + i)) (fun _ _ _ hu => regsInOrder_comparedQuad p b hu _)
    (fun _ _ _ hu => quadCompared_same p b hu _) (fun _ _ _ _ hu => quadCompared_keeps p b hu _) hs i (List.mem_range.2 hi)

/-- The same by die and quad. -/
theorem comparator_quad (hs : RegsInOrder s) {d q : Nat} (hd : d < 8) (hq : q < 24) :
    Compared b ((s.comparator p b).reg p (quadBase d q + 4)) ∧ ((s.comparator p b).quad (192 * p + 24 * d + q)).integral = 0 := by
  obtain ⟨hreg, hquad⟩ := quadCompared_comparator p b hs (i := 24 * d + q) (by omega)
  have hdie : (192 * p + (24 * d + q)) / 24 % 8 = d := by omega
  have hplace : (192 * p + (24 * d + q)) % 24 = q := by omega
  rw [hdie, hplace] at hreg
  rw [← Nat.add_assoc] at hquad
  exact ⟨hreg, hquad⟩

end

/-! ## Monitors (R320) -/

theorem monitors_modMonitor (s : State) (q : Nat) (ch : Fin 8) (f : Monitor → Monitor) :
    ((s.modMonitor false q ch f).quad q).monitors[ch] = f (s.quad q).monitors[ch] := by
  simp [State.modMonitor, State.modQuad]

/-- A sample widens a channel's bounds and is counted, up to the counter's last value. -/
theorem sample_widens {m : Monitor} {x : Nat} (hen : m.en = true) (hx : x < 2 ^ 32) :
    (m.sample x).min.toNat ≤ m.min.toNat ∧ m.max.toNat ≤ (m.sample x).max.toNat ∧
      (m.sample x).count = if m.count = 0xFFFFFFFF#32 then m.count else m.count + 1#32 := by
  simp only [Monitor.sample, hen, Bool.not_true, Bool.false_eq_true, ↓reduceIte, BitVec.toNat_ofNat, and_true]
  rw [Nat.mod_eq_of_lt (Nat.max_lt.2 ⟨m.max.isLt, hx⟩)]
  exact ⟨(Nat.mod_le ..).trans (Nat.min_le_left ..), Nat.le_max_left ..⟩

/-! ## HBM's throttle (R386) -/

section
variable (s : State) (p stack : Nat)

theorem exec_hbmThermalThrottle : ∃ u x, exec (.hbmThermalThrottle p stack) s = .next u ∧ stack ∈ (u.pkg p).hbmHot ∧
    SMap.find? (u.pkg p).hbmTemp stack = some x ∧ 95 ≤ x ∧ u.mem = s.mem := by
  refine ⟨_, _, rfl, ?_, ?_, Nat.le_max_left _ ((s.draw 0).toNat % 256), rfl⟩
  · rw [pkg_modPkg_same]
    dsimp only
    split
    next h => exact List.contains_iff_mem.1 h
    · exact List.mem_append_right _ (List.mem_singleton_self stack)
  · rw [pkg_modPkg_same]
    exact find_put_same ..

theorem exec_hbmThermalRelease : ∃ u x, exec (.hbmThermalRelease p stack) s = .next u ∧ stack ∉ (u.pkg p).hbmHot ∧
    SMap.find? (u.pkg p).hbmTemp stack = some x ∧ x < 90 ∧ u.mem = s.mem := by
  refine ⟨_, _, rfl, ?_, ?_, Nat.mod_lt (s.draw 0).toNat (by decide : 0 < 90), rfl⟩
  · rw [pkg_modPkg_same]
    simp
  · rw [pkg_modPkg_same]
    exact find_put_same ..

end

theorem limitAndMonitorEventsComplete : LimitAndMonitorEventsComplete := by
  refine ⟨fun s p => safe_follows_heartbeats p, fun s p hs => ⟨_, _, rfl, rfl, fun d q hd hq => ?_⟩, fun s q =>
    ⟨⟨_, Nat.le_max_left .., rfl⟩, _, Nat.mod_lt _ (by decide), rfl⟩, fun s q ch v hen => ⟨_, rfl, ?_⟩, fun s q ch =>
    ⟨_, rfl, monitors_modMonitor .., rfl⟩, fun s p stack => ?_⟩
  · obtain ⟨⟨htrip, htarget⟩, hintegral⟩ := comparator_quad p true hs hd hq
    exact ⟨htrip, htarget rfl, hintegral, (comparator_quad p false hs hd hq).1.1⟩
  · dsimp only
    rw [monitors_modMonitor]
    refine ⟨fun x hx hlt => ?_, fun hnone => ?_, rfl⟩
    · rw [hx]
      exact sample_widens hen hlt
    · rw [hnone]
  · obtain ⟨a, x, ha, hhot, hx, hge, hmem⟩ := exec_hbmThermalThrottle s p stack
    obtain ⟨b, y, hb, hcool, hy, hlt, hmem'⟩ := exec_hbmThermalRelease s p stack
    exact ⟨a, b, x, y, ha, hb, hhot, hx, hge, hmem, hcool, hy, hlt, hmem'⟩

end Sys2Proof.Machine

/-! # Power-gating (R316, R317) -/

namespace Sys2Proof.Machine

open Sys2Proof Sys2Proof.Spec

/-- The L1s of a quad's cores dropped. -/
def State.l1sDropped (s : State) (q : Nat) : State :=
  (List.range 4).foldl (fun s i => s.modCore (4 * q + i) fun c => { c with l1 := [] }) s

theorem l1_l1sDropped (s : State) (q : Nat) {i : Nat} (hi : i < 4) : ((s.l1sDropped q).core (4 * q + i)).l1 = [] :=
  foldl_establishes (I := fun _ => True) (P := fun i (u : State) => (u.core (4 * q + i)).l1 = []) (fun _ _ _ => id)
    (fun i _ u _ => by rw [State.modCore, core_setCore_same])
    (fun i _ u j _ h => coreProp_modCore (P := fun c => c.l1 = []) rfl h) trivial i (List.mem_range.2 hi)

theorem dev_l1sDropped (s : State) (q : Nat) : (s.l1sDropped q).dev = s.dev := by
  unfold State.l1sDropped
  exact foldl_keeps _ State.dev (fun u i => modCore_dev u _ _) _ s

/-- A quad's word with GATED and VSET as given. -/
def gatedWord (w gated mv : Nat) : Nat := setBits (setBits w 31 31 gated) 19 10 mv

theorem testBit_gatedWord (w gated mv : Nat) : (gatedWord w gated mv).testBit 31 = gated.testBit 0 := by
  rw [gatedWord, testBit_setBits_outside _ _ (by decide) (by decide), testBit_setBits_bit]

theorem bitsOf_gatedWord (w gated mv : Nat) : bitsOf (gatedWord w gated mv) 19 10 = mv % 2 ^ 10 := bitsOf_setBits_same _ _ (by decide)

section
variable {s : State} {q : Nat}

theorem exec_quadGate_idle (hidle : ∀ i, i < 4 → (s.core (4 * q + i)).ingressClosed = true ∧ (s.core (4 * q + i)).path = [] ∧ s.teamsOn (4 * q + i) = [])
    (hon : s.gated q = false) (htime : (s.quad q).idleSince + 100000 ≤ (s.pkg (q / 192)).time) :
    exec (.quadGate q) s = .next ((s.l1sDropped q).setReg (q / 192) (quadBase (q / 24 % 8) (q % 24) + 4)
      (gatedWord ((s.l1sDropped q).reg (q / 192) (quadBase (q / 24 % 8) (q % 24) + 4)) 1 0)) := by
  have hready : ((List.range 4).all fun i =>
      (s.core (4 * q + i)).ingressClosed && (s.core (4 * q + i)).path.isEmpty && (s.teamsOn (4 * q + i)).isEmpty) = true :=
    List.all_eq_true.2 fun i hi => by
      obtain ⟨hclosed, hpath, hteams⟩ := hidle i (List.mem_range.1 hi)
      rw [hclosed, hpath, hteams]
      rfl
  change execQuadGate q s = _
  simp only [execQuadGate, quadAt, hready, hon, Nat.not_lt.2 htime, Bool.not_true, decide_false, Bool.or_self, Bool.false_eq_true, ↓reduceIte]
  rfl

theorem exec_quadPowerUp_wanted {i : Nat} (hi : i < 4) (hteam : s.teamsOn (4 * q + i) ≠ []) (hgated : s.gated q = true) :
    exec (.quadPowerUp q) s = .next (s.setReg (q / 192) (quadBase (q / 24 % 8) (q % 24) + 4)
      (gatedWord (s.reg (q / 192) (quadBase (q / 24 % 8) (q % 24) + 4)) 0 (bitsOf (s.reg (q / 192) (quadBase (q / 24 % 8) (q % 24) + 0x10)) 9 0))) := by
  have hwanted : ((List.range 4).any fun i => !(s.teamsOn (4 * q + i)).isEmpty) = true :=
    List.any_eq_true.2 ⟨i, List.mem_range.2 hi, by rw [List.isEmpty_eq_false_iff.2 hteam]; rfl⟩
  have hbit : (s.reg (q / 192) (quadBase (q / 24 % 8) (q % 24) + 4)).testBit 31 = true := hgated
  change execQuadPowerUp q s = _
  simp only [execQuadPowerUp, quadAt, hwanted, hbit, Bool.not_true, Bool.or_self, Bool.false_eq_true, ↓reduceIte]
  rfl

/-- What a quad's gate and its voltage are once its word is written. -/
theorem gated_setReg (hs : RegsInOrder s) (w gated mv : Nat) :
    let u := s.setReg (q / 192) (quadBase (q / 24 % 8) (q % 24) + 4) (gatedWord w gated mv)
    u.gated q = gated.testBit 0 ∧ bitsOf (u.reg (q / 192) (quadBase (q / 24 % 8) (q % 24) + 4)) 19 10 = mv % 2 ^ 10 := by
  refine ⟨?_, ?_⟩
  · rw [State.gated, testBit_setReg_same hs _ _ _ (by decide), testBit_gatedWord]
  · rw [bitsOf_setReg_same hs _ _ _ _ (by decide), bitsOf_gatedWord]

end

theorem gatingEventsComplete : GatingEventsComplete := by
  refine ⟨fun s c hteams => ?_, fun s q hidle hon htime hs => ?_, fun s q i hi hteam hgated hs => ?_⟩
  · exact congrArg Host.Outcome.next (if_pos (by rw [hteams]; rfl))
  · have hdropped : RegsInOrder (s.l1sDropped q) := by rw [RegsInOrder, dev_l1sDropped]; exact hs
    obtain ⟨hgated, hrail⟩ := gated_setReg (q := q) hdropped _ 1 0
    refine ⟨_, exec_quadGate_idle hidle hon htime, fun i hi => ?_, hgated, hrail⟩
    rw [core_setReg, l1_l1sDropped s q hi]
  · obtain ⟨hgone, hrail⟩ := gated_setReg (q := q) hs _ 0 _
    exact ⟨_, exec_quadPowerUp_wanted hi hteam hgated, hgone, hrail.trans (Nat.mod_eq_of_lt (Nat.mod_lt _ (by decide)))⟩

/-- Settles O54: the loop and the kiln, the limits and monitors, and gating. -/
theorem powerEventsComplete : Obligations.PowerEventsComplete :=
  ⟨powerLoopEventsComplete, limitAndMonitorEventsComplete, gatingEventsComplete⟩

end Sys2Proof.Machine

/-! # What leaves memory as it is

The state operations that build no new memory, in the model's order. -/

namespace Sys2Proof.Machine

open Sys2Proof

@[simp] theorem mem_ite (p : Prop) [Decidable p] (s t : State) : (if p then s else t).mem = if p then s.mem else t.mem := apply_ite ..
@[simp] theorem mem_foldl {α : Type} (f : State → α → State) (hf : ∀ s x, (f s x).mem = s.mem) (xs : List α) (s : State) :
    (xs.foldl f s).mem = s.mem := foldl_keeps f State.mem hf xs s
@[simp] theorem mem_reportHeld (s : State) (t : Team) (cid : Nat) (h : HeldCause) : (s.reportHeld t cid h).mem = s.mem := by
  unfold State.reportHeld; split <;> rfl
@[simp] theorem mem_stopTeam (s : State) (t : Nat) : (s.stopTeam t).mem = s.mem := by
  unfold State.stopTeam; split <;> simp
@[simp] theorem mem_versionTrap (s : State) (t cid : Nat) (str : Bool) (cause : Cause) (addr : Nat) : (s.versionTrap t cid str cause addr).mem = s.mem := by
  unfold State.versionTrap; split <;> simp
@[simp] theorem mem_doubleTrap (s : State) (t cid : Nat) (str : Bool) (cause : Cause) (tpc : Word) : (s.doubleTrap t cid str cause tpc).mem = s.mem := by
  unfold State.doubleTrap; split <;> simp
@[simp] theorem mem_trapCourse (s : State) (k : Nat) (str : Bool) (cause : Cause) (tpc : Word) (taddr : DWord) (tmask tinfo : Word) :
    (s.trapCourse k str cause tpc taddr tmask tinfo).mem = s.mem := by
  unfold State.trapCourse; split <;> simp
@[simp] theorem mem_takeCause (s : State) (k : Nat) : (s.takeCause k).mem = s.mem := by
  unfold State.takeCause; repeat' split
  all_goals simp
@[simp] theorem mem_useCredits (s : State) (i j n : Nat) : (s.useCredits i j n).mem = s.mem := rfl
@[simp] theorem mem_keepFlit (s : State) (p n owner key : Nat) : (s.keepFlit p n owner key).mem = s.mem := rfl
@[simp] theorem mem_keepLink (s : State) (k : Packet) : (s.keepLink k).mem = s.mem := by
  unfold State.keepLink; split <;> rfl

theorem mem_of_request {s t : State} {k : Packet} {sv : Serves} (h : s.request k sv = some t) : t.mem = s.mem := by
  unfold State.request at h
  dsimp only at h
  split at h
  · simp only [Option.some.injEq] at h
    simp [← h]
  · contradiction

@[simp] theorem mem_request_getD (s : State) (k : Packet) (sv : Serves) : ((s.request k sv).getD s).mem = s.mem := by
  cases h : s.request k sv with
  | none => rfl
  | some t => exact mem_of_request h
@[simp] theorem mem_invalidate (s : State) (pa : Nat) : (s.invalidate pa).mem = s.mem := by
  simp [State.invalidate]
@[simp] theorem mem_setProc (s : State) (a : Agent) (x : Proc) : (s.setProc a x).mem = s.mem := by
  unfold State.setProc; split <;> rfl
@[simp] theorem mem_msi (s : State) (pkg port vec : Nat) : (s.msi pkg port vec).mem = s.mem := rfl
@[simp] theorem mem_portSignal (s : State) (pkg port : Nat) : (s.portSignal pkg port).mem = s.mem := by
  simp [State.portSignal]
@[simp] theorem mem_haltProc (s : State) (a : Agent) : (s.haltProc a).mem = s.mem := by
  unfold State.haltProc; dsimp only; split <;> simp
@[simp] theorem mem_logSecure (s : State) (x : Xlat) (cause : Cause) (va tinfo : Nat) : (s.logSecure x cause va tinfo).mem = s.mem := by
  unfold State.logSecure; dsimp only; repeat' split
  all_goals rfl
@[simp] theorem mem_logRefused (s : State) (a : Agent) (va : Nat) (r : TRes) : (s.logRefused a va r).mem = s.mem := by
  unfold State.logRefused; split <;> simp
@[simp] theorem mem_seenBy (s : State) (a : Agent) : (s.seenBy a).mem = s.mem := by
  unfold State.seenBy; dsimp only; repeat' split
  all_goals rfl
@[simp] theorem mem_trapWaiting (s : State) (t : Nat) : (s.trapWaiting t).mem = s.mem := by
  unfold State.trapWaiting
  split
  · rfl
  · refine mem_foldl _ (fun s kc => mem_foldl _ (fun s str => ?_) _ s) _ s
    split <;> simp

@[simp] theorem mem_stopStream (s : State) (t opc cause reason : Nat) (taddr : DWord) : (s.stopStream t opc cause reason taddr).mem = s.mem := by
  simp [State.stopStream]
@[simp] theorem mem_addCharge (s : State) (quad n : Nat) : (s.addCharge quad n).mem = s.mem := rfl
@[simp] theorem mem_issued (s : State) (k : Nat) (str : Bool) (op : Nat) (mask : Word) (wide : Bool) : (s.issued k str op mask wide).mem = s.mem := by
  unfold State.issued; split <;> rfl
@[simp] theorem mem_countIssue (s : State) (op : Nat) (mask : Word) (wide : Bool) : (s.countIssue op mask wide).mem = s.mem := by
  unfold State.countIssue; repeat' split
  all_goals simp
@[simp] theorem mem_deferTeam (s : State) (t : Nat) (h : HeldCause) : (s.deferTeam t h).mem = s.mem := by
  unfold State.deferTeam
  split
  · exact mem_defer ..
  · rfl

@[simp] theorem mem_reportEnded (s : State) (k : Nat) (h : HeldCause) : (s.reportEnded k h).mem = s.mem := by
  unfold State.reportEnded; split <;> simp
@[simp] theorem mem_carveFail (s : State) (a : CarveArrival) (reason : Nat) : (s.carveFail a reason).mem = s.mem := by
  unfold State.carveFail
  split
  · rw [mem_ite, mem_trapCourse, mem_defer, ite_self]
  · rfl

@[simp] theorem mem_dropL1 (s : State) (core : Nat) : (s.dropL1 core).mem = s.mem := rfl
@[simp] theorem mem_takeGranules (s : State) (t : Team) (sp acc : Nat) : (s.takeGranules t sp acc).mem = s.mem := by
  unfold State.takeGranules; split <;> rfl
@[simp] theorem mem_testCarve (s : State) (h : Nat) : (s.testCarve h).mem = s.mem := by
  unfold State.testCarve
  split
  · rfl
  · dsimp only
    rw [mem_ite]
    split
    · rfl
    · split
      · exact mem_foldl _ (fun _ _ => mem_carveFail ..) _ _
      · refine (mem_foldl _ (fun _ _ => modCourse_mem ..) _ _).trans ?_
        rw [setTeam_mem, mem_ite, mem_takeGranules, ite_self]

@[simp] theorem mem_emit (s : State) (p port : Nat) (f : PlaneFrame) : (s.emit p port f).mem = s.mem := by
  simp [State.emit]
@[simp] theorem mem_setStream (s : State) (p k : Nat) (y : Stream) : (s.setStream p k y).mem = s.mem := rfl
@[simp] theorem mem_pump (s : State) (p k : Nat) : (s.pump p k).mem = s.mem := by
  simp [State.pump]
@[simp] theorem mem_planeSend (s : State) (p dst sep dep : Nat) (bytes : List Byte) : (s.planeSend p dst sep dep bytes).mem = s.mem := by
  simp [State.planeSend]
@[simp] theorem mem_tellPeer (s : State) (p dst ep : Nat) (bytes : List Byte) : (s.tellPeer p dst ep bytes).mem = s.mem := by
  simp [State.tellPeer]
@[simp] theorem mem_putWide (key : Nat) (s : State) (b : Barrier) : (s.putWide key b).mem = s.mem := rfl
@[simp] theorem mem_putPart (level p pbg k live : Nat) (s : State) (b : Barrier) : (s.putPart level p pbg k live b).mem = s.mem := by
  simp [State.putPart]
@[simp] theorem mem_retestWide (s : State) (t : Team) : (s.retestWide t).mem = s.mem := by
  refine mem_foldl _ (fun s level => mem_foldl _ (fun s k => ?_) _ s) _ s
  dsimp only
  split <;> split <;> simp
@[simp] theorem mem_retestTeam (s : State) (t : Nat) : (s.retestTeam t).mem = s.mem := rfl
@[simp] theorem mem_courseEnded (s : State) (k : Nat) : (s.courseEnded k).mem = s.mem := by
  unfold State.courseEnded; split <;> simp
@[simp] theorem mem_exitProc (s : State) (a : Agent) (p : Proc) : (s.exitProc a p).mem = s.mem := by
  unfold State.exitProc; repeat' split
  all_goals simp
@[simp] theorem mem_acquireDrop (s : State) (scope : Nat) : (s.acquireDrop scope).mem = s.mem := by
  unfold State.acquireDrop; repeat' split
  all_goals simp
@[simp] theorem mem_forgetSeen (s : State) (k : Nat) : (s.forgetSeen k).mem = s.mem := rfl
@[simp] theorem mem_forgetSelf (s : State) : (s.forgetSelf).mem = s.mem := by
  unfold State.forgetSelf; repeat' split
  all_goals simp
@[simp] theorem mem_putMark (s : State) (path : Nat) : (s.putMark path).mem = s.mem := rfl
@[simp] theorem mem_markFor (s : State) (scope path : Nat) : (s.markFor scope path).mem = s.mem := by
  unfold State.markFor; split <;> rfl
@[simp] theorem mem_xfence (s : State) (q : Nat) : (s.xfence q).mem = s.mem := by
  simp [State.xfence]
@[simp] theorem mem_keepMet (s : State) (v : Nat) : (s.keepMet v).mem = s.mem := by
  unfold State.keepMet; repeat' split
  all_goals simp
@[simp] theorem mem_park (s : State) (k : Nat) (str : Bool) (lanes : Word) (addr : Nat) (kind : AccKind) : (s.park k str lanes addr kind).mem = s.mem := by
  unfold State.park; split <;> rfl
@[simp] theorem mem_setTlb (s : State) (p : TlbPlace) (es : List TlbEntry) : (s.setTlb p es).mem = s.mem := by
  unfold State.setTlb; split <;> rfl
@[simp] theorem mem_noteTlb (s : State) (x : Xlat) (va : Nat) : (s.noteTlb x va).mem = s.mem := by
  simp [State.noteTlb]
@[simp] theorem mem_joinLanes (s : State) (k : Nat) : (s.joinLanes k).mem = s.mem := rfl
@[simp] theorem mem_putBar (team k : Nat) (s : State) (b : Barrier) : (s.putBar team k b).mem = s.mem := rfl
@[simp] theorem mem_awaitReply (s : State) (op n : Nat) : (s.awaitReply op n).mem = s.mem := by
  unfold State.awaitReply; dsimp only; split <;> simp
@[simp] theorem mem_kilnOpen (s : State) (a : Agent) (isOpen clearRisk : Bool) : (s.kilnOpen a isOpen clearRisk).mem = s.mem := by
  unfold State.kilnOpen; split <;> rfl
@[simp] theorem mem_issuePacket (s : State) (r : Packet) : (s.issuePacket r).mem = s.mem := by
  simp [State.issuePacket]
@[simp] theorem mem_releaseHeld (s : State) (p : Nat) : (s.releaseHeld p).mem = s.mem := by
  simp [State.releaseHeld]
@[simp] theorem mem_sendLoads (s : State) (k : Nat) (str : Bool) (c : Course) (reg size : Nat) (sext wide : Bool) (acquire : Option Nat) (sc : Bool)
    (hits : List (Nat × Nat × Nat × Nat)) : (s.sendLoads k str c reg size sext wide acquire sc hits).mem = s.mem :=
  mem_foldl _ (fun _ _ => send_mem ..) hits s
@[simp] theorem mem_stallVersion (s : State) (h : Nat) (t : Team) (pas : List Nat) : (s.stallVersion h t pas).mem = s.mem := by
  unfold State.stallVersion; split <;> rfl
@[simp] theorem mem_noteSharer (s : State) (die pa : Nat) : (s.noteSharer die pa).mem = s.mem := by
  simp [State.noteSharer]
@[simp] theorem mem_holdLine (s : State) (path pa key : Nat) : (s.holdLine path pa key).mem = s.mem := by
  unfold State.holdLine; split <;> simp
@[simp] theorem mem_refillLine (s : State) (core pa key : Nat) : (s.refillLine core pa key).mem = s.mem := rfl
@[simp] theorem mem_fillLine (s : State) (core pa key : Nat) : (s.fillLine core pa key).mem = s.mem := by
  unfold State.fillLine; split <;> rfl
@[simp] theorem mem_dropLine (s : State) (core pa : Nat) : (s.dropLine core pa).mem = s.mem := rfl
@[simp] theorem mem_cctlInv (s : State) (t : Team) (lanes : List Nat) : (s.cctlInv t lanes).mem = s.mem := by
  refine mem_foldl _ (fun s va => ?_) lanes s
  split <;> simp
@[simp] theorem mem_leaveLlc (s : State) (pa : Nat) : (s.leaveLlc pa).mem = s.mem := by
  simp [State.leaveLlc]
@[simp] theorem mem_dropCopies (s : State) (pkg line : Nat) : (s.dropCopies pkg line).mem = s.mem := rfl
@[simp] theorem mem_cctlFlush (s : State) (pkg : Nat) (evict : Bool) (pas : List Nat) : (s.cctlFlush pkg evict pas).mem = s.mem := by
  simp [State.cctlFlush]
@[simp] theorem mem_hold (s : State) (t : Nat) (x : Team) (p : MPending) : (s.hold t x p).mem = s.mem := rfl
@[simp] theorem mem_streamMiss (s : State) (t : Nat) (x : Team) (va : Nat) (k : AccKind) : (s.streamMiss t x va k).mem = s.mem := rfl
@[simp] theorem mem_kickError (s : State) (pkg port reason slot : Nat) (setSlot : Bool) : (s.kickError pkg port reason slot setSlot).mem = s.mem := by
  simp [State.kickError]
@[simp] theorem mem_kickOver (s : State) (pkg : Nat) (k : Kick) : (s.kickOver pkg k).mem = s.mem := rfl
@[simp] theorem mem_kickRead (s : State) (pkg : Nat) (k : Kick) : (s.kickRead pkg k).mem = s.mem := by
  simp [State.kickRead]
@[simp] theorem mem_kick (s : State) (pkg port v : Nat) (whole : Bool) : (s.kick pkg port v whole).mem = s.mem := by
  simp [State.kick]
@[simp] theorem mem_resumeToken (s : State) (die tok : Nat) : (s.resumeToken die tok).mem = s.mem := rfl
@[simp] theorem mem_plainRegWrite (s : State) (pkg off v : Nat) (mc : Bool) : (s.plainRegWrite pkg off v mc).mem = s.mem := by
  simp [State.plainRegWrite]
@[simp] theorem mem_regionWrite (s : State) (pkg d n w v : Nat) : (s.regionWrite pkg d n w v).mem = s.mem := by
  simp [State.regionWrite]
@[simp] theorem mem_rethrottle (s : State) (p : Nat) : (s.rethrottle p).mem = s.mem := by
  rw [State.rethrottle, mem_foldl]
  intro s d
  dsimp only
  split
  · rw [orReg_mem, modDie_mem, setReg_mem]
  · split
    · rw [modDie_mem, setReg_mem]
    · rfl

@[simp] theorem mem_recordLogged (s : State) (die va : Nat) (q : LQueue) : (s.recordLogged die va q).mem = s.mem := by
  unfold State.recordLogged; split <;> simp
@[simp] theorem mem_setQueue (s : State) (die q : Nat) (x : LQueue) : (s.setQueue die q x).mem = s.mem := rfl
@[simp] theorem mem_setKey (s : State) (pkg id : Nat) (k : Option KeyState) : (s.setKey pkg id k).mem = s.mem := by
  simp [State.setKey]
@[simp] theorem mem_dropTlb (s : State) (dies : List Nat) (hit : Nat → Bool) (va : Option Nat) : (s.dropTlb dies hit va).mem = s.mem :=
  mem_foldl _ (fun _ _ => modDie_mem ..) dies s
@[simp] theorem mem_raiseClock (s : State) (core t : Nat) : (s.raiseClock core t).mem = s.mem := by
  simp [State.raiseClock]
@[simp] theorem mem_tellService (s : State) (p kind b : Nat) (y : CircuitBar) : (s.tellService p kind b y).mem = s.mem := by
  simp [State.tellService]
@[simp] theorem mem_setBar (s : State) (p b : Nat) (y : CircuitBar) : (s.setBar p b y).mem = s.mem := rfl
@[simp] theorem mem_setLintelHold (s : State) (p : Nat) (h : Hold) : (s.setLintelHold p h).mem = s.mem := rfl
@[simp] theorem mem_setPort (s : State) (p n : Nat) (y : Port) : (s.setPort p n y).mem = s.mem := rfl
@[simp] theorem mem_failCopies (s : State) (p b : Nat) (which : Copy → Bool) : (s.failCopies p b which).mem = s.mem := rfl
@[simp] theorem mem_freeBar (s : State) (p b : Nat) : (s.freeBar p b).mem = s.mem := rfl
@[simp] theorem mem_dropChunks (s : State) (p n : Nat) : (s.dropChunks p n).mem = s.mem := rfl
@[simp] theorem mem_releasePort (s : State) (p n : Nat) : (s.releasePort p n).mem = s.mem := rfl
@[simp] theorem mem_setStamps (s : State) (pa lw lr : Nat) : (s.setStamps pa lw lr).mem = s.mem := rfl
@[simp] theorem mem_sampleSource (s : State) (core src v : Nat) : (s.sampleSource core src v).mem = s.mem := by
  simp [State.sampleSource]
@[simp] theorem mem_sampleLoad (s : State) (core since : Nat) : (s.sampleLoad core since).mem = s.mem := by
  simp [State.sampleLoad]
@[simp] theorem mem_acquireDone (s : State) (core pa scope : Nat) : (s.acquireDone core pa scope).mem = s.mem := by
  unfold State.acquireDone; split <;> rfl
@[simp] theorem mem_handlerFails (s : State) (k : Nat) (str : Bool) (cause : Cause) (pc : Word) (taddr : Nat) :
    (s.handlerFails k str cause pc taddr).mem = s.mem := by
  unfold State.handlerFails; split <;> simp
@[simp] theorem mem_haltSc (s : State) (core : Nat) : (s.haltSc core).mem = s.mem := rfl
@[simp] theorem mem_noteSeen (s : State) (a : Agent) (lanes : Word) (core : Nat) (r : Nat × Nat × Nat) : (s.noteSeen a lanes core r).mem = s.mem := by
  unfold State.noteSeen; dsimp only; repeat' split
  all_goals rfl
@[simp] theorem mem_noteRead (s : State) (core : Nat) (owner : Agent) (lanes : Word) (pa key : Nat) (below : Bool) :
    (s.noteRead core owner lanes pa key below).mem = s.mem := by
  unfold State.noteRead; dsimp only; split <;> simp
@[simp] theorem mem_versionWrite (s : State) (h pa key : Nat) (mark : Option Nat) (bs : List (Option Byte)) :
    (s.versionWrite h pa key mark bs).mem = s.mem := rfl
@[simp] theorem mem_itemLane (s : State) (path key : Nat) : (s.itemLane path key).mem = s.mem := rfl
@[simp] theorem mem_wholePart (s : State) (pa n : Nat) (poison : Bool) : (s.wholePart pa n poison).mem = s.mem := by
  simp [State.wholePart]
@[simp] theorem mem_dropItem (s : State) (path key : Nat) : (s.dropItem path key).mem = s.mem := rfl
@[simp] theorem mem_placeAtom (s : State) (f : Nat) (g : AtomGroup) : (s.placeAtom f g).mem = s.mem := by
  simp [State.placeAtom]
@[simp] theorem mem_counterRecord (s : State) (c : Copy) (cause : Cause) : (s.counterRecord c cause).mem = s.mem := rfl
@[simp] theorem mem_jointDone (s : State) (j : Nat) (x : Joint) (added : Bool) : (s.jointDone j x added).mem = s.mem := by
  simp [State.jointDone]
@[simp] theorem mem_counterDone (s : State) (n : Nat) (fail : Option Cause) : (s.counterDone n fail).mem = s.mem := by
  unfold State.counterDone; repeat' split
  all_goals simp
@[simp] theorem mem_finishAtom (s : State) (n : Nat) (g : AtomGroup) (a : Option AtomAnswer) (fail : Cause) (tinfo : Word) :
    (s.finishAtom n g a fail tinfo).mem = s.mem := by
  unfold State.finishAtom
  extract_lets s1 s2
  have h2 : s2.mem = s.mem := by
    simp only [s2]
    split <;> simp [s1]
  clear_value s2
  split
  · rw [mem_counterDone, h2]
  · split
    · extract_lets put s3
      have hput : ∀ s l v f, (put s l v f).mem = s.mem := by
        intro s l v f
        simp only [put]
        split <;> rfl
      have h3 : s3.mem = s.mem := by
        simp only [s3]
        split <;> simp [h2, hput]
      split
      · rw [send_mem, h3]
      · exact h3
    · split
      · rw [modTeam_mem, h2]
      · rw [mem_stopStream, h2]
    · exact h2
    · exact h2

@[simp] theorem mem_copiesInto (s : State) (h : Nat) (w : CopyInto) : (s.copiesInto h w).mem = s.mem := rfl
@[simp] theorem mem_slotUpdate (s : State) (die : Nat) (outs ins : List Nat) : (s.slotUpdate die outs ins).mem = s.mem := rfl
@[simp] theorem mem_atomsInto (s : State) (h : Nat) : (s.atomsInto h).mem = s.mem := rfl
@[simp] theorem mem_groupDone (s : State) (n v : Nat) (fail : Option (Cause × Nat × Word)) : (s.groupDone n v fail).mem = s.mem := by
  unfold State.groupDone; split <;> rfl
@[simp] theorem mem_setCopy (s : State) (n : Nat) (c : Copy) : (s.setCopy n c).mem = s.mem := rfl
@[simp] theorem mem_copyMiss (s : State) (n : Nat) (c : Copy) (va kind : Nat) : (s.copyMiss n c va kind).mem = s.mem := rfl
@[simp] theorem mem_copyFails (s : State) (n : Nat) (c : Copy) (va : Nat) : (s.copyFails n c va).mem = s.mem := by
  unfold State.copyFails; split <;> simp
@[simp] theorem mem_weightPiece (s : State) (n u : Nat) (c : Copy) : (s.weightPiece n u c).mem = s.mem := by
  unfold State.weightPiece; dsimp only; split <;> simp
@[simp] theorem mem_registerRow (s : State) (n u : Nat) (c : Copy) : (s.registerRow n u c).mem = s.mem := by
  unfold State.registerRow
  dsimp only
  split <;> simp only [mem_copyMiss, mem_copyFails, mem_setCopy, modCourse_mem]
@[simp] theorem mem_scratchChunk (s : State) (n u : Nat) (c : Copy) : (s.scratchChunk n u c).mem = s.mem := by
  unfold State.scratchChunk; dsimp only; repeat' split
  all_goals simp
@[simp] theorem mem_sendChunk (s : State) (n : Nat) (c : Copy) (first pa leaf : Nat) : (s.sendChunk n c first pa leaf).mem = s.mem := by
  unfold State.sendChunk
  dsimp only
  rw [mem_ite]
  split
  · rfl
  · split
    · exact mem_copyMiss ..
    · exact mem_copyFails ..
    · rfl
    · rfl
    · split
      · next h => exact (mem_setCopy ..).trans (mem_of_request h)
      · rfl

@[simp] theorem mem_copyReport (s : State) (c : Copy) : (s.copyReport c).mem = s.mem := by
  unfold State.copyReport
  split
  · rfl
  · simp only [mem_ite, modTeam_mem, postFault_mem, mem_defer, ite_self]

@[simp] theorem mem_fillFailedRows (s : State) (c : Copy) : (s.fillFailedRows c).mem = s.mem := by
  simp [State.fillFailedRows]
@[simp] theorem mem_copyWritten (s : State) (n : Nat) (c : Copy) : (s.copyWritten n c).mem = s.mem := by
  unfold State.copyWritten; repeat' split
  all_goals simp
@[simp] theorem mem_copyTarget (s : State) (n : Nat) (c : Copy) : (s.copyTarget n c).mem = s.mem := by
  unfold State.copyTarget; dsimp only; split <;> simp
@[simp] theorem mem_performed (s : State) (t op : Nat) : (s.performed t op).mem = s.mem := by
  unfold State.performed; dsimp only; split <;> simp
@[simp] theorem mem_comparator (s : State) (p : Nat) (b : Bool) : (s.comparator p b).mem = s.mem := by
  rw [State.comparator, mem_foldl]
  intro s i
  dsimp only
  rw [modQuad_mem, setReg_mem]

@[simp] theorem mem_therm (s : State) (q : Nat) (b : Bool) : (s.therm q b).mem = s.mem := by
  rw [State.therm]
  dsimp only
  rw [setReg_mem]
@[simp] theorem mem_modMonitor (s : State) (die : Bool) (n ch : Nat) (f : Monitor → Monitor) : (s.modMonitor die n ch f).mem = s.mem := by
  unfold State.modMonitor; split <;> rfl
@[simp] theorem mem_answer (s : State) (k r : Packet) : (s.answer k r).mem = s.mem := by
  simp [State.answer]
@[simp] theorem mem_returnCredits (s : State) (i j n : Nat) : (s.returnCredits i j n).mem = s.mem := rfl
@[simp] theorem mem_itemDone (s : State) (k : Packet) : (s.itemDone k).mem = s.mem := by
  unfold State.itemDone; repeat' split
  all_goals simp
@[simp] theorem mem_enterCore (s : State) (core : Nat) : (s.enterCore core).mem = s.mem := rfl
@[simp] theorem mem_readmit (s : State) (h core : Nat) (gang : List Nat) : (s.readmit h core gang).mem = s.mem := by
  unfold State.readmit; split <;> simp
@[simp] theorem mem_startTeam (s : State) (l : Launch) (index core : Nat) (gang : List Nat) (head was : Nat) :
    (s.startTeam l index core gang head was).mem = s.mem :=
  mem_foldl _ (fun _ _ => setCourse_mem ..) _ _
@[simp] theorem mem_startUnit (s : State) (l : Launch) (idxs cores : List Nat) (was : Nat → Nat) : (s.startUnit l idxs cores was).mem = s.mem := by
  simp [State.startUnit]
@[simp] theorem mem_freshLaunch (s : State) (l : Launch) : (s.freshLaunch l).mem = s.mem := by
  unfold State.freshLaunch; split <;> rfl

/-- Units placed one after another leave memory alone, if each does. -/
theorem mem_foldl_bind {α : Type} (f : State → α → Option State) (hf : ∀ s x t, f s x = some t → t.mem = s.mem) (xs : List α) :
    ∀ {o : Option State} {t : State}, (xs.foldl (fun o x => o.bind fun s => f s x) o) = some t → ∃ s, o = some s ∧ t.mem = s.mem := by
  induction xs with
  | nil => exact fun h => ⟨_, h, rfl⟩
  | cons x xs ih =>
    intro o t h
    obtain ⟨u, hu, hmem⟩ := ih h
    obtain ⟨s, hs, hx⟩ := Option.bind_eq_some_iff.1 hu
    exact ⟨s, hs, hmem.trans (hf s x u hx)⟩

theorem mem_of_placeHead {s t : State} {die : Nat} {h : Head} (hp : s.placeHead die h = some t) : t.mem = s.mem := by
  unfold State.placeHead at hp
  split at hp
  · obtain ⟨u, hu, hmem⟩ := mem_foldl_bind _ (fun s x t hx => by
      obtain ⟨cs, -, rfl⟩ := Option.map_eq_some_iff.1 hx
      exact mem_foldl _ (fun _ _ => mem_readmit ..) _ _) _ hp
    rw [hmem, Option.some.inj hu]
  · obtain ⟨u, hu, hmem⟩ := mem_foldl_bind _ (fun s x t hx => by
      obtain ⟨cs, -, rfl⟩ := Option.map_eq_some_iff.1 hx
      exact mem_startUnit ..) _ hp
    rw [hmem, ← Option.some.inj hu, mem_freshLaunch]
  · obtain ⟨v, hv, rfl⟩ := Option.map_eq_some_iff.1 hp
    obtain ⟨u, hu, hmem⟩ := mem_foldl_bind _ (fun s x t hx => by
      obtain ⟨cs, -, rfl⟩ := Option.map_eq_some_iff.1 hx
      exact mem_startUnit ..) _ hv
    rw [mem_setQueue, hmem, Option.some.inj hu]

@[simp] theorem mem_without (s : State) (hs : List Nat) : (s.without hs).mem = s.mem := mem_foldl _ (fun _ _ => modTeam_mem ..) hs s
@[simp] theorem mem_flushTeam (s : State) (h : Nat) : (s.flushTeam h).mem = s.mem := rfl
@[simp] theorem mem_saveTeam (s : State) (h : Nat) : (s.saveTeam h).mem = s.mem := by
  simp [State.saveTeam]
@[simp] theorem mem_preempt (s : State) (die : Nat) (hs : List Nat) : (s.preempt die hs).mem = s.mem := by
  unfold State.preempt
  split
  · exact mem_foldl _ (fun _ _ => modTeam_mem ..) hs s
  · exact mem_foldl _ (fun _ _ => mem_flushTeam ..) hs s
  · exact mem_foldl _ (fun _ _ => mem_saveTeam ..) hs s

@[simp] theorem mem_preemptFor (die : Nat) (h : Head) (us : List (List Nat)) (s : State) (gone : List Nat) : (s.preemptFor die h gone us).mem = s.mem := by
  induction us generalizing s gone with
  | nil => rfl
  | cons u us ih => rw [State.preemptFor, mem_ite, ih, mem_preempt, ite_self]
@[simp] theorem mem_admitOne (s : State) (die : Nat) : (s.admitOne die).mem = s.mem := by
  unfold State.admitOne
  extract_lets d qs cand top best
  have hqs : ∀ x ∈ qs, ∀ t, x.2.2.2 = some t → t.mem = s.mem := by
    intro x hx t ht
    obtain ⟨kq, -, hk⟩ := List.mem_filterMap.1 hx
    simp only [Option.ite_none_right_eq_some] at hk
    obtain ⟨-, hk⟩ := hk
    split at hk
    · simp only [Option.ite_none_right_eq_some, Option.some.injEq] at hk
      obtain ⟨-, rfl⟩ := hk
      exact mem_of_placeHead ht
    · contradiction
  have hbest : ∀ x, best cand = some x → x ∈ qs := by
    intro x hx
    simp only [best] at hx
    split at hx
    · exact (List.mem_filter.1 (List.mem_filter.1 (List.mem_of_find?_eq_some hx)).1).1
    · contradiction
  split
  · next h => exact (modDie_mem ..).trans (hqs _ (hbest _ h) _ rfl)
  · rfl
  · split
    · exact mem_preemptFor ..
    · rfl

@[simp] theorem mem_dropGld (s : State) (k : Nat) (r : Bound) : (s.dropGld k r).mem = s.mem := by
  unfold State.dropGld; split <;> rfl
@[simp] theorem mem_reportCycle (s : State) (die : Nat) (p : Probe) : (s.reportCycle die p).mem = s.mem := by
  simp [State.reportCycle]
@[simp] theorem mem_reportError (s : State) (die structure' pa : Nat) : (s.reportError die structure' pa).mem = s.mem := rfl
@[simp] theorem mem_poisonLine (s : State) (pa : Nat) (dropCopies : Bool) : (s.poisonLine pa dropCopies).mem = s.mem := by
  unfold State.poisonLine; split <;> rfl
@[simp] theorem mem_setMortar (s : State) (m : Nat) (e : MortarEntry) : (s.setMortar m e).mem = s.mem := rfl
@[simp] theorem mem_countMortar (s : State) (die off : Nat) : (s.countMortar die off).mem = s.mem := rfl
@[simp] theorem mem_putJoint (s : State) (o : MortarOp) (words : List Word) (die add : Nat) (from' : List MortarOp) :
    (s.putJoint o words die add from').mem = s.mem := rfl
@[simp] theorem mem_joinPair (s : State) (x y : MortarOp) (die : Nat) : (s.joinPair x y die).mem = s.mem := rfl
@[simp] theorem mem_dropMortar (s : State) (m : Nat) : (s.dropMortar m).mem = s.mem := rfl
@[simp] theorem mem_leave (s : State) (n : Nat) (k : Packet) : (s.leave n k).mem = s.mem := rfl
@[simp] theorem mem_mortarTaken (s : State) (p : Option (Nat × Packet)) : (s.mortarTaken p).mem = s.mem := by
  unfold State.mortarTaken; split <;> simp
@[simp] theorem mem_modHalves (s : State) (router : Nat) (f : List HalfRec → List HalfRec) : (s.modHalves router f).mem = s.mem := rfl
@[simp] theorem mem_raiseMortar (s : State) (o : MortarOp) (cause : Cause) : (s.raiseMortar o cause).mem = s.mem := by
  unfold State.raiseMortar
  dsimp only
  split
  · rw [mem_ite, mem_defer, mem_deferTeam, ite_self]
  · exact mem_deferTeam ..

@[simp] theorem mem_routeOperand (s : State) (m : Nat) (e : MortarEntry) (p : Option (Nat × Packet)) : (s.routeOperand m e p).mem = s.mem := by
  unfold State.routeOperand; dsimp only; split <;> simp
@[simp] theorem mem_jointAdd (s : State) (j : Nat) (x : Joint) : (s.jointAdd j x).mem = s.mem := rfl
@[simp] theorem mem_takeHalf (s : State) (m : Nat) (e : MortarEntry) (p : Option (Nat × Packet)) : (s.takeHalf m e p).mem = s.mem := by
  unfold State.takeHalf; dsimp only; split <;> simp
@[simp] theorem mem_hostAnswer (s : State) (pkg port : Nat) (bytes : List Byte) (refused : Bool) : (s.hostAnswer pkg port bytes refused).mem = s.mem := rfl
@[simp] theorem mem_hostRefuse (s : State) (p port pa : Nat) (write : Bool) : (s.hostRefuse p port pa write).mem = s.mem := by
  simp [State.hostRefuse]
@[simp] theorem mem_hostRead (s : State) (p port pa len : Nat) : (s.hostRead p port pa len).mem = s.mem := by
  unfold State.hostRead; split <;> rfl
@[simp] theorem mem_queryFate (s : State) (p key : Nat) (t : WallTx) : (s.queryFate p key t).mem = s.mem := by
  simp [State.queryFate]
@[simp] theorem mem_failFlits (s : State) (p n : Nat) : (s.failFlits p n).mem = s.mem := by
  unfold State.failFlits
  dsimp only
  rw [mem_ite, mem_dropChunks, mem_foldl, ite_self]
  intro s o
  split <;> simp

@[simp] theorem mem_modEngine (s : State) (p e : Nat) (f : Engine → Engine) : (s.modEngine p e f).mem = s.mem := rfl
@[simp] theorem mem_relock (s : State) (p n : Nat) (last : Option Nat) : (s.relock p n last).mem = s.mem := by
  unfold State.relock; dsimp only; split <;> simp
@[simp] theorem mem_goLive (s : State) (p n : Nat) : (s.goLive p n).mem = s.mem := by
  unfold State.goLive; dsimp only; split <;> simp
@[simp] theorem mem_dropPacket (s : State) (n : Nat) (k : Packet) : (s.dropPacket n k).mem = s.mem := rfl
@[simp] theorem mem_readTaken (s : State) (n : Nat) : (s.readTaken n).mem = s.mem := by
  unfold State.readTaken; repeat' split
  all_goals simp
@[simp] theorem mem_dropTx (s : State) (p key : Nat) : (s.dropTx p key).mem = s.mem := rfl
@[simp] theorem mem_chunkAnswer (s : State) (k : Packet) (ok : Bool) : (s.chunkAnswer k ok).mem = s.mem := by
  unfold State.chunkAnswer; split <;> rfl
@[simp] theorem mem_addU (s : State) (dst src og : Nat) : (s.addU dst src og).mem = s.mem := rfl
@[simp] theorem mem_keepRelay (s : State) (k : Packet) : (s.keepRelay k).mem = s.mem := rfl
@[simp] theorem mem_lostRecord (s : State) (k type kind addr info : Nat) : (s.lostRecord k type kind addr info).mem = s.mem := by
  unfold State.lostRecord; split <;> rfl
@[simp] theorem mem_writeFails (s : State) (o : Nat) (owner : Agent) (scope : Nat) (ti : Word) : (s.writeFails o owner scope ti).mem = s.mem := by
  unfold State.writeFails
  dsimp only
  split
  · split
    · rw [mem_ite, mem_lostRecord, mem_defer, send_mem, ite_self]
    · rfl
  all_goals rfl

@[simp] theorem mem_planeTake (s : State) (p ep : Nat) : (s.planeTake p ep).mem = s.mem := rfl
@[simp] theorem mem_killPacket (s : State) (t : WallTx) : (s.killPacket t).mem = s.mem := by
  simp [State.killPacket]
@[simp] theorem mem_dropReply (s : State) (r : Packet) : (s.dropReply r).mem = s.mem := by
  simp [State.dropReply]
@[simp] theorem mem_scAnew (s : State) : (s.scAnew).mem = s.mem := rfl
@[simp] theorem mem_lintelTimeout (s : State) (p op : Nat) : (s.lintelTimeout p op).mem = s.mem := by
  unfold State.lintelTimeout; split <;> simp
@[simp] theorem mem_planeAnswer (s : State) (p port : Nat) (f : PlaneFrame) (reopen : Bool) : (s.planeAnswer p port f reopen).mem = s.mem := by
  simp [State.planeAnswer]
@[simp] theorem mem_setWeazon (s : State) (p w : Nat) (up : Bool) : (s.setWeazon p w up).mem = s.mem := by
  simp [State.setWeazon]
@[simp] theorem mem_groupRead (s : State) (f : Nat) (x : GroupReq) (pa va size : Nat) (lanes : Word) (version : Option Nat) (asked : Bool) (key : Nat) :
    (s.groupRead f x pa va size lanes version asked key).mem = s.mem := by
  unfold State.groupRead
  dsimp only
  simp only [mem_ite, mem_groupDone, mem_noteRead, ite_self, ite_eq_left_iff, ite_eq_right_iff]
  intros
  split
  · next h => exact (setFlight_mem ..).trans (mem_of_request h)
  · rfl

theorem mem_settled (s : State) (a : Agent) (t : State) : (s.settled a t).mem = t.mem := by
  unfold State.settled
  split
  · split
    · split <;> rfl
    · rfl
  · rfl

@[simp] theorem mem_fetchMisses (s : State) (a : Agent) (va : Nat) : (s.fetchMisses a va).mem = s.mem := by
  unfold State.fetchMisses; repeat' split
  all_goals simp
@[simp] theorem mem_haltAborted (s : State) (a : Agent) : (s.haltAborted a).mem = s.mem := by
  unfold State.haltAborted; repeat' split
  all_goals simp
@[simp] theorem mem_endYields (s : State) (core : Nat) : (s.endYields core).mem = s.mem := rfl
@[simp] theorem mem_quadCycle (s : State) (q : Nat) : (s.quadCycle q).mem = s.mem := by
  simp [State.quadCycle]

end Sys2Proof.Machine

/-! # Memory's form under the rules' common shapes (log 6)

A rule is given its agent, its operands or a released state as a continuation: it keeps the form when the continuation does. -/

namespace Sys2Proof.Machine

open Sys2Proof

/-- Every state that a rule leaves has its memory in form. -/
def Res.memWf : Res → Prop
  | .done t | .jumped t | .stay t => t.memWf
  | .wait | .trap .. => True

/-- Every state that an answer leaves has its memory in form. -/
def Out.memWf : Out → Prop
  | .next t => t.memWf
  | .fault _ | .refused _ => True

@[simp] theorem memWf_iff {s : State} : s.memWf ↔ Memory.wf s.mem = true := Iff.rfl
@[simp] theorem memWf_done {t : State} : (Res.done t).memWf ↔ t.memWf := Iff.rfl
@[simp] theorem memWf_jumped {t : State} : (Res.jumped t).memWf ↔ t.memWf := Iff.rfl
@[simp] theorem memWf_stay {t : State} : (Res.stay t).memWf ↔ t.memWf := Iff.rfl
@[simp] theorem memWf_wait : Res.wait.memWf := trivial
@[simp] theorem memWf_trap (c : Cause) (a m i : Nat) : (Res.trap c a m i).memWf := trivial
@[simp] theorem memWf_next {t : State} : Out.memWf (.next t) ↔ t.memWf := Iff.rfl
@[simp] theorem memWf_fault (r : Fault) : Out.memWf (.fault r) := trivial

@[simp] theorem wf_ite (p : Prop) [Decidable p] (m n : Memory) : Memory.wf (if p then m else n) = if p then Memory.wf m else Memory.wf n := apply_ite ..
@[simp] theorem resWf_ite (p : Prop) [Decidable p] (r q : Res) : (if p then r else q).memWf ↔ if p then r.memWf else q.memWf := by
  split <;> rfl
@[simp] theorem outWf_ite (p : Prop) [Decidable p] (r q : Out) : Out.memWf (if p then r else q) ↔ if p then Out.memWf r else Out.memWf q := by
  split <;> rfl

theorem memWf_ite {p : Prop} [Decidable p] {r q : Res} (hr : r.memWf) (hq : q.memWf) : (if p then r else q).memWf := by
  split <;> assumption

theorem memWf_foldl {α : Type} {f : State → α → State} (hf : ∀ s x, s.memWf → (f s x).memWf) (xs : List α) {s : State} (h : s.memWf) :
    (xs.foldl f s).memWf := by
  induction xs generalizing s with
  | nil => exact h
  | cons x xs ih => exact ih (hf s x h)

/-- A check's refusal, or what follows it. -/
theorem memWf_orElse {o : Option Res} {r : Res} (ho : ∀ e, o = some e → e.memWf) (hr : r.memWf) : (match o with | some e => e | none => r).memWf := by
  cases o with
  | none => exact hr
  | some e => exact ho e rfl

/-! ## Checks only refuse -/

@[simp] theorem memWf_illegalAt (op fld sub : Nat) : (illegalAt op fld sub).memWf := trivial
@[simp] theorem memWf_etIllegal (op : Nat) : (etIllegal op).memWf := trivial

theorem memWf_of_checks {c : Course} {lanes : Word} {uses : List Use} {dest : Option (Nat × Bool)} {r : Res} (h : c.checks lanes uses dest = some r) :
    r.memWf := by
  unfold Course.checks at h
  dsimp only at h
  repeat' split at h
  all_goals cases h
  all_goals trivial

theorem memWf_of_scalarChecks {x : Scalar} {uses : List (Nat × Bool)} {r : Res} (h : x.checks uses = some r) : r.memWf := by
  unfold Scalar.checks at h
  split at h <;> cases h
  trivial

theorem memWf_of_specialCheck {c : Course} {op n : Nat} {write wide : Bool} {r : Res} (h : specialCheck c op n write wide = some r) : r.memWf := by
  unfold specialCheck at h
  repeat' split at h
  all_goals cases h
  all_goals trivial

theorem memWf_of_firstCause {rs : List (Nat × Nat × LaneRes)} {r : Res} (h : firstCause rs = some r) : r.memWf := by
  unfold firstCause at h
  dsimp only at h
  repeat' split at h
  all_goals cases h
  all_goals trivial

/-! ## The agent that a rule is given -/

theorem memWf_asCourse {s : State} {f : Nat → Bool → Course → Res} (hf : ∀ k str c, (f k str c).memWf) : (s.asCourse f).memWf := by
  unfold State.asCourse
  split
  · exact hf ..
  · trivial

theorem memWf_groupOp {s : State} {uses : List (Nat × Bool)} {f : Scalar → Res} (hf : ∀ x, (f x).memWf) : (s.groupOp uses f).memWf := by
  unfold State.groupOp
  split
  · next h => exact memWf_of_scalarChecks h
  · exact hf _

theorem memWf_asStream {s : State} {f : Nat → Team → Res} (hf : ∀ t x, (f t x).memWf) : (s.asStream f).memWf := by
  unfold State.asStream
  split
  · split
    · split
      · trivial
      · exact hf ..
    · trivial
  · trivial

theorem memWf_asKcore {s : State} {f : Nat → Res} (hf : ∀ d, (f d).memWf) : (s.asKcore f).memWf := by
  unfold State.asKcore
  split
  · exact hf _
  · trivial

theorem memWf_asLintel {s : State} {f : Nat → Proc → Res} (hf : ∀ p x, (f p x).memWf) : (s.asLintel f).memWf := by
  unfold State.asLintel
  split
  · exact hf ..
  · trivial

theorem memWf_memVec {s : State} {op : Nat} {accepts : Bool} {uses : List Use} {dest : Option (Nat × Bool)} {body : Nat → Bool → Course → Word → Res}
    (hb : ∀ k str c act, (body k str c act).memWf) : (s.memVec op accepts uses dest body).memWf := by
  refine memWf_asCourse fun k str c => ?_
  split
  · trivial
  · dsimp only
    split
    · next h => exact memWf_of_checks h
    · exact hb ..

section
variable {s : State} (h : s.memWf)
include h

/-! ## The shapes of the vector instructions -/

theorem memWf_vecOp (op : Nat) (accepts : Bool) (uses : List Use) (d : Nat) (wide : Bool) (effect : Course → Nat → List Nat → Rounded) :
    (s.vecOp op accepts uses d wide effect).memWf := by
  refine memWf_asCourse fun k str c => ?_
  split
  · trivial
  · dsimp only
    split
    · next hc => exact memWf_of_checks hc
    · exact h

theorem memWf_predOp (op : Nat) (accepts : Bool) (uses : List Use) (m : Nat) (cond : Course → Nat → List Nat → Bool) (flags : Course → List Nat → Flags) :
    (s.predOp op accepts uses m cond flags).memWf := by
  refine memWf_asCourse fun k str c => ?_
  split
  · trivial
  · dsimp only
    split
    · next hc => exact memWf_of_checks hc
    · exact h

theorem memWf_destOp (op : Nat) (accepts : Bool) (uses : List Use) (d : Nat) (effect : Course → Nat → List Nat → Nat → Rounded) :
    (s.destOp op accepts uses d effect).memWf := by
  refine memWf_asCourse fun k str c => ?_
  have hv := memWf_vecOp h op accepts uses d false fun c l v => effect c l v (c.oldDest d l)
  split
  · next ht =>
    rw [ht] at hv
    dsimp only
    split
    · trivial
    · exact hv
  · exact hv

omit h in
theorem memWf_convOp {rule : Nat → Res} (hr : ∀ st, (rule st).memWf) : (s.convOp rule).memWf := by
  refine memWf_asCourse fun k str c => ?_
  split
  · dsimp only
    have := hr (srStep c.srSeedV.toNat)
    split
    · next ht => rw [ht] at this; exact this
    · exact this
  · exact hr 0

/-! ## Fences -/

theorem memWf_afterRelease {scope : Nat} {more : Nat → Bool} {go : State → Res} (hgo : ∀ t : State, t.memWf → (go t).memWf) :
    (s.afterRelease scope more go).memWf := by
  unfold State.afterRelease
  split
  · exact memWf_ite (hgo s h) memWf_wait
  · extract_lets s1
    have h1 : s1.memWf := by simp [s1, h]
    clear_value s1
    split
    case h_1 | h_2 => exact memWf_ite (hgo _ (by simpa using h1)) memWf_wait
    case h_3 => exact memWf_ite (hgo _ (by simpa using h1)) (by simpa using h1)

theorem memWf_vFence {q : Nat} {go : State → Res} (hgo : ∀ t : State, t.memWf → (go t).memWf) : (s.vFence q go).memWf := by
  unfold State.vFence
  split
  · split
    · exact hgo s h
    · trivial
  · exact memWf_afterRelease h hgo

theorem memWf_thenFence {path v : Nat} {go : State → Res} (hgo : ∀ t : State, t.memWf → (go t).memWf) : (s.thenFence path v go).memWf := by
  unfold State.thenFence
  split
  · exact hgo s h
  · split
    · have hv := memWf_vFence h (q := 63) (go := fun s => go (s.xfence 63)) fun t ht => hgo _ (by simp [ht])
      split
      · next t ht => rw [ht] at hv; simpa using hv
      · simp [h]
      · exact hv
    · exact hgo _ (by simp [h])

/-! ## Accesses -/

theorem memWf_lanesOp {op : Nat} {act : Word} {addr : Nat → Nat} {size align : Nat} {kind : AccKind} {banAll : Bool} {ban : Nat → Bool} {dest : Option (Nat × Bool)}
    {perform : State → List (Nat × Nat × Nat × Nat) → State ⊕ (State → State)}
    (hl : ∀ (t u : State) hits, t.memWf → perform t hits = .inl u → u.memWf) (hr : ∀ (t : State) hits f, perform t hits = .inr f → (f s).memWf) :
    (s.lanesOp op act addr size align kind banAll ban dest perform).memWf := by
  refine memWf_asCourse fun k str c => ?_
  split
  · trivial
  · dsimp only
    split
    · trivial
    · split
      · next hc => exact memWf_of_firstCause hc
      · split
        · trivial
        · split
          · next f hp => exact hr _ _ f hp
          · next s3 hp =>
            have h3 : s3.memWf := by
              refine hl _ s3 _ ?_ hp
              split <;> simp [h]
            split
            · exact h3
            · split
              · exact h3
              · simpa using h3

theorem memWf_loadOp (op d a : Nat) (accepts : Bool) (more : List Use) (addr : Course → Nat → Nat → Nat) (size : ElemType → Nat) (sext wide : ElemType → Bool)
    (acquire : Option Nat) (sc : Bool) : (s.loadOp op d a accepts more addr size sext wide acquire sc).memWf := by
  refine memWf_memVec fun k str c act => memWf_lanesOp h (fun t u hits ht hp => ?_) (fun t hits f hp => ?_)
  · obtain rfl := Sum.inl.inj hp
    simpa using ht
  · cases hp

theorem memWf_resumeEntering (k : Nat) (str : Bool) (c : Course) (st : Nat) (rest : List PendingStore) (left : Word) :
    (s.resumeEntering k str c st rest left).memWf := by
  unfold State.resumeEntering
  dsimp only
  repeat' split
  all_goals simp [h]

theorem memWf_enterStores_inl {u : State} {k : Nat} {str : Bool} {ps : List PendingStore} {pas : List Nat} (he : s.enterStores k str ps pas = .inl u) :
    u.memWf := by
  unfold State.enterStores at he
  split at he
  · split at he
    · contradiction
    · obtain rfl := Sum.inl.inj he
      exact h
  · contradiction

omit h in
theorem memWf_enterStores_inr {t : State} {k : Nat} {str : Bool} {ps : List PendingStore} {pas : List Nat} {f : State → State} (he : s.enterStores k str ps pas = .inr f)
    (ht : t.memWf) : (f t).memWf := by
  unfold State.enterStores at he
  split at he
  · split at he
    · obtain rfl := Sum.inr.inj he
      simpa using ht
    · contradiction
  · obtain rfl := Sum.inr.inj he
    exact ht

theorem memWf_storeOp (op d a : Nat) (accepts : Bool) (dty : ElemType) (more : List Use) (addr : Course → Nat → Nat → Nat) (size kind scope : Nat) (banAll : Bool)
    (flag : Course → Nat → Nat → Option FlagInfo) : (s.storeOp op d a accepts dty more addr size kind scope banAll flag).memWf := by
  refine memWf_memVec fun k str c act => ?_
  split
  · exact memWf_resumeEntering h ..
  · trivial
  · exact memWf_lanesOp h (fun t u hits ht hp => memWf_enterStores_inl ht hp) (fun t hits f hp => memWf_enterStores_inr hp h)

theorem memWf_atomOp (op p d a b : Nat) (ret : Bool) (order : AtomOrder) (scope : Nat) : (s.atomOp op p d a b ret order scope).memWf := by
  unfold State.atomOp
  refine memWf_memVec fun k str c act => ?_
  dsimp only
  split
  · trivial
  · trivial
  · refine memWf_lanesOp h (fun t u hits ht hp => ?_) (fun t hits f hp => ?_)
    · split at hp
      · contradiction
      · obtain rfl := Sum.inl.inj hp
        rw [State.memWf, modCourse_mem, mem_foldl]
        · exact ht
        · intro s g
          split <;> simp
    · split at hp
      · obtain rfl := Sum.inr.inj hp
        simpa using h
      · contradiction

theorem memWf_spadOp (act : Word) (share : Bool) (addr : Nat → Nat) (size : Nat) (dest : Option (Nat × Bool)) (op : Course → List Nat → SpOp) :
    (s.spadOp act share addr size dest op).memWf := by
  refine memWf_asCourse fun k str c => ?_
  split
  · trivial
  · dsimp only
    split
    · trivial
    · trivial
    · refine memWf_foldl (f := fun s g => s.send _) (fun _ _ hs => hs) _ ?_
      split <;> simp [h]

theorem memWf_oneAccess_ok {t : State} {va size pa leaf op : Nat} {kind : AccKind} {ban : Nat → Bool} (ho : s.oneAccess va size kind ban op = .ok t pa leaf) :
    t.memWf := by
  unfold State.oneAccess at ho
  repeat' split at ho
  all_goals cases ho
  simpa using h

theorem memWf_oneAccess_res {va size op : Nat} {kind : AccKind} {ban : Nat → Bool} {r : Res} (ho : s.oneAccess va size kind ban op = .res r) : r.memWf := by
  unfold State.oneAccess at ho
  split at ho
  · cases ho; trivial
  · split at ho
    · cases ho; trivial
    · split at ho
      · cases ho; trivial
      · cases ho; simp [h]
      · cases ho; trivial
      · split at ho
        · cases ho; trivial
        · split at ho <;> cases ho
          trivial

/-! ## Barriers, mailboxes, group requests and copies -/

theorem memWf_atBarrier {put : State → Barrier → State} (hput : ∀ (t : State) b, (put t b).mem = t.mem) (party : Nat) (str : Bool) (pc : Word) (b : Barrier)
    (kind count live scope : Nat) (auto : Bool) : (s.atBarrier party str pc b put kind count live scope auto).memWf := by
  unfold State.atBarrier
  extract_lets me goOn b'
  have hgo : ∀ (t : State) b r, t.memWf → r.memWf → (goOn t b r).memWf := by
    intro t b r ht hr
    simp only [goOn]
    split
    · simp [hput, ht]
    · exact hr
  clear_value goOn
  split
  · split
    · trivial
    · exact hgo s b _ h trivial
  · split
    · simp [hput, h]
    · split
      · split
        · exact hgo s _ _ h trivial
        · split
          · trivial
          · simp [hput, h]
      · refine memWf_afterRelease h fun t ht => ?_
        extract_lets b3
        clear_value b3
        split
        · simp [hput, ht]
        · split
          · exact hgo t _ _ ht (by simp [hput, ht])
          · simp [hput, ht]

omit h in
theorem memWf_genTarget {key o : Nat} {go : Nat → Nat → Nat → Bool → Res} (hgo : ∀ a b c d, (go a b c d).memWf) : (s.genTarget key o go).memWf := by
  unfold State.genTarget
  split
  · exact memWf_wait
  · split
    · exact memWf_trap ..
    · split
      · exact memWf_trap ..
      · exact hgo ..

theorem memWf_mbw (t k v : Nat) : (s.mbw t k v).memWf := by
  unfold State.mbw
  repeat' split
  all_goals simp [h]

theorem memWf_mbwRelease (key : Nat) (str : Bool) (k v : Nat) : (s.mbwRelease key str k v).memWf := by
  unfold State.mbwRelease
  split
  · trivial
  · split
    · trivial
    · exact memWf_afterRelease h fun t ht => memWf_mbw ht ..

theorem memWf_mbr {t k : Nat} {peek : Bool} {go : State → Word → Res} (hgo : ∀ (t : State) w, t.memWf → (go t w).memWf) : (s.mbr t k peek go).memWf := by
  unfold State.mbr
  split
  · trivial
  · dsimp only
    split
    · trivial
    · exact hgo _ _ (by simp [h])

theorem memWf_askGroup (opc : Nat) (d : BitVec 6) (op : GroupOp) : (s.askGroup opc d op).memWf := by
  simp [State.askGroup, h]

theorem memWf_copyOp (op a b f : Nat) : (s.copyOp op a b f).memWf := by
  refine memWf_asCourse fun k str c => ?_
  split
  · trivial
  · next hc _ => exact memWf_of_scalarChecks hc
  · dsimp only
    split
    · trivial
    · split
      · trivial
      · split
        · trivial
        · split <;> exact h

/-! ## Branches, specials and exits -/

theorem memWf_branch (taken : Bool) (o : BitVec 20) : (s.branch taken o).memWf := by
  simp [State.branch, h]

theorem memWf_split (k : Nat) (str : Bool) (c : Course) (t : Team) (tk target : Word) : (s.split k str c t tk target).memWf := by
  unfold State.split
  dsimp only
  repeat' split
  all_goals simp [h]

theorem memWf_jumpTo (pc : Nat) : (jumpTo pc s).memWf := by
  unfold jumpTo
  split
  · trivial
  · simp [h]

theorem memWf_setSpecial (k n v : Nat) (wide : Bool) : (s.setSpecial k n v wide).memWf := by
  unfold State.setSpecial
  dsimp only
  repeat' split
  all_goals simp [h]

theorem memWf_exitCourse (k : Nat) (str : Bool) (c : Course) : (s.exitCourse k str c).memWf := by
  unfold State.exitCourse
  split
  · trivial
  · split
    · trivial
    · split
      · trivial
      · simp [h]

theorem memWf_streamFault (t : Nat) (x : Team) (op cause reason : Nat) (addr : Option Nat) : (s.streamFault t x op cause reason addr).memWf := by
  simp [State.streamFault, h]

theorem memWf_mset (k v : Nat) : (s.mset k v).memWf := memWf_asStream fun _ _ => h

/-! ## A Lintel's bytes, a pending record's pages -/

omit h in
theorem memWf_lintelRead {p va n : Nat} {r : Res} (hr : s.lintelRead p va n = .inr r) : r.memWf := by
  induction n generalizing va r with
  | zero => cases hr
  | succ n ih =>
    unfold State.lintelRead at hr
    split at hr
    · split at hr
      · cases hr; trivial
      · dsimp only at hr
        generalize hq : s.lintelRead p (va + 1) n = q at hr
        cases q with
        | inl => cases hr
        | inr q => cases hr; exact ih hq
    · cases hr; trivial
    · cases hr; trivial

omit h in
theorem memWf_lintelPlaces {p va n : Nat} {r : Res} (hr : s.lintelPlaces p va n = .inr r) : r.memWf := by
  induction n generalizing va r with
  | zero => cases hr
  | succ n ih =>
    unfold State.lintelPlaces at hr
    split at hr
    · split at hr
      · cases hr; trivial
      · generalize hq : s.lintelPlaces p (va + 1) n = q at hr
        cases q with
        | inl => cases hr
        | inr q => cases hr; exact ih hq
    · cases hr; trivial
    · cases hr; trivial

end

/-- Every state that the pages of a record leave has its memory in form. -/
def PendRes.memWf : PendRes → Prop
  | .ok t _ => t.memWf
  | .res r => r.memWf

theorem memWf_pendPages {s : State} (h : s.memWf) (va : Nat) (ps : List Nat) (acc : List (Nat × Nat × Nat)) : (s.pendPages va ps acc).memWf := by
  induction ps generalizing s acc with
  | nil => exact h
  | cons p rest ih =>
    unfold State.pendPages
    split
    · next hr => exact memWf_oneAccess_res h hr
    · next ho =>
      split
      · trivial
      · exact ih (memWf_oneAccess_ok h ho) _

theorem memWf_pendRecord {s : State} (h : s.memWf) {va : Nat} {go : State → Bound → Res} (hgo : ∀ (t : State) b, t.memWf → (go t b).memWf) :
    (s.pendRecord va go).memWf := by
  unfold State.pendRecord
  split
  · trivial
  · dsimp only
    have hp := memWf_pendPages h va (if va / 65536 = (va + pendBytes - 1) / 65536 then [va / 65536] else [va / 65536, (va + pendBytes - 1) / 65536]) []
    split
    · next hr => rw [hr] at hp; exact hp
    · next hr => rw [hr] at hp; exact hgo _ _ hp

/-- What 64 bytes of a key answer when one of them cannot be read: that byte's refusal. -/
theorem memWf_keyBytes {s : State} (h : s.memWf) {va : Nat} {r : Res} (hr : s.keyBytes va = .inr r) : r.memWf := by
  refine List.foldlRecOn (motive := fun (a : (List Byte × Bool) ⊕ Res) => ∀ r, a = .inr r → r.memWf) (List.range 64) _ (fun _ h => by cases h) ?_ r hr
  intro a ih i _ r hr
  split at hr
  · exact ih r hr
  · split at hr
    · next ho => cases hr; exact memWf_oneAccess_res h ho
    · split at hr <;> cases hr
      trivial

/-! ## Events that go on at a port, a route or a service -/

theorem memWf_portEvent {s : State} {p n : Nat} {f : Pkg → Port → State} (h : s.memWf) (hf : ∀ x y, (f x y).memWf) : Out.memWf (s.portEvent p n f) := by
  unfold State.portEvent
  split
  · exact h
  · exact hf ..

theorem memWf_unreachable {s : State} {p j kind n : Nat} {fail : State → Nat → State} (h : s.memWf) (hf : ∀ (t : State) r, t.memWf → (fail t r).memWf) :
    (s.unreachable p j kind n fail).memWf := by
  unfold State.unreachable
  dsimp only
  split
  · simp [h]
  · split
    · simp [h]
    · split
      · exact hf _ _ (by simp [h])
      · exact h

theorem memWf_fromService {s : State} {p kind : Nat} {f : State → List Byte → State} (h : s.memWf) (hf : ∀ (t : State) m, t.memWf → (f t m).memWf) :
    (s.fromService p kind f).memWf := by
  unfold State.fromService
  split
  · exact h
  · dsimp only
    split
    · exact hf _ _ (by simp [h])
    · split <;> simp [h]

theorem memWf_serviceAnswer {s : State} {p : Nat} {m : List Byte} {f : State → Nat → CircuitBar → State} (h : s.memWf)
    (hf : ∀ (t : State) b y, t.memWf → (f t b y).memWf) : (s.serviceAnswer p m f).memWf := by
  unfold State.serviceAnswer
  dsimp only
  split
  · simp [h]
  · split
    · exact hf _ _ _ h
    · exact h

end Sys2Proof.Machine

/-! # Memory's form under the state operations that write it (log 6) -/

namespace Sys2Proof.Machine

open Sys2Proof

@[simp] theorem memWf_snapStatus {s : State} (p v : Nat) (h : s.memWf) : (s.snapStatus p v).memWf := by
  simp [State.snapStatus, h, memWf_engineWrite]
@[simp] theorem memWf_keyLine {s : State} (pa key : Nat) (mark : Option Nat) (h : s.memWf) : (s.keyLine pa key mark).memWf := by
  simp [State.keyLine, h, memWf_tagLine, memWf_shadowLine]
@[simp] theorem memWf_enterProc {s : State} (a : Agent) (h : s.memWf) : (s.enterProc a).memWf := by
  unfold State.enterProc; dsimp only; repeat' split
  all_goals simp [h, memWf_frameStore]
@[simp] theorem memWf_goEntry {s : State} (a : Agent) (h : s.memWf) : (s.goEntry a).memWf := by
  unfold State.goEntry; split <;> simp [h]
@[simp] theorem memWf_trapProc {s : State} (a : Agent) (cause : Cause) (taddr tinfo : Nat) (h : s.memWf) : (s.trapProc a cause taddr tinfo).memWf := by
  unfold State.trapProc; split <;> simp [h]
@[simp] theorem memWf_takeDeadlock {s : State} (a : Agent) (h : s.memWf) : (s.takeDeadlock a).memWf := by
  unfold State.takeDeadlock; split <;> simp [h]
@[simp] theorem memWf_enterTrap {s : State} (cause : Cause) (taddr tmask tinfo : Nat) (h : s.memWf) : (s.enterTrap cause taddr tmask tinfo).memWf := by
  unfold State.enterTrap; repeat' split
  all_goals simp [h]
@[simp] theorem memWf_takeTrap {s : State} (cause : Cause) (taddr tmask tinfo : Nat) (h : s.memWf) : (s.takeTrap cause taddr tmask tinfo).memWf := by
  unfold State.takeTrap; split <;> simp [h]
@[simp] theorem memWf_snapClose {s : State} (die id : Nat) (h : s.memWf) : (s.snapClose die id).memWf := by
  simp [State.snapClose, h]

/-- What a reset puts back of lost lines (R326) keeps the form. -/
theorem wf_lostLines (lost : SMap (List Byte × Nat)) {m : Memory} (h : Memory.wf m = true) :
    Memory.wf (lost.foldl (fun m kb => m.setBytes (128 * kb.1) (kb.2.1.take 128)) m) = true := by
  induction lost generalizing m with
  | nil => exact h
  | cons kb lost ih => exact ih (wf_setBytes _ _ h)

@[simp] theorem memWf_resetPkg {s : State} (pkg cause : Nat) (h : s.memWf) : (s.resetPkg pkg cause).memWf := by
  unfold State.resetPkg
  dsimp only
  rw [memWf_iff, setReg_mem, mem_foldl _ fun _ _ => setLine_mem ..]
  exact wf_lostLines _ h

@[simp] theorem memWf_devWriteWord {s : State} (pkg off v : Nat) (src : RegSource) (h : s.memWf) : (s.devWriteWord pkg off v src).memWf := by
  unfold State.devWriteWord
  extract_lets mc d r o
  clear_value d r o mc
  split
  · simp -implicitDefEqProofs [h]
  · cases src <;> simp -implicitDefEqProofs [h]

@[simp] theorem memWf_clearBits {s : State} (pkg off v : Nat) (src : RegSource) (h : s.memWf) : (s.clearBits pkg off v src).memWf := by
  simp [State.clearBits, h]
@[simp] theorem memWf_devWriteBy {s : State} (pkg off v : Nat) (src : RegSource) (h : s.memWf) : (s.devWriteBy pkg off v src).memWf := by
  unfold State.devWriteBy; split <;> simp [h]
@[simp] theorem memWf_devWrite {s : State} (pa size v : Nat) (src : RegSource) (h : s.memWf) : (s.devWrite pa size v src).memWf := by
  simp [State.devWrite, h]

theorem mem_of_sendOperand {s t : State} {o : MortarOp} (hs : s.sendOperand o = some t) : t.mem = s.mem := by
  unfold State.sendOperand at hs
  dsimp only at hs
  split at hs
  · cases hs; rfl
  · exact (mem_of_request hs : t.mem = _)

@[simp] theorem memWf_recordWrite {s : State} (b : Bound) (o : Nat) (bytes : List Byte) (h : s.memWf) : (s.recordWrite b o bytes).memWf := by
  unfold State.recordWrite; split <;> simp [h, memWf_homeWriteKey]
@[simp] theorem memWf_pendFinish {s : State} (k : Nat) (c : Course) (core : Nat) (b : Bound) (h : s.memWf) : (s.pendFinish k c core b).memWf := by
  simp [State.pendFinish, h]
@[simp] theorem memWf_performWrite {s : State} (pa : Nat) (bytes : List (Option Byte)) (mark : Option Nat) (kind core scope stamp c0 : Nat) (h : s.memWf) :
    (s.performWrite pa bytes mark kind core scope stamp c0).2.memWf := by
  have hw := memWf_homeWrite pa bytes mark h
  unfold State.performWrite
  dsimp only
  split
  · exact hw
  · dsimp only
    split
    · simpa using hw
    · exact hw

@[simp] theorem memWf_storeMessage {s : State} (p : Nat) (places : List (Nat × Nat)) (bytes : List Byte) (h : s.memWf) :
    (s.storeMessage p places bytes).memWf := memWf_foldl (fun _ _ hs => memWf_performWrite _ _ _ _ _ _ _ _ (memWf_keyLine _ _ _ hs)) _ h
@[simp] theorem memWf_fileEntry {s : State} (b : Bound) (o v flags : Nat) (h : s.memWf) : (s.fileEntry b o v flags).memWf := by
  simp [State.fileEntry, h]
@[simp] theorem memWf_fileLane {s : State} (b : Bound) (k o lane reg : Nat) (wide : Bool) (v : Nat) (fail : Option (Cause × Nat × Word)) (h : s.memWf) :
    (s.fileLane b k o lane reg wide v fail).memWf := by
  unfold State.fileLane; split <;> simp [h]
@[simp] theorem memWf_landLane {s : State} (k o lane reg : Nat) (wide : Bool) (v : Nat) (h : s.memWf) : (s.landLane k o lane reg wide v).memWf := by
  unfold State.landLane; repeat' split
  all_goals simp [h]
@[simp] theorem memWf_landLoad {s : State} (n : Nat) (x : LoadLane) (v : Nat) (h : s.memWf) : (s.landLoad n x v).memWf := by
  unfold State.landLoad; repeat' split
  all_goals simp [h]
@[simp] theorem memWf_laneFails {s : State} (k o : Nat) (str : Bool) (pc : Word) (cause : Cause) (lane reg : Nat) (wide : Bool) (taddr : Nat) (tinfo : Word) (h : s.memWf) :
    (s.laneFails k o str pc cause lane reg wide taddr tinfo).memWf := by
  unfold State.laneFails
  split
  · exact h
  · split
    · split <;> simp [h, mem_defer]
    · split
      · dsimp only
        split <;> simp [h]
      all_goals exact h

@[simp] theorem memWf_readHere {s : State} (n : Nat) (x : LoadLane) (h : s.memWf) : (s.readHere n x).memWf := by
  unfold State.readHere; dsimp only; repeat' split
  all_goals simp [h]
@[simp] theorem memWf_deliverFlight {s : State} (f : Nat) (h : s.memWf) : (s.deliverFlight f).memWf := by
  unfold State.deliverFlight
  split
  · split
    · split <;> simp [h]
    · dsimp only
      split
      · exact h
      · split
        · exact h
        · split
          · split
            · next hr => rw [memWf_iff, setFlight_mem, mem_of_request hr]; exact h
            · exact h
          · simp [h]
  · dsimp only
    split <;> split <;> simp [h]
  · exact h

@[simp] theorem memWf_passOn {s : State} (k : Nat) (t : Team) (e : SbEntry) (pa leaf : Nat) (h : s.memWf) : (s.passOn k t e pa leaf).memWf := by
  unfold State.passOn
  split
  · simp [h]
  · dsimp only
    split
    · exact memWf_foldl (fun _ _ hs => memWf_devWrite _ _ _ _ hs) _ h
    · simp [h]

@[simp] theorem memWf_entryLeaves {s : State} (k : Nat) (t : Team) (n : Nat) (e : SbEntry) (pa leaf : Nat) (h : s.memWf) :
    (s.entryLeaves k t n e pa leaf).memWf := by
  simp [State.entryLeaves, h]

theorem mem_of_promoteAtom {s t : State} {n path pa : Nat} {g : AtomGroup} (hp : s.promoteAtom n g path pa = some t) : t.mem = s.mem := by
  unfold State.promoteAtom at hp
  repeat' split at hp
  all_goals cases hp
  all_goals rfl

theorem memWf_atomAt {s : State} (pa : Nat) (g : AtomGroup) (up : Option Bool) (core stamp : Nat) (mark : Option Nat) (h : s.memWf) :
    (s.atomAt pa g up core stamp mark).2.memWf := by
  unfold State.atomAt
  dsimp only
  split
  · exact h
  · split
    · simp [h]
    · dsimp only
      split <;> simp [h]

@[simp] theorem memWf_performHalf {s : State} (n pa : Nat) (g : AtomGroup) (core stamp : Nat) (mark : Option Nat) (h : s.memWf) :
    (s.performHalf n pa g core stamp mark).memWf := by
  have ha : (s.tick.atomAt pa g (some ((s.draw 0).getLsbD 0)) core stamp mark).2.memWf := memWf_atomAt _ _ _ _ _ _ h
  unfold State.performHalf
  dsimp only
  split <;> next he => rw [he] at ha; exact ha

@[simp] theorem memWf_performAtom {s : State} (pa : Nat) (g : AtomGroup) (core stamp : Nat) (mark : Option Nat) (h : s.memWf) :
    (s.performAtom pa g core stamp mark).2.memWf := memWf_atomAt _ _ _ _ _ _ h
@[simp] theorem memWf_commit {s : State} (h : Nat) (hs : s.memWf) : (s.commit h).memWf := by
  unfold State.commit
  split
  · split
    · refine (memWf_iff.2 ?_ : State.memWf _)
      rw [modTeam_mem, mem_foldl _ fun _ _ => setLine_mem ..]
      exact memWf_foldl (fun _ _ h => memWf_homeWrite _ _ _ h) _ (memWf_foldl (fun _ _ h => memWf_keyLine _ _ _ h) _ hs)
    · exact hs
  · exact hs

@[simp] theorem memWf_doneWord {s : State} (t : Team) (h : s.memWf) : (s.doneWord t).memWf := by
  unfold State.doneWord
  dsimp only
  split
  · split
    · exact h
    · split
      · exact h
      · split
        · exact h
        · simp [h]
  · simp [h]
  · exact h

@[simp] theorem memWf_tryEndTeam {s : State} (h : Nat) (hs : s.memWf) : (s.tryEndTeam h).memWf := by
  unfold State.tryEndTeam
  split
  · exact hs
  · next t _ =>
    extract_lets finished alive last s1 s2 s3 l s4 done s5
    have h1 : s1.memWf := by
      simp only [s1]
      split
      · exact hs
      · exact memWf_commit h hs
    have h4 : s4.memWf := by
      simp only [s4]
      split <;> simp [s3, s2, mem_leftCore, h1]
    have h5 : s5.memWf := by
      simp only [s5]
      split <;> simp [h4]
    clear_value s4 s5
    split
    · exact hs
    · split
      · simp [hs]
      · split
        · exact h4
        · simp [h5]

@[simp] theorem memWf_serveBank {s : State} (n : Nat) (x : SpLane) (h : s.memWf) : (s.serveBank n x).memWf := by
  unfold State.serveBank
  split
  · exact h
  · dsimp only
    split
    · refine memWf_foldl (fun s l hs => ?_) _ h
      split <;> simp [hs]
    · exact h
    · split
      · exact memWf_foldl (fun s l hs => memWf_laneFails _ _ _ _ _ _ _ _ _ _ hs) _ h
      · split
        · exact h
        · refine memWf_foldl (fun s lv hs => ?_) _ ?_
          · split <;> simp [hs]
          · exact h

@[simp] theorem memWf_writeChunk {s : State} (c : Copy) (pa leaf : Nat) (bs : List (Option Byte)) (poison : Bool) (h : s.memWf) :
    (s.writeChunk c pa leaf bs poison).memWf := by
  unfold State.writeChunk; split <;> simp [h, memWf_homeWriteKey]
@[simp] theorem memWf_globalChunk {s : State} (n u : Nat) (c : Copy) (h : s.memWf) : (s.globalChunk n u c).memWf := by
  unfold State.globalChunk; dsimp only; repeat' split
  all_goals simp [h]
@[simp] theorem memWf_copyCounter {s : State} (n : Nat) (c : Copy) (h : s.memWf) : (s.copyCounter n c).memWf := by
  unfold State.copyCounter
  dsimp only
  split
  · simp [h]
  · split
    · exact h
    · split <;> simp [h]

theorem mem_of_frameIn {s t : State} {p n kind port : Nat} {bytes : List Byte} {f : PlaneFrame} (hf : s.frameIn p n kind bytes = some (f, port, t)) :
    t.mem = s.mem := by
  unfold State.frameIn at hf
  cases bytes with
  | nil =>
    dsimp only at hf
    split at hf
    · simp only [Option.ite_none_right_eq_some, Option.some.injEq, Prod.mk.injEq] at hf
      obtain ⟨-, -, -, rfl⟩ := hf
      rfl
    · cases hf
  | cons b bs =>
    dsimp only at hf
    split at hf
    · simp only [Option.ite_none_right_eq_some, Option.some.injEq, Prod.mk.injEq] at hf
      obtain ⟨-, -, -, rfl⟩ := hf
      rfl
    · cases hf

@[simp] theorem memWf_logLine {s : State} (k : Packet) (h : s.memWf) : (s.logLine k).memWf := by
  unfold State.logLine; dsimp only; split <;> simp [h, memWf_engineWrite, memWf_snapFail]
@[simp] theorem memWf_logWrite {s : State} (k : Packet) (h : s.memWf) : (s.logWrite k).memWf := memWf_foldl (fun _ _ hs => memWf_logLine _ hs) _ h
@[simp] theorem memWf_jointCounter {s : State} (j : Nat) (x : Joint) (h : s.memWf) : (s.jointCounter j x).memWf := by
  unfold State.jointCounter
  simp [h]
@[simp] theorem memWf_jointChunk {s : State} (x : Joint) (c : Nat) (h : s.memWf) : (s.jointChunk x c).memWf := by
  unfold State.jointChunk
  dsimp only
  split
  · exact memWf_foldl (fun _ _ hs => memWf_devWrite _ _ _ _ hs) _ h
  · exact memWf_homeWriteKey _ _ _ _ h

theorem memWf_of_hostPerform {s t : State} {p : Nat} {w : HostWrite} (h : s.memWf) (hp : s.hostPerform p w = some t) : t.memWf := by
  unfold State.hostPerform at hp
  dsimp only at hp
  split at hp
  · cases hp; simp [h]
  · split at hp
    · cases hp; simp [h]
    · split at hp <;> cases hp
      exact memWf_homeWriteKey _ _ _ _ h

@[simp] theorem memWf_hostDrain {s : State} (p port : Nat) (h : s.memWf) : (s.hostDrain p port).memWf := by
  unfold State.hostDrain
  split
  · exact h
  · split
    · next t hp => exact memWf_of_hostPerform (t := t) h hp
    · simp [h]

@[simp] theorem memWf_hostReceive {s : State} (p : Nat) (w : HostWrite) (h : s.memWf) : (s.hostReceive p w).memWf := by
  simp [State.hostReceive, h]
@[simp] theorem memWf_failBar {s : State} (p b reason : Nat) (h : s.memWf) : (s.failBar p b reason).memWf := by
  simp [State.failBar, h, memWf_snapFail]
@[simp] theorem memWf_goDark {s : State} (p n : Nat) (last : Option Nat) (h : s.memWf) : (s.goDark p n last).memWf := by
  unfold State.goDark; dsimp only; split <;> simp [h]
@[simp] theorem memWf_holdExpires {s : State} (p n : Nat) (h : s.memWf) : (s.holdExpires p n).memWf := by
  simp [State.holdExpires, h]
@[simp] theorem memWf_startLocking {s : State} (p n : Nat) (h : s.memWf) : (s.startLocking p n).memWf := by
  simp [State.startLocking, h]
@[simp] theorem memWf_quarantine {s : State} (p n : Nat) (h : s.memWf) : (s.quarantine p n).memWf := by
  unfold State.quarantine; dsimp only; split <;> simp [h]
@[simp] theorem memWf_readAnswered {s : State} (n : Nat) (r : Packet) (h : s.memWf) : (s.readAnswered n r).memWf := by
  unfold State.readAnswered; repeat' split
  all_goals simp [h]
@[simp] theorem memWf_txDone {s : State} (t : WallTx) (r : Packet) (h : s.memWf) : (s.txDone t r).memWf := by
  unfold State.txDone; repeat' split
  all_goals simp [h]
@[simp] theorem memWf_ingress {s : State} {n type : Nat} {f : Packet → State} (h : s.memWf) (hf : ∀ k, (f k).memWf) : (s.ingress n type f).memWf := by
  unfold State.ingress
  split
  · exact h
  · split
    · exact h
    · split
      · simpa using h
      · split
        · exact h
        · exact hf _

@[simp] theorem memWf_answerArrives {s : State} (n type : Nat) (h : s.memWf) : (s.answerArrives n type).memWf := by
  refine memWf_ingress h fun r => ?_
  dsimp only
  split <;> simp [h]

theorem mem_of_packetHeld {s t : State} {k : Packet} (hp : s.packetHeld k = some t) : t.mem = s.mem := by
  unfold State.packetHeld at hp
  split at hp
  · cases hp; simp
  · split at hp
    · split at hp
      · cases hp; simp
      · exact mem_of_promoteAtom hp
    · split at hp
      · cases hp; simp
      · split at hp
        · split at hp <;> cases hp
          rfl
        · cases hp

theorem mem_of_packetStays {s t : State} {n : Nat} {k : Packet} (hp : s.packetStays n k = some t) : t.mem = s.mem := by
  unfold State.packetStays at hp
  dsimp only at hp
  split at hp
  · cases hp; rfl
  · split at hp
    · cases hp; split <;> rfl
    · exact mem_of_packetHeld hp

theorem memWf_of_halfDue {s t : State} {k : Packet} (h : s.memWf) (hp : s.halfDue k = some t) : t.memWf := by
  unfold State.halfDue at hp
  split at hp
  · split at hp
    · split at hp <;> cases hp
      simp [h]
    · cases hp
  · cases hp

theorem memWf_of_laneDue {s t : State} {n : Nat} {k : Packet} (h : s.memWf) (hp : s.laneDue n k = some t) : t.memWf := by
  unfold State.laneDue at hp
  split at hp
  · next p q ps _ =>
    split at hp
    · cases hp
    · extract_lets x s1 at hp
      have h1 : s1.memWf := memWf_logWrite x h
      clear_value s1
      generalize hw : (s1.keyLine x.addr x.key (s1.packetMark x)).performWrite x.addr x.bytes (s1.packetMark x) 3 k.core k.scope (s1.stampOf k)
        (s1.scStart k.core k.stamp) = w at hp
      have h2 : w.2.memWf := hw ▸ memWf_performWrite _ _ _ _ _ _ _ _ (memWf_keyLine _ _ _ h1)
      rw [← Option.some.inj hp, memWf_iff, mem_raiseClock]
      split
      · rw [mem_itemLane]
        exact h2
      · exact h2
  · cases hp

@[simp] theorem memWf_performChunk {s : State} (k : Packet) (h : s.memWf) : (s.performChunk k).memWf :=
  memWf_foldl (fun _ _ hs => by rw [memWf_iff, mem_wholePart]; exact memWf_homeWriteKey _ _ _ _ hs) _ h
@[simp] theorem memWf_performCircuit {s : State} (k : Packet) (h : s.memWf) : (s.performCircuit k).memWf := by
  have h1 : ((s.logWrite k).performChunk k).memWf := memWf_performChunk _ (memWf_logWrite _ h)
  unfold State.performCircuit
  dsimp only
  rw [memWf_iff, mem_chunkAnswer, mem_ite]
  split
  · exact h1
  · exact memWf_performWrite _ _ _ _ _ _ _ _ (memWf_logWrite _ (memWf_keyLine _ _ _ h1))

@[simp] theorem memWf_performPacket {s : State} (k : Packet) (h : s.memWf) : (s.performPacket k).memWf := by
  unfold State.performPacket
  split
  · exact memWf_performCircuit _ h
  · extract_lets s1 returned count ack ack' kind c0
    have h1 : s1.memWf := by
      simp only [s1]
      split
      · exact h
      · exact memWf_logWrite _ h
    have hret : ∀ t : State, (returned t).mem = t.mem := fun _ => rfl
    have hcount : ∀ t : State, (count t).mem = t.mem := by
      intro t
      simp only [count]
      split <;> rfl
    clear_value s1 count returned ack ack' kind c0
    split
    case h_1 | h_2 =>
      split
      · split
        · split
          · simp [hret, hcount, h1]
          all_goals simp [hret, h1]
        all_goals simp [hret, h1]
      · simp [hret, h1]
    case h_3 => exact h1
    case h_4 | h_5 => simp [hret, hcount, h1]
    case h_6 =>
      split
      · simp only [memWf_iff, mem_answer, hcount, hret, mem_itemDone]
        exact memWf_foldl (fun _ _ hs => memWf_devWrite _ _ _ _ hs) _ h1
      · dsimp only
        simp [hret, hcount, h1]

@[simp] theorem memWf_takePacket {s : State} (n : Nat) (k : Packet) (h : s.memWf) : (s.takePacket n k).memWf := by
  unfold State.takePacket
  split
  · next hp => rw [memWf_iff, mem_of_packetStays hp]; exact h
  · split
    · next hp => exact memWf_of_halfDue h hp
    · next hp => exact memWf_of_laneDue h hp
    · exact memWf_performPacket _ h

@[simp] theorem memWf_takeCopyChunk {s : State} (n : Nat) (k : Packet) (h : s.memWf) : (s.takeCopyChunk n k).memWf := by
  unfold State.takeCopyChunk
  split
  · next hp => rw [memWf_iff, mem_of_packetStays hp]; exact h
  · exact memWf_performPacket _ h
  · extract_lets runs ready s1 part rest
    have h1 : s1.memWf := by
      refine memWf_foldl (fun s r hs => ?_) _ h
      dsimp only
      split
      · exact memWf_performChunk _ (memWf_logWrite _ hs)
      · exact hs
    clear_value s1
    split
    · exact memWf_performChunk _ (memWf_logWrite _ h1)
    · exact memWf_performPacket _ h1

@[simp] theorem memWf_txFails {s : State} (p : Nat) (t : WallTx) (reason : Nat) (h : s.memWf) : (s.txFails p t reason).memWf := by
  unfold State.txFails
  dsimp only
  split
  · simp [h]
  · split <;> simp [h]
  · exact h
  · exact h
  · exact h
  · exact h
  · split <;> simp [h]

@[simp] theorem memWf_failUnsent {s : State} (k : Packet) (sv : Serves) (reason : Nat) (h : s.memWf) : (s.failUnsent k sv reason).memWf := by
  simp [State.failUnsent, h]
@[simp] theorem memWf_takeChunk {s : State} (k : Packet) (port : Nat) (h : s.memWf) : (s.takeChunk k port).memWf := by
  unfold State.takeChunk
  dsimp only
  split
  · simp [h]
  · split
    · exact h
    · split
      · simp [h]
      · split
        · simp [h]
        · split
          · split
            · split <;> simp [h]
            · exact h
          · split <;> simp [h]

@[simp] theorem mem_tagAlloc (s : State) (scope dom n : Nat) : (s.tagAlloc scope dom n).2.mem = s.mem := by
  unfold State.tagAlloc
  dsimp only
  split <;> rfl
@[simp] theorem mem_tagFree (s : State) (first n : Nat) : (s.tagFree first n).2.mem = s.mem := by
  unfold State.tagFree
  dsimp only
  split <;> rfl
@[simp] theorem memWf_groupAnswered {s : State} (f : Nat) (x : GroupReq) (v : Nat) (fail : Option (Cause × Nat × Word)) (h : s.memWf) :
    (s.groupAnswered f x v fail).memWf := by
  unfold State.groupAnswered
  dsimp only
  split
  · split
    · exact h
    · split
      · exact h
      · split <;> simp [h, mem_defer]
  · exact h
  all_goals
    split
    · exact h
    · split
      · exact h
      · split <;> simp [h]

@[simp] theorem memWf_fetchFails {s : State} (a : Agent) (c : Cause) (va tinfo : Nat) (h : s.memWf) : (s.fetchFails a c va tinfo).memWf := by
  unfold State.fetchFails
  extract_lets s1
  have h1 : s1.memWf := by
    simp only [s1]
    split <;> simp [h]
  split <;> simp [h1]

theorem mem_coreCycle (s : State) (core : Nat) : (s.coreCycle core).1.mem = s.mem := rfl

theorem mem_coreCycles (cores : List Nat) (r : State × List Agent) :
    (cores.foldl (fun (r : State × List Agent) core => let x := r.1.coreCycle core; (x.1, r.2 ++ x.2)) r).1.mem = r.1.mem := by
  refine foldl_keeps _ (fun r => r.1.mem) (fun r core => ?_) cores r
  exact mem_coreCycle ..

@[simp] theorem mem_cycle (s : State) : s.cycle.mem = s.mem := by
  unfold State.cycle
  dsimp only
  rw [mem_foldl _ fun _ _ => modPkg_mem .., mem_foldl _ fun _ _ => mem_quadCycle .., mem_coreCycles]

end Sys2Proof.Machine

/-! # Memory's form over every step (log 6) -/

namespace Sys2Proof.Machine

open Sys2Proof

/-! ## Instruction words -/

theorem memWf_runWord {s : State} {i : Instr} {rule : Res} (h : s.memWf) (hr : rule.memWf) : Out.memWf (s.runWord i rule) := by
  unfold State.runWord
  split
  · trivial
  · split
    · exact h
    · split
      · exact memWf_takeTrap _ _ _ _ h
      · split
        · rw [memWf_next, memWf_iff, advance_mem, mem_countIssue]
          exact hr
        · rw [memWf_next, memWf_iff, mem_countIssue]
          exact hr
        · exact hr
        · exact h
        · exact memWf_takeTrap _ _ _ _ h

section
variable {s : State} (h : s.memWf)
include h

theorem memWf_un (i : Instr) (op : Nat) (accepts : ElemType → Bool) (d a : BitVec 6) (f : AluMode → Nat → Rounded) : Out.memWf (s.un i op accepts d a f) :=
  memWf_runWord h (memWf_vecOp h ..)

theorem memWf_bin (i : Instr) (op : Nat) (accepts : ElemType → Bool) (d a b : BitVec 6) (f : AluMode → Nat → Nat → Rounded) :
    Out.memWf (s.bin i op accepts d a b f) :=
  memWf_runWord h (memWf_vecOp h ..)

theorem memWf_tern (i : Instr) (op : Nat) (accepts : ElemType → Bool) (d a b c : BitVec 6) (f : AluMode → Nat → Nat → Nat → Rounded) :
    Out.memWf (s.tern i op accepts d a b c f) :=
  memWf_runWord h (memWf_vecOp h ..)

theorem memWf_gbin (i : Instr) (d a b : BitVec 6) (f : AluMode → Nat → Nat → Nat) : Out.memWf (s.gbin i d a b f) :=
  memWf_runWord h (memWf_groupOp fun _ => by simp [h])

theorem memWf_procGst (va pa leaf size v : Nat) : (s.procGst va pa leaf size v).memWf := by
  unfold State.procGst
  dsimp only
  split
  · trivial
  · split
    · exact h
    · split
      · exact memWf_devWrite _ _ _ _ h
      · split
        · simp [h]
        · exact memWf_homeWriteKey _ _ _ _ h

theorem memWf_mjoinSend (k : Nat) (str : Bool) (t : Team) (stamp : Nat) (o : MortarOp) (tile : Option Nat) : (s.mjoinSend k str t stamp o tile).memWf := by
  unfold State.mjoinSend
  extract_lets low scope n words
  clear_value low words
  split
  · trivial
  · split
    · simp [h]
    · split
      · trivial
      · split
        · next hs =>
          rw [memWf_done, memWf_iff, mem_of_sendOperand hs, mem_markFor]
          exact h
        · trivial

theorem memWf_mjoinTargets {x : MDesc} {go : State → Nat → Nat → Nat → Nat → Res} (hgo : ∀ (t : State) a b c d, t.memWf → (go t a b c d).memWf) :
    (s.mjoinTargets x go).memWf := by
  unfold State.mjoinTargets
  split
  · trivial
  · split
    · next hr => exact memWf_oneAccess_res h hr
    · next ho =>
      have h1 := memWf_oneAccess_ok h ho
      split
      · exact hgo _ _ _ _ _ h1
      · split
        · next hr => exact memWf_oneAccess_res h1 hr
        · next ho => exact hgo _ _ _ _ _ (memWf_oneAccess_ok h1 ho)

theorem memWf_mjoinHold (k : Nat) (str : Bool) (t : Team) (o : MortarOp) (tile : Option Nat) : (s.mjoinHold k str t o tile).memWf := by
  unfold State.mjoinHold
  extract_lets s'
  have h' : s'.memWf := h
  split
  · exact h'
  · exact memWf_mjoinSend h' ..

theorem memWf_mjoinTagged (k : Nat) (str : Bool) (t : Team) (vec : Bool) (op tag : Nat) (x : MDesc) (lanes : List Word) :
    (s.mjoinTagged k str t vec op tag x lanes).memWf := by
  unfold State.mjoinTagged
  split
  · trivial
  · refine memWf_mjoinTargets h fun u a b c d hu => ?_
    dsimp only
    split
    · exact memWf_mjoinHold hu ..
    · split
      · trivial
      · exact memWf_mjoinHold hu ..

theorem memWf_mjoin (vec : Bool) (d a b op : Nat) : (s.mjoin vec d a b op).memWf := by
  unfold State.mjoin
  refine memWf_asCourse fun k str c => ?_
  split
  · exact memWf_wait
  · split
    · exact memWf_mjoinSend h ..
    · extract_lets +onlyGivenNames r x
      clear_value x
      split
      · exact memWf_trap ..
      · refine memWf_orElse (fun e he => memWf_of_scalarChecks he) ?_
        split
        · exact memWf_illegalAt ..
        · split
          · extract_lets act
            clear_value act
            refine memWf_orElse (fun e he => memWf_of_checks he) ?_
            split
            · exact h
            · exact memWf_mjoinTagged h ..
          · refine memWf_orElse (fun e he => memWf_of_scalarChecks he) ?_
            exact memWf_mjoinTagged h ..

end

section
variable {s : State} (h : s.memWf)
include h

theorem memWf_execSetm (k : BitVec 4) (v : BitVec 14) : Out.memWf (execSetm k v s) := by
  refine memWf_runWord h (memWf_asCourse fun key str c => memWf_orElse (fun e he => ?_) ?_)
  · split at he
    · exact memWf_of_scalarChecks he
    · cases he
  · dsimp only
    split
    · exact h
    · exact memWf_trap ..

theorem memWf_execExit : Out.memWf (execExit s) := by
  refine memWf_runWord h ?_
  split
  · exact memWf_asCourse fun k str c => memWf_exitCourse h k str c
  · split
    · simp [h]
    · exact memWf_wait
  · split
    · simp [h]
    · exact memWf_wait
  · exact memWf_wait

theorem memWf_execExitSaved : Out.memWf (execExitSaved s) := by
  refine memWf_runWord h (memWf_asCourse fun k str c => ?_)
  repeat' split
  all_goals simp [h]

theorem memWf_execGsr (d : BitVec 6) (n : BitVec 12) : Out.memWf (execGsr d n s) := by
  refine memWf_runWord h (memWf_asCourse fun k str c => ?_)
  split
  · next hc => exact memWf_of_specialCheck hc
  · simp [h]
  · exact memWf_wait

theorem memWf_execGsw (a : BitVec 6) (n : BitVec 12) : Out.memWf (execGsw a n s) := by
  refine memWf_runWord h (memWf_asCourse fun k str c => ?_)
  split
  · next hc => exact memWf_of_specialCheck hc
  · next hc => exact memWf_of_scalarChecks hc
  · exact memWf_setSpecial h ..

theorem memWf_execXsr (d : BitVec 6) (x : BitVec 5) : Out.memWf (execXsr d x s) := by
  refine memWf_runWord h (memWf_asCourse fun k str c => ?_)
  split
  · dsimp only
    split
    · next hc => exact memWf_of_checks hc
    · exact h
  · simp [h]

theorem memWf_execXsw (a : BitVec 6) (x : BitVec 5) : Out.memWf (execXsw a x s) := by
  refine memWf_runWord h (memWf_asCourse fun k str c => ?_)
  split
  · dsimp only
    split
    · next hc => exact memWf_of_checks hc
    · split
      · exact h
      · split
        · exact memWf_trap ..
        · exact h
  · refine memWf_groupOp fun sc => ?_
    split
    · exact h
    · exact memWf_trap ..

theorem memWf_execEret : Out.memWf (execEret s) := by
  refine memWf_runWord h (memWf_asCourse fun k str c => ?_)
  dsimp only
  repeat' split
  all_goals simp [h]

theorem memWf_execFence (r q : BitVec 1) (sc : BitVec 3) : Out.memWf (execFence r q sc s) := by
  refine memWf_runWord h ?_
  extract_lets rel acq finish
  have hf (t : State) (ht : t.memWf) : (finish t).memWf := by
    simp only [finish]
    split <;> simp [ht]
  clear_value finish
  split
  · split
    · refine hf _ ?_
      split <;> simp [h]
    · exact memWf_wait
  · split
    · exact memWf_wait
    · split
      · refine memWf_afterRelease h fun t ht => hf _ ?_
        split <;> simp [ht]
      · split
        · exact hf _ (by simp [h])
        · exact memWf_wait

theorem memWf_execXfence (q p : BitVec 6) : Out.memWf (execXfence q p s) := by
  refine memWf_runWord h ?_
  split
  · exact memWf_vFence h fun t ht => by simp [ht]
  · simp [h]

theorem memWf_execWaita (d a b : BitVec 6) (t : BitVec 3) (x : BitVec 1) (c : BitVec 2) : Out.memWf (execWaita d a b t x c s) := by
  refine memWf_runWord h (memWf_groupOp fun sc => ?_)
  extract_lets +onlyGivenNames size target fence finish
  have hfence (t : State) (v : Nat) (ht : t.memWf) : (fence t v).memWf := memWf_thenFence ht fun u hu => by simp [hu]
  have hfin (t : State) (v : Nat) (ht : t.memWf) : (finish t v).memWf := by
    simp only [finish]
    split
    · exact hfence _ _ ht
    · exact memWf_wait
  clear_value finish fence
  split
  · exact hfence _ _ h
  · split
    · split
      · exact memWf_wait
      · dsimp only
        split
        · exact memWf_wait
        · split
          · exact memWf_trap ..
          · split
            · exact memWf_trap ..
            · split
              · exact memWf_wait
              · split
                · exact memWf_wait
                · split
                  · exact memWf_trap ..
                  · refine hfin _ _ ?_
                    split <;> simp [h]
    · dsimp only
      split
      · next ho => exact memWf_oneAccess_res h ho
      · next ho =>
        split
        · exact memWf_wait
        · split
          · exact memWf_trap ..
          · split
            · exact memWf_wait
            · exact hfin _ _ (by simpa using memWf_oneAccess_ok h ho)

theorem memWf_execWaitc (d a b : BitVec 6) (t : BitVec 3) : Out.memWf (execWaitc d a b t s) := by
  refine memWf_runWord h (memWf_groupOp fun sc => ?_)
  extract_lets +onlyGivenNames slot va fence
  have hfence (t : State) (v : Nat) (ht : t.memWf) : (fence t v).memWf := memWf_thenFence ht fun u hu => by simp [hu]
  clear_value fence
  split
  · exact hfence _ _ h
  · split
    · next ho => exact memWf_oneAccess_res h ho
    · next ho =>
      have ho := memWf_oneAccess_ok h ho
      split
      · exact memWf_wait
      · split
        · exact memWf_trap ..
        · split
          · exact memWf_wait
          · split
            · exact memWf_wait
            · extract_lets failed
              clear_value failed
              split
              · exact memWf_takeTrap _ _ _ _ (by simpa using ho)
              · exact hfence _ _ (by simpa using ho)

theorem memWf_execCvt (d a : BitVec 6) (t : BitVec 4) : Out.memWf (execCvt d a t s) := by
  unfold execCvt
  refine memWf_runWord h ?_
  split
  · exact memWf_illegalAt ..
  · exact memWf_convOp fun st => memWf_vecOp h ..

theorem memWf_execCvtn (d a b : BitVec 6) (f : BitVec 4) : Out.memWf (execCvtn d a b f s) := by
  unfold execCvtn
  exact memWf_runWord h (memWf_convOp fun st => memWf_destOp h ..)

theorem memWf_execCvtw (d a b : BitVec 6) (f : BitVec 4) : Out.memWf (execCvtw d a b f s) := by
  unfold execCvtw
  exact memWf_runWord h (memWf_vecOp h ..)

theorem memWf_execShfl (d a b : BitVec 6) (m : BitVec 2) : Out.memWf (execShfl d a b m s) := by
  refine memWf_runWord h (memWf_asCourse fun k str c => ?_)
  extract_lets +onlyGivenNames mask act ua ub trapA trapB
  clear_value trapA trapB
  split
  · exact memWf_trap ..
  · split
    · exact memWf_wait
    · exact memWf_wait
    · exact memWf_of_checks ‹c.checks mask ua none = some _›
    · exact memWf_of_checks ‹c.checks act ub _ = some _›
    · exact h

theorem memWf_execBcst (d a b : BitVec 6) : Out.memWf (execBcst d a b s) := by
  refine memWf_runWord h (memWf_asCourse fun k str c => memWf_orElse (fun e he => memWf_of_checks he) ?_)
  simp [h]

theorem memWf_execRdx (a p : BitVec 6) : Out.memWf (execRdx a p s) := by
  refine memWf_runWord h (memWf_asCourse fun k str c => ?_)
  split
  · exact memWf_etIllegal ..
  · dsimp only
    split
    · next hc => exact memWf_of_checks hc
    · exact h
    · exact memWf_wait

theorem memWf_execScan (d a p : BitVec 6) : Out.memWf (execScan d a p s) := by
  refine memWf_runWord h (memWf_asCourse fun k str c => ?_)
  split
  · exact memWf_etIllegal ..
  · dsimp only
    split
    · next hc => exact memWf_of_checks hc
    · exact h
    · exact memWf_wait

theorem memWf_execMbwVector (d : BitVec 6) (k : BitVec 4) : Out.memWf (execMbwVector d k s) := by
  refine memWf_runWord h ?_
  split
  · exact memWf_asStream fun t x => memWf_mbw h ..
  · refine memWf_asCourse fun key str c => ?_
    dsimp only
    split
    · exact h
    · exact memWf_orElse (fun e he => memWf_of_checks he) (memWf_mbwRelease h ..)

theorem memWf_execMbrVector (d : BitVec 6) (p : BitVec 1) (k : BitVec 4) : Out.memWf (execMbrVector d p k s) := by
  refine memWf_runWord h ?_
  split
  · exact memWf_asStream fun t x => memWf_mbr h fun t w ht => by simp [ht]
  · refine memWf_asCourse fun key str c => memWf_orElse (fun e he => memWf_of_checks he) ?_
    split
    · exact h
    · refine memWf_mbr h fun t w ht => ?_
      split
      · exact ht
      · exact memWf_foldl (fun u l hu => by simpa using hu) _ (by simpa using ht)

theorem memWf_execBrc (n : BitVec 1) (p : BitVec 3) (o : BitVec 20) : Out.memWf (execBrc n p o s) := by
  refine memWf_runWord h (memWf_asCourse fun k str c => ?_)
  split
  · exact memWf_split h ..
  · exact memWf_wait

theorem memWf_execJoin : Out.memWf (execJoin s) := by
  refine memWf_runWord h (memWf_asCourse fun k str c => ?_)
  repeat' split
  all_goals simp [h]

theorem memWf_execJmpi (a : BitVec 6) (l : BitVec 1) : Out.memWf (execJmpi a l s) := by
  refine memWf_runWord h (memWf_groupOp fun sc => memWf_jumpTo ?_ _)
  split <;> simp [h]

theorem memWf_execBar (n : BitVec 5) (t : BitVec 2) (k : BitVec 4) : Out.memWf (execBar n t k s) := by
  refine memWf_runWord h (memWf_asCourse fun key str c => ?_)
  split
  · exact memWf_wait
  · exact memWf_atBarrier h (fun t b => by simp) ..

theorem memWf_execBarx (a : BitVec 6) (t : BitVec 2) (l k : BitVec 3) : Out.memWf (execBarx a t l k s) := by
  refine memWf_runWord h (memWf_groupOp fun sc => memWf_asCourse fun key str c => ?_)
  split
  · exact memWf_wait
  · dsimp only
    split
    · exact memWf_illegalAt ..
    · refine memWf_atBarrier h (fun t b => ?_) ..
      split <;> simp

theorem memWf_execGbara (d a b : BitVec 6) (m : BitVec 2) : Out.memWf (execGbara d a b m s) := by
  refine memWf_runWord h (memWf_groupOp fun sc => memWf_asCourse fun key str c => memWf_genTarget fun g o member win => ?_)
  exact memWf_afterRelease h fun t ht => by simpa using ht

theorem memWf_execGbarw (d a b : BitVec 6) (t : BitVec 3) : Out.memWf (execGbarw d a b t s) := by
  refine memWf_runWord h (memWf_groupOp fun sc => memWf_asCourse fun key str c => ?_)
  extract_lets +onlyGivenNames at' fence
  have hfence (t : State) (v : Nat) (ht : t.memWf) : (fence t v).memWf := memWf_thenFence ht fun u hu => by simp [hu]
  clear_value fence
  split
  · exact hfence _ _ h
  · refine memWf_genTarget fun g o member win => ?_
    split
    · exact memWf_wait
    · split
      · exact memWf_trap ..
      · split
        · exact memWf_wait
        · split
          · exact memWf_trap ..
          · dsimp only
            split
            · exact memWf_wait
            · refine hfence _ _ ?_
              split <;> simp [h]

theorem memWf_execStep (d a : BitVec 6) (x : BitVec 1) : Out.memWf (execStep d a x s) := by
  refine memWf_runWord h (memWf_groupOp fun x => ?_)
  dsimp only
  repeat' split
  all_goals simp [h]

theorem memWf_execStepe (d a : BitVec 6) : Out.memWf (execStepe d a s) := by
  refine memWf_runWord h (memWf_groupOp fun x => ?_)
  repeat' split
  all_goals simp [h]

theorem memWf_execCarve (k : BitVec 3) (n : BitVec 5) (m : BitVec 6) : Out.memWf (execCarve k n m s) := by
  refine memWf_runWord h (memWf_asCourse fun key str c => ?_)
  dsimp only
  split
  · exact memWf_wait
  · split
    · simp [h]
    · split
      · exact memWf_wait
      · refine memWf_afterRelease h fun t ht => ?_
        repeat' split
        all_goals simp [ht]

theorem memWf_execAtoms (d a b : BitVec 6) (p : BitVec 3) : Out.memWf (execAtoms d a b p s) := by
  refine memWf_runWord h (memWf_memVec fun k str c act => ?_)
  split
  · exact memWf_trap ..
  · exact memWf_spadOp h ..

theorem memWf_execPref (t : BitVec 2) (a : BitVec 6) (i : BitVec 12) : Out.memWf (execPref t a i s) := by
  refine memWf_runWord h (memWf_memVec fun k str c act => ?_)
  split
  · exact memWf_wait
  · refine memWf_foldl (fun u l hu => ?_) _ h
    repeat' split
    all_goals simp [hu]

theorem memWf_execCctl (p : BitVec 2) (a : BitVec 6) (i : BitVec 12) : Out.memWf (execCctl p a i s) := by
  refine memWf_runWord h (memWf_memVec fun k str c act => ?_)
  dsimp only
  split
  · exact memWf_resumeEntering h ..
  · exact memWf_wait
  · split
    · simp [h]
    · split
      · exact memWf_lanesOp h (fun t u hits ht hp => memWf_enterStores_inl ht hp) (fun t hits f hp => memWf_enterStores_inr hp h)
      · refine memWf_lanesOp h (fun t u hits ht hp => ?_) (fun t hits f hp => ?_)
        · split at hp
          · cases hp
          · obtain rfl := Sum.inl.inj hp
            simpa using ht
        · split at hp
          · obtain rfl := Sum.inr.inj hp
            simpa using h
          · cases hp

theorem memWf_execMgo (d a : BitVec 6) : Out.memWf (execMgo d a s) := by
  refine memWf_runWord h (memWf_groupOp fun sc => memWf_asCourse fun key str c => ?_)
  split
  · exact memWf_wait
  · dsimp only
    split
    · exact memWf_trap ..
    · split
      · exact memWf_wait
      · exact h

theorem memWf_execMwait (d a : BitVec 6) (t : BitVec 3) : Out.memWf (execMwait d a t s) := by
  refine memWf_runWord h (memWf_groupOp fun sc => memWf_asCourse fun key str c => ?_)
  split
  · exact memWf_wait
  · dsimp only
    have hfence (v : Nat) : (s.thenFence t.toNat v fun s => .done (s.gdst false d.toNat v)).memWf := memWf_thenFence h fun u hu => by simp [hu]
    split
    · exact hfence _
    · split
      · exact memWf_trap ..
      · split
        · exact memWf_trap ..
        · split
          · exact hfence _
          · split
            · exact memWf_trap ..
            · split
              · exact memWf_wait
              · exact h

theorem memWf_execMma (d a b : BitVec 6) (t u : BitVec 1) (f : BitVec 4) : Out.memWf (execMma d a b t u f s) := by
  refine memWf_runWord h ?_
  split
  · split
    · split
      · split
        · simp [h]
        · exact memWf_wait
      · split
        · exact memWf_streamFault h ..
        · exact memWf_wait
        · simp [h]
    · exact memWf_wait
  · exact memWf_wait

theorem memWf_execMzero (d : BitVec 6) : Out.memWf (execMzero d s) := by
  refine memWf_runWord h (memWf_asStream fun t x => ?_)
  split
  · split
    · exact memWf_streamFault h ..
    · exact h
  · split
    · exact memWf_streamFault h ..
    · exact h

theorem memWf_execMout (d a b : BitVec 6) (r f : BitVec 3) : Out.memWf (execMout d a b r f s) := by
  refine memWf_runWord h (memWf_asStream fun t x => ?_)
  split
  · exact memWf_streamFault h ..
  · split
    · exact memWf_streamFault h ..
    · split
      · exact memWf_streamFault h ..
      · split
        · simp [h]
        · exact memWf_wait

theorem memWf_execMload (d a : BitVec 6) (f : BitVec 3) : Out.memWf (execMload d a f s) := by
  refine memWf_runWord h (memWf_asStream fun t x => ?_)
  split
  · exact memWf_streamFault h ..
  · split
    · exact memWf_streamFault h ..
    · split
      · simp [h]
      · exact memWf_wait

theorem memWf_execMamax (a b : BitVec 6) : Out.memWf (execMamax a b s) := by
  refine memWf_runWord h (memWf_asStream fun t x => ?_)
  extract_lets va
  clear_value va
  split
  · exact memWf_wait
  · split
    · exact memWf_streamFault h ..
    · split
      · exact memWf_streamFault h ..
      · split
        · exact memWf_streamFault (by simp [h]) ..
        · simp [h]
        · split
          · exact memWf_streamFault h ..
          · split
            · exact memWf_streamFault h ..
            · split
              · exact memWf_wait
              · simp [h]

theorem memWf_execMfence (w : BitVec 1) : Out.memWf (execMfence w s) := by
  refine memWf_runWord h (memWf_asStream fun t x => ?_)
  repeat' split
  all_goals simp [h]

theorem memWf_execMfill (c : BitVec 2) (n : BitVec 6) : Out.memWf (execMfill c n s) := by
  refine memWf_runWord h ?_
  split
  · split
    · split
      · split
        · simp [h]
        · exact memWf_wait
      · simp [h]
    · exact memWf_wait
  · exact memWf_wait

theorem memWf_execMscl (d a b : BitVec 6) (f : BitVec 1) : Out.memWf (execMscl d a b f s) := by
  refine memWf_runWord h (memWf_asStream fun t x => ?_)
  split
  · exact memWf_streamFault h ..
  · split
    · exact memWf_streamFault h ..
    · split
      · simp [h]
      · exact memWf_wait

theorem memWf_execGld (d a : BitVec 6) (i : BitVec 12) : Out.memWf (execGld d a i s) := by
  refine memWf_runWord h (memWf_groupOp fun sc => ?_)
  extract_lets +onlyGivenNames size va
  clear_value size va
  split
  · exact memWf_wait
  · split
    · next ho => exact memWf_oneAccess_res h ho
    · next ho => simpa using memWf_oneAccess_ok h ho

theorem memWf_execGst (d a : BitVec 6) (i : BitVec 12) : Out.memWf (execGst d a i s) := by
  refine memWf_runWord h (memWf_groupOp fun sc => ?_)
  extract_lets +onlyGivenNames size va v ban
  clear_value size va ban
  split
  · split
    · exact memWf_resumeEntering h ..
    · exact memWf_wait
    · split
      · exact memWf_wait
      · split
        · next ho => exact memWf_oneAccess_res h ho
        · next ho =>
          split
          · next he => exact memWf_enterStores_inr he h
          · next he =>
            have h2 := memWf_enterStores_inl (memWf_oneAccess_ok h ho) he
            split <;> exact h2
  · split
    · next ho => exact memWf_oneAccess_res h ho
    · next ho => exact memWf_procGst (memWf_oneAccess_ok h ho) ..

theorem memWf_execMtaga (d a : BitVec 6) (sc : BitVec 2) : Out.memWf (execMtaga d a sc s) := by
  refine memWf_runWord h (memWf_groupOp fun sc => ?_)
  dsimp only
  split
  · exact memWf_illegalAt ..
  · exact memWf_askGroup h ..

theorem memWf_execMtagf (d a b : BitVec 6) : Out.memWf (execMtagf d a b s) := by
  refine memWf_runWord h (memWf_groupOp fun sc => ?_)
  dsimp only
  split
  · exact memWf_illegalAt ..
  · split
    · exact memWf_illegalAt ..
    · exact memWf_askGroup h ..

theorem memWf_execLaunch (d a q : BitVec 6) : Out.memWf (execLaunch d a q s) := by
  unfold execLaunch
  refine memWf_runWord h (memWf_groupOp fun sc => memWf_asKcore fun die => memWf_afterRelease h fun t ht => ?_)
  extract_lets +onlyGivenNames va hbase cnt x fail
  have hfail (r : Nat) : (fail r).memWf := memWf_trap ..
  clear_value fail va cnt hbase x
  split
  · split
    · exact memWf_takeTrap _ _ _ _ (by simpa using ht)
    · exact hfail _
  · split
    · exact hfail _
    · split
      · simp [ht]
      · split
        · simp [ht]
        · simp [ht]

theorem memWf_execLqcfg (d a b q : BitVec 6) : Out.memWf (execLqcfg d a b q s) := by
  refine memWf_runWord h (memWf_groupOp fun sc => memWf_asKcore fun die => ?_)
  extract_lets +onlyGivenNames v x
  clear_value v x
  split
  · exact memWf_illegalAt ..
  · split
    · exact memWf_trap ..
    · simp [h]

theorem memWf_execSnapArm (d a b : BitVec 6) : Out.memWf (execSnapArm d a b s) := by
  refine memWf_runWord h (memWf_groupOp fun sc => memWf_asKcore fun die => ?_)
  extract_lets +onlyGivenNames p step status
  have hs (t : State) (n : Nat) (ht : t.memWf) : (status t n).memWf := by simpa [status] using ht
  clear_value status
  split
  · exact hs _ _ h
  · split
    · exact hs _ _ h
    · split
      · exact hs _ _ h
      · exact hs _ _ (memWf_snapStatus _ _ (by simpa using memWf_engineWrite _ _ h))

theorem memWf_execSnapCancel (d a : BitVec 6) : Out.memWf (execSnapCancel d a s) := by
  refine memWf_runWord h (memWf_asKcore fun die => ?_)
  dsimp only
  split
  · simp [h]
  · simpa using memWf_snapFail _ _ h

theorem memWf_execSnapLoad (d a b : BitVec 6) : Out.memWf (execSnapLoad d a b s) := by
  refine memWf_runWord h (memWf_groupOp fun sc => memWf_asKcore fun die => ?_)
  dsimp only
  split
  · simp [h]
  · split <;> simp [h]

theorem memWf_execKeyld (d a b : BitVec 6) (w : BitVec 1) (p : BitVec 2) : Out.memWf (execKeyld d a b w p s) := by
  refine memWf_runWord h (memWf_groupOp fun sc => memWf_asKcore fun die => ?_)
  extract_lets +onlyGivenNames pkg id status set
  have hs (t : State) (n : Nat) (ht : t.memWf) : (status t n).memWf := by simpa [status] using ht
  have hset (t : State) k (ht : t.memWf) : (set t k).memWf := by
    simp only [set]
    split
    · simp [ht]
    · exact hs _ _ (by simpa using ht)
  clear_value set status
  dsimp only
  split
  · exact memWf_trap ..
  · split
    · exact hs _ _ h
    · split
      · split
        · next hk => exact memWf_keyBytes h hk
        · split
          · exact hs _ _ h
          · split
            · exact hs _ _ h
            · exact hset _ _ h
      · exact hset _ _ (by simpa using h)
      · exact hset _ _ h

theorem memWf_execMigrCpy (d a b : BitVec 6) (z : BitVec 2) : Out.memWf (execMigrCpy d a b z s) := by
  refine memWf_runWord h (memWf_groupOp fun sc => memWf_asKcore fun die => ?_)
  dsimp only
  split
  · split
    · exact memWf_wait
    · simp [h]
  · split
    · simp [h]
    · split <;> simp [h]

theorem memWf_execMigrEnd (d a b : BitVec 6) (z : BitVec 2) : Out.memWf (execMigrEnd d a b z s) := by
  refine memWf_runWord h (memWf_groupOp fun sc => memWf_asKcore fun die => ?_)
  dsimp only
  split <;> simp [h]

theorem memWf_execTslot (d a b : BitVec 6) (p : BitVec 2) : Out.memWf (execTslot d a b p s) := by
  refine memWf_runWord h (memWf_groupOp fun sc => ?_)
  extract_lets +onlyGivenNames first n xs team die read
  have hr (t : State) (ht : t.memWf) : (read t).memWf := by simpa [read] using ht
  clear_value read die first n
  split
  · exact memWf_illegalAt ..
  · split
    · exact memWf_illegalAt ..
    · refine memWf_ite (memWf_trap ..) ?_
      split
      · exact hr _ (by simpa using h)
      · exact memWf_ite (memWf_trap ..) (memWf_afterRelease h fun t ht => by simpa using hr _ ht)

theorem memWf_execTlbi (a b : BitVec 6) (sc : BitVec 1) (f : BitVec 2) : Out.memWf (execTlbi a b sc f s) := by
  refine memWf_runWord h (memWf_groupOp fun sc => memWf_afterRelease h fun t ht => memWf_ite (memWf_wait ..) ?_)
  simp [ht]

theorem memWf_execPendBind (a : BitVec 6) : Out.memWf (execPendBind a s) := by
  refine memWf_runWord h (memWf_groupOp fun sc => memWf_asCourse fun k str c => ?_)
  split
  · exact memWf_wait
  · refine memWf_pendRecord h fun t b ht => ?_
    split
    · exact memWf_trap ..
    · split
      · exact memWf_wait
      · split
        · exact memWf_foldl (fun u l hu => by simpa using hu) _ ht
        · rw [memWf_done, memWf_iff, modCourse_mem]
          exact memWf_foldl (fun u l hu => memWf_recordWrite _ _ _ hu) _ (memWf_recordWrite _ _ _ ht)

theorem memWf_execPendImp (a : BitVec 6) : Out.memWf (execPendImp a s) := by
  refine memWf_runWord h (memWf_groupOp fun sc => memWf_asCourse fun k str c => ?_)
  split
  · exact memWf_wait
  · refine memWf_pendRecord h fun t b ht => ?_
    dsimp only
    split
    · exact memWf_trap ..
    · split
      · split
        · simp [ht]
        · simp [ht]
      · simp [ht]

theorem memWf_execCreq (d a b : BitVec 6) : Out.memWf (execCreq d a b s) := by
  refine memWf_runWord h (memWf_groupOp fun sc => memWf_asLintel fun p l => ?_)
  extract_lets +onlyGivenNames w v k c
  clear_value w v k c
  split
  · exact memWf_illegalAt ..
  · split
    · exact memWf_illegalAt ..
    · dsimp only
      split <;> simp [h]

theorem memWf_execCawt (d a b : BitVec 6) (m : BitVec 1) : Out.memWf (execCawt d a b m s) := by
  refine memWf_runWord h (memWf_groupOp fun sc => memWf_asLintel fun p l => ?_)
  dsimp only
  split
  · simp [h]
  · simp [h]
  · exact memWf_wait
  · split <;> simp [h]

theorem memWf_execCuse (d a b : BitVec 6) : Out.memWf (execCuse d a b s) := by
  refine memWf_runWord h (memWf_groupOp fun sc => memWf_asLintel fun p l => ?_)
  extract_lets +onlyGivenNames k va y status
  have hs (t : State) (n : Nat) (ht : t.memWf) : (status t n).memWf := by simpa [status] using ht
  clear_value status
  split
  · exact hs _ _ h
  · split
    · exact hs _ _ h
    · split
      · exact hs _ _ h
      · dsimp only
        split
        · exact hs _ _ h
        · split
          · exact memWf_wait
          · exact hs _ _ (by simpa using h)

theorem memWf_execCrel (d a : BitVec 6) (m : BitVec 1) : Out.memWf (execCrel d a m s) := by
  refine memWf_runWord h (memWf_groupOp fun sc => memWf_asLintel fun p l => ?_)
  extract_lets +onlyGivenNames b x y status
  have hs (t : State) (n : Nat) (ht : t.memWf) : (status t n).memWf := by simpa [status] using ht
  clear_value status
  split
  · refine hs _ _ ?_
    split <;> simp [h]
  · refine hs _ _ ?_
    rw [memWf_iff, mem_freeBar]
    split <;> simp [h]
  · refine hs _ _ ?_
    rw [memWf_iff, mem_freeBar]
    split <;> simp [h]
  · refine hs _ _ ?_
    split <;> simp [h]
  · exact hs _ _ h

theorem memWf_execEpsnd (d a b : BitVec 6) : Out.memWf (execEpsnd d a b s) := by
  refine memWf_runWord h (memWf_groupOp fun sc => memWf_asLintel fun p l => ?_)
  extract_lets +onlyGivenNames w dst ep
  clear_value w dst ep
  split
  · exact memWf_illegalAt ..
  · split
    · dsimp only
      split
      · simp [h]
      · split
        · simp [h]
        · exact memWf_wait
    · split
      · next hr => exact memWf_lintelRead hr
      · simp [h]

theorem memWf_execEprcv (d a b : BitVec 6) : Out.memWf (execEprcv d a b s) := by
  refine memWf_runWord h (memWf_groupOp fun sc => memWf_asLintel fun p l => ?_)
  extract_lets +onlyGivenNames w ep limit
  clear_value w ep limit
  split
  · exact memWf_illegalAt ..
  · split
    · simp [h]
    · split
      · next hr => exact memWf_lintelPlaces hr
      · simpa using memWf_storeMessage _ _ _ (by simpa using h)
    · exact memWf_wait
    · split <;> simp [h]

theorem memWf_execHtune (d a : BitVec 6) (m : BitVec 1) : Out.memWf (execHtune d a m s) := by
  refine memWf_runWord h (memWf_groupOp fun sc => memWf_asLintel fun p l => ?_)
  extract_lets +onlyGivenNames w e
  clear_value w e
  split
  · exact memWf_illegalAt ..
  · simp [h]

/-! ## Events -/

theorem memWf_execLaneValueDelivery (f : Nat) : Out.memWf (execLaneValueDelivery f s) := by
  unfold execLaneValueDelivery; repeat' split
  all_goals simp [h]

theorem memWf_execStoreBufferDrain (c e : Nat) : Out.memWf (execStoreBufferDrain c e s) := by
  unfold execStoreBufferDrain; repeat' split
  all_goals simp [h]

theorem memWf_execHomeWritePerform (p w : Nat) : Out.memWf (execHomeWritePerform p w s) := by
  unfold execHomeWritePerform
  rw [memWf_next]
  split
  · split
    · exact h
    · extract_lets +onlyGivenNames src dst
      clear_value src dst
      split
      · dsimp only
        split
        · exact h
        · split
          · next hr => simpa [mem_of_request hr] using h
          · exact h
      · split
        · simp [h]
        · split
          · simp [h]
          · split
            · exact h
            · dsimp only
              generalize hq : (s.keyLine _ _ _).performWrite _ _ _ _ _ _ _ _ = q
              have hw : q.2.memWf := by
                rw [← hq]
                exact memWf_performWrite _ _ _ _ _ _ _ _ (memWf_keyLine _ _ _ h)
              clear hq
              repeat' split
              all_goals simpa using hw
  · exact h

theorem memWf_execStoreAck (f : Nat) : Out.memWf (execStoreAck f s) := by
  unfold execStoreAck; repeat' split
  all_goals simp [h]

theorem memWf_execAtomicPerform (f : Nat) : Out.memWf (execAtomicPerform f s) := by
  unfold execAtomicPerform
  rw [memWf_next]
  split
  · extract_lets +onlyGivenNames core waits
    have hw (t : State) (ht : waits = some t) : t.memWf := by
      simp only [waits] at ht
      repeat' split at ht
      all_goals cases ht
      all_goals simp [h]
    clear_value waits
    split
    · exact hw _ rfl
    · extract_lets +onlyGivenNames g' src dst
      clear_value g' src dst
      split
      · dsimp only
        split
        · exact h
        · split
          · next hr => simpa [mem_of_request hr] using h
          · exact h
      · split
        · simp [h]
        · split
          · simp [h]
          · split
            · exact h
            · split
              · next hp =>
                split at hp
                · cases hp
                · simpa [mem_of_promoteAtom hp] using h
              · split
                · simp [h]
                · simp [h]
  · exact h

theorem memWf_execFaultRecordWrite (d : Nat) : Out.memWf (execFaultRecordWrite d s) := by
  unfold execFaultRecordWrite
  extract_lets +onlyGivenNames pkg base ctl
  clear_value base ctl
  rw [memWf_next]
  split
  · exact h
  · split
    · exact h
    · extract_lets +onlyGivenNames size ring head room bytes n left put setHead
      have hput (t : State) (a : Nat) (bs : List Byte) (ht : t.memWf) : (put t a bs).memWf :=
        memWf_foldl (fun u i hu => memWf_homeWrite _ _ _ hu) _ ht
      have hhead (t : State) (a : Nat) (ht : t.memWf) : (setHead t a).memWf := by
        simp only [setHead]
        rw [memWf_iff, setReg_mem]
        exact ht
      clear_value setHead put size ring head room bytes n left
      split
      · split
        · rw [memWf_iff, orReg_mem]
          exact h
        · split
          · simp [h]
          · exact hhead _ _ (hput _ _ _ h)
      · split
        · rw [memWf_iff, orReg_mem]
          exact h
        · split
          · simp [h]
          · have hh := hhead _ (head + n) (hput _ head bytes h)
            dsimp only
            repeat' split
            all_goals simp only [memWf_iff, mem_msi, orReg_mem, modDie_mem]; exact hh

theorem memWf_execDeferredCauseTaken (c : Nat) : Out.memWf (execDeferredCauseTaken c s) := by
  unfold execDeferredCauseTaken; split <;> simp [h]

theorem memWf_execCourseFinish (c : Nat) : Out.memWf (execCourseFinish c s) := by
  unfold execCourseFinish; dsimp only; repeat' split
  all_goals simp [h]

theorem memWf_execVersionOverflowCommit (t : Nat) : Out.memWf (execVersionOverflowCommit t s) := by
  unfold execVersionOverflowCommit; repeat' split
  all_goals simp [h]

theorem memWf_execScratchpadLaneComplete (f : Nat) : Out.memWf (execScratchpadLaneComplete f s) := by
  unfold execScratchpadLaneComplete; split <;> simp [h]

theorem memWf_execWindowAccess (f : Nat) : Out.memWf (execWindowAccess f s) := by
  unfold execWindowAccess
  rw [memWf_next]
  split
  · split
    · exact h
    · split
      · rw [memWf_iff, drop_mem]
        exact memWf_foldl (fun u r hu => memWf_laneFails _ _ _ _ _ _ _ _ _ _ hu) _ h
      · simp [h]
  · exact h

theorem memWf_execBarrierWaiterRelease (wide : Bool) (o b : Nat) : Out.memWf (execBarrierWaiterRelease wide o b s) := by
  unfold execBarrierWaiterRelease; repeat' split
  all_goals simp [h]

theorem memWf_execGenBarrierUpdate (f : Nat) : Out.memWf (execGenBarrierUpdate f s) := by
  unfold execGenBarrierUpdate; repeat' split
  all_goals simp [h]

theorem memWf_execCopyChunkWrite (n u : Nat) : Out.memWf (execCopyChunkWrite n u s) := by
  unfold execCopyChunkWrite; split <;> simp [h]

theorem memWf_execCopyComplete (n : Nat) : Out.memWf (execCopyComplete n s) := by
  unfold execCopyComplete; repeat' split
  all_goals simp [h]

theorem memWf_execCpywFillStart (n : Nat) : Out.memWf (execCpywFillStart n s) := by
  unfold execCpywFillStart; split <;> simp [h]

theorem memWf_execCpyxSendStart (n : Nat) : Out.memWf (execCpyxSendStart n s) := by
  unfold execCpyxSendStart; dsimp only; repeat' split
  all_goals simp [h]

theorem memWf_execMmaComplete (t : Nat) : Out.memWf (execMmaComplete t s) := by
  unfold execMmaComplete; repeat' split
  all_goals simp [h]

theorem memWf_execKilnUpdate (d : Nat) : Out.memWf (execKilnUpdate d s) := by
  obtain ⟨u, hu, -, hm, -⟩ := kilnUpdate_ends s d
  have hu : execKilnUpdate d s = .next u := hu
  rw [hu, memWf_next, memWf_iff, hm]
  exact h

theorem memWf_execPmcHeartbeat (p : Nat) (v : Bool) : Out.memWf (execPmcHeartbeat p v s) := by
  unfold execPmcHeartbeat
  rw [memWf_next]
  split <;> simp [mem_setSafe, h]

theorem memWf_execHeartbeatMiss (p : Nat) : Out.memWf (execHeartbeatMiss p s) := by
  simp [execHeartbeatMiss, mem_setSafe, h]

theorem memWf_execImageUpdateAnnounce (p : Nat) : Out.memWf (execImageUpdateAnnounce p s) := by
  simp [execImageUpdateAnnounce, mem_setSafe, h]

theorem memWf_execThermalThrottle (q : Nat) : Out.memWf (execThermalThrottle q s) := by
  rw [execThermalThrottle, memWf_next, memWf_iff, modQuad_mem, mem_therm]
  exact h

theorem memWf_execThermalThrottleRelease (q : Nat) : Out.memWf (execThermalThrottleRelease q s) := by
  rw [execThermalThrottleRelease, memWf_next, memWf_iff, modQuad_mem, mem_therm]
  exact h

theorem memWf_execQuadGate (q : Nat) : Out.memWf (execQuadGate q s) := by
  unfold execQuadGate
  split
  extract_lets ready
  rw [memWf_next]
  split
  · exact h
  · rw [memWf_iff, setReg_mem, mem_foldl _ fun _ _ => modCore_mem ..]
    exact h

theorem memWf_execQuadPowerUp (q : Nat) : Out.memWf (execQuadPowerUp q s) := by
  unfold execQuadPowerUp
  split
  dsimp only
  rw [memWf_next]
  split
  · exact h
  · rw [memWf_iff, setReg_mem]
    exact h

theorem memWf_execFlagApply (p i : Nat) : Out.memWf (execFlagApply p i s) := by
  unfold execFlagApply; dsimp only; repeat' split
  all_goals simp [h]

theorem memWf_execAdmissionDecision (d : Nat) : Out.memWf (execAdmissionDecision d s) := by
  unfold execAdmissionDecision
  rw [memWf_next, memWf_iff, mem_admitOne]
  exact memWf_foldl (fun u k hu => memWf_tryEndTeam _ hu) _ h

theorem memWf_execSaveComplete (t : Nat) : Out.memWf (execSaveComplete t s) := by
  unfold execSaveComplete; split <;> simp [h]

theorem memWf_execPendingDivert (f : Nat) : Out.memWf (execPendingDivert f s) := by
  unfold execPendingDivert; repeat' split
  all_goals simp [h]

theorem memWf_execPendingRedirect (f : Nat) : Out.memWf (execPendingRedirect f s) := by
  unfold execPendingRedirect; repeat' split
  all_goals simp [h]

theorem memWf_execProbeTimer (k n : Nat) : Out.memWf (execProbeTimer k n s) := by
  unfold execProbeTimer; dsimp only; repeat' split
  all_goals simp [h]

theorem memWf_execProbe (d i : Nat) : Out.memWf (execProbe d i s) := by
  unfold execProbe; repeat' split
  all_goals simp [h]

theorem memWf_execUncorrectableError (k n x y : Nat) : Out.memWf (execUncorrectableError k n x y s) := by
  unfold execUncorrectableError; repeat' split
  all_goals simp [h]

theorem memWf_execEccCounterClr (d : Nat) : Out.memWf (execEccCounterClr d s) := by
  rw [execEccCounterClr, memWf_next, memWf_iff, setReg_mem, setReg_mem]
  exact h

theorem memWf_execMortarOperand (m : Nat) : Out.memWf (execMortarOperand m s) := by
  unfold execMortarOperand; repeat' split
  all_goals simp [h]

theorem memWf_execJointCounterAdd (j c : Nat) : Out.memWf (execJointCounterAdd j c s) := by
  unfold execJointCounterAdd
  rw [memWf_next]
  split
  · exact h
  · dsimp only
    split
    · split
      · exact h
      · split <;> simp [h]
    · split
      · split
        · exact h
        · split
          · simp [h]
          · exact memWf_jointChunk _ _ h
      · split
        · exact h
        · split
          · next hr => simpa [mem_of_request hr] using h
          · exact h

theorem memWf_execHalfArrival (m : Nat) : Out.memWf (execHalfArrival m s) := by
  unfold execHalfArrival
  rw [memWf_next]
  split
  · exact h
  · dsimp only
    split
    · split
      · simp [h]
      · split
        · next hr => simpa [mem_of_request hr] using h
        · exact h
    · split <;> simp [h]
    · exact h

theorem memWf_execOrphanTimeout (m : Nat) : Out.memWf (execOrphanTimeout m s) := by
  unfold execOrphanTimeout; split <;> simp [h]

theorem memWf_execKickSlotRead (p i : Nat) : Out.memWf (execKickSlotRead p i s) := by
  unfold execKickSlotRead; split <;> simp [h]

theorem memWf_execKickAppend (p i : Nat) : Out.memWf (execKickAppend p i s) := by
  unfold execKickAppend
  rw [memWf_next]
  split
  · exact h
  · split
    · exact h
    · dsimp only
      split
      · exact h
      · rw [memWf_iff, mem_kickOver, setReg_mem, mem_foldl _ fun _ _ => modDie_mem ..]
        exact h

theorem memWf_execPacketStart (d : Nat) : Out.memWf (execPacketStart d s) := by
  unfold execPacketStart; dsimp only; split <;> simp [h]

theorem memWf_execSnapshotDrainLine (p i : Nat) : Out.memWf (execSnapshotDrainLine p i s) := by
  unfold execSnapshotDrainLine; dsimp only; repeat' split
  all_goals simp [h, memWf_engineWrite, memWf_snapFail]

theorem memWf_execSnapshotDone (p : Nat) : Out.memWf (execSnapshotDone p s) := by
  simp [execSnapshotDone, h, memWf_snapFail]

theorem memWf_execSnapshotLoadComplete (p : Nat) (done : Bool) (image : List (BitVec 8)) (poison : List Nat) :
    Out.memWf (execSnapshotLoadComplete p done image poison s) := by
  unfold execSnapshotLoadComplete
  rw [memWf_next]
  extract_lets +onlyGivenNames sn
  split
  · exact h
  · split
    · simp [h]
    · dsimp only
      rw [memWf_iff, modPkg_mem]
      refine memWf_iff.1 ?_
      split
      · exact memWf_snapStatus _ _ h
      · refine memWf_snapStatus _ _ (memWf_foldl (fun u i hu => ?_) _ h)
        split
        · split
          · simpa using memWf_engineWrite _ _ hu
          · exact memWf_engineWrite _ _ hu
        · exact hu

theorem memWf_execUcieLinkDown (p e : Nat) : Out.memWf (execUcieLinkDown p e s) := by
  unfold execUcieLinkDown
  rw [memWf_next]
  split
  · exact h
  · refine memWf_foldl (fun u i hu => ?_) _ (by simpa using h)
    split <;> simp [hu]

theorem memWf_execMcWatchdogReset (p e : Nat) : Out.memWf (execMcWatchdogReset p e s) := by
  unfold execMcWatchdogReset
  rw [memWf_next]
  split
  · exact h
  · refine memWf_foldl (fun u i hu => ?_) _ (by simpa using h)
    dsimp only
    split <;> simp [hu]

theorem memWf_execMcReturn (p e : Nat) : Out.memWf (execMcReturn p e s) := by
  unfold execMcReturn
  rw [memWf_next]
  split
  · exact h
  · refine memWf_foldl (fun u i hu => ?_) _ ?_
    · dsimp only
      split
      · exact hu
      · split
        · split <;> simp [hu]
        · split <;> simp [hu]
        · exact hu
    · rw [memWf_iff, mem_modEngine]
      exact memWf_foldl (fun u i hu => memWf_holdExpires _ _ hu) _ h

theorem memWf_execChannelLockLoss (p n : Nat) : Out.memWf (execChannelLockLoss p n s) := by
  refine memWf_portEvent h fun x y => ?_
  dsimp only
  split
  · exact h
  · split
    · simp [h]
    · split <;> simp [h]

theorem memWf_execDeskewDone (p n : Nat) : Out.memWf (execDeskewDone p n s) := by
  refine memWf_portEvent h fun x y => ?_
  split
  · exact h
  · split <;> simp [h]

theorem memWf_execAuthSuccess (p n : Nat) : Out.memWf (execAuthSuccess p n s) := by
  refine memWf_portEvent h fun x y => ?_
  split
  · exact h
  · split
    · simp [h]
    · dsimp only
      split
      · simp [h]
      · split <;> simp [h]

theorem memWf_execQuarantineExit (p n : Nat) : Out.memWf (execQuarantineExit p n s) := by
  refine memWf_portEvent h fun x y => ?_
  extract_lets waits
  clear_value waits
  split <;> simp [h]

theorem memWf_execReadRequest (n : Nat) : Out.memWf (execReadRequest n s) := by
  refine memWf_ingress h fun k => ?_
  extract_lets +onlyGivenNames l bytes poi sc t
  clear_value l bytes poi sc t
  split
  · simp [h]
  · extract_lets +onlyGivenNames s1 s2 s3 ln s4 s5
    have h1 : s1.memWf := by simp [s1, h]
    have h2 : s2.memWf := by
      simp only [s2]
      split <;> simpa using h1
    clear_value s1 s2
    have h3 : s3.memWf := by
      simp only [s3]
      repeat' split
      all_goals simpa using h2
    clear_value s3
    have h4 : s4.memWf := by
      simp only [s4]
      split <;> simpa using h3
    clear_value s4
    have h5 : s5.memWf := by
      simp only [s5]
      repeat' split
      all_goals simpa using h4
    simpa using h5

theorem memWf_execPromoteRequest (wall : Bool) (n : Nat) : Out.memWf (execPromoteRequest wall n s) := by
  unfold execPromoteRequest
  rw [memWf_next]
  split
  · refine memWf_ingress h fun k => ?_
    split <;> simp [h]
  · split
    · extract_lets home
      clear_value home
      split
      · exact h
      · split
        · split <;> simp [h]
        · split
          · next hr => simpa [mem_of_request hr] using h
          · exact h
    · exact h

theorem memWf_execPromoteAnswer (wall : Bool) (n : Nat) : Out.memWf (execPromoteAnswer wall n s) := by
  unfold execPromoteAnswer
  rw [memWf_next]
  split
  · refine memWf_ingress h fun k => ?_
    dsimp only
    split <;> simp [h]
  · split
    · dsimp only
      split <;> simp [h]
    · exact h

theorem memWf_execCompressedPacket (p l : Nat) (c tag : BitVec 16) (delta : Word) : Out.memWf (execCompressedPacket p l c tag delta s) := by
  unfold execCompressedPacket; dsimp only; split <;> simp [h]

theorem memWf_execRelayForward (n : Nat) : Out.memWf (execRelayForward n s) := by
  unfold execRelayForward; split <;> simp [h]

theorem memWf_execRouteChange (p j : Nat) : Out.memWf (execRouteChange p j s) := by
  unfold execRouteChange
  extract_lets busy r
  clear_value r
  rw [memWf_next]
  split
  · exact h
  · rw [memWf_iff, setReg_mem]
    exact h

theorem memWf_execWallTimeout (k p n : Nat) : Out.memWf (execWallTimeout k p n s) := by
  unfold execWallTimeout
  rw [memWf_next]
  split
  · split
    · split <;> simp [h]
    · exact h
  · split
    · dsimp only
      split
      · exact h
      · exact memWf_unreachable h fun t r ht => by simp [ht]
    · exact h
  · split
    · dsimp only
      split
      · exact h
      · exact memWf_unreachable h fun t r ht => by simp [ht]
    · split
      · exact h
      · exact memWf_unreachable h fun t r ht => by simp [ht]
    · split
      · split
        · exact h
        · exact memWf_unreachable h fun t r ht => by simp [ht]
      · exact h
    · exact h
  · split
    · split
      · exact h
      · split
        · exact memWf_unreachable h fun t r ht => by simp [ht]
        · exact h
    · exact h

theorem memWf_execFateQuery (q n : Nat) : Out.memWf (execFateQuery q n s) := by
  unfold execFateQuery; repeat' split
  all_goals simp [h]

theorem memWf_execFateAnswer (p w : Nat) : Out.memWf (execFateAnswer p w s) := by
  unfold execFateAnswer; dsimp only; repeat' split
  all_goals simp [h]

theorem memWf_execFateNoAnswer (p n : Nat) : Out.memWf (execFateNoAnswer p n s) := by
  unfold execFateNoAnswer; repeat' split
  all_goals simp [h]

theorem memWf_execScClockResetRequest (c : Nat) : Out.memWf (execScClockResetRequest c s) := by
  unfold execScClockResetRequest
  rw [memWf_next]
  split
  · exact h
  · exact memWf_foldl (fun u i hu => by simpa using hu) _ h

theorem memWf_execScQuiescentReport (p : Nat) : Out.memWf (execScQuiescentReport p s) := by
  unfold execScQuiescentReport
  rw [memWf_next]
  split
  · exact h
  · dsimp only
    split
    · refine memWf_foldl (fun u i hu => ?_) _ ?_
      · rw [memWf_iff, setReg_mem, modPkg_mem]
        exact hu
      · simp [h]
    · simp [h]

theorem memWf_execScriptStart (p : Nat) : Out.memWf (execScriptStart p s) := by
  unfold execScriptStart; dsimp only; repeat' split
  all_goals simp [h]

theorem memWf_execSwitchGrant (p : Nat) : Out.memWf (execSwitchGrant p s) := by
  unfold execSwitchGrant
  rw [memWf_next]
  split
  · exact h
  · refine memWf_fromService h fun t m ht => memWf_serviceAnswer ht fun u b y hu => ?_
    dsimp only
    split <;> simp [hu]

theorem memWf_execSwitchDeny (p : Nat) : Out.memWf (execSwitchDeny p s) := by
  unfold execSwitchDeny
  rw [memWf_next]
  split
  · exact h
  · exact memWf_fromService h fun t m ht => memWf_serviceAnswer ht fun u b y hu => by simp [hu]

theorem memWf_execCircuitChunk (n p c off step : Nat) (poi : Bool) (data : List (BitVec 8)) : Out.memWf (execCircuitChunk n p c off step poi data s) := by
  unfold execCircuitChunk; repeat' split
  all_goals simp [h]

theorem memWf_execCircuitChunkAck (n : Nat) (ok : Bool) : Out.memWf (execCircuitChunkAck n ok s) := by
  unfold execCircuitChunkAck; dsimp only; repeat' split
  all_goals simp [h]

theorem memWf_execPlaneDataFrame (p on n : Nat) (frame : List (BitVec 8)) : Out.memWf (execPlaneDataFrame p on n frame s) := by
  unfold execPlaneDataFrame
  rw [memWf_next]
  split
  · exact h
  · next hf =>
    have hm := mem_of_frameIn hf
    extract_lets u'
    have hu : u'.memWf := by
      simp only [u']
      split <;> simpa [hm] using h
    clear_value u'
    split
    · exact hu
    · dsimp only
      split
      · simpa using hu
      · split
        · simpa using hu
        · simpa using hu

theorem memWf_execPlaneAckFrame (p n : Nat) (frame : List (BitVec 8)) : Out.memWf (execPlaneAckFrame p n frame s) := by
  unfold execPlaneAckFrame
  rw [memWf_next]
  split
  · exact h
  · next hf =>
    have hm := mem_of_frameIn hf
    dsimp only
    split
    · simpa [hm] using h
    · split
      · simpa [hm] using h
      · simpa [hm] using h

theorem memWf_execPlaneOpenFrame (p on n : Nat) (frame : List (BitVec 8)) : Out.memWf (execPlaneOpenFrame p on n frame s) := by
  unfold execPlaneOpenFrame
  rw [memWf_next]
  split
  · exact h
  · next hf =>
    have hm := mem_of_frameIn hf
    extract_lets u'
    have hu : u'.memWf := by
      simp only [u']
      split <;> simpa [hm] using h
    clear_value u'
    split
    · exact hu
    · split <;> simpa using hu

theorem memWf_execPlaneResendTimer (p k : Nat) : Out.memWf (execPlaneResendTimer p k s) := by
  unfold execPlaneResendTimer; dsimp only; repeat' split
  all_goals simp [h]

theorem memWf_execPlaneUnreachable (p k : Nat) : Out.memWf (execPlaneUnreachable p k s) := by
  unfold execPlaneUnreachable; dsimp only; repeat' split
  all_goals simp [h, memWf_snapFail]

theorem memWf_execBarrierPartArrival (level p group bar source : Nat) : Out.memWf (execBarrierPartArrival level p group bar source s) := by
  unfold execBarrierPartArrival; split <;> simp [h]

theorem memWf_execBarrierReleaseMessage (level p group bar : Nat) : Out.memWf (execBarrierReleaseMessage level p group bar s) := by
  unfold execBarrierReleaseMessage; split <;> simp [h]

theorem memWf_execIllegalInstructionWord (w : BitVec 32) : Out.memWf (execIllegalInstructionWord w s) := by
  unfold execIllegalInstructionWord; repeat' split
  all_goals simp [h]

theorem memWf_execMigrationLineCopy (d i : Nat) : Out.memWf (execMigrationLineCopy d i s) := by
  unfold execMigrationLineCopy
  rw [memWf_next]
  split
  · exact h
  · extract_lets +onlyGivenNames a
    clear_value a
    split
    · exact h
    · split
      · simp [h]
      · extract_lets l b bs mat u v
        clear_value mat bs b
        have hu : u.mem = s.mem := (mem_writeBack ..).trans (mem_touch ..)
        have hv : v.mem = u.mem.setBytes b bs := rfl
        clear_value v u
        rw [memWf_iff, modDie_mem, hv, hu]
        exact wf_setBytes _ _ h

theorem memWf_execMoutMloadPerformed (t : Nat) : Out.memWf (execMoutMloadPerformed t s) := by
  unfold execMoutMloadPerformed; repeat' split
  all_goals simp [h]

theorem memWf_execMfillComplete (t : Nat) : Out.memWf (execMfillComplete t s) := by
  unfold execMfillComplete; repeat' split
  all_goals simp [h]

theorem memWf_execGroupReply (f : Nat) : Out.memWf (execGroupReply f s) := by
  unfold execGroupReply; repeat' split
  all_goals simp [h]

/-! ## One turn -/

theorem memWf_exec (i : Instr) : Out.memWf (exec i s) := by
  unfold exec
  cases i
  case iadd | isub | imul | imulh | imin | imax | and | or | xor | andn | shl | shr | sar | rotl | fadd | fsub | fmul | fmin | fmax => exact memWf_bin h ..
  case iabs | popc | clz | brev | addi | andi | ori | xori | shli | shri | mov | fabs | fneg | fclass | frcp | frsq | fsqrt | fex2 | flg2 | fsin
      | fcos | frnd => exact memWf_un h ..
  case imad | fma | fnma => exact memWf_tern h ..
  case gadd | gsub | gmul | gand | gor | gxor | gshl | gshr | gsar | gmin | gmax => exact memWf_gbin h ..
  case mli => exact memWf_runWord h (memWf_mset h ..)
  case bra => exact memWf_runWord h (memWf_branch h ..)
  case bfx | bfi | perm | sel | lea | li | idot4 | fscl | fdot2 => exact memWf_runWord h (memWf_vecOp h ..)
  case cmp | cmpi | pmov | plop | fcmp => exact memWf_runWord h (memWf_predOp h ..)
  case lih => exact memWf_runWord h (memWf_destOp h ..)
  case ld | ldn | ldx | ldacq | ldsc => exact memWf_runWord h (memWf_loadOp h ..)
  case st | stn | stx | strel | stsc | flagw => exact memWf_runWord h (memWf_storeOp h ..)
  case atom | atomar | atomsc | red => exact memWf_runWord h (memWf_atomOp h ..)
  case cpy | cpyt | cpyw | cpyo | cpyr | cpyx | cpyq => exact memWf_runWord h (memWf_copyOp h ..)
  case mjoinVector | mjoinGroup => exact memWf_runWord h (memWf_mjoin h ..)
  case nop | yield | trap | bkpt | rdxwSeq | call | gli => exact memWf_runWord h (by simp [h])
  case mliH | madd | mend => exact memWf_runWord h (memWf_asStream fun _ _ => by simp [h])
  case rdxwWait | rdxwSet | gcmp | gliH | gaddi => exact memWf_runWord h (memWf_groupOp fun _ => by simp [h])
  case getm | vote => exact memWf_runWord h (memWf_asCourse fun _ _ _ => by simp [h])
  case time => exact memWf_runWord h (memWf_asLintel fun _ _ => by simp [h])
  case mbwGroup => exact memWf_runWord h (memWf_groupOp fun sc => memWf_asCourse fun key str c => memWf_mbwRelease h ..)
  case mbrGroup => exact memWf_runWord h (memWf_asCourse fun key str c => memWf_mbr h fun t w ht => by simp [ht])
  case ret => exact memWf_runWord h (memWf_groupOp fun sc => memWf_jumpTo h _)
  case loop => exact memWf_runWord h (memWf_groupOp fun sc => memWf_branch (by simp [h]) ..)
  case balw => exact memWf_runWord h (memWf_asCourse fun k str c => memWf_orElse (fun e he => memWf_of_scalarChecks he) (memWf_branch h ..))
  case lds | sts => exact memWf_runWord h (memWf_memVec fun k str c act => memWf_spadOp h ..)
  case mbar => exact memWf_runWord h (memWf_asStream fun t x => memWf_atBarrier h (fun t b => by simp) ..)
  case mloop => exact memWf_runWord h (memWf_asStream fun t x => memWf_branch (by simpa using h) ..)
  case mjmp => exact memWf_runWord h (memWf_asStream fun t x => memWf_branch h ..)
  case cstat => exact memWf_runWord h (memWf_groupOp fun sc => memWf_asLintel fun p l => by simpa using h)
  case flitAck => exact memWf_portEvent h fun x y => by simpa using h
  case l1LineExpiry | batchRetire | slewStep | powerEstimate | comparatorTrip | comparatorRelease | thermalTrip | monitorSample | monitorClr
      | scratchpadIngressClose =>
    simp [execL1LineExpiry, execBatchRetire, execSlewStep, execPowerEstimate, execComparatorTrip,
      execComparatorRelease, execThermalTrip, execMonitorSample, execMonitorClr, execScratchpadIngressClose, h]
  case faultQueueResume | regionEntryWrite | patrolScrub | kick | keystoneRead | keystoneRelease | keystoneLeaseExpiry | hostMemoryAccess | powerOn
      | pkgrstWrite =>
    simp [execFaultQueueResume, execRegionEntryWrite, execPatrolScrub, execKick, execKeystoneRead,
      execKeystoneRelease, execKeystoneLeaseExpiry, execHostMemoryAccess, execPowerOn, execPkgrstWrite, h]
  case pmcWatchdogReset | portReset | hbmThermalThrottle | hbmThermalRelease | registerWrite | holdExpiry | heaterMarginChange | readReply
      | writePlain | writeRelease =>
    simp [execPmcWatchdogReset, execPortReset, execHbmThermalThrottle, execHbmThermalRelease, execRegisterWrite,
      execHoldExpiry, execHeaterMarginChange, execReadReply, execWritePlain, execWriteRelease, h]
  case writeSc | acknowledgement | atomicRequest | atomicReply | redPacket | flagwPacket | invalidate | invalidateAck | copyChunk | jointWrite =>
    simp [execWriteSc, execAcknowledgement, execAtomicRequest, execAtomicReply, execRedPacket,
      execFlagwPacket, execInvalidate, execInvalidateAck, execCopyChunk, execJointWrite, h]
  case snapshotHeldNotice | streamOpen | scriptRecordAppend | cawtTimeout | circuitReleaseComplete | eprcvTimeout | timeSync | ucieLinkUp
      | weazonPortDown | weazonPortUp =>
    simp [execSnapshotHeldNotice, execStreamOpen, execScriptRecordAppend, execCawtTimeout, execCircuitReleaseComplete,
      execEprcvTimeout, execTimeSync, execUcieLinkUp, execWeazonPortDown, execWeazonPortUp, h]
  case wallLinkRestart | channelRelock | lockAchieved | lockTimeout | trainTimeout | authFailure | authTimeout | errorWindowExceeded =>
    exact memWf_portEvent h fun _ _ => by split <;> simp [h]
  case setm => exact memWf_execSetm h ..
  case exit => exact memWf_execExit h ..
  case exitSaved => exact memWf_execExitSaved h ..
  case gsr => exact memWf_execGsr h ..
  case gsw => exact memWf_execGsw h ..
  case xsr => exact memWf_execXsr h ..
  case xsw => exact memWf_execXsw h ..
  case eret => exact memWf_execEret h ..
  case fence => exact memWf_execFence h ..
  case xfence => exact memWf_execXfence h ..
  case waita => exact memWf_execWaita h ..
  case waitc => exact memWf_execWaitc h ..
  case cvt => exact memWf_execCvt h ..
  case cvtn => exact memWf_execCvtn h ..
  case cvtw => exact memWf_execCvtw h ..
  case shfl => exact memWf_execShfl h ..
  case bcst => exact memWf_execBcst h ..
  case rdx => exact memWf_execRdx h ..
  case scan => exact memWf_execScan h ..
  case mbwVector => exact memWf_execMbwVector h ..
  case mbrVector => exact memWf_execMbrVector h ..
  case brc => exact memWf_execBrc h ..
  case join => exact memWf_execJoin h ..
  case jmpi => exact memWf_execJmpi h ..
  case bar => exact memWf_execBar h ..
  case barx => exact memWf_execBarx h ..
  case gbara => exact memWf_execGbara h ..
  case gbarw => exact memWf_execGbarw h ..
  case step => exact memWf_execStep h ..
  case stepe => exact memWf_execStepe h ..
  case carve => exact memWf_execCarve h ..
  case atoms => exact memWf_execAtoms h ..
  case pref => exact memWf_execPref h ..
  case cctl => exact memWf_execCctl h ..
  case mgo => exact memWf_execMgo h ..
  case mwait => exact memWf_execMwait h ..
  case mma => exact memWf_execMma h ..
  case mzero => exact memWf_execMzero h ..
  case mout => exact memWf_execMout h ..
  case mload => exact memWf_execMload h ..
  case mamax => exact memWf_execMamax h ..
  case mfence => exact memWf_execMfence h ..
  case mfill => exact memWf_execMfill h ..
  case mscl => exact memWf_execMscl h ..
  case gld => exact memWf_execGld h ..
  case gst => exact memWf_execGst h ..
  case mtaga => exact memWf_execMtaga h ..
  case mtagf => exact memWf_execMtagf h ..
  case launch => exact memWf_execLaunch h ..
  case lqcfg => exact memWf_execLqcfg h ..
  case snapArm => exact memWf_execSnapArm h ..
  case snapCancel => exact memWf_execSnapCancel h ..
  case snapLoad => exact memWf_execSnapLoad h ..
  case keyld => exact memWf_execKeyld h ..
  case migrCpy => exact memWf_execMigrCpy h ..
  case migrEnd => exact memWf_execMigrEnd h ..
  case tslot => exact memWf_execTslot h ..
  case tlbi => exact memWf_execTlbi h ..
  case pendBind => exact memWf_execPendBind h ..
  case pendImp => exact memWf_execPendImp h ..
  case creq => exact memWf_execCreq h ..
  case cawt => exact memWf_execCawt h ..
  case cuse => exact memWf_execCuse h ..
  case crel => exact memWf_execCrel h ..
  case epsnd => exact memWf_execEpsnd h ..
  case eprcv => exact memWf_execEprcv h ..
  case htune => exact memWf_execHtune h ..
  case laneValueDelivery => exact memWf_execLaneValueDelivery h ..
  case storeBufferDrain => exact memWf_execStoreBufferDrain h ..
  case homeWritePerform => exact memWf_execHomeWritePerform h ..
  case storeAck => exact memWf_execStoreAck h ..
  case atomicPerform => exact memWf_execAtomicPerform h ..
  case faultRecordWrite => exact memWf_execFaultRecordWrite h ..
  case deferredCauseTaken => exact memWf_execDeferredCauseTaken h ..
  case courseFinish => exact memWf_execCourseFinish h ..
  case versionOverflowCommit => exact memWf_execVersionOverflowCommit h ..
  case scratchpadLaneComplete => exact memWf_execScratchpadLaneComplete h ..
  case windowAccess => exact memWf_execWindowAccess h ..
  case barrierWaiterRelease => exact memWf_execBarrierWaiterRelease h ..
  case genBarrierUpdate => exact memWf_execGenBarrierUpdate h ..
  case copyChunkWrite => exact memWf_execCopyChunkWrite h ..
  case copyComplete => exact memWf_execCopyComplete h ..
  case cpywFillStart => exact memWf_execCpywFillStart h ..
  case cpyxSendStart => exact memWf_execCpyxSendStart h ..
  case mmaComplete => exact memWf_execMmaComplete h ..
  case kilnUpdate => exact memWf_execKilnUpdate h ..
  case pmcHeartbeat => exact memWf_execPmcHeartbeat h ..
  case heartbeatMiss => exact memWf_execHeartbeatMiss h ..
  case imageUpdateAnnounce => exact memWf_execImageUpdateAnnounce h ..
  case thermalThrottle => exact memWf_execThermalThrottle h ..
  case thermalThrottleRelease => exact memWf_execThermalThrottleRelease h ..
  case quadGate => exact memWf_execQuadGate h ..
  case quadPowerUp => exact memWf_execQuadPowerUp h ..
  case flagApply => exact memWf_execFlagApply h ..
  case admissionDecision => exact memWf_execAdmissionDecision h ..
  case saveComplete => exact memWf_execSaveComplete h ..
  case pendingDivert => exact memWf_execPendingDivert h ..
  case pendingRedirect => exact memWf_execPendingRedirect h ..
  case probeTimer => exact memWf_execProbeTimer h ..
  case probe => exact memWf_execProbe h ..
  case uncorrectableError => exact memWf_execUncorrectableError h ..
  case eccCounterClr => exact memWf_execEccCounterClr h ..
  case mortarOperand => exact memWf_execMortarOperand h ..
  case jointCounterAdd => exact memWf_execJointCounterAdd h ..
  case halfArrival => exact memWf_execHalfArrival h ..
  case orphanTimeout => exact memWf_execOrphanTimeout h ..
  case kickSlotRead => exact memWf_execKickSlotRead h ..
  case kickAppend => exact memWf_execKickAppend h ..
  case packetStart => exact memWf_execPacketStart h ..
  case snapshotDrainLine => exact memWf_execSnapshotDrainLine h ..
  case snapshotDone => exact memWf_execSnapshotDone h ..
  case snapshotLoadComplete => exact memWf_execSnapshotLoadComplete h ..
  case ucieLinkDown => exact memWf_execUcieLinkDown h ..
  case mcWatchdogReset => exact memWf_execMcWatchdogReset h ..
  case mcReturn => exact memWf_execMcReturn h ..
  case channelLockLoss => exact memWf_execChannelLockLoss h ..
  case deskewDone => exact memWf_execDeskewDone h ..
  case authSuccess => exact memWf_execAuthSuccess h ..
  case quarantineExit => exact memWf_execQuarantineExit h ..
  case readRequest => exact memWf_execReadRequest h ..
  case promoteRequest => exact memWf_execPromoteRequest h ..
  case promoteAnswer => exact memWf_execPromoteAnswer h ..
  case compressedPacket => exact memWf_execCompressedPacket h ..
  case relayForward => exact memWf_execRelayForward h ..
  case routeChange => exact memWf_execRouteChange h ..
  case wallTimeout => exact memWf_execWallTimeout h ..
  case fateQuery => exact memWf_execFateQuery h ..
  case fateAnswer => exact memWf_execFateAnswer h ..
  case fateNoAnswer => exact memWf_execFateNoAnswer h ..
  case scClockResetRequest => exact memWf_execScClockResetRequest h ..
  case scQuiescentReport => exact memWf_execScQuiescentReport h ..
  case scriptStart => exact memWf_execScriptStart h ..
  case switchGrant => exact memWf_execSwitchGrant h ..
  case switchDeny => exact memWf_execSwitchDeny h ..
  case circuitChunk => exact memWf_execCircuitChunk h ..
  case circuitChunkAck => exact memWf_execCircuitChunkAck h ..
  case planeDataFrame => exact memWf_execPlaneDataFrame h ..
  case planeAckFrame => exact memWf_execPlaneAckFrame h ..
  case planeOpenFrame => exact memWf_execPlaneOpenFrame h ..
  case planeResendTimer => exact memWf_execPlaneResendTimer h ..
  case planeUnreachable => exact memWf_execPlaneUnreachable h ..
  case barrierPartArrival => exact memWf_execBarrierPartArrival h ..
  case barrierReleaseMessage => exact memWf_execBarrierReleaseMessage h ..
  case illegalInstructionWord => exact memWf_execIllegalInstructionWord h ..
  case migrationLineCopy => exact memWf_execMigrationLineCopy h ..
  case moutMloadPerformed => exact memWf_execMoutMloadPerformed h ..
  case mfillComplete => exact memWf_execMfillComplete h ..
  case groupReply => exact memWf_execGroupReply h ..

theorem memWf_runFetched (w : Word) : Out.memWf (s.runFetched w) := by
  unfold State.runFetched
  split
  · exact memWf_exec h _
  · exact memWf_execIllegalInstructionWord h _

theorem memWf_issueWord (a : Agent) (w : Word) : Out.memWf (s.issueWord a w) := by
  unfold State.issueWord
  have hr := memWf_runFetched (s := s.seenBy a) (by simpa using h) w
  split
  · next ho =>
    rw [ho] at hr
    rw [memWf_next, memWf_iff, mem_settled]
    exact hr
  · exact hr

theorem memWf_issue (a : Agent) : Out.memWf (s.issue a) := by
  unfold State.issue
  extract_lets s'
  have h' : s'.memWf := h
  clear_value s'
  split
  · exact h'
  · split
    · exact memWf_execDeferredCauseTaken h' _
    · split
      · simp [h']
      · split
        · simp [h']
        · split
          · exact h'
          · split
            · exact memWf_issueWord h' ..
            · simp [h']
            · simp [h']

theorem memWf_issueAlone (a : Agent) : Out.memWf (s.issueAlone a) := by
  unfold State.issueAlone
  have hi := memWf_issue h a
  split
  · next ho =>
    rw [ho] at hi
    simpa using hi
  · exact hi

theorem memWf_issuePair (k : Nat) : Out.memWf (s.issuePair k) := by
  unfold State.issuePair
  have hi := memWf_issueAlone h (.course k false)
  extract_lets w
  clear_value w
  split
  · next ho =>
    rw [ho] at hi
    exact hi
  · exact hi

theorem memWf_turn (t : Turn) : Out.memWf (s.turn t) := by
  unfold State.turn
  split
  · exact memWf_issueAlone h _
  · exact memWf_issuePair h _
  · split
    · exact memWf_exec h _
    · exact h
  · simp [h]

end

theorem memWf_nextTurn {s : State} (h : s.memWf) : s.nextTurn.2.memWf := by
  unfold State.nextTurn
  split <;> exact h

/-- Settles O7: `State.rawWrite`, `State.tagLine`, `State.resetPkg` and a migrated line alone build a new memory, each with
`Memory.setByte` or `Memory.setBytes`, and those keep the form. -/
theorem stepKeepsMemoryCanonical : Obligations.StepKeepsMemoryCanonical := by
  intro s t h ht
  have hstep : Out.memWf (step s) := memWf_turn (memWf_nextTurn h) _
  rw [ht] at hstep
  exact hstep

end Sys2Proof.Machine

/-! # A lane of an SC write outside its packet's bytes (R263, R323)

`Performs` asks that the lines of a packet's payload hold no device register, and nothing binds a lane of the packet to that
payload. The one lane of an SC write is performed as a packet of its own: where it lies in a device register, the write goes to
the register and memory keeps its byte. -/

namespace Sys2Proof.Machine

open Sys2Proof Sys2Proof.Spec

/-- A lane with one byte, 64 bytes past the address of its packet. -/
def lanePastPacket : SbPart := { lane := 0, off := 64, bytes := [1#8], flag := none }

/-- An SC write of package 1 to the last 64 bytes of HBM in package 0, below its device registers. -/
def belowRegisters : Packet :=
  { Packet.blank 0x05 0 1 with
    addr := regLo - 64, payload := List.replicate 64 0#8, mask := List.replicate 64 false, lanes := [lanePastPacket] }

/-- After reset, that packet has come to package 0. -/
def writeBelowRegisters : State := { State.reset with packets := [(0, belowRegisters)] }

theorem performs_belowRegisters : Performs writeBelowRegisters 0 0x05 belowRegisters :=
  ⟨⟨rfl, rfl, by decide, rfl⟩, rfl, by decide, rfl, rfl, fun _ _ _ h => (by cases h), by decide⟩

/-- The memory that an answer leaves, none where it leaves no state. -/
def Out.memLeft : Out → Option Memory
  | .next u => some u.mem
  | .fault _ | .refused _ => none

/-- The model performs the lane in the register: no byte of memory is listed afterwards. -/
theorem writeSc_belowRegisters_mem : Out.memLeft (exec (.writeSc 0) writeBelowRegisters) = some [] := by decide

/-- The clause would list the lane's byte. -/
theorem setMasked_lanePastPacket :
    writeBelowRegisters.mem.setMasked (belowRegisters.addr + lanePastPacket.off) (lanePastPacket.bytes.map some) ≠ [] := by decide

/-- Refutes O58: the second clause of `WritesCrossTheWall` has the lane's byte in memory, and this lane's byte goes to a device
register. -/
theorem not_wallPacketsComplete : ¬ Obligations.WallPacketsComplete := by
  rintro ⟨-, ⟨-, hlanes, -⟩, -⟩
  obtain ⟨u, hexec, hmem, -⟩ := hlanes writeBelowRegisters 0 belowRegisters lanePastPacket [] performs_belowRegisters rfl
    ⟨rfl, by decide⟩ (.inl (by decide)) rfl (by decide)
  have hleft := writeSc_belowRegisters_mem
  rw [hexec, Out.memLeft, hmem] at hleft
  exact setMasked_lanePastPacket (Option.some.inj hleft)

end Sys2Proof.Machine

/-! # The machine after reset (R376, R384) -/

namespace Sys2Proof.Machine

open Sys2Proof Sys2Proof.Spec

/-- After reset every package is in bring-up and no agent has a program. -/
theorem mayIssue_reset (a : Agent) : State.reset.mayIssue a = false := by
  cases a with
  | course k str => rfl
  | seq h => rfl
  | kcore d => rfl
  | lintel p => rfl

/-- Settles O8: nothing is listed after reset, so every part of the machine is as its initial value says. -/
theorem resetLeavesTheMachineIdle : Obligations.ResetLeavesTheMachineIdle :=
  ⟨memWf_reset, rfl, rfl, rfl, rfl, rfl, rfl, rfl, mayIssue_reset, fun _ => ⟨rfl, rfl⟩, fun _ _ => rfl, fun _ _ => rfl, rfl⟩

end Sys2Proof.Machine

/-! # Resets of a package and of a port (R384, R385) -/

namespace Sys2Proof.Machine

open Sys2Proof Sys2Proof.Spec

/-! ## What a package reset leaves, field by field -/

/-- Whether a reset of package p takes team h: it is the package's, or there is none. -/
def State.teamReset (s : State) (p h : Nat) : Bool :=
  match s.team? h with | some x => decide (pkgOfCore x.core = p) | none => true

/-- The lines that a reset of package p finds dirty in its LLC slices. -/
def State.linesLost (s : State) (p : Nat) : List (Nat × List Byte × Nat) :=
  s.dirty.filter fun (kb : Nat × List Byte × Nat) => decide (128 * kb.1 / 2 ^ 48 = p) && Config.lineStays s.fresh kb.1

/-- The package after a reset that draws its key 0 under a stamp: its credits are CRED's, and its time goes on. -/
def Pkg.afterReset (cred now stamp : Nat) : Pkg :=
  { Pkg.init with
    credTotal := cred, time := now, slewAt := now, ports := (List.range 48).map fun n => (n, { Port.init with since := now })
    keys := [(0, ⟨true, false, 2 * stamp + 1⟩)] }

/-- HBM's own key material is again that of a line whose LLC copy a reset loses (R342, R384). -/
def State.materialBack (s : State) (kb : Nat × List Byte × Nat) : State := s.setLine (128 * kb.1) { s.line (128 * kb.1) with mat := kb.2.2 }

section
variable (s : State) (p cause : Nat)

theorem teams_resetPkg : (s.resetPkg p cause).teams = s.teams.filter fun kt => !s.teamReset p kt.1 :=
  foldl_keeps State.materialBack State.teams (fun _ _ => rfl) (s.linesLost p) _

theorem courses_resetPkg : (s.resetPkg p cause).courses = s.courses.filter fun kc => !s.teamReset p (kc.1 / 16) :=
  foldl_keeps State.materialBack State.courses (fun _ _ => rfl) (s.linesLost p) _

theorem mem_resetPkg : (s.resetPkg p cause).mem = (s.linesLost p).foldl (fun m kb => m.setBytes (128 * kb.1) (kb.2.1.take 128)) s.mem :=
  foldl_keeps State.materialBack State.mem (fun _ _ => rfl) (s.linesLost p) _

theorem dies_resetPkg : (s.resetPkg p cause).dies = s.dies.filter fun kd => decide (kd.1 / 8 ≠ p) :=
  foldl_keeps State.materialBack State.dies (fun _ _ => rfl) (s.linesLost p) _

theorem pkgs_resetPkg : (s.resetPkg p cause).pkgs = SMap.put s.pkgs p (Pkg.afterReset (s.reg p (wallBase + 4)) (s.pkg p).time s.fresh) :=
  foldl_keeps State.materialBack State.pkgs (fun _ _ => rfl) (s.linesLost p) _

/-- RCAUSE is the last word that a reset writes. -/
theorem resetPkg_names_cause : ∃ u : State, u.dev = s.dev.filter (fun kw => decide (kw.1 / 2 ^ 48 ≠ p)) ∧
    s.resetPkg p cause = u.setReg p (pkgBase + 0x14) cause :=
  ⟨_, foldl_keeps State.materialBack State.dev (fun _ _ => rfl) (s.linesLost p) _, rfl⟩

/-! ## What R384 lists of a reset -/

theorem team_resetPkg {h : Nat} {t : Team} (ht : (s.resetPkg p cause).team? h = some t) :
    s.team? h = some t ∧ pkgOfCore t.core ≠ p := by
  rw [State.team?, teams_resetPkg] at ht
  cases hg : s.teamReset p h with
  | true => rw [find_filter_key_none _ (fun n => !s.teamReset p n) (by simp [hg])] at ht; exact nomatch ht
  | false =>
    rw [find_filter_key _ (fun n => !s.teamReset p n) (by simp [hg])] at ht
    refine ⟨ht, ?_⟩
    rw [State.teamReset, State.team?, ht] at hg
    exact of_decide_eq_false hg

theorem course_resetPkg_has_team {k : Nat} {c : Course} (hc : (s.resetPkg p cause).course? k = some c) :
    ∃ t, (s.resetPkg p cause).team? (k / 16) = some t := by
  rw [State.course?, courses_resetPkg] at hc
  cases hg : s.teamReset p (k / 16) with
  | true => rw [find_filter_key_none _ (fun n => !s.teamReset p (n / 16)) (by simp [hg])] at hc; exact nomatch hc
  | false =>
    cases ht : s.team? (k / 16) with
    | none => rw [State.teamReset, ht] at hg; exact nomatch hg
    | some t =>
      refine ⟨t, ?_⟩
      rw [State.team?, teams_resetPkg, find_filter_key _ (fun n => !s.teamReset p n) (by simp [hg])]
      exact ht

theorem reg_lt {o : Nat} (ho : (regInfo o).reset < 2 ^ 32) : s.reg p o < 2 ^ 32 := by
  unfold State.reg
  split
  · exact BitVec.isLt _
  · exact ho

theorem rcause_resetPkg (hs : RegsInOrder s) (hc : cause < 2 ^ 32) : (s.resetPkg p cause).reg p (pkgBase + 0x14) = cause := by
  obtain ⟨u, hu, he⟩ := resetPkg_names_cause s p cause
  have hu : RegsInOrder u := by rw [RegsInOrder, hu]; exact sorted_filter _ hs
  have hmod := reg_setReg_same hu p (pkgBase + 0x14) cause
  rwa [← he, Nat.mod_eq_of_lt hc, Nat.mod_eq_of_lt (reg_lt _ _ (by decide))] at hmod

/-- Bytes stored in lines of package p leave the other packages' bytes alone. -/
theorem byte_setLines_other {p a : Nat} (ha : a / 2 ^ 48 ≠ p) (ls : List (Nat × List Byte × Nat))
    (hl : ∀ kb ∈ ls, 128 * kb.1 / 2 ^ 48 = p) (m : Memory) :
    (ls.foldl (fun m kb => m.setBytes (128 * kb.1) (kb.2.1.take 128)) m).byte a = m.byte a := by
  induction ls generalizing m with
  | nil => rfl
  | cons kb ls ih =>
    obtain ⟨hkb, hls⟩ := List.forall_mem_cons.1 hl
    have hlen : (kb.2.1.take 128).length ≤ 128 := List.length_take_le ..
    rw [List.foldl_cons, ih hls, byte_setBytes_other _ _ (by omega)]

theorem byte_resetPkg {a : Nat} (ha : a / 2 ^ 48 ≠ p) : (s.resetPkg p cause).mem.byte a = s.mem.byte a := by
  rw [mem_resetPkg]
  refine byte_setLines_other ha _ (fun kb hkb => ?_) s.mem
  exact of_decide_eq_true (Bool.and_eq_true_iff.1 (List.mem_filter.1 hkb).2).1

theorem die_resetPkg {d : Nat} (hd : d / 8 ≠ p) : (s.resetPkg p cause).die d = s.die d := by
  rw [State.die, SMap.getD, dies_resetPkg, find_filter_key _ (fun n => decide (n / 8 ≠ p)) (decide_eq_true hd)]
  rfl

theorem pkg_resetPkg_other {q : Nat} (hq : q ≠ p) : (s.resetPkg p cause).pkg q = s.pkg q := by
  rw [State.pkg, pkgs_resetPkg, getD_put_other _ _ _ hq]; rfl

theorem pkg_resetPkg_same : (s.resetPkg p cause).pkg p = Pkg.afterReset (s.reg p (wallBase + 4)) (s.pkg p).time s.fresh := by
  rw [State.pkg, pkgs_resetPkg, getD_put_same]

/-- R384: a reset of package p leaves what R384 lists, RCAUSE naming it. -/
theorem pkgReset_resetPkg (hc : cause < 2 ^ 32) : PkgReset s (s.resetPkg p cause) p cause := by
  refine ⟨fun _ _ ht => (team_resetPkg s p cause ht).2, fun _ _ => course_resetPkg_has_team s p cause,
    fun hs => rcause_resetPkg s p cause hs hc, fun _ => byte_resetPkg s p cause, fun _ => pkg_resetPkg_other s p cause,
    fun _ => die_resetPkg s p cause, ?_⟩
  rw [pkg_resetPkg_same]
  exact ⟨rfl, rfl⟩

end

/-- R319: a package that a thermal trip has reset is held besides. -/
theorem pkgReset_held {s u : State} {p cause : Nat} (h : PkgReset s u p cause) :
    PkgReset s (u.modPkg p fun x => { x with held := true }) p cause := by
  obtain ⟨hteams, hcourses, hcause, hmem, hpkgs, hdies, hboot, hcred⟩ := h
  refine ⟨hteams, hcourses, hcause, hmem, fun q hq => (pkg_setPkg_other u _ hq).trans (hpkgs q hq), hdies, ?_⟩
  rw [pkg_modPkg_same]
  exact ⟨hboot, hcred⟩

/-! ## A port's reset (R384) -/

/-- A register word whose entry is not listed holds its reset value. -/
theorem reg_of_unlisted {u : State} {p o : Nat} (h : SMap.find? u.dev (regPa p o) = none) : u.reg p o = (regInfo o).reset := by
  rw [State.reg, h]

theorem portReset_clears_block (s : State) (p port : Nat) (hport : port < 2) : ∃ u, exec (.portReset p port) s = .next u ∧
    (∀ k ∈ (u.pkg p).kicks, k.port ≠ port) ∧ (u.pkg p).keyOwner ≠ some port ∧
    (∀ o, o < 0x1000 → u.reg p (portBase port + o) = (regInfo (portBase port + o)).reset) ∧ u.mem = s.mem ∧ u.courses = s.courses := by
  refine ⟨_, congrArg Host.Outcome.next (if_neg (by omega)), ?_, ?_, fun o ho => reg_of_unlisted ?_, rfl, rfl⟩
  · rw [pkg_modPkg_same]
    exact fun k hk => of_decide_eq_true (List.mem_filter.1 hk).2
  · rw [pkg_modPkg_same]
    dsimp only
    split
    · nofun
    · assumption
  · refine find_filter_key_none _ (fun a => !(decide (regPa p (portBase port) ≤ a) && decide (a < regPa p (portBase port) + 0x1000))) ?_
    have hlo : regPa p (portBase port) ≤ regPa p (portBase port + o) := by simp only [regPa]; omega
    have hhi : regPa p (portBase port + o) < regPa p (portBase port) + 0x1000 := by simp only [regPa]; omega
    rw [decide_eq_true hlo, decide_eq_true hhi]
    rfl

/-- Settles O56, from what a reset leaves of each field of the state. -/
theorem resetEventsComplete : Obligations.ResetEventsComplete := by
  refine ⟨fun s p => ⟨_, _, _, _, rfl, rfl, rfl, rfl, ?_, ?_, ?_, pkgReset_held ?_, ?_⟩, portReset_clears_block⟩
  case refine_5 => rw [pkg_modPkg_same]
  all_goals exact pkgReset_resetPkg s p _ (by decide)

end Sys2Proof.Machine

/-! # A processor's trap whose die is listed out of order (R337, R348) -/

namespace Sys2Proof.Machine

open Sys2Proof Sys2Proof.Spec

/-- TRAP 5 of a control core. -/
abbrev procTrapInstr : Instr := .trap 5#18
abbrev procTrapWord : Word := (encode procTrapInstr).getD 0#32

/-- A control core that runs, outside its handler. -/
def trappingProc : Proc := { Proc.init with pc := 0x10000#64, running := true }

/-- Die 5 listed before die 0, whose control core executes: the line of its leaf table has moved, away and back. -/
def tableMoved : State :=
  { State.reset.place 0xE5000000#32 with
    agenda := [], cur := .kcore 0,
    dies := [(5, { Die.init with migrations := [lineMoved 0x201000 0x202000] }),
      (0, { Die.init with tlb := [], migrations := [lineMoved 0x201000 0x203000, lineMoved 0x202000 0x201000], kcore := trappingProc })] }

/-- Whether the control core of die 0 of package 0 shows HALT after an outcome. -/
def haltShownBy : Out → Bool
  | .next u => (u.reg 0 (distBase 0 + 0x14)).testBit 1
  | _ => false

/-- Both lines of the frame translate. -/
theorem frameLines_tableMoved : tableMoved.frameLine (.kcore 0) 0 = .ok 0 0x1F ∧ tableMoved.frameLine (.kcore 0) 128 = .ok 128 0x1F := by decide +kernel

/-- The trap that stands lists die 0 a second time, before die 5: the walk then finds no table, and the model halts the core. -/
theorem exec_tableMoved : haltShownBy (exec procTrapInstr tableMoved) = true := by decide +kernel

/-- The statement's state after the trap: the frame stored and the handler entered. -/
def handlerEntered : State :=
  let s0 := tableMoved.setProc (.kcore 0) { trappingProc with hold := .free, entry := some (.swTrap, 0, 5) }
  let f := frameBytes trappingProc 0x10000 .swTrap 5 0
  (((s0.frameStore (.kcore 0) 0 0x1F (f.take 128)).frameStore (.kcore 0) 128 0x1F (f.drop 128)).orReg 0 (distBase 0 + 0x14) 1).setProc (.kcore 0)
    { trappingProc with pc := 0#64, frame := 0#64, hold := .free, entry := none }

theorem not_halted_handlerEntered : haltShownBy (.next handlerEntered) = false := by decide +kernel

/-- Refutes O43: with the dies not in key order, the entry that a control core's trap leaves standing is listed before the die's own, so the
migrations apply in another order and the frame no longer translates; the statement takes its lines from the state before. It asks no order of `dies`. -/
theorem not_processorTrapsStoreAFrame : ¬ Obligations.ProcessorTrapsStoreAFrame := by
  rintro ⟨htrap, -, -⟩
  obtain ⟨-, hopen⟩ := htrap tableMoved (.kcore 0) trappingProc procTrapWord 5#18 rfl rfl rfl ⟨rfl, rfl⟩
  obtain ⟨-, -, hstored⟩ := hopen (by decide)
  have hexec : exec procTrapInstr tableMoved = .next handlerEntered :=
    (hstored 0 0x1F 128 0x1F frameLines_tableMoved.1 frameLines_tableMoved.2).1 (by decide) (by decide) (by decide)
  have hhalt := exec_tableMoved
  rw [hexec, not_halted_handlerEntered] at hhalt
  exact nomatch hhalt

end Sys2Proof.Machine

/-! # A circuit chunk into a line that the directory lists twice (R342, R428)

The statement does not ask that the directory lists each line once. Where a line is listed twice, the chunk's write unlists the
first entry, so that the counter's write finds the second, with another key material: the model then writes the whole line
again. No byte that it writes needs to be known: memory is in its canonical form afterwards, and the statement's memory is not. -/

namespace Sys2Proof.Machine

open Sys2Proof Sys2Proof.Spec

/-! ## A line read under another key has bytes -/

/-- A decrypted line has a first byte, whatever the key: seen by evaluating the cipher on bytes that are not known. -/
theorem xtsCrypt_decrypt_cons (material unit : Nat) (line : List Byte) : ∃ b bs, xtsCrypt true material unit line = b :: bs := ⟨_, _, rfl⟩

theorem lineUnder_cons {s : State} {pa mat : Nat} (h : (s.line pa).mat ≠ mat) : ∃ b bs, s.lineUnder pa mat = b :: bs := by
  simp only [State.lineUnder, if_neg h, underKey]
  exact xtsCrypt_decrypt_cons ..

/-! ## A zero byte listed at the start of a line is gone once the line has been written -/

theorem wf_setByte_zeroListed (a : Nat) (b : Byte) : Memory.wf (Memory.setByte [(a, 0#8)] a b) = true := by
  by_cases hb : b = 0#8
  · simp [Memory.setByte, SMap.setD, Memory.blank, hb, SMap.del, Memory.wf, SMap.canon, SMap.sorted]
  · simp [Memory.setByte, SMap.setD, Memory.blank, hb, SMap.put, Memory.wf, SMap.canon, SMap.sorted, SMap.above]

theorem memWf_tagLine_zeroListed {s : State} {pa key : Nat} (hm : s.mem = [(s.forward (128 * lineOf pa), 0#8)])
    (hh : isHbm pa = true) (hk : (s.line pa).mat ≠ s.keyMat pa key) : (s.tagLine pa key).memWf := by
  obtain ⟨b, bs, hbs⟩ := lineUnder_cons hk
  have hmem : (s.tagLine pa key).mem = Memory.setBytes (Memory.setByte s.mem (s.forward (128 * lineOf pa)) b) (s.forward (128 * lineOf pa) + 1) bs := by
    simp [State.tagLine, hh, hk, hbs, State.setLine, Memory.setBytes, mem_touch]
  rw [memWf_iff, hmem, hm]
  exact wf_setBytes _ _ (wf_setByte_zeroListed _ b)

/-! ## What a chunk does -/

/-- A chunk as it is performed: at its place in the receive window of a barrier, under that barrier's key. -/
def Packet.inWindow (k : Packet) (y : CircuitBar) : Packet := { k with addr := y.rxBase + k.addr, key := y.rxKey, stamp := y.rxCtr }

theorem takeChunk_performs {s : State} {k : Packet} {port b : Nat} {y : CircuitBar} (hbar : (s.pkg k.dst).barOf port = some (b, y))
    (hlive : ((s.pkg k.dst).port port).state = .live) (hlent : y.lent = true) (hlen : k.addr + k.payload.length ≤ y.rxLen)
    (hmay : ∀ q ∈ (k.inWindow y).parts, s.hostRefused q.addr q.key = false ∧ s.unshared q.addr = true)
    (hidle : (s.pkg k.dst).snap.state = .idle) : s.takeChunk k port = s.performCircuit (k.inWindow y) := by
  have hlent' : ¬ ((!y.lent) = true ∨ y.rxLen < k.addr + k.payload.length) := by simp [hlent, hlen]
  have hrefused : ¬ ((k.inWindow y).parts.any fun q => s.hostRefused q.addr q.key) = true := by
    simp only [List.any_eq_true, not_exists, not_and]
    exact fun q hq => by simp [(hmay q hq).1]
  have harmed : ¬ ((s.pkg k.dst).snap.state = .armed ∧ s.stepGreater (k.inWindow y) = true) := by simp [hidle]
  have hshared : (k.inWindow y).parts.find? (fun q => !s.unshared q.addr) = none := by
    simp only [List.find?_eq_none]
    exact fun q hq => by simp [(hmay q hq).2]
  unfold State.takeChunk
  simp only [hbar, hlive, ne_eq, not_true_eq_false, if_false]
  rw [if_neg hlent']
  change (if ((k.inWindow y).parts.any fun q => s.hostRefused q.addr q.key) = true then _ else _) = _
  rw [if_neg hrefused]
  change (if (s.pkg k.dst).snap.state = .armed ∧ s.stepGreater (k.inWindow y) = true then _ else _) = _
  rw [if_neg harmed]
  change (match (k.inWindow y).parts.find? (fun q => !s.unshared q.addr) with | some q => _ | none => _) = _
  rw [hshared]
  rfl

/-- A chunk's counter is in canonical form what its line's write under the barrier's key left so. -/
theorem memWf_performCircuit_of_keyLine {s : State} {k : Packet} (hctr : k.stamp ≠ 0)
    (h : (((s.logWrite k).performChunk k).keyLine k.stamp k.key (((s.logWrite k).performChunk k).packetMark { k with addr := k.stamp })).memWf) :
    (s.performCircuit k).memWf := by
  unfold State.performCircuit
  simp only [if_neg hctr, memWf_iff, mem_chunkAnswer]
  exact memWf_performWrite _ _ _ _ _ _ _ _ (memWf_logWrite _ h)

/-! ## The counterexample -/

/-- A chunk without bytes, for port 0. -/
def emptyChunk : CircuitChunk :=
  { pkg := 0, bar := 0, port := 0, copy := 0, pkt := { Packet.blank 0x0F 0 0 with circuit := some (0, 1) }, len := 0, taken := false, reply := none }

/-- The receive window of barrier 0 lies in line 1, as its counter does. -/
def windowBar : CircuitBar := { CircuitBar.init with state := 3, lent := true, rxBase := 160, rxCtr := 136 }

/-- The chunk where it lands. -/
def landing : Packet := emptyChunk.pkt.inWindow windowBar

/-- Key 0 valid, line 1 listed twice, and a zero byte listed at its start. -/
def twiceListed : State :=
  { State.reset.modPkg 0 fun x => { x with
      bars := [(0, windowBar)], keys := [(0, { valid := true, secure := false, mat := 0 })], ports := [(0, { Port.init with state := .live })] } with
    circuitChunks := [(0, emptyChunk)]
    dir := [(1, DirLine.init), (1, { DirLine.init with mat := 2 })]
    mem := [(128, 0#8)] }

theorem parts_landing : landing.parts = [landing] := by decide +kernel

theorem mayLand : twiceListed.hostRefused 160 0 = false ∧ twiceListed.unshared 160 = true ∧ InPlace twiceListed 160 (twiceListed.packetMark landing) ∧
    SameKey twiceListed 160 0 := by
  unfold SameKey
  decide +kernel

/-- The counter lies in place, and its line is under the barrier's key. -/
theorem mayCount : (∀ i, i < 8 → twiceListed.forward (136 + i) = 136 + i) ∧ twiceListed.packetMark { landing with addr := 136 } = none ∧
    SameKey twiceListed 136 0 := by
  unfold SameKey
  decide +kernel

/-- With the chunk's bytes performed, the line is under material 2, and memory is as it was. -/
theorem landed_twiceListed (u : State) (hu : u = (twiceListed.logWrite landing).performChunk landing) :
    (u.line 136).mat = 2 ∧ u.keyMat 136 0 = 0 ∧ u.mem = [(u.forward 128, 0#8)] ∧ u.packetMark { landing with addr := 136 } = none := by
  subst hu
  decide +kernel

theorem memWf_landing : (twiceListed.performCircuit landing).memWf := by
  apply memWf_performCircuit_of_keyLine (by decide +kernel)
  generalize hu : (twiceListed.logWrite landing).performChunk landing = u
  obtain ⟨hmat, hkey, hmem, hmark⟩ := landed_twiceListed u hu.symm
  change (u.keyLine 136 0 (u.packetMark { landing with addr := 136 })).memWf
  rw [hmark]
  change (u.tagLine 136 0).memWf
  exact memWf_tagLine_zeroListed hmem (by decide +kernel) (by rw [hmat, hkey]; decide)

theorem exec_landing : exec (.circuitChunk 0 0 0 0 0 false []) twiceListed = .next (twiceListed.performCircuit landing) := by
  have hlands : twiceListed.takeChunk emptyChunk.pkt 0 = twiceListed.performCircuit landing := by
    apply takeChunk_performs (b := 0) (y := windowBar) (by decide +kernel) (by decide +kernel) rfl (by decide +kernel) _ (by decide +kernel)
    change ∀ q ∈ landing.parts, _
    rw [parts_landing]
    intro q hq
    rw [List.mem_singleton.mp hq]
    exact ⟨mayLand.1, mayLand.2.1⟩
  exact congrArg Host.Outcome.next hlands

/-- Refutes O60: with line 1 listed twice in the directory, an empty chunk's counter finds its line under another key material than the chunk did, and its
line is written again, which unlists the zero byte that the statement's memory still lists. -/
theorem not_mortarPlaneAndCircuitEventsComplete : ¬ Obligations.MortarPlaneAndCircuitEventsComplete := by
  unfold Obligations.MortarPlaneAndCircuitEventsComplete Spec.CircuitEventsComplete
  rintro ⟨-, -, -, -, -, -, -, -, -, hchunk, -⟩
  have hland : ∀ q ∈ landing.parts, twiceListed.hostRefused q.addr q.key = false ∧ twiceListed.unshared q.addr = true ∧
      InPlace twiceListed q.addr (twiceListed.packetMark q) ∧ SameKey twiceListed q.addr q.key := by
    rw [parts_landing]
    intro q hq
    rw [List.mem_singleton.mp hq]
    exact mayLand
  obtain ⟨hplace, hmark, hkey⟩ := mayCount
  obtain ⟨u, hu, -, -, hmem⟩ := hchunk twiceListed 0 emptyChunk 0 0 windowBar 0 rfl rfl rfl rfl rfl (by decide +kernel) (by decide +kernel) rfl
    (by decide +kernel) hland (by decide +kernel) hplace hmark hkey
  have hwf : u.memWf := by
    rw [exec_landing] at hu
    rw [← Host.Outcome.next.inj hu]
    exact memWf_landing
  rw [memWf_iff, hmem] at hwf
  exact absurd hwf (by decide +kernel)

end Sys2Proof.Machine

/-! # Parts of the state that package updates and the plane's traffic leave alone -/

namespace Sys2Proof.Machine

open Sys2Proof Sys2Proof.Spec

variable {γ : Type}

theorem pkg_modPkg_other (s : State) {p q : Nat} (f : Pkg → Pkg) (h : q ≠ p) : (s.modPkg p f).pkg q = s.pkg q := pkg_setPkg_other s _ h

/-- A part of packages that an update leaves alone is as it was in every package. -/
theorem pkgPart_modPkg (g : Pkg → γ) {f : Pkg → Pkg} (hf : ∀ x, g (f x) = g x) (s : State) (p q : Nat) :
    g ((s.modPkg p f).pkg q) = g (s.pkg q) := by
  by_cases h : q = p
  · rw [h, pkg_modPkg_same, hf]
  · rw [pkg_modPkg_other s f h]

@[simp] theorem pkg_countReg (s : State) (p o v q : Nat) : (s.countReg p o v).pkg q = s.pkg q := rfl
@[simp] theorem pkg_setReg (s : State) (p o v q : Nat) : (s.setReg p o v).pkg q = s.pkg q := rfl

/-! ## The plane (R433) -/

/-- A part of the state in which frames have no hand, nor what leaves the wall or the next number. -/
def ApartFromFrames (f : State → γ) : Prop := ∀ (u : State) frames outbox fresh, f { u with frames := frames, outbox := outbox, fresh := fresh } = f u
/-- A part of the state in which the plane's traffic has no hand: neither a package's streams, nor frames. -/
def ApartFromPlane (f : State → γ) : Prop := (∀ u p k y, f (State.setStream u p k y) = f u) ∧ ApartFromFrames f

theorem emit_keeps {f : State → γ} (h : ApartFromFrames f) (s : State) (p port : Nat) (x : PlaneFrame) : f (s.emit p port x) = f s := by
  have hsent : ∀ frames fresh, f { s with frames := frames, fresh := fresh } = f s := fun frames fresh => h s frames s.outbox fresh
  have hleft : ∀ outbox, f { s with outbox := outbox } = f s := fun outbox => h s s.frames outbox s.fresh
  unfold State.emit
  dsimp only
  generalize (if s.weazonUp p port = true then port else 1 - port) = n
  split
  · rfl
  · split
    · split
      · exact hsent ..
      · rfl
    · exact hleft ..

section
variable {f : State → γ} (h : ApartFromPlane f)
include h

theorem pump_keeps (s : State) (p k : Nat) : f (s.pump p k) = f s := by
  unfold State.pump
  dsimp only
  split
  · rw [emit_keeps h.2, h.1]
  · split
    · rfl
    · rw [foldl_keeps _ f fun u _ => emit_keeps h.2 u .., h.1]

theorem planeSend_keeps (s : State) (p dst sep dep : Nat) (bytes : List Byte) : f (s.planeSend p dst sep dep bytes) = f s := by
  unfold State.planeSend
  rw [pump_keeps h, h.1]

theorem tellPeer_keeps (s : State) (p dst ep : Nat) (bytes : List Byte) : f (s.tellPeer p dst ep bytes) = f s := planeSend_keeps h ..
end

/-- A part of packages apart from their streams. -/
theorem apartFromPlane_pkg {g : Pkg → γ} (hg : ∀ (x : Pkg) y, g { x with streams := y } = g x) (q : Nat) : ApartFromPlane fun s => g (s.pkg q) :=
  ⟨fun u p _ _ => pkgPart_modPkg g (fun _ => hg ..) u p q, fun _ _ _ _ => rfl⟩

theorem pkgPart_tellPeer {g : Pkg → γ} (hg : ∀ (x : Pkg) y, g { x with streams := y } = g x) (s : State) (p dst ep q : Nat) (bytes : List Byte) :
    g ((s.tellPeer p dst ep bytes).pkg q) = g (s.pkg q) := tellPeer_keeps (apartFromPlane_pkg hg q) ..

@[simp] theorem courses_tellPeer (s : State) (p dst ep : Nat) (bytes : List Byte) : (s.tellPeer p dst ep bytes).courses = s.courses :=
  tellPeer_keeps ⟨fun _ _ _ _ => rfl, fun _ _ _ _ => rfl⟩ ..
@[simp] theorem packets_tellPeer (s : State) (p dst ep : Nat) (bytes : List Byte) : (s.tellPeer p dst ep bytes).packets = s.packets :=
  tellPeer_keeps ⟨fun _ _ _ _ => rfl, fun _ _ _ _ => rfl⟩ ..

end Sys2Proof.Machine

/-! # Routes, relays, fate queries and clock resets (R410-R416) -/

namespace Sys2Proof.Machine
open Sys2Proof Sys2Proof.Spec

theorem headerFields_append (h : BitVec 128) :
    h.extractLsb' 116 12 ++ h.extractLsb' 64 52 ++ h.extractLsb' 32 32 ++ h.extractLsb' 16 16 ++ h.extractLsb' 0 16 = h := by
  rw [BitVec.extractLsb'_append_extractLsb'_eq_extractLsb' (show 116 = 64 + 52 from rfl), BitVec.extractLsb'_append_extractLsb'_eq_extractLsb' (show 64 = 32 + 32 from rfl),
    BitVec.extractLsb'_append_extractLsb'_eq_extractLsb' (show 32 = 16 + 16 from rfl), BitVec.extractLsb'_append_extractLsb'_eq_extractLsb' (show 16 = 0 + 16 from rfl)]
  exact BitVec.extractLsb'_eq_self

theorem bitsOf_low (x : DWord) : bitsOf (x.extractLsb' 0 16).toNat 15 8 = bitsOf x.toNat 15 8 := by
  simp [bitsOf]
  omega

theorem tag_low (x : DWord) : (x.extractLsb' 16 16).toNat % 2 ^ 12 = bitsOf x.toNat 27 16 := by
  simp [bitsOf]


theorem exec_compressedPacket_closed (s : State) (p l : Nat) (header : DWord) (h : 8 ≤ bitsOf header.toNat 15 8 ∨
    SMap.find? (s.pkg p).ctxs (ctxKey l (bitsOf header.toNat 15 8)) = none) :
    exec (.compressedPacket p l (header.extractLsb' 0 16) (header.extractLsb' 16 16) (header.extractLsb' 32 32)) s = .next (s.countReg p (wallBase + 0xC) 1) := by
  change execCompressedPacket .. = _
  unfold execCompressedPacket
  rw [bitsOf_low]
  dsimp only
  split
  case h_1 => rfl
  case h_2 k hk =>
    rw [if_pos]
    simpa [hk] using h

theorem exec_compressedPacket_open {s : State} {p l : Nat} {header : DWord} {k : Packet} (hc : bitsOf header.toNat 15 8 < 8)
    (h : SMap.find? (s.pkg p).ctxs (ctxKey l (bitsOf header.toNat 15 8)) = some k) :
    ∃ u m, exec (.compressedPacket p l (header.extractLsb' 0 16) (header.extractLsb' 16 16) (header.extractLsb' 32 32)) s = .next u ∧ u.mem = s.mem ∧
      SMap.find? u.packets m = some { k with tag := bitsOf header.toNat 27 16, addr := wrapTo 52 ((k.addr : Int) + 32 * (header.extractLsb' 32 32).toInt) } := by
  change ∃ u m, execCompressedPacket .. = _ ∧ _
  unfold execCompressedPacket
  rw [bitsOf_low, tag_low]
  simp only [h, if_neg (not_le.2 hc)]
  exact ⟨_, _, rfl, rfl, find_put_same ..⟩

/-! ## Routes (R411, R412) -/

theorem exec_relayForward {s : State} {n : Nat} {k : Packet} (hk : SMap.find? s.packets n = some k) (hdet : k.det = true) :
    exec (.relayForward n) s = .next (if k.relay = 16 then ({ s with packets := SMap.del s.packets n }).issuePacket k
      else if s.linkLive k.relay k.dst then { s.keepRelay k with packets := SMap.put s.packets n { k with det := false } }
      else s.leave n k) := by
  change execRelayForward .. = _
  simp [execRelayForward, hk, hdet]

theorem courses_issuePacket (s : State) (r : Packet) : (s.issuePacket r).courses = s.courses := by
  unfold State.issuePacket State.keepLink
  dsimp only
  repeat' split
  all_goals rfl

/-- An answer that waits where it was formed, and still has no route, waits on (log 17). -/
theorem issuePacket_waits {s : State} {r : Packet} (h : (s.bestRoute r.src r.dst).1 = 2) (hdet : r.det = true) (hrelay : r.relay = 16) :
    ∃ m, SMap.find? (s.issuePacket r).packets m = some r := by
  have hr : { r with det := true, relay := 16 } = r := by rw [← hdet, ← hrelay]
  have hw : s.issuePacket r = { s with packets := requeue s.packets { r with det := true, relay := 16 } } := by simp [State.issuePacket, h]
  rw [hw, hr]
  exact ⟨_, find_put_same ..⟩

theorem issuePacket_direct {s : State} {r : Packet} (h : (s.bestRoute r.src r.dst).1 = 0) (hc : r.credits ≤ s.creditsLeft r.src r.dst) :
    ∃ m, SMap.find? (s.issuePacket r).packets m = some { r with det := false, relay := 0 } := by
  have hneed : ({ r with det := false, relay := 0 } : Packet).credits = r.credits := rfl
  simp only [State.issuePacket, h]
  simp [hc]
  exact ⟨_, find_put_same ..⟩


theorem bestRoute_lt {s : State} {p j : Nat} (hj : j ≠ p) : (s.bestRoute p j).1 < 3 ∧ (s.bestRoute p j).2 < 16 := by
  unfold State.bestRoute
  rw [if_neg (Ne.symm hj)]
  split
  · exact ⟨by omega, by omega⟩
  · split
    · exact ⟨by omega, Nat.mod_lt _ (by omega)⟩
    · exact ⟨by omega, by omega⟩

theorem bestRoute_of_live {s : State} {p j : Nat} (hj : j ≠ p) (h : s.linkLive p j = true) : s.bestRoute p j = (0, 0) := by
  rw [State.bestRoute, if_neg (Ne.symm hj), if_pos h]

/-- A route as its register holds it. -/
theorem route_setReg {s : State} (hs : RegsInOrder s) (p j a b : Nat) (ha : a < 4) (hb : b < 16) :
    (s.setReg p (routeOff j) (a * 2 ^ 30 + b * 2 ^ 24)).route p j = (a, b) := by
  unfold State.route
  dsimp only
  rw [bitsOf_setReg_same hs _ _ _ _ (by omega), bitsOf_setReg_same hs _ _ _ _ (by omega)]
  simp only [bitsOf, Nat.shiftRight_eq_div_pow]
  congr 1 <;> omega

theorem exec_routeChange {s : State} {p j : Nat} (hj : j < 16) (hne : j ≠ p) (hidle : ∀ kt ∈ (s.pkg p).txs, kt.2.pkt.dst ≠ j) :
    exec (.routeChange p j) s = .next (s.setReg p (routeOff j) ((s.bestRoute p j).1 * 2 ^ 30 + (s.bestRoute p j).2 * 2 ^ 24)) := by
  change execRouteChange .. = _
  have hbusy : (List.any (s.pkg p).txs fun (kt : Nat × WallTx) => decide (kt.2.pkt.dst = j)) = false := by
    simp only [List.any_eq_false, decide_eq_true_eq]
    exact hidle
  unfold execRouteChange
  simp [hbusy, hne, hj]

/-! ## Failures and fate (R415) -/

theorem exec_wallTimeout_tx {s : State} {p n : Nat} {t : WallTx} (h : SMap.find? (s.pkg p).txs n = some t) (hq : t.query = 0) :
    exec (.wallTimeout 0 p n) s = .next (if s.reaches p t.pkt.dst = false ∨ (s.pkg p).past t.since (s.wallTimeoutNs p) = true then s.queryFate p n t else s) := by
  change execWallTimeout 0 p n s = _
  simp [execWallTimeout, h, hq]

theorem txs_queryFate (s : State) (p n : Nat) (t : WallTx) :
    SMap.find? ((s.queryFate p n t).pkg p).txs n = some { t with query := 1, since := (s.pkg p).time } := by
  unfold State.queryFate
  rw [pkgPart_tellPeer (g := Pkg.txs) fun _ _ => rfl]
  simp

theorem packets_queryFate (s : State) (p n : Nat) (t : WallTx) : (s.queryFate p n t).packets = s.packets := by
  simp [State.queryFate]

theorem courses_killPacket (s : State) (t : WallTx) : (s.killPacket t).courses = s.courses := by
  unfold State.killPacket State.addU State.returnCredits
  dsimp only
  repeat' split
  all_goals rfl

/-- A packet in flight after the kill of a transaction that was not performed is not the transaction's. -/
theorem not_holds_killPacket {s : State} {t : WallTx} (h : t.reply = none) {m : Nat} {k : Packet} (hk : SMap.find? (s.killPacket t).packets m = some k) :
    t.holds k = false := by
  have hpackets : (s.killPacket t).packets = s.packets.filter fun (nk : Nat × Packet) => !t.holds nk.2 := by
    unfold State.killPacket State.addU State.returnCredits
    simp only [h, Option.isSome_none, Bool.false_eq_true, if_false]
    repeat' split
    all_goals rfl
  rw [hpackets] at hk
  have hmem := mem_of_find hk
  simpa using (List.mem_filter.mp hmem).2

theorem exec_fateQuery_settles {s : State} {p q tag : Nat} {t : WallTx} (hhead : s.fateHead q = some (p, 1, tag))
    (ht : SMap.find? (s.pkg p).txs (txKey q tag) = some t) (hq : t.query = 1) (hpart : s.partly t = false) :
    ∃ data, exec (.fateQuery q tag) s = .next ((((s.planeTake q 13).killPacket t).modPkg p fun x =>
      { x with txs := SMap.put x.txs (txKey q tag) { t with query := if t.reply.isSome then 2 else 3 } }).tellPeer q (planeId p) 13
        (fateBytes (if t.reply.isSome then 2 else 3) tag data)) := by
  change ∃ data, execFateQuery .. = _
  unfold execFateQuery
  rw [hhead]
  cases hr : t.reply with
  | none => exact ⟨[], by simp [ht, hq, hpart, hr]⟩
  | some r => exact ⟨r.payload, by simp [ht, hq, hpart, hr]⟩

theorem flights_lostRecord (s : State) (k type kind addr info : Nat) : (s.lostRecord k type kind addr info).flights = s.flights := by
  unfold State.lostRecord
  split <;> rfl

theorem flights_defer (s : State) (k : Nat) (h : HeldCause) : (s.defer k h).flights = s.flights := by
  unfold State.defer State.setCourse State.modTeam
  repeat' split
  all_goals rfl

/-- A write that fails is acknowledged (R415). -/
theorem flight_writeFails (s : State) (o : Nat) (owner : Agent) (scope : Nat) (ti : Word) :
    (s.writeFails o owner scope ti).flight? s.fresh = some (.ack owner scope 0 o) := by
  have hack : (s.send (.ack owner scope 0 o)).flight? s.fresh = some (.ack owner scope 0 o) := flight_send ..
  unfold State.writeFails State.flight?
  dsimp only
  split
  · split
    · split
      · rw [flights_lostRecord]; exact hack
      · rw [flights_defer]; exact hack
    · exact hack
  all_goals exact hack

/-- A live course whose write fails holds FABRIC (R415, R443). -/
theorem course_writeFails {s : State} {k : Nat} {c : Course} (hc : s.course? k = some c) (hlive : c.life = .live) (o : Nat) (str : Bool) (scope : Nat) (ti : Word) :
    (s.writeFails o (.course k str) scope ti).course? k = some { c with held := c.held ++
      [{ cause := .fabric, tpc := none, slot := none, taddr := 0#64, tmask := 0#32, tinfo := ti }] } := by
  have hc' : (s.send (.ack (.course k str) scope 0 o)).course? k = some c := hc
  simp [State.writeFails, hc', hlive, State.defer]

/-- A write's transaction that fails (R415): FAILS counts it, its item leaves its path, and it fails for its owner. -/
theorem txFails_write {t : WallTx} {path key : Nat} {owner : Agent} {scope : Nat} (ht : t.serves = .write path key owner scope) (s : State) (p reason : Nat) :
    s.txFails p t reason = ((s.countReg p (routeOff t.pkt.dst + 4) 1).dropItem path key).writeFails key owner scope (fabricInfo t.pkt.type reason t.pkt.dst) := by
  simp [State.txFails, ht]

/-- FABRIC for a live course whose write's transaction fails (R415, R443). -/
theorem course_txFails_write {s : State} {t : WallTx} {path key k scope : Nat} {str : Bool} {c : Course} (ht : t.serves = .write path key (.course k str) scope)
    (hc : s.course? k = some c) (hlive : c.life = .live) (p reason : Nat) :
    (s.txFails p t reason).course? k = some { c with held := c.held ++
      [{ cause := .fabric, tpc := none, slot := none, taddr := 0#64, tmask := 0#32, tinfo := fabricInfo t.pkt.type reason t.pkt.dst }] } := by
  have hc' : ((s.countReg p (routeOff t.pkt.dst + 4) 1).dropItem path key).course? k = some c := hc
  rw [txFails_write ht, course_writeFails hc' hlive]

theorem flight_txFails_write {t : WallTx} {path key : Nat} {owner : Agent} {scope : Nat} (ht : t.serves = .write path key owner scope) (s : State) (p reason : Nat) :
    ∃ m, (s.txFails p t reason).flight? m = some (.ack owner scope 0 key) := by
  rw [txFails_write ht]
  exact ⟨_, flight_writeFails ..⟩

theorem txDone_write {t : WallTx} {path key : Nat} {owner : Agent} {scope : Nat} (ht : t.serves = .write path key owner scope) (s : State) (r : Packet) :
    s.txDone t r = (s.dropItem path key).send (.ack owner scope r.stamp key) := by
  simp [State.txDone, ht]

theorem find_txs_planeTake (s : State) (p ep n : Nat) : SMap.find? ((s.planeTake p ep).pkg p).txs n = SMap.find? (s.pkg p).txs n := by
  rw [State.planeTake, pkg_modPkg_same]

theorem exec_fateAnswer_performed {s : State} {p q kind tag : Nat} {t : WallTx} {r : Packet} (hhead : s.fateHead p = some (q, kind, tag)) (hkind : kind ≠ 1)
    (ht : SMap.find? (s.pkg p).txs (txKey q tag) = some t) (hq : t.query = 2) (hr : t.reply = some r) :
    exec (.fateAnswer p tag) s = .next ((((s.planeTake p 13).dropReply r).dropTx p (txKey q tag)).txDone t r) := by
  change execFateAnswer .. = _
  unfold execFateAnswer
  rw [hhead]
  simp [find_txs_planeTake, ht, hq, hr]

theorem exec_fateAnswer_notPerformed {s : State} {p q kind tag : Nat} {t : WallTx} (hhead : s.fateHead p = some (q, kind, tag)) (hkind : kind ≠ 1)
    (ht : SMap.find? (s.pkg p).txs (txKey q tag) = some t) (hq : t.query = 3) :
    exec (.fateAnswer p tag) s = .next (((s.planeTake p 13).dropTx p (txKey q tag)).txFails p t 2) := by
  change execFateAnswer .. = _
  unfold execFateAnswer
  rw [hhead]
  simp [find_txs_planeTake, ht, hq]

theorem exec_fateNoAnswer_late {s : State} {p n : Nat} {t : WallTx} (ht : SMap.find? (s.pkg p).txs n = some t) (hq : t.query ≠ 0)
    (hpart : s.partly t = false) (hlate : (s.pkg p).past t.since (s.wallTimeoutNs p) = true) :
    ∃ v : State, exec (.fateNoAnswer p n) s = .next ((v.dropTx p n).txFails p t 3) := by
  change ∃ v : State, execFateNoAnswer .. = _
  unfold execFateNoAnswer
  simp only [ht, hq, hpart, hlate, Bool.false_eq_true, Bool.not_true, or_self, if_false]
  exact ⟨_, rfl⟩

/-! ## SC clock reset (R416) -/
theorem pkg_foldl_modPkg (f : Pkg → Pkg) (ps : List Nat) (hps : ps.Nodup) (s : State) (q : Nat) :
    (ps.foldl (fun s p => s.modPkg p f) s).pkg q = if q ∈ ps then f (s.pkg q) else s.pkg q := by
  induction ps generalizing s with
  | nil => rfl
  | cons p ps ih =>
    obtain ⟨hp, hps⟩ := List.nodup_cons.mp hps
    rw [List.foldl_cons, ih hps]
    by_cases h : q = p
    · subst h; simp [hp]
    · simp [h, pkg_modPkg_other s f h]

/-- A package that has been told to stop SC issue (R416). -/
def Pkg.scStopped (x : Pkg) : Pkg := { x with scStop := true, scReported := x.scStop && x.scReported }

theorem exec_scClockResetRequest {s : State} {c : Nat} (h : 2 ^ 49 ≤ (s.core c).clock) :
    exec (.scClockResetRequest c) s = .next ((List.range 16).foldl (fun s p => s.modPkg p Pkg.scStopped) s) := by
  change execScClockResetRequest .. = _
  rw [execScClockResetRequest, if_neg (by omega)]
  rfl

/-- The reset of package q's part (R416): SCEPOCH counts, and SC issue resumes. -/
def State.scResumed (s : State) (q : Nat) : State :=
  (s.modPkg q fun x => { x with scStop := false, scReported := false }).setReg q (wallBase + 8) ((s.reg q (wallBase + 8) + 1) % 2 ^ 16)

/-- The state with every SC clock and stamp zero (R416). -/
def State.scZeroed (s : State) : State :=
  let s := s.scAnew
  { s with
    cores := s.cores.map fun (kc : Nat × Core) => (kc.1, { kc.2 with clock := 0, scHalt := false })
    dir := List.filter (fun (kl : Nat × DirLine) => decide (kl.2 ≠ DirLine.init))
      (s.dir.map fun (kl : Nat × DirLine) => (kl.1, { kl.2 with lw := 0, lr := 0, stamped := false }))
    floors := [] }

theorem exec_scQuiescentReport {s : State} {p : Nat} (hstop : (s.pkg p).scStop = true) (hbusy : s.scBusy p = false) :
    exec (.scQuiescentReport p) s = .next (let u := s.modPkg p fun x => { x with scReported := true }
      if (List.range 16).all fun q => (u.pkg q).scReported then (List.range 16).foldl State.scResumed u.scZeroed else u) := by
  change execScQuiescentReport .. = _
  unfold execScQuiescentReport
  rw [hstop, hbusy]
  rfl

theorem clock_scZeroed (s : State) {c : Nat} {x : Core} (h : SMap.find? s.scZeroed.cores c = some x) : x.clock = 0 := by
  obtain ⟨kc, -, hkc⟩ := List.mem_map.mp (mem_of_find h)
  rw [← (Prod.mk.inj hkc).2]

theorem stamps_scZeroed (s : State) {l : Nat} {x : DirLine} (h : SMap.find? s.scZeroed.dir l = some x) : x.lw = 0 ∧ x.lr = 0 := by
  obtain ⟨kl, -, hkl⟩ := List.mem_map.mp (List.mem_filter.mp (mem_of_find h)).1
  rw [← (Prod.mk.inj hkl).2]
  exact ⟨rfl, rfl⟩

theorem scStop_scResumed (s : State) (q r : Nat) : ((s.scResumed q).pkg r).scStop = if r = q then false else (s.pkg r).scStop := by
  unfold State.scResumed
  rw [pkg_setReg]
  split
  · next h => rw [h, pkg_modPkg_same]
  · next h => rw [pkg_modPkg_other _ _ h]

/-- A part of the state other than packages and registers is as it was when SC issue resumes. -/
theorem foldl_scResumed_keeps {γ : Type} {f : State → γ} (h : ∀ (u : State) dev pkgs, f { u with dev := dev, pkgs := pkgs } = f u) (qs : List Nat) (s : State) :
    f (qs.foldl State.scResumed s) = f s := foldl_keeps State.scResumed f (fun u q => h u (u.scResumed q).dev (u.scResumed q).pkgs) qs s

theorem scStop_foldl_scResumed (qs : List Nat) (s : State) (r : Nat) (h : r ∈ qs ∨ (s.pkg r).scStop = false) :
    ((qs.foldl State.scResumed s).pkg r).scStop = false := by
  induction qs generalizing s with
  | nil => simpa using h
  | cons q qs ih =>
    refine ih _ ?_
    rw [scStop_scResumed]
    by_cases hq : r = q
    · exact .inr (by rw [if_pos hq])
    · rw [if_neg hq]
      exact h.imp_left fun h => (List.mem_cons.mp h).resolve_left hq


/-! ## The statement, clause by clause -/

theorem relayForward_clauses (s : State) (n : Nat) (k : Packet) (hk : SMap.find? s.packets n = some k) (hdet : k.det = true) :
    (k.relay < 16 → s.linkLive k.relay k.dst = true → exec (.relayForward n) s = .next { s.keepRelay k with packets := SMap.put s.packets n { k with det := false } }) ∧
    (k.relay < 16 → s.linkLive k.relay k.dst = false → ∃ u, exec (.relayForward n) s = .next u ∧ u.packets = SMap.del s.packets n ∧ u.mem = s.mem ∧ u.courses = s.courses) ∧
    (k.relay = 16 → (s.bestRoute k.src k.dst).1 = 2 → ∃ u m, exec (.relayForward n) s = .next u ∧
      SMap.find? u.packets m = some k ∧ u.mem = s.mem ∧ u.courses = s.courses) ∧
    (k.relay = 16 → (s.bestRoute k.src k.dst).1 = 0 → k.credits ≤ s.creditsLeft k.src k.dst → ∃ u m, exec (.relayForward n) s = .next u ∧
      SMap.find? u.packets m = some { k with det := false, relay := 0 } ∧ u.mem = s.mem ∧ u.courses = s.courses) := by
  rw [exec_relayForward hk hdet]
  refine ⟨fun hr hl => ?_, fun hr hl => ?_, fun hr hb => ?_, fun hr hb hc => ?_⟩
  · rw [if_neg hr.ne, if_pos hl]
  · rw [if_neg hr.ne, hl]
    exact ⟨_, rfl, rfl, rfl, rfl⟩
  · rw [if_pos hr]
    obtain ⟨m, hm⟩ := issuePacket_waits (s := { s with packets := SMap.del s.packets n }) hb hdet hr
    exact ⟨_, m, rfl, hm, mem_issuePacket .., courses_issuePacket ..⟩
  · rw [if_pos hr]
    obtain ⟨m, hm⟩ := issuePacket_direct (s := { s with packets := SMap.del s.packets n }) hb hc
    exact ⟨_, m, rfl, hm, mem_issuePacket .., courses_issuePacket ..⟩

theorem routeChange_clause (s : State) (p j : Nat) (hj : j < 16) (hne : j ≠ p) (hidle : ∀ kt ∈ (s.pkg p).txs, kt.2.pkt.dst ≠ j) (hs : RegsInOrder s) :
    ∃ u, exec (.routeChange p j) s = .next u ∧ u.route p j = s.bestRoute p j ∧ (s.linkLive p j = true → u.route p j = (0, 0)) ∧ u.mem = s.mem := by
  have hroute : (s.setReg p (routeOff j) ((s.bestRoute p j).1 * 2 ^ 30 + (s.bestRoute p j).2 * 2 ^ 24)).route p j = s.bestRoute p j :=
    route_setReg hs p j _ _ (by have := (bestRoute_lt (s := s) hne).1; omega) (bestRoute_lt hne).2
  exact ⟨_, exec_routeChange hj hne hidle, hroute, fun hlive => by rw [hroute, bestRoute_of_live hne hlive], setReg_mem ..⟩

theorem wallTimeout_clauses (s : State) (p n : Nat) (t : WallTx) (ht : SMap.find? (s.pkg p).txs n = some t) (hq : t.query = 0) :
    (s.reaches p t.pkt.dst = false ∨ (s.pkg p).past t.since (s.wallTimeoutNs p) = true → ∃ u, exec (.wallTimeout 0 p n) s = .next u ∧
      SMap.find? (u.pkg p).txs n = some { t with query := 1, since := (s.pkg p).time } ∧ u.mem = s.mem ∧ u.packets = s.packets) ∧
    (s.reaches p t.pkt.dst = true → (s.pkg p).past t.since (s.wallTimeoutNs p) = false → exec (.wallTimeout 0 p n) s = .next s) := by
  rw [exec_wallTimeout_tx ht hq]
  refine ⟨fun h => ?_, fun hr hp => ?_⟩
  · rw [if_pos h]
    exact ⟨_, rfl, txs_queryFate .., mem_queryFate .., packets_queryFate ..⟩
  · rw [hr, hp]
    rfl

theorem fateQuery_clause (s : State) (p q tag : Nat) (t : WallTx) (hhead : s.fateHead q = some (p, 1, tag))
    (ht : SMap.find? (s.pkg p).txs (txKey q tag) = some t) (hq : t.query = 1) (hpart : s.partly t = false) :
    ∃ u, exec (.fateQuery q tag) s = .next u ∧
      SMap.find? (u.pkg p).txs (txKey q tag) = some { t with query := if t.reply.isSome then 2 else 3 } ∧
      (t.reply = none → ∀ m k, SMap.find? u.packets m = some k → t.holds k = false) ∧ u.mem = s.mem ∧ u.courses = s.courses := by
  obtain ⟨data, hexec⟩ := exec_fateQuery_settles hhead ht hq hpart
  refine ⟨_, hexec, ?_, fun hr m k hk => ?_, ?_, ?_⟩
  · rw [pkgPart_tellPeer (g := Pkg.txs) fun _ _ => rfl]
    simp
  · rw [packets_tellPeer] at hk
    exact not_holds_killPacket hr hk
  · rw [mem_tellPeer, modPkg_mem, mem_killPacket, mem_planeTake]
  · rw [courses_tellPeer, modPkg_courses, courses_killPacket]
    rfl

theorem fateAnswer_clauses (s : State) (p q kind tag n : Nat) (t : WallTx) (path key : Nat) (owner : Agent) (scope : Nat) (hn : n = txKey q tag)
    (ht : SMap.find? (s.pkg p).txs n = some t) (hw : t.serves = .write path key owner scope) :
    (∀ r, s.fateHead p = some (q, kind, tag) → kind ≠ 1 → t.query = 2 → t.reply = some r → ∃ u m, exec (.fateAnswer p tag) s = .next u ∧ u.flight? m = some (.ack owner scope r.stamp key)) ∧
    (s.fateHead p = some (q, kind, tag) → kind ≠ 1 → t.query = 3 → ∃ u m, exec (.fateAnswer p tag) s = .next u ∧ u.flight? m = some (.ack owner scope 0 key) ∧
      (∀ k str c, owner = .course k str → s.course? k = some c → c.life = .live → ∃ c', u.course? k = some c' ∧ c'.held = c.held ++
        [{ cause := .fabric, tpc := none, slot := none, taddr := 0#64, tmask := 0#32, tinfo := fabricInfo t.pkt.type 2 t.pkt.dst }])) ∧
    (t.query ≠ 0 → s.partly t = false → (s.pkg p).past t.since (s.wallTimeoutNs p) = true → ∃ u m, exec (.fateNoAnswer p n) s = .next u ∧ u.flight? m = some (.ack owner scope 0 key)) := by
  subst hn
  refine ⟨fun r hhead hkind hq hr => ?_, fun hhead hkind hq => ?_, fun hq hpart hlate => ?_⟩
  · rw [exec_fateAnswer_performed hhead hkind ht hq hr, txDone_write hw]
    exact ⟨_, _, rfl, flight_send ..⟩
  · obtain ⟨m, hm⟩ := flight_txFails_write hw ((s.planeTake p 13).dropTx p (txKey q tag)) p 2
    refine ⟨_, m, exec_fateAnswer_notPerformed hhead hkind ht hq, hm, fun k str c hown hc hlive => ?_⟩
    subst hown
    have hc' : ((s.planeTake p 13).dropTx p (txKey q tag)).course? k = some c := hc
    exact ⟨_, course_txFails_write hw hc' hlive .., rfl⟩
  · obtain ⟨v, hv⟩ := exec_fateNoAnswer_late ht hq hpart hlate
    obtain ⟨m, hm⟩ := flight_txFails_write hw (v.dropTx p (txKey q tag)) p 3
    exact ⟨_, m, hv, hm⟩

theorem scClockResetRequest_clause (s : State) (c : Nat) (h : 2 ^ 49 ≤ (s.core c).clock) :
    ∃ u, exec (.scClockResetRequest c) s = .next u ∧ (∀ p, p < 16 → (u.pkg p).scStop = true) ∧ u.mem = s.mem ∧ u.cores = s.cores := by
  have hmem : ((List.range 16).foldl (fun s p => s.modPkg p Pkg.scStopped) s).mem = s.mem := mem_foldl _ (fun _ _ => modPkg_mem ..) ..
  have hcores : ((List.range 16).foldl (fun s p => s.modPkg p Pkg.scStopped) s).cores = s.cores := foldl_keeps _ State.cores (fun _ _ => modPkg_cores ..) ..
  refine ⟨_, exec_scClockResetRequest h, fun p hp => ?_, hmem, hcores⟩
  rw [pkg_foldl_modPkg _ _ List.nodup_range, if_pos (List.mem_range.mpr hp)]
  rfl

theorem scQuiescentReport_clauses (s : State) (p : Nat) (hstop : (s.pkg p).scStop = true) (hbusy : s.scBusy p = false) :
    ∃ u, exec (.scQuiescentReport p) s = .next u ∧ u.mem = s.mem ∧
      ((∃ q, q < 16 ∧ q ≠ p ∧ (s.pkg q).scReported = false) → (u.pkg p).scReported = true ∧ u.cores = s.cores) ∧
      ((∀ q, q < 16 → q ≠ p → (s.pkg q).scReported = true) → (∀ c x, SMap.find? u.cores c = some x → x.clock = 0) ∧
        (∀ l x, SMap.find? u.dir l = some x → x.lw = 0 ∧ x.lr = 0) ∧ u.floors = [] ∧ ∀ q, q < 16 → (u.pkg q).scStop = false) := by
  rw [exec_scQuiescentReport hstop hbusy]
  let v := s.modPkg p fun x => { x with scReported := true }
  have hv : ∀ q, (v.pkg q).scReported = if q = p then true else (s.pkg q).scReported := fun q => by
    split
    · next h => rw [h, pkg_modPkg_same]
    · next h => rw [pkg_modPkg_other s _ h]
  change ∃ u, Host.Outcome.next (if ((List.range 16).all fun q => (v.pkg q).scReported) = true then _ else v) = _ ∧ _
  by_cases hall : ∀ q, q < 16 → q ≠ p → (s.pkg q).scReported = true
  · have hlast : ((List.range 16).all fun q => (v.pkg q).scReported) = true := by
      simp only [List.all_eq_true, List.mem_range, hv]
      intro q hq
      split
      · rfl
      · next h => exact hall q hq h
    rw [if_pos hlast]
    have hcores : ((List.range 16).foldl State.scResumed v.scZeroed).cores = v.scZeroed.cores := foldl_scResumed_keeps (f := State.cores) (fun _ _ _ => rfl) ..
    have hdir : ((List.range 16).foldl State.scResumed v.scZeroed).dir = v.scZeroed.dir := foldl_scResumed_keeps (f := State.dir) (fun _ _ _ => rfl) ..
    have hfloors : ((List.range 16).foldl State.scResumed v.scZeroed).floors = [] := foldl_scResumed_keeps (f := State.floors) (fun _ _ _ => rfl) ..
    have hmem : ((List.range 16).foldl State.scResumed v.scZeroed).mem = s.mem := foldl_scResumed_keeps (f := State.mem) (fun _ _ _ => rfl) ..
    refine ⟨_, rfl, hmem, fun ⟨q, hq, hne, hnot⟩ => ?_, fun _ => ⟨fun c x h => ?_, fun l x h => ?_, hfloors, fun q hq => ?_⟩⟩
    · exact absurd (hall q hq hne) (by simp [hnot])
    · rw [hcores] at h; exact clock_scZeroed v h
    · rw [hdir] at h; exact stamps_scZeroed v h
    · exact scStop_foldl_scResumed _ _ _ (.inl (List.mem_range.mpr hq))
  · obtain ⟨q, hq⟩ := not_forall.mp hall
    simp only [Classical.not_imp] at hq
    obtain ⟨hq, hne, hnot⟩ := hq
    have hwaits : ¬ ((List.range 16).all fun q => (v.pkg q).scReported) = true := by
      simp only [List.all_eq_true, List.mem_range, hv]
      exact fun h => hnot (by simpa [hne] using h q hq)
    rw [if_neg hwaits]
    exact ⟨_, rfl, rfl, fun _ => ⟨by rw [hv, if_pos rfl], rfl⟩, fun h => absurd (h q hq hne) hnot⟩

/-- Settles O59, event by event: each leaves the state that its model says, of which the statement names parts. -/
theorem fabricEventsComplete : Obligations.FabricEventsComplete := by
  unfold Obligations.FabricEventsComplete
  refine ⟨fun s p l header => ?_, fun s p l header => ⟨fun k hc hk => exec_compressedPacket_open hc hk, exec_compressedPacket_closed s p l header⟩,
    relayForward_clauses, fun s p j _ => routeChange_clause s p j, wallTimeout_clauses, fateQuery_clause, fateAnswer_clauses, scClockResetRequest_clause,
    fun s p _ => scQuiescentReport_clauses s p⟩
  change Host.Outcome.next _ = _
  rw [headerFields_append]

end Sys2Proof.Machine

/-! # What an engine stores (R388-R394; log 21)

An engine's bytes go line by line, each under the key id that its line carries. Where the material of that id is the line's own, the
line is settled: the write changes the stored bytes alone. -/

namespace Sys2Proof.Machine

open Sys2Proof Sys2Proof.Spec

variable {s u v : State} {a x pa : Nat}

/-! ## A line under another key is no longer than a line -/

theorem xtsTweaks_eq_map (keys : List (List Byte)) (unit : Nat) : ∃ ts, xtsTweaks keys unit = List.map (bytesOf 16) ts :=
  ⟨[_, _, _, _, _, _, _, _], rfl⟩

theorem length_blocks {α : Type} (n k : Nat) (l : List α) : (blocks n k l).length = k := by
  induction k generalizing l with
  | zero => rfl
  | succ k ih => rw [blocks, List.length_cons, ih]

theorem length_flatMap_le {α β : Type} (f : α → List β) (n : Nat) (l : List α) (h : ∀ x ∈ l, (f x).length ≤ n) : (l.flatMap f).length ≤ l.length * n := by
  induction l with
  | nil => simp
  | cons x l ih =>
    have hx := h x List.mem_cons_self
    have hl := ih fun y hy => h y (List.mem_cons_of_mem _ hy)
    rw [List.flatMap_cons, List.length_append, List.length_cons, Nat.succ_mul]
    omega

theorem length_xtsCrypt_le (d : Bool) (material unit : Nat) (line : List Byte) : (xtsCrypt d material unit line).length ≤ 128 := by
  obtain ⟨ts, hts⟩ := xtsTweaks_eq_map (aesKeys ((bytesOf 64 material).drop 32)) unit
  refine (length_flatMap_le _ 16 _ fun bt hbt => ?_).trans ?_
  · rw [hts] at hbt
    obtain ⟨t, -, ht⟩ := List.mem_map.mp (List.of_mem_zip hbt).2
    rw [xorBytes, List.length_zipWith, ← ht, length_bytesOf]
    exact Nat.min_le_right ..
  · rw [List.length_zip, length_blocks]
    omega

theorem length_lineUnder_le (s : State) (pa mat : Nat) : (s.lineUnder pa mat).length ≤ 128 := by
  unfold State.lineUnder
  dsimp only
  split
  · simp [State.bytesAt]
  · exact length_xtsCrypt_le ..

/-! ## One line -/

/-- The line of an address is under the material that its own key id names. -/
abbrev Settled (s : State) (a : Nat) : Prop := SameKey s a (s.line a).key

/-- Two addresses of one line, or one line at two times, are settled together. -/
theorem settled_congr (hs : NoneMoves s) (hu : NoneMoves u) (hpkgs : u.pkgs = s.pkgs) (hline : u.line x = s.line a) (hx : lineOf x = lineOf a)
    (h : Settled s a) : Settled u x := by
  unfold Settled
  rw [hline]
  refine sameKey_congr h hpkgs (congrArg DirLine.mat hline) ?_ ?_
  · unfold isHbm regLo
    unfold lineOf at hx
    exact decide_eq_decide.2 (by omega)
  · rw [hs, hu]
    unfold lineOf at hx
    omega

theorem line_setLine_other (hs : NoneMoves s) (l : DirLine) (h : lineOf x ≠ lineOf a) : (s.setLine a l).line x = s.line x := by
  have hmoves : ∀ y, (s.setLine a l).forward y = y := hs
  rw [State.line, hmoves, State.setLine, hs, State.line, hs]
  exact getD_setD_other _ _ _ h

theorem line_congr (hs : NoneMoves s) (h : lineOf x = lineOf a) : s.line x = s.line a := by
  rw [State.line, State.line, hs, hs, h]

theorem byte_tagLine_other (hs : NoneMoves s) (key : Nat) (h : lineOf x ≠ lineOf a) : (s.tagLine a key).mem.byte x = s.mem.byte x := by
  have hlen := length_lineUnder_le s a (s.keyMat a key)
  unfold State.tagLine
  dsimp only
  split
  · rfl
  · split
    · rfl
    · refine (byte_setBytes_other _ _ ?_).trans (congrArg (Memory.byte · x) (mem_touch ..))
      rw [forward_touch, hs]
      unfold lineOf at h ⊢
      omega

theorem line_tagLine_other (hs : NoneMoves s) (key : Nat) (h : lineOf x ≠ lineOf a) : (s.tagLine a key).line x = s.line x := by
  unfold State.tagLine
  dsimp only
  split
  · rfl
  · split
    · exact line_setLine_other hs _ h
    · refine (line_setLine_other (fun y => (forward_touch s a y).trans (hs y)) _ h).trans ?_
      exact line_touch ..

theorem line_rawWrite_other (hs : NoneMoves s) (bytes : List (Option Byte)) (h : lineOf x ≠ lineOf a) : (s.rawWrite a bytes).line x = s.line x := by
  unfold State.rawWrite
  dsimp only
  split
  · exact (line_setLine_other (fun y => (forward_touch s a y).trans (hs y)) _ h).trans (line_touch ..)
  · refine (line_setLine_other (fun y => (forward_dropHeld ..).trans ((forward_touch s a y).trans (hs y))) _ h).trans ?_
    exact (line_dropHeld ..).trans (line_touch ..)

theorem key_tagLine (hd : SMap.sorted s.dir = true) (key : Nat) (hkey : (s.line a).key = key) : ((s.tagLine a key).line a).key = key := by
  have hsorted : SMap.sorted (s.touch a).dir = true := by rwa [dir_touch]
  unfold State.tagLine
  dsimp only
  split
  · exact hkey
  · split
    · rw [line_setLine hd]
    · exact congrArg DirLine.key (line_setLine (s := { s.touch a with mem := _ }) hsorted ..)

theorem key_rawWrite (hd : SMap.sorted s.dir = true) (bytes : List (Option Byte)) : ((s.rawWrite a bytes).line a).key = (s.line a).key := by
  have hsorted : SMap.sorted (s.touch a).dir = true := by rwa [dir_touch]
  unfold State.rawWrite
  dsimp only
  split
  · exact (congrArg DirLine.key (line_setLine (s := { s.touch a with mem := _ }) hsorted ..)).trans (by rw [line_touch])
  · exact (congrArg DirLine.key (line_setLine (s := { (s.touch a).dropHeld a with mem := _ }) hsorted ..)).trans (by rw [line_dropHeld, line_touch])

/-- What one line's part of an engine's write leaves. -/
structure LineWritten (s u : State) (a : Nat) (bytes : List Byte) : Prop where
  wf : s.memWf → u.memWf
  moves : NoneMoves u
  pkgs : u.pkgs = s.pkgs
  stored : s.memWf → ∀ i (hi : i < bytes.length), u.mem.byte (a + i) = bytes[i]
  other : ∀ x, lineOf x ≠ lineOf a → u.mem.byte x = s.mem.byte x ∧ u.line x = s.line x
  same : Settled s a → ∀ x, (x < a ∨ a + bytes.length ≤ x) → u.mem.byte x = s.mem.byte x
  settles : SMap.sorted s.dir = true → SMap.sorted u.dir = true ∧ Settled u a

theorem lineWritten (hs : NoneMoves s) {bytes : List Byte} (hfit : a % 128 + bytes.length ≤ 128) :
    LineWritten s ((s.tagLine a (s.line a).key).rawWrite a (bytes.map some)) a bytes := by
  let t := s.tagLine a (s.line a).key
  have ht : NoneMoves t := fun y => (forward_tagLine ..).trans (hs y)
  have hu : NoneMoves (t.rawWrite a (bytes.map some)) := fun y => (forward_rawWrite ..).trans (ht y)
  have hmem : (t.rawWrite a (bytes.map some)).mem = t.mem.setBytes a bytes := by
    rw [(storedInPlace_rawWrite (ht a) _).mem, setMasked_map_some]
  have hwf : s.memWf → t.memWf := fun h => memWf_tagLine _ _ h
  have houtside : ∀ x, (x < a ∨ a + bytes.length ≤ x) → (t.rawWrite a (bytes.map some)).mem.byte x = t.mem.byte x := fun x hx => by
    rw [hmem, byte_setBytes_other _ _ hx]
  refine ⟨fun h => ?_, hu, ?_, fun h i hi => ?_, fun x hx => ⟨?_, ?_⟩, fun hkey x hx => ?_, fun hd => ?_⟩
  · rw [memWf_iff, hmem]
    exact wf_setBytes _ _ (hwf h)
  · rw [pkgs_rawWrite, pkgs_tagLine]
  · rw [hmem, byte_setBytes_same (hwf h) a i bytes hi]
  · rw [houtside x (by unfold lineOf at hx; omega), byte_tagLine_other hs _ hx]
  · rw [line_rawWrite_other ht _ hx, line_tagLine_other hs _ hx]
  · rw [houtside x hx]
    have hmem : t.mem = s.mem := by
      have htag := congrArg State.mem (tagLine_sameKey hkey)
      exact htag
    rw [hmem]
  · have hdt : SMap.sorted t.dir = true := sorted_dir_tagLine hd ..
    refine ⟨sorted_dir_rawWrite hdt .., ?_⟩
    unfold Settled
    rw [key_rawWrite hdt, key_tagLine hd _ rfl]
    exact sameKey_congr (sameKey_tagLine hd a _) (pkgs_rawWrite ..) (mat_rawWrite hdt ..) rfl (by rw [forward_rawWrite])

/-! ## Line by line -/

/-- The address at which an engine's write meets its i-th line, and its bytes there. -/
def engineAt (pa i : Nat) : Nat := if i = 0 then pa else 128 * (lineOf pa + i)
def enginePart (pa : Nat) (bytes : List Byte) (i : Nat) : List Byte :=
  (bytes.drop (engineAt pa i - pa)).take (128 - engineAt pa i % 128)

/-- The first k lines of an engine's write. -/
def State.engineLines (s : State) (pa : Nat) (bytes : List Byte) (k : Nat) : State :=
  (List.range k).foldl (fun s i => (s.tagLine (engineAt pa i) (s.line (engineAt pa i)).key).rawWrite (engineAt pa i) ((enginePart pa bytes i).map some)) s


/-- What the first k lines of an engine's write leave. -/
structure LinesWritten (s u : State) (pa : Nat) (bytes : List Byte) (k : Nat) : Prop where
  wf : s.memWf → u.memWf
  moves : NoneMoves u
  pkgs : u.pkgs = s.pkgs
  stored : s.memWf → ∀ i (hi : i < bytes.length), pa + i < 128 * (lineOf pa + k) → u.mem.byte (pa + i) = bytes[i]
  same : ∀ x, (x < pa ∨ pa + bytes.length ≤ x) → (Settled s x ∨ lineOf x < lineOf pa ∨ pa + bytes.length ≤ 128 * lineOf x) → u.mem.byte x = s.mem.byte x
  later : ∀ x, lineOf pa + k ≤ lineOf x → u.mem.byte x = s.mem.byte x ∧ u.line x = s.line x
  settles : SMap.sorted s.dir = true → SMap.sorted u.dir = true ∧ ∀ x, pa ≤ x → x < pa + bytes.length → lineOf x < lineOf pa + k → Settled u x

theorem engineLines_succ (s : State) (pa : Nat) (bytes : List Byte) (k : Nat) : s.engineLines pa bytes (k + 1) =
    ((s.engineLines pa bytes k).tagLine (engineAt pa k) ((s.engineLines pa bytes k).line (engineAt pa k)).key).rawWrite (engineAt pa k) ((enginePart pa bytes k).map some) := by
  rw [State.engineLines, List.range_succ, List.foldl_append]
  rfl

theorem linesWritten (hs : NoneMoves s) (pa : Nat) (bytes : List Byte) {k : Nat} (hk : 128 * (lineOf pa + k) < pa + bytes.length + 128) :
    LinesWritten s (s.engineLines pa bytes k) pa bytes k := by
  induction k with
  | zero =>
    refine ⟨id, hs, rfl, fun _ i _ h => absurd h ?_, fun _ _ _ => rfl, fun _ _ => ⟨rfl, rfl⟩, fun hd => ⟨hd, fun x h1 _ h2 => absurd h2 ?_⟩⟩
    · unfold lineOf; omega
    · unfold lineOf; omega
  | succ k ih =>
    replace ih := ih (by omega)
    have hline : lineOf (engineAt pa k) = lineOf pa + k := by
      unfold engineAt lineOf
      split <;> omega
    have hge : pa ≤ engineAt pa k := by
      unfold engineAt lineOf
      split <;> omega
    have hoff : engineAt pa k % 128 = if k = 0 then pa % 128 else 0 := by
      unfold engineAt
      split <;> omega
    have hfrom : ∀ x, pa ≤ x → lineOf pa + k ≤ lineOf x → engineAt pa k ≤ x := by
      intro x h1 h2
      unfold engineAt
      unfold lineOf at h2 ⊢
      split <;> omega
    have hlen : (enginePart pa bytes k).length = min (128 - engineAt pa k % 128) (bytes.length - (engineAt pa k - pa)) := by
      simp [enginePart]
    have hstep := lineWritten ih.moves (a := engineAt pa k) (bytes := enginePart pa bytes k) (by rw [hlen]; omega)
    rw [← engineLines_succ] at hstep
    refine ⟨hstep.wf ∘ ih.wf, hstep.moves, hstep.pkgs.trans ih.pkgs, fun h i hi hik => ?_, fun x hx hx' => ?_, fun x hx => ?_, fun hd => ?_⟩
    · by_cases hbefore : lineOf (pa + i) < lineOf pa + k
      · rw [(hstep.other _ (by rw [hline]; omega)).1, ih.stored h i hi (by unfold lineOf at hbefore ⊢; omega)]
      · have hat := hfrom (pa + i) (by omega) (by omega)
        obtain ⟨j, hj⟩ := Nat.exists_eq_add_of_le hat
        have hjlen : j < (enginePart pa bytes k).length := by
          rw [hlen]
          unfold lineOf at hline hik
          omega
        rw [hj, hstep.stored (ih.wf h) j hjlen]
        simp only [enginePart, List.getElem_take, List.getElem_drop]
        congr 1
        omega
    · by_cases hthis : lineOf x = lineOf pa + k
      · have hs' : Settled s x := hx'.resolve_right (by omega)
        obtain ⟨hbyte, hsame⟩ := ih.later x hthis.ge
        have hsettled : Settled (s.engineLines pa bytes k) (engineAt pa k) :=
          settled_congr hs ih.moves ih.pkgs ((line_congr ih.moves (hline.trans hthis.symm)).trans hsame) (hline.trans hthis.symm) hs'
        rw [hstep.same hsettled x ?_, hbyte]
        rw [hlen]
        unfold lineOf at hline hthis
        omega
      · rw [(hstep.other x (by rw [hline]; exact hthis)).1, ih.same x hx hx']
    · rw [(hstep.other x (by rw [hline]; omega)).1, (hstep.other x (by rw [hline]; omega)).2]
      exact ih.later x (by omega)
    · obtain ⟨hsorted, hsettled⟩ := ih.settles hd
      obtain ⟨hsorted', hsettles⟩ := hstep.settles hsorted
      refine ⟨hsorted', fun x h1 h2 h3 => ?_⟩
      by_cases hthis : lineOf x = lineOf pa + k
      · exact settled_congr hstep.moves hstep.moves rfl (line_congr hstep.moves (hthis.trans hline.symm)) (hthis.trans hline.symm) hsettles
      · exact settled_congr ih.moves hstep.moves hstep.pkgs (hstep.other x (by rw [hline]; exact hthis)).2 rfl (hsettled x h1 h2 (by omega))

theorem engineWritten (hs : NoneMoves s) (pa : Nat) (bytes : List Byte) :
    LinesWritten s (s.engineWrite pa bytes) pa bytes ((pa % 128 + bytes.length + 127) / 128) :=
  linesWritten hs pa bytes (by unfold lineOf; omega)

/-- The bytes of an engine's write are in memory. -/
theorem byte_engineWrite (hs : NoneMoves s) (hwf : s.memWf) {bytes : List Byte} {i : Nat} (hi : i < bytes.length) :
    (s.engineWrite pa bytes).mem.byte (pa + i) = bytes[i] :=
  (engineWritten hs pa bytes).stored hwf i hi (by unfold lineOf; omega)

theorem bytes_engineWrite (hs : NoneMoves s) (hwf : s.memWf) (bytes : List Byte) {n : Nat} (hn : bytes.length = n) :
    (s.engineWrite pa bytes).mem.bytes pa n = bytes := by
  refine List.ext_getElem ((length_memBytes ..).trans hn.symm) fun i _ hi => ?_
  rw [getElem_memBytes, byte_engineWrite hs hwf hi]

/-- Outside an engine's write, a byte of a settled line, or of a line that the write does not meet, is as before. -/
theorem byte_engineWrite_other (hs : NoneMoves s) {bytes : List Byte} (hx : x < pa ∨ pa + bytes.length ≤ x)
    (h : Settled s x ∨ lineOf x < lineOf pa ∨ pa + bytes.length ≤ 128 * lineOf x) : (s.engineWrite pa bytes).mem.byte x = s.mem.byte x :=
  (engineWritten hs pa bytes).same x hx h

theorem pkgs_engineWrite (s : State) (pa : Nat) (bytes : List Byte) : (s.engineWrite pa bytes).pkgs = s.pkgs :=
  foldl_keeps _ State.pkgs (fun _ _ => (pkgs_rawWrite ..).trans (pkgs_tagLine ..)) ..

theorem courses_engineWrite (s : State) (pa : Nat) (bytes : List Byte) : (s.engineWrite pa bytes).courses = s.courses :=
  engineWrite_keeps State.courses (fun _ _ _ _ _ _ => rfl) ..

theorem outbox_engineWrite (s : State) (pa : Nat) (bytes : List Byte) : (s.engineWrite pa bytes).outbox = s.outbox :=
  engineWrite_keeps State.outbox (fun _ _ _ _ _ _ => rfl) ..

theorem cur_engineWrite (s : State) (pa : Nat) (bytes : List Byte) : (s.engineWrite pa bytes).cur = s.cur :=
  engineWrite_keeps State.cur (fun _ _ _ _ _ _ => rfl) ..

/-! ## STATUS (R394) -/

/-- A write of STATUS: four bytes as an engine stores them. -/
theorem mem_snapStatus (s : State) (p v : Nat) : (s.snapStatus p v).mem = (s.engineWrite (s.pkg p).snap.statusPa (bytesOf 4 v)).mem := rfl

theorem pkgs_snapStatus (s : State) (p v : Nat) : (s.snapStatus p v).pkgs = s.pkgs := pkgs_engineWrite ..
theorem courses_snapStatus (s : State) (p v : Nat) : (s.snapStatus p v).courses = s.courses := courses_engineWrite ..
theorem outbox_snapStatus (s : State) (p v : Nat) : (s.snapStatus p v).outbox = s.outbox := outbox_engineWrite ..
theorem cur_snapStatus (s : State) (p v : Nat) : (s.snapStatus p v).cur = s.cur := cur_engineWrite ..

theorem bytes_snapStatus (hs : NoneMoves s) (hwf : s.memWf) (p v : Nat) : (s.snapStatus p v).mem.bytes (s.pkg p).snap.statusPa 4 = bytesOf 4 v :=
  bytes_engineWrite hs hwf _ (length_bytesOf ..)

end Sys2Proof.Machine

/-! # Words of a control core or Lintel that complete -/

namespace Sys2Proof.Machine

open Sys2Proof Sys2Proof.Spec

variable {s t u : State} {die n v : Nat} {w : Word}

theorem present_onKcore (h : OnKcore s die) : Present s := by
  simp only [Present, State.curRuns, h.1]
  exact h.2

theorem asKcore_eq (h : s.cur = .kcore die) (f : Nat → Res) : s.asKcore f = f die := by
  rw [State.asKcore, h]

theorem clean_of_cons {s : State} {x : Nat × Bool} {uses : List (Nat × Bool)} (h : Clean s (x :: uses)) : Clean s uses := by
  have hany : ∀ us : List (Nat × Bool), Clean s us ↔
      (us.any fun u => decide (u.1 < 32) && (s.sc.gPoison.getLsbD u.1 || (u.2 && s.sc.gPoison.getLsbD (u.1 + 1)))) = false := fun us => by
    simp [Clean, Scalar.checks]
  rw [hany, List.any_cons, Bool.or_eq_false_iff] at h
  exact (hany uses).mpr h.2

/-- What an instruction of die's control core leaves that completes with gn = v, of the state u that its rule left. -/
structure KcoreDone (u t : State) (die n v : Nat) : Prop where
  reg : n < 32 → (t.die die).kcore.sc.reg n = BitVec.ofNat 32 v
  pc : (t.die die).kcore.pc = nextPc (u.die die).kcore.pc
  apart : t = { u with dies := t.dies }
  die : ∀ e, t.die e = { u.die e with kcore := (t.die e).kcore }

theorem die_modDie_other (s : State) {d e : Nat} (f : Die → Die) (h : e ≠ d) : (s.modDie d f).die e = s.die e := die_setDie_other s _ h

/-- An update of one die's control core is in that control core alone. -/
theorem die_modKcore (s : State) (d e : Nat) (f : Die → Proc) :
    (s.modDie d fun y => { y with kcore := f y }).die e = { s.die e with kcore := ((s.modDie d fun y => { y with kcore := f y }).die e).kcore } := by
  by_cases h : e = d
  · rw [h, die_modDie_same]
  · rw [die_modDie_other s _ h]

/-- A control core on its next word. -/
def Proc.onNext (p : Proc) : Proc := { p with pc := nextPc p.pc, hold := .free }

/-- A control core's word that completes without a result moves to the next word. -/
theorem finished_kcore (hcur : u.cur = .kcore die) : finished s u w = u.modDie die fun y => { y with kcore := y.kcore.onNext } := by
  have hcounted : counted s u w = u := by
    unfold counted State.countIssue
    rw [hcur]
  rw [finished, hcounted, State.advance, hcur]
  rfl

theorem gdst_kcore (hcur : u.cur = .kcore die) :
    u.gdst false n v = u.modDie die fun y => { y with kcore := { y.kcore with sc := (u.die die).kcore.sc.dst false n v } } := by
  simp only [State.gdst, State.sc, hcur, State.setScalar, State.scalar]

theorem kcoreDone (hcur : u.cur = .kcore die) (s : State) (n v : Nat) (w : Word) : KcoreDone u (finished s (u.gdst false n v) w) die n v := by
  rw [gdst_kcore hcur, finished_kcore (by exact hcur)]
  refine ⟨fun hn => ?_, ?_, rfl, fun e => ?_⟩
  · rw [die_modDie_same, die_modDie_same]
    exact reg_dst_same _ _ hn _
  · rw [die_modDie_same, die_modDie_same]
    rfl
  · rw [die_modKcore, die_modKcore]

theorem KcoreDone.mem (h : KcoreDone u t die n v) : t.mem = u.mem := by rw [h.apart]
theorem KcoreDone.dev (h : KcoreDone u t die n v) : t.dev = u.dev := by rw [h.apart]
theorem KcoreDone.courses (h : KcoreDone u t die n v) : t.courses = u.courses := by rw [h.apart]
theorem KcoreDone.pkg (h : KcoreDone u t die n v) (p : Nat) : t.pkg p = u.pkg p := by rw [h.apart]; rfl
theorem KcoreDone.queue (h : KcoreDone u t die n v) (d m : Nat) : t.queue d m = u.queue d m := by
  rw [State.queue, h.die]
  rfl

end Sys2Proof.Machine

/-! # Snapshots (R387-R394) -/

namespace Sys2Proof.Machine

open Sys2Proof Sys2Proof.Spec

/-! ## SNAP.ARM, SNAP.CANCEL, SNAP.LOAD -/

/-- The engine of package p armed for a descriptor at a step (R389). -/
def State.snapArmed (s : State) (p : Nat) (x : SnapDesc) (step pa : Nat) : State :=
  ((s.engineWrite x.mapBase (List.replicate (rangeLines x.ranges) 0#8)).modPkg p fun k => { k with snap := k.snap.load x step pa .armed }).snapStatus p 0

section
variable {s : State} {die : Nat} {w : Word} {d a b : BitVec 6} {x : SnapDesc} {pa : Nat} (hk : OnKcore s die)
include hk

theorem exec_snapArm_busy (hw : Passes s (.snapArm d a b) w) (hc : Clean s [(a.toNat, false), (b.toNat, true)]) (hidle : (s.pkg (die / 8)).snap.state ≠ .idle) :
    exec (.snapArm d a b) s = .next (finished s (s.gdst false d.toNat 1) w) :=
  runWord_finished (present_onKcore hk) hw (by simp [groupOp_unpoisoned hc, asKcore_eq hk.1, hidle])

theorem exec_snapArm_noDesc (hw : Passes s (.snapArm d a b) w) (hc : Clean s [(a.toNat, false), (b.toNat, true)]) (hidle : (s.pkg (die / 8)).snap.state = .idle)
    (hdesc : s.snapDesc die (s.gsrc true b.toNat) = none) : exec (.snapArm d a b) s = .next (finished s (s.gdst false d.toNat 2) w) := by
  rw [State.gsrc] at hdesc
  exact runWord_finished (present_onKcore hk) hw (by simp [groupOp_unpoisoned hc, asKcore_eq hk.1, hidle, hdesc])

theorem exec_snapArm_passed (hw : Passes s (.snapArm d a b) w) (hc : Clean s [(a.toNat, false), (b.toNat, true)]) (hidle : (s.pkg (die / 8)).snap.state = .idle)
    (hdesc : s.snapDesc die (s.gsrc true b.toNat) = some (x, pa)) {i : Nat} (hi : i < 8) (hbit : x.dmask.testBit i = true)
    (hlate : after32 (s.gsrc false a.toNat) (s.die (8 * (die / 8) + i)).kcore.stepLast.toNat = false) :
    exec (.snapArm d a b) s = .next (finished s (s.gdst false d.toNat 3) w) := by
  rw [State.gsrc] at hdesc hlate
  have hany : ((List.range 8).any fun i => x.dmask.testBit i && !after32 (s.sc.src false a.toNat) (s.die (8 * (die / 8) + i)).kcore.stepLast.toNat) = true :=
    List.any_eq_true.mpr ⟨i, List.mem_range.mpr hi, by rw [hbit, hlate]; rfl⟩
  exact runWord_finished (present_onKcore hk) hw (by simp only [groupOp_unpoisoned hc, asKcore_eq hk.1, hidle, hdesc, hany, ne_eq, not_true_eq_false, if_false, if_true])

theorem exec_snapArm_arms (hw : Passes s (.snapArm d a b) w) (hc : Clean s [(a.toNat, false), (b.toNat, true)]) (hidle : (s.pkg (die / 8)).snap.state = .idle)
    (hdesc : s.snapDesc die (s.gsrc true b.toNat) = some (x, pa))
    (hin : ∀ i, i < 8 → x.dmask.testBit i = true → after32 (s.gsrc false a.toNat) (s.die (8 * (die / 8) + i)).kcore.stepLast.toNat = true) :
    exec (.snapArm d a b) s = .next (finished s ((s.snapArmed (die / 8) x (s.gsrc false a.toNat) pa).gdst false d.toNat 0) w) := by
  rw [State.gsrc] at hdesc
  simp only [State.gsrc] at hin
  have hany : ((List.range 8).any fun i => x.dmask.testBit i && !after32 (s.sc.src false a.toNat) (s.die (8 * (die / 8) + i)).kcore.stepLast.toNat) = false := by
    simp only [List.any_eq_false, List.mem_range, Bool.and_eq_true, not_and]
    exact fun i hi hbit => by simp [hin i hi hbit]
  refine runWord_finished (present_onKcore hk) hw ?_
  simp only [groupOp_unpoisoned hc, asKcore_eq hk.1, hidle, hdesc, hany, ne_eq, not_true_eq_false, if_false, Bool.false_eq_true]
  rfl

theorem exec_snapCancel_idle (hw : Passes s (.snapCancel d a) w) (hidle : (s.pkg (die / 8)).snap.state = .idle) :
    exec (.snapCancel d a) s = .next (finished s (s.gdst false d.toNat 1) w) :=
  runWord_finished (present_onKcore hk) hw (by simp [asKcore_eq hk.1, hidle])

theorem exec_snapCancel_fails (hw : Passes s (.snapCancel d a) w) (hidle : (s.pkg (die / 8)).snap.state ≠ .idle) :
    exec (.snapCancel d a) s = .next (finished s (((s.snapFail (die / 8) 5).releaseHeld (die / 8)).gdst false d.toNat 0) w) :=
  runWord_finished (present_onKcore hk) hw (by simp [asKcore_eq hk.1, hidle])

theorem exec_snapLoad_busy (hw : Passes s (.snapLoad d a b) w) (hc : Clean s [(b.toNat, true)]) (hidle : (s.pkg (die / 8)).snap.state ≠ .idle) :
    exec (.snapLoad d a b) s = .next (finished s (s.gdst false d.toNat 1) w) :=
  runWord_finished (present_onKcore hk) hw (by simp [groupOp_unpoisoned hc, asKcore_eq hk.1, hidle])

theorem exec_snapLoad_noDesc (hw : Passes s (.snapLoad d a b) w) (hc : Clean s [(b.toNat, true)]) (hidle : (s.pkg (die / 8)).snap.state = .idle)
    (hdesc : s.snapDesc die (s.gsrc true b.toNat) = none) : exec (.snapLoad d a b) s = .next (finished s (s.gdst false d.toNat 2) w) := by
  rw [State.gsrc] at hdesc
  exact runWord_finished (present_onKcore hk) hw (by simp [groupOp_unpoisoned hc, asKcore_eq hk.1, hidle, hdesc])

theorem exec_snapLoad_loads (hw : Passes s (.snapLoad d a b) w) (hc : Clean s [(b.toNat, true)]) (hidle : (s.pkg (die / 8)).snap.state = .idle)
    (hdesc : s.snapDesc die (s.gsrc true b.toNat) = some (x, pa)) : exec (.snapLoad d a b) s = .next (finished s
      ((s.modPkg (die / 8) fun k => { k with snap := k.snap.load x k.snap.step pa .loading }).gdst false d.toNat 0) w) := by
  rw [State.gsrc] at hdesc
  exact runWord_finished (present_onKcore hk) hw (by simp [groupOp_unpoisoned hc, asKcore_eq hk.1, hidle, hdesc])

end

/-! ## What arming leaves (R389) -/

section
variable {s : State} {p : Nat} {x : SnapDesc} {step pa : Nat}

theorem snap_snapArmed : ((s.snapArmed p x step pa).pkg p).snap = (s.pkg p).snap.load x step pa .armed := by
  have hpkgs : (s.engineWrite x.mapBase (List.replicate (rangeLines x.ranges) 0#8)).pkg p = s.pkg p := by rw [State.pkg, pkgs_engineWrite]; rfl
  rw [State.snapArmed, State.pkg, pkgs_snapStatus]
  exact (congrArg Pkg.snap (pkg_modPkg_same ..)).trans (by rw [hpkgs])

theorem courses_snapArmed : (s.snapArmed p x step pa).courses = s.courses := (courses_snapStatus ..).trans (courses_engineWrite ..)
theorem cur_snapArmed : (s.snapArmed p x step pa).cur = s.cur := (cur_snapStatus ..).trans (cur_engineWrite ..)

/-- Memory with the engine armed: STATUS written, the map clear elsewhere. -/
theorem mem_snapArmed (hwf : s.memWf) (hd : SMap.sorted s.dir = true) (hs : NoneMoves s) : (s.snapArmed p x step pa).mem.bytes pa 4 = bytesOf 4 0 ∧
    ∀ i, i < rangeLines x.ranges → (x.mapBase + i < pa ∨ pa + 4 ≤ x.mapBase + i) → (s.snapArmed p x step pa).mem.byte (x.mapBase + i) = 0#8 := by
  have hlen : (List.replicate (rangeLines x.ranges) (0#8 : Byte)).length = rangeLines x.ranges := List.length_replicate
  have hclear := engineWritten hs x.mapBase (List.replicate (rangeLines x.ranges) 0#8)
  let v := (s.engineWrite x.mapBase (List.replicate (rangeLines x.ranges) 0#8)).modPkg p fun k => { k with snap := k.snap.load x step pa .armed }
  have hv : NoneMoves v := hclear.moves
  have hpa : (v.pkg p).snap.statusPa = pa := by rw [pkg_modPkg_same]; rfl
  have harmed : (s.snapArmed p x step pa).mem = (v.engineWrite pa (bytesOf 4 0)).mem := by rw [State.snapArmed, mem_snapStatus, hpa]
  have hkeys : ∀ q, (v.pkg q).keys = ((s.engineWrite x.mapBase (List.replicate (rangeLines x.ranges) 0#8)).pkg q).keys := fun q => 
    pkgPart_modPkg Pkg.keys (f := fun k => { k with snap := k.snap.load x step pa .armed }) (fun _ => rfl) ..
  rw [harmed]
  refine ⟨bytes_engineWrite hv (hclear.wf hwf) _ (length_bytesOf ..), fun i hi hout => ?_⟩
  have hsettled : Settled v (x.mapBase + i) := by
    have h := (hclear.settles hd).2 (x.mapBase + i) (by omega) (by omega) (by rw [hlen]; unfold lineOf; omega)
    unfold Settled SameKey State.keyMat at h ⊢
    rw [hkeys]
    exact h
  have hzero := byte_engineWrite hs hwf (pa := x.mapBase) (i := i) (hlen.symm ▸ hi)
  rw [byte_engineWrite_other hv (by rwa [length_bytesOf]) (.inl hsettled)]
  exact hzero.trans (List.getElem_replicate ..)

end

/-! ## What a failure leaves (R394) -/

section
variable {s : State} {p : Nat}

theorem releaseHeld_nothing (h : (s.pkg p).snap.held = []) : (s.releaseHeld p).mem = s.mem ∧ (s.releaseHeld p).cur = s.cur ∧
    ((s.releaseHeld p).pkg p).snap = (s.pkg p).snap := by
  have hnone : s.releaseHeld p = s.modPkg p fun x => { x with snap := { x.snap with held := [] } } := by
    simp only [State.releaseHeld, h, List.foldl_nil, List.any_nil, Bool.false_eq_true, if_false]
    exact foldl_keeps _ id (fun _ _ => rfl) ..
  rw [hnone]
  refine ⟨rfl, rfl, ?_⟩
  rw [pkg_modPkg_same, ← h]

theorem snap_snapFail (s : State) (p r : Nat) : ((s.snapFail p r).pkg p).snap = { (s.pkg p).snap with state := .idle } := by
  rw [State.snapFail, pkg_modPkg_same, State.pkg, pkgs_snapStatus]
  rfl

theorem mem_snapFail (s : State) (p r : Nat) : (s.snapFail p r).mem = (s.snapStatus p (r * 256 + 3)).mem := rfl
theorem cur_snapFail (s : State) (p r : Nat) : (s.snapFail p r).cur = s.cur := cur_snapStatus ..

theorem snapCancel_clause {die : Nat} {w : Word} {d a : BitVec 6} (hk : OnKcore s die) (hw : Passes s (.snapCancel d a) w)
    (hidle : (s.pkg (die / 8)).snap.state ≠ .idle) (hheld : (s.pkg (die / 8)).snap.held = []) :
    ∃ u, exec (.snapCancel d a) s = .next u ∧ (u.pkg (die / 8)).snap.state = .idle ∧
      (s.memWf → NoneMoves s → (s.pkg (die / 8)).snap.statusPa % 4 = 0 → u.mem.bytes (s.pkg (die / 8)).snap.statusPa 4 = bytesOf 4 (3 + 256 * 5)) ∧
      (d.toNat < 32 → (u.die die).kcore.sc.reg d.toNat = 0#32) := by
  have hfail := snap_snapFail s (die / 8) 5
  obtain ⟨hmem, hcur, hsnap⟩ := releaseHeld_nothing (s := s.snapFail (die / 8) 5) (p := die / 8) (by rw [hfail]; exact hheld)
  have hdone := kcoreDone (u := (s.snapFail (die / 8) 5).releaseHeld (die / 8)) (hcur.trans ((cur_snapFail ..).trans hk.1)) s d.toNat 0 w
  refine ⟨_, exec_snapCancel_fails hk hw hidle, ?_, fun hwf hs _ => ?_, hdone.reg⟩
  · rw [hdone.pkg, hsnap, hfail]
  · rw [hdone.mem, hmem, mem_snapFail]
    exact bytes_snapStatus hs hwf ..

end

/-! ## SNAPSHOT_DRAIN_LINE, SNAPSHOT_DONE, SNAPSHOT_LOAD_COMPLETE -/

/-- The drain of line i with its image. -/
def State.drained (s : State) (p i : Nat) (bytes : List Byte) (poison : Bool) : State := s.modPkg p fun k => { k with snap := { k.snap with
  drained := SMap.put k.snap.drained i bytes
  drainPoison := if poison then k.snap.drainPoison ++ [i] else k.snap.drainPoison } }

section
variable {s : State} {p i l : Nat}

theorem exec_snapshotDrainLine (hl : rangeLine (s.pkg p).snap.ranges i = some l) (hstate : (s.pkg p).snap.state = .draining)
    (hnew : SMap.find? (s.pkg p).snap.drained i = none) (hroute : (s.pkg p).snapRoute = true) (hpoi : s.poisoned ((s.pkg p).snap.mapBase + i) = false) :
    exec (.snapshotDrainLine p i) s = .next (
      match (if decide ((s.ownByte ((s.pkg p).snap.mapBase + i)).toNat = (s.pkg p).snap.pgen) then s.shadowOf (s.pkg p).snap l else none) with
      | some (n, bytes) => if s.recordLost ((s.pkg p).snap.shadow + 160 * n) then s.snapFail p 4 else s.drained p i bytes ((s.pkg p).snap.shPoison.contains n)
      | none => (s.engineWrite ((s.pkg p).snap.mapBase + i) [BitVec.ofNat 8 (s.pkg p).snap.pgen]).drained p i (s.ownBytesAt l 128) (s.poisoned l)) := by
  change execSnapshotDrainLine .. = _
  simp only [execSnapshotDrainLine, hl, hstate, hnew, hroute, hpoi]
  rfl

theorem drained_spec (s : State) (p i : Nat) (bytes : List Byte) (poison : Bool) : SMap.find? ((s.drained p i bytes poison).pkg p).snap.drained i = some bytes ∧
    ((s.drained p i bytes poison).pkg p).snap.drainPoison = if poison then (s.pkg p).snap.drainPoison ++ [i] else (s.pkg p).snap.drainPoison := by
  rw [State.drained, pkg_modPkg_same]
  exact ⟨find_put_same .., rfl⟩

end

theorem snapshotDrainLine_clauses (s : State) (p i l : Nat) (hl : rangeLine (s.pkg p).snap.ranges i = some l) (hstate : (s.pkg p).snap.state = .draining)
    (hnew : SMap.find? (s.pkg p).snap.drained i = none) (hroute : (s.pkg p).snapRoute = true) (hpoi : s.poisoned ((s.pkg p).snap.mapBase + i) = false) (hwf : s.memWf) :
    (∀ n bs, (s.ownByte ((s.pkg p).snap.mapBase + i)).toNat = (s.pkg p).snap.pgen → s.shadowOf (s.pkg p).snap l = some (n, bs) →
      s.recordLost ((s.pkg p).snap.shadow + 160 * n) = false → ∃ u, exec (.snapshotDrainLine p i) s = .next u ∧
        SMap.find? (u.pkg p).snap.drained i = some bs ∧ u.mem = s.mem ∧ u.courses = s.courses ∧
        (u.pkg p).snap.drainPoison = if (s.pkg p).snap.shPoison.contains n then (s.pkg p).snap.drainPoison ++ [i] else (s.pkg p).snap.drainPoison) ∧
    ((s.ownByte ((s.pkg p).snap.mapBase + i)).toNat ≠ (s.pkg p).snap.pgen ∨ s.shadowOf (s.pkg p).snap l = none →
      ∃ u, exec (.snapshotDrainLine p i) s = .next u ∧ SMap.find? (u.pkg p).snap.drained i = some (s.ownBytesAt l 128) ∧ u.courses = s.courses ∧
        (NoneMoves s → SameKey s ((s.pkg p).snap.mapBase + i) (s.line ((s.pkg p).snap.mapBase + i)).key →
          ((s.pkg p).snap.pgen < 256 → (u.mem.byte ((s.pkg p).snap.mapBase + i)).toNat = (s.pkg p).snap.pgen) ∧
          ∀ a, a ≠ (s.pkg p).snap.mapBase + i → u.mem.byte a = s.mem.byte a) ∧
        (u.pkg p).snap.drainPoison = if s.poisoned l then (s.pkg p).snap.drainPoison ++ [i] else (s.pkg p).snap.drainPoison) := by
  have hexec := exec_snapshotDrainLine hl hstate hnew hroute hpoi
  refine ⟨fun n bs hmark hshadow hlost => ?_, fun hunmarked => ?_⟩
  · rw [if_pos (decide_eq_true hmark), hshadow] at hexec
    simp only [hlost, Bool.false_eq_true, if_false] at hexec
    obtain ⟨hfind, hpoison⟩ := drained_spec s p i bs ((s.pkg p).snap.shPoison.contains n)
    exact ⟨_, hexec, hfind, rfl, rfl, hpoison⟩
  · have hnone : (if decide ((s.ownByte ((s.pkg p).snap.mapBase + i)).toNat = (s.pkg p).snap.pgen) then s.shadowOf (s.pkg p).snap l else none) = none := by
      rcases hunmarked with h | h
      · rw [if_neg (by simpa using h)]
      · rw [h, ite_self]
    rw [hnone] at hexec
    have hpkg : ((s.engineWrite ((s.pkg p).snap.mapBase + i) [BitVec.ofNat 8 (s.pkg p).snap.pgen]).pkg p) = s.pkg p := by rw [State.pkg, pkgs_engineWrite]; rfl
    obtain ⟨hfind, hpoison⟩ := drained_spec (s.engineWrite ((s.pkg p).snap.mapBase + i) [BitVec.ofNat 8 (s.pkg p).snap.pgen]) p i (s.ownBytesAt l 128) (s.poisoned l)
    rw [hpkg] at hpoison
    refine ⟨_, hexec, hfind, courses_engineWrite .., fun hs hkey => ⟨fun hgen => ?_, fun a ha => ?_⟩, hpoison⟩
    · have hbyte := byte_engineWrite (i := 0) hs hwf (pa := (s.pkg p).snap.mapBase + i) (bytes := [BitVec.ofNat 8 (s.pkg p).snap.pgen]) (by simp)
      refine (congrArg BitVec.toNat hbyte).trans ?_
      simpa using Nat.mod_eq_of_lt hgen
    · refine byte_engineWrite_other hs (by simp; omega) ?_
      by_cases hline : lineOf a = lineOf ((s.pkg p).snap.mapBase + i)
      · exact .inl (settled_congr hs hs rfl (line_congr hs hline) hline hkey)
      · refine .inr ?_
        simp only [List.length_singleton]
        unfold lineOf at hline ⊢
        omega

/-- The engine of package p back to idle. -/
def State.snapIdle (s : State) (p : Nat) : State := s.modPkg p fun k => { k with snap := { k.snap with state := .idle } }

theorem state_snapIdle (s : State) (p : Nat) : ((s.snapIdle p).pkg p).snap.state = .idle := by rw [State.snapIdle, pkg_modPkg_same]

theorem snapshotDone_clause (s : State) (p : Nat) (hstate : (s.pkg p).snap.state = .draining)
    (hall : (s.pkg p).snap.drained.length = rangeLines (s.pkg p).snap.ranges)
    (hlost : ∀ i, i < (s.pkg p).snap.logRecs → s.recordLost ((s.pkg p).snap.log + 160 * i) = false) (hwf : s.memWf) (hs : NoneMoves s) :
    ∃ u m, exec (.snapshotDone p) s = .next u ∧ (u.pkg p).snap.state = .idle ∧
      u.mem.bytes (s.pkg p).snap.statusPa 4 = bytesOf 4 2 ∧ u.outbox = s.outbox ++ [m] ∧ m.bytes = s.snapImage p := by
  have hany : ((List.range (s.pkg p).snap.logRecs).any fun i => s.recordLost ((s.pkg p).snap.log + 160 * i)) = false := by
    simp only [List.any_eq_false, List.mem_range]
    exact fun i hi => by simp [hlost i hi]
  let m : OutMsg := { kind := 2, pkg := p, info := (s.pkg p).snap.target :: (s.pkg p).snap.drainPoison, bytes := s.snapImage p }
  let v : State := { s with outbox := s.outbox ++ [m] }
  have hexec : exec (.snapshotDone p) s = .next ((v.snapStatus p 2).snapIdle p) := by
    change execSnapshotDone .. = _
    simp only [execSnapshotDone, hstate, hall, hany, ne_eq, not_true_eq_false, or_self, if_false, Bool.false_eq_true]
    rfl
  exact ⟨_, m, hexec, state_snapIdle .., bytes_snapStatus (s := v) hs hwf p 2, outbox_snapStatus v p 2, rfl⟩

theorem exec_snapshotLoad_fails {s : State} {p : Nat} (hstate : (s.pkg p).snap.state = .loading) :
    exec (.snapshotLoadComplete p false [] []) s = .next ((s.snapStatus p (3 * 256 + 3)).snapIdle p) := by
  change execSnapshotLoadComplete p false [] [] s = _
  simp only [execSnapshotLoadComplete, hstate]
  rfl

theorem snapshotLoad_fails_clause (s : State) (p : Nat) (hstate : (s.pkg p).snap.state = .loading) (hwf : s.memWf) (hs : NoneMoves s)
    (hal : (s.pkg p).snap.statusPa % 4 = 0) (hkey : SameKey s (s.pkg p).snap.statusPa (s.line (s.pkg p).snap.statusPa).key) :
    ∃ u, exec (.snapshotLoadComplete p false [] []) s = .next u ∧ (u.pkg p).snap.state = .idle ∧
      u.mem.bytes (s.pkg p).snap.statusPa 4 = bytesOf 4 (3 * 256 + 3) ∧
      ∀ a, (a < (s.pkg p).snap.statusPa ∨ (s.pkg p).snap.statusPa + 4 ≤ a) → u.mem.byte a = s.mem.byte a := by
  refine ⟨_, exec_snapshotLoad_fails hstate, state_snapIdle .., bytes_snapStatus hs hwf p _, fun a ha => ?_⟩
  refine byte_engineWrite_other hs (by rwa [length_bytesOf]) ?_
  by_cases hline : lineOf a = lineOf (s.pkg p).snap.statusPa
  · exact .inl (settled_congr hs hs rfl (line_congr hs hline) hline hkey)
  · refine .inr ?_
    rw [length_bytesOf]
    unfold lineOf at hline ⊢
    omega

/-! ## A load of one range -/

theorem rangeLines_one (b n : Nat) : rangeLines [(b, 128 * n)] = n := by
  simp [rangeLines]

theorem rangeLine_one {b n i : Nat} (h : i < n) : rangeLine [(b, 128 * n)] i = some (b + 128 * i) := by
  simp [rangeLine, h]

/-- The lines of one range that other packages may hold. -/
theorem rangeShared_one (s : State) (b n : Nat) :
    s.rangeShared [(b, 128 * n)] = ((List.range n).map fun i => b + 128 * i).find? fun l => !s.unshared l := by
  have hlines : (List.range n).filterMap (rangeLine [(b, 128 * n)]) = (List.range n).map fun i => b + 128 * i := by
    rw [← List.filterMap_eq_map]
    exact List.filterMap_congr fun i hi => rangeLine_one (List.mem_range.mp hi)
  rw [State.rangeShared, rangeLines_one, hlines]

theorem snapshotLoad_shared_clause (s : State) (p b n : Nat) (image : List Byte) (j : Nat) (hstate : (s.pkg p).snap.state = .loading)
    (hranges : (s.pkg p).snap.ranges = [(b, 128 * n)]) (hj : j < n) (hshared : s.unshared (b + 128 * j) = false) :
    ∃ l', exec (.snapshotLoadComplete p true image []) s = .next (s.invalidate l') ∧ s.unshared l' = false ∧ ∃ i, i < n ∧ l' = b + 128 * i := by
  obtain ⟨l', hl'⟩ : ∃ l', s.rangeShared [(b, 128 * n)] = some l' := by
    rw [← Option.isSome_iff_exists, rangeShared_one, List.find?_isSome]
    exact ⟨_, List.mem_map.mpr ⟨j, List.mem_range.mpr hj, rfl⟩, by rw [hshared]; rfl⟩
  have hfind := hl'
  rw [rangeShared_one] at hfind
  obtain ⟨i, hi, hil⟩ := List.mem_map.mp (List.mem_of_find?_eq_some hfind)
  refine ⟨l', ?_, by simpa using List.find?_some hfind, i, List.mem_range.mp hi, hil.symm⟩
  change execSnapshotLoadComplete .. = _
  simp only [execSnapshotLoadComplete, hstate, hranges, hl']
  rfl

/-- The first k lines of an image written from b. -/
def State.imageLines (s : State) (b : Nat) (image : List Byte) (k : Nat) : State :=
  (List.range k).foldl (fun s i => s.engineWrite (b + 128 * i) ((image.drop (128 * i)).take 128)) s

/-- What the first k lines of an image leave. -/
structure ImageWritten (s u : State) (b : Nat) (image : List Byte) (k : Nat) : Prop where
  wf : u.memWf
  moves : NoneMoves u
  pkgs : u.pkgs = s.pkgs
  stored : ∀ i (hi : i < image.length), i < 128 * k → u.mem.byte (b + i) = image[i]

theorem imageWritten {s : State} (hs : NoneMoves s) (hwf : s.memWf) {b : Nat} (hb : b % 128 = 0) (image : List Byte) {k : Nat} (hk : 128 * k ≤ image.length) :
    ImageWritten s (s.imageLines b image k) b image k := by
  induction k with
  | zero => exact ⟨hwf, hs, rfl, fun i _ h => absurd h (by omega)⟩
  | succ k ih =>
    obtain ⟨hwf', hmoves, hpkgs, hstored⟩ := ih (by omega)
    let part := (image.drop (128 * k)).take 128
    have hlen : part.length = 128 := by simp only [part, List.length_take, List.length_drop]; omega
    have hstep := engineWritten hmoves (b + 128 * k) part
    have hsucc : s.imageLines b image (k + 1) = (s.imageLines b image k).engineWrite (b + 128 * k) part := by
      rw [State.imageLines, List.range_succ, List.foldl_append]
      rfl
    rw [hsucc]
    refine ⟨hstep.wf hwf', hstep.moves, hstep.pkgs.trans hpkgs, fun i hi hik => ?_⟩
    by_cases hold : i < 128 * k
    · rw [hstep.same (b + i) (.inl (by omega)) (.inr (.inl (by unfold lineOf; omega))), hstored i hi hold]
    · obtain ⟨j, hj⟩ := Nat.exists_eq_add_of_le (not_lt.mp hold)
      have hbyte := byte_engineWrite hmoves hwf' (pa := b + 128 * k) (i := j) (bytes := part) (by rw [hlen]; omega)
      subst hj
      rw [← Nat.add_assoc, hbyte]
      simp [part]

theorem exec_snapshotLoad_writes {s : State} {p b n : Nat} (hstate : (s.pkg p).snap.state = .loading) (hranges : (s.pkg p).snap.ranges = [(b, 128 * n)])
    (hun : ∀ i, i < n → s.unshared (b + 128 * i) = true) (image : List Byte) :
    exec (.snapshotLoadComplete p true image []) s = .next (((s.imageLines b image n).snapStatus p 2).snapIdle p) := by
  have hnone : s.rangeShared [(b, 128 * n)] = none := by
    rw [rangeShared_one, List.find?_eq_none]
    intro l hl
    obtain ⟨i, hi, rfl⟩ := List.mem_map.mp hl
    simp [hun i (List.mem_range.mp hi)]
  have hlines : (List.range n).foldl (fun s i => match rangeLine [(b, 128 * n)] i with
      | some l => let s := s.engineWrite l ((image.drop (128 * i)).take 128); if ([] : List Nat).contains i then s.poisonLine l false else s
      | none => s) s = s.imageLines b image n := by
    refine List.foldl_ext _ _ _ fun u i hi => ?_
    rw [rangeLine_one (List.mem_range.mp hi)]
    rfl
  change execSnapshotLoadComplete p true image [] s = _
  simp only [execSnapshotLoadComplete, hstate, hranges, hnone, rangeLines_one]
  exact congrArg (fun v : State => Host.Outcome.next ((v.snapStatus p 2).snapIdle p)) hlines

theorem snapshotLoad_writes_clause (s : State) (p b n : Nat) (image : List Byte) (hstate : (s.pkg p).snap.state = .loading) (hwf : s.memWf)
    (hranges : (s.pkg p).snap.ranges = [(b, 128 * n)]) (hb : b % 128 = 0) (hs : NoneMoves s) (hun : ∀ i, i < n → s.unshared (b + 128 * i) = true)
    (hlen : image.length = 128 * n) (hal : (s.pkg p).snap.statusPa % 4 = 0)
    (hout : (s.pkg p).snap.statusPa + 4 ≤ b ∨ b + 128 * n ≤ (s.pkg p).snap.statusPa) :
    ∃ u, exec (.snapshotLoadComplete p true image []) s = .next u ∧ (u.pkg p).snap.state = .idle ∧
      u.mem.bytes (s.pkg p).snap.statusPa 4 = bytesOf 4 2 ∧ u.mem.bytes b (128 * n) = image := by
  have hw := imageWritten hs hwf hb image hlen.ge
  have hpkg : (s.imageLines b image n).pkg p = s.pkg p := by rw [State.pkg, hw.pkgs]; rfl
  have hstatus := bytes_snapStatus hw.moves hw.wf p 2
  rw [hpkg] at hstatus
  refine ⟨_, exec_snapshotLoad_writes hstate hranges hun image, state_snapIdle .., hstatus, ?_⟩
  refine List.ext_getElem ((length_memBytes ..).trans hlen.symm) fun i _ hi => ?_
  rw [getElem_memBytes, ← hw.stored i hi (by omega)]
  refine byte_engineWrite_other hw.moves ?_ (.inr ?_)
  · rw [hpkg, length_bytesOf]; omega
  · rw [hpkg, length_bytesOf]; unfold lineOf; omega

/-- Settles O45: SNAP.ARM, SNAP.CANCEL and SNAP.LOAD by their rules, the engine's events by what its writes leave in memory. -/
theorem snapshotsComplete : Obligations.SnapshotsComplete := by
  unfold Obligations.SnapshotsComplete Spec.SnapshotInstructionsComplete Spec.SnapshotEventsComplete
  refine ⟨fun s die w d a b hk hc => ⟨fun hw => ⟨exec_snapArm_busy hk hw hc, exec_snapArm_noDesc hk hw hc, fun x pa hidle hdesc => ⟨?_, fun hin => ?_⟩⟩,
      fun hw => ⟨exec_snapCancel_idle hk hw, exec_snapCancel_fails hk hw, snapCancel_clause hk hw⟩,
      fun hw => ⟨exec_snapLoad_busy hk hw (clean_of_cons hc), exec_snapLoad_noDesc hk hw (clean_of_cons hc), fun x pa hidle hdesc => ?_⟩⟩,
    fun s p => ⟨fun i l => snapshotDrainLine_clauses s p i l, fun h1 h2 h3 h4 h5 _ => snapshotDone_clause s p h1 h2 h3 h4 h5, snapshotLoad_fails_clause s p,
      snapshotLoad_shared_clause s p, fun b n image h1 h2 h3 h4 h5 _ => snapshotLoad_writes_clause s p b n image h1 h2 h3 h4 h5⟩⟩
  · rintro ⟨i, hi, hbit, hlate⟩
    exact exec_snapArm_passed hk hw hc hidle hdesc hi hbit hlate
  · have hdone := kcoreDone (u := s.snapArmed (die / 8) x (s.gsrc false a.toNat) pa) (cur_snapArmed.trans hk.1) s d.toNat 0 w
    refine ⟨_, exec_snapArm_arms hk hw hc hidle hdesc hin, ?_, fun hwf hd hs => ?_, hdone.reg, hdone.courses.trans courses_snapArmed⟩
    · rw [hdone.pkg, snap_snapArmed]
    · rw [hdone.mem]
      exact mem_snapArmed hwf hd hs
  · have hdone := kcoreDone (u := s.modPkg (die / 8) fun k => { k with snap := k.snap.load x k.snap.step pa .loading }) hk.1 s d.toNat 0 w
    refine ⟨_, exec_snapLoad_loads hk hw (clean_of_cons hc) hidle hdesc, ?_, hdone.mem, hdone.reg⟩
    rw [hdone.pkg, pkg_modPkg_same]

end Sys2Proof.Machine

/-! # LAUNCH and LQCFG (R349-R351) -/

namespace Sys2Proof.Machine

open Sys2Proof Sys2Proof.Spec

section
variable {s : State} {die : Nat} {w : Word} {d a b q : BitVec 6}

/-- The 64-bit sources of LAUNCH. -/
abbrev launchUses (a : BitVec 6) : List (Nat × Bool) := [(a.toNat, true), (a.toNat + 2, true), (a.toNat + 4, true), (a.toNat + 6, true)]

theorem self_kcore (h : s.cur = .kcore die) : s.self = none := by
  rw [State.self, h]

/-- What acts as FENCE.REL of a control core waits for its writes to other packages alone (log 14). -/
theorem afterRelease_kcore (h : s.cur = .kcore die) (scope : Nat) (more : Nat → Bool) (go : State → Res) :
    s.afterRelease scope more go = if s.procClear then go s else .wait := by
  rw [State.afterRelease, self_kcore h]

/-- The launch that a record makes, in its queue and numbered (R349, R350). -/
def State.launched (s : State) (die q : Nat) (rec : Nat → Nat) (va arg hbase cnt : Nat) : State :=
  (s.setQueue die q { s.queue die q with entries := (s.queue die q).entries ++ [(launchOf rec va arg hbase cnt (s.queue die q) (s.die die).nextLaunch q die, 0)] }).modDie
    die fun y => { y with nextLaunch := if (s.die die).nextLaunch + 1 = 2 ^ 45 then 1 else (s.die die).nextLaunch + 1 }

/-- LAUNCH once its checks have found reason n, or none (R350). -/
def launchRule (s : State) (die : Nat) (d q : BitVec 6) (rec : Nat → Nat) (va arg hbase cnt : Nat) : Res :=
  match recordReason rec hbase cnt with
  | some r => .trap .launchErr va 0 (q.toNat * 256 + r)
  | none =>
    if !(s.queue die q.toNat).en then .done (s.gdst false d.toNat 2)
    else if 16 ≤ (s.queue die q.toNat).entries.length then .done (s.gdst false d.toNat 1)
    else .done ((s.launched die q.toNat rec va arg hbase cnt).gdst false d.toNat ((s.die die).nextLaunch % 2 ^ 24 * 256))

theorem launch_rule (hk : OnKcore s die) (hc : Clean s (launchUses a)) (hclear : s.procClear = true) {rec : Nat → Nat}
    (hrec : LaunchRecord s die (s.gsrc true a.toNat) (s.queue die q.toNat) rec) :
    exec (.launch d a q) s = s.runWord (.launch d a q) (launchRule s die d q rec (s.gsrc true a.toNat) (s.gsrc true (a.toNat + 2)) (s.gsrc true (a.toNat + 4)) (s.gsrc true (a.toNat + 6))) := by
  obtain ⟨hva, hwords⟩ := hrec
  simp only [State.gsrc] at hva hwords ⊢
  change execLaunch d a q s = _
  simp only [execLaunch, groupOp_unpoisoned hc, asKcore_eq hk.1, afterRelease_kcore hk.1, hclear, hva, hwords, if_true]
  rfl

variable (hk : OnKcore s die) (hw : Passes s (.launch d a q) w) (hc : Clean s (launchUses a))
include hk hw hc

theorem exec_launch_waits (hclear : s.procClear = false) : exec (.launch d a q) s = .next s :=
  runWord_waits (present_onKcore hk) hw (by simp [groupOp_unpoisoned hc, asKcore_eq hk.1, afterRelease_kcore hk.1, hclear])

theorem exec_launch_misaligned (hclear : s.procClear = true) (hva : s.gsrc true a.toNat % 64 ≠ 0) :
    exec (.launch d a q) s = .next (s.takeTrap .launchErr (s.gsrc true a.toNat) 0 (q.toNat * 256 + 1)) := by
  rw [State.gsrc] at hva ⊢
  exact runWord_takesTrap (present_onKcore hk) hw (by simp [groupOp_unpoisoned hc, asKcore_eq hk.1, afterRelease_kcore hk.1, hclear, hva])

theorem exec_launch_unreadable (hclear : s.procClear = true) (hva : s.gsrc true a.toNat % 64 = 0)
    (hrec : s.recordWords die (s.gsrc true a.toNat) (s.queue die q.toNat) = none) :
    exec (.launch d a q) s = .next ((s.recordLogged die (s.gsrc true a.toNat) (s.queue die q.toNat)).takeTrap .launchErr (s.gsrc true a.toNat) 0 (q.toNat * 256 + 1)) := by
  rw [State.gsrc] at hva hrec ⊢
  exact runWord_stays (present_onKcore hk) hw (by simp [groupOp_unpoisoned hc, asKcore_eq hk.1, afterRelease_kcore hk.1, hclear, hva, hrec])

end

section
variable {s : State} {die : Nat} {d q : BitVec 6} {rec : Nat → Nat} {va arg hbase cnt : Nat}

theorem launchRule_fails {n : Nat} (h : recordReason rec hbase cnt = some n) :
    launchRule s die d q rec va arg hbase cnt = .trap .launchErr va 0 (q.toNat * 256 + n) := by
  unfold launchRule
  rw [h]

theorem launchRule_disabled (h : recordReason rec hbase cnt = none) (hen : (s.queue die q.toNat).en = false) :
    launchRule s die d q rec va arg hbase cnt = .done (s.gdst false d.toNat 2) := by
  unfold launchRule
  rw [h, hen]
  rfl

theorem launchRule_full (h : recordReason rec hbase cnt = none) (hen : (s.queue die q.toNat).en = true) (hfull : 16 ≤ (s.queue die q.toNat).entries.length) :
    launchRule s die d q rec va arg hbase cnt = .done (s.gdst false d.toNat 1) := by
  unfold launchRule
  simp only [h, hen, if_pos hfull, Bool.not_true, Bool.false_eq_true, if_false]

theorem launchRule_launches (h : recordReason rec hbase cnt = none) (hen : (s.queue die q.toNat).en = true) (hroom : (s.queue die q.toNat).entries.length < 16) :
    launchRule s die d q rec va arg hbase cnt =
      .done ((s.launched die q.toNat rec va arg hbase cnt).gdst false d.toNat ((s.die die).nextLaunch % 2 ^ 24 * 256)) := by
  unfold launchRule
  simp only [h, hen, if_neg (not_le.mpr hroom), Bool.not_true, Bool.false_eq_true, if_false]

end

section
variable {s : State} {die : Nat}

theorem queue_setQueue_same (s : State) (die q : Nat) (x : LQueue) : (s.setQueue die q x).queue die q = x := by
  rw [State.queue, State.setQueue, die_modDie_same]
  exact getD_put_same ..

theorem queue_setQueue_other (s : State) (die : Nat) {q m : Nat} (x : LQueue) (h : m ≠ q) : (s.setQueue die q x).queue die m = s.queue die m := by
  rw [State.queue, State.setQueue, die_modDie_same]
  exact getD_put_other _ _ _ h

/-- Updates of a die that leave its queues alone. -/
theorem queue_modDie (s : State) (d die q : Nat) {f : Die → Die} (h : ∀ x, (f x).queues = x.queues) : (s.modDie d f).queue die q = s.queue die q := by
  unfold State.queue
  by_cases hd : die = d
  · rw [hd, die_modDie_same, h]
  · rw [die_modDie_other s f hd]

theorem queue_launched_same (s : State) (die q : Nat) (rec : Nat → Nat) (va arg hbase cnt : Nat) : ((s.launched die q rec va arg hbase cnt).queue die q).entries =
    (s.queue die q).entries ++ [(launchOf rec va arg hbase cnt (s.queue die q) (s.die die).nextLaunch q die, 0)] := by
  rw [State.launched, queue_modDie, queue_setQueue_same]
  exact fun _ => rfl

theorem queue_launched_other (s : State) (die : Nat) {q m : Nat} (h : m ≠ q) (rec : Nat → Nat) (va arg hbase cnt : Nat) :
    (s.launched die q rec va arg hbase cnt).queue die m = s.queue die m := by
  rw [State.launched, queue_modDie, queue_setQueue_other _ _ _ h]
  exact fun _ => rfl

theorem nextLaunch_launched (s : State) (die q : Nat) (rec : Nat → Nat) (va arg hbase cnt : Nat) : ((s.launched die q rec va arg hbase cnt).die die).nextLaunch =
    if (s.die die).nextLaunch + 1 = 2 ^ 45 then 1 else (s.die die).nextLaunch + 1 := by
  rw [State.launched, die_modDie_same]

theorem pc_launched (s : State) (die q : Nat) (rec : Nat → Nat) (va arg hbase cnt : Nat) : ((s.launched die q rec va arg hbase cnt).die die).kcore.pc = (s.die die).kcore.pc := by
  rw [State.launched, die_modDie_same, State.setQueue, die_modDie_same]

end

/-! ## LQCFG (R351) -/

/-- A queue's configuration as LQCFG returns it, and the queue under a new one. -/
def LQueue.config (x : LQueue) : Nat := x.asid * 2 ^ 16 + boolNat x.sec * 2 ^ 5 + boolNat x.en * 2 ^ 4 + x.prio
def LQueue.configured (x : LQueue) (v root : Nat) : LQueue :=
  { x with asid := bitsOf v 31 16, sec := v.testBit 5, en := v.testBit 4, prio := bitsOf v 2 0, root := root }

section
variable {s : State} {die : Nat} {w : Word} {d a b q : BitVec 6}
variable (hk : OnKcore s die) (hw : Passes s (.lqcfg d a b q) w) (hc : Clean s [(a.toNat, false), (b.toNat, true)])
include hk hw hc

theorem exec_lqcfg_reserved (h : bitsOf (s.gsrc false a.toNat) 15 6 ≠ 0 ∨ (s.gsrc false a.toNat).testBit 3 = true) :
    exec (.lqcfg d a b q) s = .next (s.takeTrap .illegal 0 0 (0xE4 * 2 ^ 24 + 2 * 2 ^ 20 + 3)) := by
  rw [State.gsrc] at h
  exact runWord_takesTrap (present_onKcore hk) hw (by simp only [groupOp_unpoisoned hc, asKcore_eq hk.1, if_pos h]; rfl)

theorem exec_lqcfg_notSecure (h : bitsOf (s.gsrc false a.toNat) 15 6 = 0) (h3 : (s.gsrc false a.toNat).testBit 3 = false)
    (h5 : (s.gsrc false a.toNat).testBit 5 = true) (hsec : (s.kcoreXlat die).secure = false) :
    exec (.lqcfg d a b q) s = .next (s.takeTrap .secViol 0 0 24) := by
  rw [State.gsrc] at h h3 h5
  exact runWord_takesTrap (present_onKcore hk) hw (by simp [groupOp_unpoisoned hc, asKcore_eq hk.1, h, h3, h5, hsec])

theorem exec_lqcfg_sets (h : bitsOf (s.gsrc false a.toNat) 15 6 = 0) (h3 : (s.gsrc false a.toNat).testBit 3 = false)
    (hsec : (s.gsrc false a.toNat).testBit 5 = false ∨ (s.kcoreXlat die).secure = true) :
    exec (.lqcfg d a b q) s = .next (finished s ((s.setQueue die q.toNat ((s.queue die q.toNat).configured (s.gsrc false a.toNat)
      (if b.toNat < 32 then s.gsrc true b.toNat else (s.queue die q.toNat).root))).gdst false d.toNat (s.queue die q.toNat).config) w) := by
  simp only [State.gsrc] at h h3 hsec ⊢
  have hres : ¬ (bitsOf (s.sc.src false a.toNat) 15 6 ≠ 0 ∨ (s.sc.src false a.toNat).testBit 3 = true) := by simp [h, h3]
  have hmay : ¬ ((s.sc.src false a.toNat).testBit 5 = true ∧ (!(s.kcoreXlat die).secure) = true) := by
    rcases hsec with h5 | h5 <;> simp [h5]
  exact runWord_finished (present_onKcore hk) hw (by simp only [groupOp_unpoisoned hc, asKcore_eq hk.1, if_neg hres, if_neg hmay]; rfl)

end

/-! ## The statement -/

theorem launchAndQueueSetupComplete : Spec.LaunchAndQueueSetupComplete := by
  intro s die w d a b q hk
  refine ⟨fun hw hc => ⟨exec_launch_waits hk hw hc, exec_launch_misaligned hk hw hc, exec_launch_unreadable hk hw hc, fun rec hclear hrec => ?_⟩,
    fun hw hc => ⟨fun h h3 hsec => ?_, exec_lqcfg_reserved hk hw hc, exec_lqcfg_notSecure hk hw hc⟩⟩
  · have hrule := launch_rule (d := d) hk hc hclear hrec
    refine ⟨fun n hn => ?_, fun hpass => ⟨fun hen => ?_, fun hen hfull => ?_, fun hen hroom => ?_⟩⟩
    · rw [hrule]
      exact runWord_takesTrap (present_onKcore hk) hw (launchRule_fails hn)
    · rw [hrule]
      exact runWord_finished (present_onKcore hk) hw (launchRule_disabled hpass hen)
    · rw [hrule]
      exact runWord_finished (present_onKcore hk) hw (launchRule_full hpass hen hfull)
    · have hdone := kcoreDone (u := s.launched die q.toNat rec (s.gsrc true a.toNat) (s.gsrc true (a.toNat + 2)) (s.gsrc true (a.toNat + 4)) (s.gsrc true (a.toNat + 6)))
        hk.1 s d.toNat ((s.die die).nextLaunch % 2 ^ 24 * 256) w
      refine ⟨_, hrule.trans (runWord_finished (present_onKcore hk) hw (launchRule_launches hpass hen hroom)), ?_, ?_, hdone.reg, ?_,
        hdone.mem, hdone.dev, hdone.courses, fun m hm => ?_⟩
      · rw [hdone.queue]
        exact queue_launched_same ..
      · rw [hdone.die]
        exact nextLaunch_launched ..
      · rw [hdone.pc, pc_launched]
      · rw [hdone.queue, queue_launched_other s die hm]
  · have hdone := kcoreDone (u := s.setQueue die q.toNat ((s.queue die q.toNat).configured (s.gsrc false a.toNat)
      (if b.toNat < 32 then s.gsrc true b.toNat else (s.queue die q.toNat).root))) hk.1 s d.toNat (s.queue die q.toNat).config w
    refine ⟨_, exec_lqcfg_sets hk hw hc h h3 hsec, ?_, hdone.reg, ?_, hdone.mem, fun m hm => ?_⟩
    · rw [hdone.queue, queue_setQueue_same]
      rfl
    · rw [hdone.pc, State.setQueue, die_modDie_same]
    · rw [hdone.queue, queue_setQueue_other s die _ hm]

end Sys2Proof.Machine

/-! # TSLOT (R358) -/

namespace Sys2Proof.Machine

open Sys2Proof Sys2Proof.Spec

theorem contains_setSlots (full xs : List Nat) (b : Bool) (x : Nat) : (setSlots full xs b).contains x = if x ∈ xs then b else full.contains x := by
  unfold setSlots
  cases b <;> by_cases hx : x ∈ xs <;> simp [hx]

theorem bitsOf_11_0 (x : Nat) : bitsOf x 11 0 = x % 4096 := rfl
theorem bitsOf_5_0 (x : Nat) : bitsOf x 5 0 = x % 64 := rfl
theorem bitsOf_15_0 (x : Nat) : bitsOf x 15 0 = x % 65536 := rfl

/-- The slots that TSLOT names. -/
def slotRun (first n : Nat) : List Nat := (List.range n).map fun i => first + i

/-- TSLOT's own effect on a state, for a die (R358). -/
def State.slotsSet (u : State) (die d first n : Nat) (full : Bool) : State :=
  (u.gdst false d (fullMask (u.die die).full first n)).modDie die fun y => { y with full := setSlots y.full (slotRun first n) full }

section
variable {s : State} {w : Word} {d a b : BitVec 6} {p : BitVec 2}

section
variable (hP : Present s) (hw : Passes s (.tslot d a b p) w) (hc : Clean s [(a.toNat, false), (b.toNat, false)])
include hP hw hc

theorem exec_tslot_count (h : s.gsrc false b.toNat % 64 = 0 ∨ 32 < s.gsrc false b.toNat % 64) :
    exec (.tslot d a b p) s = .next (s.takeTrap .illegal 0 0 (0xE8 * 2 ^ 24 + 3 * 2 ^ 20 + 3)) := by
  rw [State.gsrc] at h
  exact runWord_takesTrap hP hw (by simp only [groupOp_unpoisoned hc, bitsOf_5_0, eq_true h, if_true]; rfl)

theorem exec_tslot_bound (h1 : 1 ≤ s.gsrc false b.toNat % 64) (h32 : s.gsrc false b.toNat % 64 ≤ 32)
    (h : 4096 < s.gsrc false a.toNat % 4096 + s.gsrc false b.toNat % 64) :
    exec (.tslot d a b p) s = .next (s.takeTrap .illegal 0 0 (0xE8 * 2 ^ 24 + 2 * 2 ^ 20 + 3)) := by
  simp only [State.gsrc] at h h1 h32
  have hn : ¬ (s.sc.src false b.toNat % 64 = 0 ∨ 32 < s.sc.src false b.toNat % 64) := by omega
  exact runWord_takesTrap hP hw (by simp only [groupOp_unpoisoned hc, bitsOf_5_0, bitsOf_11_0, eq_false hn, eq_true h, if_false, if_true]; rfl)

end

/-- The counts and bounds of TSLOT's sources that pass its checks. -/
structure SlotsFit (s : State) (a b : BitVec 6) : Prop where
  some : 1 ≤ s.gsrc false b.toNat % 64
  most : s.gsrc false b.toNat % 64 ≤ 32
  fits : s.gsrc false a.toNat % 4096 + s.gsrc false b.toNat % 64 ≤ 4096

/-- TSLOT of a course whose sources pass. -/
theorem tslot_rule_course {k : Nat} {str : Bool} {c : Course} {t : Team} (hR : Runs s k str c t) (hc : Clean s [(a.toNat, false), (b.toNat, false)]) (hf : SlotsFit s a b) :
    exec (.tslot d a b p) s = s.runWord (.tslot d a b p)
      (let first := s.gsrc false a.toNat % 4096
       let n := s.gsrc false b.toNat % 64
       if (slotRun first n).any fun x => !inRanges t.launch x then .trap .access 0 0 1
       else if p = 0#2 then .done ((s.acquireDrop 3).gdst false d.toNat (fullMask ((s.acquireDrop 3).die (dieOfCore t.core)).full first n))
       else if t.version.isSome then .trap .versionBan 0 0 (0xE8 * 2 ^ 24)
       else s.afterRelease 3 (fun _ => true) fun u => .done (u.slotsSet (dieOfCore t.core) d.toNat first n (p == 1#2))) := by
  obtain ⟨h1, h32, hfit⟩ := hf
  simp only [State.gsrc] at h1 h32 hfit ⊢
  have hn : ¬ (s.sc.src false b.toNat % 64 = 0 ∨ 32 < s.sc.src false b.toNat % 64) := by omega
  change execTslot d a b p s = _
  simp only [execTslot, groupOp_unpoisoned hc, runs_self hR, runs_team hR, runs_cur hR, bitsOf_5_0, bitsOf_11_0, eq_false hn, eq_false (not_lt.mpr hfit), if_false]
  rfl

/-- TSLOT of a control core whose sources pass. -/
theorem tslot_rule_kcore {die : Nat} (hk : s.cur = .kcore die) (hc : Clean s [(a.toNat, false), (b.toNat, false)]) (hf : SlotsFit s a b) :
    exec (.tslot d a b p) s = s.runWord (.tslot d a b p)
      (let first := s.gsrc false a.toNat % 4096
       let n := s.gsrc false b.toNat % 64
       if p = 0#2 then .done (s.gdst false d.toNat (fullMask (s.die die).full first n))
       else if s.procClear then .done (s.slotsSet die d.toNat first n (p == 1#2)) else .wait) := by
  obtain ⟨h1, h32, hfit⟩ := hf
  simp only [State.gsrc] at h1 h32 hfit ⊢
  have hn : ¬ (s.sc.src false b.toNat % 64 = 0 ∨ 32 < s.sc.src false b.toNat % 64) := by omega
  have hdrop : s.acquireDrop 3 = s := by rw [State.acquireDrop, hk]
  change execTslot d a b p s = _
  simp only [execTslot, groupOp_unpoisoned hc, self_kcore hk, afterRelease_kcore hk, hk, hdrop, bitsOf_5_0, bitsOf_11_0, eq_false hn, eq_false (not_lt.mpr hfit), if_false]
  rfl

end

/-! ## What acts as FENCE.REL of a course, not released -/

section
variable {s : State} {k : Nat} {str : Bool} {c : Course} {t : Team}

/-- What acts as FENCE.REL begins, and holds its slot, while its slot has something left to wait for (R161). -/
theorem afterRelease_begins (hR : Runs s k str c t) (hn : NotBegun c str) {scope : Nat} {more : Nat → Bool}
    (h : (thawed s k c).released k str s.fresh scope = false ∨ more s.fresh = false) (go : State → Res) :
    s.afterRelease scope more go = .stay (fenceBegun (thawed s k c) k str) := by
  have hnot : ((thawed s k c).released k str (thawed s k c).fresh scope && more (thawed s k c).fresh) = false := by
    rw [fresh_thawed]
    rcases h with h | h <;> simp [h]
  simp only [State.afterRelease, runs_self hR]
  split
  next n hhold => exact absurd hhold (hn n).1
  next n v hhold => exact absurd hhold ((hn n).2 v)
  next => exact if_neg fun h => Bool.false_ne_true (hnot.symm.trans h)

theorem dies_thawed (s : State) (k : Nat) (c : Course) : (thawed s k c).dies = s.dies := by unfold thawed; split <;> rfl
theorem dies_marked (s : State) (k scope : Nat) : (marked s k scope).dies = s.dies := by unfold marked; split <;> rfl
theorem die_released (s : State) (k : Nat) (c : Course) (scope die : Nat) : (marked (thawed s k c) k scope).die die = s.die die := by
  rw [State.die, dies_marked, dies_thawed]
  rfl

end

/-! ## The statement's clauses -/

section
variable {s : State} {w : Word} {d a b : BitVec 6} {p : BitVec 2}

theorem tslot_course_clauses {k : Nat} {str : Bool} {c : Course} {t : Team} (hR : Runs s k str c t) (hw : Passes s (.tslot d a b p) w)
    (hc : Clean s [(a.toNat, false), (b.toNat, false)]) (hf : SlotsFit s a b) :
    let first := s.gsrc false a.toNat % 4096
    let n := s.gsrc false b.toNat % 64
    let gives (u : State) (die : Nat) : Prop := exec (.tslot d a b p) s = .next (finished s
      ((u.gdst false d.toNat (fullMask (s.die die).full first n)).modDie die fun y => { y with full := setSlots y.full (slotRun first n) (p == 1#2) }) w)
    ((∃ x ∈ slotRun first n, inRanges t.launch x = false) → exec (.tslot d a b p) s = .next (s.takeTrap .access 0 0 1)) ∧
    ((∀ x ∈ slotRun first n, inRanges t.launch x = true) → NotBegun c str →
      (p = 0#2 → exec (.tslot d a b p) s = .next (finished s ((s.dropL1 t.core).gdst false d.toNat (fullMask (s.die (dieOfCore t.core)).full first n)) w)) ∧
      (p ≠ 0#2 → t.version = none → (thawed s k c).released k str s.fresh 3 = true → gives (marked (thawed s k c) k 3) (dieOfCore t.core)) ∧
      (p ≠ 0#2 → t.version = none → (thawed s k c).released k str s.fresh 3 = false → exec (.tslot d a b p) s = .next (fenceBegun (thawed s k c) k str))) := by
  intro first n gives
  have hP : Present s := runs_curRuns hR
  have hrule := tslot_rule_course (d := d) (p := p) hR hc hf
  refine ⟨fun ⟨x, hx, hout⟩ => ?_, fun hin hn => ⟨fun hp => ?_, fun hp hv hrel => ?_, fun hp hv hrel => ?_⟩⟩
  · have hany : ((slotRun first n).any fun x => !inRanges t.launch x) = true := List.any_eq_true.mpr ⟨x, hx, by rw [hout]; rfl⟩
    rw [hrule]
    exact runWord_takesTrap hP hw (if_pos hany)
  all_goals
    have hany : ¬ ((slotRun first n).any fun x => !inRanges t.launch x) = true := by
      rw [Bool.not_eq_true, List.any_eq_false]
      exact fun x hx => by simp [hin x hx]
    dsimp only at hrule
    rw [if_neg hany] at hrule
  · rw [hrule, if_pos hp]
    have hdrop : s.acquireDrop 3 = s.dropL1 t.core := by simp [State.acquireDrop, runs_cur hR, runs_team hR]
    rw [hdrop]
    exact runWord_finished hP hw rfl
  all_goals
    rw [if_neg hp, hv] at hrule
    simp only [Option.isSome_none, Bool.false_eq_true, if_false] at hrule
  · rw [afterRelease_released hR hn hrel rfl] at hrule
    refine hrule.trans (runWord_finished hP hw ?_)
    rw [State.slotsSet, die_released]
  · rw [afterRelease_begins hR hn (.inl hrel)] at hrule
    exact hrule.trans (runWord_stays hP hw rfl)

theorem tslot_kcore_clauses {die : Nat} (hcur : s.cur = .kcore die) (hP : Present s) (hw : Passes s (.tslot d a b p) w)
    (hc : Clean s [(a.toNat, false), (b.toNat, false)]) (hf : SlotsFit s a b) :
    let first := s.gsrc false a.toNat % 4096
    let n := s.gsrc false b.toNat % 64
    (p = 0#2 → exec (.tslot d a b p) s = .next (finished s (s.gdst false d.toNat (fullMask (s.die die).full first n)) w)) ∧
    (p ≠ 0#2 → s.procClear = true → exec (.tslot d a b p) s = .next (finished s (s.slotsSet die d.toNat first n (p == 1#2)) w)) ∧
    (p ≠ 0#2 → s.procClear = false → exec (.tslot d a b p) s = .next s) := by
  intro first n
  have hrule := tslot_rule_kcore (d := d) (p := p) hcur hc hf
  refine ⟨fun hp => ?_, fun hp hclear => ?_, fun hp hclear => ?_⟩
  · exact hrule.trans (runWord_finished hP hw (if_pos hp))
  · exact hrule.trans (runWord_finished hP hw (by rw [if_neg hp, if_pos hclear]))
  · exact hrule.trans (runWord_waits hP hw (by rw [if_neg hp, hclear]; rfl))

end

end Sys2Proof.Machine

/-! # TLBI (R331, R332) -/

namespace Sys2Proof.Machine

open Sys2Proof Sys2Proof.Spec

/-! ## Accesses that are translated and not performed -/

/-- A state with no more left to perform than another: the same but for a mark in a write path, and courses that hold as they did. -/
structure NoMoreLeft (s u : State) : Prop where
  flights : u.flights = s.flights
  teams : u.teams = s.teams
  regs : ∀ a, u.xlatOf a = s.xlatOf a
  paths : ∀ kc ∈ u.cores, ∀ ki ∈ kc.2.path, ki.2 = .mark ∨ ∃ kc' ∈ s.cores, ki ∈ kc'.2.path
  courses : ∀ kc ∈ u.courses, ∃ kc' ∈ s.courses, kc.2.header.hold = kc'.2.header.hold ∧ kc.2.stretcher.hold = kc'.2.stretcher.hold ∧
    kc.2.xHeader.hold = kc'.2.xHeader.hold ∧ kc.2.xStretcher.hold = kc'.2.xStretcher.hold
  mortar : u.mortar = s.mortar
  joints : u.joints = s.joints
  pkgs : u.pkgs = s.pkgs
  copies : u.copies = s.copies

theorem translatedLeft_of_noMore {s u : State} (h : NoMoreLeft s u) {dies hit : Nat → Bool} (hs : s.translatedLeft dies hit = false) :
    u.translatedLeft dies hit = false := by
  have hasid : ∀ a, u.asidOf dies a = s.asidOf dies a := fun a => by simp only [State.asidOf, h.regs]
  simp only [State.translatedLeft, Bool.or_eq_false_iff] at hs ⊢
  obtain ⟨⟨⟨⟨⟨hflights, hcores⟩, hcourses⟩, hmortar⟩, hjoints⟩, hpkgs⟩ := hs
  simp only [h.flights, h.mortar, h.joints, h.pkgs, h.copies, hasid]
  refine ⟨⟨⟨⟨⟨hflights, ?_⟩, ?_⟩, hmortar⟩, hjoints⟩, hpkgs⟩
  · rw [List.any_eq_false] at hcores ⊢
    intro kc hkc
    rw [List.any_eq_true]
    rintro ⟨ki, hki, htouch⟩
    rcases h.paths kc hkc ki hki with hmark | ⟨kc', hkc', hki'⟩
    · rw [hmark] at htouch
      exact Bool.false_ne_true htouch
    · exact hcores kc' hkc' (List.any_eq_true.mpr ⟨ki, hki', htouch⟩)
  · rw [List.any_eq_false] at hcourses ⊢
    intro kc hkc
    obtain ⟨kc', hkc', h1, h2, h3, h4⟩ := h.courses kc hkc
    have := hcourses kc' hkc'
    simpa only [List.any_cons, List.any_nil, h1, h2, h3, h4] using this

theorem noMoreLeft_trans {s u v : State} (h : NoMoreLeft s u) (g : NoMoreLeft u v) : NoMoreLeft s v := by
  refine ⟨g.flights.trans h.flights, g.teams.trans h.teams, fun a => (g.regs a).trans (h.regs a), fun kc hkc ki hki => ?_, fun kc hkc => ?_, g.mortar.trans h.mortar,
    g.joints.trans h.joints, g.pkgs.trans h.pkgs, g.copies.trans h.copies⟩
  · rcases g.paths kc hkc ki hki with hm | ⟨kc', hkc', hki'⟩
    · exact .inl hm
    · exact h.paths kc' hkc' ki hki'
  · obtain ⟨kc', hkc', h1, h2, h3, h4⟩ := g.courses kc hkc
    obtain ⟨kc'', hkc'', g1, g2, g3, g4⟩ := h.courses kc' hkc'
    exact ⟨kc'', hkc'', h1.trans g1, h2.trans g2, h3.trans g3, h4.trans g4⟩

theorem noMoreLeft_refl (s : State) : NoMoreLeft s s :=
  ⟨rfl, rfl, fun _ => rfl, fun kc hkc _ hki => .inr ⟨kc, hkc, hki⟩, fun kc hkc => ⟨kc, hkc, rfl, rfl, rfl, rfl⟩, rfl, rfl, rfl, rfl⟩

theorem noMoreLeft_thawed (s : State) (k : Nat) (c : Course) : NoMoreLeft s (thawed s k c) := by
  unfold thawed
  split
  · refine { noMoreLeft_refl s with flights := rfl, teams := rfl, regs := fun a => by cases a <;> rfl, courses := fun kc hkc => ?_, mortar := rfl, joints := rfl, pkgs := rfl, copies := rfl, paths := ?_ }
    · exact fun kc hkc _ hki => .inr ⟨kc, hkc, hki⟩
    · obtain ⟨kc', hkc', heq⟩ := List.mem_map.mp hkc
      refine ⟨kc', hkc', ?_⟩
      rw [← heq]
      split <;> exact ⟨rfl, rfl, rfl, rfl⟩
  · exact noMoreLeft_refl s

theorem mem_core_path {s : State} {n : Nat} {ki : Nat × PathItem} (h : ki ∈ (s.core n).path) : ∃ kc ∈ s.cores, ki ∈ kc.2.path := by
  unfold State.core SMap.getD at h
  cases hf : SMap.find? s.cores n with
  | none => rw [hf] at h; exact absurd h (by simp [Core.init])
  | some x => rw [hf] at h; exact ⟨(n, x), mem_of_find hf, h⟩

theorem noMoreLeft_putMark (s : State) (path : Nat) : NoMoreLeft s (s.putMark path) := by
  refine ⟨rfl, rfl, fun a => by cases a <;> rfl, fun kc hkc ki hki => ?_, fun kc hkc => ⟨kc, hkc, rfl, rfl, rfl, rfl⟩, rfl, rfl, rfl, rfl⟩
  have hkc' : kc ∈ SMap.put s.cores path { s.core path with path := SMap.put (s.core path).path s.fresh .mark } := hkc
  rcases mem_put hkc' with heq | hold
  · rw [heq] at hki
    rcases mem_put hki with hmark | hold
    · exact .inl (by rw [hmark])
    · exact .inr (mem_core_path hold)
  · exact .inr ⟨kc, hold, hki⟩

theorem noMoreLeft_released (s : State) (k : Nat) (c : Course) (scope : Nat) : NoMoreLeft s (marked (thawed s k c) k scope) := by
  refine noMoreLeft_trans (noMoreLeft_thawed s k c) ?_
  unfold marked
  split
  · exact noMoreLeft_refl _
  · exact noMoreLeft_putMark ..

/-! ## The rule -/

/-- The dies of a TLBI's scope (R331). -/
def tlbiDies (sc : BitVec 1) (die : Nat) : List Nat := if sc = 0#1 then [die] else (List.range 8).map fun i => die / 8 * 8 + i

section
variable {s : State} {w : Word} {a b : BitVec 6} {sc : BitVec 1} {f : BitVec 2}

theorem tlbi_rule_kcore {die : Nat} (hk : s.cur = .kcore die) (hc : Clean s (tlbiUses a b f)) {hit : Nat → Bool}
    (hhit : ∀ x, hit x = (decide (f = 0#2) || decide (x = s.gsrc false a.toNat % 65536))) :
    exec (.tlbi a b sc f) s = s.runWord (.tlbi a b sc f)
      (if s.procClear then (if s.translatedLeft (tlbiDies sc die).contains hit then .wait
        else .done (s.dropTlb (tlbiDies sc die) hit (if f = 2#2 then some (s.gsrc true b.toNat) else none))) else .wait) := by
  have hhit' : hit = fun x => (decide (f = 0#2) || decide (x = s.sc.src false a.toNat % 65536)) := funext hhit
  have hx : s.xlatOf (.kcore die) = some (s.kcoreXlat die) := rfl
  have hdie : (s.kcoreXlat die).die = die := rfl
  change execTlbi a b sc f s = _
  simp only [execTlbi, groupOp_unpoisoned hc, self_kcore hk, afterRelease_kcore hk, hk, hx, hdie, hhit', bitsOf_15_0, Option.getD_none, Option.isNone_none, Bool.and_true]
  rfl

theorem tlbi_rule_course {k : Nat} {str : Bool} {c : Course} {t : Team} (hR : Runs s k str c t) (hc : Clean s (tlbiUses a b f)) {hit : Nat → Bool}
    (hhit : ∀ x, hit x = decide (x = t.launch.asid)) :
    exec (.tlbi a b sc f) s = s.runWord (.tlbi a b sc f)
      (s.afterRelease 3 (fun _ => !s.translatedLeft (tlbiDies sc (dieOfCore t.core)).contains hit) fun u =>
        if u.translatedLeft (tlbiDies sc (dieOfCore t.core)).contains hit then .wait
        else .done (u.dropTlb (tlbiDies sc (dieOfCore t.core)) hit (if f = 2#2 then some (s.gsrc true b.toNat) else none))) := by
  have hhit' : hit = fun x => decide (x = t.launch.asid) := funext hhit
  have hx : s.xlatOf (.course k str) = some t.xlat := by rw [State.xlatOf, runs_team hR]; rfl
  change execTlbi a b sc f s = _
  simp only [execTlbi, groupOp_unpoisoned hc, runs_self hR, runs_team hR, runs_cur hR, hx, hhit', Option.map_some, Option.getD_some, Option.isNone_some, Bool.and_false, Bool.false_or]
  rfl

end

/-! ## What leaves the TLBs (R330) -/

/-- What a TLBI keeps of a TLB. -/
def tlbKept (hit : Nat → Bool) (va : Option Nat) (x : TlbEntry) : Bool :=
  !(hit x.asid && (match va with | some v => decide (x.va = v / 2 ^ x.size) | none => true))

theorem tlb_foldl_modDie (keep : TlbEntry → Bool) (dies : List Nat) (s : State) :
    (∀ e ∈ dies, ((dies.foldl (fun s d => s.modDie d fun y => { y with tlb := y.tlb.filter keep }) s).die e).tlb = (s.die e).tlb.filter keep) ∧
    ∀ e, e ∉ dies → (dies.foldl (fun s d => s.modDie d fun y => { y with tlb := y.tlb.filter keep }) s).die e = s.die e := by
  induction dies generalizing s with
  | nil => exact ⟨fun e he => absurd he List.not_mem_nil, fun _ _ => rfl⟩
  | cons d dies ih =>
    obtain ⟨hin, hout⟩ := ih (s.modDie d fun y => { y with tlb := y.tlb.filter keep })
    rw [List.foldl_cons]
    refine ⟨fun e he => ?_, fun e he => ?_⟩
    · by_cases hmem : e ∈ dies
      · rw [hin e hmem]
        by_cases hd : e = d
        · rw [hd, die_modDie_same]; simp
        · rw [die_modDie_other _ _ hd]
      · rw [hout e hmem, (List.mem_cons.mp he).resolve_right hmem, die_modDie_same]
    · obtain ⟨hd, hmem⟩ := not_or.mp (fun h => he (List.mem_cons.mpr h))
      rw [hout e hmem, die_modDie_other _ _ hd]

theorem find_mapKeyed {α : Type} (g : Nat → α → α) (m : SMap α) (n : Nat) :
    SMap.find? (List.map (fun (kv : Nat × α) => (kv.1, g kv.1 kv.2)) m) n = (SMap.find? m n).map (g n) := by
  induction m with
  | nil => rfl
  | cons kv m ih =>
    obtain ⟨k, v⟩ := kv
    rw [List.map_cons, SMap.find?, SMap.find?]
    split
    · next h => rw [h]; rfl
    · exact ih

/-- The TLB of a core or a quad in the dies of a TLBI. -/
def Core.tlbDropped (x : Core) (keep : TlbEntry → Bool) (b : Bool) : Core := if b then { x with tlb := x.tlb.filter keep } else x
def Quad.tlbDropped (x : Quad) (keep : TlbEntry → Bool) (b : Bool) : Quad := if b then { x with tlb := x.tlb.filter keep } else x

theorem cores_dropTlb (s : State) (dies : List Nat) (hit : Nat → Bool) (va : Option Nat) : (s.dropTlb dies hit va).cores =
    s.cores.map fun (kc : Nat × Core) => (kc.1, kc.2.tlbDropped (tlbKept hit va) (dies.contains (dieOfCore kc.1))) := by
  have hcores : (dies.foldl (fun s d => s.modDie d fun y => { y with tlb := y.tlb.filter (tlbKept hit va) }) s).cores = s.cores :=
    foldl_keeps _ State.cores (fun _ _ => modDie_cores ..) dies s
  rw [← hcores]
  refine List.map_congr_left fun kc _ => ?_
  unfold Core.tlbDropped
  split <;> rfl

theorem quads_dropTlb (s : State) (dies : List Nat) (hit : Nat → Bool) (va : Option Nat) : (s.dropTlb dies hit va).quads =
    s.quads.map fun (kq : Nat × Quad) => (kq.1, kq.2.tlbDropped (tlbKept hit va) (dies.contains (kq.1 / 24))) := by
  have hquads : (dies.foldl (fun s d => s.modDie d fun y => { y with tlb := y.tlb.filter (tlbKept hit va) }) s).quads = s.quads :=
    foldl_keeps _ State.quads (fun _ _ => modDie_quads ..) dies s
  rw [← hquads]
  refine List.map_congr_left fun kq _ => ?_
  unfold Quad.tlbDropped
  split <;> rfl

theorem tlbs_dropTlb (s : State) (dies : List Nat) (hit : Nat → Bool) (va : Option Nat) :
    (∀ e ∈ dies, ((s.dropTlb dies hit va).die e).tlb = (s.die e).tlb.filter (tlbKept hit va)) ∧
    (∀ e, e ∉ dies → (s.dropTlb dies hit va).die e = s.die e) ∧
    (∀ n, ((s.dropTlb dies hit va).core n).tlb = if dieOfCore n ∈ dies then (s.core n).tlb.filter (tlbKept hit va) else (s.core n).tlb) ∧
    (∀ n, ((s.dropTlb dies hit va).quad n).tlb = if n / 24 ∈ dies then (s.quad n).tlb.filter (tlbKept hit va) else (s.quad n).tlb) := by
  obtain ⟨hin, hout⟩ := tlb_foldl_modDie (tlbKept hit va) dies s
  refine ⟨hin, hout, fun n => ?_, fun n => ?_⟩
  · rw [State.core, SMap.getD, cores_dropTlb, find_mapKeyed (fun n x => Core.tlbDropped x (tlbKept hit va) (dies.contains (dieOfCore n)))]
    unfold State.core SMap.getD
    cases SMap.find? s.cores n with
    | none => simp [Core.init]
    | some x => simp only [Option.map_some, Option.getD_some, Core.tlbDropped, List.contains_iff_mem]; split <;> rfl
  · rw [State.quad, SMap.getD, quads_dropTlb, find_mapKeyed (fun n x => Quad.tlbDropped x (tlbKept hit va) (dies.contains (n / 24)))]
    unfold State.quad SMap.getD
    cases SMap.find? s.quads n with
    | none => simp [Quad.init]
    | some x => simp only [Option.map_some, Option.getD_some, Quad.tlbDropped, List.contains_iff_mem]; split <;> rfl

theorem kcore_dropTlb (s : State) (dies : List Nat) (hit : Nat → Bool) (va : Option Nat) (e : Nat) : ((s.dropTlb dies hit va).die e).kcore = (s.die e).kcore := by
  refine foldl_keeps (fun s d => State.modDie s d fun y => { y with tlb := y.tlb.filter (tlbKept hit va) }) (fun u => (u.die e).kcore) (fun u d => ?_) dies s
  by_cases h : e = d
  · rw [h, die_modDie_same]
  · rw [die_modDie_other _ _ h]

/-- A TLBI's filter as the statement writes it. -/
theorem tlbKept_eq (hit : Nat → Bool) (f : BitVec 2) (v : Nat) (x : TlbEntry) : tlbKept hit (if f = 2#2 then some v else none) x =
    !(hit x.asid && (decide (f ≠ 2#2) || decide (x.va = v / 2 ^ x.size))) := by
  unfold tlbKept
  split <;> simp_all

/-! ## The statement's clauses -/

theorem tlbi_kcore_clauses (s : State) (die : Nat) (w : Word) (a b : BitVec 6) (sc : BitVec 1) (f : BitVec 2) (hk : OnKcore s die) (hw : Passes s (.tlbi a b sc f) w)
    (hc : Clean s (tlbiUses a b f)) :
    let hit (x : Nat) : Bool := decide (f = 0#2) || decide (x = s.gsrc false a.toNat % 65536)
    let keep (x : TlbEntry) : Bool := !(hit x.asid && (decide (f ≠ 2#2) || decide (x.va = s.gsrc true b.toNat / 2 ^ x.size)))
    (s.procClear = true → s.translatedLeft (tlbiDies sc die).contains hit = false → ∃ u, exec (.tlbi a b sc f) s = .next u ∧ u.mem = s.mem ∧
      (u.die die).kcore.pc = nextPc (s.die die).kcore.pc ∧ (∀ e ∈ tlbiDies sc die, (u.die e).tlb = (s.die e).tlb.filter keep) ∧ (∀ e, e ∉ tlbiDies sc die → u.die e = s.die e) ∧
      (∀ n, (u.core n).tlb = if dieOfCore n ∈ tlbiDies sc die then (s.core n).tlb.filter keep else (s.core n).tlb) ∧
      (∀ n, (u.quad n).tlb = if n / 24 ∈ tlbiDies sc die then (s.quad n).tlb.filter keep else (s.quad n).tlb)) ∧
    ((s.procClear = false ∨ s.translatedLeft (tlbiDies sc die).contains hit = true) → exec (.tlbi a b sc f) s = .next s) := by
  intro hit keep
  have hrule := tlbi_rule_kcore (sc := sc) hk.1 hc (hit := hit) fun _ => rfl
  refine ⟨fun hclear hleft => ?_, fun hwait => ?_⟩
  · let u := s.dropTlb (tlbiDies sc die) hit (if f = 2#2 then some (s.gsrc true b.toNat) else none)
    rw [if_pos hclear, hleft] at hrule
    obtain ⟨hin, hout, hcore, hquad⟩ := tlbs_dropTlb s (tlbiDies sc die) hit (if f = 2#2 then some (s.gsrc true b.toNat) else none)
    have hkeep : tlbKept hit (if f = 2#2 then some (s.gsrc true b.toNat) else none) = keep := funext fun x => tlbKept_eq ..
    rw [hkeep] at hin hcore hquad
    have hucur : u.cur = .kcore die := (foldl_keeps _ State.cur (fun _ _ => modDie_cur ..) ..).trans hk.1
    have humem : u.mem = s.mem := foldl_keeps _ State.mem (fun _ _ => modDie_mem ..) ..
    have hmine : die ∈ tlbiDies sc die := by
      unfold tlbiDies
      split
      · exact List.mem_singleton.mpr rfl
      · exact List.mem_map.mpr ⟨die % 8, List.mem_range.mpr (Nat.mod_lt _ (by omega)), by omega⟩
    have hpc : (u.die die).kcore = (s.die die).kcore := kcore_dropTlb ..
    refine ⟨_, hrule.trans (runWord_finished (present_onKcore hk) hw rfl), ?_, ?_, fun e he => ?_, fun e he => ?_, fun n => ?_, fun n => ?_⟩
    all_goals rw [finished_kcore hucur]
    · exact humem
    · rw [die_modDie_same, hpc]
      rfl
    · rw [die_modKcore]
      exact hin e he
    · rw [die_modDie_other _ _ (fun h => he (by rw [h]; exact hmine))]
      exact hout e he
    · exact hcore n
    · exact hquad n
  · have hnot : (if s.procClear then (if s.translatedLeft (tlbiDies sc die).contains hit then Res.wait
        else .done (s.dropTlb (tlbiDies sc die) hit (if f = 2#2 then some (s.gsrc true b.toNat) else none))) else .wait) = .wait := by
      rcases hwait with h | h
      · rw [h]; rfl
      · rw [h]; exact ite_self _
    exact hrule.trans (runWord_waits (present_onKcore hk) hw hnot)

theorem tlbi_course_clauses (s : State) (k : Nat) (str : Bool) (c : Course) (t : Team) (w : Word) (a b : BitVec 6) (sc : BitVec 1) (f : BitVec 2) (hR : Runs s k str c t)
    (hw : Passes s (.tlbi a b sc f) w) (hc : Clean s (tlbiUses a b f)) (hn : NotBegun c str) :
    let hit (x : Nat) : Bool := decide (x = t.launch.asid)
    let dies := tlbiDies sc (dieOfCore t.core)
    ((thawed s k c).released k str s.fresh 3 = true → s.translatedLeft dies.contains hit = false →
      exec (.tlbi a b sc f) s = .next (finished s ((marked (thawed s k c) k 3).dropTlb dies hit (if f = 2#2 then some (s.gsrc true b.toNat) else none)) w)) ∧
    (((thawed s k c).released k str s.fresh 3 = false ∨ s.translatedLeft dies.contains hit = true) →
      exec (.tlbi a b sc f) s = .next (fenceBegun (thawed s k c) k str)) := by
  intro hit dies
  have hrule := tlbi_rule_course (sc := sc) hR hc (hit := hit) fun _ => rfl
  refine ⟨fun hrel hleft => ?_, fun hwait => ?_⟩
  · rw [afterRelease_released hR hn hrel (by rw [hleft]; rfl), translatedLeft_of_noMore (noMoreLeft_released ..) hleft] at hrule
    exact hrule.trans (runWord_finished (runs_curRuns hR) hw rfl)
  · rw [afterRelease_begins hR hn (hwait.imp_right fun h => by rw [h]; rfl)] at hrule
    exact hrule.trans (runWord_stays (runs_curRuns hR) hw rfl)

end Sys2Proof.Machine

/-! # KEYLD, MIGR.CPY and MIGR.END (R336-R343) -/

namespace Sys2Proof.Machine

open Sys2Proof Sys2Proof.Spec

theorem tileSlotAndTlbInstructionsComplete : Spec.TileSlotAndTlbInstructionsComplete := by
  refine ⟨contains_setSlots, fun s w d a b p hP hw hc => ⟨exec_tslot_count hP hw hc, exec_tslot_bound hP hw hc, fun h1 h32 hfit =>
      ⟨fun k str c t hR => tslot_course_clauses hR hw hc ⟨h1, h32, hfit⟩, fun die hcur => tslot_kcore_clauses hcur hP hw hc ⟨h1, h32, hfit⟩⟩⟩,
    fun s die w a b sc f hk hw hc => tlbi_kcore_clauses s die w a b sc f hk hw hc,
    fun s k str c t w a b sc f hR hw hc hn => tlbi_course_clauses s k str c t w a b sc f hR hw hc hn⟩

/-! ## KEYLD (R343) -/

section
variable {s : State} {die : Nat} {w : Word} {d a b : BitVec 6} {x : BitVec 1} {p : BitVec 2}

/-- A key set once no other package holds a line that its id tags (R325). -/
def State.keySet (s : State) (pkg id d : Nat) (k : Option KeyState) : Res :=
  match (s.taggedLines pkg id).find? fun l => !s.unshared (128 * l) with
  | some l => .stay (s.invalidate (128 * l))
  | none => .done ((s.setKey pkg id k).gdst false d 0)

theorem keySet_home {pkg id d : Nat} {k : Option KeyState} (h : ∀ l ∈ s.taggedLines pkg id, s.unshared (128 * l) = true) :
    s.keySet pkg id d k = .done ((s.setKey pkg id k).gdst false d 0) := by
  have hnone : (s.taggedLines pkg id).find? (fun l => !s.unshared (128 * l)) = none := List.find?_eq_none.mpr fun l hl => by simp [h l hl]
  rw [State.keySet, hnone]

/-- KEYLD's rule for a control core whose sources are unpoisoned. -/
theorem keyld_rule (hk : OnKcore s die) (hc : Clean s [(a.toNat, false)]) (hc' : p = 0#2 → Clean s [(a.toNat, false), (b.toNat, true)]) :
    exec (.keyld d a b x p) s = s.runWord (.keyld d a b x p)
      (let key (m : Nat) : KeyState := { valid := true, secure := x == 1#1, mat := m }
       let id := s.gsrc false a.toNat
       if !(s.kcoreXlat die).secure then .trap .secViol 0 0 24
       else if 4096 ≤ id then .done (s.gdst false d.toNat 2)
       else match p.toNat with
       | 0 => (match s.keyBytes (s.gsrc true b.toNat) with
         | .inr r => r
         | .inl (bs, sec) =>
           if !sec then .done (s.gdst false d.toNat 3)
           else if bs.take 32 = bs.drop 32 then .done (s.gdst false d.toNat 1)
           else s.keySet (die / 8) id d.toNat (some (key (2 * ofBytes bs + 2))))
       | 1 => s.tick.keySet (die / 8) id d.toNat (some (key (2 * s.fresh + 1)))
       | _ => s.keySet (die / 8) id d.toNat none) := by
  have huses : Clean s ([(a.toNat, false)] ++ if p = 0#2 then [(b.toNat, true)] else []) := by
    split
    · next hp => exact hc' hp
    · exact hc
  change execKeyld d a b x p s = _
  simp only [execKeyld, groupOp_unpoisoned huses, asKcore_eq hk.1]
  rfl

/-- The forms of KEYLD that take a key away. -/
theorem otherKeyld {p : BitVec 2} (h0 : p ≠ 0#2) (h1 : p ≠ 1#2) : p = 2#2 ∨ p = 3#2 := by revert p; decide

theorem keyld_clauses (hk : OnKcore s die) (hw : Passes s (.keyld d a b x p) w) (hc : Clean s [(a.toNat, false)]) (hc' : p = 0#2 → Clean s [(a.toNat, false), (b.toNat, true)]) :
    let id := s.gsrc false a.toNat
    let key (m : Nat) : KeyState := { valid := true, secure := x == 1#1, mat := m }
    let gives (u : State) (n : Nat) : Prop := exec (.keyld d a b x p) s = .next (finished s (u.gdst false d.toNat n) w)
    let home : Prop := ∀ l ∈ s.taggedLines (die / 8) id, s.unshared (128 * l) = true
    ((s.kcoreXlat die).secure = false → exec (.keyld d a b x p) s = .next (s.takeTrap .secViol 0 0 24)) ∧
    ((s.kcoreXlat die).secure = true →
      (4096 ≤ id → gives s 2) ∧
      (id < 4096 → p = 1#2 → home → gives (s.tick.setKey (die / 8) id (some (key (2 * s.fresh + 1)))) 0) ∧
      (id < 4096 → p ≠ 0#2 → p ≠ 1#2 → home → gives (s.setKey (die / 8) id none) 0) ∧
      (∀ l, id < 4096 → p ≠ 0#2 → p ≠ 1#2 → (s.taggedLines (die / 8) id).find? (fun l => !s.unshared (128 * l)) = some l →
        exec (.keyld d a b x p) s = .next (s.invalidate (128 * l))) ∧
      (∀ bs sec, id < 4096 → p = 0#2 → s.keyBytes (s.gsrc true b.toNat) = .inl (bs, sec) →
        (sec = false → gives s 3) ∧ (sec = true → bs.take 32 = bs.drop 32 → gives s 1) ∧
        (sec = true → bs.take 32 ≠ bs.drop 32 → home → gives (s.setKey (die / 8) id (some (key (2 * ofBytes bs + 2)))) 0))) := by
  intro id key gives home
  have hP := present_onKcore hk
  have hrule := keyld_rule (d := d) (x := x) hk hc hc'
  dsimp only at hrule
  refine ⟨fun hsec => ?_, fun hsec => ?_⟩
  · exact hrule.trans (runWord_takesTrap hP hw (by rw [hsec]; rfl))
  rw [hsec] at hrule
  simp only [Bool.not_true, Bool.false_eq_true, if_false] at hrule
  refine ⟨fun hid => ?_, fun hid hp hhome => ?_, fun hid h0 h1 hhome => ?_, fun l hid h0 h1 hl => ?_, fun bs sec hid hp hbytes => ?_⟩
  · exact hrule.trans (runWord_finished hP hw (if_pos hid))
  all_goals rw [if_neg (not_le.mpr hid)] at hrule
  · subst hp
    exact hrule.trans (runWord_finished hP hw (keySet_home (s := s.tick) hhome))
  · rcases otherKeyld h0 h1 with rfl | rfl <;> exact hrule.trans (runWord_finished hP hw (keySet_home hhome))
  · have hshared : s.keySet (die / 8) id d.toNat none = .stay (s.invalidate (128 * l)) := by rw [State.keySet, hl]
    rcases otherKeyld h0 h1 with rfl | rfl <;> exact hrule.trans (runWord_stays hP hw hshared)
  · subst hp
    refine ⟨fun hsec => ?_, fun hsec heq => ?_, fun hsec hne hhome => ?_⟩
    · exact hrule.trans (runWord_finished hP hw (by simp [hbytes, hsec]))
    · exact hrule.trans (runWord_finished hP hw (by simp [hbytes, hsec, heq]))
    · have hset : s.keySet (die / 8) id d.toNat (some (key (2 * ofBytes bs + 2))) = _ := keySet_home hhome
      exact hrule.trans (runWord_finished hP hw (by simp only [BitVec.toNat_ofNat, hbytes, hsec, if_neg hne]; exact hset))

end

/-! ## MIGR.CPY and MIGR.END (R337, R338) -/

/-- The bytes of a frame size code. -/
theorem migrSize_eq (z : BitVec 2) : migrSize z.toNat = if z = 0#2 then 2 ^ 16 else if z = 1#2 then 2 ^ 21 else 2 ^ 30 := by
  have hz : z = 0#2 ∨ z = 1#2 ∨ z = 2#2 ∨ z = 3#2 := by revert z; decide
  rcases hz with rfl | rfl | rfl | rfl <;> rfl

/-- A migration of these frames, finished or not. -/
def Migration.isOf (m : Migration) (old new n : Nat) (done : Bool) : Bool := decide (m.old = old) && decide (m.new = new) && decide (m.size = n) && (m.done == done)

section
variable {s : State} {die : Nat} {w : Word} {d a b : BitVec 6} {z : BitVec 2}

/-- The control core of a die that waits for the lines of a new migration. -/
def State.migrBegun (s : State) (die old new n : Nat) : State :=
  (s.modDie die fun y => { y with migrations := y.migrations ++ [{ old := old, new := new, size := n, moved := 0, poisoned := false, done := false }],
                                  kcore := { y.kcore with hold := .fence s.fresh } }).tick

theorem die_migrBegun (s : State) (die old new n : Nat) : (s.migrBegun die old new n).die die = { s.die die with
    migrations := (s.die die).migrations ++ [{ old := old, new := new, size := n, moved := 0, poisoned := false, done := false }]
    kcore := { (s.die die).kcore with hold := .fence s.fresh } } := by
  have htick : (s.migrBegun die old new n).die die = (s.modDie die fun y => { y with
    migrations := y.migrations ++ [{ old := old, new := new, size := n, moved := 0, poisoned := false, done := false }]
    kcore := { y.kcore with hold := .fence s.fresh } }).die die := rfl
  rw [htick, die_modDie_same]

/-- The migrations of these frames finished. -/
def State.migrFinished (s : State) (die old new n : Nat) : State :=
  s.modDie die fun y => { y with migrations := y.migrations.map fun x => if x.isOf old new n false then { x with done := true } else x }

theorem migrCpy_rule (hk : OnKcore s die) (hc : Clean s [(a.toNat, true), (b.toNat, true)]) :
    exec (.migrCpy d a b z) s = s.runWord (.migrCpy d a b z)
      (let old := s.gsrc true a.toNat
       let new := s.gsrc true b.toNat
       let n := migrSize z.toNat
       match (s.die die).migrations.find? fun m => m.isOf old new n false with
       | some m =>
         if 128 * m.moved < n then .wait
         else .done ((s.migrFinished die old new n).gdst false d.toNat (if m.poisoned then 3 else 0))
       | none =>
         if 4 ≤ (s.die die).migrations.length then .done (s.gdst false d.toNat 1)
         else if s.migrRefused old new n then .done (s.gdst false d.toNat 2)
         else .stay (s.migrBegun die old new n)) := by
  have hmine : ∀ (m : Migration) old new n, (decide (m.old = old) && decide (m.new = new) && decide (m.size = n) && !m.done) = m.isOf old new n false := fun m _ _ _ => by
    unfold Migration.isOf
    cases m.done <;> rfl
  change execMigrCpy d a b z s = _
  simp only [execMigrCpy, groupOp_unpoisoned hc, asKcore_eq hk.1, hmine]
  rfl

theorem migrEnd_rule (hk : OnKcore s die) (hc : Clean s [(a.toNat, true), (b.toNat, true)]) :
    exec (.migrEnd d a b z) s = s.runWord (.migrEnd d a b z)
      (let old := s.gsrc true a.toNat
       let new := s.gsrc true b.toNat
       let n := migrSize z.toNat
       if (s.die die).migrations.any fun m => m.isOf old new n true then
         .done ((s.modDie die fun y => { y with migrations := y.migrations.filter fun m => !m.isOf old new n true }).gdst false d.toNat 0)
       else .done (s.gdst false d.toNat 2)) := by
  have hmine : ∀ (m : Migration) old new n, (decide (m.old = old) && decide (m.new = new) && decide (m.size = n) && m.done) = m.isOf old new n true := fun m _ _ _ => by
    unfold Migration.isOf
    cases m.done <;> rfl
  change execMigrEnd d a b z s = _
  simp only [execMigrEnd, groupOp_unpoisoned hc, asKcore_eq hk.1, hmine]
  rfl

/-- No migration of these frames is unfinished once they are finished. -/
theorem isOf_migrFinished {old new n : Nat} {m : Migration} (h : m ∈ ((s.migrFinished die old new n).die die).migrations) : m.isOf old new n false = false := by
  rw [State.migrFinished, die_modDie_same] at h
  obtain ⟨m', -, heq⟩ := List.mem_map.mp h
  rw [← heq]
  split
  · simp [Migration.isOf]
  · next hnot => simpa using hnot

theorem migrCpy_clauses (hk : OnKcore s die) (hw : Passes s (.migrCpy d a b z) w) (hc : Clean s [(a.toNat, true), (b.toNat, true)]) :
    let old := s.gsrc true a.toNat
    let new := s.gsrc true b.toNat
    let n := migrSize z.toNat
    let ms := (s.die die).migrations
    let gives (v : Nat) : Prop := exec (.migrCpy d a b z) s = .next (finished s (s.gdst false d.toNat v) w)
    ((∀ m ∈ ms, m.isOf old new n false = false) →
      (4 ≤ ms.length → gives 1) ∧
      (ms.length < 4 → s.migrRefused old new n = true → gives 2) ∧
      (ms.length < 4 → s.migrRefused old new n = false → ∃ u, exec (.migrCpy d a b z) s = .next u ∧
        (u.die die).migrations = ms ++ [{ old := old, new := new, size := n, moved := 0, poisoned := false, done := false }] ∧
        (u.die die).kcore.pc = (s.die die).kcore.pc ∧ u.mem = s.mem)) ∧
    (∀ m, ms.find? (fun m => m.isOf old new n false) = some m →
      (128 * m.moved < n → exec (.migrCpy d a b z) s = .next s) ∧
      (n ≤ 128 * m.moved → ∃ u, exec (.migrCpy d a b z) s = .next u ∧ (u.die die).kcore.pc = nextPc (s.die die).kcore.pc ∧
        (∀ m' ∈ (u.die die).migrations, m'.isOf old new n false = false) ∧ u.mem = s.mem ∧
        (d.toNat < 32 → (u.die die).kcore.sc.reg d.toNat = if m.poisoned then 3#32 else 0#32))) := by
  intro old new n ms gives
  have hP := present_onKcore hk
  have hrule := migrCpy_rule (d := d) (z := z) hk hc
  dsimp only at hrule
  refine ⟨fun hnew => ?_, fun m hm => ⟨fun hleft => ?_, fun hall => ?_⟩⟩
  · have hnone : ms.find? (fun m => m.isOf old new n false) = none := List.find?_eq_none.mpr fun m hm => by simp [hnew m hm]
    rw [hnone] at hrule
    refine ⟨fun hfull => ?_, fun hroom href => ?_, fun hroom href => ?_⟩
    · exact hrule.trans (runWord_finished hP hw (if_pos hfull))
    · exact hrule.trans (runWord_finished hP hw (by rw [if_neg (not_le.mpr hroom), if_pos href]))
    · refine ⟨s.migrBegun die old new n, hrule.trans (runWord_stays hP hw (by rw [if_neg (not_le.mpr hroom), href]; rfl)), ?_, ?_, rfl⟩
      · rw [die_migrBegun]
      · rw [die_migrBegun]
  · rw [hm] at hrule
    exact hrule.trans (runWord_waits hP hw (if_pos hleft))
  · rw [hm] at hrule
    have hdone := kcoreDone (u := s.migrFinished die old new n) hk.1 s d.toNat (if m.poisoned then 3 else 0) w
    refine ⟨_, hrule.trans (runWord_finished hP hw (if_neg (not_lt.mpr hall))), ?_, fun m' hm' => ?_, hdone.mem, fun hd => ?_⟩
    · rw [hdone.pc, State.migrFinished, die_modDie_same]
    · rw [hdone.die] at hm'
      exact isOf_migrFinished hm'
    · rw [hdone.reg hd]
      split <;> rfl

theorem migrEnd_clauses (hk : OnKcore s die) (hw : Passes s (.migrEnd d a b z) w) (hc : Clean s [(a.toNat, true), (b.toNat, true)]) :
    let old := s.gsrc true a.toNat
    let new := s.gsrc true b.toNat
    let n := migrSize z.toNat
    let ms := (s.die die).migrations
    ((∃ m ∈ ms, m.isOf old new n true = true) → ∃ u, exec (.migrEnd d a b z) s = .next u ∧ (u.die die).migrations = ms.filter (fun m => !m.isOf old new n true) ∧ u.mem = s.mem ∧
      (d.toNat < 32 → (u.die die).kcore.sc.reg d.toNat = 0#32)) ∧
    ((∀ m ∈ ms, m.isOf old new n true = false) → exec (.migrEnd d a b z) s = .next (finished s (s.gdst false d.toNat 2) w)) := by
  intro old new n ms
  have hP := present_onKcore hk
  have hrule := migrEnd_rule (d := d) (z := z) hk hc
  dsimp only at hrule
  refine ⟨fun ⟨m, hm, his⟩ => ?_, fun hnone => ?_⟩
  · have hany : (ms.any fun m => m.isOf old new n true) = true := List.any_eq_true.mpr ⟨m, hm, his⟩
    have hdone := kcoreDone (u := s.modDie die fun y => { y with migrations := y.migrations.filter fun m => !m.isOf old new n true }) hk.1 s d.toNat 0 w
    refine ⟨_, hrule.trans (runWord_finished hP hw (if_pos hany)), ?_, hdone.mem, hdone.reg⟩
    rw [hdone.die]
    exact congrArg Die.migrations (die_modDie_same ..)
  · have hany : ¬ (ms.any fun m => m.isOf old new n true) = true := by
      rw [Bool.not_eq_true, List.any_eq_false]
      exact fun m hm => by simp [hnone m hm]
    exact hrule.trans (runWord_finished hP hw (if_neg hany))

end

theorem migrationInstructionsComplete : Spec.MigrationInstructionsComplete := by
  intro s die w d a b z hk hc
  rw [← migrSize_eq z]
  exact ⟨fun hw => migrCpy_clauses hk hw hc, fun hw => migrEnd_clauses hk hw hc⟩

/-- Settles O41, instruction by instruction: each one's rule for a control core that runs, or a course, and what its completed word leaves. -/
theorem controlCoreInstructionsComplete : Obligations.ControlCoreInstructionsComplete := by
  unfold Obligations.ControlCoreInstructionsComplete
  exact ⟨launchAndQueueSetupComplete, tileSlotAndTlbInstructionsComplete, fun s die w d a b x p hk hw hc hc' => keyld_clauses hk hw hc hc', migrationInstructionsComplete⟩

end Sys2Proof.Machine

/-! # Hosts, kicks and the keystone (R374-R383) -/

namespace Sys2Proof.Machine

open Sys2Proof Sys2Proof.Spec

/-! ## The register window (R374) -/

section
variable {p off : Nat} (hoff : off < 2 ^ 24 * 2 ^ 8)
include hoff

theorem isDevice_regPa : isDevice (regPa p off) = true := by
  have hlow : regPa p off % 2 ^ 48 = regLo + off := by unfold regPa regLo; omega
  simp only [isDevice, hlow, regLo, regTop, Bool.and_eq_true, decide_eq_true_eq]
  omega

theorem isReserved_regPa : isReserved (regPa p off) = false := by
  have hlow : regPa p off % 2 ^ 48 = regLo + off := by unfold regPa regLo; omega
  simp only [isReserved, hlow, regLo, regTop, Bool.and_eq_false_iff, decide_eq_false_iff_not]
  omega

theorem regPa_div : regPa p off / 2 ^ 48 = p := by unfold regPa regLo; omega
theorem regPa_mod : regPa p off % 2 ^ 48 - regLo = off := by unfold regPa regLo; omega

theorem hostBarred_regPa (s : State) (hsec : secureOnly (regPa p off) = false) (key : Nat) : s.hostBarred (regPa p off) key = false := by
  simp [State.hostBarred, isReserved_regPa hoff, hsec, isDevice_regPa hoff]

theorem secureOnly_regPa (hhi : 0x08000000 ≤ off) : secureOnly (regPa p off) = false := by
  have hlow := regPa_mod (p := p) hoff
  simp only [secureOnly, hlow, Bool.and_eq_false_iff, decide_eq_false_iff_not]
  omega
end

/-! ## Writes that a port has received (R378) -/

/-- A write put behind those that the package has received. -/
def State.received (s : State) (p : Nat) (w : HostWrite) : State := s.modPkg p fun x => { x with hostWrites := x.hostWrites ++ [w] }
/-- A write that is performed leaves. -/
def State.dismissed (s : State) (p : Nat) (w : HostWrite) : State := s.modPkg p fun x => { x with hostWrites := x.hostWrites.erase w }

section
variable {s : State} {p : Nat} {w : HostWrite}

theorem hostReceive_behind (h : s.portWaits p w.port = true) : s.hostReceive p w = s.received p w := by
  simp [State.hostReceive, h, State.received]

/-- The only write of its port is the one that goes on. -/
theorem hostReceive_first (h : s.portWaits p w.port = false) : s.hostReceive p w =
    match (s.received p w).hostPerform p w with | some t => t.dismissed p w | none => (s.received p w).invalidate w.pa := by
  have hothers : (s.pkg p).hostWrites.find? (fun y => decide (y.port = w.port)) = none := by
    rw [List.find?_eq_none]
    simpa [State.portWaits, List.any_eq_false] using h
  have holdest : ((s.received p w).pkg p).hostWrites.find? (fun y => decide (y.port = w.port)) = some w := by
    rw [State.received, pkg_modPkg_same]
    simp [List.find?_append, hothers]
  have hdrain : s.hostReceive p w = (s.received p w).hostDrain p w.port := by simp [State.hostReceive, h, State.received]
  rw [hdrain, State.hostDrain, holdest]
  rfl

theorem erase_received (h : s.portWaits p w.port = false) : ((s.pkg p).hostWrites ++ [w]).erase w = (s.pkg p).hostWrites := by
  have hnew : w ∉ (s.pkg p).hostWrites := fun hmem => by
    have hnone := List.any_eq_false.mp h w hmem
    simp at hnone
  rw [List.erase_append_right _ hnew, List.erase_cons_head, List.append_nil]

theorem hostBarred_received (pa key : Nat) : (s.received p w).hostBarred pa key = s.hostBarred pa key := by
  have hkeys : ((s.received p w).pkg (pa / 2 ^ 48)).keys = (s.pkg (pa / 2 ^ 48)).keys :=
    pkgPart_modPkg Pkg.keys (f := fun x => { x with hostWrites := x.hostWrites ++ [w] }) (fun _ => rfl) ..
  have hframe : (s.received p w).secureFrame pa = s.secureFrame pa := rfl
  simp only [State.hostBarred, State.hostRefused, hkeys, hframe]

/-- A port's write of a register in its turn (R374, R378). -/
theorem hostReceive_register {q off n v : Nat} (hw : w = { port := q, pa := regPa p off, key := 0, bytes := bytesOf n v }) (h : s.portWaits p q = false)
    (hoff : off < 2 ^ 24 * 2 ^ 8) (hsec : secureOnly (regPa p off) = false) (hn : n = 4 ∨ n = 8) (hal : off % n = 0) (hv : v < 2 ^ (8 * n)) :
    s.hostReceive p w = ((s.received p w).devWrite (regPa p off) n v (.host q)).dismissed p w := by
  have hpa : regPa p off % n = 0 := by
    unfold regPa regLo
    rcases hn with rfl | rfl <;> omega
  have hperform : (s.received p w).hostPerform p w = some ((s.received p w).devWrite (regPa p off) n v (.host q)) := by
    simp only [State.hostPerform, hostBarred_received]
    subst hw
    simp [hostBarred_regPa hoff s hsec, isDevice_regPa hoff, length_bytesOf, hn, hpa, ofBytes_bytesOf, Nat.mod_eq_of_lt hv]
  have h' : s.portWaits p w.port = false := by rw [hw]; exact h
  rw [hostReceive_first h', hperform]

end

/-! ## Kicks (R380-R382) -/

/-- A kick that is taken (R380, R382). -/
theorem kick_takes {s : State} {p port v : Nat} (hres : bitsOf v 31 5 = 0) (hfree : (s.reg p (portBase port + 0x0C)).testBit (v % 32) = false) :
    s.kick p port v true = ((s.setReg p (portBase port + 0x0C) (setBits (s.reg p (portBase port + 0x0C)) (v % 32) (v % 32) 1)).modPkg p fun x =>
      { x with kicks := x.kicks ++ [{ port := port, slot := v % 32, seq := v / 2 ^ 32, reads := 0, checked := none }] }).kickRead p
        { port := port, slot := v % 32, seq := v / 2 ^ 32, reads := 0, checked := none } := by
  have hfails : ¬ (!true || decide (bitsOf v 31 5 ≠ 0) || (s.reg p (portBase port + 0x0C)).testBit (v % 32)) = true := by simp [hres, hfree]
  unfold State.kick
  exact if_neg hfails

/-- A read of a kicked slot that finds the packet whole (R382, R383). -/
theorem kickRead_checked {s : State} {p : Nat} {k : Kick} {b : List Byte} (hb : s.slotBytes p k.port k.slot = b) (hseq : packetField b 0x38 4 = k.seq)
    (hcrc : packetField b 0x3C 2 = crc16 (b.take 0x3C)) (hmask : packetField b 0x10 1 ≠ 0) (hz1 : packetField b 0x11 3 = 0) (hz2 : packetField b 0x3E 2 = 0)
    (hal : packetField b 0 8 % 4 = 0) : s.kickRead p k = s.modPkg p fun x =>
      { x with kicks := x.kicks.map fun y => if y.port = k.port ∧ y.slot = k.slot then { y with reads := y.reads + 1, checked := some b } else y } := by
  have hok : (decide (packetField b 0x38 4 = k.seq) && decide (packetField b 0x3C 2 = crc16 (b.take 0x3C))) = true := by
    rw [decide_eq_true hseq, decide_eq_true hcrc]
    rfl
  have hgood : ¬ (packetField b 0x10 1 = 0 ∨ packetField b 0x11 3 ≠ 0 ∨ packetField b 0x3E 2 ≠ 0 ∨ packetField b 0 8 % 4 ≠ 0) := by
    rintro (h | h | h | h)
    · exact hmask h
    · exact h hz1
    · exact h hz2
    · exact h hal
  unfold State.kickRead
  rw [hb]
  dsimp only
  rw [if_pos hok, if_neg hgood]

theorem kick_clauses (s : State) (p port v : Nat) (hans : s.hostAnswers p = true) (hport : port < 2) (hv : v < 2 ^ 64) (hres : bitsOf v 31 5 = 0)
    (hfree : (s.reg p (portBase port + 0x0C)).testBit (v % 32) = false) :
    let k : Kick := { port := port, slot := v % 32, seq := v / 2 ^ 32, reads := 0, checked := none }
    let w : HostWrite := { port := port, pa := regPa p (portBase port), key := 0, bytes := bytesOf 8 v }
    let s1 := s.received p w
    (s.portWaits p port = true → exec (.kick p port v) s = .next s1) ∧
    (s.portWaits p port = false → exec (.kick p port v) s =
      .next ((((s1.setReg p (portBase port + 0x0C) (setBits (s1.reg p (portBase port + 0x0C)) (v % 32) (v % 32) 1)).modPkg p fun x => { x with kicks := x.kicks ++ [k] }).kickRead p k).dismissed p w)) := by
  intro k w s1
  have hexec : exec (.kick p port v) s = .next (s.hostReceive p w) := by
    change execKick p port v s = _
    simp [execKick, hport, hans, w]
  have hoff : portBase port < 2 ^ 24 * 2 ^ 8 := by unfold portBase pkgBase; omega
  have hkick : s1.devWrite (regPa p (portBase port)) 8 v (.host port) = s1.kick p port v true := by
    have hcases : port = 0 ∨ port = 1 := by omega
    simp only [State.devWrite, regPa_div hoff, regPa_mod hoff]
    rcases hcases with rfl | rfl <;> simp [portBase, pkgBase]
  have hbusy : (s1.reg p (portBase port + 0x0C)).testBit (v % 32) = false := hfree
  refine ⟨fun h => ?_, fun h => ?_⟩
  · rw [hexec, hostReceive_behind h]
  · rw [hexec, hostReceive_register (n := 8) rfl h hoff (secureOnly_regPa hoff (by unfold portBase pkgBase; omega)) (.inr rfl)
      (by unfold portBase pkgBase; omega) hv, hkick, kick_takes hres hbusy]

theorem kickSlotRead_clause (s : State) (p i : Nat) (k : Kick) (hk : (s.pkg p).kicks[i]? = some k) (hnew : k.checked = none) :
    let b := s.slotBytes p k.port k.slot
    packetField b 0x38 4 = k.seq → packetField b 0x3C 2 = crc16 (b.take 0x3C) → packetField b 0x10 1 ≠ 0 → packetField b 0x11 3 = 0 → packetField b 0x3E 2 = 0 →
    packetField b 0 8 % 4 = 0 → ∃ u k', exec (.kickSlotRead p i) s = .next u ∧ (u.pkg p).kicks[i]? = some k' ∧ k'.checked = some b ∧ u.mem = s.mem := by
  intro b hseq hcrc hmask hz1 hz2 hal
  have hread : exec (.kickSlotRead p i) s = .next (s.kickRead p k) := by
    change execKickSlotRead p i s = _
    simp [execKickSlotRead, hk, hnew]
  have hput := kickRead_checked (s := s) (p := p) (k := k) rfl hseq hcrc hmask hz1 hz2 hal
  rw [hput] at hread
  refine ⟨_, { k with reads := k.reads + 1, checked := some b }, hread, ?_, rfl, rfl⟩
  rw [pkg_modPkg_same]
  simp [hk, b]

theorem kickAppend_clause (s : State) (p i : Nat) (k : Kick) (b : List Byte) (hk : (s.pkg p).kicks[i]? = some k) (hb : k.checked = some b)
    (hroom : ∀ d ∈ packetDies p b, (s.die d).pending.length < 64)
    (hearlier : ∀ j y b', j < i → (s.pkg p).kicks[j]? = some y → y.checked = some b' →
      (∀ d ∈ packetDies p b', d ∉ packetDies p b) ∨ ∃ d ∈ packetDies p b', 64 ≤ (s.die d).pending.length) :
    exec (.kickAppend p i) s = .next ((((packetDies p b).foldl (fun s d => s.modDie d fun y => { y with pending := y.pending ++ [b] }) s).setReg p (portBase k.port + 0x10) k.seq).kickOver p k) := by
  have hfull : ((packetDies p b).any fun d => decide (64 ≤ (s.die d).pending.length)) = false := by
    rw [List.any_eq_false]
    exact fun d hd => by simpa using hroom d hd
  have hfirst : (((s.pkg p).kicks.take i).any fun y => match y.checked with
      | some b' => (packetDies p b').any (packetDies p b).contains && !((packetDies p b').any fun d => decide (64 ≤ (s.die d).pending.length))
      | none => false) = false := by
    rw [List.any_eq_false]
    intro y hy
    obtain ⟨j, hj, rfl⟩ := List.mem_take_iff_getElem.mp hy
    have hget : (s.pkg p).kicks[j]? = some (s.pkg p).kicks[j] := List.getElem?_eq_getElem _
    split
    · next b' hb' =>
      rcases hearlier j _ b' (by omega) hget hb' with h | ⟨d, hd, hd64⟩
      · have hdis : (packetDies p b').any (packetDies p b).contains = false := by
          rw [List.any_eq_false]
          exact fun d hd => by simpa using h d hd
        rw [hdis]
        exact Bool.false_ne_true
      · have hany : ((packetDies p b').any fun d => decide (64 ≤ (s.die d).pending.length)) = true := List.any_eq_true.mpr ⟨d, hd, decide_eq_true hd64⟩
        rw [hany, Bool.not_true, Bool.and_false]
        exact Bool.false_ne_true
    · exact Bool.false_ne_true
  change execKickAppend p i s = _
  unfold execKickAppend
  rw [hk]
  dsimp only
  rw [hb]
  dsimp only
  rw [hfull]
  exact congrArg Host.Outcome.next (if_neg fun h => Bool.false_ne_true (hfirst.symm.trans ((Bool.or_false _).symm.trans h)))

theorem reg_programStart (x : Scalar) (w : Nat → Nat) {i : Nat} (hi : i < 32) : (x.start w).reg i = BitVec.ofNat 32 (w i) := by
  unfold Scalar.reg
  rw [dif_pos hi]
  simp [Scalar.start]

/-- The word of a packet that register i of its program starts with (R383). -/
def startWord (b : List Byte) (i : Nat) : Nat := if i < 2 then packetField b (8 + 4 * i) 4 else if i ≤ 10 then packetField b (0x14 + 4 * (i - 2)) 4 else 0

/-- Die d as its oldest packet starts on it (R383). -/
def Die.started (y : Die) (b : List Byte) (rest : List (List Byte)) : Die :=
  { y with pending := rest, kcore := { y.kcore with pc := BitVec.ofNat 64 (packetField b 0 8), sc := y.kcore.sc.start (startWord b), running := true, alone := false, hold := .free } }

theorem packetStart_clause (s : State) (d : Nat) (b : List Byte) (rest : List (List Byte)) (hpend : (s.die d).pending = b :: rest) (hidle : (s.die d).kcore.running = false)
    (hrun : (s.reg (d / 8) (pkgBase + 0x10)).testBit (d % 8) = true) (hhalt : (s.reg (d / 8) (distBase (d % 8) + 0x14)).testBit 1 = false) :
    ∃ u, exec (.packetStart d) s = .next u ∧ (u.die d).pending = rest ∧ (u.die d).kcore.running = true ∧
      (u.die d).kcore.pc = BitVec.ofNat 64 (packetField b 0 8) ∧ (u.die d).kcore.sc.reg 0 = BitVec.ofNat 32 (packetField b 8 4) ∧ (u.die d).kcore.sc.reg 1 = BitVec.ofNat 32 (packetField b 0xC 4) ∧
      (∀ i, 2 ≤ i → i ≤ 10 → (u.die d).kcore.sc.reg i = BitVec.ofNat 32 (packetField b (0x14 + 4 * (i - 2)) 4)) ∧ (∀ i, 11 ≤ i → i < 32 → (u.die d).kcore.sc.reg i = 0#32) ∧ u.mem = s.mem := by
  have hexec : exec (.packetStart d) s = .next (s.setDie d ((s.die d).started b rest)) := by
    change execPacketStart d s = _
    simp only [execPacketStart, hpend, hidle, hrun, hhalt]
    rfl
  have hreg : ∀ i, i < 32 → ((s.die d).started b rest).kcore.sc.reg i = BitVec.ofNat 32 (startWord b i) := fun i hi => reg_programStart _ _ hi
  refine ⟨_, hexec, ?_⟩
  rw [die_setDie_same]
  refine ⟨rfl, rfl, rfl, hreg 0 (by decide), hreg 1 (by decide), fun i h2 h10 => ?_, fun i h11 h32 => ?_, rfl⟩
  · rw [hreg i (by omega), startWord, if_neg (by omega), if_pos h10]
  · rw [hreg i h32, startWord, if_neg (by omega), if_neg (by omega)]

/-! ## The keystone (R379) -/

theorem overlaps_self (p : Nat) : overlaps (regPa p (pkgBase + 4)) 4 (regPa p (pkgBase + 4)) 4 = true := by simp [overlaps]

/-- A port's read of the keystone claims or renews it, and is answered (R379). -/
theorem hostRead_keystone (s : State) (p port : Nat) : ∃ m : OutMsg, s.hostRead p port (regPa p (pkgBase + 4)) 4 =
    { s.modPkg p (fun x => x.keystoneRead port) with outbox := s.outbox ++ [m] } ∧ m.kind = 3 ∧ m.info = [port, 0] ∧ m.bytes.length = 4 := by
  unfold State.hostRead
  rw [overlaps_self]
  exact ⟨_, rfl, rfl, rfl, by simp [length_bytesOf]⟩

theorem keystone_clause (s : State) (p port : Nat) (hport : port < 2) (hans : s.hostAnswers p = true) (hw : s.portWaits p port = false) :
    ∃ a b m, exec (.keystoneRead p port) s = .next a ∧ exec (.keystoneRelease p port) s = .next b ∧
      a.outbox = s.outbox ++ [m] ∧ m.kind = 3 ∧ m.info = [port, 0] ∧ m.bytes.length = 4 ∧
      ((s.pkg p).owner = none → (a.pkg p).keyOwner = some port ∧ (a.pkg p).keyLease = (s.pkg p).time + 100000000) ∧
      (∀ q, (s.pkg p).owner = some q → q ≠ port → a.pkg p = s.pkg p ∧ b.pkg p = s.pkg p) ∧ ((s.pkg p).owner = some port → (b.pkg p).keyOwner = none) := by
  obtain ⟨m, hread, hkind, hinfo, hlen⟩ := hostRead_keystone s p port
  have hexec : exec (.keystoneRead p port) s = .next (s.hostRead p port (regPa p (pkgBase + 4)) 4) := by
    change execKeystoneRead p port s = _
    simp [execKeystoneRead, hport, hans, hw]
  have ha : ({ s.modPkg p (fun x => x.keystoneRead port) with outbox := s.outbox ++ [m] } : State).pkg p = (s.pkg p).keystoneRead port := pkg_modPkg_same s p fun x => x.keystoneRead port
  have hb : (s.modPkg p fun x => if x.owner = some port then { x with keyOwner := none } else x).pkg p = if (s.pkg p).owner = some port then { s.pkg p with keyOwner := none } else s.pkg p :=
    pkg_modPkg_same ..
  refine ⟨_, _, m, hexec.trans (congrArg Host.Outcome.next hread), rfl, rfl, hkind, hinfo, hlen, fun hnone => ?_, fun q hq hne => ?_, fun hown => ?_⟩
  · rw [ha, Pkg.keystoneRead, hnone]
    exact ⟨rfl, rfl⟩
  · rw [ha, hb, Pkg.keystoneRead, hq]
    exact ⟨if_neg hne, if_neg fun h => hne (Option.some.inj h)⟩
  · rw [hb, if_pos hown]

/-! ## Host memory and registers (R374, R378) -/

/-- The writes that packages have received are no part of sending a request. -/
theorem hostWrites_request (s : State) (k : Packet) (sv : Serves) (q : Nat) : (((s.request k sv).getD s).pkg q).hostWrites = (s.pkg q).hostWrites := by
  unfold State.request
  dsimp only
  split
  · rw [Option.getD_some]
    have hput : ∀ (u : State) (i : Nat) (f : Pkg → Pkg), (∀ x, (f x).hostWrites = x.hostWrites) → ((u.modPkg i f).pkg q).hostWrites = (u.pkg q).hostWrites := fun u i f hf =>
      pkgPart_modPkg Pkg.hostWrites hf u i q
    have hlink : ∀ (u : State) (k : Packet), ((u.keepLink k).pkg q).hostWrites = (u.pkg q).hostWrites := fun u k => by
      unfold State.keepLink
      split <;> exact hput _ _ _ fun _ => rfl
    refine (hlink _ _).trans ((hput _ _ _ ?_).trans (hput _ _ _ ?_))
    · exact fun _ => rfl
    · exact fun _ => rfl
  · rfl

theorem hostWrites_invalidate (s : State) (pa q : Nat) : ((s.invalidate pa).pkg q).hostWrites = (s.pkg q).hostWrites := by
  unfold State.invalidate
  refine foldl_keeps _ (fun u => (State.pkg u q).hostWrites) (fun u r => ?_) _ s
  dsimp only
  split
  · rfl
  · split
    · rfl
    · split
      · rfl
      · exact hostWrites_request ..

/-- The address in memory of offset o of a port's BAR2 (R378). -/
def State.windowPa (s : State) (p port o : Nat) : Nat := (bitsOf (s.reg p (portBase port + 0x18)) 31 16 * 2 ^ 36 + o) % 2 ^ 52
/-- The key id of a port's BAR2 (R378). -/
def State.windowKey (s : State) (p port : Nat) : Nat := bitsOf (s.reg p (portBase port + 0x18)) 11 0

section
variable {s : State} {p port o pa key : Nat} (hport : port < 2) (ho : o < 2 ^ 36) (hans : s.hostAnswers p = true) (hpa : s.windowPa p port o = pa) (hid : s.windowKey p port = key)
include hport ho hans hpa hid

theorem exec_hostWrite (n : Nat) {data : List Byte} (hdata : data ≠ []) (hline : pa % 128 + data.length ≤ 128) :
    exec (.hostMemoryAccess p port o n true data) s = .next (s.hostReceive p { port := port, pa := pa, key := key, bytes := data }) := by
  have hq : port % 2 = port := Nat.mod_eq_of_lt hport
  have h4 : ¬ 4 ≤ port := by omega
  have hmem : ¬ 2 ≤ port := by omega
  have hlen : data.length ≠ 0 := fun h => hdata (List.length_eq_zero_iff.mp h)
  change execHostMemoryAccess p port o n true data s = _
  subst hpa hid
  unfold State.windowPa at hline
  simp only [execHostMemoryAccess, hq, hmem, h4, hans, eq_false (Nat.not_le.mpr ho), eq_false (Nat.not_lt.mpr hline), eq_false hlen, decide_false, Bool.false_eq_true, if_true, if_false, Bool.not_true, or_false]
  rfl

theorem exec_hostMemoryRead (data : List Byte) {n : Nat} (hn : 1 ≤ n) (hline : pa % 128 + n ≤ 128)
    (hbar : s.hostBarred (pa) (key) = false) (hdev : isDevice (pa) = false)
    (hw : s.portWaits p port = false) (hpoi : s.poisoned (pa) = false) :
    exec (.hostMemoryAccess p port o n false data) s = .next (s.hostAnswer p port (s.bytesUnder (pa) n (key)) false) := by
  have hq : port % 2 = port := Nat.mod_eq_of_lt hport
  have h4 : ¬ 4 ≤ port := by omega
  have hmem : ¬ 2 ≤ port := by omega
  have hlen : n ≠ 0 := by omega
  change execHostMemoryAccess p port o n false data s = _
  subst hpa hid
  unfold State.windowPa State.windowKey at *
  simp only [execHostMemoryAccess, hq, hmem, h4, hans, eq_false (Nat.not_le.mpr ho), eq_false (Nat.not_lt.mpr hline), eq_false hlen, decide_false, Bool.false_eq_true, if_false, Bool.not_true, or_false,
    hbar, hdev, hw, hpoi]

end

/-- A read waits while writes of its port do (log 113). -/
theorem exec_hostRead_waits {s : State} {p port : Nat} (hport : port < 2) (o n : Nat) (data : List Byte) (hw : s.portWaits p port = true) :
    exec (.hostMemoryAccess p port o n false data) s = .next s := by
  have hq : port % 2 = port := Nat.mod_eq_of_lt hport
  change execHostMemoryAccess p port o n false data s = _
  simp only [execHostMemoryAccess, hq, hw, Bool.false_eq_true, if_true, if_false, ite_self]

/-- A port's write of memory in its turn, of a line that no other package holds (R325, R378). -/
theorem hostReceive_unshared {s : State} {p : Nat} {w : HostWrite} (hw : s.portWaits p w.port = false) (hbar : s.hostBarred w.pa w.key = false) (hdev : isDevice w.pa = false)
    (hun : s.unshared w.pa = true) : s.hostReceive p w = ((s.received p w).homeWriteKey w.pa (w.bytes.map some) none w.key).dismissed p w := by
  have hun' : (s.received p w).unshared w.pa = true := hun
  have hperform : (s.received p w).hostPerform p w = some ((s.received p w).homeWriteKey w.pa (w.bytes.map some) none w.key) := by
    simp [State.hostPerform, hostBarred_received, hbar, hdev, hun']
  rw [hostReceive_first hw, hperform]

/-- A port's write in its turn, of a line that another package holds, has the copies invalidated (R325, log 113). -/
theorem hostReceive_shared {s : State} {p : Nat} {w : HostWrite} (hw : s.portWaits p w.port = false) (hbar : s.hostBarred w.pa w.key = false) (hdev : isDevice w.pa = false)
    (hsh : s.unshared w.pa = false) : s.hostReceive p w = (s.received p w).invalidate w.pa := by
  have hsh' : (s.received p w).unshared w.pa = false := hsh
  have hperform : (s.received p w).hostPerform p w = none := by
    simp [State.hostPerform, hostBarred_received, hbar, hdev, hsh']
  rw [hostReceive_first hw, hperform]

theorem hostWrites_received (s : State) (p : Nat) (w : HostWrite) : ((s.received p w).pkg p).hostWrites = (s.pkg p).hostWrites ++ [w] := by
  rw [State.received, pkg_modPkg_same]

theorem sameKey_received {s : State} {p pa key : Nat} {w : HostWrite} (h : SameKey s pa key) : SameKey (s.received p w) pa key := by
  have hkeys : ((s.received p w).pkg (s.forward pa / 2 ^ 48)).keys = (s.pkg (s.forward pa / 2 ^ 48)).keys :=
    pkgPart_modPkg Pkg.keys (f := fun x => { x with hostWrites := x.hostWrites ++ [w] }) (fun _ => rfl) ..
  have hfw : (s.received p w).forward pa = s.forward pa := rfl
  have hline : (s.received p w).line pa = s.line pa := rfl
  unfold SameKey State.keyMat at *
  rw [hfw, hline, hkeys]
  exact h

theorem hostMemory_clause {s : State} {p port o pa key : Nat} (hport : port < 2) (ho : o < 2 ^ 36) (hans : s.hostAnswers p = true) (hpa : s.windowPa p port o = pa) (hid : s.windowKey p port = key)
    (n : Nat) (data : List Byte) :
    let y : HostWrite := { port := port, pa := pa, key := key, bytes := data }
    let waits := s.portWaits p port
    s.hostBarred pa key = false → isDevice pa = false →
    (data ≠ [] → pa % 128 + data.length ≤ 128 →
      (waits = true → exec (.hostMemoryAccess p port o n true data) s = .next (s.modPkg p fun x => { x with hostWrites := x.hostWrites ++ [y] })) ∧
      (waits = false → s.unshared pa = true → s.forward pa = pa → SameKey s pa key → ∃ u, exec (.hostMemoryAccess p port o n true data) s = .next u ∧
        u.mem = s.mem.setMasked pa (data.map some) ∧ (u.pkg p).hostWrites = (s.pkg p).hostWrites ∧ u.courses = s.courses ∧ u.dev = s.dev) ∧
      (waits = false → s.unshared pa = false → ∃ u, exec (.hostMemoryAccess p port o n true data) s = .next u ∧
        (u.pkg p).hostWrites = (s.pkg p).hostWrites ++ [y] ∧ u.mem = s.mem)) ∧
    (waits = true → exec (.hostMemoryAccess p port o n false data) s = .next s) ∧
    (waits = false → 1 ≤ n → pa % 128 + n ≤ 128 → s.poisoned pa = false → exec (.hostMemoryAccess p port o n false data) s = .next (s.hostAnswer p port (s.bytesUnder pa n key) false)) := by
  intro y waits hbar hdev
  refine ⟨fun hdata hline => ?_, fun hw => exec_hostRead_waits hport o n data hw, fun hw hn hline hpoi => exec_hostMemoryRead hport ho hans hpa hid data hn hline hbar hdev hw hpoi⟩
  have hexec : exec (.hostMemoryAccess p port o n true data) s = .next (s.hostReceive p y) := exec_hostWrite hport ho hans hpa hid n hdata hline
  refine ⟨fun hw => ?_, fun hw hun hfw hkey => ?_, fun hw hsh => ?_⟩
  · rw [hexec, hostReceive_behind hw]
    rfl
  · have hstored : StoredInPlace (s.received p y) ((s.received p y).homeWriteKey pa (data.map some) none key) pa (data.map some) :=
      storedInPlace_keyWrite (s := s.received p y) hfw (sameKey_received hkey) (data.map some)
    have hpkgs : ((s.received p y).homeWriteKey pa (data.map some) none key).pkgs = (s.received p y).pkgs := (pkgs_rawWrite ..).trans (pkgs_tagLine ..)
    have hpkg : ((s.received p y).homeWriteKey pa (data.map some) none key).pkg p = (s.received p y).pkg p := by unfold State.pkg; rw [hpkgs]
    have hleft : ((((s.received p y).homeWriteKey pa (data.map some) none key).dismissed p y).pkg p).hostWrites = (s.pkg p).hostWrites := by
      rw [State.dismissed, pkg_modPkg_same, hpkg, hostWrites_received, erase_received hw]
    exact ⟨_, hexec.trans (congrArg Host.Outcome.next (hostReceive_unshared hw hbar hdev hun)), hstored.mem, hleft, hstored.courses, hstored.dev⟩
  · exact ⟨_, hexec.trans (congrArg Host.Outcome.next (hostReceive_shared hw hbar hdev hsh)), (hostWrites_invalidate ..).trans (hostWrites_received ..), mem_invalidate ..⟩

theorem hostRegisters_clause (s : State) (p port o n : Nat) (hport : port < 2) (ho : o < 2 ^ 32) (hans : s.hostAnswers p = true) (hw : s.portWaits p port = false) (hn : 1 ≤ n)
    (hline : regPa p o % 128 + n ≤ 128) (hdev : isDevice (regPa p o) = true) (hbar : s.hostBarred (regPa p o) (bitsOf (s.reg p (portBase port + 0x18)) 11 0) = false) :
    exec (.hostMemoryAccess p (port + 2) o n false []) s = .next (s.hostRead p port (regPa p o) n) := by
  have hq : (port + 2) % 2 = port := by omega
  have h4 : ¬ 4 ≤ port + 2 := by omega
  have hreg : 2 ≤ port + 2 := by omega
  have hlen : n ≠ 0 := by omega
  change execHostMemoryAccess p (port + 2) o n false [] s = _
  simp only [execHostMemoryAccess, hq, hreg, h4, hans, eq_false (Nat.not_le.mpr ho), eq_false (Nat.not_lt.mpr hline), eq_false hlen, decide_true, Bool.false_eq_true, if_true, if_false, Bool.not_true,
    or_false, hbar, hdev, hw]

theorem registerWrite_clause (s : State) (p src off size v : Nat) (hsrc : src ≤ 2) (hans : src ≠ 2 → s.hostAnswers p = true) (hoff : off < 2 ^ 32) (hsize : size = 4 ∨ size = 8)
    (hal : off % size = 0) (hsec : secureOnly (regPa p off) = false) (hv : v < 2 ^ (8 * size)) :
    let w : HostWrite := { port := src, pa := regPa p off, key := 0, bytes := bytesOf size v }
    let s1 := s.modPkg p fun x => { x with hostWrites := x.hostWrites ++ [w] }
    (src = 2 → exec (.registerWrite p src off size v) s = .next (s.devWrite (regPa p off) size v .micro)) ∧
    (src ≠ 2 → s.portWaits p src = true → exec (.registerWrite p src off size v) s = .next s1) ∧
    (src ≠ 2 → s.portWaits p src = false → exec (.registerWrite p src off size v) s =
      .next ((s1.devWrite (regPa p off) size v (.host src)).modPkg p fun x => { x with hostWrites := x.hostWrites.erase w })) := by
  intro w s1
  have hok : ¬ (2 < src ∨ 2 ^ 32 ≤ off ∨ (size ≠ 4 ∧ size ≠ 8) ∨ off % size ≠ 0 ∨ secureOnly (regPa p off) = true ∨ (src ≠ 2 ∧ (!s.hostAnswers p) = true)) := by
    rintro (h | h | ⟨h4, h8⟩ | h | h | ⟨h, hno⟩)
    · omega
    · omega
    · exact hsize.elim h4 h8
    · exact h hal
    · exact Bool.false_ne_true (hsec.symm.trans h)
    · rw [hans h] at hno
      exact Bool.false_ne_true hno
  have hexec : exec (.registerWrite p src off size v) s =
      .next (if src = 2 then s.devWrite (regPa p off) size (v % 2 ^ (8 * size)) .micro else s.hostReceive p w) := by
    change execRegisterWrite p src off size v s = _
    unfold execRegisterWrite
    dsimp only
    rw [if_neg hok]
  refine ⟨fun h => ?_, fun h hw => ?_, fun h hw => ?_⟩
  · rw [hexec, if_pos h, Nat.mod_eq_of_lt hv]
  · rw [hexec, if_neg h, hostReceive_behind hw]
    rfl
  · rw [hexec, if_neg h, hostReceive_register rfl hw (by omega) hsec hsize hal hv]
    rfl

/-- Settles O55. -/
theorem hostEventsComplete : Obligations.HostEventsComplete := by
  unfold Obligations.HostEventsComplete
  refine ⟨kick_clauses, kickSlotRead_clause, kickAppend_clause, packetStart_clause, fun s p port hw => ?_, keystone_clause, fun s p _ => rfl, fun s p port o n data hport ho hans => hostMemory_clause hport ho hans rfl rfl n data, hostRegisters_clause, registerWrite_clause⟩
  change execKeystoneRead p port s = _
  simp [execKeystoneRead, hw]

end Sys2Proof.Machine

/-! # Words of a Lintel that complete -/

namespace Sys2Proof.Machine

open Sys2Proof Sys2Proof.Spec

section
variable {s t u : State} {p n v : Nat} {w : Word}

theorem present_onLintel (h : OnLintel s p) : Present s := by
  simp only [Present, State.curRuns, h.1]
  exact h.2

theorem asLintel_eq (h : s.cur = .lintel p) (f : Nat → Proc → Res) : s.asLintel f = f p (s.pkg p).lintel := by
  rw [State.asLintel, h]

/-- A package with another state of its Lintel. -/
def Pkg.withLintel (x : Pkg) (l : Proc) : Pkg := { x with lintel := l }
/-- A Lintel whose register n has taken v and that is on its next word. -/
def Proc.took (l : Proc) (n v : Nat) : Proc := Proc.onNext { l with sc := l.sc.dst false n v }

theorem bar_withLintel (x : Pkg) (l : Proc) (b : Nat) : (x.withLintel l).bar b = x.bar b := rfl
theorem port_withLintel (x : Pkg) (l : Proc) (n : Nat) : (x.withLintel l).port n = x.port n := rfl

theorem finished_lintel (hcur : u.cur = .lintel p) : finished s u w = u.modPkg p fun x => x.withLintel x.lintel.onNext := by
  have hcounted : counted s u w = u := by
    unfold counted State.countIssue
    rw [hcur]
  rw [finished, hcounted, State.advance, hcur]
  rfl

theorem gdst_lintel (hcur : u.cur = .lintel p) : u.gdst false n v = u.modPkg p fun x => x.withLintel { x.lintel with sc := (u.pkg p).lintel.sc.dst false n v } := by
  simp only [State.gdst, State.sc, hcur, State.setScalar, State.scalar, Pkg.withLintel]

/-- What an instruction of p's Lintel leaves that completes with gn = v, of package p as its rule left it. -/
theorem pkg_lintelDone (hcur : u.cur = .lintel p) (s : State) (n v : Nat) (w : Word) : (finished s (u.gdst false n v) w).pkg p = (u.pkg p).withLintel ((u.pkg p).lintel.took n v) := by
  rw [gdst_lintel hcur, finished_lintel (by exact hcur), pkg_modPkg_same, pkg_modPkg_same]
  rfl

variable (hcur : u.cur = .lintel p)
include hcur

theorem bar_gives (j : Nat) : ((finished s (u.gdst false n v) w).pkg p).bar j = (u.pkg p).bar j := by
  rw [pkg_lintelDone hcur, bar_withLintel]
theorem port_gives (j : Nat) : ((finished s (u.gdst false n v) w).pkg p).port j = (u.pkg p).port j := by
  rw [pkg_lintelDone hcur, port_withLintel]
theorem reg_gives (hn : n < 32) : ((finished s (u.gdst false n v) w).pkg p).lintel.sc.reg n = BitVec.ofNat 32 v := by
  rw [pkg_lintelDone hcur]
  exact reg_dst_same _ _ hn _
end

end Sys2Proof.Machine

/-! # Circuits, messages and time of a Lintel (R424-R430, R434, R435) -/

namespace Sys2Proof.Machine

open Sys2Proof Sys2Proof.Spec

/-! ## Barriers and ports of a package -/

section
variable (s : State) (p b : Nat) (y : CircuitBar)

theorem bar_setBar_same : ((s.setBar p b y).pkg p).bar b = y := by
  rw [State.setBar, pkg_modPkg_same]
  exact getD_put_same ..

theorem bar_setBar_other {j : Nat} (h : j ≠ b) : ((s.setBar p b y).pkg p).bar j = (s.pkg p).bar j := by
  rw [State.setBar, pkg_modPkg_same]
  exact getD_put_other _ _ _ h

theorem port_setBar (q n : Nat) : ((s.setBar p b y).pkg q).port n = (s.pkg q).port n :=
  pkgPart_modPkg (fun x => x.port n) (f := fun x => { x with bars := SMap.put x.bars b y }) (fun _ => rfl) ..

theorem bar_setPort (n : Nat) (z : Port) (q j : Nat) : ((s.setPort p n z).pkg q).bar j = (s.pkg q).bar j :=
  pkgPart_modPkg (fun x => x.bar j) (f := fun x => { x with ports := SMap.put x.ports n z }) (fun _ => rfl) ..

theorem port_setPort_same (n : Nat) (z : Port) : ((s.setPort p n z).pkg p).port n = z := by
  rw [State.setPort, pkg_modPkg_same]
  exact getD_put_same ..

@[simp] theorem pkg_failCopies (which : Copy → Bool) (q : Nat) : (s.failCopies p b which).pkg q = s.pkg q := rfl

theorem bar_tellService (kind c q j : Nat) : ((s.tellService p kind c y).pkg q).bar j = (s.pkg q).bar j :=
  planeSend_keeps (apartFromPlane_pkg (g := fun x => x.bar j) (fun _ _ => rfl) q) ..
theorem port_tellService (kind c q n : Nat) : ((s.tellService p kind c y).pkg q).port n = (s.pkg q).port n :=
  planeSend_keeps (apartFromPlane_pkg (g := fun x => x.port n) (fun _ _ => rfl) q) ..
theorem cur_tellService (kind c : Nat) : (s.tellService p kind c y).cur = s.cur := planeSend_keeps ⟨fun _ _ _ _ => rfl, fun _ _ _ _ => rfl⟩ ..

theorem bar_releasePort (n q j : Nat) : ((s.releasePort p n).pkg q).bar j = (s.pkg q).bar j := bar_setPort (s.dropChunks p n) ..
theorem state_releasePort (n : Nat) : (((s.releasePort p n).pkg p).port n).state = .dark := congrArg Port.state (port_setPort_same (s.dropChunks p n) p n _)

theorem cur_failCopies (which : Copy → Bool) : (s.failCopies p b which).cur = s.cur := rfl
theorem cur_freeBar : (s.freeBar p b).cur = s.cur := rfl
theorem cur_releasePort (n : Nat) : (s.releasePort p n).cur = s.cur := rfl

theorem bar_freeBar : ((s.freeBar p b).pkg p).bar b = { CircuitBar.init with seq := ((s.pkg p).bar b).seq } := bar_setBar_same ..
theorem port_freeBar (q n : Nat) : ((s.freeBar p b).pkg q).port n = (s.pkg q).port n := port_setBar ..
end

/-! ## Releases (R429) -/

/-- A live barrier that begins to drain, before its copies are told (R429). -/
def State.draining (s : State) (p b : Nat) (abort : Bool) : State :=
  (s.setBar p b { (s.pkg p).bar b with state := 4, abort := abort }).setPort p ((s.pkg p).bar b).port { (s.pkg p).port ((s.pkg p).bar b).port with releasing := true }

/-- A barrier that is not live given up (R429). -/
def State.givenUp (s : State) (p b : Nat) : State :=
  let y := (s.pkg p).bar b
  let u := (s.tellService p 2 b y).failCopies p b fun _ => true
  (if ((s.pkg p).port y.port).state = .dark then u else u.releasePort p y.port).freeBar p b

theorem givenUp_keeps (s : State) (p b : Nat) : ((s.givenUp p b).pkg p).bar b = { CircuitBar.init with seq := ((s.pkg p).bar b).seq } ∧
    (((s.givenUp p b).pkg p).port ((s.pkg p).bar b).port).state = .dark ∧ (s.givenUp p b).cur = s.cur := by
  unfold State.givenUp
  dsimp only
  split
  next hdark =>
    refine ⟨?_, ?_, ?_⟩
    · rw [bar_freeBar, pkg_failCopies, bar_tellService]
    · rw [port_freeBar, pkg_failCopies, port_tellService, hdark]
    · rw [cur_freeBar, cur_failCopies, cur_tellService]
  next =>
    refine ⟨?_, ?_, ?_⟩
    · rw [bar_freeBar, bar_releasePort, pkg_failCopies, bar_tellService]
    · rw [port_freeBar, state_releasePort]
    · rw [cur_freeBar, cur_releasePort, cur_failCopies, cur_tellService]

/-! ## The circuit instructions -/

section
variable {s : State} {p k : Nat} {w : Word} {d a b : BitVec 6} (hl : OnLintel s p)
include hl

section
variable (hc : Clean s [(a.toNat, false), (b.toNat, false)]) (hk : bitsOf (s.gsrc false a.toNat) 5 0 = k)
include hc hk

/-- The barrier that CREQ sets requesting (R424). -/
def State.requested (s : State) (p k va vb : Nat) : CircuitBar :=
  { CircuitBar.init with
    state := 1, port := bitsOf va 12 8, peerWall := bitsOf vb 9 0, peerPkg := bitsOf vb 13 10, peerPort := bitsOf vb 18 14
    seq := (((s.pkg p).bar k).seq + 1) % 2 ^ 16, credits := bitsOf (s.reg p (lintBase + 0x60)) 11 0 }

theorem creq_rule (ha : bitsOf (s.gsrc false a.toNat) 31 13 = 0) (ha' : bitsOf (s.gsrc false a.toNat) 7 6 = 0) (hb : bitsOf (s.gsrc false b.toNat) 31 19 = 0)
    (hpeer : bitsOf (s.gsrc false b.toNat) 13 10 ≠ p ∨ bitsOf (s.gsrc false b.toNat) 9 0 ≠ Config.wallId.toNat) :
    exec (.creq d a b) s = s.runWord (.creq d a b) (if s.creqStatus p k (bitsOf (s.gsrc false a.toNat) 12 8) ≠ 0
      then .done (s.gdst false d.toNat (s.creqStatus p k (bitsOf (s.gsrc false a.toNat) 12 8)))
      else .done (((s.setBar p k (s.requested p k (s.gsrc false a.toNat) (s.gsrc false b.toNat))).tellService p 1 k
        (s.requested p k (s.gsrc false a.toNat) (s.gsrc false b.toNat))).gdst false d.toNat 0)) := by
  have hself : ¬ (bitsOf (s.gsrc false b.toNat) 13 10 = p ∧ bitsOf (s.gsrc false b.toNat) 9 0 = Config.wallId.toNat) := not_and_or.mpr hpeer
  simp only [State.gsrc] at *
  change execCreq d a b s = _
  simp only [execCreq, groupOp_unpoisoned hc, asLintel_eq hl.1, ha, ha', hb, hself, hk, ne_eq, not_true_eq_false, or_self, decide_false, Bool.false_or, Bool.and_eq_true, decide_eq_true_eq, if_false]
  rfl

theorem creq_clause (hw : Passes s (.creq d a b) w) (ha : bitsOf (s.gsrc false a.toNat) 31 13 = 0) (ha' : bitsOf (s.gsrc false a.toNat) 7 6 = 0)
    (hb : bitsOf (s.gsrc false b.toNat) 31 19 = 0) (hpeer : bitsOf (s.gsrc false b.toNat) 13 10 ≠ p ∨ bitsOf (s.gsrc false b.toNat) 9 0 ≠ Config.wallId.toNat) :
    let st := s.creqStatus p k (bitsOf (s.gsrc false a.toNat) 12 8)
    (st ≠ 0 → exec (.creq d a b) s = .next (finished s (s.gdst false d.toNat st) w)) ∧
    (st = 0 → ∃ u z, exec (.creq d a b) s = .next u ∧ (u.pkg p).bar k = z ∧ z.state = 1 ∧ z.port = bitsOf (s.gsrc false a.toNat) 12 8 ∧ z.peerWall = bitsOf (s.gsrc false b.toNat) 9 0 ∧
      z.peerPkg = bitsOf (s.gsrc false b.toNat) 13 10 ∧ z.peerPort = bitsOf (s.gsrc false b.toNat) 18 14 ∧ z.lent = false ∧ z.seq = (((s.pkg p).bar k).seq + 1) % 2 ^ 16 ∧
      (d.toNat < 32 → (u.pkg p).lintel.sc.reg d.toNat = 0#32) ∧ ∀ j, j ≠ k → (u.pkg p).bar j = (s.pkg p).bar j) := by
  intro st
  have hrule := creq_rule (d := d) hl hc hk ha ha' hb hpeer
  refine ⟨fun h => ?_, fun h => ?_⟩
  · rw [hrule]
    exact runWord_finished (present_onLintel hl) hw (if_pos h)
  · rw [if_neg (not_not_intro h)] at hrule
    have hcur : ((s.setBar p k (s.requested p k (s.gsrc false a.toNat) (s.gsrc false b.toNat))).tellService p 1 k
        (s.requested p k (s.gsrc false a.toNat) (s.gsrc false b.toNat))).cur = .lintel p := (cur_tellService ..).trans hl.1
    refine ⟨_, _, hrule.trans (runWord_finished (present_onLintel hl) hw rfl), (bar_gives hcur k).trans ((bar_tellService ..).trans (bar_setBar_same ..)), rfl, rfl, rfl, rfl, rfl, rfl, rfl, reg_gives hcur, fun j hj => ?_⟩
    exact (bar_gives hcur j).trans ((bar_tellService ..).trans (bar_setBar_other _ _ _ _ hj))

theorem cawt_clause (m : BitVec 1) (hw : Passes s (.cawt d a b m) w) (hfree : (s.pkg p).lintel.hold = .free) :
    (∀ code, cawtCode ((s.pkg p).bar k) (decide (m = 1#1)) = some code → exec (.cawt d a b m) s = .next (finished s (s.gdst false d.toNat code) w)) ∧
    (cawtCode ((s.pkg p).bar k) (decide (m = 1#1)) = none → s.gsrc false b.toNat = 0 → exec (.cawt d a b m) s = .next (finished s (s.gdst false d.toNat 1) w)) ∧
    (cawtCode ((s.pkg p).bar k) (decide (m = 1#1)) = none → s.gsrc false b.toNat ≠ 0 →
      exec (.cawt d a b m) s = .next (s.setLintelHold p (.timed 0xF1 ((s.pkg p).time + 1000 * s.gsrc false b.toNat) false))) := by
  simp only [State.gsrc] at *
  refine ⟨fun code hcode => ?_, fun hcode hb => ?_, fun hcode hb => ?_⟩
  · exact runWord_finished (present_onLintel hl) hw (by simp only [groupOp_unpoisoned hc, asLintel_eq hl.1, hk, hfree, hcode])
  · exact runWord_finished (present_onLintel hl) hw (by simp only [groupOp_unpoisoned hc, asLintel_eq hl.1, hk, hfree, hcode, hb, if_true])
  · exact runWord_stays (present_onLintel hl) hw (by simp only [groupOp_unpoisoned hc, asLintel_eq hl.1, hk, hfree, hcode, eq_false hb, if_false])
end

section
variable (hc : Clean s [(a.toNat, false), (b.toNat, true)]) (hk : bitsOf (s.gsrc false a.toNat) 5 0 = k) {y : CircuitBar} (hy : (s.pkg p).bar k = y) {va : Nat} (hva : s.gsrc true b.toNat = va)
include hc hk hy hva

theorem cuse_clause (hw : Passes s (.cuse d a b) w) :
    ((y.state = 0 ∨ 4 ≤ y.state) → exec (.cuse d a b) s = .next (finished s (s.gdst false d.toNat 1) w)) ∧
    ((1 ≤ y.state ∧ y.state ≤ 3) →
      (va % 32 ≠ 0 → exec (.cuse d a b) s = .next (finished s (s.gdst false d.toNat 2) w)) ∧
      (∀ bs, va % 32 = 0 → s.lintelRead p va 32 = .inl bs →
        (lendOk bs (lendOf bs y) p = false → exec (.cuse d a b) s = .next (finished s (s.gdst false d.toNat 2) w)) ∧
        (lendOk bs (lendOf bs y) p = true → (y.lent = false ∨ sameBorrower y (lendOf bs y) = true ∨ s.borrowerBusy p k y = false) →
          exec (.cuse d a b) s = .next (finished s ((s.setBar p k (lendOf bs y)).gdst false d.toNat 0) w)) ∧
        (lendOk bs (lendOf bs y) p = true → y.lent = true → sameBorrower y (lendOf bs y) = false → s.borrowerBusy p k y = true →
          exec (.cuse d a b) s = .next s))) := by
  simp only [State.gsrc] at hk hva
  refine ⟨fun hst => ?_, fun hst => ?_⟩
  · exact runWord_finished (present_onLintel hl) hw (by simp only [groupOp_unpoisoned hc, asLintel_eq hl.1, hk, hy, eq_true hst, if_true])
  have hopen : ¬ (y.state = 0 ∨ 4 ≤ y.state) := by omega
  refine ⟨fun hal => ?_, fun bs hal hbs => ⟨fun hok => ?_, fun hok hfree => ?_, fun hok hlent hother hbusy => ?_⟩⟩
  · exact runWord_finished (present_onLintel hl) hw (by simp only [groupOp_unpoisoned hc, asLintel_eq hl.1, hk, hy, hva, hopen, eq_true hal, if_true, if_false])
  · exact runWord_finished (present_onLintel hl) hw (by simp [groupOp_unpoisoned hc, asLintel_eq hl.1, hk, hy, hva, hopen, hal, hbs, hok])
  · have hlend : (y.lent && !sameBorrower y (lendOf bs y) && s.borrowerBusy p k y) = false := by
      rcases hfree with h | h | h <;> simp [h]
    exact runWord_finished (present_onLintel hl) hw (by simp only [groupOp_unpoisoned hc, asLintel_eq hl.1, hk, hy, hva, hopen, hal, hbs, hok, hlend, ne_eq, not_true_eq_false, Bool.not_true, Bool.false_eq_true, if_false])
  · exact runWord_waits (present_onLintel hl) hw (by simp [groupOp_unpoisoned hc, asLintel_eq hl.1, hk, hy, hva, hopen, hal, hbs, hok, hlent, hother, hbusy])
end

section
variable (hc : Clean s [(a.toNat, false)]) (hk : bitsOf (s.gsrc false a.toNat) 5 0 = k)
include hc hk

theorem cstat_clause (hw : Passes s (.cstat d a) w) :
    exec (.cstat d a) s = .next (finished s (s.gdst false d.toNat (s.cstat p k)) w) := by
  simp only [State.gsrc] at *
  exact runWord_finished (present_onLintel hl) hw (by simp only [groupOp_unpoisoned hc, asLintel_eq hl.1, hk])

variable {y : CircuitBar} (hy : (s.pkg p).bar k = y)
include hy

theorem crel_shut (m : BitVec 1) (hw : Passes s (.crel d a m) w) (hst : y.state = 0 ∨ y.state = 4) : exec (.crel d a m) s = .next (finished s (s.gdst false d.toNat 1) w) := by
  simp only [State.gsrc] at hk
  rcases hst with h | h
  · exact runWord_finished (present_onLintel hl) hw (by simp only [groupOp_unpoisoned hc, asLintel_eq hl.1, hk, hy, h])
  · exact runWord_finished (present_onLintel hl) hw (by simp only [groupOp_unpoisoned hc, asLintel_eq hl.1, hk, hy, h])

theorem crel_live (m : BitVec 1) (hw : Passes s (.crel d a m) w) (hst : y.state = 3) : ∃ u, exec (.crel d a m) s = .next u ∧ (u.pkg p).bar k = { y with state := 4, abort := decide (m = 1#1) } ∧
    ((u.pkg p).port y.port).releasing = true ∧ (d.toNat < 32 → (u.pkg p).lintel.sc.reg d.toNat = 0#32) := by
  simp only [State.gsrc] at hk
  obtain ⟨z, hz, hpkg, hcur⟩ : ∃ z, (if m = 1#1 then (s.draining p k (decide (m = 1#1))).failCopies p k (fun c => decide (c.sent < c.count)) else s.draining p k (decide (m = 1#1))) = z ∧
      z.pkg p = (s.draining p k (decide (m = 1#1))).pkg p ∧ z.cur = s.cur := by
    split
    · exact ⟨_, rfl, rfl, rfl⟩
    · exact ⟨_, rfl, rfl, rfl⟩
  have hrule : exec (.crel d a m) s = s.runWord (.crel d a m) (.done (z.gdst false d.toNat 0)) := by
    change execCrel d a m s = _
    rw [← hz]
    simp only [execCrel, groupOp_unpoisoned hc, asLintel_eq hl.1, hk, hy, hst, State.draining]
  have hbar : (z.pkg p).bar k = { y with state := 4, abort := decide (m = 1#1) } := by
    rw [hpkg, State.draining, bar_setPort, bar_setBar_same, hy]
  have hport : ((z.pkg p).port y.port).releasing = true := by
    rw [hpkg, State.draining, hy, port_setPort_same]
  have hcur' : z.cur = .lintel p := hcur.trans hl.1
  exact ⟨_, hrule.trans (runWord_finished (present_onLintel hl) hw rfl), (bar_gives hcur' k).trans hbar, (congrArg Port.releasing (port_gives hcur' _)).trans hport, reg_gives hcur'⟩

theorem crel_notLive (m : BitVec 1) (hw : Passes s (.crel d a m) w) (hst : y.state = 1 ∨ y.state = 2) : ∃ u, exec (.crel d a m) s = .next u ∧ ((u.pkg p).bar k).state = 0 ∧
    ((u.pkg p).bar k).seq = y.seq ∧ ((u.pkg p).port y.port).state = .dark ∧ (d.toNat < 32 → (u.pkg p).lintel.sc.reg d.toNat = 0#32) := by
  simp only [State.gsrc] at hk
  have hrule : exec (.crel d a m) s = s.runWord (.crel d a m) (.done ((s.givenUp p k).gdst false d.toNat 0)) := by
    change execCrel d a m s = _
    rcases hst with h | h
    · simp only [execCrel, groupOp_unpoisoned hc, asLintel_eq hl.1, hk, hy, h, State.givenUp]
    · simp only [execCrel, groupOp_unpoisoned hc, asLintel_eq hl.1, hk, hy, h, State.givenUp]
  obtain ⟨hbar, hport, hcur⟩ := givenUp_keeps s p k
  rw [hy] at hbar hport
  have hcur' : (s.givenUp p k).cur = .lintel p := hcur.trans hl.1
  have hfreed := (bar_gives (s := s) (n := d.toNat) (v := 0) (w := w) hcur' k).trans hbar
  have hseq := congrArg CircuitBar.seq hfreed
  exact ⟨_, hrule.trans (runWord_finished (present_onLintel hl) hw rfl), congrArg CircuitBar.state hfreed, hseq, (congrArg Port.state (port_gives hcur' _)).trans hport, reg_gives hcur'⟩
end

end

theorem circuitInstructionsComplete : Spec.CircuitInstructionsComplete := by
  intro s p w d a b hl hca hcab hcaw va vb k y gives
  exact ⟨fun hw ha ha' hb hpeer => creq_clause hl hcab rfl hw ha ha' hb hpeer, fun m hw hfree => cawt_clause hl hcab rfl m hw hfree, fun hw => cuse_clause hl hcaw rfl rfl rfl hw,
    fun m hw => ⟨crel_shut hl hca rfl rfl m hw, crel_live hl hca rfl rfl m hw, crel_notLive hl hca rfl rfl m hw⟩, fun hw => cstat_clause hl hca rfl hw⟩

/-! ## Messages (R433-R435) -/

/-- Where a stream's next number stands is no matter of its pump. -/
theorem next_pump (s : State) (p k q j : Nat) : (((s.pump p k).pkg q).stream j).next = ((s.pkg q).stream j).next := by
  have hput : ∀ (u : State) (y : Stream), y.next = ((u.pkg p).stream k).next → (((u.setStream p k y).pkg q).stream j).next = ((u.pkg q).stream j).next := fun u y hy => by
    by_cases hq : q = p
    · subst hq
      rw [State.setStream, pkg_modPkg_same, Pkg.stream]
      by_cases hj : j = k
      · subst hj
        rw [getD_put_same, hy]
      · rw [getD_put_other _ _ _ hj, Pkg.stream]
    · rw [State.setStream, pkg_modPkg_other _ _ hq]
  have hframes : ApartFromFrames fun u => ((State.pkg u q).stream j).next := fun _ _ _ _ => rfl
  unfold State.pump
  dsimp only
  split
  · exact (emit_keeps hframes ..).trans (hput _ _ rfl)
  · split
    · rfl
    · exact (foldl_keeps _ (fun u => ((State.pkg u q).stream j).next) (fun u _ => emit_keeps hframes u ..) _ _).trans (hput _ _ rfl)

/-- A message given to a stream takes the stream's next number (R433). -/
theorem next_planeSend (s : State) (p dst sep dep : Nat) (bytes : List Byte) :
    (((s.planeSend p dst sep dep bytes).pkg p).stream (sendKey dst sep dep)).next = (((s.pkg p).stream (sendKey dst sep dep)).next + 1) % 2 ^ 16 := by
  unfold State.planeSend
  rw [next_pump, State.setStream, pkg_modPkg_same, Pkg.stream, getD_put_same]

section
variable {s : State} {p : Nat} {w : Word} {d a b : BitVec 6} (hl : OnLintel s p) {v : Nat} (hv : s.gsrc false a.toNat = v)
include hl hv

section
variable (hc : Clean s [(a.toNat, false), (b.toNat, true)])
include hc

section
variable (hw : Passes s (.epsnd d a b) w) (hres : bitsOf v 31 26 = 0) (hep : bitsOf v 17 14 < 12) {key : Nat} (hkey : sendKey (bitsOf v 9 0 * 16 + bitsOf v 13 10) (bitsOf v 17 14) (bitsOf v 17 14) = key)
include hw hres hep hkey

theorem epsnd_sends {bytes : List Byte} (hfree : (s.pkg p).lintel.hold = .free) (hread : s.lintelRead p (s.gsrc true b.toNat) (bitsOf v 25 18 + 1) = .inl bytes) :
    ∃ u, exec (.epsnd d a b) s = .next u ∧ ((u.pkg p).stream key).next = (((s.pkg p).stream key).next + 1) % 2 ^ 16 ∧
      (u.pkg p).lintel.hold = .timed 0xF5 ((s.pkg p).stream key).next false ∧ (u.pkg p).lintel.pc = (s.pkg p).lintel.pc := by
  have hill : ¬ (bitsOf v 31 26 ≠ 0 ∨ 12 ≤ bitsOf v 17 14) := by omega
  simp only [State.gsrc] at hv hread
  have hrule : exec (.epsnd d a b) s = s.runWord (.epsnd d a b) (.stay ((s.planeSend p (bitsOf v 9 0 * 16 + bitsOf v 13 10) (bitsOf v 17 14) (bitsOf v 17 14) bytes).setLintelHold p
      (.timed 0xF5 ((s.pkg p).stream key).next false))) := by
    change execEpsnd d a b s = _
    simp only [execEpsnd, groupOp_unpoisoned hc, asLintel_eq hl.1, hv, hill, hfree, hread, hkey, if_false]
  refine ⟨_, hrule.trans (runWord_stays (present_onLintel hl) hw rfl), ?_, ?_, ?_⟩
  · rw [State.setLintelHold, pkg_modPkg_same, ← hkey]
    exact next_planeSend ..
  · rw [State.setLintelHold, pkg_modPkg_same]
  · rw [State.setLintelHold, pkg_modPkg_same]
    exact planeSend_keeps (apartFromPlane_pkg (g := fun x => x.lintel.pc) (fun _ _ => rfl) p) ..

theorem epsnd_accepted {n : Nat} (hhold : (s.pkg p).lintel.hold = .timed 0xF5 n false) (hacked : ((s.pkg p).stream key).acked = (n + 1) % 2 ^ 16) :
    exec (.epsnd d a b) s = .next (finished s (s.gdst false d.toNat 0) w) := by
  have hill : ¬ (bitsOf v 31 26 ≠ 0 ∨ 12 ≤ bitsOf v 17 14) := by omega
  have hnear : (((s.pkg p).stream key).acked + 2 ^ 16 - (n + 1) % 2 ^ 16) % 2 ^ 16 < 2 ^ 15 := by omega
  simp only [State.gsrc] at hv
  exact runWord_finished (present_onLintel hl) hw (by simp only [groupOp_unpoisoned hc, asLintel_eq hl.1, hv, hill, hhold, hkey, eq_true hnear, Bool.false_eq_true, if_true, if_false])

omit hkey in
theorem epsnd_givenUp {n : Nat} (hhold : (s.pkg p).lintel.hold = .timed 0xF5 n true) : exec (.epsnd d a b) s = .next (finished s (s.gdst false d.toNat 1) w) := by
  have hill : ¬ (bitsOf v 31 26 ≠ 0 ∨ 12 ≤ bitsOf v 17 14) := by omega
  simp only [State.gsrc] at hv
  exact runWord_finished (present_onLintel hl) hw (by simp only [groupOp_unpoisoned hc, asLintel_eq hl.1, hv, hill, hhold, if_true, if_false])
end

section
variable (hw : Passes s (.eprcv d a b) w) {ep : Nat} (hep : bitsOf v 3 0 = ep) (hlt : ep < 12) (hfree : (s.pkg p).lintel.hold = .free)
include hw hep hlt hfree

theorem eprcv_receives {m : Nat × List Byte} {rest : List (Nat × List Byte)} {places : List (Nat × Nat)} (hm : SMap.getD (s.pkg p).endpoints [] ep = m :: rest)
    (hpl : s.lintelPlaces p (s.gsrc true b.toNat) m.2.length = .inl places) :
    exec (.eprcv d a b) s = .next (finished s (((s.modPkg p fun x => { x with endpoints := SMap.put x.endpoints ep rest }).storeMessage p places m.2).gdst
      false d.toNat (planeHeader m.1 m.2.length)) w) := by
  simp only [State.gsrc] at hv hpl
  exact runWord_finished (present_onLintel hl) hw (by simp only [groupOp_unpoisoned hc, asLintel_eq hl.1, hv, hep, eq_false (Nat.not_le.mpr hlt), hfree, hm, hpl, if_false])

variable (hnone : SMap.getD (s.pkg p).endpoints [] ep = [])
include hnone

theorem eprcv_none (h0 : bitsOf v 31 4 = 0) : exec (.eprcv d a b) s = .next (finished s (s.gdst false d.toNat 0) w) := by
  simp only [State.gsrc] at hv
  exact runWord_finished (present_onLintel hl) hw (by simp only [groupOp_unpoisoned hc, asLintel_eq hl.1, hv, hep, eq_false (Nat.not_le.mpr hlt), hfree, hnone, h0, Nat.mul_zero, if_true, if_false])

theorem eprcv_waits (h0 : bitsOf v 31 4 ≠ 0) : exec (.eprcv d a b) s = .next (s.setLintelHold p (.timed 0xF6 ((s.pkg p).time + 1000 * bitsOf v 31 4) false)) := by
  have hlim : 1000 * bitsOf v 31 4 ≠ 0 := by omega
  simp only [State.gsrc] at hv
  exact runWord_stays (present_onLintel hl) hw (by simp only [groupOp_unpoisoned hc, asLintel_eq hl.1, hv, hep, eq_false (Nat.not_le.mpr hlt), hfree, hnone, eq_false hlim, if_false])
end
end

theorem exec_htune (hc : Clean s [(a.toNat, false)]) (m : BitVec 1) (hw : Passes s (.htune d a m) w) (hres : bitsOf v 31 10 = 0) :
    let e := (s.pkg p).engine (bitsOf v 3 0)
    let ch := SMap.getD e.margins (50, 50) (16 * bitsOf v 5 4 + bitsOf v 9 6)
    exec (.htune d a m) s = .next (finished s (s.gdst false d.toNat (if m = 1#1 then e.minMargin else ch.1 * 2 ^ 8 + ch.2)) w) := by
  intro e ch
  simp only [State.gsrc] at hv
  exact runWord_finished (present_onLintel hl) hw (by simp only [groupOp_unpoisoned hc, asLintel_eq hl.1, hv, hres, ne_eq, not_true_eq_false, if_false]; rfl)
end

theorem exec_time {s : State} {p : Nat} {w : Word} {d : BitVec 6} (hl : OnLintel s p) (hw : Passes s (.time d) w) :
    exec (.time d) s = .next (finished s (s.gdst true d.toNat ((s.pkg p).time % 2 ^ 64)) w) :=
  runWord_finished (present_onLintel hl) hw (asLintel_eq hl.1 _)

theorem planeAndTimeInstructionsComplete : Spec.PlaneAndTimeInstructionsComplete := by
  intro s p w d a b hl hca hcaw v hold gives
  refine ⟨fun hw hres hep => ⟨fun bytes => epsnd_sends hl rfl hcaw hw hres hep rfl, fun n => epsnd_accepted hl rfl hcaw hw hres hep rfl, fun n => epsnd_givenUp hl rfl hcaw hw hres hep⟩,
    fun hw hep => ⟨fun m rest places hfree => eprcv_receives hl rfl hcaw hw rfl hep hfree, fun hfree => eprcv_none hl rfl hcaw hw rfl hep hfree, fun hfree => eprcv_waits hl rfl hcaw hw rfl hep hfree⟩,
    exec_time hl, fun m hw hres => exec_htune hl rfl hca m hw hres⟩

/-- Settles O44. -/
theorem lintelInstructionsComplete : Obligations.LintelInstructionsComplete := ⟨circuitInstructionsComplete, planeAndTimeInstructionsComplete⟩

end Sys2Proof.Machine

/-! # What a port's change leaves alone (R399) -/

namespace Sys2Proof.Machine

open Sys2Proof Sys2Proof.Spec

/-- Courses, teams, and what a package has of its ports. -/
structure Optics where
  courses : SMap Course
  teams : SMap Team
  ports : SMap Port
  engines : SMap Engine
  time : Nat

def State.optics (s : State) (p : Nat) : Optics :=
  { courses := s.courses, teams := s.teams, ports := (s.pkg p).ports, engines := (s.pkg p).engines, time := (s.pkg p).time }

def Optics.setPort (o : Optics) (n : Nat) (y : Port) : Optics := { o with ports := SMap.put o.ports n y }

section
variable (s : State) (p q n b : Nat)

theorem optics_modPkg {f : Pkg → Pkg} (hp : ∀ x, (f x).ports = x.ports) (he : ∀ x, (f x).engines = x.engines) (ht : ∀ x, (f x).time = x.time) : (s.modPkg p f).optics q = s.optics q := by
  unfold State.optics
  rw [pkgPart_modPkg Pkg.ports hp s, pkgPart_modPkg Pkg.engines he s, pkgPart_modPkg Pkg.time ht s]
  rfl

theorem optics_setPort_same (y : Port) : (s.setPort p n y).optics p = (s.optics p).setPort n y := by
  unfold State.optics Optics.setPort State.setPort
  rw [pkg_modPkg_same]
  rfl

theorem optics_setPort_other (y : Port) (h : q ≠ p) : (s.setPort p n y).optics q = s.optics q := by
  unfold State.optics State.setPort
  rw [pkg_modPkg_other _ _ h]
  rfl

@[simp] theorem optics_setBar (y : CircuitBar) : (s.setBar p b y).optics q = s.optics q :=
  optics_modPkg (f := fun x => { x with bars := SMap.put x.bars b y }) _ _ _ (fun _ => rfl) (fun _ => rfl) (fun _ => rfl)
@[simp] theorem optics_freeBar : (s.freeBar p b).optics q = s.optics q := optics_setBar ..
@[simp] theorem optics_failCopies (which : Copy → Bool) : (s.failCopies p b which).optics q = s.optics q := rfl

@[simp] theorem optics_snapFail (r : Nat) : (s.snapFail p r).optics q = s.optics q := by
  have hteams : (s.snapStatus p (r * 256 + 3)).teams = s.teams := engineWrite_keeps State.teams (fun _ _ _ _ _ _ => rfl) ..
  have hstatus : (s.snapStatus p (r * 256 + 3)).optics q = s.optics q := by
    unfold State.optics State.pkg
    rw [hteams, courses_snapStatus, pkgs_snapStatus]
  refine (optics_modPkg _ _ _ ?_ ?_ ?_).trans hstatus
  · exact fun _ => rfl
  · exact fun _ => rfl
  · exact fun _ => rfl

@[simp] theorem optics_failBar (r : Nat) : (s.failBar p b r).optics q = s.optics q := by
  unfold State.failBar
  dsimp only
  split
  · rw [optics_snapFail, optics_failCopies, optics_setBar]
  · rw [optics_failCopies, optics_setBar]

theorem apartFromPlane_optics : ApartFromPlane fun s => State.optics s q :=
  ⟨fun _ _ k y => optics_modPkg (f := fun x => { x with streams := SMap.put x.streams k y }) _ _ _ (fun _ => rfl) (fun _ => rfl) (fun _ => rfl), fun _ _ _ _ => rfl⟩

theorem optics_queryFate (key : Nat) (t : WallTx) : (s.queryFate p key t).optics q = s.optics q := by
  unfold State.queryFate
  refine (tellPeer_keeps (apartFromPlane_optics q) ..).trans (optics_modPkg _ _ _ ?_ ?_ ?_)
  · exact fun _ => rfl
  · exact fun _ => rfl
  · exact fun _ => rfl

@[simp] theorem optics_failFlits : (s.failFlits p n).optics q = s.optics q := by
  unfold State.failFlits
  dsimp only
  split
  · rfl
  · refine foldl_keeps _ (fun u => State.optics u q) (fun u o => ?_) _ s
    split
    · split
      · rfl
      · exact optics_queryFate ..
    · rfl
end

/-! ## The changes of the table -/

/-- A port as it goes dark (R399). -/
def Port.darkened (y : Port) (last : Option Nat) (now : Nat) : Port :=
  { y with state := .dark, last := last.getD y.last, live := 0, since := now, awaitMc := false, releasing := false, unacked := [] }
/-- A port in quarantine (R402). -/
def Port.quarantined (y : Port) (now : Nat) : Port := { y with state := .quarantine, last := 3, live := 0, since := now, releasing := false }
/-- A port that locks again (R399). -/
def Port.relocked (y : Port) (last : Option Nat) (now : Nat) : Port := { y with state := .locking, last := last.getD y.last, since := now, awaitMc := decide (y.state = .hold) }
/-- A port that becomes live (R399, R400). -/
def Port.enlivened (y : Port) (now : Nat) : Port := { y with state := .live, since := now, retry := min 0xFFFFFFFF (y.retry + y.unacked.length) }

section
variable (s : State) (p n : Nat)

theorem optics_goDark (last : Option Nat) : (s.goDark p n last).optics p = (s.optics p).setPort n (((s.pkg p).port n).darkened last (s.pkg p).time) := by
  unfold State.goDark
  dsimp only
  split
  · split
    · rw [optics_freeBar, optics_setPort_same, optics_failFlits]
      rfl
    · split
      · rw [optics_setPort_same, optics_failFlits]
        rfl
      · rw [optics_failBar, optics_setPort_same, optics_failFlits]
        rfl
  · rw [optics_setPort_same, optics_failFlits]
    rfl

theorem optics_quarantine : (s.quarantine p n).optics p = (s.optics p).setPort n (((s.pkg p).port n).quarantined (s.pkg p).time) := by
  have hchunks : (if n < 32 then s.dropChunks p n else s).optics p = s.optics p := by
    split
    · rfl
    · rfl
  unfold State.quarantine
  dsimp only
  split
  · rw [optics_failBar, optics_setPort_same, hchunks]
    rfl
  · rw [optics_setPort_same, hchunks]
    rfl

theorem optics_relock (last : Option Nat) : (s.relock p n last).optics p = (s.optics p).setPort n (((s.pkg p).port n).relocked last (s.pkg p).time) := by
  unfold State.relock
  dsimp only
  split
  · split
    · rw [optics_setBar, optics_setPort_same]
      rfl
    · rw [optics_setPort_same]
      rfl
  · rw [optics_setPort_same]
    rfl

theorem optics_goLive : (s.goLive p n).optics p = (s.optics p).setPort n (((s.pkg p).port n).enlivened (s.pkg p).time) := by
  unfold State.goLive
  dsimp only
  split
  · split
    · rw [optics_setBar, optics_setPort_same]
      rfl
    · rw [optics_setPort_same]
      rfl
  · rw [optics_setPort_same]
    rfl

theorem optics_goLive_other {q : Nat} (h : q ≠ p) : (s.goLive p n).optics q = s.optics q := by
  unfold State.goLive
  dsimp only
  split
  · split
    · rw [optics_setBar, optics_setPort_other _ _ _ _ _ h]
    · rw [optics_setPort_other _ _ _ _ _ h]
  · rw [optics_setPort_other _ _ _ _ _ h]
end

/-! ## Reading what is left -/

section
variable {s u : State} {p n : Nat}

theorem port_of_optics (h : u.optics p = s.optics p) (m : Nat) : (u.pkg p).port m = (s.pkg p).port m := congrArg (fun o : Optics => SMap.getD o.ports Port.init m) h

variable {z : Port} (h : u.optics p = (s.optics p).setPort n z)
include h

theorem port_of_set : (u.pkg p).port n = z := (congrArg (fun o : Optics => SMap.getD o.ports Port.init n) h).trans (getD_put_same ..)
theorem port_of_set_other {m : Nat} (hm : m ≠ n) : (u.pkg p).port m = (s.pkg p).port m := (congrArg (fun o : Optics => SMap.getD o.ports Port.init m) h).trans (getD_put_other _ _ _ hm)
theorem engines_of_set : (u.pkg p).engines = (s.pkg p).engines := congrArg Optics.engines h
theorem time_of_set : (u.pkg p).time = (s.pkg p).time := congrArg Optics.time h

theorem portIs_of_set : PortIs s u p n z.state z.last z.live := by
  unfold PortIs
  dsimp only
  rw [port_of_set h]
  exact ⟨rfl, rfl, rfl, fun m hm => port_of_set_other h hm, congrArg Optics.courses h, congrArg Optics.teams h⟩
end

end Sys2Proof.Machine

/-! # Optical ports and engines (R396-R403) -/

namespace Sys2Proof.Machine

open Sys2Proof Sys2Proof.Spec

/-! ## Hold's expiry (R399) -/

/-- A microcontroller of a port's engines has not returned within 50 ms of its reset. -/
def Late (x : Pkg) (n : Nat) : Prop := ∃ e ∈ portEngines n, (x.engine e).mcRun = false ∧ (x.engine e).downSince + 50000000 ≤ x.time
/-- A port whose hold, or whose wait for its microcontroller, has expired. -/
def Expired (x : Pkg) (n : Nat) : Prop := ((x.port n).state = .hold ∨ ((x.port n).state = .locking ∧ (x.port n).awaitMc = true)) ∧ Late x n

section
variable {s : State} {p n : Nat}

theorem late_iff (x : Pkg) : ((portEngines n).any fun e => !(x.engine e).mcRun && x.past (x.engine e).downSince 50000000) = true ↔ Late x n := by
  simp only [List.any_eq_true, Bool.and_eq_true, Bool.not_eq_true', Pkg.past, decide_eq_true_eq, Late]

theorem holdExpires_of_expired (h : Expired (s.pkg p) n) : s.holdExpires p n = s.goDark p n (some 5) := if_pos ⟨h.1, (late_iff _).mpr h.2⟩
theorem holdExpires_of_not (h : ¬ Expired (s.pkg p) n) : s.holdExpires p n = s := if_neg fun ⟨hst, hlate⟩ => h ⟨hst, (late_iff _).mp hlate⟩

theorem not_expired_of_state (hhold : ((s.pkg p).port n).state ≠ .hold) (hlock : ((s.pkg p).port n).state = .locking → ((s.pkg p).port n).awaitMc = false) : ¬ Expired (s.pkg p) n := by
  rintro ⟨h | ⟨h, haw⟩, _⟩
  · exact hhold h
  · exact Bool.false_ne_true ((hlock h).symm.trans haw)

theorem portEvent_eq (hp : p < 16) (hn : n < 48) (hno : ¬ Expired (s.pkg p) n) {f : Pkg → Port → State} {u : State} (h : f (s.pkg p) ((s.pkg p).port n) = u) : s.portEvent p n f = .next u := by
  unfold State.portEvent
  rw [if_neg (by omega), holdExpires_of_not hno]
  exact congrArg Host.Outcome.next h
end

/-! ## The table (R399) -/

/-- Two changes of one port, one after another. -/
theorem portIs_of_sets {s t u : State} {p n : Nat} {y z : Port} (h : t.optics p = (s.optics p).setPort n y) (h' : u.optics p = (t.optics p).setPort n z) :
    PortIs s u p n z.state z.last z.live := by
  unfold PortIs
  dsimp only
  rw [port_of_set h']
  exact ⟨rfl, rfl, rfl, fun m hm => (port_of_set_other h' hm).trans (port_of_set_other h hm), (congrArg Optics.courses h').trans (congrArg Optics.courses h),
    (congrArg Optics.teams h').trans (congrArg Optics.teams h)⟩

section
variable {s : State} {p n : Nat} (hp : p < 16) (hn : n < 48)
include hp hn

section
variable (hst : ((s.pkg p).port n).state = .locking) (haw : ((s.pkg p).port n).awaitMc = false)
include hst haw

theorem lock_achieved {ch : Nat} (hch : portNeeds n ≤ ch) (hlit : s.lit p n = true) (hin : (s.pkg p).time ≤ ((s.pkg p).port n).since + 1500000) :
    ∃ u, exec (.lockAchieved p n ch) s = .next u ∧ PortIs s u p n .trained ((s.pkg p).port n).last (min (portChannels n) ch) := by
  have hno : ¬ Expired (s.pkg p) n := not_expired_of_state (by simp [hst]) fun _ => haw
  have hover : (s.pkg p).over ((s.pkg p).port n).since 1500000 = false := decide_eq_false (by omega)
  have hexec : exec (.lockAchieved p n ch) s = .next (s.setPort p n { (s.pkg p).port n with state := .trained, live := min (portChannels n) ch, since := (s.pkg p).time }) := by
    change execLockAchieved p n ch s = _
    exact portEvent_eq hp hn hno (if_pos ⟨hst, by rw [haw]; rfl, hch, hlit, by rw [hover]; rfl⟩)
  have hleft := portIs_of_set (optics_setPort_same s p n { (s.pkg p).port n with state := .trained, live := min (portChannels n) ch, since := (s.pkg p).time })
  exact ⟨_, hexec, hleft⟩

theorem lock_unlit {ch : Nat} (hlit : s.lit p n = false) : exec (.lockAchieved p n ch) s = .next s := by
  have hno : ¬ Expired (s.pkg p) n := not_expired_of_state (by simp [hst]) fun _ => haw
  change execLockAchieved p n ch s = _
  refine portEvent_eq hp hn hno (if_neg ?_)
  rintro ⟨_, _, _, h, _⟩
  exact Bool.false_ne_true (hlit.symm.trans h)

theorem lock_timeout (hout : ((s.pkg p).port n).since + 1500000 ≤ (s.pkg p).time) : ∃ u, exec (.lockTimeout p n) s = .next u ∧ PortIs s u p n .dark 1 0 := by
  have hno : ¬ Expired (s.pkg p) n := not_expired_of_state (by simp [hst]) fun _ => haw
  have hexec : exec (.lockTimeout p n) s = .next (s.goDark p n (some 1)) := by
    change execLockTimeout p n s = _
    exact portEvent_eq hp hn hno (if_pos ⟨hst, by rw [haw]; rfl, decide_eq_true hout⟩)
  have hleft := portIs_of_set (optics_goDark s p n (some 1))
  exact ⟨_, hexec, hleft⟩
end

section
variable (hst : ((s.pkg p).port n).state = .trained)
include hst

theorem deskew_done (hlit : s.lit p n = true) (hin : (s.pkg p).time ≤ ((s.pkg p).port n).since + 120000) :
    ∃ u, exec (.deskewDone p n) s = .next u ∧ PortIs s u p n (if n = 32 then .live else .authenticating) ((s.pkg p).port n).last ((s.pkg p).port n).live := by
  have hno : ¬ Expired (s.pkg p) n := not_expired_of_state (by simp [hst]) (by simp [hst])
  have hover : (s.pkg p).over ((s.pkg p).port n).since 120000 = false := decide_eq_false (by omega)
  have hexec : exec (.deskewDone p n) s = .next (if n = 32 then s.goLive p n else s.setPort p n { (s.pkg p).port n with state := .authenticating, since := (s.pkg p).time }) := by
    change execDeskewDone p n s = _
    exact portEvent_eq hp hn hno (if_neg (by simp [hst, hlit, hover]))
  refine ⟨_, hexec, ?_⟩
  by_cases h : n = 32
  · rw [if_pos h, if_pos h]
    exact portIs_of_set (optics_goLive s p n)
  · rw [if_neg h, if_neg h]
    exact portIs_of_set (optics_setPort_same s p n _)

theorem train_timeout (hout : ((s.pkg p).port n).since + 120000 ≤ (s.pkg p).time) : ∃ u, exec (.trainTimeout p n) s = .next u ∧ PortIs s u p n .dark 2 0 := by
  have hno : ¬ Expired (s.pkg p) n := not_expired_of_state (by simp [hst]) (by simp [hst])
  have hexec : exec (.trainTimeout p n) s = .next (s.goDark p n (some 2)) := by
    change execTrainTimeout p n s = _
    exact portEvent_eq hp hn hno (if_pos ⟨hst, decide_eq_true hout⟩)
  have hleft := portIs_of_set (optics_goDark s p n (some 2))
  exact ⟨_, hexec, hleft⟩
end

section
variable (hst : ((s.pkg p).port n).state = .authenticating)
include hst

/-- Success before the time-out, by the peer's end. -/
theorem exec_authSuccess (hin : (s.pkg p).time < ((s.pkg p).port n).since + 80000) : exec (.authSuccess p n) s = .next (match s.peerPort p n with
    | none => s.goLive p n
    | some (q, m) => if ((s.pkg q).port m).state = .live then s.goLive p n
      else if ((s.pkg q).port m).state = .authenticating ∧ !(s.pkg q).past ((s.pkg q).port m).since 80000 then (s.goLive p n).goLive q m else s) := by
  have hno : ¬ Expired (s.pkg p) n := not_expired_of_state (by simp [hst]) (by simp [hst])
  have hpast : (s.pkg p).past ((s.pkg p).port n).since 80000 = false := decide_eq_false (by omega)
  change execAuthSuccess p n s = _
  exact portEvent_eq hp hn hno (if_neg (by simp [hst, hpast]))

theorem auth_live (hin : (s.pkg p).time < ((s.pkg p).port n).since + 80000) (hpeer : ∀ q m, s.peerPort p n = some (q, m) → ((s.pkg q).port m).state = .live) :
    ∃ u, exec (.authSuccess p n) s = .next u ∧ PortIs s u p n .live ((s.pkg p).port n).last ((s.pkg p).port n).live := by
  have hexec : exec (.authSuccess p n) s = .next (s.goLive p n) := by
    rw [exec_authSuccess hp hn hst hin]
    split
    · rfl
    · next q m hqm => rw [if_pos (hpeer q m hqm)]
  have hleft := portIs_of_set (optics_goLive s p n)
  exact ⟨_, hexec, hleft⟩

theorem auth_both (hin : (s.pkg p).time < ((s.pkg p).port n).since + 80000) {q m : Nat} (hpeer : s.peerPort p n = some (q, m)) (hz : ((s.pkg q).port m).state = .authenticating)
    (hzin : (s.pkg q).time < ((s.pkg q).port m).since + 80000) : ∃ u, exec (.authSuccess p n) s = .next u ∧ ((u.pkg p).port n).state = .live ∧ ((u.pkg q).port m).state = .live ∧
      u.courses = s.courses ∧ u.teams = s.teams := by
  have hpast : (s.pkg q).past ((s.pkg q).port m).since 80000 = false := decide_eq_false (by omega)
  have hexec : exec (.authSuccess p n) s = .next ((s.goLive p n).goLive q m) := by
    rw [exec_authSuccess hp hn hst hin, hpeer]
    exact congrArg Host.Outcome.next ((if_neg (by simp [hz])).trans (if_pos ⟨hz, by rw [hpast]; rfl⟩))
  have hown := optics_goLive s p n
  have hother := optics_goLive (s.goLive p n) q m
  have hlive : ((((s.goLive p n).goLive q m).pkg p).port n).state = .live := by
    by_cases hq : q = p
    · subst hq
      by_cases hm : n = m
      · subst hm
        rw [port_of_set hother]
        rfl
      · rw [port_of_set_other hother hm, port_of_set hown]
        rfl
    · rw [port_of_optics (optics_goLive_other (s.goLive p n) q m fun h => hq h.symm), port_of_set hown]
      rfl
  refine ⟨_, hexec, hlive, ?_, (congrArg Optics.courses hother).trans (congrArg Optics.courses hown), (congrArg Optics.teams hother).trans (congrArg Optics.teams hown)⟩
  rw [port_of_set hother]
  rfl

theorem auth_failure : ∃ u, exec (.authFailure p n) s = .next u ∧ PortIs s u p n .quarantine 3 0 := by
  have hno : ¬ Expired (s.pkg p) n := not_expired_of_state (by simp [hst]) (by simp [hst])
  have hexec : exec (.authFailure p n) s = .next (s.quarantine p n) := by
    change execAuthFailure p n s = _
    exact portEvent_eq hp hn hno (if_pos hst)
  have hleft := portIs_of_set (optics_quarantine s p n)
  exact ⟨_, hexec, hleft⟩

theorem auth_timeout (hout : ((s.pkg p).port n).since + 80000 ≤ (s.pkg p).time) : ∃ u, exec (.authTimeout p n) s = .next u ∧ PortIs s u p n .quarantine 3 0 := by
  have hno : ¬ Expired (s.pkg p) n := not_expired_of_state (by simp [hst]) (by simp [hst])
  have hexec : exec (.authTimeout p n) s = .next (s.quarantine p n) := by
    change execAuthTimeout p n s = _
    exact portEvent_eq hp hn hno (if_pos ⟨hst, decide_eq_true hout⟩)
  have hleft := portIs_of_set (optics_quarantine s p n)
  exact ⟨_, hexec, hleft⟩
end

section
variable (hno : ¬ Expired (s.pkg p) n)
include hno

theorem errorWindow_exceeded {w : Nat} (hst : ((s.pkg p).port n).state = .live ∨ ((s.pkg p).port n).state = .hold) (hw : bitsOf (s.reg p optBase) 31 24 < w) :
    ∃ u, exec (.errorWindowExceeded p n w) s = .next u ∧ PortIs s u p n .locking 4 ((s.pkg p).port n).live := by
  have hexec : exec (.errorWindowExceeded p n w) s = .next (s.relock p n (some 4)) := by
    change execErrorWindowExceeded p n w s = _
    exact portEvent_eq hp hn hno (if_pos ⟨hst, hw⟩)
  have hleft := portIs_of_set (optics_relock s p n (some 4))
  exact ⟨_, hexec, hleft⟩

theorem channel_relock (hdark : ((s.pkg p).port n).state ≠ .dark) (hq : ((s.pkg p).port n).state ≠ .quarantine) :
    ∃ u, exec (.channelRelock p n) s = .next u ∧ PortIs s u p n ((s.pkg p).port n).state ((s.pkg p).port n).last (min (portChannels n) (((s.pkg p).port n).live + 1)) := by
  have hexec : exec (.channelRelock p n) s = .next (s.setPort p n { (s.pkg p).port n with live := min (portChannels n) (((s.pkg p).port n).live + 1) }) := by
    change execChannelRelock p n s = _
    exact portEvent_eq hp hn hno (if_neg fun h => h.elim hdark hq)
  have hleft := portIs_of_set (optics_setPort_same s p n { (s.pkg p).port n with live := min (portChannels n) (((s.pkg p).port n).live + 1) })
  exact ⟨_, hexec, hleft⟩

theorem flit_acked (q : Nat) : ∃ u, exec (.flitAck p n q) s = .next u ∧ PortIs s u p n ((s.pkg p).port n).state ((s.pkg p).port n).last ((s.pkg p).port n).live ∧
    ∀ f, f ∈ ((u.pkg p).port n).unacked ↔ f ∈ ((s.pkg p).port n).unacked ∧ q < f.1 := by
  have hset := optics_setPort_same s p n { (s.pkg p).port n with unacked := ((s.pkg p).port n).unacked.filter fun f => decide (q < f.1) }
  have hleft := portIs_of_set hset
  have hexec : exec (.flitAck p n q) s = .next (s.setPort p n { (s.pkg p).port n with unacked := ((s.pkg p).port n).unacked.filter fun f => decide (q < f.1) }) := by
    change execFlitAck p n q s = _
    exact portEvent_eq hp hn hno rfl
  refine ⟨_, hexec, hleft, fun f => ?_⟩
  rw [port_of_set hset]
  simp

section
variable (hlive : 0 < ((s.pkg p).port n).live)
include hlive

/-- A port that has lost a channel, before what its state makes of it. -/
def State.channelLost (s : State) (p n : Nat) : State := s.setPort p n { (s.pkg p).port n with live := ((s.pkg p).port n).live - 1 }

theorem exec_channelLockLoss : exec (.channelLockLoss p n) s = .next (if portNeeds n ≤ ((s.pkg p).port n).live - 1 then s.channelLost p n else match ((s.pkg p).port n).state with
    | .live => (s.channelLost p n).relock p n none
    | .trained | .authenticating => (s.channelLost p n).goDark p n (some 2)
    | .dark | .locking | .quarantine | .hold => s.channelLost p n) := by
  change execChannelLockLoss p n s = _
  exact portEvent_eq hp hn hno (if_neg (by omega))

theorem channel_lost (hmore : portNeeds n < ((s.pkg p).port n).live) :
    ∃ u, exec (.channelLockLoss p n) s = .next u ∧ PortIs s u p n ((s.pkg p).port n).state ((s.pkg p).port n).last (((s.pkg p).port n).live - 1) := by
  have hexec := exec_channelLockLoss hp hn hno hlive
  rw [if_pos (by omega)] at hexec
  have hleft := portIs_of_set (optics_setPort_same s p n { (s.pkg p).port n with live := ((s.pkg p).port n).live - 1 })
  exact ⟨_, hexec, hleft⟩

theorem channel_lost_live (hfew : ((s.pkg p).port n).live ≤ portNeeds n) (hst : ((s.pkg p).port n).state = .live) :
    ∃ u, exec (.channelLockLoss p n) s = .next u ∧ PortIs s u p n .locking ((s.pkg p).port n).last (((s.pkg p).port n).live - 1) := by
  have hexec := exec_channelLockLoss hp hn hno hlive
  rw [if_neg (by omega), hst] at hexec
  have hset := optics_setPort_same s p n { (s.pkg p).port n with live := ((s.pkg p).port n).live - 1 }
  have hleft := portIs_of_sets hset (optics_relock (s.channelLost p n) p n none)
  rw [State.channelLost, port_of_set hset] at hleft
  exact ⟨_, hexec, hleft⟩

theorem channel_lost_early (hfew : ((s.pkg p).port n).live ≤ portNeeds n) (hst : ((s.pkg p).port n).state = .trained ∨ ((s.pkg p).port n).state = .authenticating) :
    ∃ u, exec (.channelLockLoss p n) s = .next u ∧ PortIs s u p n .dark 2 0 := by
  have hexec : exec (.channelLockLoss p n) s = .next ((s.channelLost p n).goDark p n (some 2)) := by
    rw [exec_channelLockLoss hp hn hno hlive, if_neg (by omega)]
    rcases hst with h | h
    · rw [h]
    · rw [h]
  have hset := optics_setPort_same s p n { (s.pkg p).port n with live := ((s.pkg p).port n).live - 1 }
  have hleft := portIs_of_sets hset (optics_goDark (s.channelLost p n) p n (some 2))
  exact ⟨_, hexec, hleft⟩
end
end

theorem wallLink_restarts (h32 : 32 ≤ n) (hst : ((s.pkg p).port n).state = .dark) (hmc : (s.pkg p).mcRuns n = true) (hup : (s.pkg p).linksUp n = true)
    (hout : ((s.pkg p).port n).since + 10000000 ≤ (s.pkg p).time) :
    ∃ u, exec (.wallLinkRestart p n) s = .next u ∧ PortIs s u p n .locking ((s.pkg p).port n).last ((s.pkg p).port n).live := by
  have hno : ¬ Expired (s.pkg p) n := not_expired_of_state (by simp [hst]) (by simp [hst])
  have hexec : exec (.wallLinkRestart p n) s = .next (s.setPort p n { (s.pkg p).port n with state := .locking, since := (s.pkg p).time, awaitMc := false }) := by
    change execWallLinkRestart p n s = _
    exact portEvent_eq hp hn hno ((if_pos ⟨h32, hst, hmc, hup, decide_eq_true hout⟩).trans (if_pos hup))
  have hleft := portIs_of_set (optics_setPort_same s p n { (s.pkg p).port n with state := .locking, since := (s.pkg p).time, awaitMc := false })
  exact ⟨_, hexec, hleft⟩

theorem hold_expires (hex : Expired (s.pkg p) n) : ∃ u, exec (.holdExpiry p n) s = .next u ∧ PortIs s u p n .dark 5 0 := by
  have hexec : exec (.holdExpiry p n) s = .next (s.goDark p n (some 5)) := congrArg Host.Outcome.next ((if_neg (by omega)).trans (holdExpires_of_expired hex))
  have hleft := portIs_of_set (optics_goDark s p n (some 5))
  exact ⟨_, hexec, hleft⟩

theorem quarantine_ends (hst : ((s.pkg p).port n).state = .quarantine) (hout : ((s.pkg p).port n).since + 1000000 * bitsOf (s.reg p (optBase + 4)) 15 0 ≤ (s.pkg p).time)
    (hdone : ∀ b z, (s.pkg p).barOf n = some (b, z) → ∀ kc ∈ s.copies, kc.2.bar = some b → pkgOfCore kc.2.core = p → kc.2.failed = none) :
    ∃ u, exec (.quarantineExit p n) s = .next u ∧ PortIs s u p n .dark ((s.pkg p).port n).last 0 := by
  have hno : ¬ Expired (s.pkg p) n := not_expired_of_state (by simp [hst]) (by simp [hst])
  have hwaits : (match (s.pkg p).barOf n with
      | some (b, _) => List.any s.copies fun (kc : Nat × Copy) => decide (kc.2.bar = some b) && decide (pkgOfCore kc.2.core = p) && kc.2.failed.isSome
      | none => false) = false := by
    split
    · next b z hb =>
      rw [List.any_eq_false]
      intro kc hkc hbusy
      simp only [Bool.and_eq_true, decide_eq_true_eq] at hbusy
      obtain ⟨⟨hbar, hpkg⟩, hfailed⟩ := hbusy
      rw [hdone b z hb kc hkc hbar hpkg] at hfailed
      exact Bool.false_ne_true hfailed
    · rfl
  have hexec : exec (.quarantineExit p n) s = .next (s.goDark p n none) := by
    change execQuarantineExit p n s = _
    exact portEvent_eq hp hn hno (if_pos ⟨hst, congrArg Bool.not hwaits, decide_eq_true hout⟩)
  have hleft := portIs_of_set (optics_goDark s p n none)
  exact ⟨_, hexec, hleft⟩
end

theorem portEventsComplete : Spec.PortEventsComplete := by
  intro s p n hp hn x y goes late expired
  refine ⟨fun hst haw => ⟨fun ch => lock_achieved hp hn hst haw, fun ch => lock_unlit hp hn hst haw, lock_timeout hp hn hst haw⟩, fun hst => ⟨deskew_done hp hn hst, train_timeout hp hn hst⟩,
    fun hst => ⟨fun hin => ⟨auth_live hp hn hst hin, fun q m => auth_both hp hn hst hin⟩, auth_failure hp hn hst, auth_timeout hp hn hst⟩,
    fun w hst hno => errorWindow_exceeded hp hn hno hst,
    fun hlive hno => ⟨channel_lost hp hn hno hlive, fun hfew => ⟨channel_lost_live hp hn hno hlive hfew, channel_lost_early hp hn hno hlive hfew⟩⟩,
    fun hdark hq hno => channel_relock hp hn hno hdark hq, wallLink_restarts hp hn, hold_expires hp hn, quarantine_ends hp hn, fun q hno => flit_acked hp hn hno q⟩

/-! ## An engine's ports, one after another -/

section
variable {s : State} {p : Nat}

/-- A step at port m of package p: it relates the port before to the port after, and changes nothing else of the package's ports, engines and time. -/
structure StepAt (R : Nat → Port → Port → Prop) (p m : Nat) (u v : State) : Prop where
  here : R m ((u.pkg p).port m) ((v.pkg p).port m)
  others : ∀ k, k ≠ m → (v.pkg p).port k = (u.pkg p).port k
  engines : (v.pkg p).engines = (u.pkg p).engines
  time : (v.pkg p).time = (u.pkg p).time

/-- Steps at some ports, each related to its port as it was, the others as they were. -/
structure StepsAt (R : Nat → Port → Port → Prop) (p : Nat) (ports : List Nat) (u v : State) : Prop where
  here : ∀ m ∈ ports, R m ((u.pkg p).port m) ((v.pkg p).port m)
  others : ∀ k, k ∉ ports → (v.pkg p).port k = (u.pkg p).port k
  engines : (v.pkg p).engines = (u.pkg p).engines
  time : (v.pkg p).time = (u.pkg p).time

theorem stepAt_self {R : Nat → Port → Port → Prop} {m : Nat} {u : State} (h : R m ((u.pkg p).port m) ((u.pkg p).port m)) : StepAt R p m u u := ⟨h, fun _ _ => rfl, rfl, rfl⟩

theorem stepAt_of_set {R : Nat → Port → Port → Prop} {m : Nat} {u v : State} {z : Port} (hset : v.optics p = (u.optics p).setPort m z) (h : R m ((u.pkg p).port m) z) : StepAt R p m u v :=
  ⟨by rw [port_of_set hset]; exact h, fun _ hk => port_of_set_other hset hk, engines_of_set hset, time_of_set hset⟩

theorem stepsAt_foldl {R : Nat → Port → Port → Prop} {engines : SMap Engine} {time : Nat} {step : State → Nat → State}
    (hstep : ∀ u m, (u.pkg p).engines = engines → (u.pkg p).time = time → StepAt R p m u (step u m)) {ports : List Nat} (hnd : ports.Nodup) :
    ∀ u : State, (u.pkg p).engines = engines → (u.pkg p).time = time → StepsAt R p ports u (ports.foldl step u) := by
  induction ports with
  | nil => exact fun u _ _ => ⟨fun _ h => absurd h List.not_mem_nil, fun _ _ => rfl, rfl, rfl⟩
  | cons m ports ih =>
    intro u he ht
    obtain ⟨hm, hnd⟩ := List.nodup_cons.mp hnd
    have first := hstep u m he ht
    have rest := ih hnd (step u m) (first.engines.trans he) (first.time.trans ht)
    refine ⟨fun k hk => ?_, fun k hk => ?_, rest.engines.trans first.engines, rest.time.trans first.time⟩
    · rcases List.mem_cons.mp hk with rfl | hk
      · rw [List.foldl_cons, rest.others _ hm]
        exact first.here
      · have hne : k ≠ m := fun h => hm (h ▸ hk)
        rw [List.foldl_cons, ← first.others k hne]
        exact rest.here k hk
    · rw [List.mem_cons, not_or] at hk
      rw [List.foldl_cons, rest.others k hk.2, first.others k hk.1]
end

theorem nodup_enginePorts {e : Nat} (he : e < 16) : (enginePorts e).Nodup := by
  have hall : ∀ e, e < 16 → (enginePorts e).Nodup := by decide
  exact hall e he

section
variable (s : State) (p e : Nat) (f : Engine → Engine)

theorem engine_modEngine : ((s.modEngine p e f).pkg p).engine e = f ((s.pkg p).engine e) := by
  rw [State.modEngine, pkg_modPkg_same]
  exact getD_put_same ..
theorem port_modEngine (n : Nat) : ((s.modEngine p e f).pkg p).port n = (s.pkg p).port n := by
  rw [State.modEngine, pkg_modPkg_same]
  rfl

theorem engine_congr {x y : Pkg} (h : x.engines = y.engines) (e : Nat) : x.engine e = y.engine e := by rw [Pkg.engine, h, Pkg.engine]
theorem mcRuns_congr {x y : Pkg} (h : x.engines = y.engines) (n : Nat) : x.mcRuns n = y.mcRuns n := by simp only [Pkg.mcRuns, engine_congr h]
end

section
variable {s : State} {p e : Nat} (hp : p < 16) (he : e < 16)
include hp he

/-! ## UCIe links (R396) -/

theorem link_up : ∃ u, exec (.ucieLinkUp p e) s = .next u ∧ ((u.pkg p).engine e).ucUp = true ∧ ∀ n, (u.pkg p).port n = (s.pkg p).port n :=
  ⟨_, congrArg Host.Outcome.next (if_neg (by omega)), congrArg Engine.ucUp (engine_modEngine s p e fun y => { y with ucUp := true }), port_modEngine s p e _⟩

/-- What a link down makes of a port of its engine. -/
def LinkLost (_ : Nat) (y z : Port) : Prop := z.state = .dark ∧ (y.state ≠ .dark → z.last = 5)

theorem link_down : ∃ u, exec (.ucieLinkDown p e) s = .next u ∧ ((u.pkg p).engine e).ucUp = false ∧ ∀ n,
    (n ∈ enginePorts e → ((u.pkg p).port n).state = .dark ∧ (((s.pkg p).port n).state ≠ .dark → ((u.pkg p).port n).last = 5)) ∧ (n ∉ enginePorts e → (u.pkg p).port n = (s.pkg p).port n) := by
  have hstep : ∀ (u : State) m, StepAt LinkLost p m u (if ((u.pkg p).port m).state = .dark then u else u.goDark p m (some 5)) := fun u m => by
    split
    next h => exact stepAt_self ⟨h, fun hne => absurd h hne⟩
    next => exact stepAt_of_set (optics_goDark u p m (some 5)) ⟨rfl, fun _ => rfl⟩
  have hsteps := stepsAt_foldl (fun u m _ _ => hstep u m) (nodup_enginePorts he) (s.modEngine p e fun y => { y with ucUp := false }) rfl rfl
  have hports := port_modEngine s p e fun y => { y with ucUp := false }
  refine ⟨_, congrArg Host.Outcome.next (if_neg (by omega)), ?_, fun n => ⟨fun hn => ?_, fun hn => ?_⟩⟩
  · rw [engine_congr hsteps.engines, engine_modEngine]
  · rw [← hports n]
    exact hsteps.here n hn
  · rw [← hports n]
    exact hsteps.others n hn

/-! ## Microcontrollers (R399) -/

/-- What a microcontroller's reset makes of a port. -/
def McLost (_ : Nat) (y z : Port) : Prop := (y.state = .live → z.state = .hold) ∧
  (y.state = .locking ∨ y.state = .trained ∨ y.state = .authenticating → z.state = .dark ∧ z.last = 6) ∧ (y.state = .dark ∨ y.state = .quarantine ∨ y.state = .hold → z = y)

/-- An engine whose microcontroller's watchdog resets it (R399). -/
def Engine.mcReset (y : Engine) (now : Nat) : Engine := { y with mcRun := false, wdog := min 255 (y.wdog + 1), downSince := now }

/-- A microcontroller's reset at port m. -/
def State.mcLost (s : State) (p m : Nat) : State :=
  match ((s.pkg p).port m).state with
  | .live => s.setPort p m { (s.pkg p).port m with state := .hold }
  | .locking | .trained | .authenticating => s.goDark p m (some 6)
  | .dark | .quarantine | .hold => s

theorem mc_reset : ∃ u, exec (.mcWatchdogReset p e) s = .next u ∧ ((u.pkg p).engine e).mcRun = false ∧ ((u.pkg p).engine e).wdog = min 255 (((s.pkg p).engine e).wdog + 1) ∧ ∀ n,
    (n ∈ enginePorts e → McLost n ((s.pkg p).port n) ((u.pkg p).port n)) ∧ (n ∉ enginePorts e → (u.pkg p).port n = (s.pkg p).port n) := by
  have hstep : ∀ (u : State) m, StepAt McLost p m u (u.mcLost p m) := fun u m => by
    unfold State.mcLost
    split
    next h => exact stepAt_of_set (optics_setPort_same ..) (by simp [McLost, h])
    next h => exact stepAt_of_set (optics_goDark u p m (some 6)) (by simp [McLost, h, Port.darkened])
    next h => exact stepAt_of_set (optics_goDark u p m (some 6)) (by simp [McLost, h, Port.darkened])
    next h => exact stepAt_of_set (optics_goDark u p m (some 6)) (by simp [McLost, h, Port.darkened])
    next h => exact stepAt_self (by simp [McLost, h])
    next h => exact stepAt_self (by simp [McLost, h])
    next h => exact stepAt_self (by simp [McLost, h])
  have hsteps := stepsAt_foldl (fun u m _ _ => hstep u m) (nodup_enginePorts he) (s.modEngine p e fun y => y.mcReset (s.pkg p).time) rfl rfl
  have hexec : exec (.mcWatchdogReset p e) s = .next ((enginePorts e).foldl (fun u m => u.mcLost p m) (s.modEngine p e fun y => y.mcReset (s.pkg p).time)) := by
    change execMcWatchdogReset p e s = _
    exact congrArg Host.Outcome.next (if_neg (by omega))
  have hports := port_modEngine s p e fun y => y.mcReset (s.pkg p).time
  have hengine := (engine_congr hsteps.engines e).trans (engine_modEngine s p e fun y => y.mcReset (s.pkg p).time)
  refine ⟨_, hexec, congrArg Engine.mcRun hengine, congrArg Engine.wdog hengine, fun n => ⟨fun hn => ?_, fun hn => ?_⟩⟩
  · rw [← hports n]
    exact hsteps.here n hn
  · rw [← hports n]
    exact hsteps.others n hn

/-- A microcontroller's return at port m (R399). -/
def State.mcBack (s : State) (p m : Nat) : State :=
  if !(s.pkg p).mcRuns m then s
  else match ((s.pkg p).port m).state with
    | .hold =>
      let u := s.setPort p m { (s.pkg p).port m with state := .live }
      if ((s.pkg p).port m).live < portNeeds m then u.relock p m none else u
    | .locking => if ((s.pkg p).port m).awaitMc then s.setPort p m { (s.pkg p).port m with awaitMc := false, since := (s.pkg p).time } else s
    | _ => s

/-- What the expiry of a hold makes of a port that was in hold. -/
def HoldOver (x : Pkg) (m : Nat) (y z : Port) : Prop := y.state = .hold → (Late x m → z.state = .dark ∧ z.last = 5) ∧ (¬ Late x m → z = y)

/-- What a microcontroller's return makes of a port in hold, or dark. -/
def McBack (x : Pkg) (m : Nat) (y z : Port) : Prop := (y.state = .dark → z = y) ∧
  (y.state = .hold → x.mcRuns m = true → z.state = if y.live < portNeeds m then .locking else .live)

omit hp he in
theorem late_congr {x y : Pkg} (hen : x.engines = y.engines) (ht : x.time = y.time) (n : Nat) : Late x n ↔ Late y n := by
  simp only [Late, engine_congr hen, ht]

omit hp he in
theorem stepAt_holdExpires {u : State} {m : Nat} (hen : (u.pkg p).engines = (s.pkg p).engines) (ht : (u.pkg p).time = (s.pkg p).time) :
    StepAt (HoldOver (s.pkg p)) p m u (u.holdExpires p m) := by
  by_cases h : Expired (u.pkg p) m
  · rw [holdExpires_of_expired h]
    exact stepAt_of_set (optics_goDark u p m (some 5)) fun _ => ⟨fun _ => ⟨rfl, rfl⟩, fun hno => absurd ((late_congr hen ht m).mp h.2) hno⟩
  · rw [holdExpires_of_not h]
    exact stepAt_self fun hst => ⟨fun hlate => absurd ⟨.inl hst, (late_congr hen ht m).mpr hlate⟩ h, fun _ => rfl⟩

omit hp he in
theorem stepAt_mcBack {x : Pkg} {u : State} {m : Nat} (hen : (u.pkg p).engines = x.engines) : StepAt (McBack x) p m u (u.mcBack p m) := by
  unfold State.mcBack
  split
  next h =>
    have hmc : x.mcRuns m = false := by rw [← mcRuns_congr hen]; simpa using h
    exact stepAt_self ⟨fun _ => rfl, fun _ hruns => absurd (hmc.symm.trans hruns) Bool.false_ne_true⟩
  next =>
    split
    next h =>
      have hback := optics_setPort_same u p m { (u.pkg p).port m with state := .live }
      dsimp only
      split
      next hfew =>
        have hlock := optics_relock (u.setPort p m { (u.pkg p).port m with state := .live }) p m none
        refine ⟨⟨fun hdark => absurd (h.symm.trans hdark) (by decide), fun _ _ => ?_⟩, fun k hk => (port_of_set_other hlock hk).trans (port_of_set_other hback hk),
          (engines_of_set hlock).trans (engines_of_set hback), (time_of_set hlock).trans (time_of_set hback)⟩
        rw [port_of_set hlock, if_pos hfew]
        rfl
      next hmany => exact stepAt_of_set hback ⟨fun hdark => absurd (h.symm.trans hdark) (by decide), fun _ _ => by rw [if_neg hmany]⟩
    next h =>
      split
      next => exact stepAt_of_set (optics_setPort_same ..) ⟨fun hdark => absurd (h.symm.trans hdark) (by decide), fun hhold => absurd (h.symm.trans hhold) (by decide)⟩
      next => exact stepAt_self ⟨fun _ => rfl, fun hhold => absurd (h.symm.trans hhold) (by decide)⟩
    next h _ => exact stepAt_self ⟨fun _ => rfl, fun hhold => absurd hhold h⟩

theorem mc_return : ∃ u, exec (.mcReturn p e) s = .next u ∧ ((u.pkg p).engine e).mcRun = true ∧ ∀ n,
    (n ∈ enginePorts e → ((s.pkg p).port n).state = .hold →
      (Late (s.pkg p) n → ((u.pkg p).port n).state = .dark ∧ ((u.pkg p).port n).last = 5) ∧
      (¬ Late (s.pkg p) n → (u.pkg p).mcRuns n = true → ((u.pkg p).port n).state = (if ((s.pkg p).port n).live < portNeeds n then .locking else .live))) ∧
    (n ∉ enginePorts e → (u.pkg p).port n = (s.pkg p).port n) := by
  have hover := stepsAt_foldl (fun u m hen ht => stepAt_holdExpires (s := s) (p := p) (u := u) (m := m) hen ht) (nodup_enginePorts he) s rfl rfl
  obtain ⟨t, ht⟩ : ∃ t, ((enginePorts e).foldl (fun u m => u.holdExpires p m) s).modEngine p e (fun y => { y with mcRun := true }) = t := ⟨_, rfl⟩
  have hback := stepsAt_foldl (fun u m hen _ => stepAt_mcBack (x := t.pkg p) (u := u) (m := m) hen) (nodup_enginePorts he) t rfl rfl
  have hexec : exec (.mcReturn p e) s = .next ((enginePorts e).foldl (fun u m => u.mcBack p m) t) := by
    change execMcReturn p e s = _
    rw [← ht]
    exact congrArg Host.Outcome.next (if_neg (by omega))
  have hports : ∀ n, (t.pkg p).port n = (((enginePorts e).foldl (fun u m => u.holdExpires p m) s).pkg p).port n := fun n => by rw [← ht, port_modEngine]
  have hrun : ((((enginePorts e).foldl (fun u m => u.mcBack p m) t).pkg p).engine e).mcRun = true := by
    rw [engine_congr hback.engines, ← ht, engine_modEngine]
  refine ⟨_, hexec, hrun, fun n => ⟨fun hn hst => ⟨fun hlate => ?_, fun hno hruns => ?_⟩, fun hn => ?_⟩⟩
  · obtain ⟨hdark, hlast⟩ := (hover.here n hn hst).1 hlate
    rw [← hports n] at hdark hlast
    rw [(hback.here n hn).1 hdark]
    exact ⟨hdark, hlast⟩
  · have hsame := (hports n).trans ((hover.here n hn hst).2 hno)
    have hlive := (hback.here n hn).2 (by rw [hsame]; exact hst) ((mcRuns_congr hback.engines n).symm.trans hruns)
    rw [hsame] at hlive
    exact hlive
  · rw [hback.others n hn, hports n, hover.others n hn]

/-! ## Heater margins (R403) -/

omit hp he in
theorem pkg_rethrottle (q : Nat) : (s.rethrottle p).pkg q = s.pkg q := by
  refine foldl_keeps _ (fun u => State.pkg u q) (fun u d => ?_) _ s
  dsimp only
  split
  · rfl
  · split
    · rfl
    · rfl

/-- An engine whose channel ch takes new margins, each unless its port is in hold (R403). -/
def Engine.latched (y : Engine) (ch : Nat) (heldTx heldRx : Bool) (tx rx : Nat) : Engine := { y with
  margins := SMap.setD y.margins (50, 50) ch
    ((if heldTx then (SMap.getD y.margins (50, 50) ch).1 else min 50 tx), (if heldRx then (SMap.getD y.margins (50, 50) ch).2 else min 50 rx)) }

theorem heater_margins (ch tx rx : Nat) (hch : ch < 64) : ∃ u, exec (.heaterMarginChange p e ch tx rx) s = .next u ∧
    (((s.pkg p).port (sendPort e ch)).state = .hold → ((s.pkg p).port (receivePort e ch)).state = .hold → u = s) ∧
    (¬ (((s.pkg p).port (sendPort e ch)).state = .hold ∧ ((s.pkg p).port (receivePort e ch)).state = .hold) → SMap.sorted ((s.pkg p).engine e).margins = true →
      let old := SMap.getD ((s.pkg p).engine e).margins (50, 50) ch
      SMap.getD ((u.pkg p).engine e).margins (50, 50) ch =
        (if ((s.pkg p).port (sendPort e ch)).state = .hold then old.1 else min 50 tx, if ((s.pkg p).port (receivePort e ch)).state = .hold then old.2 else min 50 rx)) := by
  by_cases h : ((s.pkg p).port (sendPort e ch)).state = .hold ∧ ((s.pkg p).port (receivePort e ch)).state = .hold
  · have hexec : exec (.heaterMarginChange p e ch tx rx) s = .next s := by
      change execHeaterMarginChange p e ch tx rx s = _
      exact congrArg Host.Outcome.next ((if_neg (by omega)).trans (if_pos (by simp [h])))
    exact ⟨s, hexec, fun _ _ => rfl, fun hno => absurd h hno⟩
  · have hexec : exec (.heaterMarginChange p e ch tx rx) s = .next ((s.modEngine p e fun y => y.latched ch (decide (((s.pkg p).port (sendPort e ch)).state = .hold))
        (decide (((s.pkg p).port (receivePort e ch)).state = .hold)) tx rx).rethrottle p) := by
      change execHeaterMarginChange p e ch tx rx s = _
      exact congrArg Host.Outcome.next ((if_neg (by omega)).trans (if_neg (by simpa using h)))
    refine ⟨_, hexec, fun hs hr => absurd ⟨hs, hr⟩ h, fun _ hsorted => ?_⟩
    rw [pkg_rethrottle, engine_modEngine, Engine.latched, getD_setD_same hsorted]
    simp only [decide_eq_true_eq]
end

theorem engineEventsComplete : Spec.EngineEventsComplete := by
  intro s p e hp he was
  obtain ⟨u, hexec, hrun, hports⟩ := mc_return (s := s) hp he
  refine ⟨link_up hp he, link_down hp he, mc_reset hp he, ⟨u, hexec, hrun, fun n => ⟨fun hn hst => ⟨fun hlate => ((hports n).1 hn hst).1 hlate, fun hin hruns => ?_⟩, (hports n).2⟩⟩, heater_margins hp he⟩
  refine ((hports n).1 hn hst).2 ?_ hruns
  rintro ⟨f, hf, hstopped, hlate⟩
  exact absurd hlate (Nat.not_le.mpr (hin f hf hstopped))

/-- Settles O57. -/
theorem opticalEventsComplete : Obligations.OpticalEventsComplete := ⟨portEventsComplete, engineEventsComplete⟩

end Sys2Proof.Machine
